-- ==== Sys2Proof/Word.lean ====
section
/-! DEFINITION. The plain types every file uses: bytes, words, ticks, the two ports, TS96 times. -/

namespace Sys2Proof

/-- Eight bits (R316: messages are sequences of bytes). -/
abbrev Byte := BitVec 8

/-- A 32-bit word. -/
abbrev Word := BitVec 32

/-- A count of ticks of 5 ns (R7). -/
abbrev Tick := Nat

/-- An instant of TAI in units of 2⁻¹⁶ ns since the TAI origin (R272, R273). -/
abbrev Stamp := Int

/-- The two sensing ports, and the two network ports (R17). -/
inductive Port where
  | a
  | b
  deriving DecidableEq, Repr

/-- 0 for port A, 1 for port B, as every one-bit port field encodes it (R117, R120). -/
def Port.idx : Port → Nat
  | .a => 0
  | .b => 1

/-- The other port. -/
def Port.other : Port → Port
  | .a => .b
  | .b => .a

/-- The port a one-bit field names. -/
def Port.ofIdx (n : Nat) : Port := if n = 0 then .a else .b

/-- One value for each port. -/
structure PerPort (α : Type) where
  a : α
  b : α
  deriving DecidableEq, Repr

/-- The value of one port. -/
def PerPort.get {α : Type} (x : PerPort α) : Port → α
  | .a => x.a
  | .b => x.b

/-- Replace the value of one port. -/
def PerPort.set {α : Type} (x : PerPort α) (p : Port) (v : α) : PerPort α :=
  match p with
  | .a => { x with a := v }
  | .b => { x with b := v }

/-- A TS96 time as it stands in a message (R272). -/
structure TS96 where
  seconds : BitVec 48
  ns : BitVec 32
  frac : BitVec 16
  deriving DecidableEq, Repr

end Sys2Proof
end

