-- ==== Sys2Proof/Syntax.lean ====
section
/-! DEFINITION. The commands of the block: one constructor per row of spec/opcode_table.json, with the
operands each carries. `t` is the elapsed tick at which the step takes place (log entry 1). Whatever is
measured outside the module (light, voltages, edges, peers' messages) is an operand. -/

namespace Sys2Proof

/-! ### NCP operands -/

/-- A typed value (R318). -/
inductive Val where
  | u64 (v : BitVec 64)
  | s64 (v : BitVec 64)
  | f32 (v : BitVec 32)
  | ts96 (v : BitVec 96)
  | b128 (v : BitVec 128)
  | bytes (v : List Byte)
  deriving DecidableEq, Repr

/-- One entry of a CFG_SET (R335). -/
structure Entry where
  path : String
  val : Val
  deriving DecidableEq, Repr

/-- The header of a request as it arrives on a mailbox pair (R316), and the check value after its body
(R317). `kind` is the header's type field; `rsv` and `rsvHigh` are its reserved bits [63:51] and [191:184], `pad` what a
reserved field of its body holds (R10). -/
structure Hdr where
  pair : Nat
  at_ : Tick
  version : Nat
  kind : Nat
  draft : Bool
  client : BitVec 64
  request : BitVec 32
  bodyLen : Nat
  check : BitVec 32
  rsv : Nat := 0
  rsvHigh : Nat := 0
  pad : Nat := 0
  deriving DecidableEq, Repr

/-- The request of CAPTURE_DERIVE (R335, R240). -/
structure DeriveReq where
  capture : Nat
  port : Nat
  mode : Nat
  format : Nat
  gauge : Nat
  first : Nat
  count : Nat
  preset : Nat
  form : Nat
  factor : Nat
  stream : Nat
  deriving DecidableEq, Repr

/-! ### Optical and pipeline observations -/

/-- A seed laser (R36). -/
inductive Seed where
  | s0
  | s1
  deriving DecidableEq, Repr

/-- The criteria of R37. -/
inductive SeedCriterion where
  | lockError
  | power
  | drive
  | temperature
  | modeHop
  deriving DecidableEq, Repr

/-- An event found along the fibre (R56): position in 0.01 m, loss in 0.001 dB, reflectance in 0.01 dB
(none where it is not reflective). -/
structure FibreEvent where
  position : Nat
  loss : Int
  reflectance : Option Int
  deriving DecidableEq, Repr

/-- What the ranging phase measured (R55, R56, R59). -/
structure Ranging where
  lastPosition : Nat        -- last position 3 dB above noise, 0.01 m
  beyondRange : Bool
  loopSeen : Bool
  endReflectance : Int      -- 0.01 dB
  events : List FibreEvent
  deriving DecidableEq, Repr

/-- One sample of a port's four converters, 12-bit codes at 2.4 GS/s (R95). -/
structure Raw where
  xi : Int
  xq : Int
  yi : Int
  yq : Int
  deriving DecidableEq, Repr

/-- What the launch monitors, the receiver's converters and the Raman converters saw in the frame that ends at a
strobe (R47, R98, R146, R155). -/
structure FrameObs where
  peaks : List Int          -- slot 0 to 7, 0.01 dBm
  average : Nat             -- 1 µW over 100 ms
  dtsEnergy : Nat           -- energy of the frame's DTS pulse, pJ
  samples : List Raw        -- what the four converters read since the samples last delivered
  ramanAs : List Nat        -- codes of the anti-Stokes channel, one per tick
  ramanS : List Nat         -- codes of the Stokes channel
  ramanLinkOk : Bool        -- no online error of the Raman lanes (R405)
  deriving DecidableEq, Repr

/-- What a trace brings: the samples of the port's converters and of the interferometer monitor since those last delivered (R48, R95), and what was found in its return (R61, R261). -/
structure TraceObs where
  launch : Tick                   -- the launch tick of the trace's group
  samples : List Raw
  monitor : List (Int × Int)      -- the monitor's two outputs at 300 MS/s
  newLast : Option Nat            -- a new last point of backscatter, 0.01 m (R61)
  newLoss : Option (Nat × Nat)    -- position 0.01 m, size 0.001 dB of a new loss step (R61)
  fifoFull : Bool                 -- P0 had no room (R261)
  monitorOk : Bool                -- no online error of the interferometer lanes (R405)
  deriving DecidableEq, Repr

/-- Running sums of one polarisation's converters over 16 384 frames (R97). -/
structure IqStats where
  meanI : Int
  meanQ : Int
  ii : Int
  qq : Int
  iq : Int
  skew : List Int
  deriving DecidableEq, Repr

/-! ### Network, Raman, front end -/

/-- A NACK datagram as it arrives (R137). `fromAddr`, `fromUdp` are its source. -/
structure Nack where
  link : Port
  fromAddr : BitVec 128
  fromUdp : Nat
  magic : BitVec 16
  version : Nat
  kind : Nat
  streamId : Nat
  subscriber : Nat
  rangeCount : Nat
  nackNumber : BitVec 32
  ranges : List (Nat × Nat)
  check : BitVec 32
  reserved : BitVec 32 := 0
  deriving DecidableEq, Repr

/-- What the converter saw in a window (R167, R168): the ratio of input to reference as a fraction
`num / den`, full scale reached, and the lowest and highest reference in the window in µV. -/
structure FeObs where
  num : Int
  den : Nat
  fullScale : Bool
  refLow : Nat
  refHigh : Nat
  parityOk : Bool
  deriving DecidableEq, Repr

/-- A force-line comparator trip (R176). -/
inductive Trip where
  | excHigh
  | currentLow
  | currentLimit
  deriving DecidableEq, Repr

/-! ### Time base, emitter, power -/

/-- The inputs a frequency can be taken from (R274). -/
inductive FreqInput where
  | ref10m
  | ensClk
  deriving DecidableEq, Repr

/-- The data set an Announce carries, in the order IEEE 1588-2019 compares it (R284). -/
structure Announce where
  priority1 : Nat
  clockClass : Nat
  accuracy : Nat
  variance : Nat
  priority2 : Nat
  identity : BitVec 64
  stepsRemoved : Nat
  traceable : Bool
  utcOffset : Int
  intervalLog : Int
  domain : Nat
  deriving DecidableEq, Repr

/-- The kinds of PTP message R283 does not support. -/
inductive PtpUnsupported where
  | unicastNegotiation
  | management
  | security
  | transparentClock
  deriving DecidableEq, Repr

/-- The strobe a pattern runs on (R295). -/
inductive StrobeSource where
  | portA
  | portB
  | internal
  deriving DecidableEq, Repr

/-- A power source (R361). -/
inductive Source where
  | a
  | b
  | vaux
  deriving DecidableEq, Repr

/-- A threshold of R388 crossed for its persistence. -/
inductive Thermal where
  | warn
  | warnClear
  | bedrock
  | bedrockClear
  | fault
  deriving DecidableEq, Repr

/-- What BOOT found (R373, R374, R262, R268, R339, R400). -/
structure BootObs where
  lockstepOk : Bool
  bootSel : Bool
  imageAOk : Bool
  imageBOk : Bool
  pllOk : Bool
  rankFull : List Bool        -- per physical rank: needed full training
  rankOk : List Bool          -- per physical rank: passed in the end
  kernelOk : List Bool        -- per slot: the persistent image's check value held
  storedOk : Bool
  coreRetestOk : List Bool    -- per physical core: built-in test passed
  neighbourShorts : List (Nat × Nat)  -- pairs the neighbour test finds at READY entry; (c, c) where channel c fails its proof (R302, R303)
  deriving DecidableEq, Repr

/-! ### Memory, ensemble, health -/

/-- A request that entered a QoS port's FIFO (R252): port, logical burst address, write, bytes. -/
structure DramReq where
  port : Nat
  address : Nat
  write : Bool
  bytes : Nat
  arrived : Nat          -- controller clock of arrival, 1.25 ns
  deriving DecidableEq, Repr

/-- What the error code found in a burst (R264, R265): nothing, an error in one device over a number of
its lanes, or an uncorrectable one. -/
inductive EccObs where
  | clean
  | corrected (device lanes : Nat)
  | uncorrectable
  deriving DecidableEq, Repr

/-- A heartbeat (R343). -/
structure Heartbeat where
  id : BitVec 64
  ensId : BitVec 64
  fwMajor : Nat
  fwMinor : Nat
  state : Nat
  epoch : Nat
  ensEpoch : Nat
  digest : BitVec 64
  busGroup : Nat
  quality : Nat
  tableDigest : BitVec 64
  checkOk : Bool
  deriving DecidableEq, Repr

/-- A PREPARE (R343). -/
structure Prepare where
  coordinator : BitVec 64
  txn : Nat
  named : TS96
  deadline : TS96
  draftRev : Nat
  major : Nat
  checkOk : Bool
  deriving DecidableEq, Repr

/-- A VOTE (R343). -/
structure VoteMsg where
  member : BitVec 64
  txn : Nat
  result : Nat
  digest : BitVec 64
  ensEpoch : Nat
  busGroup : Nat
  role : Nat
  period : Nat
  checkOk : Bool
  deriving DecidableEq, Repr

/-- Readings of one housekeeping burst: channel and raw code (R178). -/
structure HkReading where
  channel : Nat
  raw : Nat
  deriving DecidableEq, Repr

/-! ### Basalt operands (R185 to R193) -/

/-- Operands of form M: register, An, mode, and the 24 bits of inc as they stand (R185). `close` is
true for the last operation of its bundle (log entry 11). -/
structure OpM where
  core : Nat
  reg : BitVec 6
  an : BitVec 3
  mode : BitVec 3
  inc : BitVec 24
  close : Bool
  deriving DecidableEq, Repr

/-- Operands of form M2. -/
structure OpM2 where
  core : Nat
  vd : BitVec 6
  an : BitVec 3
  mode : BitVec 3
  am : BitVec 3
  vs : BitVec 6
  inc : BitVec 15
  close : Bool
  deriving DecidableEq, Repr

/-- Operands of form S; `slot2` tells which of slots 0 and 2 holds it. -/
structure OpS where
  core : Nat
  slot2 : Bool
  sd : BitVec 5
  sa : BitVec 5
  sb : BitVec 5
  imm : BitVec 16
  close : Bool
  deriving DecidableEq, Repr

/-- Operands of form X. -/
structure OpX where
  core : Nat
  acc : BitVec 3
  va : BitVec 6
  vb : BitVec 6
  sx : BitVec 5
  shift : BitVec 6
  round : BitVec 2
  part : BitVec 2
  close : Bool
  deriving DecidableEq, Repr

/-- Operands of form V. -/
structure OpV where
  core : Nat
  d : BitVec 6
  a : BitVec 6
  b : BitVec 6
  w : Bool
  i : Bool
  imm : BitVec 16
  close : Bool
  deriving DecidableEq, Repr

/-- Operands of form C (R186): a scalar register, a vector register, a branch offset, loop top and end,
a control register index, a check unit, a second scalar register and k. -/
structure OpC where
  core : Nat
  s : BitVec 5
  v : BitVec 6
  off : BitVec 13
  top : BitVec 12
  end_ : BitVec 12
  ke : BitVec 8
  unit : BitVec 2
  sb : BitVec 5
  k : BitVec 2
  close : Bool
  deriving DecidableEq, Repr

/-- The commands. -/
inductive Instr where
  -- Novfold Command Protocol and configuration
  | cfgCommit (h : Hdr) (rev : BitVec 32) (mode : Nat) (named : TS96)
  | commitFTick (t : Tick) (port : Option Port)
  | hello (h : Hdr) (protocol : Nat)
  | ping (h : Hdr)
  | cfgGet (h : Hdr) (cursor : Nat) (paths : List String)
  | cfgSet (h : Hdr) (entries : List Entry)
  | cfgDiscard (h : Hdr)
  | cfgDiff (h : Hdr) (cursor : Nat)
  | cfgList (h : Hdr) (cursor : Nat) (stem : String)
  | cfgSave (h : Hdr)
  | cfgErase (h : Hdr)
  | timeSet (h : Hdr) (seconds : BitVec 64) (utc : BitVec 16)
  | tdcRead (h : Hdr) (input : Nat) (start : Nat) (limit : Nat)
  | kernelLoad (h : Hdr) (slot : Nat) (flags : Nat) (offset : Nat) (imageBytes : Nat) (data : List Byte)
  | kernelUnload (h : Hdr) (slot : Nat)
  | kernelSnapshot (h : Hdr) (core : Nat) (offset : Nat) (length : Nat)
  | captureAt (h : Hdr) (trigger : TS96) (profile : Nat)
  | captureSend (h : Hdr) (capture : Nat) (stream : Nat)
  | captureDerive (h : Hdr) (req : DeriveReq)
  | captureRelease (h : Hdr) (capture : Nat)
  | captureList (h : Hdr) (cursor : Nat)
  | eventSubscribe (h : Hdr) (mask : BitVec 256)
  | eventRead (h : Hdr) (start : Nat) (limit : Nat)
  | fwBegin (h : Hdr) (imageBytes : Nat)
  | fwWrite (h : Hdr) (offset : Nat) (data : List Byte)
  | fwFinish (h : Hdr)
  | fwActivate (h : Hdr) (image : Nat)
  | fwConfirm (h : Hdr)
  | reset (h : Hdr)
  | stateGet (h : Hdr)
  | run (h : Hdr)
  | stop (h : Hdr)
  | geodeEnter (h : Hdr) (deep : Nat) (mask : Nat) (wake : TS96)
  | wake (h : Hdr)
  | bedrockForce (h : Hdr)
  | bedrockRelease (h : Hdr)
  | ensStatus (h : Hdr)
  | ensMembers (h : Hdr) (cursor : Nat)
  | ensCommit (h : Hdr) (named : TS96) (policy : Nat) (members : List (BitVec 64 × Nat))
  | ensCaptureAt (h : Hdr) (trigger : TS96) (profile : Nat) (members : List (BitVec 64))
  | ensForget (h : Hdr) (member : BitVec 64)
  | logRead (h : Hdr) (start : Nat) (limit : Nat)
  | selftest (h : Hdr) (mask : Nat)
  | selftestResult (h : Hdr)
  | linkTest (h : Hdr) (link : Nat) (pattern : Nat) (seconds : Nat) (peer : BitVec 64)
  | linkResult (h : Hdr) (link : Nat)
  | telemetryRead (h : Hdr) (start : Nat) (limit : Nat)
  | lifeRead (h : Hdr)
  | unknownCommand (h : Hdr) (code : BitVec 16) (body : List Byte)
  | backgroundCommandComplete (t : Tick) (flashOk : Bool)
  -- committed actions at F
  | portRediscover (t : Tick) (p : Port)
  | seedSelect (t : Tick)
  | schedLockRealign (t : Tick) (p : Port)
  | timebaseStep (t : Tick)
  | neighbourTest (t : Tick) (shorts : List (Nat × Nat))
  -- transports
  | tcpConnect (t : Tick) (link : Port)
  | tcpClose (t : Tick) (pair : Nat)
  | sessionIdleTimeout (t : Tick) (pair : Nat)
  | ncpFramingLoss (t : Tick) (pair : Nat) (magic : BitVec 16) (bodyLen : Nat)
  | spiStatus (t : Tick)
  | spiWrite (t : Tick) (msg : List Byte)
  | spiRead (t : Tick) (length : Nat)
  | i2cPointerWrite (t : Tick) (data : List Byte)
  | i2cRead (t : Tick) (length : Nat)
  -- frames and launches
  | frameStrobe (t : Tick) (p : Port) (obs : FrameObs)
  | groupLaunch (t : Tick) (p : Port) (g : Nat)
  | thinnedLaunch (t : Tick) (p : Port)
  | internalStrobe (t : Tick)
  | proofWindow (t : Tick) (p : Option Port) (opens shorts : List Nat)
  | dtsSwitchSettled (t : Tick)
  | patternStep (t : Tick) (src : StrobeSource) (step : Nat)
  | syncWordReceive (t : Tick) (word : BitVec 64)
  | lockWordMissing (t : Tick)
  | lockAcquireTimeout (t : Tick) (p : Port)
  | syncCollision (t : Tick)
  -- seeds
  | seedFault (t : Tick) (sd : Seed) (why : SeedCriterion)
  | seedSwitchover (t : Tick)
  | seedLockAcquired (t : Tick) (sd : Seed)
  | seedLocked (t : Tick) (sd : Seed)
  | seedRelockAttempt (t : Tick) (sd : Seed) (ok : Bool)
  -- ports and discovery
  | launchClamp (t : Tick) (p : Port)
  | noFibreProbe (t : Tick) (p : Port) (found : Bool)
  | discoveryContinuityEnd (t : Tick) (p : Port) (found : Bool)
  | discoveryRampEnd (t : Tick) (p : Port)
  | discoveryRangingEnd (t : Tick) (p : Port) (r : Ranging)
  | discoveryProfileEnd (t : Tick) (p : Port) (profile : List Nat) (winPeaks : List Nat)
  | aprHoldExpiry (t : Tick) (p : Port) (found : Bool)
  -- pipeline
  | traceFieldWords (t : Tick) (p : Port) (obs : TraceObs)
  | traceStrainWords (t : Tick) (p : Port) (fifoFull : Bool)
  | gainRunEvaluation (t : Tick) (p : Port)
  | iqTermUpdate (t : Tick) (p : Port) (x y : IqStats)
  | combineWeightRecompute (t : Tick) (p : Port) (noiseless : List Nat)
  | qualitySummary (t : Tick) (p : Port)
  -- streams and links
  | decimationTileProcessed (t : Tick) (p : Port)
  | nspTileSend (t : Tick) (stream : Nat)
  | retxTileRelease (t : Tick) (stream : Nat)
  | nack (t : Tick) (stream : Nat) (n : Nack)
  | retransmissionSend (t : Tick) (link : Port)
  | idle (t : Tick) (stream : Nat) (sub : Nat)
  | suspended (t : Tick) (stream : Nat)
  | networkLinkLoss (t : Tick) (link : Port)
  | networkLinkUp (t : Tick) (link : Port) (gigabit : Bool)
  -- Raman
  | darkFrameSecondHalf (t : Tick) (p : Port) (offset16 : List Nat) (meanCode16 : List Nat)
  | dtsResultPublish (t : Tick) (p : Port) (number : Nat)
  | dtsFeedbackCheck (t : Tick) (p : Port)
  -- front end and housekeeping
  | feScanStart (t : Tick)
  | feSlotStart (t : Tick) (ch : Nat)
  | feWindowEnd (t : Tick) (ch : Nat) (obs : FeObs)
  | feResultPublish (t : Tick) (ch : Nat) (broken : Nat)
  | feComplianceTrip (t : Tick) (ch : Nat) (trip : Trip)
  | hkBurst (t : Tick) (readings : List HkReading)
  -- Basalt engine
  | basaltTileEntry (t : Tick) (inst : Nat)
  | interruptEntry (core : Nat)
  | keTimerExpiry (core : Nat)
  | deadlineWarn (core : Nat)
  | dmaComplete (core : Nat) (ch : Nat)
  | kernelDeadline (t : Tick) (core : Nat)
  | coreHardwareFault (t : Tick) (core : Nat) (cause : Nat)
  | spareCoreLoaded (t : Tick) (core : Nat)
  -- Basalt operations
  | nop (core : Nat) (close : Bool)
  | rotDecrement (core : Nat)
  | vld (o : OpM)
  | vldb (o : OpM)
  | vld2 (o : OpM2)
  | vldst (o : OpM2)
  | vst (o : OpM)
  | vstm (o : OpM)
  | sld (o : OpM)
  | sst (o : OpM)
  | aaddi (o : OpM)
  | amov (o : OpS) (an : BitVec 3)
  | aget (o : OpS) (an : BitVec 3)
  | sadd (o : OpS)
  | ssub (o : OpS)
  | saddi (o : OpS)
  | sand (o : OpS)
  | sor (o : OpS)
  | sxor (o : OpS)
  | sshl (o : OpS)
  | sshr (o : OpS)
  | sshra (o : OpS)
  | smovi (o : OpS)
  | smovih (o : OpS)
  | smul (o : OpS)
  | brickIn (o : OpS)
  | scratchIn (o : OpS)
  | scratchOut (o : OpS)
  | output (o : OpS)
  | waitd (o : OpS)
  | vmac (o : OpX)
  | vmsu (o : OpX)
  | vmul (o : OpX)
  | vmacs (o : OpX)
  | vsqa (o : OpX)
  | vmulq (o : OpX) (vd : BitVec 6)
  | accclr (o : OpX)
  | accrd16 (o : OpX)
  | accrd32 (o : OpX)
  | accsv (o : OpX)
  | accld (o : OpX)
  | vadd (o : OpV)
  | vsub (o : OpV)
  | vadds (o : OpV)
  | vsubs (o : OpV)
  | vabs (o : OpV)
  | vmax (o : OpV)
  | vmin (o : OpV)
  | vand (o : OpV)
  | vor (o : OpV)
  | vxor (o : OpV)
  | vshl (o : OpV)
  | vshra (o : OpV)
  | vshrl (o : OpV)
  | vmov (o : OpV)
  | vbcast (o : OpV)
  | vcmpeq (o : OpV)
  | vcmpgt (o : OpV)
  | vcmpge (o : OpV)
  | vsel (o : OpV)
  | vext (o : OpV)
  | vins (o : OpV)
  | vperm (o : OpV)
  | vredadd (o : OpV)
  | vredmax (o : OpV)
  | br (o : OpC)
  | brz (o : OpC)
  | brnz (o : OpC)
  | bri (o : OpC)
  | call (o : OpC)
  | reti (o : OpC)
  | loopa (o : OpC)
  | loopb (o : OpC)
  | mfc (o : OpC)
  | mtc (o : OpC)
  | dint (o : OpC)
  | eint (o : OpC)
  | tend (o : OpC) (t : Tick)
  | trace (o : OpC)
  | crcv (o : OpC)
  | crcs (o : OpC)
  | crcseed (o : OpC)
  | crcfin (o : OpC)
  -- triggers and captures
  | triggerEvaluation (t : Tick) (cond : Nat) (which : Nat)
  | evtOutPulseEnd (t : Tick) (j : Nat)
  | timeConditionInstant (t : Tick) (cond : Nat)
  | triggerGroupNotify (t : Tick)
  | captureRecordCopy (t : Tick) (capture : Nat)
  | captureComplete (t : Tick) (capture : Nat)
  | captureRetainExpiry (t : Tick) (capture : Nat)
  | captureSendComplete (t : Tick) (capture : Nat)
  | captureDeriveComplete (t : Tick)
  -- memory
  | dramBurstBoundary (clock : Nat) (arrivals : List DramReq) (ecc : EccObs)
  | refreshInterval (clock : Nat) (rank : Nat)
  | refreshRatePoll (t : Tick) (rank : Nat) (doubled : Bool)
  | rowIdleClose (clock : Nat) (rank : Nat) (bank : Nat)
  | qosMeterWindow (t : Tick)
  | requestUrgencyAge (clock : Nat) (port : Nat)
  | patrolScrubRead (t : Tick) (ecc : EccObs)
  | eccWriteBack (t : Tick) (address : Nat)
  | migrationSpareVerified (t : Tick) (ok : Bool) (full : Bool)
  | migrationComplete (t : Tick)
  | wckDqTracking (t : Tick) (rank : Nat) (moves : List Int)
  | trackingStep (t : Tick) (rank : Nat)
  | spareRankTest (t : Tick)
  | spareRankTestEnd (t : Tick) (failing : Option Nat)
  -- time base
  | refInputPresent (t : Tick) (inp : FreqInput)
  | refInputLost (t : Tick) (inp : FreqInput)
  | freqGateEnd (t : Tick) (inp : FreqInput) (devE15 : Int)
  | ppsInEdge (t : Tick) (sub : Nat) (residual : Nat)
  | ppsInTimeout (t : Tick)
  | timeSteerUpdate (t : Tick) (freqErrE15 : Int)
  | ocxoAgeingStep (t : Tick)
  | ptpAnnounce (t : Tick) (p : Port) (a : Announce)
  | ptpAnnounceTimeout (t : Tick) (p : Port)
  | ptpSync (t : Tick) (p : Port) (master : BitVec 64) (seq : Nat) (twoStep : Bool) (t1 : Stamp) (rx : Stamp)
  | ptpFollowUp (t : Tick) (p : Port) (master : BitVec 64) (seq : Nat) (t1 : Stamp)
  | ptpDelayReqSend (t : Tick) (p : Port) (tx : Stamp)
  | ptpDelayResp (t : Tick) (p : Port) (master : BitVec 64) (seq : Nat) (t4 : Stamp)
  | ptpPdelayResp (t : Tick) (p : Port) (seq : Nat) (t2 t3 t4 : Stamp)
  | ptpUnsupportedMessage (t : Tick) (p : Port) (kind : PtpUnsupported)
  | tdcEdge (t : Tick) (input : Nat) (rising : Bool) (subPs : Nat)
  | tdcStampDrain (t : Tick) (input : Nat)
  | tdcGateFit (t : Tick) (input : Nat)
  | ppsOutEdge (t : Tick)
  | ppsOutFall (t : Tick)
  -- emitter drive
  | chainLoadComplete (t : Tick) (headers : List (BitVec 16)) (words : List (List (BitVec 16))) (checks : List (BitVec 16)) (readback : List (List (BitVec 16)))
  | driveMeasurement (t : Tick) (ch : Nat) (current : Nat) (pinMv : Nat) (neighbour : Option (Nat × Nat))
  | failoverRampComplete (t : Tick) (p : Port)
  | pumpAgeingRecord (t : Tick) (ch : Nat) (current : Nat) (predicted : Nat)
  | ledBlink (t : Tick) (x : Port)
  -- ensembles
  | dnssdPeerFound (t : Tick) (id : BitVec 64) (addr : BitVec 128)
  | heartbeat (t : Tick) (m : Heartbeat)
  | heartbeatSend (t : Tick)
  | timecheck (t : Tick) (id : BitVec 64) (t1 t2 t3 t4 : Stamp)
  | timecheckSend (t : Tick)
  | table (t : Tick) (from_ : BitVec 64) (members : List (BitVec 64))
  | prepare (t : Tick) (m : Prepare)
  | vote (t : Tick) (m : VoteMsg)
  | decide (t : Tick) (coordinator : BitVec 64) (txn : Nat) (commit : Bool) (ensEpoch : Nat)
  | outcome (t : Tick) (coordinator : BitVec 64) (txn : Nat) (from_ : BitVec 64) (answer : Option Nat)
  | prepareDeadline (t : Tick)
  | outcomeQuery (t : Tick)
  | inDoubtTimeout (t : Tick)
  | memberLost (t : Tick) (id : BitVec 64)
  | memberForget (t : Tick) (id : BitVec 64)
  | ensTimeEvaluation (t : Tick)
  | ensCaptureTimeout (t : Tick)
  -- power and states
  | sourceLoss (t : Tick) (src : Source)
  | sourcePresent (t : Tick) (src : Source)
  | poeClassification (t : Tick) (p : Port) (cls : Nat)
  | lldpPowerAllocation (t : Tick) (p : Port) (alloc : Nat)
  | mpsPulse (t : Tick)
  | levelEvaluation (t : Tick)
  | shedUndo (t : Tick)
  | bedrockExit (t : Tick)
  | bootComplete (t : Tick) (obs : BootObs)
  | readyToRunning (t : Tick)
  | alarmInterval (t : Tick)
  | wakeInput (t : Tick) (shorts : List (Nat × Nat))
  | comparatorWake (t : Tick) (x : Port) (mv : Nat) (beyondUs : Nat) (shorts : List (Nat × Nat))
  | wakeTimer (t : Tick) (shorts : List (Nat × Nat))
  | wakeDatagram (t : Tick) (h : Hdr) (udp : Nat) (link : Port) (shorts : List (Nat × Nat))
  | grantWake (t : Tick) (shorts : List (Nat × Nat))
  | geodeLinkTry (t : Tick) (p : Port) (up : Bool)
  | pfail (t : Tick) (external : Bool)
  | saveComplete (t : Tick) (ok : Bool)
  | holdCapacitanceMeasure (t : Tick) (microfarad : Nat) (millivolt : Nat)
  | thermalThreshold (t : Tick) (which : Thermal)
  | faultRetry (t : Tick)
  | resetN (t : Tick)
  | lockstepMismatch (t : Tick)
  | fwTrialTimeout (t : Tick)
  -- health
  | wavelengthCalibration (t : Tick) (errorKhz : Int)
  | flashBlockErase (t : Tick) (block : Nat) (ok : Bool)
  | telemetryRecord (t : Tick)
  | telemetryHourly (t : Tick)
  | lifeAccount (t : Tick)
  | selftestComplete (t : Tick) (failed : Nat) (details : List Nat)
  | linkTestEnd (t : Tick) (link : Nat) (bits : Nat) (errors : Nat)
  | linkErrorCheck (t : Tick) (link : Nat) (errors : Nat)
  | pfailNRelease (t : Tick)
  | peerConnectionIdle (t : Tick) (peer : BitVec 64)
  | ensCaptureAnswer (t : Tick) (id : BitVec 64) (txn : Nat) (result : Nat) (capture : Nat)
  | arpNeighbourSolicitation (t : Tick) (link : Port) (ipv6 : Bool) (addr : BitVec 128)
  deriving DecidableEq, Repr

end Sys2Proof
end

