-- ==== Sys2Proof/Decode.lean ====
section
/-! DEFINITION. Commands spelled as bits. The opcode table gives no row any bits: a command of this block comes as a message, a pin event or
an observation, never as a word, so no word spells one. -/

namespace Sys2Proof

/-- The command a word of `nbits` bits spells: none, since no row of the opcode table has bits. -/
def decodeTableWord (_nbits _w : Nat) : Option Instr := none

end Sys2Proof
end

