-- ==== Sys2Proof/Machine/Num.lean ====
section
/-! DEFINITION. Integer and fixed-point mathematics: bytes, square root, logarithm, angle, power of two, and binary32
values as exact rationals. The spec fixes results in published units; the inner precision is log entry 13. -/

namespace Sys2Proof.Machine

/-! ### Bytes -/

/-- The `n` low bytes of a number, least significant first (R316). -/
def le : Nat → Nat → List Byte
  | 0, _ => []
  | n + 1, v => BitVec.ofNat 8 v :: le n (v / 256)

/-- The number that little-endian bytes spell. -/
def ofLe : List Byte → Nat
  | [] => 0
  | b :: rest => b.toNat + 256 * ofLe rest

/-- A signed number in `n` little-endian bytes. -/
def leInt (n : Nat) (v : Int) : List Byte := le n (v % (2 ^ (8 * n) : Int)).toNat

/-- `count` bytes from an offset. -/
def slice (bs : List Byte) (at_ count : Nat) : List Byte := (bs.drop at_).take count

/-- The little-endian field of `count` bytes at an offset. -/
def fieldLe (bs : List Byte) (at_ count : Nat) : Nat := ofLe (slice bs at_ count)

/-- ASCII bytes of a text. -/
def ascii (s : String) : List Byte := s.toList.map (fun c => BitVec.ofNat 8 c.toNat)

/-- A text with its length byte (R318). -/
def str (s : String) : List Byte := BitVec.ofNat 8 s.length :: ascii s

/-! ### Division and rounding -/

/-- Quotient rounded up. -/
def ceilDiv (a b : Nat) : Nat := (a + b - 1) / b

/-- Nearest integer to `n / d` for positive `d`, a half going away from zero. -/
def roundDiv (n : Int) (d : Nat) : Int :=
  if 0 ≤ n then ((2 * n.toNat + d) / (2 * d) : Nat) else -(((2 * (-n).toNat + d) / (2 * d) : Nat) : Int)

/-- Nearest integer to `n / d`, a half going to the even one. -/
def roundDivEven (n : Int) (d : Nat) : Int :=
  let q := n / d
  let r := n % d
  if 2 * r < d then q else if 2 * r > d then q + 1 else if q % 2 = 0 then q else q + 1

/-- Hold a value within two bounds. -/
def clampInt (lo hi v : Int) : Int := if v < lo then lo else if hi < v then hi else v

/-- Saturate to `w` signed bits. -/
def satS (w : Nat) (v : Int) : Int := clampInt (-(2 ^ (w - 1) : Int)) ((2 ^ (w - 1) : Int) - 1) v

/-- Wrap to `w` signed bits. -/
def wrapS (w : Nat) (v : Int) : Int :=
  let m := (v % (2 ^ w : Int)).toNat
  if m < 2 ^ (w - 1) then m else (m : Int) - 2 ^ w

/-- One bit of a number. -/
def bitOf (v n : Nat) : Bool := v / 2 ^ n % 2 = 1

/-- 1 for true. -/
def b2n (b : Bool) : Nat := if b then 1 else 0

/-- Sum of a list. -/
def sumN (l : List Nat) : Nat := l.foldl (· + ·) 0
/-- Sum of a list of integers. -/
def sumZ (l : List Int) : Int := l.foldl (· + ·) 0
/-- Largest of a list, 0 where it is empty. -/
def maxN (l : List Nat) : Nat := l.foldl max 0

/-- Replace the element at a position. -/
def setAt {α : Type} (l : List α) (n : Nat) (v : α) : List α := l.set n v

/-- Change the element at a position. -/
def modAt {α : Type} (f : α → α) : Nat → List α → List α
  | _, [] => []
  | 0, x :: rest => f x :: rest
  | n + 1, x :: rest => x :: modAt f n rest

/-! ### Square root, logarithm, angle, power -/

/-- Square root from bit `b` down. -/
def isqrtBits : Nat → Nat → Nat → Nat
  | 0, n, r => if (r + 1) * (r + 1) ≤ n then r + 1 else r
  | b + 1, n, r => isqrtBits b n (if (r + 2 ^ (b + 1)) * (r + 2 ^ (b + 1)) ≤ n then r + 2 ^ (b + 1) else r)

/-- The integer square root. -/
def isqrt (n : Nat) : Nat := isqrtBits (Nat.log2 n / 2 + 1) n 0

/-- Fraction bits of a logarithm by repeated squaring of a mantissa in [2⁴⁰, 2⁴¹). -/
def log2Frac : Nat → Nat → Nat → Nat
  | 0, _, acc => acc
  | n + 1, m, acc =>
    let sq := m * m / 2 ^ 40
    if sq < 2 ^ 41 then log2Frac n sq (2 * acc) else log2Frac n (sq / 2) (2 * acc + 1)

/-- log₂ of a positive number, in units of 2⁻³². -/
def log2Fix (n : Nat) : Int :=
  let e := Nat.log2 n
  let m := if e ≤ 40 then n * 2 ^ (40 - e) else n / 2 ^ (e - 40)
  (e : Int) * 4294967296 + log2Frac 32 m 0

/-- log₁₀ 2 in units of 2⁻⁴⁸. -/
def log10of2 : Int := 84732411018728

/-- `scale` × log₁₀(num/den) rounded, for positive num and den. -/
def scaledLog10 (scale : Nat) (num den : Nat) : Int :=
  roundDiv ((log2Fix num - log2Fix den) * log10of2 * scale) (2 ^ 80)

/-- Natural logarithm of num/den in units of 10⁻⁶ scaled by `scale`/10⁶, for positive num and den. -/
def scaledLn (scale : Nat) (num den : Nat) : Int :=
  roundDiv ((log2Fix num - log2Fix den) * scale * 693147180559945309) (2 ^ 32 * 1000000000000000000)

/-- Sum of rationals. -/
def sumQ (l : List Rat) : Rat := l.foldl (· + ·) 0

/-- 2^(2⁻ⁱ) for i from 1, in units of 2⁻⁶⁰. -/
def exp2Table : List Nat :=
  [1630477228166597777, 1371062456318104878, 1257269815929830109, 1203965700457697123, 1178167198179750971, 1165475996665667822,
   1159181754367685998, 1156047391917129430, 1154483390303177194, 1153702183144312517, 1153311777820267002, 1153116624702523244,
   1153019060527275927, 1152970281535252809, 1152945892813103188, 1152933698645489088, 1152927601610046619, 1152924553104416455,
   1152923028854624131, 1152922266730483658, 1152921885668602343, 1152921695137708916, 1152921599872274010, 1152921552239559509,
   1152921528423202997, 1152921516515024925, 1152921510560935935, 1152921507583891452, 1152921506095369213, 1152921505351108094,
   1152921504978977535, 1152921504792912256]

/-- Product of the table's entries picked by the fraction's bits, from bit `b` down. -/
def exp2Frac : List Nat → Nat → Nat → Nat → Nat
  | [], _, _, acc => acc
  | t :: ts, f, b, acc => exp2Frac ts f (b - 1) (if bitOf f b then acc * t / 2 ^ 60 else acc)

/-- 2^(x / 2³²) as a multiple of 2⁻⁶⁰ times a power of two: (mantissa, exponent). -/
def exp2Fix (x : Int) : Nat × Int := (exp2Frac exp2Table (x % (4294967296 : Int)).toNat 31 (2 ^ 60), x / (4294967296 : Int))

/-- atan(2⁻ⁱ) in units of 2⁻⁴⁸ turn. -/
def atanTable : List Nat :=
  [35184372088832, 20770547670515, 10974586953444, 5570871696862, 2796246208089, 1399486241028,
   699913886760, 349978300884, 174991820497, 87496244017, 43748163730, 21874087080,
   10937044192, 5468522177, 2734261099, 1367130551, 683565276, 341782638,
   170891319, 85445659, 42722830, 21361415, 10680707, 5340354,
   2670177, 1335088, 667544, 333772, 166886, 83443,
   41722, 20861, 10430, 5215, 2608, 1304,
   652, 326, 163, 81]

/-- Rotations that bring a vector to the positive real axis, summing the angle. -/
def cordic : List Nat → Nat → Int → Int → Int → Int
  | [], _, _, _, z => z
  | t :: ts, n, x, y, z =>
    if 0 ≤ y then cordic ts (n + 1) (x + y / (2 : Int) ^ n) (y - x / (2 : Int) ^ n) (z + t)
    else cordic ts (n + 1) (x - y / (2 : Int) ^ n) (y + x / (2 : Int) ^ n) (z - t)

/-- The angle of (x, y) in units of 2⁻⁴⁸ turn, in (−2⁴⁷, 2⁴⁷]; 0 for the zero vector. -/
def angle (x y : Int) : Int :=
  let m := max x.natAbs y.natAbs
  if m = 0 then 0 else
  let sh := 60 - Nat.log2 m
  let x' := x * (2 : Int) ^ sh
  let y' := y * (2 : Int) ^ sh
  if 0 ≤ x then cordic atanTable 0 x' y' 0
  else if 0 ≤ y then 2 ^ 47 - cordic atanTable 0 (-x') y' 0
  else -(2 ^ 47) - cordic atanTable 0 (-x') y' 0

/-! ### binary32 -/

/-- The value of a finite binary32; none for an infinity or a NaN. -/
def f32Val (b : Nat) : Option Rat :=
  let e : Nat := b / 2 ^ 23 % 256
  let m : Nat := b % 2 ^ 23
  let sgn : Int := if bitOf b 31 then -1 else 1
  if e = 255 then none
  else if e = 0 then some (mkRat (sgn * (m : Int)) (2 ^ 149))
  else if 150 ≤ e then some (mkRat (sgn * (((2 ^ 23 + m) * 2 ^ (e - 150) : Nat) : Int)) 1)
  else some (mkRat (sgn * ((2 ^ 23 + m : Nat) : Int)) (2 ^ (150 - e)))

/-- True for a NaN. -/
def f32IsNaN (b : Nat) : Bool := (b / 2 ^ 23 % 256 = 255) && (b % 2 ^ 23 ≠ 0)

/-- The exponent of a positive fraction: the largest e with 2^e ≤ n/d. -/
def ratExp (n d : Nat) : Int :=
  let e : Int := (Nat.log2 n : Int) - Nat.log2 d
  let below : Bool := if 0 ≤ e then n < d * 2 ^ e.toNat else n * 2 ^ (-e).toNat < d
  if below then e - 1 else e

/-- Round a rational to binary32, ties to even, overflow to infinity. -/
def f32Round (r : Rat) : Nat :=
  let n := r.num.natAbs
  let d := r.den
  if n = 0 then 0 else
  let e := max (ratExp n d) (-126)
  let sh : Int := 23 - e
  let m : Nat := (if 0 ≤ sh then roundDivEven (n * 2 ^ sh.toNat : Nat) d
    else roundDivEven (n : Nat) (d * 2 ^ (-sh).toNat)).toNat
  let bits : Nat := if m < 2 ^ 23 then m else ((e + 126).toNat) * 2 ^ 23 + m
  (if r.num < 0 then 2 ^ 31 else 0) + (if 0x7F800000 ≤ bits then 0x7F800000 else bits)

/-- The value of a binary32, an infinity or NaN read as 0 (a published limit keeps them out of parameters, R324). -/
def f32D (b : Nat) : Rat := (f32Val b).getD 0

end Sys2Proof.Machine
end

