-- ==== Sys2Proof/Config.lean ====
section
/-! DEFINITION. What the factory fixes, and the free values: constants with no body, so that nothing
can be proved about what they are. -/

namespace Sys2Proof.Config

/-- The module ID, fixed at manufacture (R3). Free: log entry 4. -/
opaque moduleId : BitVec 64

/-- The measured launch delay of a port in ps, from 1 049 950 to 1 050 050 (R289). Free: log entry 4. -/
opaque launchDelayPs : Nat → Nat

/-- γ in K as binary32 bits, loaded from factory calibration (R156). Free: log entry 4. -/
opaque gammaF32 : BitVec 32

/-- The coil position z_c of a port, unit 0.01 m, two's complement (R156). Free: log entry 4. -/
opaque coilPosition : Nat → BitVec 32

/-- The factory coil term γ/T_c + ln Q_c of a port, unit 10⁻⁶ (R395). Free: log entry 4. -/
opaque coilTerm : Nat → Int

/-- Public key k as an affine P-384 point (R338). Free: log entry 4. -/
opaque otpKeyX : Nat → Nat
/-- Second coordinate of public key k (R338). Free: log entry 4. -/
opaque otpKeyY : Nat → Nat

/-- Factory seed current and booster current of a channel, in its LSB (R306). Free: log entry 4. -/
opaque factoryCurrent : Nat → Nat

/-- The tick count the counter starts at in a given boot, before scaling to a multiple of 20 (R273
gives only that it is a multiple of 20). Free: log entry 8. -/
opaque startCount : Nat → Nat

/-- Factory coefficient c.i.j of a front-end channel that measures a temperature, coils A and B and the block (R162, R175), as a
binary32 pattern: it gives °C. Free: log entry 67. -/
opaque feFactory : Nat → Nat → Nat → BitVec 32

/-- Coefficient `i` of the decimation filter (preset, ratio, final stage, minimum phase), in units of
2⁻³⁰, where R121 and R122 do not fix it (`filterTaps`). Free: log entry 9. -/
opaque firTap : Nat → Nat → Bool → Bool → Nat → Int

/-- A fresh undefined value: the n-th one drawn, as an unbounded pattern of bits (log entry 2). -/
opaque freeBits : Nat → Nat

/-- The packing of length and event positions into the 64-bit signature (R57 names what it is formed
from, not how). Free: log entry 10. -/
opaque fibreSignature : Nat → List Nat → BitVec 64

/-- The bias in mV for an APD multiplication and thermistor reading (R144: factory table). Free: log
entry 4. -/
opaque apdBiasMv : Nat → Nat → Nat → Int

/-- The value of a housekeeping reading in the channel's unit as binary32 (R178). Free: log entry 4. -/
opaque hkValue : Nat → Nat → BitVec 32

/-- The delay that training finds for a lane of a device of a rank at a temperature (R262). Free: log entry 4. -/
opaque laneDelay : Nat → Nat → Nat → Int → Nat

/-- The bin of a port's reference plane, calibrated at the factory, nominally 420 (R146). Free: log entry 4. -/
opaque binRef : Nat → Nat

/-- The voltage of LED_SUP in mV, before it is brought into 28 500 to 31 500 (R292). Free: log entry 4. -/
opaque ledSupMv : Nat

/-- Factory terms of the receiver of a port, by polarisation, in 2⁻¹⁶: o_I, o_Q, a_I, a_Q, b (R97). Free: log entry 60. -/
opaque iqFactory : Nat → Nat → Nat → Int

/-- Coefficient of the 16-tap fractional-delay filter for a skew in 1/64 sample, in 2⁻³⁰ (R97). Free: log entry 60. -/
opaque skewTap : Int → Nat → Int

/-- The calibrated inverse of a receive gain step, in 2⁻¹⁶ (R97, R98). Free: log entry 60. -/
opaque gainInverse : Nat → Int

/-- The taps of stage 2's channel filter in 2⁻³⁰; R100 gives its response. Free: log entry 60. -/
opaque channelTaps : List Int

/-- Coefficient of the 32-tap interpolator for a phase of 64, in 2⁻³⁰ (R103). Free: log entry 60. -/
opaque pointTap : Nat → Nat → Int

/-- θ of the interferometer from its two outputs, in 2⁻³² turn: their relation is calibrated (R102). Free: log entry 60. -/
opaque monitorPhase : Int → Int → Int

/-- Coefficient of the 8-tap interpolation that places T_i between samples, in 2⁻³⁰ (R102). Free: log entry 60. -/
opaque laserTap : Nat → Int

/-- The code of a booster channel that the OPTICAL_COIL test's launch needs at least (R44 gives no value). Free: log entry 54. -/
opaque pumpMinimum : Nat → Nat

/-- The destination of VMULQ in a slot's bits: form X has no field for a third vector register (R185, R194). Free: log entry 38. -/
opaque vmulqVd : Nat → BitVec 6

/-- The digest of a member table (R343 names the table digest, not how it is formed). Free: log entry 20. -/
opaque tableDigest : List (BitVec 64) → BitVec 64

end Sys2Proof.Config
end

