-- ==== Sys2Proof/Machine/Params.lean ====
section
/-! DEFINITION. The parameter tree (R11, R323, R324): one row per pattern of paths, with width, access code, reset value, swap class,
typed-value kind and published limits; the key of each parameter; reading a path as a key and writing a key as a path. -/

namespace Sys2Proof.Machine

/-- The typed-value kinds a parameter can have (R318, R324). -/
inductive Kind where
  | u64
  | s64
  | f32
  | ts96
  | b128
  deriving DecidableEq, Repr

/-- Access codes (R12). -/
inductive Access where
  | ro
  | rw
  | w1c
  | wo
  deriving DecidableEq, Repr

/-- Swap classes (R14, R31). -/
inductive Swap where
  | fixed
  | frame
  | block
  | integration
  | restart
  deriving DecidableEq, Repr

/-- A piece of a path pattern: letters as they stand, a port letter, or a decimal index below `n` (R17, R323). -/
inductive Seg where
  | lit (s : String)
  | ab
  | num (n : Nat)
  deriving DecidableEq, Repr

/-- One row of the parameter tables. `lo` and `hi` are the published limits; signed and float values stand as bit patterns. -/
structure PRow where
  segs : List Seg
  width : Nat
  access : Access
  reset : Nat
  swap : Swap
  kind : Kind
  lo : Nat
  hi : Nat
  deriving DecidableEq, Repr

/-- A row, written in the order of the spec's columns. -/
def pr (segs : List Seg) (width : Nat) (access : Access) (reset : Nat) (swap : Swap) (kind : Kind) (lo hi : Nat) : PRow :=
  ⟨segs, width, access, reset, swap, kind, lo, hi⟩

/-- Rows 0 to 49 of the parameter tables, in the order of the chapters. -/
def paramRows0 : List PRow := [
  pr [.lit "port.", .ab, .lit ".enable"] 1 .rw 0 .restart .u64 0 1,
  pr [.lit "port.", .ab, .lit ".rediscover"] 1 .wo 0 .restart .u64 0 1,
  pr [.lit "port.", .ab, .lit ".resume"] 1 .rw 0 .frame .u64 0 1,
  pr [.lit "port.", .ab, .lit ".apr.hold_s"] 16 .rw 10 .frame .u64 2 3600,
  pr [.lit "port.", .ab, .lit ".state"] 3 .ro 0 .fixed .u64 0 7,
  pr [.lit "port.", .ab, .lit ".hold_reason"] 3 .ro 0 .fixed .u64 0 7,
  pr [.lit "port.", .ab, .lit ".hold_reasons"] 4 .ro 0 .fixed .u64 0 15,
  pr [.lit "port.", .ab, .lit ".fibre.length"] 32 .ro 0 .fixed .u64 0 4294967295,
  pr [.lit "port.", .ab, .lit ".fibre.round_trip"] 32 .ro 0 .fixed .u64 0 4294967295,
  pr [.lit "port.", .ab, .lit ".fibre.auto_period"] 32 .ro 0 .fixed .u64 0 4294967295,
  pr [.lit "port.", .ab, .lit ".fibre.end_kind"] 3 .ro 0 .fixed .u64 0 7,
  pr [.lit "port.", .ab, .lit ".fibre.end_reflectance"] 16 .ro 0 .fixed .s64 32768 32767,
  pr [.lit "port.", .ab, .lit ".fibre.event_count"] 7 .ro 0 .fixed .u64 0 127,
  pr [.lit "port.", .ab, .lit ".fibre.event_overflow"] 1 .ro 0 .fixed .u64 0 1,
  pr [.lit "port.", .ab, .lit ".fibre.event.", .num 64, .lit ".position"] 32 .ro 0 .fixed .u64 0 4294967295,
  pr [.lit "port.", .ab, .lit ".fibre.event.", .num 64, .lit ".loss"] 16 .ro 0 .fixed .s64 32768 32767,
  pr [.lit "port.", .ab, .lit ".fibre.event.", .num 64, .lit ".reflectance"] 16 .ro 0 .fixed .s64 32768 32767,
  pr [.lit "port.", .ab, .lit ".fibre.signature"] 64 .ro 0 .fixed .u64 0 18446744073709551615,
  pr [.lit "port.", .ab, .lit ".fibre.discovered_at"] 96 .ro 0 .fixed .ts96 0 79228162514264337593543950335,
  pr [.lit "port.", .ab, .lit ".launch.slot.", .num 8, .lit ".peak"] 16 .ro 0 .fixed .s64 32768 32767,
  pr [.lit "port.", .ab, .lit ".launch.average"] 16 .ro 0 .fixed .u64 0 65535,
  pr [.lit "optical.seed.select"] 2 .wo 0 .frame .u64 0 2,
  pr [.lit "optical.seed.active"] 1 .ro 0 .fixed .u64 0 1,
  pr [.lit "optical.seed.s0.status"] 3 .ro 0 .fixed .u64 0 7,
  pr [.lit "optical.seed.s1.status"] 3 .ro 0 .fixed .u64 0 7,
  pr [.lit "optical.seed.switch_count"] 32 .ro 0 .fixed .u64 0 4294967295,
  pr [.lit "optical.coil.setpoint"] 16 .rw 6000 .integration .u64 4000 8000,
  pr [.lit "optical.coil.", .ab, .lit ".temperature"] 32 .ro 0 .fixed .f32 4286578687 2139095039,
  pr [.lit "optical.coil.", .ab, .lit ".unregulated"] 1 .ro 0 .fixed .u64 0 1,
  pr [.lit "port.", .ab, .lit ".frame.mode"] 1 .rw 0 .frame .u64 0 1,
  pr [.lit "port.", .ab, .lit ".frame.period"] 19 .rw 400000 .frame .u64 8000 400000,
  pr [.lit "port.", .ab, .lit ".frame.period_live"] 19 .ro 0 .fixed .u64 0 524287,
  pr [.lit "port.", .ab, .lit ".frame.align"] 2 .rw 0 .frame .u64 0 2,
  pr [.lit "port.", .ab, .lit ".frame.offset"] 19 .rw 0 .frame .u64 0 524287,
  pr [.lit "port.", .ab, .lit ".frame.count"] 64 .ro 0 .fixed .u64 0 18446744073709551615,
  pr [.lit "port.", .ab, .lit ".frame.grid_error"] 32 .ro 0 .fixed .s64 2147483648 2147483647,
  pr [.lit "port.", .ab, .lit ".slot_plan"] 2 .rw 0 .frame .u64 0 3,
  pr [.lit "port.", .ab, .lit ".chirp.bandwidth"] 2 .rw 2 .frame .u64 0 2,
  pr [.lit "port.", .ab, .lit ".chirp.duration"] 11 .rw 1600 .frame .u64 100 1600,
  pr [.lit "port.", .ab, .lit ".launch.power"] 9 .rw 210 .frame .u64 0 210,
  pr [.lit "port.", .ab, .lit ".launch.slot_power"] 9 .ro 0 .fixed .u64 0 511,
  pr [.lit "port.", .ab, .lit ".launch.reduction"] 8 .ro 0 .fixed .u64 0 255,
  pr [.lit "port.", .ab, .lit ".dts.enable"] 1 .rw 0 .integration .u64 0 1,
  pr [.lit "port.", .ab, .lit ".dts.pulse_count"] 32 .ro 0 .fixed .u64 0 4294967295,
  pr [.lit "sched.lock.role"] 2 .rw 0 .frame .u64 0 2,
  pr [.lit "sched.lock.port"] 1 .rw 0 .frame .u64 0 1,
  pr [.lit "sched.lock.delay"] 8 .rw 0 .frame .u64 0 255,
  pr [.lit "sched.lock.realign"] 1 .wo 0 .frame .u64 0 1,
  pr [.lit "sched.lock.state"] 3 .ro 0 .fixed .u64 0 7,
  pr [.lit "sched.lock.word_errors"] 32 .ro 0 .fixed .u64 0 4294967295]

/-- Rows 50 to 99 of the parameter tables, in the order of the chapters. -/
def paramRows1 : List PRow := [
  pr [.lit "port.", .ab, .lit ".points.first"] 18 .rw 0 .frame .u64 0 262143,
  pr [.lit "port.", .ab, .lit ".points.count"] 18 .rw 0 .frame .u64 0 131072,
  pr [.lit "port.", .ab, .lit ".points.count_live"] 18 .ro 0 .fixed .u64 0 262143,
  pr [.lit "port.", .ab, .lit ".points.pitch"] 8 .rw 24 .frame .u64 6 240,
  pr [.lit "port.", .ab, .lit ".gauge"] 7 .rw 10 .frame .u64 2 100,
  pr [.lit "port.", .ab, .lit ".pc.window"] 1 .rw 1 .frame .u64 0 1,
  pr [.lit "port.", .ab, .lit ".rx.gain_mode"] 1 .rw 0 .frame .u64 0 1,
  pr [.lit "port.", .ab, .lit ".rx.gain_fixed"] 3 .rw 4 .frame .u64 0 7,
  pr [.lit "port.", .ab, .lit ".rx.gain.", .num 64] 3 .ro 0 .fixed .u64 0 7,
  pr [.lit "port.", .ab, .lit ".rx.clip_count"] 32 .ro 0 .fixed .u64 0 4294967295,
  pr [.lit "port.", .ab, .lit ".combine.mode"] 1 .rw 0 .frame .u64 0 1,
  pr [.lit "port.", .ab, .lit ".combine.seg.", .num 2048, .lit ".weight.", .num 8] 8 .ro 0 .fixed .u64 0 255,
  pr [.lit "port.", .ab, .lit ".quality.fade_depth"] 5 .rw 20 .frame .u64 6 30,
  pr [.lit "port.", .ab, .lit ".quality.seg.", .num 2048, .lit ".faded"] 16 .ro 0 .fixed .u64 0 65535,
  pr [.lit "port.", .ab, .lit ".quality.seg.", .num 2048, .lit ".invalid"] 16 .ro 0 .fixed .u64 0 65535,
  pr [.lit "port.", .ab, .lit ".quality.seg.", .num 2048, .lit ".power"] 16 .ro 0 .fixed .s64 32768 32767,
  pr [.lit "port.", .ab, .lit ".quality.seg.", .num 2048, .lit ".noise"] 16 .ro 0 .fixed .s64 32768 32767,
  pr [.lit "port.", .ab, .lit ".quality.seg.", .num 2048, .lit ".unwrap_risk"] 32 .ro 0 .fixed .u64 0 4294967295,
  pr [.lit "port.", .ab, .lit ".quality.seg.", .num 2048, .lit ".clipped"] 32 .ro 0 .fixed .u64 0 4294967295,
  pr [.lit "port.", .ab, .lit ".pipeline.field_delay"] 16 .ro 0 .fixed .u64 0 65535,
  pr [.lit "port.", .ab, .lit ".pipeline.strain_delay"] 16 .ro 0 .fixed .u64 0 65535,
  pr [.lit "port.", .ab, .lit ".trace.count"] 64 .ro 0 .fixed .u64 0 18446744073709551615,
  pr [.lit "port.", .ab, .lit ".iq.skew.", .num 4] 8 .ro 0 .fixed .s64 128 127,
  pr [.lit "port.", .ab, .lit ".iq.image_rejection"] 16 .ro 0 .fixed .u64 0 65535,
  pr [.lit "stream.", .num 16, .lit ".enable"] 1 .rw 0 .block .u64 0 1,
  pr [.lit "stream.", .num 16, .lit ".kind"] 3 .rw 0 .block .u64 0 6,
  pr [.lit "stream.", .num 16, .lit ".port"] 1 .rw 0 .block .u64 0 1,
  pr [.lit "stream.", .num 16, .lit ".points.first"] 18 .rw 0 .block .u64 0 262143,
  pr [.lit "stream.", .num 16, .lit ".points.count"] 18 .rw 0 .block .u64 0 262143,
  pr [.lit "stream.", .num 16, .lit ".points.stride"] 7 .rw 1 .block .u64 1 64,
  pr [.lit "stream.", .num 16, .lit ".dec.preset"] 2 .rw 1 .block .u64 0 3,
  pr [.lit "stream.", .num 16, .lit ".dec.factor"] 13 .rw 16 .block .u64 0 8191,
  pr [.lit "stream.", .num 16, .lit ".dec.form"] 2 .rw 0 .block .u64 0 2,
  pr [.lit "stream.", .num 16, .lit ".dec.group_delay"] 32 .ro 0 .fixed .u64 0 4294967295,
  pr [.lit "stream.", .num 16, .lit ".dec.dc_delay"] 32 .ro 0 .fixed .u64 0 4294967295,
  pr [.lit "stream.", .num 16, .lit ".dec.unsettled"] 8 .ro 0 .fixed .u64 0 255,
  pr [.lit "stream.", .num 16, .lit ".format"] 2 .rw 1 .block .u64 0 2,
  pr [.lit "stream.", .num 16, .lit ".invalid_limit"] 8 .rw 64 .block .u64 0 255,
  pr [.lit "stream.", .num 16, .lit ".tile.points"] 12 .rw 32 .block .u64 1 2048,
  pr [.lit "stream.", .num 16, .lit ".tile.samples"] 11 .rw 8 .block .u64 1 1024,
  pr [.lit "stream.", .num 16, .lit ".priority"] 2 .rw 0 .block .u64 0 3,
  pr [.lit "stream.", .num 16, .lit ".state"] 2 .ro 0 .fixed .u64 0 3,
  pr [.lit "stream.", .num 16, .lit ".seq"] 32 .ro 0 .fixed .u64 0 4294967295,
  pr [.lit "stream.", .num 16, .lit ".nack_served"] 32 .ro 0 .fixed .u64 0 4294967295,
  pr [.lit "stream.", .num 16, .lit ".nack_rejected"] 32 .ro 0 .fixed .u64 0 4294967295,
  pr [.lit "stream.", .num 16, .lit ".gone_count"] 32 .ro 0 .fixed .u64 0 4294967295,
  pr [.lit "stream.", .num 16, .lit ".sub.", .num 4, .lit ".enable"] 1 .rw 0 .block .u64 0 1,
  pr [.lit "stream.", .num 16, .lit ".sub.", .num 4, .lit ".addr"] 128 .rw 0 .block .b128 0 340282366920938463463374607431768211455,
  pr [.lit "stream.", .num 16, .lit ".sub.", .num 4, .lit ".udp"] 16 .rw 0 .block .u64 0 65535,
  pr [.lit "stream.", .num 16, .lit ".sub.", .num 4, .lit ".link"] 2 .rw 0 .block .u64 0 2]

/-- Rows 100 to 149 of the parameter tables, in the order of the chapters. -/
def paramRows2 : List PRow := [
  pr [.lit "stream.", .num 16, .lit ".sub.", .num 4, .lit ".window_ms"] 16 .rw 500 .block .u64 10 60000,
  pr [.lit "port.", .ab, .lit ".dec.tile"] 2 .rw 3 .frame .u64 0 3,
  pr [.lit "nsp.base_port"] 16 .rw 49620 .block .u64 0 65535,
  pr [.lit "nsp.mtu"] 1 .rw 0 .block .u64 0 1,
  pr [.lit "nsp.retx_share"] 7 .rw 20 .block .u64 5 50,
  pr [.lit "port.", .ab, .lit ".dts.period"] 12 .rw 60 .integration .u64 1 3600,
  pr [.lit "port.", .ab, .lit ".dts.pathcheck"] 1 .rw 1 .integration .u64 0 1,
  pr [.lit "port.", .ab, .lit ".dts.dalpha"] 16 .rw 200 .integration .s64 32768 32767,
  pr [.lit "port.", .ab, .lit ".dts.cal2.channel"] 3 .rw 0 .integration .u64 0 4,
  pr [.lit "port.", .ab, .lit ".dts.cal2.point"] 17 .rw 0 .integration .u64 0 131071,
  pr [.lit "port.", .ab, .lit ".dts.band.", .num 2, .lit ".feedback_mode"] 1 .rw 0 .integration .u64 0 1,
  pr [.lit "port.", .ab, .lit ".dts.band.", .num 2, .lit ".feedback_fixed"] 2 .rw 1 .integration .u64 0 2,
  pr [.lit "port.", .ab, .lit ".dts.band.", .num 2, .lit ".apd_gain"] 8 .rw 100 .integration .u64 20 200,
  pr [.lit "port.", .ab, .lit ".dts.band.", .num 2, .lit ".feedback"] 2 .ro 0 .fixed .u64 0 3,
  pr [.lit "port.", .ab, .lit ".dts.band.", .num 2, .lit ".apd_bias"] 16 .ro 0 .fixed .u64 0 65535,
  pr [.lit "port.", .ab, .lit ".dts.band.", .num 2, .lit ".offset"] 18 .ro 0 .fixed .u64 0 262143,
  pr [.lit "port.", .ab, .lit ".dts.band.", .num 2, .lit ".path_error"] 16 .ro 0 .fixed .s64 32768 32767,
  pr [.lit "port.", .ab, .lit ".dts.band.", .num 2, .lit ".tracker_min"] 14 .ro 0 .fixed .u64 0 16383,
  pr [.lit "port.", .ab, .lit ".dts.band.", .num 2, .lit ".tracker_max"] 14 .ro 0 .fixed .u64 0 16383,
  pr [.lit "port.", .ab, .lit ".dts.points_live"] 18 .ro 0 .fixed .u64 0 262143,
  pr [.lit "port.", .ab, .lit ".dts.coil_position"] 32 .ro 0 .fixed .s64 2147483648 2147483647,
  pr [.lit "port.", .ab, .lit ".dts.integration_index"] 32 .ro 0 .fixed .u64 0 4294967295,
  pr [.lit "port.", .ab, .lit ".dts.last.flags"] 16 .ro 0 .fixed .u64 0 65535,
  pr [.lit "port.", .ab, .lit ".dts.last.coil_temperature"] 32 .ro 0 .fixed .f32 4286578687 2139095039,
  pr [.lit "port.", .ab, .lit ".dts.last.dalpha"] 32 .ro 0 .fixed .f32 4286578687 2139095039,
  pr [.lit "port.", .ab, .lit ".dts.last.coverage"] 16 .ro 0 .fixed .u64 0 65535,
  pr [.lit "dts.gamma"] 32 .ro 0 .fixed .f32 4286578687 2139095039,
  pr [.lit "fe.ch", .num 10, .lit ".enable"] 1 .rw 0 .frame .u64 0 1,
  pr [.lit "fe.ch", .num 10, .lit ".excitation"] 2 .rw 0 .frame .u64 0 2,
  pr [.lit "fe.ch", .num 10, .lit ".exc_level"] 13 .rw 1000 .frame .u64 0 8191,
  pr [.lit "fe.ch", .num 10, .lit ".exc_gating"] 1 .rw 1 .frame .u64 0 1,
  pr [.lit "fe.ch", .num 10, .lit ".reference"] 2 .rw 0 .frame .u64 0 2,
  pr [.lit "fe.ch", .num 10, .lit ".gain"] 3 .rw 0 .frame .u64 0 7,
  pr [.lit "fe.ch", .num 10, .lit ".osr"] 2 .rw 1 .frame .u64 0 3,
  pr [.lit "fe.ch", .num 10, .lit ".settle"] 20 .rw 20000 .frame .u64 0 1048575,
  pr [.lit "fe.ch", .num 10, .lit ".filter"] 2 .rw 1 .frame .u64 0 3,
  pr [.lit "fe.ch", .num 10, .lit ".lead_check"] 1 .rw 1 .frame .u64 0 1,
  pr [.lit "fe.ch", .num 10, .lit ".unit"] 3 .rw 0 .frame .u64 0 4,
  pr [.lit "fe.ch", .num 10, .lit ".lin.c.", .num 6, .lit ".", .num 3] 32 .rw 0 .frame .f32 4286578687 2139095039,
  pr [.lit "fe.ch", .num 10, .lit ".result"] 32 .ro 0 .fixed .u64 0 4294967295,
  pr [.lit "fe.ch", .num 10, .lit ".value"] 32 .ro 0 .fixed .f32 4286578687 2139095039,
  pr [.lit "fe.ch", .num 10, .lit ".time"] 96 .ro 0 .fixed .ts96 0 79228162514264337593543950335,
  pr [.lit "fe.ch", .num 10, .lit ".open_lines"] 5 .ro 0 .fixed .u64 0 31,
  pr [.lit "fe.ch", .num 10, .lit ".open_count"] 32 .ro 0 .fixed .u64 0 4294967295,
  pr [.lit "fe.scan.period_ms"] 16 .rw 0 .frame .u64 0 65535,
  pr [.lit "fe.scan.period_live"] 32 .ro 0 .fixed .u64 0 4294967295,
  pr [.lit "fe.test.enable"] 1 .rw 0 .frame .u64 0 1,
  pr [.lit "fe.test.target"] 3 .rw 0 .frame .u64 0 4,
  pr [.lit "fe.test.level"] 12 .rw 0 .frame .u64 0 4095,
  pr [.lit "fe.test.error"] 32 .ro 0 .fixed .s64 2147483648 2147483647]

/-- Rows 150 to 199 of the parameter tables, in the order of the chapters. -/
def paramRows3 : List PRow := [
  pr [.lit "fe.test.skipped"] 32 .ro 0 .fixed .u64 0 4294967295,
  pr [.lit "hk.ch", .num 16, .lit ".raw"] 12 .ro 0 .fixed .u64 0 4095,
  pr [.lit "hk.ch", .num 16, .lit ".value"] 32 .ro 0 .fixed .f32 4286578687 2139095039,
  pr [.lit "hk.ch", .num 16, .lit ".age"] 32 .ro 0 .fixed .u64 0 4294967295,
  pr [.lit "basalt.inst.", .num 8, .lit ".enable"] 1 .rw 0 .block .u64 0 1,
  pr [.lit "basalt.inst.", .num 8, .lit ".slot"] 3 .rw 0 .block .u64 0 7,
  pr [.lit "basalt.inst.", .num 8, .lit ".port"] 1 .rw 0 .block .u64 0 1,
  pr [.lit "basalt.inst.", .num 8, .lit ".points.first"] 18 .rw 0 .block .u64 0 262143,
  pr [.lit "basalt.inst.", .num 8, .lit ".points.count"] 18 .rw 0 .block .u64 0 262143,
  pr [.lit "basalt.inst.", .num 8, .lit ".cores"] 6 .rw 1 .block .u64 1 32,
  pr [.lit "basalt.inst.", .num 8, .lit ".stream"] 4 .rw 0 .block .u64 0 15,
  pr [.lit "basalt.inst.", .num 8, .lit ".scratch_mib"] 12 .rw 0 .block .u64 0 4095,
  pr [.lit "basalt.inst.", .num 8, .lit ".deadline_warn"] 32 .rw 0 .block .u64 0 4294967295,
  pr [.lit "basalt.inst.", .num 8, .lit ".arg.", .num 16] 32 .rw 0 .block .u64 0 4294967295,
  pr [.lit "basalt.inst.", .num 8, .lit ".state"] 2 .ro 0 .fixed .u64 0 3,
  pr [.lit "basalt.inst.", .num 8, .lit ".restarts"] 32 .ro 0 .fixed .u64 0 4294967295,
  pr [.lit "basalt.inst.", .num 8, .lit ".faults"] 32 .ro 0 .fixed .u64 0 4294967295,
  pr [.lit "basalt.inst.", .num 8, .lit ".load"] 10 .ro 0 .fixed .u64 0 1023,
  pr [.lit "basalt.slot.", .num 8, .lit ".state"] 2 .ro 0 .fixed .u64 0 3,
  pr [.lit "basalt.slot.", .num 8, .lit ".persistent"] 1 .ro 0 .fixed .u64 0 1,
  pr [.lit "basalt.slot.", .num 8, .lit ".name"] 128 .ro 0 .fixed .b128 0 340282366920938463463374607431768211455,
  pr [.lit "basalt.slot.", .num 8, .lit ".check"] 32 .ro 0 .fixed .u64 0 4294967295,
  pr [.lit "basalt.core.", .num 34, .lit ".role"] 2 .ro 0 .fixed .u64 0 3,
  pr [.lit "basalt.core.", .num 34, .lit ".logical"] 5 .ro 0 .fixed .u64 0 31,
  pr [.lit "basalt.core.", .num 34, .lit ".instance"] 4 .ro 0 .fixed .u64 0 15,
  pr [.lit "basalt.core.", .num 34, .lit ".fault_cause"] 8 .ro 0 .fixed .u64 0 255,
  pr [.lit "basalt.core.", .num 34, .lit ".fault_pc"] 12 .ro 0 .fixed .u64 0 4095,
  pr [.lit "basalt.core.", .num 34, .lit ".cycles_max"] 32 .ro 0 .fixed .u64 0 4294967295,
  pr [.lit "basalt.core.", .num 34, .lit ".stalls"] 32 .ro 0 .fixed .u64 0 4294967295,
  pr [.lit "basalt.core.", .num 34, .lit ".ecc_corrected"] 32 .ro 0 .fixed .u64 0 4294967295,
  pr [.lit "basalt.core.", .num 34, .lit ".trace.", .num 64] 96 .ro 0 .fixed .b128 0 79228162514264337593543950335,
  pr [.lit "strata.size_gib"] 6 .rw 0 .frame .u64 0 48,
  pr [.lit "strata.retention_ms"] 32 .ro 0 .fixed .u64 0 4294967295,
  pr [.lit "strata.", .ab, .lit ".run_start"] 96 .ro 0 .fixed .ts96 0 79228162514264337593543950335,
  pr [.lit "strata.", .ab, .lit ".format_epoch"] 32 .ro 0 .fixed .u64 0 4294967295,
  pr [.lit "capture.store_gib"] 5 .rw 4 .frame .u64 1 16,
  pr [.lit "capture.full_policy"] 1 .rw 0 .frame .u64 0 1,
  pr [.lit "capture.retain_s"] 16 .rw 0 .frame .u64 0 65535,
  pr [.lit "capture.send_mbit"] 12 .rw 400 .frame .u64 10 4000,
  pr [.lit "capture.count"] 7 .ro 0 .fixed .u64 0 127,
  pr [.lit "capture.free_bytes"] 64 .ro 0 .fixed .u64 0 18446744073709551615,
  pr [.lit "capture.refused"] 32 .ro 0 .fixed .u64 0 4294967295,
  pr [.lit "trig.merge_ms"] 11 .rw 400 .frame .u64 0 2000,
  pr [.lit "trig.out.", .num 2, .lit ".width"] 24 .rw 2000 .frame .u64 0 16777215,
  pr [.lit "trig.cond.", .num 64, .lit ".enable"] 1 .rw 0 .frame .u64 0 1,
  pr [.lit "trig.cond.", .num 64, .lit ".source"] 3 .rw 0 .frame .u64 0 4,
  pr [.lit "trig.cond.", .num 64, .lit ".index"] 4 .rw 0 .frame .u64 0 15,
  pr [.lit "trig.cond.", .num 64, .lit ".zone.first"] 18 .rw 0 .frame .u64 0 262143,
  pr [.lit "trig.cond.", .num 64, .lit ".zone.count"] 18 .rw 1 .frame .u64 0 262143,
  pr [.lit "trig.cond.", .num 64, .lit ".compare"] 2 .rw 0 .frame .u64 0 3]

/-- Rows 200 to 249 of the parameter tables, in the order of the chapters. -/
def paramRows4 : List PRow := [
  pr [.lit "trig.cond.", .num 64, .lit ".hi"] 32 .rw 0 .frame .f32 4286578687 2139095039,
  pr [.lit "trig.cond.", .num 64, .lit ".lo"] 32 .rw 0 .frame .f32 4286578687 2139095039,
  pr [.lit "trig.cond.", .num 64, .lit ".hyst"] 32 .rw 0 .frame .f32 0 2139095039,
  pr [.lit "trig.cond.", .num 64, .lit ".min_points"] 18 .rw 1 .frame .u64 1 262143,
  pr [.lit "trig.cond.", .num 64, .lit ".holdoff_ms"] 24 .rw 1000 .frame .u64 0 16777215,
  pr [.lit "trig.cond.", .num 64, .lit ".offset"] 32 .rw 0 .frame .s64 2147483648 2147483647,
  pr [.lit "trig.cond.", .num 64, .lit ".time"] 96 .rw 0 .frame .ts96 0 79228162514264337593543950335,
  pr [.lit "trig.cond.", .num 64, .lit ".period_ms"] 32 .rw 0 .frame .u64 0 4294967295,
  pr [.lit "trig.cond.", .num 64, .lit ".capture"] 1 .rw 0 .frame .u64 0 1,
  pr [.lit "trig.cond.", .num 64, .lit ".profile"] 3 .rw 0 .frame .u64 0 7,
  pr [.lit "trig.cond.", .num 64, .lit ".out"] 2 .rw 0 .frame .u64 0 3,
  pr [.lit "trig.cond.", .num 64, .lit ".state"] 2 .ro 0 .fixed .u64 0 3,
  pr [.lit "trig.cond.", .num 64, .lit ".fired"] 32 .ro 0 .fixed .u64 0 4294967295,
  pr [.lit "trig.cond.", .num 64, .lit ".prefill_ignored"] 32 .ro 0 .fixed .u64 0 4294967295,
  pr [.lit "trig.profile.", .num 8, .lit ".ports"] 2 .rw 1 .frame .u64 0 3,
  pr [.lit "trig.profile.", .num 8, .lit ".", .ab, .lit ".first"] 18 .rw 0 .frame .u64 0 262143,
  pr [.lit "trig.profile.", .num 8, .lit ".", .ab, .lit ".count"] 18 .rw 0 .frame .u64 0 262143,
  pr [.lit "trig.profile.", .num 8, .lit ".pre_ms"] 20 .rw 2000 .frame .u64 0 1048575,
  pr [.lit "trig.profile.", .num 8, .lit ".post_ms"] 20 .rw 2000 .frame .u64 0 1048575,
  pr [.lit "trig.profile.", .num 8, .lit ".auto_stream"] 5 .rw 16 .frame .u64 0 16,
  pr [.lit "mem.rank.", .num 5, .lit ".role"] 3 .ro 0 .fixed .u64 0 7,
  pr [.lit "mem.rank.", .num 5, .lit ".logical"] 2 .ro 0 .fixed .u64 0 3,
  pr [.lit "mem.rank.", .num 5, .lit ".hit_ratio"] 16 .ro 0 .fixed .u64 0 65535,
  pr [.lit "mem.rank.", .num 5, .lit ".refresh_debt_max"] 5 .ro 0 .fixed .s64 16 15,
  pr [.lit "mem.rank.", .num 5, .lit ".forced_refresh"] 32 .ro 0 .fixed .u64 0 4294967295,
  pr [.lit "mem.rank.", .num 5, .lit ".refresh_rate"] 1 .ro 0 .fixed .u64 0 1,
  pr [.lit "mem.rank.", .num 5, .lit ".train_source"] 1 .ro 0 .fixed .u64 0 1,
  pr [.lit "mem.rank.", .num 5, .lit ".device.", .num 9, .lit ".state"] 2 .ro 0 .fixed .u64 0 3,
  pr [.lit "mem.rank.", .num 5, .lit ".device.", .num 9, .lit ".corrected"] 32 .ro 0 .fixed .u64 0 4294967295,
  pr [.lit "mem.spare_state"] 2 .ro 0 .fixed .u64 0 3,
  pr [.lit "mem.migration.progress"] 16 .ro 0 .fixed .u64 0 65535,
  pr [.lit "mem.uncorrectable"] 32 .ro 0 .fixed .u64 0 4294967295,
  pr [.lit "mem.scrub.pass_count"] 32 .ro 0 .fixed .u64 0 4294967295,
  pr [.lit "mem.scrub.position"] 36 .ro 0 .fixed .u64 0 68719476735,
  pr [.lit "mem.port.", .num 7, .lit ".latency_max"] 32 .ro 0 .fixed .u64 0 4294967295,
  pr [.lit "mem.port.", .num 7, .lit ".bytes"] 64 .ro 0 .fixed .u64 0 18446744073709551615,
  pr [.lit "mem.port.", .num 7, .lit ".fifo_peak"] 20 .ro 0 .fixed .u64 0 1048575,
  pr [.lit "mem.p0.dropped_traces"] 32 .ro 0 .fixed .u64 0 4294967295,
  pr [.lit "mem.p1.dropped_traces"] 32 .ro 0 .fixed .u64 0 4294967295,
  pr [.lit "mem.region.strata.base"] 36 .ro 12884901888 .fixed .u64 0 68719476735,
  pr [.lit "mem.region.capture.base"] 36 .ro 0 .fixed .u64 0 68719476735,
  pr [.lit "mem.region.free_gib"] 6 .ro 0 .fixed .u64 0 63,
  pr [.lit "timebase.freq_source"] 2 .rw 0 .frame .u64 0 3,
  pr [.lit "timebase.time_source"] 2 .rw 0 .frame .u64 0 3,
  pr [.lit "timebase.freq_active"] 2 .ro 3 .fixed .u64 0 3,
  pr [.lit "timebase.time_active"] 3 .ro 0 .fixed .u64 0 7,
  pr [.lit "timebase.quality"] 2 .ro 3 .fixed .u64 0 3,
  pr [.lit "timebase.uncertainty"] 32 .ro 4294967295 .fixed .u64 0 4294967295,
  pr [.lit "timebase.offset"] 64 .ro 0 .fixed .s64 9223372036854775808 9223372036854775807,
  pr [.lit "timebase.steer"] 32 .ro 0 .fixed .s64 2147483648 2147483647]

/-- Rows 250 to 299 of the parameter tables, in the order of the chapters. -/
def paramRows5 : List PRow := [
  pr [.lit "timebase.suspect_ns"] 20 .rw 1000 .frame .u64 1 1000000,
  pr [.lit "timebase.suspect"] 1 .ro 1 .fixed .u64 0 1,
  pr [.lit "timebase.step_threshold_us"] 20 .rw 1000 .frame .u64 1 1000000,
  pr [.lit "timebase.step"] 1 .wo 0 .frame .u64 0 1,
  pr [.lit "timebase.step_pending"] 1 .ro 0 .fixed .u64 0 1,
  pr [.lit "timebase.pps.delay"] 32 .rw 0 .frame .s64 2147483648 2147483647,
  pr [.lit "timebase.ref.present"] 1 .ro 0 .fixed .u64 0 1,
  pr [.lit "timebase.ocxo.efc"] 32 .ro 0 .fixed .s64 2147483648 2147483647,
  pr [.lit "timebase.ocxo.ageing"] 32 .ro 0 .fixed .s64 2147483648 2147483647,
  pr [.lit "timebase.utc_offset"] 16 .ro 0 .fixed .u64 0 65535,
  pr [.lit "timebase.launch_delay.", .ab] 32 .ro 0 .fixed .u64 0 4294967295,
  pr [.lit "timebase.pps_out.enable"] 1 .rw 1 .frame .u64 0 1,
  pr [.lit "timebase.ptp.", .ab, .lit ".enable"] 1 .rw 1 .frame .u64 0 1,
  pr [.lit "timebase.ptp.domain"] 7 .rw 0 .frame .u64 0 127,
  pr [.lit "timebase.ptp.transport"] 2 .rw 1 .frame .u64 0 2,
  pr [.lit "timebase.ptp.delay_mech"] 1 .rw 0 .frame .u64 0 1,
  pr [.lit "timebase.ptp.", .ab, .lit ".asymmetry"] 32 .rw 0 .frame .s64 2147483648 2147483647,
  pr [.lit "timebase.ptp.asym_uncert_ns"] 16 .rw 100 .frame .u64 0 65535,
  pr [.lit "timebase.ptp.", .ab, .lit ".state"] 3 .ro 0 .fixed .u64 0 7,
  pr [.lit "timebase.ptp.", .ab, .lit ".master"] 64 .ro 0 .fixed .u64 0 18446744073709551615,
  pr [.lit "tdc.in.", .num 7, .lit ".enable"] 1 .rw 1 .frame .u64 0 1,
  pr [.lit "tdc.in.", .num 7, .lit ".nominal"] 40 .rw 0 .frame .u64 0 1099511627775,
  pr [.lit "tdc.in.", .num 7, .lit ".gate_ms"] 17 .rw 1000 .frame .u64 1 100000,
  pr [.lit "tdc.in.", .num 7, .lit ".freq"] 32 .ro 0 .fixed .s64 2147483648 2147483647,
  pr [.lit "tdc.in.", .num 7, .lit ".phase"] 96 .ro 0 .fixed .ts96 0 79228162514264337593543950335,
  pr [.lit "tdc.in.", .num 7, .lit ".residual"] 32 .ro 0 .fixed .u64 0 4294967295,
  pr [.lit "tdc.in.", .num 7, .lit ".stamps"] 32 .ro 0 .fixed .u64 0 4294967295,
  pr [.lit "tdc.in.", .num 7, .lit ".missed"] 32 .ro 0 .fixed .u64 0 4294967295,
  pr [.lit "tdc.in.", .num 7, .lit ".overflow"] 32 .ro 0 .fixed .u64 0 4294967295,
  pr [.lit "tdc.in.", .num 7, .lit ".last"] 128 .ro 0 .fixed .b128 0 340282366920938463463374607431768211455,
  pr [.lit "emit.ch.", .num 11, .lit ".status"] 3 .ro 0 .fixed .u64 0 7,
  pr [.lit "emit.ch.", .num 11, .lit ".current"] 16 .ro 0 .fixed .u64 0 65535,
  pr [.lit "emit.ch.", .num 11, .lit ".voltage"] 16 .ro 0 .fixed .u64 0 65535,
  pr [.lit "emit.ch.", .num 11, .lit ".headroom"] 16 .ro 0 .fixed .s64 32768 32767,
  pr [.lit "emit.ch.", .num 11, .lit ".last_verified"] 96 .ro 0 .fixed .ts96 0 79228162514264337593543950335,
  pr [.lit "emit.ch.", .num 11, .lit ".proofs"] 32 .ro 0 .fixed .u64 0 4294967295,
  pr [.lit "emit.ch.", .num 11, .lit ".ageing"] 16 .ro 0 .fixed .u64 0 65535,
  pr [.lit "emit.ch.", .num 11, .lit ".hours"] 32 .ro 0 .fixed .u64 0 4294967295,
  pr [.lit "emit.ch.", .num 11, .lit ".charge"] 32 .ro 0 .fixed .u64 0 4294967295,
  pr [.lit "emit.emv.voltage"] 16 .ro 0 .fixed .u64 0 65535,
  pr [.lit "emit.emv.target"] 16 .ro 0 .fixed .u64 0 65535,
  pr [.lit "emit.emv.limit_count"] 32 .ro 0 .fixed .u64 0 4294967295,
  pr [.lit "emit.led_sup.voltage"] 16 .ro 0 .fixed .u64 0 65535,
  pr [.lit "emit.chain.errors"] 32 .ro 0 .fixed .u64 0 4294967295,
  pr [.lit "emit.neighbour_test"] 1 .wo 0 .frame .u64 0 1,
  pr [.lit "led.", .ab, .lit ".count"] 4 .rw 0 .frame .u64 0 8,
  pr [.lit "led.", .ab, .lit ".vf_mv"] 13 .rw 3000 .frame .u64 0 8191,
  pr [.lit "led.", .ab, .lit ".level"] 12 .rw 2000 .frame .u64 0 4095,
  pr [.lit "led.", .ab, .lit ".on"] 1 .rw 0 .frame .u64 0 1,
  pr [.lit "led.", .ab, .lit ".duty"] 3 .rw 7 .frame .u64 0 7]

/-- Rows 300 to 349 of the parameter tables, in the order of the chapters. -/
def paramRows6 : List PRow := [
  pr [.lit "led.", .ab, .lit ".blink_ms"] 16 .rw 0 .frame .u64 0 65535,
  pr [.lit "sys.epoch"] 32 .ro 1 .fixed .u64 0 4294967295,
  pr [.lit "sys.draft_rev"] 32 .ro 0 .fixed .u64 0 4294967295,
  pr [.lit "sys.boot_count"] 32 .ro 0 .fixed .u64 0 4294967295,
  pr [.lit "ncp.tcp_port"] 16 .rw 49612 .frame .u64 0 65535,
  pr [.lit "ncp.idle_timeout_s"] 16 .rw 60 .frame .u64 0 65535,
  pr [.lit "ncp.sessions"] 3 .ro 0 .fixed .u64 0 7,
  pr [.lit "ncp.clients"] 5 .ro 0 .fixed .u64 0 31,
  pr [.lit "ncp.check_errors"] 32 .ro 0 .fixed .u64 0 4294967295,
  pr [.lit "ncp.commits"] 32 .ro 0 .fixed .u64 0 4294967295,
  pr [.lit "ncp.commits_refused"] 32 .ro 0 .fixed .u64 0 4294967295,
  pr [.lit "ncp.event_next"] 32 .ro 0 .fixed .u64 0 4294967295,
  pr [.lit "ncp.events_lost"] 32 .ro 0 .fixed .u64 0 4294967295,
  pr [.lit "net.", .ab, .lit ".addr_mode"] 1 .rw 0 .frame .u64 0 1,
  pr [.lit "net.", .ab, .lit ".ipv4"] 32 .rw 0 .frame .u64 0 4294967295,
  pr [.lit "net.", .ab, .lit ".ipv4_prefix"] 6 .rw 24 .frame .u64 0 32,
  pr [.lit "net.", .ab, .lit ".ipv4_gateway"] 32 .rw 0 .frame .u64 0 4294967295,
  pr [.lit "net.", .ab, .lit ".dnssd"] 1 .rw 1 .frame .u64 0 1,
  pr [.lit "fw.active"] 1 .ro 0 .fixed .u64 0 1,
  pr [.lit "fw.image.", .ab, .lit ".state"] 3 .ro 0 .fixed .u64 0 7,
  pr [.lit "fw.image.", .ab, .lit ".version"] 32 .ro 0 .fixed .u64 0 4294967295,
  pr [.lit "fw.trial_s"] 17 .rw 600 .frame .u64 60 86400,
  pr [.lit "fw.min_security"] 32 .ro 0 .fixed .u64 0 4294967295,
  pr [.lit "fw.keys_revoked"] 4 .ro 0 .fixed .u64 0 15,
  pr [.lit "ens.id"] 64 .rw 0 .frame .u64 0 18446744073709551615,
  pr [.lit "ens.peer_port"] 16 .rw 49613 .frame .u64 0 65535,
  pr [.lit "ens.seed.", .num 16, .lit ".addr"] 128 .rw 0 .frame .b128 0 340282366920938463463374607431768211455,
  pr [.lit "ens.shared.", .num 8] 128 .rw 0 .frame .b128 0 340282366920938463463374607431768211455,
  pr [.lit "ens.bus_group"] 8 .rw 0 .frame .u64 0 255,
  pr [.lit "ens.lost_s"] 10 .rw 10 .frame .u64 3 600,
  pr [.lit "ens.forget_s"] 20 .rw 3600 .frame .u64 60 604800,
  pr [.lit "ens.prepare_ms"] 15 .rw 2000 .frame .u64 200 30000,
  pr [.lit "ens.time.max_rtt_us"] 10 .rw 50 .frame .u64 1 1000,
  pr [.lit "ens.epoch"] 32 .ro 0 .fixed .u64 0 4294967295,
  pr [.lit "ens.major"] 8 .ro 0 .fixed .u64 0 255,
  pr [.lit "ens.members"] 8 .ro 0 .fixed .u64 0 255,
  pr [.lit "ens.status"] 3 .ro 0 .fixed .u64 0 7,
  pr [.lit "ens.txn.last"] 32 .ro 0 .fixed .u64 0 4294967295,
  pr [.lit "ens.txn.state"] 3 .ro 0 .fixed .u64 0 7,
  pr [.lit "ens.time.state"] 2 .ro 0 .fixed .u64 0 3,
  pr [.lit "ens.time.deviation"] 32 .ro 0 .fixed .s64 2147483648 2147483647,
  pr [.lit "ens.time.near"] 8 .ro 0 .fixed .u64 0 255,
  pr [.lit "power.state"] 3 .ro 1 .fixed .u64 0 7,
  pr [.lit "power.level"] 2 .ro 0 .fixed .u64 0 3,
  pr [.lit "power.source.", .ab, .lit ".present"] 1 .ro 0 .fixed .u64 0 1,
  pr [.lit "power.class.", .ab] 4 .ro 0 .fixed .u64 0 15,
  pr [.lit "power.grant.", .ab] 16 .ro 0 .fixed .u64 0 65535,
  pr [.lit "power.usable_w"] 16 .ro 0 .fixed .u64 0 65535,
  pr [.lit "power.demand_w"] 16 .ro 0 .fixed .u64 0 65535,
  pr [.lit "power.lldp.request_w"] 10 .rw 0 .frame .u64 0 1023]

/-- Rows 350 to 390 of the parameter tables, in the order of the chapters. -/
def paramRows7 : List PRow := [
  pr [.lit "power.vaux_grant_w"] 10 .rw 800 .frame .u64 0 800,
  pr [.lit "power.autorun"] 1 .rw 0 .frame .u64 0 1,
  pr [.lit "power.run_on_wake"] 1 .rw 1 .frame .u64 0 1,
  pr [.lit "power.bedrock_port"] 1 .rw 0 .frame .u64 0 1,
  pr [.lit "power.bedrock_exit_s"] 12 .rw 60 .frame .u64 10 3600,
  pr [.lit "power.bedrock_causes"] 5 .ro 0 .fixed .u64 0 31,
  pr [.lit "power.shed_steps"] 4 .ro 0 .fixed .u64 0 15,
  pr [.lit "power.present_faults"] 4 .ro 0 .fixed .u64 0 15,
  pr [.lit "power.fault_retry_s"] 16 .rw 300 .frame .u64 0 65535,
  pr [.lit "power.case_c"] 32 .ro 0 .fixed .f32 4286578687 2139095039,
  pr [.lit "power.hold.voltage"] 16 .ro 0 .fixed .u64 0 65535,
  pr [.lit "power.hold.capacitance_uf"] 16 .ro 0 .fixed .u64 0 65535,
  pr [.lit "power.hold.armed"] 1 .ro 0 .fixed .u64 0 1,
  pr [.lit "power.cmp.", .ab, .lit ".threshold_mv"] 12 .rw 1250 .frame .u64 0 2500,
  pr [.lit "power.cmp.", .ab, .lit ".polarity"] 1 .rw 0 .frame .u64 0 1,
  pr [.lit "power.cmp.", .ab, .lit ".persist_us"] 10 .rw 100 .frame .u64 0 1000,
  pr [.lit "alarm.zone.", .num 64, .lit ".enable"] 1 .rw 0 .frame .u64 0 1,
  pr [.lit "alarm.zone.", .num 64, .lit ".port"] 1 .rw 0 .frame .u64 0 1,
  pr [.lit "alarm.zone.", .num 64, .lit ".first"] 18 .rw 0 .frame .u64 0 262143,
  pr [.lit "alarm.zone.", .num 64, .lit ".count"] 13 .rw 1 .frame .u64 1 4096,
  pr [.lit "alarm.zone.", .num 64, .lit ".threshold"] 32 .rw 1065353216 .frame .f32 4286578687 2139095039,
  pr [.lit "alarm.zone.", .num 64, .lit ".state"] 2 .ro 0 .fixed .u64 0 3,
  pr [.lit "health.bg.", .num 7, .lit ".last"] 96 .ro 0 .fixed .ts96 0 79228162514264337593543950335,
  pr [.lit "health.wavelength.error_mhz"] 32 .ro 0 .fixed .s64 2147483648 2147483647,
  pr [.lit "health.coil.", .ab, .lit ".drift"] 1 .ro 0 .fixed .u64 0 1,
  pr [.lit "health.flash.erase_max"] 32 .ro 0 .fixed .u64 0 4294967295,
  pr [.lit "health.flash.spare_blocks"] 6 .ro 48 .fixed .u64 0 63,
  pr [.lit "health.log.next"] 32 .ro 0 .fixed .u64 0 4294967295,
  pr [.lit "health.log.suppressed"] 32 .ro 0 .fixed .u64 0 4294967295,
  pr [.lit "health.dropped_traces"] 32 .ro 0 .fixed .u64 0 4294967295,
  pr [.lit "health.link.", .num 10, .lit ".errors"] 32 .ro 0 .fixed .u64 0 4294967295,
  pr [.lit "health.selftest.state"] 2 .ro 0 .fixed .u64 0 3,
  pr [.lit "health.life.hours"] 32 .ro 0 .fixed .u64 0 4294967295,
  pr [.lit "health.life.temp_bin.", .num 12] 32 .ro 0 .fixed .u64 0 4294967295,
  pr [.lit "health.life.efc_used"] 16 .ro 0 .fixed .u64 0 65535,
  pr [.lit "health.life.warnings"] 8 .ro 0 .fixed .u64 0 255,
  pr [.lit "sys.module_id"] 64 .ro 0 .fixed .u64 0 18446744073709551615,
  pr [.lit "power.source.vaux.present"] 1 .ro 0 .fixed .u64 0 1,
  pr [.lit "power.grant.vaux"] 16 .ro 0 .fixed .u64 0 65535,
  pr [.lit "timebase.pps.present"] 1 .ro 0 .fixed .u64 0 1,
  pr [.lit "timebase.ens.present"] 1 .ro 0 .fixed .u64 0 1]

/-- Every row of the parameter tables. -/
def paramRows : List PRow :=
  paramRows0 ++ paramRows1 ++ paramRows2 ++ paramRows3 ++ paramRows4 ++ paramRows5 ++ paramRows6 ++ paramRows7

/-- The key of a parameter: its row and up to three indices (of bounds 256, 4096, 16). -/
abbrev Key := Nat

/-- Form a key. -/
def mkKey (row i j k : Nat) : Key := ((row * 256 + i) * 4096 + j) * 16 + k
/-- The row of a key. -/
def Key.row (k : Key) : Nat := k / 16777216
/-- The first index of a key. -/
def Key.i (k : Key) : Nat := k / 65536 % 256
/-- The second index of a key. -/
def Key.j (k : Key) : Nat := k / 16 % 4096
/-- The third index of a key. -/
def Key.k (k : Key) : Nat := k % 16

/-- The row of a number, for rows the table has; an empty read-only row otherwise. -/
def rowAt (n : Nat) : PRow := paramRows.getD n (pr [] 0 .ro 0 .fixed .u64 0 0)

/-! ### Keys by name -/

namespace K
/-- port.<ab>.enable (02). -/
def portEnable (p : Port) : Key := mkKey 0 p.idx 0 0
/-- port.<ab>.rediscover (02). -/
def portRediscover (p : Port) : Key := mkKey 1 p.idx 0 0
/-- port.<ab>.resume (02). -/
def portResume (p : Port) : Key := mkKey 2 p.idx 0 0
/-- port.<ab>.apr.hold_s (02). -/
def portAprHoldS (p : Port) : Key := mkKey 3 p.idx 0 0
/-- port.<ab>.state (02). -/
def portState (p : Port) : Key := mkKey 4 p.idx 0 0
/-- port.<ab>.hold_reason (02). -/
def portHoldReason (p : Port) : Key := mkKey 5 p.idx 0 0
/-- port.<ab>.hold_reasons (02). -/
def portHoldReasons (p : Port) : Key := mkKey 6 p.idx 0 0
/-- port.<ab>.fibre.length (02). -/
def portFibreLength (p : Port) : Key := mkKey 7 p.idx 0 0
/-- port.<ab>.fibre.round_trip (02). -/
def portFibreRoundTrip (p : Port) : Key := mkKey 8 p.idx 0 0
/-- port.<ab>.fibre.auto_period (02). -/
def portFibreAutoPeriod (p : Port) : Key := mkKey 9 p.idx 0 0
/-- port.<ab>.fibre.end_kind (02). -/
def portFibreEndKind (p : Port) : Key := mkKey 10 p.idx 0 0
/-- port.<ab>.fibre.end_reflectance (02). -/
def portFibreEndReflectance (p : Port) : Key := mkKey 11 p.idx 0 0
/-- port.<ab>.fibre.event_count (02). -/
def portFibreEventCount (p : Port) : Key := mkKey 12 p.idx 0 0
/-- port.<ab>.fibre.event_overflow (02). -/
def portFibreEventOverflow (p : Port) : Key := mkKey 13 p.idx 0 0
/-- port.<ab>.fibre.event.<64>.position (02). -/
def portFibreEventPosition (p : Port) (n : Nat) : Key := mkKey 14 p.idx n 0
/-- port.<ab>.fibre.event.<64>.loss (02). -/
def portFibreEventLoss (p : Port) (n : Nat) : Key := mkKey 15 p.idx n 0
/-- port.<ab>.fibre.event.<64>.reflectance (02). -/
def portFibreEventReflectance (p : Port) (n : Nat) : Key := mkKey 16 p.idx n 0
/-- port.<ab>.fibre.signature (02). -/
def portFibreSignature (p : Port) : Key := mkKey 17 p.idx 0 0
/-- port.<ab>.fibre.discovered_at (02). -/
def portFibreDiscoveredAt (p : Port) : Key := mkKey 18 p.idx 0 0
/-- port.<ab>.launch.slot.<8>.peak (02). -/
def portLaunchSlotPeak (p : Port) (n : Nat) : Key := mkKey 19 p.idx n 0
/-- port.<ab>.launch.average (02). -/
def portLaunchAverage (p : Port) : Key := mkKey 20 p.idx 0 0
/-- optical.seed.select (02). -/
def opticalSeedSelect : Key := mkKey 21 0 0 0
/-- optical.seed.active (02). -/
def opticalSeedActive : Key := mkKey 22 0 0 0
/-- optical.seed.s0.status (02). -/
def opticalSeedS0Status : Key := mkKey 23 0 0 0
/-- optical.seed.s1.status (02). -/
def opticalSeedS1Status : Key := mkKey 24 0 0 0
/-- optical.seed.switch_count (02). -/
def opticalSeedSwitchCount : Key := mkKey 25 0 0 0
/-- optical.coil.setpoint (02). -/
def opticalCoilSetpoint : Key := mkKey 26 0 0 0
/-- optical.coil.<ab>.temperature (02). -/
def opticalCoilTemperature (p : Port) : Key := mkKey 27 p.idx 0 0
/-- optical.coil.<ab>.unregulated (02). -/
def opticalCoilUnregulated (p : Port) : Key := mkKey 28 p.idx 0 0
/-- port.<ab>.frame.mode (03). -/
def portFrameMode (p : Port) : Key := mkKey 29 p.idx 0 0
/-- port.<ab>.frame.period (03). -/
def portFramePeriod (p : Port) : Key := mkKey 30 p.idx 0 0
/-- port.<ab>.frame.period_live (03). -/
def portFramePeriodLive (p : Port) : Key := mkKey 31 p.idx 0 0
/-- port.<ab>.frame.align (03). -/
def portFrameAlign (p : Port) : Key := mkKey 32 p.idx 0 0
/-- port.<ab>.frame.offset (03). -/
def portFrameOffset (p : Port) : Key := mkKey 33 p.idx 0 0
/-- port.<ab>.frame.count (03). -/
def portFrameCount (p : Port) : Key := mkKey 34 p.idx 0 0
/-- port.<ab>.frame.grid_error (03). -/
def portFrameGridError (p : Port) : Key := mkKey 35 p.idx 0 0
/-- port.<ab>.slot_plan (03). -/
def portSlotPlan (p : Port) : Key := mkKey 36 p.idx 0 0
/-- port.<ab>.chirp.bandwidth (03). -/
def portChirpBandwidth (p : Port) : Key := mkKey 37 p.idx 0 0
/-- port.<ab>.chirp.duration (03). -/
def portChirpDuration (p : Port) : Key := mkKey 38 p.idx 0 0
/-- port.<ab>.launch.power (03). -/
def portLaunchPower (p : Port) : Key := mkKey 39 p.idx 0 0
/-- port.<ab>.launch.slot_power (03). -/
def portLaunchSlotPower (p : Port) : Key := mkKey 40 p.idx 0 0
/-- port.<ab>.launch.reduction (03). -/
def portLaunchReduction (p : Port) : Key := mkKey 41 p.idx 0 0
/-- port.<ab>.dts.enable (03). -/
def portDtsEnable (p : Port) : Key := mkKey 42 p.idx 0 0
/-- port.<ab>.dts.pulse_count (03). -/
def portDtsPulseCount (p : Port) : Key := mkKey 43 p.idx 0 0
/-- sched.lock.role (03). -/
def schedLockRole : Key := mkKey 44 0 0 0
/-- sched.lock.port (03). -/
def schedLockPort : Key := mkKey 45 0 0 0
/-- sched.lock.delay (03). -/
def schedLockDelay : Key := mkKey 46 0 0 0
/-- sched.lock.realign (03). -/
def schedLockRealign : Key := mkKey 47 0 0 0
/-- sched.lock.state (03). -/
def schedLockState : Key := mkKey 48 0 0 0
/-- sched.lock.word_errors (03). -/
def schedLockWordErrors : Key := mkKey 49 0 0 0
/-- port.<ab>.points.first (04). -/
def portPointsFirst (p : Port) : Key := mkKey 50 p.idx 0 0
/-- port.<ab>.points.count (04). -/
def portPointsCount (p : Port) : Key := mkKey 51 p.idx 0 0
/-- port.<ab>.points.count_live (04). -/
def portPointsCountLive (p : Port) : Key := mkKey 52 p.idx 0 0
/-- port.<ab>.points.pitch (04). -/
def portPointsPitch (p : Port) : Key := mkKey 53 p.idx 0 0
/-- port.<ab>.gauge (04). -/
def portGauge (p : Port) : Key := mkKey 54 p.idx 0 0
/-- port.<ab>.pc.window (04). -/
def portPcWindow (p : Port) : Key := mkKey 55 p.idx 0 0
/-- port.<ab>.rx.gain_mode (04). -/
def portRxGainMode (p : Port) : Key := mkKey 56 p.idx 0 0
/-- port.<ab>.rx.gain_fixed (04). -/
def portRxGainFixed (p : Port) : Key := mkKey 57 p.idx 0 0
/-- port.<ab>.rx.gain.<64> (04). -/
def portRxGain (p : Port) (n : Nat) : Key := mkKey 58 p.idx n 0
/-- port.<ab>.rx.clip_count (04). -/
def portRxClipCount (p : Port) : Key := mkKey 59 p.idx 0 0
/-- port.<ab>.combine.mode (04). -/
def portCombineMode (p : Port) : Key := mkKey 60 p.idx 0 0
/-- port.<ab>.combine.seg.<2048>.weight.<8> (04). -/
def portCombineSegWeight (p : Port) (n : Nat) (m : Nat) : Key := mkKey 61 p.idx n m
/-- port.<ab>.quality.fade_depth (04). -/
def portQualityFadeDepth (p : Port) : Key := mkKey 62 p.idx 0 0
/-- port.<ab>.quality.seg.<2048>.faded (04). -/
def portQualitySegFaded (p : Port) (n : Nat) : Key := mkKey 63 p.idx n 0
/-- port.<ab>.quality.seg.<2048>.invalid (04). -/
def portQualitySegInvalid (p : Port) (n : Nat) : Key := mkKey 64 p.idx n 0
/-- port.<ab>.quality.seg.<2048>.power (04). -/
def portQualitySegPower (p : Port) (n : Nat) : Key := mkKey 65 p.idx n 0
/-- port.<ab>.quality.seg.<2048>.noise (04). -/
def portQualitySegNoise (p : Port) (n : Nat) : Key := mkKey 66 p.idx n 0
/-- port.<ab>.quality.seg.<2048>.unwrap_risk (04). -/
def portQualitySegUnwrapRisk (p : Port) (n : Nat) : Key := mkKey 67 p.idx n 0
/-- port.<ab>.quality.seg.<2048>.clipped (04). -/
def portQualitySegClipped (p : Port) (n : Nat) : Key := mkKey 68 p.idx n 0
/-- port.<ab>.pipeline.field_delay (04). -/
def portPipelineFieldDelay (p : Port) : Key := mkKey 69 p.idx 0 0
/-- port.<ab>.pipeline.strain_delay (04). -/
def portPipelineStrainDelay (p : Port) : Key := mkKey 70 p.idx 0 0
/-- port.<ab>.trace.count (04). -/
def portTraceCount (p : Port) : Key := mkKey 71 p.idx 0 0
/-- port.<ab>.iq.skew.<4> (04). -/
def portIqSkew (p : Port) (n : Nat) : Key := mkKey 72 p.idx n 0
/-- port.<ab>.iq.image_rejection (04). -/
def portIqImageRejection (p : Port) : Key := mkKey 73 p.idx 0 0
/-- stream.<16>.enable (05). -/
def streamEnable (n : Nat) : Key := mkKey 74 n 0 0
/-- stream.<16>.kind (05). -/
def streamKind (n : Nat) : Key := mkKey 75 n 0 0
/-- stream.<16>.port (05). -/
def streamPort (n : Nat) : Key := mkKey 76 n 0 0
/-- stream.<16>.points.first (05). -/
def streamPointsFirst (n : Nat) : Key := mkKey 77 n 0 0
/-- stream.<16>.points.count (05). -/
def streamPointsCount (n : Nat) : Key := mkKey 78 n 0 0
/-- stream.<16>.points.stride (05). -/
def streamPointsStride (n : Nat) : Key := mkKey 79 n 0 0
/-- stream.<16>.dec.preset (05). -/
def streamDecPreset (n : Nat) : Key := mkKey 80 n 0 0
/-- stream.<16>.dec.factor (05). -/
def streamDecFactor (n : Nat) : Key := mkKey 81 n 0 0
/-- stream.<16>.dec.form (05). -/
def streamDecForm (n : Nat) : Key := mkKey 82 n 0 0
/-- stream.<16>.dec.group_delay (05). -/
def streamDecGroupDelay (n : Nat) : Key := mkKey 83 n 0 0
/-- stream.<16>.dec.dc_delay (05). -/
def streamDecDcDelay (n : Nat) : Key := mkKey 84 n 0 0
/-- stream.<16>.dec.unsettled (05). -/
def streamDecUnsettled (n : Nat) : Key := mkKey 85 n 0 0
/-- stream.<16>.format (05). -/
def streamFormat (n : Nat) : Key := mkKey 86 n 0 0
/-- stream.<16>.invalid_limit (05). -/
def streamInvalidLimit (n : Nat) : Key := mkKey 87 n 0 0
/-- stream.<16>.tile.points (05). -/
def streamTilePoints (n : Nat) : Key := mkKey 88 n 0 0
/-- stream.<16>.tile.samples (05). -/
def streamTileSamples (n : Nat) : Key := mkKey 89 n 0 0
/-- stream.<16>.priority (05). -/
def streamPriority (n : Nat) : Key := mkKey 90 n 0 0
/-- stream.<16>.state (05). -/
def streamState (n : Nat) : Key := mkKey 91 n 0 0
/-- stream.<16>.seq (05). -/
def streamSeq (n : Nat) : Key := mkKey 92 n 0 0
/-- stream.<16>.nack_served (05). -/
def streamNackServed (n : Nat) : Key := mkKey 93 n 0 0
/-- stream.<16>.nack_rejected (05). -/
def streamNackRejected (n : Nat) : Key := mkKey 94 n 0 0
/-- stream.<16>.gone_count (05). -/
def streamGoneCount (n : Nat) : Key := mkKey 95 n 0 0
/-- stream.<16>.sub.<4>.enable (05). -/
def streamSubEnable (n : Nat) (m : Nat) : Key := mkKey 96 n m 0
/-- stream.<16>.sub.<4>.addr (05). -/
def streamSubAddr (n : Nat) (m : Nat) : Key := mkKey 97 n m 0
/-- stream.<16>.sub.<4>.udp (05). -/
def streamSubUdp (n : Nat) (m : Nat) : Key := mkKey 98 n m 0
/-- stream.<16>.sub.<4>.link (05). -/
def streamSubLink (n : Nat) (m : Nat) : Key := mkKey 99 n m 0
/-- stream.<16>.sub.<4>.window_ms (05). -/
def streamSubWindowMs (n : Nat) (m : Nat) : Key := mkKey 100 n m 0
/-- port.<ab>.dec.tile (05). -/
def portDecTile (p : Port) : Key := mkKey 101 p.idx 0 0
/-- nsp.base_port (05). -/
def nspBasePort : Key := mkKey 102 0 0 0
/-- nsp.mtu (05). -/
def nspMtu : Key := mkKey 103 0 0 0
/-- nsp.retx_share (05). -/
def nspRetxShare : Key := mkKey 104 0 0 0
/-- port.<ab>.dts.period (06). -/
def portDtsPeriod (p : Port) : Key := mkKey 105 p.idx 0 0
/-- port.<ab>.dts.pathcheck (06). -/
def portDtsPathcheck (p : Port) : Key := mkKey 106 p.idx 0 0
/-- port.<ab>.dts.dalpha (06). -/
def portDtsDalpha (p : Port) : Key := mkKey 107 p.idx 0 0
/-- port.<ab>.dts.cal2.channel (06). -/
def portDtsCal2Channel (p : Port) : Key := mkKey 108 p.idx 0 0
/-- port.<ab>.dts.cal2.point (06). -/
def portDtsCal2Point (p : Port) : Key := mkKey 109 p.idx 0 0
/-- port.<ab>.dts.band.<2>.feedback_mode (06). -/
def portDtsBandFeedbackMode (p : Port) (n : Nat) : Key := mkKey 110 p.idx n 0
/-- port.<ab>.dts.band.<2>.feedback_fixed (06). -/
def portDtsBandFeedbackFixed (p : Port) (n : Nat) : Key := mkKey 111 p.idx n 0
/-- port.<ab>.dts.band.<2>.apd_gain (06). -/
def portDtsBandApdGain (p : Port) (n : Nat) : Key := mkKey 112 p.idx n 0
/-- port.<ab>.dts.band.<2>.feedback (06). -/
def portDtsBandFeedback (p : Port) (n : Nat) : Key := mkKey 113 p.idx n 0
/-- port.<ab>.dts.band.<2>.apd_bias (06). -/
def portDtsBandApdBias (p : Port) (n : Nat) : Key := mkKey 114 p.idx n 0
/-- port.<ab>.dts.band.<2>.offset (06). -/
def portDtsBandOffset (p : Port) (n : Nat) : Key := mkKey 115 p.idx n 0
/-- port.<ab>.dts.band.<2>.path_error (06). -/
def portDtsBandPathError (p : Port) (n : Nat) : Key := mkKey 116 p.idx n 0
/-- port.<ab>.dts.band.<2>.tracker_min (06). -/
def portDtsBandTrackerMin (p : Port) (n : Nat) : Key := mkKey 117 p.idx n 0
/-- port.<ab>.dts.band.<2>.tracker_max (06). -/
def portDtsBandTrackerMax (p : Port) (n : Nat) : Key := mkKey 118 p.idx n 0
/-- port.<ab>.dts.points_live (06). -/
def portDtsPointsLive (p : Port) : Key := mkKey 119 p.idx 0 0
/-- port.<ab>.dts.coil_position (06). -/
def portDtsCoilPosition (p : Port) : Key := mkKey 120 p.idx 0 0
/-- port.<ab>.dts.integration_index (06). -/
def portDtsIntegrationIndex (p : Port) : Key := mkKey 121 p.idx 0 0
/-- port.<ab>.dts.last.flags (06). -/
def portDtsLastFlags (p : Port) : Key := mkKey 122 p.idx 0 0
/-- port.<ab>.dts.last.coil_temperature (06). -/
def portDtsLastCoilTemperature (p : Port) : Key := mkKey 123 p.idx 0 0
/-- port.<ab>.dts.last.dalpha (06). -/
def portDtsLastDalpha (p : Port) : Key := mkKey 124 p.idx 0 0
/-- port.<ab>.dts.last.coverage (06). -/
def portDtsLastCoverage (p : Port) : Key := mkKey 125 p.idx 0 0
/-- dts.gamma (06). -/
def dtsGamma : Key := mkKey 126 0 0 0
/-- fe.ch<10>.enable (07). -/
def feChEnable (n : Nat) : Key := mkKey 127 n 0 0
/-- fe.ch<10>.excitation (07). -/
def feChExcitation (n : Nat) : Key := mkKey 128 n 0 0
/-- fe.ch<10>.exc_level (07). -/
def feChExcLevel (n : Nat) : Key := mkKey 129 n 0 0
/-- fe.ch<10>.exc_gating (07). -/
def feChExcGating (n : Nat) : Key := mkKey 130 n 0 0
/-- fe.ch<10>.reference (07). -/
def feChReference (n : Nat) : Key := mkKey 131 n 0 0
/-- fe.ch<10>.gain (07). -/
def feChGain (n : Nat) : Key := mkKey 132 n 0 0
/-- fe.ch<10>.osr (07). -/
def feChOsr (n : Nat) : Key := mkKey 133 n 0 0
/-- fe.ch<10>.settle (07). -/
def feChSettle (n : Nat) : Key := mkKey 134 n 0 0
/-- fe.ch<10>.filter (07). -/
def feChFilter (n : Nat) : Key := mkKey 135 n 0 0
/-- fe.ch<10>.lead_check (07). -/
def feChLeadCheck (n : Nat) : Key := mkKey 136 n 0 0
/-- fe.ch<10>.unit (07). -/
def feChUnit (n : Nat) : Key := mkKey 137 n 0 0
/-- fe.ch<10>.lin.c.<6>.<3> (07). -/
def feChLinC (n : Nat) (m : Nat) (l : Nat) : Key := mkKey 138 n m l
/-- fe.ch<10>.result (07). -/
def feChResult (n : Nat) : Key := mkKey 139 n 0 0
/-- fe.ch<10>.value (07). -/
def feChValue (n : Nat) : Key := mkKey 140 n 0 0
/-- fe.ch<10>.time (07). -/
def feChTime (n : Nat) : Key := mkKey 141 n 0 0
/-- fe.ch<10>.open_lines (07). -/
def feChOpenLines (n : Nat) : Key := mkKey 142 n 0 0
/-- fe.ch<10>.open_count (07). -/
def feChOpenCount (n : Nat) : Key := mkKey 143 n 0 0
/-- fe.scan.period_ms (07). -/
def feScanPeriodMs : Key := mkKey 144 0 0 0
/-- fe.scan.period_live (07). -/
def feScanPeriodLive : Key := mkKey 145 0 0 0
/-- fe.test.enable (07). -/
def feTestEnable : Key := mkKey 146 0 0 0
/-- fe.test.target (07). -/
def feTestTarget : Key := mkKey 147 0 0 0
/-- fe.test.level (07). -/
def feTestLevel : Key := mkKey 148 0 0 0
/-- fe.test.error (07). -/
def feTestError : Key := mkKey 149 0 0 0
/-- fe.test.skipped (07). -/
def feTestSkipped : Key := mkKey 150 0 0 0
/-- hk.ch<16>.raw (07). -/
def hkChRaw (n : Nat) : Key := mkKey 151 n 0 0
/-- hk.ch<16>.value (07). -/
def hkChValue (n : Nat) : Key := mkKey 152 n 0 0
/-- hk.ch<16>.age (07). -/
def hkChAge (n : Nat) : Key := mkKey 153 n 0 0
/-- basalt.inst.<8>.enable (08). -/
def basaltInstEnable (n : Nat) : Key := mkKey 154 n 0 0
/-- basalt.inst.<8>.slot (08). -/
def basaltInstSlot (n : Nat) : Key := mkKey 155 n 0 0
/-- basalt.inst.<8>.port (08). -/
def basaltInstPort (n : Nat) : Key := mkKey 156 n 0 0
/-- basalt.inst.<8>.points.first (08). -/
def basaltInstPointsFirst (n : Nat) : Key := mkKey 157 n 0 0
/-- basalt.inst.<8>.points.count (08). -/
def basaltInstPointsCount (n : Nat) : Key := mkKey 158 n 0 0
/-- basalt.inst.<8>.cores (08). -/
def basaltInstCores (n : Nat) : Key := mkKey 159 n 0 0
/-- basalt.inst.<8>.stream (08). -/
def basaltInstStream (n : Nat) : Key := mkKey 160 n 0 0
/-- basalt.inst.<8>.scratch_mib (08). -/
def basaltInstScratchMib (n : Nat) : Key := mkKey 161 n 0 0
/-- basalt.inst.<8>.deadline_warn (08). -/
def basaltInstDeadlineWarn (n : Nat) : Key := mkKey 162 n 0 0
/-- basalt.inst.<8>.arg.<16> (08). -/
def basaltInstArg (n : Nat) (m : Nat) : Key := mkKey 163 n m 0
/-- basalt.inst.<8>.state (08). -/
def basaltInstState (n : Nat) : Key := mkKey 164 n 0 0
/-- basalt.inst.<8>.restarts (08). -/
def basaltInstRestarts (n : Nat) : Key := mkKey 165 n 0 0
/-- basalt.inst.<8>.faults (08). -/
def basaltInstFaults (n : Nat) : Key := mkKey 166 n 0 0
/-- basalt.inst.<8>.load (08). -/
def basaltInstLoad (n : Nat) : Key := mkKey 167 n 0 0
/-- basalt.slot.<8>.state (08). -/
def basaltSlotState (n : Nat) : Key := mkKey 168 n 0 0
/-- basalt.slot.<8>.persistent (08). -/
def basaltSlotPersistent (n : Nat) : Key := mkKey 169 n 0 0
/-- basalt.slot.<8>.name (08). -/
def basaltSlotName (n : Nat) : Key := mkKey 170 n 0 0
/-- basalt.slot.<8>.check (08). -/
def basaltSlotCheck (n : Nat) : Key := mkKey 171 n 0 0
/-- basalt.core.<34>.role (08). -/
def basaltCoreRole (n : Nat) : Key := mkKey 172 n 0 0
/-- basalt.core.<34>.logical (08). -/
def basaltCoreLogical (n : Nat) : Key := mkKey 173 n 0 0
/-- basalt.core.<34>.instance (08). -/
def basaltCoreInstance (n : Nat) : Key := mkKey 174 n 0 0
/-- basalt.core.<34>.fault_cause (08). -/
def basaltCoreFaultCause (n : Nat) : Key := mkKey 175 n 0 0
/-- basalt.core.<34>.fault_pc (08). -/
def basaltCoreFaultPc (n : Nat) : Key := mkKey 176 n 0 0
/-- basalt.core.<34>.cycles_max (08). -/
def basaltCoreCyclesMax (n : Nat) : Key := mkKey 177 n 0 0
/-- basalt.core.<34>.stalls (08). -/
def basaltCoreStalls (n : Nat) : Key := mkKey 178 n 0 0
/-- basalt.core.<34>.ecc_corrected (08). -/
def basaltCoreEccCorrected (n : Nat) : Key := mkKey 179 n 0 0
/-- basalt.core.<34>.trace.<64> (08). -/
def basaltCoreTrace (n : Nat) (m : Nat) : Key := mkKey 180 n m 0
/-- strata.size_gib (09). -/
def strataSizeGib : Key := mkKey 181 0 0 0
/-- strata.retention_ms (09). -/
def strataRetentionMs : Key := mkKey 182 0 0 0
/-- strata.<ab>.run_start (09). -/
def strataRunStart (p : Port) : Key := mkKey 183 p.idx 0 0
/-- strata.<ab>.format_epoch (09). -/
def strataFormatEpoch (p : Port) : Key := mkKey 184 p.idx 0 0
/-- capture.store_gib (09). -/
def captureStoreGib : Key := mkKey 185 0 0 0
/-- capture.full_policy (09). -/
def captureFullPolicy : Key := mkKey 186 0 0 0
/-- capture.retain_s (09). -/
def captureRetainS : Key := mkKey 187 0 0 0
/-- capture.send_mbit (09). -/
def captureSendMbit : Key := mkKey 188 0 0 0
/-- capture.count (09). -/
def captureCount : Key := mkKey 189 0 0 0
/-- capture.free_bytes (09). -/
def captureFreeBytes : Key := mkKey 190 0 0 0
/-- capture.refused (09). -/
def captureRefused : Key := mkKey 191 0 0 0
/-- trig.merge_ms (09). -/
def trigMergeMs : Key := mkKey 192 0 0 0
/-- trig.out.<2>.width (09). -/
def trigOutWidth (n : Nat) : Key := mkKey 193 n 0 0
/-- trig.cond.<64>.enable (09). -/
def trigCondEnable (n : Nat) : Key := mkKey 194 n 0 0
/-- trig.cond.<64>.source (09). -/
def trigCondSource (n : Nat) : Key := mkKey 195 n 0 0
/-- trig.cond.<64>.index (09). -/
def trigCondIndex (n : Nat) : Key := mkKey 196 n 0 0
/-- trig.cond.<64>.zone.first (09). -/
def trigCondZoneFirst (n : Nat) : Key := mkKey 197 n 0 0
/-- trig.cond.<64>.zone.count (09). -/
def trigCondZoneCount (n : Nat) : Key := mkKey 198 n 0 0
/-- trig.cond.<64>.compare (09). -/
def trigCondCompare (n : Nat) : Key := mkKey 199 n 0 0
/-- trig.cond.<64>.hi (09). -/
def trigCondHi (n : Nat) : Key := mkKey 200 n 0 0
/-- trig.cond.<64>.lo (09). -/
def trigCondLo (n : Nat) : Key := mkKey 201 n 0 0
/-- trig.cond.<64>.hyst (09). -/
def trigCondHyst (n : Nat) : Key := mkKey 202 n 0 0
/-- trig.cond.<64>.min_points (09). -/
def trigCondMinPoints (n : Nat) : Key := mkKey 203 n 0 0
/-- trig.cond.<64>.holdoff_ms (09). -/
def trigCondHoldoffMs (n : Nat) : Key := mkKey 204 n 0 0
/-- trig.cond.<64>.offset (09). -/
def trigCondOffset (n : Nat) : Key := mkKey 205 n 0 0
/-- trig.cond.<64>.time (09). -/
def trigCondTime (n : Nat) : Key := mkKey 206 n 0 0
/-- trig.cond.<64>.period_ms (09). -/
def trigCondPeriodMs (n : Nat) : Key := mkKey 207 n 0 0
/-- trig.cond.<64>.capture (09). -/
def trigCondCapture (n : Nat) : Key := mkKey 208 n 0 0
/-- trig.cond.<64>.profile (09). -/
def trigCondProfile (n : Nat) : Key := mkKey 209 n 0 0
/-- trig.cond.<64>.out (09). -/
def trigCondOut (n : Nat) : Key := mkKey 210 n 0 0
/-- trig.cond.<64>.state (09). -/
def trigCondState (n : Nat) : Key := mkKey 211 n 0 0
/-- trig.cond.<64>.fired (09). -/
def trigCondFired (n : Nat) : Key := mkKey 212 n 0 0
/-- trig.cond.<64>.prefill_ignored (09). -/
def trigCondPrefillIgnored (n : Nat) : Key := mkKey 213 n 0 0
/-- trig.profile.<8>.ports (09). -/
def trigProfilePorts (n : Nat) : Key := mkKey 214 n 0 0
/-- trig.profile.<8>.<ab>.first (09). -/
def trigProfileFirst (n : Nat) (p : Port) : Key := mkKey 215 n p.idx 0
/-- trig.profile.<8>.<ab>.count (09). -/
def trigProfileCount (n : Nat) (p : Port) : Key := mkKey 216 n p.idx 0
/-- trig.profile.<8>.pre_ms (09). -/
def trigProfilePreMs (n : Nat) : Key := mkKey 217 n 0 0
/-- trig.profile.<8>.post_ms (09). -/
def trigProfilePostMs (n : Nat) : Key := mkKey 218 n 0 0
/-- trig.profile.<8>.auto_stream (09). -/
def trigProfileAutoStream (n : Nat) : Key := mkKey 219 n 0 0
/-- mem.rank.<5>.role (10). -/
def memRankRole (n : Nat) : Key := mkKey 220 n 0 0
/-- mem.rank.<5>.logical (10). -/
def memRankLogical (n : Nat) : Key := mkKey 221 n 0 0
/-- mem.rank.<5>.hit_ratio (10). -/
def memRankHitRatio (n : Nat) : Key := mkKey 222 n 0 0
/-- mem.rank.<5>.refresh_debt_max (10). -/
def memRankRefreshDebtMax (n : Nat) : Key := mkKey 223 n 0 0
/-- mem.rank.<5>.forced_refresh (10). -/
def memRankForcedRefresh (n : Nat) : Key := mkKey 224 n 0 0
/-- mem.rank.<5>.refresh_rate (10). -/
def memRankRefreshRate (n : Nat) : Key := mkKey 225 n 0 0
/-- mem.rank.<5>.train_source (10). -/
def memRankTrainSource (n : Nat) : Key := mkKey 226 n 0 0
/-- mem.rank.<5>.device.<9>.state (10). -/
def memRankDeviceState (n : Nat) (m : Nat) : Key := mkKey 227 n m 0
/-- mem.rank.<5>.device.<9>.corrected (10). -/
def memRankDeviceCorrected (n : Nat) (m : Nat) : Key := mkKey 228 n m 0
/-- mem.spare_state (10). -/
def memSpareState : Key := mkKey 229 0 0 0
/-- mem.migration.progress (10). -/
def memMigrationProgress : Key := mkKey 230 0 0 0
/-- mem.uncorrectable (10). -/
def memUncorrectable : Key := mkKey 231 0 0 0
/-- mem.scrub.pass_count (10). -/
def memScrubPassCount : Key := mkKey 232 0 0 0
/-- mem.scrub.position (10). -/
def memScrubPosition : Key := mkKey 233 0 0 0
/-- mem.port.<7>.latency_max (10). -/
def memPortLatencyMax (n : Nat) : Key := mkKey 234 n 0 0
/-- mem.port.<7>.bytes (10). -/
def memPortBytes (n : Nat) : Key := mkKey 235 n 0 0
/-- mem.port.<7>.fifo_peak (10). -/
def memPortFifoPeak (n : Nat) : Key := mkKey 236 n 0 0
/-- mem.p0.dropped_traces (10). -/
def memP0DroppedTraces : Key := mkKey 237 0 0 0
/-- mem.p1.dropped_traces (10). -/
def memP1DroppedTraces : Key := mkKey 238 0 0 0
/-- mem.region.strata.base (10). -/
def memRegionStrataBase : Key := mkKey 239 0 0 0
/-- mem.region.capture.base (10). -/
def memRegionCaptureBase : Key := mkKey 240 0 0 0
/-- mem.region.free_gib (10). -/
def memRegionFreeGib : Key := mkKey 241 0 0 0
/-- timebase.freq_source (11). -/
def timebaseFreqSource : Key := mkKey 242 0 0 0
/-- timebase.time_source (11). -/
def timebaseTimeSource : Key := mkKey 243 0 0 0
/-- timebase.freq_active (11). -/
def timebaseFreqActive : Key := mkKey 244 0 0 0
/-- timebase.time_active (11). -/
def timebaseTimeActive : Key := mkKey 245 0 0 0
/-- timebase.quality (11). -/
def timebaseQuality : Key := mkKey 246 0 0 0
/-- timebase.uncertainty (11). -/
def timebaseUncertainty : Key := mkKey 247 0 0 0
/-- timebase.offset (11). -/
def timebaseOffset : Key := mkKey 248 0 0 0
/-- timebase.steer (11). -/
def timebaseSteer : Key := mkKey 249 0 0 0
/-- timebase.suspect_ns (11). -/
def timebaseSuspectNs : Key := mkKey 250 0 0 0
/-- timebase.suspect (11). -/
def timebaseSuspect : Key := mkKey 251 0 0 0
/-- timebase.step_threshold_us (11). -/
def timebaseStepThresholdUs : Key := mkKey 252 0 0 0
/-- timebase.step (11). -/
def timebaseStep : Key := mkKey 253 0 0 0
/-- timebase.step_pending (11). -/
def timebaseStepPending : Key := mkKey 254 0 0 0
/-- timebase.pps.delay (11). -/
def timebasePpsDelay : Key := mkKey 255 0 0 0
/-- timebase.ref.present (11). -/
def timebaseRefPresent : Key := mkKey 256 0 0 0
/-- timebase.ocxo.efc (11). -/
def timebaseOcxoEfc : Key := mkKey 257 0 0 0
/-- timebase.ocxo.ageing (11). -/
def timebaseOcxoAgeing : Key := mkKey 258 0 0 0
/-- timebase.utc_offset (11). -/
def timebaseUtcOffset : Key := mkKey 259 0 0 0
/-- timebase.launch_delay.<ab> (11). -/
def timebaseLaunchDelay (p : Port) : Key := mkKey 260 p.idx 0 0
/-- timebase.pps_out.enable (11). -/
def timebasePpsOutEnable : Key := mkKey 261 0 0 0
/-- timebase.ptp.<ab>.enable (11). -/
def timebasePtpEnable (p : Port) : Key := mkKey 262 p.idx 0 0
/-- timebase.ptp.domain (11). -/
def timebasePtpDomain : Key := mkKey 263 0 0 0
/-- timebase.ptp.transport (11). -/
def timebasePtpTransport : Key := mkKey 264 0 0 0
/-- timebase.ptp.delay_mech (11). -/
def timebasePtpDelayMech : Key := mkKey 265 0 0 0
/-- timebase.ptp.<ab>.asymmetry (11). -/
def timebasePtpAsymmetry (p : Port) : Key := mkKey 266 p.idx 0 0
/-- timebase.ptp.asym_uncert_ns (11). -/
def timebasePtpAsymUncertNs : Key := mkKey 267 0 0 0
/-- timebase.ptp.<ab>.state (11). -/
def timebasePtpState (p : Port) : Key := mkKey 268 p.idx 0 0
/-- timebase.ptp.<ab>.master (11). -/
def timebasePtpMaster (p : Port) : Key := mkKey 269 p.idx 0 0
/-- tdc.in.<7>.enable (11). -/
def tdcInEnable (n : Nat) : Key := mkKey 270 n 0 0
/-- tdc.in.<7>.nominal (11). -/
def tdcInNominal (n : Nat) : Key := mkKey 271 n 0 0
/-- tdc.in.<7>.gate_ms (11). -/
def tdcInGateMs (n : Nat) : Key := mkKey 272 n 0 0
/-- tdc.in.<7>.freq (11). -/
def tdcInFreq (n : Nat) : Key := mkKey 273 n 0 0
/-- tdc.in.<7>.phase (11). -/
def tdcInPhase (n : Nat) : Key := mkKey 274 n 0 0
/-- tdc.in.<7>.residual (11). -/
def tdcInResidual (n : Nat) : Key := mkKey 275 n 0 0
/-- tdc.in.<7>.stamps (11). -/
def tdcInStamps (n : Nat) : Key := mkKey 276 n 0 0
/-- tdc.in.<7>.missed (11). -/
def tdcInMissed (n : Nat) : Key := mkKey 277 n 0 0
/-- tdc.in.<7>.overflow (11). -/
def tdcInOverflow (n : Nat) : Key := mkKey 278 n 0 0
/-- tdc.in.<7>.last (11). -/
def tdcInLast (n : Nat) : Key := mkKey 279 n 0 0
/-- emit.ch.<11>.status (12). -/
def emitChStatus (n : Nat) : Key := mkKey 280 n 0 0
/-- emit.ch.<11>.current (12). -/
def emitChCurrent (n : Nat) : Key := mkKey 281 n 0 0
/-- emit.ch.<11>.voltage (12). -/
def emitChVoltage (n : Nat) : Key := mkKey 282 n 0 0
/-- emit.ch.<11>.headroom (12). -/
def emitChHeadroom (n : Nat) : Key := mkKey 283 n 0 0
/-- emit.ch.<11>.last_verified (12). -/
def emitChLastVerified (n : Nat) : Key := mkKey 284 n 0 0
/-- emit.ch.<11>.proofs (12). -/
def emitChProofs (n : Nat) : Key := mkKey 285 n 0 0
/-- emit.ch.<11>.ageing (12). -/
def emitChAgeing (n : Nat) : Key := mkKey 286 n 0 0
/-- emit.ch.<11>.hours (12). -/
def emitChHours (n : Nat) : Key := mkKey 287 n 0 0
/-- emit.ch.<11>.charge (12). -/
def emitChCharge (n : Nat) : Key := mkKey 288 n 0 0
/-- emit.emv.voltage (12). -/
def emitEmvVoltage : Key := mkKey 289 0 0 0
/-- emit.emv.target (12). -/
def emitEmvTarget : Key := mkKey 290 0 0 0
/-- emit.emv.limit_count (12). -/
def emitEmvLimitCount : Key := mkKey 291 0 0 0
/-- emit.led_sup.voltage (12). -/
def emitLedSupVoltage : Key := mkKey 292 0 0 0
/-- emit.chain.errors (12). -/
def emitChainErrors : Key := mkKey 293 0 0 0
/-- emit.neighbour_test (12). -/
def emitNeighbourTest : Key := mkKey 294 0 0 0
/-- led.<ab>.count (12). -/
def ledCount (p : Port) : Key := mkKey 295 p.idx 0 0
/-- led.<ab>.vf_mv (12). -/
def ledVfMv (p : Port) : Key := mkKey 296 p.idx 0 0
/-- led.<ab>.level (12). -/
def ledLevel (p : Port) : Key := mkKey 297 p.idx 0 0
/-- led.<ab>.on (12). -/
def ledOn (p : Port) : Key := mkKey 298 p.idx 0 0
/-- led.<ab>.duty (12). -/
def ledDuty (p : Port) : Key := mkKey 299 p.idx 0 0
/-- led.<ab>.blink_ms (12). -/
def ledBlinkMs (p : Port) : Key := mkKey 300 p.idx 0 0
/-- sys.epoch (13). -/
def sysEpoch : Key := mkKey 301 0 0 0
/-- sys.draft_rev (13). -/
def sysDraftRev : Key := mkKey 302 0 0 0
/-- sys.boot_count (13). -/
def sysBootCount : Key := mkKey 303 0 0 0
/-- ncp.tcp_port (13). -/
def ncpTcpPort : Key := mkKey 304 0 0 0
/-- ncp.idle_timeout_s (13). -/
def ncpIdleTimeoutS : Key := mkKey 305 0 0 0
/-- ncp.sessions (13). -/
def ncpSessions : Key := mkKey 306 0 0 0
/-- ncp.clients (13). -/
def ncpClients : Key := mkKey 307 0 0 0
/-- ncp.check_errors (13). -/
def ncpCheckErrors : Key := mkKey 308 0 0 0
/-- ncp.commits (13). -/
def ncpCommits : Key := mkKey 309 0 0 0
/-- ncp.commits_refused (13). -/
def ncpCommitsRefused : Key := mkKey 310 0 0 0
/-- ncp.event_next (13). -/
def ncpEventNext : Key := mkKey 311 0 0 0
/-- ncp.events_lost (13). -/
def ncpEventsLost : Key := mkKey 312 0 0 0
/-- net.<ab>.addr_mode (13). -/
def netAddrMode (p : Port) : Key := mkKey 313 p.idx 0 0
/-- net.<ab>.ipv4 (13). -/
def netIpv4 (p : Port) : Key := mkKey 314 p.idx 0 0
/-- net.<ab>.ipv4_prefix (13). -/
def netIpv4Prefix (p : Port) : Key := mkKey 315 p.idx 0 0
/-- net.<ab>.ipv4_gateway (13). -/
def netIpv4Gateway (p : Port) : Key := mkKey 316 p.idx 0 0
/-- net.<ab>.dnssd (13). -/
def netDnssd (p : Port) : Key := mkKey 317 p.idx 0 0
/-- fw.active (13). -/
def fwActive : Key := mkKey 318 0 0 0
/-- fw.image.<ab>.state (13). -/
def fwImageState (p : Port) : Key := mkKey 319 p.idx 0 0
/-- fw.image.<ab>.version (13). -/
def fwImageVersion (p : Port) : Key := mkKey 320 p.idx 0 0
/-- fw.trial_s (13). -/
def fwTrialS : Key := mkKey 321 0 0 0
/-- fw.min_security (13). -/
def fwMinSecurity : Key := mkKey 322 0 0 0
/-- fw.keys_revoked (13). -/
def fwKeysRevoked : Key := mkKey 323 0 0 0
/-- ens.id (14). -/
def ensId : Key := mkKey 324 0 0 0
/-- ens.peer_port (14). -/
def ensPeerPort : Key := mkKey 325 0 0 0
/-- ens.seed.<16>.addr (14). -/
def ensSeedAddr (n : Nat) : Key := mkKey 326 n 0 0
/-- ens.shared.<8> (14). -/
def ensShared (n : Nat) : Key := mkKey 327 n 0 0
/-- ens.bus_group (14). -/
def ensBusGroup : Key := mkKey 328 0 0 0
/-- ens.lost_s (14). -/
def ensLostS : Key := mkKey 329 0 0 0
/-- ens.forget_s (14). -/
def ensForgetS : Key := mkKey 330 0 0 0
/-- ens.prepare_ms (14). -/
def ensPrepareMs : Key := mkKey 331 0 0 0
/-- ens.time.max_rtt_us (14). -/
def ensTimeMaxRttUs : Key := mkKey 332 0 0 0
/-- ens.epoch (14). -/
def ensEpoch : Key := mkKey 333 0 0 0
/-- ens.major (14). -/
def ensMajor : Key := mkKey 334 0 0 0
/-- ens.members (14). -/
def ensMembers : Key := mkKey 335 0 0 0
/-- ens.status (14). -/
def ensStatus : Key := mkKey 336 0 0 0
/-- ens.txn.last (14). -/
def ensTxnLast : Key := mkKey 337 0 0 0
/-- ens.txn.state (14). -/
def ensTxnState : Key := mkKey 338 0 0 0
/-- ens.time.state (14). -/
def ensTimeState : Key := mkKey 339 0 0 0
/-- ens.time.deviation (14). -/
def ensTimeDeviation : Key := mkKey 340 0 0 0
/-- ens.time.near (14). -/
def ensTimeNear : Key := mkKey 341 0 0 0
/-- power.state (15). -/
def powerState : Key := mkKey 342 0 0 0
/-- power.level (15). -/
def powerLevel : Key := mkKey 343 0 0 0
/-- power.source.<ab>.present (15). -/
def powerSourcePresent (p : Port) : Key := mkKey 344 p.idx 0 0
/-- power.class.<ab> (15). -/
def powerClass (p : Port) : Key := mkKey 345 p.idx 0 0
/-- power.grant.<ab> (15). -/
def powerGrant (p : Port) : Key := mkKey 346 p.idx 0 0
/-- power.usable_w (15). -/
def powerUsableW : Key := mkKey 347 0 0 0
/-- power.demand_w (15). -/
def powerDemandW : Key := mkKey 348 0 0 0
/-- power.lldp.request_w (15). -/
def powerLldpRequestW : Key := mkKey 349 0 0 0
/-- power.vaux_grant_w (15). -/
def powerVauxGrantW : Key := mkKey 350 0 0 0
/-- power.autorun (15). -/
def powerAutorun : Key := mkKey 351 0 0 0
/-- power.run_on_wake (15). -/
def powerRunOnWake : Key := mkKey 352 0 0 0
/-- power.bedrock_port (15). -/
def powerBedrockPort : Key := mkKey 353 0 0 0
/-- power.bedrock_exit_s (15). -/
def powerBedrockExitS : Key := mkKey 354 0 0 0
/-- power.bedrock_causes (15). -/
def powerBedrockCauses : Key := mkKey 355 0 0 0
/-- power.shed_steps (15). -/
def powerShedSteps : Key := mkKey 356 0 0 0
/-- power.present_faults (15). -/
def powerPresentFaults : Key := mkKey 357 0 0 0
/-- power.fault_retry_s (15). -/
def powerFaultRetryS : Key := mkKey 358 0 0 0
/-- power.case_c (15). -/
def powerCaseC : Key := mkKey 359 0 0 0
/-- power.hold.voltage (15). -/
def powerHoldVoltage : Key := mkKey 360 0 0 0
/-- power.hold.capacitance_uf (15). -/
def powerHoldCapacitanceUf : Key := mkKey 361 0 0 0
/-- power.hold.armed (15). -/
def powerHoldArmed : Key := mkKey 362 0 0 0
/-- power.cmp.<ab>.threshold_mv (15). -/
def powerCmpThresholdMv (p : Port) : Key := mkKey 363 p.idx 0 0
/-- power.cmp.<ab>.polarity (15). -/
def powerCmpPolarity (p : Port) : Key := mkKey 364 p.idx 0 0
/-- power.cmp.<ab>.persist_us (15). -/
def powerCmpPersistUs (p : Port) : Key := mkKey 365 p.idx 0 0
/-- alarm.zone.<64>.enable (15). -/
def alarmZoneEnable (n : Nat) : Key := mkKey 366 n 0 0
/-- alarm.zone.<64>.port (15). -/
def alarmZonePort (n : Nat) : Key := mkKey 367 n 0 0
/-- alarm.zone.<64>.first (15). -/
def alarmZoneFirst (n : Nat) : Key := mkKey 368 n 0 0
/-- alarm.zone.<64>.count (15). -/
def alarmZoneCount (n : Nat) : Key := mkKey 369 n 0 0
/-- alarm.zone.<64>.threshold (15). -/
def alarmZoneThreshold (n : Nat) : Key := mkKey 370 n 0 0
/-- alarm.zone.<64>.state (15). -/
def alarmZoneState (n : Nat) : Key := mkKey 371 n 0 0
/-- health.bg.<7>.last (16). -/
def healthBgLast (n : Nat) : Key := mkKey 372 n 0 0
/-- health.wavelength.error_mhz (16). -/
def healthWavelengthErrorMhz : Key := mkKey 373 0 0 0
/-- health.coil.<ab>.drift (16). -/
def healthCoilDrift (p : Port) : Key := mkKey 374 p.idx 0 0
/-- health.flash.erase_max (16). -/
def healthFlashEraseMax : Key := mkKey 375 0 0 0
/-- health.flash.spare_blocks (16). -/
def healthFlashSpareBlocks : Key := mkKey 376 0 0 0
/-- health.log.next (16). -/
def healthLogNext : Key := mkKey 377 0 0 0
/-- health.log.suppressed (16). -/
def healthLogSuppressed : Key := mkKey 378 0 0 0
/-- health.dropped_traces (16). -/
def healthDroppedTraces : Key := mkKey 379 0 0 0
/-- health.link.<10>.errors (16). -/
def healthLinkErrors (n : Nat) : Key := mkKey 380 n 0 0
/-- health.selftest.state (16). -/
def healthSelftestState : Key := mkKey 381 0 0 0
/-- health.life.hours (16). -/
def healthLifeHours : Key := mkKey 382 0 0 0
/-- health.life.temp_bin.<12> (16). -/
def healthLifeTempBin (n : Nat) : Key := mkKey 383 n 0 0
/-- health.life.efc_used (16). -/
def healthLifeEfcUsed : Key := mkKey 384 0 0 0
/-- health.life.warnings (16). -/
def healthLifeWarnings : Key := mkKey 385 0 0 0
/-- sys.module_id (00). -/
def sysModuleId : Key := mkKey 386 0 0 0
/-- power.source.vaux.present (15). -/
def powerSourceVauxPresent : Key := mkKey 387 0 0 0
/-- power.grant.vaux (15). -/
def powerGrantVaux : Key := mkKey 388 0 0 0
/-- timebase.pps.present (11). -/
def timebasePpsPresent : Key := mkKey 389 0 0 0
/-- timebase.ens.present (11). -/
def timebaseEnsPresent : Key := mkKey 390 0 0 0
end K

/-! ### Values -/

/-- The reset value of a parameter (R11). A front-end channel's first-segment linear coefficient resets to 1.0 (R174), and
internal channels 4 to 9 keep their factory settings (R163, log entry 12). -/
def Key.reset (k : Key) : Nat :=
  if k = K.feChLinC k.i 0 1 then 0x3F800000
  else if k.row = (K.feChEnable 0).row ∧ 4 ≤ k.i ∧ k.i ≤ 6 then 1
  else if k.row = (K.feChSettle 0).row ∧ (k.i = 4 ∨ k.i = 5) then 200000
  else if k.row = (K.feChOsr 0).row ∧ k.i = 6 then 0
  else if k.row = (K.feChGain 0).row ∧ k.i = 8 then 7
  else if k.row = (K.feChExcitation 0).row ∧ (k.i = 4 ∨ k.i = 5) then 1
  else (rowAt k.row).reset

/-- The access code of a parameter. The settings of internal channels 4 to 9 are RO, but for the enables of 7 to 9 (R163). -/
def Key.access (k : Key) : Access :=
  if (K.feChEnable 0).row ≤ k.row ∧ k.row ≤ (K.feChLinC 0 0 0).row ∧ 4 ≤ k.i ∧ ¬(k.row = (K.feChEnable 0).row ∧ 7 ≤ k.i) then .ro
  else (rowAt k.row).access

/-- The swap class of a parameter. -/
def Key.swap (k : Key) : Swap :=
  if k.access = .ro then .fixed else (rowAt k.row).swap

/-- A set of parameter values: entries of strictly rising keys, none equal to the parameter's reset value. -/
structure PSet where
  entries : List (Key × Nat)
  deriving DecidableEq, Repr

/-- The set that holds every reset value. -/
def PSet.reset : PSet := ⟨[]⟩

/-- The value listed for a key, if any. -/
def findKey (k : Key) : List (Key × Nat) → Option Nat
  | [] => none
  | (k', v) :: rest => if k' = k then some v else findKey k rest

/-- The value of a parameter in a set. -/
def PSet.get (s : PSet) (k : Key) : Nat := (findKey k s.entries).getD k.reset

/-- Insert an entry in key order, replacing the key's old entry. -/
def insertKey (k : Key) (v : Nat) : List (Key × Nat) → List (Key × Nat)
  | [] => [(k, v)]
  | (k', v') :: rest =>
    if k < k' then (k, v) :: (k', v') :: rest
    else if k = k' then (k, v) :: rest
    else (k', v') :: insertKey k v rest

/-- Remove a key's entry. -/
def eraseKey (k : Key) : List (Key × Nat) → List (Key × Nat)
  | [] => []
  | (k', v') :: rest => if k' = k then eraseKey k rest else (k', v') :: eraseKey k rest

/-- Set a parameter, keeping the canonical form. -/
def PSet.set (s : PSet) (k : Key) (v : Nat) : PSet :=
  if v = k.reset then ⟨eraseKey k s.entries⟩ else ⟨insertKey k v s.entries⟩

/-- Every entry of one set, laid over another. -/
def PSet.over (s base : PSet) : PSet := s.entries.foldl (fun acc e => acc.set e.1 e.2) base

/-- Keys whose values differ between two sets, in key order of the first and then of the second. -/
def PSet.diff (s t : PSet) : List Key :=
  (s.entries.map (·.1)).filter (fun k => decide (s.get k ≠ t.get k)) ++
  ((t.entries.map (·.1)).filter (fun k => decide (s.get k ≠ t.get k) && (findKey k s.entries).isNone))

/-- A two's complement value of `w` bits as an integer (R9). -/
def asInt (w v : Nat) : Int := if v < 2 ^ (w - 1) then v else (v : Int) - 2 ^ w

/-- An integer as a two's complement value of `w` bits. -/
def ofInt (w : Nat) (v : Int) : Nat := (v % (2 ^ w : Int)).toNat

/-- A signed parameter's value. -/
def PSet.getInt (s : PSet) (k : Key) : Int := asInt (rowAt k.row).width (s.get k)

/-! ### Paths -/

/-- The indices read so far as a key of a row. -/
def keyOfIdx (row : Nat) : List Nat → Key
  | [] => mkKey row 0 0 0
  | [i] => mkKey row i 0 0
  | [i, j] => mkKey row i j 0
  | i :: j :: k :: _ => mkKey row i j k

/-- Read leading decimal digits. -/
def takeDigits : List Char → List Char × List Char
  | [] => ([], [])
  | c :: cs => if c.isDigit then let r := takeDigits cs; (c :: r.1, r.2) else ([], c :: cs)

/-- The value of decimal digits; none for no digits or a leading zero (R323). -/
def digitsVal (ds : List Char) : Option Nat :=
  match ds with
  | [] => none
  | ['0'] => some 0
  | '0' :: _ => none
  | _ => some (ds.foldl (fun n c => 10 * n + (c.toNat - 48)) 0)

/-- Strip a leading text. -/
def stripLit : List Char → List Char → Option (List Char)
  | [], cs => some cs
  | _ :: _, [] => none
  | l :: ls, c :: cs => if l = c then stripLit ls cs else none

/-- Match a path against a row's pattern, collecting its indices. -/
def matchSegs : List Seg → List Char → List Nat → Option (List Nat)
  | [], cs, acc => if cs = [] then some acc.reverse else none
  | .lit s :: rest, cs, acc =>
    match stripLit s.toList cs with
    | some cs' => matchSegs rest cs' acc
    | none => none
  | .ab :: rest, cs, acc =>
    match cs with
    | 'a' :: cs' => matchSegs rest cs' (0 :: acc)
    | 'b' :: cs' => matchSegs rest cs' (1 :: acc)
    | _ => none
  | .num n :: rest, cs, acc =>
    match digitsVal (takeDigits cs).1 with
    | some v => if v < n then matchSegs rest (takeDigits cs).2 (v :: acc) else none
    | none => none

/-- Find the first row a path matches. -/
def findPath (cs : List Char) : List PRow → Nat → Option Key
  | [], _ => none
  | r :: rest, n =>
    match matchSegs r.segs cs [] with
    | some idx => some (keyOfIdx n idx)
    | none => findPath cs rest (n + 1)

/-- The key a path names; none for an unknown path (E_PATH). -/
def keyOfPath (p : String) : Option Key := findPath p.toList paramRows 0

/-- The path of a pattern with its indices. -/
def renderSegs : List Seg → List Nat → String
  | [], _ => ""
  | .lit s :: rest, idx => s ++ renderSegs rest idx
  | .ab :: rest, idx => (if idx.headD 0 = 0 then "a" else "b") ++ renderSegs rest idx.tail
  | .num _ :: rest, idx => Nat.repr (idx.headD 0) ++ renderSegs rest idx.tail

/-- The path of a key. -/
def Key.path (k : Key) : String := renderSegs (rowAt k.row).segs [k.i, k.j, k.k]

/-- All index lists of a pattern. -/
def allIdx : List Seg → List (List Nat)
  | [] => [[]]
  | .lit _ :: rest => allIdx rest
  | .ab :: rest => [0, 1].flatMap (fun i => (allIdx rest).map (i :: ·))
  | .num n :: rest => (List.range n).flatMap (fun i => (allIdx rest).map (i :: ·))

/-- All keys of rows from number `n` on. -/
def allKeysFrom : List PRow → Nat → List Key
  | [], _ => []
  | r :: rest, n => (allIdx r.segs).map (keyOfIdx n) ++ allKeysFrom rest (n + 1)

/-- Insert into a list sorted by path, byte by byte (R323). -/
def insertByPath (e : String × Key) : List (String × Key) → List (String × Key)
  | [] => [e]
  | x :: rest => if e.1 < x.1 then e :: x :: rest else x :: insertByPath e rest

/-- Keys in tree order with their paths (R323). -/
def treeOrder (ks : List Key) : List (String × Key) :=
  ks.foldr (fun k acc => insertByPath (k.path, k) acc) []

/-- True where a path begins with a text. -/
def pathBegins (stem p : String) : Bool := (stripLit stem.toList p.toList).isSome

/-- Every key whose path begins with a text, in tree order. -/
def keysUnder (stem : String) : List Key :=
  (treeOrder ((allKeysFrom paramRows 0).filter (fun k => pathBegins stem k.path))).map (·.2)

/-- The text before the star of a path that ends in ".*" keeps its dot (R323). -/
def starStem (p : String) : Option String :=
  match p.toList.reverse with
  | '*' :: '.' :: rest => some (String.ofList ('.' :: rest).reverse)
  | _ => none

end Sys2Proof.Machine
end

