-- ==== Sys2Proof/Machine/StCore.lean ====
section
/-! DEFINITION. State of the command protocol: events, messages, sessions, the duplicate cache, background work, the
configuration sets and the commits in flight, firmware images, and what leaves the module (chapters 01, 13). -/

namespace Sys2Proof.Machine

/-- The module states (R369), with the codes of power.state. -/
inductive Mode where
  | off
  | boot
  | ready
  | running
  | geode
  | bedrock
  | save
  | fault
  deriving DecidableEq, Repr

/-- An event as the ring holds it (R333). -/
structure Event where
  seq : Nat
  code : Nat
  severity : Nat
  time : Stamp
  args : List Val
  epoch : Nat
  deriving DecidableEq, Repr

/-- A response (R316), before the session and the duplicate mark are filled in. -/
structure Resp where
  command : Nat
  client : BitVec 64
  request : BitVec 32
  result : Nat
  more : Bool
  epoch : Nat
  body : List Byte
  deriving DecidableEq, Repr

/-- A message of an outbound mailbox: a response with its duplicate mark, a notification, or the EV_EVENT_LOST of one
session with its time, epoch, first lost sequence number and count (R333). -/
inductive OutMsg where
  | resp (r : Resp) (dup : Bool)
  | note (e : Event)
  | lost (time : Stamp) (epoch first count : Nat)
  deriving DecidableEq, Repr

/-- A response of a session in arrival order: ready, or waiting for a background job (R311). -/
inductive Held where
  | ready (r : Resp) (dup : Bool)
  | job (id : Nat) (dup : Bool)
  deriving DecidableEq, Repr

/-- One mailbox pair (R309). -/
structure Session where
  open_ : Bool
  link : Port
  client : BitVec 64
  lastAt : Tick
  mask : BitVec 256
  notes : List Event          -- notification queue, oldest first
  lostFirst : Nat
  lostCount : Nat
  held : List Held            -- responses in order, oldest first
  outbox : List OutMsg        -- outbound mailbox, oldest first
  deriving DecidableEq, Repr

/-- A closed pair. -/
def Session.closed : Session := ⟨false, .a, 0, 0, 0, [], 0, 0, [], []⟩

/-- The SPI service port (R315): inbound mailbox oldest first, and the lost bit. -/
structure Spi where
  inbox : List (List Byte)
  lost : Bool
  deriving DecidableEq, Repr

/-- One remembered request (R320); `resp` is none while it executes. -/
structure DupEntry where
  request : BitVec 32
  check : BitVec 32
  resp : Option Resp
  job : Nat
  deriving DecidableEq, Repr

/-- One client of the duplicate cache: newest number H, its entries newest first, and when its last request came. -/
structure DupClient where
  client : BitVec 64
  newest : BitVec 32
  entries : List DupEntry
  last : Nat
  deriving DecidableEq, Repr

/-- What a background job does when it completes (R311). -/
inductive JobWork where
  | cfgSave (set : PSet)
  | cfgErase
  | fwWrite (bytes : Nat) (data : List Byte)
  | fwFinish
  | kernelPersist (slot : Nat) (bytes : Nat) (check : Nat)
  deriving DecidableEq, Repr

/-- A command whose response waits for flash or signature work (R311). -/
structure Job where
  id : Nat
  command : Nat
  client : BitVec 64
  request : BitVec 32
  work : JobWork
  deriving DecidableEq, Repr

/-- A set of values with the epoch it belongs to (R29, R32). -/
structure Bank where
  epoch : Nat
  set : PSet
  deriving DecidableEq, Repr

/-- An accepted commit (R30 to R33, R327): its set, the tick it was validated at, the boundaries F known so far, which of
them have passed, and the actions of its WO parameters. `fA` and `fB` are the ticks of F where the port has no frames or the
frame grid gives it; `fG` is F of fields that belong to no port (R83); `counts` the points each port's AUTO count stands for, resolved at the commit (R105); `powers` the launch power and its
reduction recomputed at the commit for each port (R80); `wroteRole` tells that the commit writes sched.lock.role (R93). -/
structure Commit where
  epoch : Nat
  set : PSet
  actions : List (Key × Nat)
  minTick : Tick
  named : Option Stamp
  fA : Tick
  fB : Tick
  fG : Tick
  passedA : Bool
  passedB : Bool
  passedG : Bool
  counts : PerPort Nat
  powers : PerPort (Nat × Nat)
  wroteRole : Bool
  ens : Option (BitVec 64 × Nat)
  deriving DecidableEq, Repr

/-- The configuration (R13, R29, R326). `draft` holds RW values and pending WO values; `frozen` is set while an ensemble
transaction holds the draft (R349). -/
structure Cfg where
  draft : PSet
  live : PSet
  stored : Option PSet
  draftRev : Nat
  commits : List Commit        -- oldest first
  actA : Bank
  actB : Bank
  actG : Bank
  intA : Bank                  -- INTEGRATION-class values in force
  intB : Bank
  histA : List Bank            -- banks port A has had, newest first, for BLOCK boundaries still to come (R32)
  histB : List Bank
  past : PerPort (List (Stamp × PSet))  -- sets with their F on each port, newest first (R228)
  pastG : List (Stamp × PSet)           -- and by the rule of R83
  wroteRole : Bool             -- the draft has been given sched.lock.role since the last commit (R93)
  frozen : Bool
  deriving DecidableEq, Repr

/-- The states of a firmware image (R339), with the codes of fw.image.x.state. -/
inductive FwState where
  | empty
  | writing
  | valid
  | invalid
  | trial
  | active
  deriving DecidableEq, Repr

/-- One firmware image (R337, R338). `content` is what FW_WRITE delivered; `bootFailed` tells that a boot verification, or a trial, failed on it (R339, R370). -/
structure FwImage where
  state : FwState
  version : Nat
  security : Nat
  revoke : Nat
  content : List Byte
  bootFailed : Bool
  deriving DecidableEq, Repr

/-- The firmware update (R337 to R339). `running` is the image that runs; `told` state changes of images to be raised as EV_FW_STATE once NCP is served. -/
structure Fw where
  a : FwImage
  b : FwImage
  active : Port
  owner : Option (BitVec 64)
  expected : Nat
  received : Nat
  trial : Bool                 -- the image running is on trial
  trialDeadline : Option Tick
  minSecurity : Nat
  revoked : Nat
  running : Port
  told : List (Port × FwState)
  deriving DecidableEq, Repr

/-- The light of one slot (R45, R63, R77, R80): its centre in kHz from the active seed, where its linear sweep begins and ends (none for a probe, whose sweep no rule gives), its
duration in ticks and its peak at the reference plane in 0.01 dBm (for a probe and the coil test the greatest either may be). -/
structure Light where
  centre : Int
  sweep : Option (Int × Int)
  ticks : Nat
  peak : Int
  deriving DecidableEq, Repr

/-- What leaves the module, kept newest first (log entry 3). -/
inductive Output where
  | message (pair : Nat) (m : OutMsg)
  | spiData (bytes : List Byte)
  | i2cData (bytes : List Byte)
  | closed (pair : Nat)
  | datagram (link : Port) (src : Nat) (addr : BitVec 128) (udp : Nat) (bytes : List Byte)
  | peer (link : Option Port) (member : BitVec 64) (kind : Nat) (bytes : List Byte)
  | pulse (p : Port) (slot : Nat) (at_ : Stamp) (x : Light)
  | train (p : Port) (slot : Nat) (at_ : Stamp) (every count : Nat) (x : Light)
  | ensClk (on : Bool)
  | dtsPulse (p : Port)
  | mps (p : Port)
  | syncWordOut (word : Nat)
  | ppsEdge (high : Bool)
  | evtOut (j : Nat) (high : Bool)
  | chainLoad (words : List (BitVec 16))
  | ptp (p : Port) (kind : Nat) (body : List Byte)
  | linkAnswer (p : Port) (kind : Nat)
  deriving DecidableEq, Repr

end Sys2Proof.Machine
end

