-- ==== Sys2Proof/Machine/StSignal.lean ====
section
/-! DEFINITION. State of coherent processing and of the output streams (chapters 04, 05). -/

namespace Sys2Proof.Machine

/-- A complex integer. -/
structure Cx where
  re : Int
  im : Int
  deriving DecidableEq, Repr

/-- Temporal state of one point (R107, R113, R115): y of the previous trace (unit 2⁻¹⁶), references of the 16 polarisation branches and the
8 slots (unit 2⁻³⁰, none until first present), spatial phase in 2⁻³² turn, the previous word and fading bit. -/
structure PointSt where
  y : Cx
  pol : List (Option Cx)
  slot : List (Option Cx)
  psi : Option Int
  word : Option Int
  faded : Bool
  deriving DecidableEq, Repr

/-- Statistics of one quality segment since the last reset (R108, R111), of at most the last 256 traces, newest first: the mean power, and the powers of the trace's slots, each with its
slot; stage-7 weights in 2⁻¹⁶. -/
structure SegSt where
  power : List Nat
  slotPower : List (List (Nat × Nat))
  weights : List Nat
  deriving DecidableEq, Repr

/-- One branch of a point at the output of stage 5: slot, then the X and Y polarisation values as complex integers in 2⁻²³ of full scale (R103, R106). -/
structure Branch where
  slot : Nat
  xr : Int
  xi : Int
  yr : Int
  yi : Int
  deriving DecidableEq, Repr

/-- One point of a trace as stage 5 delivers it: its branches and its clip mark (R99, R103). -/
structure PointObs where
  branches : List Branch
  marked : Bool
  deriving DecidableEq, Repr

/-- What the converters of a port have delivered (R95): samples newest first, and the index of the next, counted at 2.4 GS/s, twelve to a tick. -/
structure Adc where
  next : Nat
  samples : List Raw
  deriving DecidableEq, Repr

/-- The reference interferometer's record (R48, R102): the index of the next sample at 300 MS/s, three to two ticks; L newest first and the last θ in 2⁻³² turn; the 1 s mean of θ in
2⁻³² turn divided by 3 × 10⁸. -/
structure Laser where
  next : Nat
  phase : List Int
  theta : Int
  mean : Int
  deriving DecidableEq, Repr

/-- The temporal state of stages 7 to 9 of one generation: what traces launched between two resets share (R109). -/
structure CohGen where
  gen : Nat
  points : List PointSt
  segs : List SegSt
  deriving DecidableEq, Repr

/-- The sums of one segment over the second in progress (R118). -/
structure SegSum where
  points : Nat
  faded : Nat
  words : Nat
  invalid : Nat
  powerSum : Nat
  risks : Nat
  clipped : Nat
  deriving DecidableEq, Repr

/-- A published summary of one segment (R118), as the record of R134. -/
structure SegSummary where
  faded : Nat
  invalid : Nat
  power : Int
  noise : Int
  risks : Nat
  clipped : Nat
  deriving DecidableEq, Repr

/-- The summaries of a second, or of one part of it, that has ended (R118, R134): epoch, t0, launches of its first and last trace, the marks of its traces, and its segments. -/
structure SecondSum where
  epoch : Nat
  t0 : Stamp
  first : Stamp
  last : Stamp
  marks : Nat
  segs : List SegSummary
  deriving DecidableEq, Repr

/-- A trace header (R117) before it is packed. -/
structure TraceHeader where
  launch : Stamp
  launchTick : Tick
  epoch : Nat
  frame : Nat
  first : Nat
  count : Nat
  port : Port
  group : Nat
  plan : Nat
  seed : Nat
  stitched : Bool
  dark : Bool
  saturated : Bool
  suspect : Bool
  risk : Bool
  faded : Nat
  invalid : Nat
  satFirst : Nat
  satLast : Nat
  pitch : Nat
  gauge : Nat
  gainChanged : Bool
  thinned : Bool
  deriving DecidableEq, Repr

/-- A trace's strain-rate words, none for INVALID, with the trace's grid index (R125), and its grid: the interval Δ and the offset. -/
structure StrainTrace where
  header : TraceHeader
  index : Nat
  delta : Nat
  offset : Nat
  words : List (Option Int)
  deriving DecidableEq, Repr

/-- One decimation tile of the corner-turn buffer (R129): its number on its grid, T_dec, the grid, whether it is ready, and its traces, oldest first. -/
structure CornerTile where
  k : Nat
  tdec : Nat
  delta : Nat
  offset : Nat
  ready : Bool
  traces : List StrainTrace
  deriving DecidableEq, Repr

/-- Gain control of one window (R98): peak over the run, frames of the run with a clip, consecutive quiet runs. -/
structure GainWin where
  peak : Nat
  clips : Nat
  quiet : Nat
  deriving DecidableEq, Repr

/-- Correction terms of one polarisation (R97), from the factory calibration and then tracked from statistics, in 2⁻¹⁶: offsets, a_I, a_Q and b. -/
structure IqTerms where
  oI : Int
  oQ : Int
  aI : Int
  aQ : Int
  cross : Int
  deriving DecidableEq, Repr

/-- The factory terms of a polarisation of a port (R97; log entry 60). -/
def IqTerms.factory (port pol : Nat) : IqTerms :=
  ⟨Config.iqFactory port pol 0, Config.iqFactory port pol 1, Config.iqFactory port pol 2, Config.iqFactory port pol 3, Config.iqFactory port pol 4⟩

/-- Coherent processing of one port. `points` and `segs` are the temporal state of generation `gen`, `prev` that of generations whose traces are still to come; `noise` is N_s of each slot,
`weightsNext` the weights that apply from the next strobe; `gainLog` the start, period and gain steps of recent frames, newest first. `secondFirst` and `secondLast` are the launches of the first and the last trace of the second in progress, `secondMarks` what some trace of it carries
(bits: stitched, dark, saturated, time_suspect, thinned); `strain` holds traces whose
strain words are formed and still to be written; `corner` the tiles of the corner-turn buffer, oldest first; `trail` grid index, Δ and launch of the traces that reached it, newest first (R125). -/
structure CohPort where
  gen : Nat
  points : List PointSt
  segs : List SegSt
  prev : List CohGen
  adc : Adc
  gainLog : List (Tick × Nat × List Nat)
  frames : Nat
  combineFrames : Nat
  noise : List Nat
  weightsNext : Option (List (List Nat))
  sums : List SegSum
  gains : List GainWin
  gainPending : List (Nat × Nat)
  gainMark : Bool
  iqX : IqTerms
  iqY : IqTerms
  iqPending : Option (IqTerms × IqTerms × List Int)
  iqFrames : Nat
  lastProof : Option Tick
  secondEpoch : Nat
  secondStart : Stamp
  secondFirst : Stamp
  secondLast : Stamp
  secondMarks : Nat
  closed : List SecondSum
  strain : List StrainTrace
  corner : List CornerTile
  trail : List (Nat × Nat × Stamp)
  deriving DecidableEq, Repr

/-- Coherent state of a port at reset (log entry 5). -/
def CohPort.idle (port : Nat) : CohPort where
  gen := 0
  points := []
  segs := []
  prev := []
  adc := ⟨0, []⟩
  gainLog := []
  frames := 0
  combineFrames := 0
  noise := List.replicate 8 0
  weightsNext := none
  sums := []
  gains := List.replicate 64 ⟨0, 0, 0⟩
  gainPending := []
  gainMark := false
  iqX := IqTerms.factory port 0
  iqY := IqTerms.factory port 1
  iqPending := none
  iqFrames := 0
  lastProof := none
  secondEpoch := 1
  secondStart := 0
  secondFirst := 0
  secondLast := 0
  secondMarks := 0
  closed := []
  strain := []
  corner := []
  trail := []

/-- A subscriber a tile goes to, as the values of its block's epoch name it (R32, R135): position and generation, address, UDP port, and whether on both links. -/
structure Dest where
  sub : Nat
  gen : Nat
  addr : Nat
  udp : Nat
  dual : Bool
  deriving DecidableEq, Repr

/-- One tile of a stream as it is packed (R130, R131); seq is set when it is first sent. `rough` sets the flag unsettled where settled_from is 0 (R179). -/
structure Tile where
  kind : Nat
  port : Nat
  unsettled : Nat
  stitched : Bool
  dark : Bool
  saturated : Bool
  suspect : Bool
  gap : Bool
  thinned : Bool
  lastTile : Bool
  index : Nat
  total : Nat
  epoch : Nat
  block : Nat
  t0 : Stamp
  interval : Nat
  firstPoint : Nat
  points : Nat
  samples : Nat
  format : Nat
  filter : Nat
  decimation : Nat
  filterDelay : Nat
  payload : List Byte
  lastInput : Stamp
  dests : List Dest := []
  rough : Bool := false
  deriving DecidableEq, Repr

/-- A tile in the retransmit buffer (R136): its seq, datagram, when it was sent, the longest window then in force in ticks, and every copy that left (R139): the subscriber (position and
generation), the link, and when. -/
structure HeldTile where
  seq : Nat
  bytes : List Byte
  sentAt : Tick
  keep : Nat
  subs : List Nat
  links : List (Nat × Port × Tick)
  deriving DecidableEq, Repr

/-- One output sample of a block being formed (R125 to R127); `geo` is the gauge and pitch of its newest trace. -/
structure Sample where
  n : Nat
  values : List (Option Int)
  stamp : Stamp
  unsettled : Bool
  stitched : Bool
  dark : Bool
  saturated : Bool
  suspect : Bool
  thinned : Bool
  lastInput : Stamp
  delta : Nat
  geo : Nat × Nat
  deriving DecidableEq, Repr

/-- One input trace of a stream's filter (R126): grid index, the stream's points, and what it marks. -/
structure InRow where
  index : Nat
  values : List (Option Int)
  stitched : Bool
  dark : Bool
  saturated : Bool
  suspect : Bool
  thinned : Bool
  stamp : Stamp
  delta : Nat
  deriving DecidableEq, Repr

/-- A retransmission waiting (R137): the subscriber that asked, seq, link of the NACK, and when it was asked for. -/
structure RetxReq where
  dest : Dest
  seq : Nat
  link : Port
  asked : Tick
  deriving DecidableEq, Repr

/-- One subscriber position (R135, R138, R139, R331): the link it is on, when anything last went to it if ever, the generation of its present subscriber, and
removed generations whose retained tiles await release. -/
structure SubSt where
  on : Port
  lastSent : Option Tick
  gen : Nat
  leaving : List Nat
  deriving DecidableEq, Repr

/-- A subscriber position at reset: nothing sent. -/
def SubSt.idle : SubSt where
  on := .a
  lastSent := none
  gen := 0
  leaving := []

/-- One stream. `rows` are the filter's input traces, newest first; `start` the first index after the last restart; `events` first indices of events that mark
outputs unsettled; `block` the samples of the block in progress, oldest first; `evals` the samples the last
decimation tile formed, newest first (R224); `queue` tiles awaiting first transmission; `due` the banks that load at the first block whose first input comes at or after their F, oldest first
(R31); `suspendedAt` that the links' budget
suspends the stream (R139), `parked` that BEDROCK does and nothing is decimated (R377). -/
structure StreamSt where
  bank : Bank
  rows : List InRow
  start : Nat
  events : List Nat
  gap : Bool
  lastIndex : Option Nat
  lastDelta : Nat
  lastEpoch : Nat
  lastCount : Nat
  nextN : Nat
  blockEpoch : Nat
  block : List Sample
  evals : List Sample
  queue : List Tile
  held : List HeldTile
  retx : List RetxReq
  subs : List SubSt
  suspendedAt : Option Tick
  suspendedSent : Tick
  begun : Bool
  counter : Nat
  due : List (Stamp × Bank)
  parked : Bool
  deriving DecidableEq, Repr

/-- A stream at reset: OFF, nothing sent. -/
def StreamSt.idle : StreamSt where
  bank := ⟨1, PSet.reset⟩
  rows := []
  start := 0
  events := []
  gap := false
  lastIndex := none
  lastDelta := 0
  lastEpoch := 0
  lastCount := 0
  nextN := 0
  blockEpoch := 1
  block := []
  evals := []
  queue := []
  held := []
  retx := []
  subs := List.replicate 4 SubSt.idle
  suspendedAt := none
  suspendedSent := 0
  begun := false
  counter := 0
  due := []
  parked := false

/-- One network link (R139): up, gigabit, since when, and bytes retransmitted in the current 10 ms. -/
structure LinkSt where
  up : Bool
  gigabit : Bool
  since : Tick
  share : Nat
  shareAt : Tick
  deriving DecidableEq, Repr

/-- Coherent processing and streams together. `fitsSince` is when demand first fitted for the next resumption. -/
structure Signal where
  cohA : CohPort
  cohB : CohPort
  laser : Laser
  streams : List StreamSt
  linkA : LinkSt
  linkB : LinkSt
  fitsSince : Option Tick
  deriving DecidableEq, Repr

/-- At reset both links are down and every stream is off (log entry 5). -/
def Signal.reset : Signal where
  cohA := CohPort.idle 0
  cohB := CohPort.idle 1
  laser := ⟨0, [], 0, 0⟩
  streams := List.replicate 16 StreamSt.idle
  linkA := ⟨false, false, 0, 0, 0⟩
  linkB := ⟨false, false, 0, 0, 0⟩
  fitsSince := none

end Sys2Proof.Machine
end

