-- ==== Sys2Proof/Machine/StBasalt.lean ====
section
/-! DEFINITION. State of the Basalt kernel engine (chapter 08): cores with their registers, memories and pipelines, instances, kernel slots. -/

namespace Sys2Proof.Machine

/-- Where a result lands (R195, R196): a physical vector register, a scalar register, an address register, a control register written by MTC (with its
access rules) or by the core itself, or a bit of KE_STATUS set or cleared. -/
inductive BDest where
  | v (n : Nat)
  | s (n : Nat)
  | a (n : Nat)
  | mtc (ke : Nat)
  | ke (ke : Nat)
  | flag (bit : Nat)
  | unflag (bit : Nat)
  deriving DecidableEq, Repr

/-- A result in flight: the bundle count it becomes visible at, the slot that issued it, where it lands, and its bits. -/
structure BWrite where
  due : Nat
  slot : Nat
  dest : BDest
  val : Nat
  deriving DecidableEq, Repr

/-- A store in flight (R192). -/
structure BStore where
  due : Nat
  cells : List Host.Cell
  deriving DecidableEq, Repr

/-- A DMA channel at work: its descriptor (R206). -/
structure BDma where
  op : Nat
  conv : Nat
  irq : Bool
  side : Bool
  dmem : Nat
  aux : Nat
  index : Nat
  first : Nat
  count : Nat
  offset : Nat
  deriving DecidableEq, Repr

/-- What a core is doing: nothing (clock-gated or stopped), INIT, or TILE. -/
inductive BRun where
  | gated
  | init
  | tile
  | stopped
  deriving DecidableEq, Repr

/-- The snapshot of a core at a fault (R215); `undef` as in `BCore`. -/
structure BSnap where
  taken : Stamp
  cause : Nat
  logical : Nat
  pc : Nat
  mem : List Host.Cell
  v : List (BitVec 512)
  acc : List (BitVec 1536)
  s : List Word
  a : List Word
  ke : List Nat
  undef : Option Nat
  deriving DecidableEq, Repr

/-- One physical core (R182, R188 to R206). `role` is 0 ACTIVE, 1 SPARE, 2 RETIRED. `ke` holds the control registers by index (0x00 to 0x4F), `crc` the check units'
running values in issue order (R212). `mem` lists data memory in canonical form, unlisted bytes reading 0 (R190). `bundle` counts issued bundles; the fields from
`open_` to `tend` describe the bundle being issued; `delay` is the branch in flight. `takes` is the share a spare is being loaded for; `late` marks a spare that waits
for the next tile. `undef` holds a draw of free values where data memory has no defined content (R182); `both` tells that the bundle being issued makes two accesses,
`denied` for how many bundles in a row the channels at work found no access free (R191). -/
structure BCore where
  role : Nat
  logical : Nat
  inst : Option Nat
  run : BRun
  v : List (BitVec 512)
  s : List Word
  a : List Word
  acc : List (BitVec 1536)
  ke : List Nat
  crc : List Nat
  mem : List Host.Cell
  pc : Nat
  bundle : Nat
  writes : List BWrite
  stores : List BStore
  open_ : Bool
  rot : Bool
  wait : Option Nat
  branch : Option (Option Nat)
  skip : Option Nat
  noInt : Bool
  tend : Bool
  delay : Option (Nat × Option Nat)
  first : Bool
  frozen : Bool
  tending : Bool
  dma : List (Option BDma)
  ring : List (BitVec 96)
  snap : Option BSnap
  takes : Option (Nat × Nat)
  late : Bool
  needInit : Bool
  undef : Option Nat
  both : Bool
  denied : Nat
  deriving DecidableEq, Repr

/-- Control registers at INIT entry (R205): zero, but KE_AMLEN_n, KE_CRC_CFG_n and the running values. -/
def keReset : List Nat :=
  (List.range 80).map (fun n =>
    if 0x20 ≤ n ∧ n ≤ 0x27 then 0x40000 else if 0x40 ≤ n ∧ n ≤ 0x43 then 12 else if 0x44 ≤ n ∧ n ≤ 0x4B then 0xFFFFFFFF else 0)

/-- A core at reset: gated, its registers and memory zero (log entry 7). -/
def BCore.off : BCore where
  role := 0
  logical := 0
  inst := none
  run := .gated
  v := List.replicate 64 0
  s := List.replicate 32 0
  a := List.replicate 8 0
  acc := List.replicate 8 0
  ke := keReset
  crc := List.replicate 4 0xFFFFFFFFFFFFFFFF
  mem := []
  pc := 0
  bundle := 0
  writes := []
  stores := []
  open_ := false
  rot := false
  wait := none
  branch := none
  skip := none
  noInt := false
  tend := false
  delay := none
  first := true
  frozen := false
  tending := false
  dma := [none, none, none, none]
  ring := []
  snap := none
  takes := none
  late := false
  needInit := false
  undef := none
  both := false
  denied := 0

/-- A tile an instance works on (R184, R209): its number, its traces, when it became ready and its deadline, KE_TILE_FLAGS, the records that arrived by sample and output
point, whether its block carries gap, whether a core failed in it, unsettled samples, and whether its block was sent. -/
structure BTile where
  port : Port
  k : Nat
  tdec : Nat
  delta : Nat
  readyAt : Tick
  deadline : Tick
  traces : List StrainTrace
  flags : Nat
  records : List (Nat × Nat × List Byte)
  gap : Bool
  failed : Bool
  unsettled : Nat
  closed : Bool
  deriving DecidableEq, Repr

/-- One instance (R183, R210, R216, R217). `bank` holds its BLOCK-class values; `last` what the previous tile ended with (epoch, index, count, Δ); `faults` the
times of software faults; `lost` the logical numbers whose share has no core; `checkpoints` the persist regions by logical number; `loads` core loads of the last second in
0.1 %; `shed` is shed step 3. -/
structure BInst where
  bank : Bank
  on : Bool
  restart : Bool
  halted : Bool
  shed : Bool
  faults : List Tick
  lost : List Nat
  checkpoints : List (Nat × List Byte)
  scratch : List Host.Cell
  tile : Option BTile
  last : Option (Nat × Nat × Nat × Nat)
  left : Nat
  loads : List (Tick × Nat)
  deriving DecidableEq, Repr

/-- An instance that is off. -/
def BInst.off : BInst where
  bank := ⟨1, PSet.reset⟩
  on := false
  restart := true
  halted := false
  shed := false
  faults := []
  lost := []
  checkpoints := []
  scratch := []
  tile := none
  last := none
  left := 0
  loads := []

/-- One kernel slot (R214): the image as loaded, a load in progress (client, image length, persistent, bytes so far), and whether it waits for release. -/
structure BSlot where
  image : List Byte
  loading : Option (BitVec 64 × Nat × Bool × List Byte)
  releasing : Bool
  deriving DecidableEq, Repr

/-- A decimation tile of a port as the corner-turn buffer delivers it to Basalt (R129): number, T_dec, ready tick, traces. -/
structure BReady where
  k : Nat
  tdec : Nat
  readyAt : Tick
  traces : List StrainTrace
  deriving DecidableEq, Repr

/-- The engine. `stored` holds persistent images by slot, as flash keeps them (R214); `retired` lists every core retirement of the module's life and
`outOf` the cores out of service (R217, R400). -/
structure Basalt where
  cores : List BCore
  insts : List BInst
  slots : List BSlot
  stored : List (Nat × List Byte)
  retired : List Nat
  outOf : List Nat
  ready : PerPort (Option BReady)
  deriving DecidableEq, Repr

/-- Nothing loaded, nothing running; cores 32 and 33 are the spares (R182). -/
def Basalt.reset : Basalt where
  cores := (List.range 34).map (fun c => { BCore.off with role := if c < 32 then 0 else 1, logical := if c < 32 then c else 0 })
  insts := List.replicate 8 BInst.off
  slots := List.replicate 8 ⟨[], none, false⟩
  stored := []
  retired := []
  outOf := []
  ready := ⟨none, none⟩

end Sys2Proof.Machine
end

