-- ==== Sys2Proof/Machine/Operands.lean ====
section
/-! DEFINITION. Operand forms of the Basalt operations: lanes, register names under rotation, address modes, immediates, data-memory bytes (R185 to R193). -/

namespace Sys2Proof.Machine

/-! ### Lanes (R188) -/

/-- `n` lanes of `w` bits, lane 0 lowest. -/
def lanesOf (w n v : Nat) : List Nat := (List.range n).map (fun l => v / 2 ^ (w * l) % 2 ^ w)

/-- The value some lanes of `w` bits form. -/
def ofLanes (w : Nat) : List Nat → Nat
  | [] => 0
  | x :: rest => x % 2 ^ w + 2 ^ w * ofLanes w rest

/-- Lane width of field w of form V (R185). -/
def laneW (w : Bool) : Nat := if w then 32 else 16
/-- Number of lanes. -/
def laneN (w : Bool) : Nat := if w then 16 else 32

/-- Bits of a signed value in `w` bits. -/
def bitsOf (w : Nat) (v : Int) : Nat := (v % (2 ^ w : Int)).toNat
/-- The signed value of `w` bits (R194). -/
def signed (w : Nat) (v : Nat) : Int := wrapS w v

/-! ### Registers -/

/-- The physical vector register a logical name means (R189). -/
def physReg (rotbase r : Nat) : Nat := if r < 32 then r else 32 + (r - 32 + rotbase) % 32

/-- A control register as stored. -/
def BCore.keAt (x : BCore) (n : Nat) : Nat := x.ke.getD n 0
/-- KE_ROTBASE. -/
def BCore.rotbase (x : BCore) : Nat := x.keAt 0x10
/-- A vector register by logical name. -/
def BCore.vreg (x : BCore) (r : Nat) : BitVec 512 := x.v.getD (physReg x.rotbase r) 0
/-- A scalar register. -/
def BCore.sreg (x : BCore) (r : Nat) : Word := x.s.getD r 0
/-- An address register. -/
def BCore.areg (x : BCore) (r : Nat) : Word := x.a.getD r 0
/-- An accumulator. -/
def BCore.accreg (x : BCore) (r : Nat) : BitVec 1536 := x.acc.getD r 0
/-- Lanes of a vector register. -/
def BCore.lanes (x : BCore) (w : Bool) (r : Nat) : List Nat := lanesOf (laneW w) (laneN w) (x.vreg r).toNat
/-- Signed 16-bit lanes of a vector register. -/
def BCore.lanes16 (x : BCore) (r : Nat) : List Int := (lanesOf 16 32 (x.vreg r).toNat).map (signed 16)

/-- Operand b of form V: a vector's lanes, or imm16 in every lane, sign-extended to 32-bit lanes. -/
def BCore.laneB (x : BCore) (o : OpV) : List Nat :=
  if o.i then List.replicate (laneN o.w) (bitsOf (laneW o.w) (signed 16 o.imm.toNat)) else x.lanes o.w o.b.toNat

/-- A scalar field of form V or C's wider fields: its low 5 bits. -/
def low5 (r : BitVec 6) : Nat := r.toNat % 32

/-! ### Address modes (R193) -/

/-- Signed increment of a width. -/
def incOf (w v : Nat) : Int := wrapS w v

/-- The `n` low bits of a number reversed. -/
def bitrev : Nat → Nat → Nat
  | 0, _ => 0
  | n + 1, v => v % 2 * 2 ^ n + bitrev n (v / 2)

/-- log₂ of a power of two; none for any other number. -/
def log2Exact (n : Nat) : Option Nat := if n ≠ 0 ∧ 2 ^ Nat.log2 n = n then some (Nat.log2 n) else none

/-- A mode R193 reserves. -/
def modeReserved (m : BitVec 3) : Bool := decide (6 ≤ m.toNat)

/-- The address a mode uses. -/
def BCore.addrOf (x : BCore) (an mode : Nat) (inc : Int) : Nat :=
  if mode = 5 then bitsOf 32 ((x.areg an).toNat + inc) else (x.areg an).toNat

/-- An after the access: unchanged (none), a value, or one the spec does not state (some none): a modulus of 0, a length that is no power of two, or mode 2 of form M2,
which names no scalar register. -/
def BCore.addrNext (x : BCore) (an mode : Nat) (inc : Int) (byReg : Option Nat) : Option (Option Nat) :=
  let v := (x.areg an).toNat
  let base := x.keAt (0x18 + an)
  let len := x.keAt (0x20 + an)
  match mode with
  | 1 => some (some (bitsOf 32 (v + inc)))
  | 2 => some (byReg.map (fun r => bitsOf 32 (v + signed 32 (x.sreg r).toNat)))
  | 3 => some (if len = 0 then none else some (bitsOf 32 (base + ((v : Int) - base + inc) % (len : Int))))
  | 4 => some ((log2Exact len).map (fun n =>
      bitsOf 32 (base + bitrev n ((bitrev n (bitsOf n ((v : Int) - base)) + bitrev n (bitsOf n inc)) % 2 ^ n))))
  | _ => none

/-! ### Data memory (R190): a canonical list of cells, unlisted bytes reading 0 -/

/-- What an unlisted address reads as. -/
def memDefault : Byte := 0

/-- Read one byte. -/
def memRead : List Host.Cell → Nat → Byte
  | [], _ => memDefault
  | (k, v) :: rest, n => if k = n then v else if n < k then memDefault else memRead rest n

/-- Insert a byte that is not the default, replacing the address's entry. -/
def memInsert (n : Nat) (b : Byte) : List Host.Cell → List Host.Cell
  | [] => [(n, b)]
  | (k, v) :: rest => if n < k then (n, b) :: (k, v) :: rest else if k = n then (n, b) :: rest else (k, v) :: memInsert n b rest

/-- Remove an address's entry. -/
def memErase (n : Nat) : List Host.Cell → List Host.Cell
  | [] => []
  | (k, v) :: rest => if k = n then rest else if n < k then (k, v) :: rest else (k, v) :: memErase n rest

/-- Write one byte, keeping the canonical form. -/
def memWrite (m : List Host.Cell) (n : Nat) (b : Byte) : List Host.Cell := if b = memDefault then memErase n m else memInsert n b m

/-- Write some cells, in order. -/
def memWrites (m : List Host.Cell) (cs : List Host.Cell) : List Host.Cell := cs.foldl (fun a c => memWrite a c.1 c.2) m

/-- Every key of a list lies above a bound and the keys rise; no entry equals the default. -/
def memWfFrom : Nat → List Host.Cell → Bool
  | _, [] => true
  | lo, (k, v) :: rest => decide (lo ≤ k) && (v != memDefault) && memWfFrom (k + 1) rest

/-- The canonical form. -/
def Memory.wf (m : List Host.Cell) : Bool := memWfFrom 0 m

/-- Read some bytes. -/
def memBytes (m : List Host.Cell) (at_ count : Nat) : List Byte := (List.range count).map (fun i => memRead m (at_ + i))

/-- Cells that place bytes from an address on. -/
def cellsFrom : Nat → List Byte → List Host.Cell
  | _, [] => []
  | n, b :: rest => (n, b) :: cellsFrom (n + 1) rest

end Sys2Proof.Machine
end

