-- ==== Sys2Proof/Machine/Flags.lean ====
section
/-! DEFINITION. Flags and control registers of a Basalt core: KE_STATUS, saturation and rounding (R194), and the access rules of R205. -/

namespace Sys2Proof.Machine

/-! ### Saturation and rounding (R194) -/

/-- Saturate to `w` signed bits; the second part tells that it did. -/
def satFlag (w : Nat) (v : Int) : Int × Bool := (satS w v, decide (satS w v ≠ v))

/-- A value shifted right and rounded: 0 truncate, 1 half up, 2 half to even. -/
def shiftRound (round shift : Nat) (v : Int) : Int :=
  let q := v / (2 : Int) ^ shift
  let r := v % (2 : Int) ^ shift
  match round with
  | 0 => q
  | 1 => (2 * v + (2 : Int) ^ shift) / (2 * (2 : Int) ^ shift)
  | _ => if 2 * r < (2 : Int) ^ shift then q else if 2 * r > (2 : Int) ^ shift then q + 1 else if q % 2 = 0 then q else q + 1

/-! ### KE_STATUS (R205) -/

/-- KE_STATUS as it reads: IE, INH, WCOLL, SAT as stored, LA and LB from the loop counts (R199). -/
def BCore.status (x : BCore) : Nat :=
  x.keAt 1 % 16 + 16 * b2n (x.keAt 8 ≠ 0) + 32 * b2n (x.keAt 0xB ≠ 0)

/-- Store a control register. -/
def BCore.keSet (x : BCore) (n v : Nat) : BCore := { x with ke := x.ke.set n v }

/-- Set or clear one of the stored bits of KE_STATUS. -/
def BCore.statusBit (x : BCore) (bit : Nat) (on : Bool) : BCore :=
  let v := x.keAt 1
  if bitOf v bit = on then x else if on then x.keSet 1 (v + 2 ^ bit) else x.keSet 1 (v - 2 ^ bit)

/-- Interrupts enabled. -/
def BCore.ie (x : BCore) : Bool := bitOf (x.keAt 1) 0

/-- KE_DMA_BUSY: the channels in progress. -/
def BCore.dmaBusy (x : BCore) : Nat :=
  b2n (x.dma.getD 0 none).isSome + 2 * b2n (x.dma.getD 1 none).isSome + 4 * b2n (x.dma.getD 2 none).isSome + 8 * b2n (x.dma.getD 3 none).isSome

/-- KE_ID: logical core, physical core, instance. -/
def BCore.keId (x : BCore) (phys : Nat) : Nat := x.logical % 32 + 256 * phys + 65536 * (x.inst.getD 0)

/-- The width of a register MTC may write, and whether ones clear (W1C); none for RO and unlisted indices. -/
def keRule (n : Nat) : Option (Nat × Bool) :=
  if n = 2 then some (3, false) else if n = 3 then some (3, true) else if n = 4 then some (12, false) else if n = 5 then some (6, false)
  else if n = 6 then some (12, false) else if n = 7 ∨ n = 8 ∨ n = 0xB then some (32, false)
  else if n = 9 ∨ n = 0xA ∨ n = 0xC ∨ n = 0xD then some (12, false) else if n = 0x10 then some (5, false)
  else if 0x11 ≤ n ∧ n ≤ 0x14 then some (32, false) else if 0x18 ≤ n ∧ n ≤ 0x1F then some (18, false)
  else if 0x20 ≤ n ∧ n ≤ 0x27 then some (19, false) else if n = 0x29 then some (4, true)
  else if 0x40 ≤ n ∧ n ≤ 0x43 then some (4, false) else if 0x44 ≤ n ∧ n ≤ 0x4B then some (32, false) else none

/-- The bits a control register holds (R205). -/
def keWidth (n : Nat) : Nat :=
  match keRule n with
  | some (w, _) => w
  | none => if n = 1 then 4 else if n = 0x31 then 13 else if n = 0x32 then 12 else if n = 0x33 then 18 else if n = 0x34 then 8
      else if n = 0x30 ∨ n = 0x35 ∨ n = 0x38 ∨ n = 0x39 then 32 else 0

/-- Bits of `v` with those of `m` cleared. -/
def clearBits (v m : Nat) : Nat := Nat.xor v (Nat.land v m)

/-- An MTC lands (R205): KE_STATUS takes IE and clears WCOLL and SAT where ones are written; the others by their rule; RO registers and indices without a register keep
what they hold. -/
def BCore.mtcLand (x : BCore) (n v : Nat) : BCore :=
  if n = 1 then x.keSet 1 (clearBits (x.keAt 1) (Nat.land v 12) / 2 * 2 + v % 2)
  else match keRule n with
    | none => x
    | some (w, false) => x.keSet n (v % 2 ^ w)
    | some (w, true) => x.keSet n (clearBits (x.keAt n) (v % 2 ^ w))

/-- Indices that name a register. -/
def keListed (n : Nat) : Bool :=
  (keRule n).isSome || n == 0 || n == 1 || n == 0x28 || (decide (0x30 ≤ n) && decide (n ≤ 0x35)) || n == 0x38 || n == 0x39

/-- What MFC reads (R205); none for an index without a register. -/
def BCore.mfcRead (x : BCore) (phys n : Nat) : Option Nat :=
  if n = 0 then some (x.keId phys) else if n = 1 then some x.status else if n = 0x28 then some x.dmaBusy
  else if keListed n then some (x.keAt n) else none

/-! ### Check units (R211) -/

/-- Polynomial and width of a configuration. -/
def crcPoly (cfg : Nat) : Nat × Nat :=
  match cfg % 4 with
  | 0 => (0x1EDC6F41, 32)
  | 1 => (0x04C11DB7, 32)
  | 2 => (0x1021, 16)
  | _ => (0x42F0E1EBA9EA3693, 64)

/-- One bit, reflected, over the reversed polynomial. -/
def crcStepR (rpoly v : Nat) : Nat := if v % 2 = 1 then Nat.xor (v / 2) rpoly else v / 2
/-- One bit, most significant first, over width `w`. -/
def crcStepF (poly w v : Nat) : Nat := if bitOf v (w - 1) then Nat.xor (v * 2 % 2 ^ w) poly else v * 2 % 2 ^ w

/-- Some steps. -/
def iterN {α : Type} (f : α → α) : Nat → α → α
  | 0, x => x
  | n + 1, x => iterN f n (f x)

/-- One byte fed to a running value of `w` bits. -/
def crcFeedByte (cfg v : Nat) (b : Byte) : Nat :=
  let p := crcPoly cfg
  if bitOf cfg 2 then iterN (crcStepR (bitrev p.2 p.1)) 8 (Nat.xor v b.toNat)
  else iterN (crcStepF p.1 p.2) 8 (Nat.xor v (b.toNat * 2 ^ (p.2 - 8)))

/-- Feed bytes to a 64-bit running value: narrower polynomials use its low bits (R211). -/
def crcFeed (cfg v : Nat) (bs : List Byte) : Nat :=
  let w := (crcPoly cfg).2
  v / 2 ^ w * 2 ^ w + bs.foldl (crcFeedByte cfg) (v % 2 ^ w)

/-- The finished check value (R212). -/
def crcFinish (cfg v : Nat) : Nat :=
  let w := (crcPoly cfg).2
  if bitOf cfg 3 then Nat.xor (v % 2 ^ w) (2 ^ w - 1) else v % 2 ^ w

end Sys2Proof.Machine
end

