-- ==== Sys2Proof/Machine/Crc.lean ====
section
/-! DEFINITION. CRC-32C (R133) bit by bit, and the general register of the Basalt check units (R211). -/

namespace Sys2Proof.Machine

/-- One bit of a reflected CRC of the reflected polynomial `poly`. -/
def crcBitR (poly v : Nat) : Nat := if v % 2 = 1 then Nat.xor (v / 2) poly else v / 2

/-- Eight bits. -/
def crcByteR (poly v : Nat) (b : Byte) : Nat :=
  let x := Nat.xor v b.toNat
  crcBitR poly (crcBitR poly (crcBitR poly (crcBitR poly (crcBitR poly (crcBitR poly (crcBitR poly (crcBitR poly x)))))))

/-- The running value of CRC-32C after some bytes. -/
def crc32cRun (v : Nat) (bs : List Byte) : Nat := bs.foldl (crcByteR 0x82F63B78) v

/-- CRC-32C: all-ones start, final inversion (R133). -/
def crc32c (bs : List Byte) : BitVec 32 := BitVec.ofNat 32 (Nat.xor (crc32cRun 0xFFFFFFFF bs) 0xFFFFFFFF)

/-- The check value of R133: over the module ID, a stream byte and a sequence number, then the message. -/
def checkValue (moduleId : BitVec 64) (stream : Nat) (seq : Nat) (msg : List Byte) : BitVec 32 :=
  crc32c (le 8 moduleId.toNat ++ le 1 stream ++ le 4 seq ++ msg)

end Sys2Proof.Machine
end

