-- ==== Sys2Proof/Machine/StEmit.lean ====
section
/-! DEFINITION. State of the emitter drive (chapter 12). Statuses, measurements and counters live in the read-only parameters. -/

namespace Sys2Proof.Machine

/-- The verdict of the last measurement that counts towards a declaration (R300). -/
inductive Verdict where
  | none
  | open_
  | short
  deriving DecidableEq, Repr

/-- One drive channel (R294 to R304): its tables, whether SHADOW was validated since the last latch, whether ALT drives, the step in force, the last verdict, when
it was last verified, whether it carries its twin's current, and its (current 0.1 mA, mV) measurements for V_f(I), newest first. -/
structure Channel where
  active : List (BitVec 16)
  shadow : List (BitVec 16)
  alt : List (BitVec 16)
  shadowValid : Bool
  onAlt : Bool
  step : Nat
  verdict : Verdict
  verifiedAt : Tick
  sum : Option Nat
  fit : List (Nat × Nat)
  chargeRest : Nat
  deriving DecidableEq, Repr

/-- A channel with empty tables. -/
def Channel.idle : Channel where
  active := List.replicate 32 0
  shadow := List.replicate 32 0
  alt := List.replicate 32 0
  shadowValid := false
  onAlt := false
  step := 0
  verdict := .none
  verifiedAt := 0
  sum := none
  fit := []
  chargeRest := 0

/-- The emitter drive: channels, step start offsets of the three strobes (R295), the chain's record of the last load and whether it is the repeat (R296), the
clamped boosters (R47), EMV as it was at a tick (R298), since when headroom is ample (R299), a neighbour test owed (R302), and blink phases (R307). -/
structure Emitter where
  channels : List Channel
  stepsA : List Nat
  stepsB : List Nat
  stepsI : List Nat
  chain : List (BitVec 16)
  repeating : Bool
  clampA : Bool
  clampB : Bool
  emvAt : Tick
  ampleSince : Option Tick
  testDue : Bool
  blinkA : Bool
  blinkB : Bool
  blinkAtA : Tick
  blinkAtB : Tick
  rampA : Bool
  rampB : Bool
  deriving DecidableEq, Repr

/-- The drive at reset: every channel off (R293; log entry 5). -/
def Emitter.reset : Emitter where
  channels := List.replicate 11 Channel.idle
  stepsA := List.replicate 32 0
  stepsB := List.replicate 32 0
  stepsI := List.replicate 32 0
  chain := []
  repeating := false
  clampA := false
  clampB := false
  emvAt := 0
  ampleSince := none
  testDue := false
  blinkA := true
  blinkB := true
  blinkAtA := 0
  blinkAtB := 0
  rampA := false
  rampB := false

end Sys2Proof.Machine
end

