-- ==== Sys2Proof/Machine/StEns.lean ====
section
/-! DEFINITION. State of ensembles (chapter 14). -/

namespace Sys2Proof.Machine

/-- A member other than the module (R341, R344, R345, R355, R357): what its last heartbeat said, when anything was last heard, since when it is ABSENT, its status, (offset, round trip) of
the last 8 time checks newest first, the last ensemble capture's number and result. -/
structure Member where
  id : BitVec 64
  hb : Option Heartbeat
  heard : Tick
  heardAt : Stamp
  absent : Option Tick
  status : Nat
  checks : List (Int × Int)
  capture : Nat
  result : Nat
  deriving DecidableEq, Repr

/-- A transaction this module coordinates (R348 to R350): participants with the draft revision expected of each, those excluded from the start, the votes so far. -/
structure Coord where
  txn : Nat
  named : TS96
  deadline : Stamp
  available : Bool
  parts : List (BitVec 64 × Nat)
  excluded : List (BitVec 64)
  votes : List VoteMsg
  deriving DecidableEq, Repr

/-- A transaction this module has prepared (R349, R352): its coordinator, and whether OUTCOME has been asked. -/
structure Prepared where
  coordinator : BitVec 64
  txn : Nat
  named : TS96
  rev : Nat
  asked : Bool
  deriving DecidableEq, Repr

/-- An ensemble capture this module coordinates (R357): the members asked, and their answers (result, capture). -/
structure EnsCap where
  txn : Nat
  since : Tick
  asked : List (BitVec 64)
  answers : List (BitVec 64 × Nat × Nat)
  deriving DecidableEq, Repr

/-- The ensemble. `members` ascend by module ID and do not hold the module itself; `count` numbers transactions; `closed` holds outcomes by coordinator and txn (1 COMMIT, 0 ABORT)
with their tick; `voted` the votes given, for repeats (result, digest, bus group, role, period); `newest` the newest ensemble commit applied with its digest; `over` and `under` count evaluations of R356; `masters` the MASTER of bus
groups, as the votes of its ensemble commits named them; `conns` open peer connections with their last use. -/
structure Ensemble where
  members : List Member
  count : Nat
  coord : Option Coord
  prepared : Option Prepared
  closed : List (BitVec 64 × Nat × Nat × Tick)
  voted : List (BitVec 64 × Nat × VoteMsg)
  newest : Option (Nat × BitVec 64)
  caps : List EnsCap
  lastCapture : Nat
  lastResult : Nat
  over_ : Nat
  under : Nat
  hbAt : Tick
  checkAt : Tick
  evalAt : Tick
  masters : List (Nat × BitVec 64)
  conns : List (BitVec 64 × Tick)
  deriving DecidableEq, Repr

/-- No ensemble. -/
def Ensemble.reset : Ensemble where
  members := []
  count := 0
  coord := none
  prepared := none
  closed := []
  voted := []
  newest := none
  caps := []
  lastCapture := 0xFFFFFFFF
  lastResult := 0
  over_ := 0
  under := 0
  hbAt := 0
  checkAt := 0
  evalAt := 0
  masters := []
  conns := []

end Sys2Proof.Machine
end

