-- ==== Sys2Proof/Machine/StFront.lean ====
section
/-! DEFINITION. State of the reference sensor front end (chapter 07). -/

namespace Sys2Proof.Machine

/-- One channel (R165, R170, R171, R176): the fields and epoch in force, the running filter newest first, outputs since its last restart, whether the last conversion was
accepted, the reference of the last conversion, latched comparator trips, the open or short condition last reported, and whether it was in the last scan. -/
structure FeCh where
  set : PSet
  epoch : Nat
  hist : List Int
  outputs : Nat
  accepted : Bool
  lastRef : Option Nat
  tripOpen : Bool
  tripShort : Bool
  broken : Bool
  scanned : Bool
  excited : Bool
  deriving DecidableEq, Repr

/-- A channel with nothing converted. -/
def FeCh.idle : FeCh := ⟨PSet.reset, 1, [], 0, true, none, false, false, false, false, false⟩

/-- What a window gave (R167, R168): the limited conversion, its flags, and its end. -/
structure FeConv where
  raw : Int
  overrange : Bool
  refFault : Bool
  parityOk : Bool
  end_ : Stamp
  endTick : Tick
  deriving DecidableEq, Repr

/-- The slot in progress (R164). -/
structure FeSlot where
  ch : Nat
  start : Tick
  testing : Bool
  refSettling : Bool
  conv : Option FeConv
  deriving DecidableEq, Repr

/-- The REF block of one stream (R179): start, interval, scans, records with their window ends, and whether some result was unsettled. -/
structure RefBlock where
  t0 : Stamp
  interval : Nat
  scans : Nat
  recs : List (List Byte × Stamp)
  unsettled : Bool
  channels : Nat
  deriving DecidableEq, Repr

/-- An empty block. -/
def RefBlock.empty : RefBlock := ⟨0, 0, 0, [], false, 0⟩

/-- The front end. `order` holds the channels of the scan still to be visited; `scan` its records so far; `tLast` the last valid BLOCK_T value (binary32) and when;
`hkAt` when each housekeeping channel was last read and `hkNext` when its next reading is due
(R178); `period` the scan period in force in ms, of the last scan start (R165). -/
structure Front where
  chans : List FeCh
  order : List Nat
  enabled : List Nat
  scanning : Bool
  scanStart : Tick
  scanStamp : Stamp
  nextScan : Tick
  slot : Option FeSlot
  upSince : Tick
  extSince : Option Tick
  tLast : Option (Nat × Tick)
  scan : List (List Byte × Stamp)
  scanUnsettled : Bool
  blocks : List RefBlock
  hkAt : List Tick
  hkNext : List Tick
  period : Nat
  deriving DecidableEq, Repr

/-- The front end at reset: stopped (R163; log entry 5). -/
def Front.reset : Front where
  chans := List.replicate 10 FeCh.idle
  order := []
  enabled := []
  scanning := false
  scanStart := 0
  scanStamp := 0
  nextScan := 0
  slot := none
  upSince := 0
  extSince := none
  tLast := none
  scan := []
  scanUnsettled := false
  blocks := List.replicate 16 RefBlock.empty
  hkAt := List.replicate 16 0
  hkNext := List.replicate 16 0
  period := 0

end Sys2Proof.Machine
end

