-- ==== Sys2Proof/Machine/StHealth.lean ====
section
/-! DEFINITION. State of health, log, self-test and link tests (chapter 16). -/

namespace Sys2Proof.Machine

/-- One entry of the log ring (R401): kind 0 EVENT, 1 BOOT, 2 SAVE, 3 TELEMETRY, 4 SUPPRESSED. -/
structure LogEntry where
  kind : Nat
  code : Nat
  seq : Nat
  time : Stamp
  bootCount : Nat
  epoch : Nat
  severity : Nat
  args : List Val
  deriving DecidableEq, Repr

/-- One telemetry record (R398). -/
structure TelRecord where
  hk : List (BitVec 32)
  demand : Nat
  usable : Nat
  uncertainty : Nat
  loads : List Nat
  rate : Nat
  deriving DecidableEq, Repr

/-- One sample for the hourly means and extremes (R398): case in 0.01 °C, input power in 0.1 W, seed currents. -/
structure HourSample where
  case : Int
  power : Nat
  seed0 : Nat
  seed1 : Nat
  deriving DecidableEq, Repr

/-- A self-test run (R403): the mask run, the tests failed and skipped, whether it runs and since when, when it completed, and a detail code per test. -/
structure SelfTest where
  mask : Nat
  failed : Nat
  skipped : Nat
  running : Bool
  since : Tick
  completed : Option Stamp
  details : List Nat
  deriving DecidableEq, Repr

/-- A link test (R407): its pattern, until when it runs (none once it has ended), the network port it takes with whether that link is up, and its result. -/
structure LinkTest where
  pattern : Nat
  until_ : Option Tick
  port : Option (Port × Bool)
  bits : Nat
  errors : Nat
  deriving DecidableEq, Repr

/-- Health. `log` and `telemetry` are newest first; `hour` samples of the hour in progress; `erases` counts per flash block and `moved` the blocks replaced (R397); `eraseSecond` and
`eraseCount` the erases of the second in progress; `wear` EV_FLASH_WEAR raised; `wavelengthDue` the next calibration (R392, R394); `pumpAged` EV_PUMP_AGEING seen; `hotHours` hours above 85 °C (R409); `linkAt` the last check of
each link (R406). -/
structure Health where
  log : List LogEntry
  logSecond : Nat
  logInSecond : Nat
  logSuppressed : Nat
  telemetry : List TelRecord
  telNext : Nat
  telAt : Tick
  hourAt : Tick
  lifeAt : Tick
  hour : List HourSample
  erases : List (Nat × Nat)
  moved : List Nat
  eraseSecond : Nat
  eraseCount : Nat
  wear : Bool
  wavelengthDue : Tick
  pumpAged : Bool
  hotHours : Nat
  selftest : SelfTest
  linkTests : List (Option LinkTest)
  linkAt : List Tick
  deriving DecidableEq, Repr

/-- No self-test run. -/
def SelfTest.none_ : SelfTest := ⟨0, 0, 0, false, 0, none, List.replicate 6 0⟩

/-- Health at power-on: nothing run, nothing logged (log entry 5). -/
def Health.reset : Health where
  log := []
  logSecond := 0
  logInSecond := 0
  logSuppressed := 0
  telemetry := []
  telNext := 0
  telAt := 0
  hourAt := 0
  lifeAt := 0
  hour := []
  erases := []
  moved := []
  eraseSecond := 0
  eraseCount := 0
  wear := false
  wavelengthDue := 0
  pumpAged := false
  hotHours := 0
  selftest := SelfTest.none_
  linkTests := List.replicate 10 none
  linkAt := List.replicate 10 0

end Sys2Proof.Machine
end

