-- ==== Sys2Proof/Machine/StMem.lean ====
section
/-! DEFINITION. State of the memory subsystem (chapter 10): queues, banks, refresh, migration, error accounts, training. -/

namespace Sys2Proof.Machine

/-- A request waiting in a port's FIFO (R252) and the rise its age has brought (R253). -/
structure MemReq where
  req : DramReq
  rise : Nat
  deriving DecidableEq, Repr

/-- A QoS port: its FIFO oldest first, bytes of the metering window (R254), and the last second's largest latency in clocks and fill in bytes. -/
structure QosPort where
  fifo : List MemReq
  meter : Nat
  latency : Nat
  peak : Nat
  deriving DecidableEq, Repr

/-- A bank (R256, R257): its open row, its predictor, the clock of its last access, and the clock until which a refresh holds it. -/
structure MemBank where
  row : Option Nat
  pred : Nat
  lastUse : Nat
  busy : Nat
  deriving DecidableEq, Repr

/-- A physical rank: banks (bank group × 4 + bank), refresh debt (R258), the bank next in the rotation, whether forced refreshes run until the debt is 4 and the clock of the last
one (R259), accesses and row hits of the second, the end of its last burst, self-refresh, lane delays in steps from the table (R263) with the last reading and steps waiting. -/
structure MemRank where
  banks : List MemBank
  debt : Int
  rotation : Nat
  forcing : Bool
  lastForced : Option Nat
  accesses : Nat
  hits : Nat
  burstEnd : Nat
  selfRefresh : Bool
  lanes : List Int
  tracked : Tick
  steps : List Int
  deriving DecidableEq, Repr

/-- A run in progress (R252): its port, and its bytes so far. -/
structure MemRun where
  port : Nat
  bytes : Nat
  deriving DecidableEq, Repr

/-- A migration (R266): the old and the new rank, the logical rank, ticks copied so far before `since`, and when the copy last began (none while the spare is verified or the copy
is paused). -/
structure Migration where
  old : Nat
  new : Nat
  logical : Nat
  copied : Nat
  since : Option Tick
  verified : Bool
  deriving DecidableEq, Repr

/-- The memory subsystem. `table` gives the physical rank of each logical rank (R248); `direction` the last burst's direction and how many ran in it; `errors` corrected errors (rank,
device, tick) of 24 h; `writeBacks` corrected bursts to write back, with the tick by which; `recheck` bursts written back and not read since; `poison` poisoned bursts;
`poisonedRecs` captured records the poison reached; `faulty` and `retired` the flash records (R267, R268); `trained` the table entries replaced (rank, temperature) (R262). -/
structure MemSt where
  ports : List QosPort
  ranks : List MemRank
  table : List Nat
  run : Option MemRun
  write : Bool
  runLength : Nat
  meterAt : Tick
  second : Nat
  errors : List (Nat × Nat × Tick)
  writeBacks : List (Nat × Tick)
  recheck : List Nat
  poison : List Nat
  poisonedRecs : List (Nat × Port × Stamp)
  migration : Option Migration
  faulty : List (Nat × Nat)
  retired : List Nat
  trained : List (Nat × Nat)
  spareTest : Option Tick
  spareLast : Tick
  patrolAt : Tick
  deriving DecidableEq, Repr

/-- A bank at reset: closed, its predictor at 2 (R256). -/
def MemBank.reset : MemBank := ⟨none, 2, 0, 0⟩

/-- A rank at reset. -/
def MemRank.reset : MemRank where
  banks := List.replicate 16 MemBank.reset
  debt := 0
  rotation := 0
  forcing := false
  lastForced := none
  accesses := 0
  hits := 0
  burstEnd := 0
  selfRefresh := false
  lanes := List.replicate 162 0
  tracked := 0
  steps := []

/-- At manufacture, logical rank r is physical rank r and rank 4 is the spare in self-refresh (R248; log entry 5). -/
def MemSt.reset : MemSt where
  ports := List.replicate 7 ⟨[], 0, 0, 0⟩
  ranks := List.replicate 4 MemRank.reset ++ [{ MemRank.reset with selfRefresh := true }]
  table := [0, 1, 2, 3]
  run := none
  write := false
  runLength := 0
  meterAt := 0
  second := 0
  errors := []
  writeBacks := []
  recheck := []
  poison := []
  poisonedRecs := []
  migration := none
  faulty := []
  retired := []
  trained := []
  spareTest := none
  spareLast := 0
  patrolAt := 0

end Sys2Proof.Machine
end

