-- ==== Sys2Proof/Machine/StOptical.lean ====
section
/-! DEFINITION. State of the optical section and of the launch schedule (chapters 02, 03). Seed and port states, the fibre record and the
counters live in the read-only parameters; this holds the rest. -/

namespace Sys2Proof.Machine

/-- One seed (R36 to R41): tick at which its lock was established, the reference instant of its relock schedule, attempts made, tick of
the last one, and whether an attempt awaits its second of lock. -/
structure SeedSt where
  lockAt : Option Tick
  ref : Option Tick
  attempts : Nat
  lastAttempt : Tick
  trying : Bool
  deriving DecidableEq, Repr

/-- A seed with nothing pending. -/
def SeedSt.idle : SeedSt := ⟨none, none, 0, 0, false⟩

/-- A switch interval (R38): its end, the seed it brings, whether the old seed faulted or the host asked (R43), and the port whose frame
start ends it. -/
structure Switch where
  endAt : Tick
  to_ : Seed
  fault : Bool
  port : Option Port
  deriving DecidableEq, Repr

/-- The phases of discovery (R54). -/
inductive Phase where
  | continuity
  | ramp
  | ranging
  | profile
  deriving DecidableEq, Repr

/-- One port (R51 to R64). `stored` tells whether flash holds a discovery record; `found` what the ranging found until it is published;
`dark` counts slot bands seen dark in a row in the near and end windows; `declared` is the APR cause of a break that awaits the next strobe. -/
structure PortSt where
  stored : Bool
  fibreFound : Bool
  phase : Option (Phase × Tick)
  found : Option Ranging
  profile : List Nat
  probeAt : Option Tick
  aprSince : Tick
  aprMarks : Nat
  clamped : Bool
  looped : Bool
  overlength : Bool
  waitRestart : Bool
  rediscover : Bool
  darkNear : List Nat
  darkEnd : List Nat
  declared : Option Nat
  minPeriod : Nat
  deriving DecidableEq, Repr

/-- A port with no fibre and nothing recorded. -/
def PortSt.idle : PortSt where
  stored := false
  fibreFound := false
  phase := none
  found := none
  profile := []
  probeAt := none
  aprSince := 0
  aprMarks := 0
  clamped := false
  looped := false
  overlength := false
  waitRestart := false
  rediscover := false
  darkNear := []
  darkEnd := []
  declared := none
  minPeriod := 0

/-- A group launch whose trace is still to come (R75, R289): launch tick, launch time, group, slots, what the launch was, and what
the header needs: plan, epoch, thinned, time-suspect, stitched slots, a gain change at either end of its frame, the active seed, a faulted preamplifier,
the live range, the trace interval Δ in ticks, the FRAME-class values in force (R33), the generation of the
pipeline's temporal state it belongs to (R109), and the F those values came with (R134). -/
structure Launch where
  tick : Tick
  stamp : Stamp
  plan : Nat
  group : Nat
  slots : List Nat
  dark : Bool
  apr : Bool
  thinned : Bool
  suspect : Bool
  stitched : Bool
  epoch : Nat
  frame : Nat
  gain : Bool
  seed : Nat
  preBad : Bool
  first : Nat
  count : Nat
  delta : Nat
  set : PSet
  gen : Nat
  since : Stamp
  deriving DecidableEq, Repr

/-- The frame schedule of a port (R68 to R73, R87). `next` is the coming frame start; `stitch` the slots whose next trace is stitched; `inflight` the
launches whose traces are still to come; `probed` tells whether an APR probe is still to be launched (R86); `gap` that no frame runs although the port has frames: the transition gap of R72,
or the wait for lock (R90). -/
structure FrameSt where
  next : Option Tick
  last : Tick
  groupNext : Nat
  origin : Tick
  thinNext : Nat
  stitch : List Bool
  inflight : List Launch
  probed : Bool
  gap : Bool
  deriving DecidableEq, Repr

/-- No frames. -/
def FrameSt.idle : FrameSt where
  next := none
  last := 0
  groupNext := 0
  origin := 0
  thinNext := 0
  stitch := List.replicate 8 false
  inflight := []
  probed := false
  gap := false

/-- The DTS source (R84): whose turn it is, when the moving switch will have settled there, and since when it is settled. -/
structure DtsTurn where
  turn : Port
  moving : Option Tick
  settledAt : Tick
  deriving DecidableEq, Repr

/-- Frame lock (R88 to R93): the last valid word's tick and period, the predicted start after it, misses in a row, a collision latch, and whether ENS_CLK is driven. -/
structure Lock where
  lastWord : Option (Tick × Nat)
  predicted : Tick
  missed : Nat
  acquireSince : Option Tick
  collision : Bool
  drives : Bool
  deriving DecidableEq, Repr

/-- The optical section. `kept` is the port BEDROCK keeps (R377); `select` with the tick `selectAt` of its F, `realignDue` of each port and `stepDue`
are actions whose F has come and whose step is still to be taken (R43, R92, R280); `fAt` is the last F of each port and `switchedAt` the end of the last switch interval (R119). -/
structure Optical where
  seed0 : SeedSt
  seed1 : SeedSt
  switch : Option Switch
  portA : PortSt
  portB : PortSt
  frameA : FrameSt
  frameB : FrameSt
  dts : DtsTurn
  lock : Lock
  internalNext : Tick
  kept : Option Port
  select : Nat
  selectAt : Tick
  fAt : PerPort Tick
  switchedAt : Option Tick
  realignDue : PerPort Bool
  stepDue : Bool
  deriving DecidableEq, Repr

/-- The optical section at reset (log entry 5). -/
def Optical.reset : Optical where
  seed0 := SeedSt.idle
  seed1 := SeedSt.idle
  switch := none
  portA := PortSt.idle
  portB := PortSt.idle
  frameA := FrameSt.idle
  frameB := FrameSt.idle
  dts := ⟨.a, none, 0⟩
  lock := ⟨none, 0, 0, none, false, false⟩
  internalNext := 0
  kept := none
  select := 0
  selectAt := 0
  fAt := ⟨0, 0⟩
  switchedAt := none
  realignDue := ⟨false, false⟩
  stepDue := false

end Sys2Proof.Machine
end

