-- ==== Sys2Proof/Machine/StPower.lean ====
section
/-! DEFINITION. State of power, module states, alarms and pins (chapters 15, 17). What a parameter reports lives in the read-only parameters; this holds the rest. -/

namespace Sys2Proof.Machine

/-- A save record (R386): time of the declaration, boot count and epoch, shared digest of the live set, OCXO control value and ageing rate, emitter hours, charge and
ageing indices of channels 0 to 10, the newest 1024 events (newest first), and the flash erase counts. -/
structure SaveRec where
  time : Stamp
  boots : Nat
  epoch : Nat
  digest : BitVec 64
  efc : Nat
  ageing : Nat
  hours : List Nat
  charge : List Nat
  indices : List Nat
  events : List Event
  wear : List (Nat × Nat)
  deriving DecidableEq, Repr

/-- GEODE (R380 to R382): deep or not, the wake mask, the wake time, whether the grant wakes it (POWER_WAIT), the live set held with its epoch, the link kept, the port being
tried and since when, since when the kept link is down, and the save record written at entry. -/
structure Geode where
  deep : Bool
  mask : Nat
  wake : Stamp
  grant : Bool
  live : Bank
  kept : Option Port
  trying : Option (Port × Tick)
  down : Option Tick
  save : SaveRec
  deriving DecidableEq, Repr

/-- One zone's sums over an interval (R378): Σ Δφ² in squares of 2⁻³² turn, valid words, all words. -/
structure ZoneSum where
  square : Nat
  valid : Nat
  words : Nat
  deriving DecidableEq, Repr

/-- One alarm zone (R378): ALARM, and the quiet intervals in a row. -/
structure Zone where
  alarm : Bool
  quiet : Nat
  deriving DecidableEq, Repr

/-- The I²C target (R419): its pointer, and the block latched at the last START. -/
structure I2c where
  pointer : Nat
  latched : List Byte
  deriving DecidableEq, Repr

/-- The root PLL and the clock domains that run (R24): tick, fabric, DRAM controller with WCK, TDC reference, ADC sample, and DSP. -/
structure Clocks where
  pll : Bool
  tick : Bool
  fabric : Bool
  dram : Bool
  tdc : Bool
  adc : Bool
  dsp : Bool
  deriving DecidableEq, Repr

/-- What runs in a module state (R24). -/
def clocksOf : Mode → Clocks
  | .off => ⟨false, false, false, false, false, false, false⟩
  | .boot => ⟨true, true, true, true, true, false, false⟩
  | .ready => ⟨true, true, true, true, true, true, true⟩
  | .running => ⟨true, true, true, true, true, true, true⟩
  | .bedrock => ⟨true, true, true, true, true, true, true⟩
  | .save => ⟨true, true, false, false, false, false, false⟩
  | .fault => ⟨true, true, true, true, true, false, false⟩
  | .geode => ⟨false, false, false, false, false, false, false⟩

/-- Power and states. `clocks` is the root PLL with the domains that run (R24). `lldp` holds the PSE's allocations (0.1 W); `runAsked` a run request (R375); `levelAt` when the level was last evaluated; `fitSince` since when G_u exceeds what
the next undo needs (R368); `undoing` the step whose undo has not completed; `clearSince` since when every Bedrock cause is clear (R376); `hot` the thermal cause latched (R388), `forced` BEDROCK_FORCE; `faultAt` FAULT entry, `thermal` a thermal fault,
`retries` automatic retries of 24 h (R371); `warned` EV_THERMAL WARN in force (R388); `geode` the state of GEODE; `grantSince` since when G_u is at 28.0 W (R382); `driven` PFAIL_N driven
low and `held` held from outside (R384, R426); `lockstep` times of failed lockstep tests, `stuck` the hold after the third (R374);
`bootFail` the code of R419; `recovery` the boot ROM's recovery; `bootAt` BOOT entry; `slot` the save slot to be written next with the blocks of each slot still to erase (R386); `record` the
newest save record with its result, until it is reported (R387); `saved` the newest record in flash; `storedBad` the stored set failed its check; `relink` ports still to renegotiate (R377); `mpsAt` the last signature pulse;
`stale` case and input power date from before GEODE; `sums` alarm sums by interval number, `alarmNext` the next interval to evaluate, `zones` the 64 zones. -/
structure PowerSt where
  clocks : Clocks
  lldp : PerPort (Option Nat)
  runAsked : Bool
  levelAt : Tick
  fitSince : Option Tick
  undoing : Option Nat
  clearSince : Option Tick
  hot : Bool
  forced : Bool
  faultAt : Tick
  thermal : Bool
  retries : List Tick
  warned : Bool
  geode : Option Geode
  grantSince : Option Tick
  driven : Bool
  held : Bool
  lockstep : List Tick
  stuck : Bool
  bootFail : Nat
  recovery : Bool
  bootAt : Tick
  slot : Nat
  dirty : PerPort (List Nat)
  record : Option (SaveRec × Nat)
  saved : Option SaveRec
  storedBad : Bool
  relink : List Port
  mpsAt : Tick
  stale : Bool
  sums : List (Int × List ZoneSum)
  alarmNext : Int
  zones : List Zone
  i2c : I2c
  deriving DecidableEq, Repr

/-- At power-on: nothing requested, both save slots erased (log entry 5). -/
def PowerSt.reset : PowerSt where
  clocks := clocksOf .boot
  lldp := ⟨none, none⟩
  runAsked := false
  levelAt := 0
  fitSince := none
  undoing := none
  clearSince := none
  hot := false
  forced := false
  faultAt := 0
  thermal := false
  retries := []
  warned := false
  geode := none
  grantSince := none
  driven := false
  held := false
  lockstep := []
  stuck := false
  bootFail := 0
  recovery := false
  bootAt := 0
  slot := 0
  dirty := ⟨[], []⟩
  record := none
  saved := none
  storedBad := false
  relink := []
  mpsAt := 0
  stale := false
  sums := []
  alarmNext := 0
  zones := List.replicate 64 ⟨false, 0⟩
  i2c := ⟨0, []⟩

end Sys2Proof.Machine
end

