-- ==== Sys2Proof/Machine/StRaman.lean ====
section
/-! DEFINITION. State of Raman temperature sensing and of the shared test DAC (chapters 06, 07). -/

namespace Sys2Proof.Machine

/-- One channel over one integration (R145 to R149): the accumulator bank, the min-max tracker, whether every check found low headroom, and the number of
checks. -/
structure Band where
  acc : List Nat
  lo : Nat
  hi : Nat
  quiet : Bool
  checks : Nat
  feedback : Nat
  biasLimit : Bool
  deriving DecidableEq, Repr

/-- The results of a front-end channel over an interval (R173): how many, how many of them valid, and the sum of the valid values in °C. -/
structure FeMean where
  all : Nat
  valid : Nat
  sum : Rat
  deriving DecidableEq, Repr

/-- No result yet. -/
def FeMean.none_ : FeMean := ⟨0, 0, 0⟩

/-- One integration (R147, R150, R151, R155, R159): number, the bank of INTEGRATION-class values it began with, its frame (T_f, slot_plan, chirp duration), grid index and period at its start,
how it began, its frames, and what its record needs. `dark` is true until its dark frame has ended; `offAs` and `offS` are its dark offsets, `fault` its PATH_FAULT; `peaks` sums the slots'
peaks of folded frames in 2⁻³⁰ mW and `energy` the DTS pulses' in pJ; `coil` and `cal2` are what the front end published meanwhile; `nextCheck` is when its next check is due. -/
structure Integ where
  number : Nat
  bank : Bank
  t0 : Stamp
  tf : Nat
  plan : Nat
  tau : Nat
  period : Nat
  grid : Int
  fromGrid : Bool
  dark : Bool
  frames : Nat
  used : Nat
  pulses : Nat
  bandAs : Band
  bandS : Band
  suspect : Bool
  unregulated : Bool
  fibreEvent : Bool
  pathSkipped : Bool
  short : Bool
  partialRun : Bool
  offAs : Nat
  offS : Nat
  fault : Bool
  peaks : Nat
  energy : Nat
  coil : FeMean
  cal2 : FeMean
  nextCheck : Tick
  endAt : Stamp
  interval : Nat
  deriving DecidableEq, Repr

/-- One port's Raman channels: the integration in progress, ended ones oldest first, whether F forces a boundary, scheduled feedback steps (up or down, and
when scheduled) per band, the last two thermistor readings per band, PATH_FAULT per band, the held coil term (10⁻⁹) and for how many results, and the count of
drifting coil terms; `lit`, `suspect` and `pulsed` are of the frame in progress: EMITTING from its start, launched at a suspect time, with a DTS pulse. `raised` numbers integrations; `last` is the last result: its boundary, whether it has no value at all, and binary32 °C of the live points. -/
structure DtsPort where
  cur : Option Integ
  done : List Integ
  forced : Bool
  raised : Nat
  stepAs : Option (Bool × Tick)
  stepS : Option (Bool × Tick)
  thermAs : List (Nat × Tick)
  thermS : List (Nat × Tick)
  faultAs : Bool
  faultS : Bool
  heldTerm : Option Int
  heldRuns : Nat
  drift : Nat
  lit : Bool
  suspect : Bool
  pulsed : Bool
  last : Option (Stamp × Bool × List Nat)
  deriving DecidableEq, Repr

/-- No integration begun. -/
def DtsPort.idle : DtsPort where
  cur := none
  done := []
  forced := false
  raised := 0
  stepAs := none
  stepS := none
  thermAs := []
  thermS := []
  faultAs := false
  faultS := false
  heldTerm := none
  heldRuns := 0
  drift := 0
  lit := false
  suspect := false
  pulsed := false
  last := none

/-- Raman sensing and the test DAC: the front end holds it, and until when a path check holds it (R154, R177). -/
structure Raman where
  a : DtsPort
  b : DtsPort
  dacFe : Bool
  dacRaman : Tick
  deriving DecidableEq, Repr

/-- Raman sensing at reset (log entry 5). -/
def Raman.reset : Raman := ⟨DtsPort.idle, DtsPort.idle, false, 0⟩

end Sys2Proof.Machine
end

