-- ==== Sys2Proof/Machine/StTime.lean ====
section
/-! DEFINITION. State of the Lodestone time base (chapter 11). Values that a parameter reports (presence, sources in force,
y, u, EFC, ageing, TDC counters) live in the read-only parameters; this holds the rest. -/

namespace Sys2Proof.Machine

/-- One frequency input (R275): selectable now; `fine` once a 100 ms gate was good, so that gates are 1 s; `failed` after a bad
1 s gate, with the count of consecutive good gates since. -/
structure FreqIn where
  selectable : Bool
  fine : Bool
  failed : Bool
  good : Nat
  deriving DecidableEq, Repr

/-- No presence. -/
def FreqIn.none : FreqIn := ⟨false, false, false, 0⟩

/-- Where the seconds label of PPS comes from (R278, R282). -/
inductive LabelSource where
  | unknown
  | ptp
  | timeSet
  | own
  deriving DecidableEq, Repr

/-- PPS_IN (R275, R278, R281): last accepted edge in ps of module counter time, edges accepted in the sequence, the label source and
since when the module's own time gave it, the seconds a TIME_SET gave for the next edge, the TAI second of the last edge, and the
residuals of the last 10 edges in ps. -/
structure Pps where
  lastEdge : Option Nat
  accepted : Nat
  source : LabelSource
  ownSince : Tick
  pendingSet : Option Nat
  label : Option Int
  residuals : List Nat
  deriving DecidableEq, Repr

/-- A master heard on a port (R284): its data set, and when its last Announce arrived. -/
structure Master where
  data : Announce
  heard : Tick
  deriving DecidableEq, Repr

/-- One PTP port (R283, R284): masters heard, the Sync awaiting its Follow_Up, the last complete Sync pair, the Delay_Req or
Pdelay_Req in flight, the mean path delay, the φ last measured, and offset residuals in units of 2⁻¹⁶ ns. -/
structure PtpPort where
  masters : List Master
  syncSeq : Option (Nat × Stamp)
  t1t2 : Option (Stamp × Stamp)
  reqSeq : Nat
  reqTx : Option Stamp
  pathDelay : Option Int
  phi : Option Int
  residuals : List Int
  deriving DecidableEq, Repr

/-- A PTP port with nothing heard. -/
def PtpPort.idle : PtpPort := ⟨[], none, none, 0, none, none, none, []⟩

/-- A TDC stamp record (R286). `edge` orders stamps in ps of counter time. -/
structure TdcRecord where
  time : Stamp
  input : Nat
  rising : Bool
  afterOverflow : Bool
  suspect : Bool
  seq : Nat
  deriving DecidableEq, Repr

/-- One TDC input (R285 to R287): FIFO oldest first, the last stamped edge in ps, overflow episode, next record number, stamps of the gate in
progress, and the log ring newest first with the index of its next record. -/
structure TdcIn where
  fifo : List TdcRecord
  lastEdge : Option Nat
  overflowing : Bool
  afterOverflow : Bool
  seq : Nat
  divider : Nat
  gate : List Stamp
  gateStart : Tick
  log : List TdcRecord
  logNext : Nat
  deriving DecidableEq, Repr

/-- A TDC input with nothing stamped. -/
def TdcIn.idle : TdcIn := ⟨[], none, false, false, 0, 0, [], 0, [], 0⟩

/-- Holdover (R281): entry tick, u₀ in ps, σ_y in 10⁻¹⁵, σ_a in 10⁻¹³ per day. -/
structure Holdover where
  entered : Tick
  u0 : Nat
  sigmaY : Nat
  sigmaA : Nat
  deriving DecidableEq, Repr

/-- The time base. The tick counter is `now + offset`; φ at a tick is `phi0` drifting at `rate` (10⁻¹⁵) since `phiAt` (R273). -/
structure TimeBase where
  offset : Int
  phi0 : Int
  phiAt : Tick
  rate : Int
  freqErrors : List Int
  ref : FreqIn
  ens : FreqIn
  pps : Pps
  ptpA : PtpPort
  ptpB : PtpPort
  held : Bool
  ensSuspect : Bool
  holdover : Option Holdover
  acquired : Bool
  ageAt : Tick
  efcHistory : List (Tick × Int)
  ageFitResidual : Nat
  tdc : List TdcIn
  ppsOut : Bool
  ppsLast : Option Stamp
  ppsStart : Tick
  deriving DecidableEq, Repr

/-- The time base right after reset (R273: the counter starts at a multiple of 20; log entries 5, 8). -/
def TimeBase.reset (start : Int) : TimeBase where
  offset := start
  phi0 := 0
  phiAt := 0
  rate := 0
  freqErrors := []
  ref := FreqIn.none
  ens := FreqIn.none
  pps := ⟨none, 0, .unknown, 0, none, none, []⟩
  ptpA := PtpPort.idle
  ptpB := PtpPort.idle
  held := false
  ensSuspect := false
  holdover := none
  acquired := false
  ageAt := 0
  efcHistory := []
  ageFitResidual := 0
  tdc := List.replicate 7 TdcIn.idle
  ppsOut := false
  ppsLast := none
  ppsStart := 0

end Sys2Proof.Machine
end

