-- ==== Sys2Proof/Machine/StTrigger.lean ====
section
/-! DEFINITION. State of Strata, the trigger engine and the capture store (chapter 09). -/

namespace Sys2Proof.Machine

/-- A record of the Strata ring (R221): where it begins and how long it is, with its index entry of 16 bytes. An `absent` one is a trace dropped at P0 (R261). -/
structure StrataRec where
  port : Port
  launch : Stamp
  header : Option TraceHeader
  fields : List (BitVec 32)
  addr : Nat
  len : Nat
  deriving DecidableEq, Repr

/-- One port's Strata run (R223): its start, none while there is no current run, and whether the next trace begins a new one. `launched` lists launch times of formed traces, newest
first. -/
structure StrataRun where
  start : Option Stamp
  due : Bool
  launched : List Stamp
  deriving DecidableEq, Repr

/-- One condition (R227): T_trig of its last firing, and since when it is armed for TIME instants. -/
structure CondSt where
  firedAt : Stamp
  since : Stamp
  deriving DecidableEq, Repr

/-- A firing awaiting its EV_TRIGGER (R231). -/
structure Firing where
  cond : Nat
  trig : Stamp
  trace : Stamp
  capture : Option Nat
  deriving DecidableEq, Repr

/-- A group of coinciding firings: reference port and trigger trace, and the tick of the first decision. -/
structure Group where
  port : Option Port
  trace : Stamp
  since : Tick
  firings : List Firing
  deriving DecidableEq, Repr

/-- A copied trace record (R236), cut to the capture's point range. -/
structure CapRec where
  port : Port
  launch : Stamp
  header : TraceHeader
  fields : List (BitVec 32)
  deriving DecidableEq, Repr

/-- One capture (R233 to R238). `ranges` hold first point and count of its ports; `done` the records copied or lost; `sends` the CAPTURE streams it is being sent on; `derives` how many
derivations of it run or wait. -/
structure Capture where
  number : Nat
  truncated : Bool
  cut : Bool
  merged : Bool
  complete : Bool
  limited : Bool
  host : Bool
  lost : Nat
  profile : Nat
  condMask : Nat
  trig : Stamp
  wStart : Stamp
  wEnd : Stamp
  ranges : PerPort (Option (Nat × Nat))
  traces : PerPort Stamp
  refPort : Option Port
  refTrace : Stamp
  openedAt : Tick
  reserved : Nat
  records : List CapRec
  done : List (Port × Stamp)
  completedAt : Tick
  sends : List Nat
  derives : Nat
  releasing : Bool
  auto : Nat
  deriving DecidableEq, Repr

/-- Strata, triggers and captures. `ring` is newest first; `head` is where the next record begins; `derives` are requested derivations, the running one first; `pulses` the ends of running
EVT_OUT pulses. -/
structure Triggers where
  ring : List StrataRec
  head : Nat
  runs : PerPort StrataRun
  conds : List CondSt
  groups : List Group
  captures : List Capture
  nextCapture : Nat
  derives : List DeriveReq
  pulses : List (Option Tick)
  deriving DecidableEq, Repr

/-- Nothing recorded, nothing captured. -/
def Triggers.reset : Triggers where
  ring := []
  head := 0
  runs := ⟨⟨none, false, []⟩, ⟨none, false, []⟩⟩
  conds := List.replicate 64 ⟨0, 0⟩
  groups := []
  captures := []
  nextCapture := 0
  derives := []
  pulses := [none, none]

end Sys2Proof.Machine
end

