-- ==== Sys2Proof/Machine/State.lean ====
section
/-! DEFINITION. The whole state of the block, the reasons a step can stop, and the state right after reset. -/

namespace Sys2Proof.Machine

/-- Why a step can stop with a fault. -/
inductive Fault where
  /-- Raised by a Basalt memory operation whose address mode is one R193 reserves (6 or 7), and by an operation whose rounding code is reserved
  (R194). Safe: the spec gives these operations no effect. -/
  | reservedEncoding
  deriving DecidableEq, Repr

/-- Why a step can be refused. -/
inductive Refusal where
  /-- Raised by Dispatch for a command that has no meaning yet. Safe: the model says nothing of it. -/
  | notModelled (mnemonic : String)
  deriving DecidableEq, Repr

/-- The state of the block (INVENTORY.md, State). -/
structure State where
  /-- Commands waiting, first in first out. -/
  pending : List Instr
  /-- Draws of free values so far (log entry 2). -/
  fresh : Nat
  /-- What left the module, newest first (log entry 3). -/
  out : List Output
  /-- Ticks elapsed since power was first applied (log entry 1). -/
  now : Tick
  /-- The module ID (R3). -/
  moduleId : BitVec 64
  /-- The module state (R369). -/
  mode : Mode
  /-- When it was entered (R389). -/
  modeSince : Stamp
  /-- Every read-only parameter that is stored (R11). -/
  ro : PSet
  /-- Configuration (R13, R29, R326). -/
  cfg : Cfg
  /-- Firmware images and update (R337 to R339). -/
  fw : Fw
  /-- Mailbox pairs (R309). -/
  sess : List Session
  /-- SPI service port (R315). -/
  spi : Spi
  /-- Duplicate cache (R320), newest request first. -/
  dup : List DupClient
  /-- Requests served, to order clients by age (R321). -/
  requests : Nat
  /-- Background work (R311), oldest first. -/
  jobs : List Job
  /-- Number of the next job. -/
  nextJob : Nat
  /-- Event ring, newest first (R333). -/
  events : List Event
  /-- Lodestone (chapter 11). -/
  time : TimeBase
  /-- Health, log and self-test (chapter 16). -/
  health : Health
  /-- Optical section and schedule (chapters 02, 03). -/
  opt : Optical
  /-- Coherent processing and streams (chapters 04, 05). -/
  sig : Signal
  /-- Emitter drive (chapter 12). -/
  drive : Emitter
  /-- Raman sensing (chapter 06). -/
  raman : Raman
  /-- Reference front end and housekeeping (chapter 07). -/
  front : Front
  /-- Basalt kernel engine (chapter 08). -/
  basalt : Basalt
  /-- Strata, triggers and captures (chapter 09). -/
  trig : Triggers
  /-- Memory subsystem (chapter 10). -/
  mem : MemSt
  /-- Power, states, alarms and pins (chapters 15, 17). -/
  power : PowerSt
  /-- Ensembles (chapter 14). -/
  ens : Ensemble
  deriving DecidableEq, Repr

/-- The module right after reset: BOOT has begun, nothing is configured, nothing is stored (R11, R369; log entries 1 to 8). -/
def State.reset : State where
  pending := []
  fresh := 0
  out := []
  now := 0
  moduleId := Config.moduleId
  mode := .boot
  modeSince := 0
  ro := PSet.reset
  cfg := { draft := PSet.reset, live := PSet.reset, stored := none, draftRev := 0, commits := [], actA := ⟨1, PSet.reset⟩,
           actB := ⟨1, PSet.reset⟩, actG := ⟨1, PSet.reset⟩, intA := ⟨1, PSet.reset⟩, intB := ⟨1, PSet.reset⟩,
           histA := [⟨1, PSet.reset⟩], histB := [⟨1, PSet.reset⟩], past := ⟨[], []⟩, pastG := [], wroteRole := false, frozen := false }
  fw := { a := ⟨.empty, 0, 0, 0, [], false⟩, b := ⟨.empty, 0, 0, 0, [], false⟩, active := .a, owner := none, expected := 0, received := 0,
           trial := false, trialDeadline := none, minSecurity := 0, revoked := 0, running := .a, told := [] }
  sess := List.replicate 8 Session.closed
  spi := ⟨[], false⟩
  dup := []
  requests := 0
  jobs := []
  nextJob := 0
  events := []
  time := TimeBase.reset (20 * (Config.startCount 0 : Int))
  health := Health.reset
  opt := Optical.reset
  sig := Signal.reset
  drive := Emitter.reset
  raman := Raman.reset
  front := Front.reset
  basalt := Basalt.reset
  trig := Triggers.reset
  mem := MemSt.reset
  power := PowerSt.reset
  ens := Ensemble.reset

end Sys2Proof.Machine
end

