-- ==== Sys2Proof/Machine/Ops.lean ====
section
/-! DEFINITION. Operations every chapter shares: time and stamps, reading parameters and setting read-only ones, free values, events with
their notifications and log entries, sessions' outbound order, and what leaves the module. -/

namespace Sys2Proof.Machine

/-- What a meaning answers. -/
abbrev Out := Host.Outcome State Fault Refusal

/-! ### Time (R7, R272, R273) -/

/-- One tick in units of 2⁻¹⁶ ns. -/
def tickUnits : Int := 327680
/-- One second in units of 2⁻¹⁶ ns. -/
def secondUnits : Int := 65536000000000
/-- One second in ticks. -/
def secondTicks : Nat := 200000000
/-- One millisecond in ticks. -/
def msTicks : Nat := 200000

/-- Time passes up to the tick of a command; it never runs back (log entry 1). -/
def State.at (s : State) (t : Tick) : State := { s with now := max s.now t }

/-- The tick counter at an elapsed tick (R273). -/
def State.counter (s : State) (t : Tick) : Int := (t : Int) + s.time.offset

/-- φ at an elapsed tick: the last measurement, extrapolated (R273). -/
def State.phi (s : State) (t : Tick) : Int :=
  s.time.phi0 + s.time.rate * ((t : Int) - s.time.phiAt) * tickUnits / 1000000000000000

/-- Counter time plus φ at an elapsed tick (R273). -/
def State.stampAt (s : State) (t : Tick) : Stamp := s.counter t * tickUnits + s.phi t

/-- The time now. -/
def State.stamp (s : State) : Stamp := s.stampAt s.now

/-- The elapsed tick whose counter reading is `c`; 0 for one that lies before the first. -/
def State.tickOfCounter (s : State) (c : Int) : Tick := (c - s.time.offset).toNat

/-- The first elapsed tick, judged with φ of now, that lies at or after an instant. -/
def State.tickOfStamp (s : State) (x : Stamp) : Tick :=
  s.tickOfCounter (-((-(x - s.phi s.now)) / tickUnits))

/-- The 96 bits of a TS96 (R272): fraction, nanoseconds, seconds. -/
def tsBits (x : Stamp) : Nat :=
  (x / secondUnits).toNat % 2 ^ 48 * 2 ^ 48 + (x % secondUnits).toNat

/-- The bytes of a TS96 (R272). -/
def tsBytes (x : Stamp) : List Byte := le 12 (tsBits x)

/-- A TS96 as a typed value. -/
def tsVal (x : Stamp) : Val := .ts96 (BitVec.ofNat 96 (tsBits x))

/-- The instant 96 TS96 bits name. -/
def stampOfBits (v : Nat) : Stamp := ((v / 2 ^ 48 : Nat) : Int) * secondUnits + ((v % 2 ^ 48 : Nat) : Int)

/-- A TS96 whose nanoseconds field is at most 999 999 999 (R272). -/
def tsOk (v : Nat) : Bool := v / 2 ^ 16 % 2 ^ 32 ≤ 999999999

/-- The bits of a TS96 operand. -/
def TS96bits (t : TS96) : Nat := t.seconds.toNat * 2 ^ 48 + t.ns.toNat * 2 ^ 16 + t.frac.toNat

/-- An unsigned argument of an event. -/
def u (n : Nat) : Val := .u64 (BitVec.ofNat 64 n)
/-- A signed argument of an event. -/
def sv (n : Int) : Val := .s64 (BitVec.ofInt 64 n)

/-! ### Parameters -/

/-- A commit has passed its F on a port. -/
def Commit.passed (c : Commit) : Port → Bool
  | .a => c.passedA
  | .b => c.passedB
/-- Mark it so. -/
def Commit.pass (c : Commit) : Port → Commit
  | .a => { c with passedA := true }
  | .b => { c with passedB := true }

/-- F of a commit on a port. -/
def Commit.f (c : Commit) : Port → Tick
  | .a => c.fA
  | .b => c.fB

/-- The active bank of a port (R29). -/
def Cfg.act (c : Cfg) : Port → Bank
  | .a => c.actA
  | .b => c.actB

/-- A FRAME-class value in force on a port. -/
def State.pP (s : State) (p : Port) (k : Key) : Nat := (s.cfg.act p).set.get k
/-- A value in force of a field that belongs to no port (R83). -/
def State.pG (s : State) (k : Key) : Nat := s.cfg.actG.set.get k
/-- A signed value of a field that belongs to no port. -/
def State.pGInt (s : State) (k : Key) : Int := s.cfg.actG.set.getInt k
/-- The INTEGRATION-class bank of a port (R31). -/
def Cfg.integ (c : Cfg) : Port → Bank
  | .a => c.intA
  | .b => c.intB
/-- An INTEGRATION-class value in force on a port. -/
def State.pI (s : State) (p : Port) (k : Key) : Nat := (s.cfg.integ p).set.get k

/-- A stored read-only parameter. -/
def State.roGet (s : State) (k : Key) : Nat := s.ro.get k
/-- A stored signed read-only parameter. -/
def State.roInt (s : State) (k : Key) : Int := s.ro.getInt k
/-- Set a read-only parameter, kept within its width. -/
def State.roSet (s : State) (k : Key) (v : Nat) : State :=
  { s with ro := s.ro.set k (v % 2 ^ (rowAt k.row).width) }
/-- Set a signed read-only parameter. -/
def State.roSetInt (s : State) (k : Key) (v : Int) : State :=
  { s with ro := s.ro.set k (ofInt (rowAt k.row).width v) }
/-- Advance a counter, modulo its width. -/
def State.bump (s : State) (k : Key) (n : Nat) : State := s.roSet k (s.roGet k + n)
/-- Raise a counter that holds at its largest value. -/
def State.bumpSat (s : State) (k : Key) (n : Nat) : State :=
  { s with ro := s.ro.set k (min (s.roGet k + n) (2 ^ (rowAt k.row).width - 1)) }
/-- Keep the larger of a reading and a value. -/
def State.roMax (s : State) (k : Key) (v : Nat) : State :=
  { s with ro := s.ro.set k (min (max (s.roGet k) v) (2 ^ (rowAt k.row).width - 1)) }

/-! ### Free values (log entry 2) -/

/-- The next free value, cut to `w` bits. -/
def State.freeVal (s : State) (w : Nat) : Nat := Config.freeBits s.fresh % 2 ^ w
/-- Mark it drawn. -/
def State.drawn (s : State) : State := { s with fresh := s.fresh + 1 }

/-! ### What leaves -/

/-- Record what left the module. -/
def State.emit (s : State) (o : Output) : State := { s with out := o :: s.out }

/-! ### Event codes (R334, R359, R390, R402) -/

namespace Ev
def commit := 0x01
def released := 0x02
def eventLost := 0x03
def fwState := 0x04
def session := 0x05
def seedSwitch := 0x10
def seedRestored := 0x11
def seedFault := 0x12
def aprEnter := 0x13
def aprExit := 0x14
def portState := 0x15
def discoveryDone := 0x16
def fibreChanged := 0x17
def fibreOverlength := 0x18
def fibreLooped := 0x19
def fibreBreak := 0x1A
def fibreLoss := 0x1B
def frameLock := 0x20
def streamSuspended := 0x28
def streamResumed := 0x29
def dtsPath := 0x30
def feOpen := 0x38
def feShort := 0x39
def feRestored := 0x3A
def hkFault := 0x3B
def kernelFault := 0x40
def kernelHalted := 0x41
def coreReplaced := 0x42
def kernelDegraded := 0x43
def strataRun := 0x48
def trigger := 0x49
def captureDone := 0x4A
def captureReleased := 0x4B
def memTrained := 0x50
def memDeviceFault := 0x51
def memMigrationDone := 0x52
def memNoSpare := 0x53
def memUncorrectable := 0x54
def memOverflow := 0x55
def timeSource := 0x58
def refOutOfTol := 0x59
def timeSuspect := 0x5A
def timeStepNeeded := 0x5B
def timeStep := 0x5C
def tdcOverflow := 0x5D
def emitterFault := 0x60
def pumpFault := 0x61
def pumpDerated := 0x62
def pumpAgeing := 0x63
def emvLimit := 0x64
def ledFault := 0x65
def emitChain := 0x66
def ensMember := 0x70
def ensDecided := 0x71
def ensCommit := 0x72
def ensInDoubt := 0x73
def ensTime := 0x74
def ensCapture := 0x75
def ensBus := 0x76
def state := 0x80
def source := 0x81
def grant := 0x82
def shed := 0x83
def bedrock := 0x84
def thermal := 0x85
def alarm := 0x86
def saveResult := 0x87
def hold := 0x88
def wake := 0x89
def selftest := 0x90
def linkErrors := 0x91
def wavelength := 0x92
def calibration := 0x93
def flashWear := 0x94
def life := 0x95
def coreReturned := 0x96
end Ev

/-- Severity where the owning chapter sets none (R334): FAULT for names that hold FAULT, OVERFLOW, UNCORRECTABLE or NO_SPARE,
NOTICE otherwise. -/
def sevDefault (code : Nat) : Nat :=
  if code ∈ [Ev.seedFault, Ev.hkFault, Ev.kernelFault, Ev.memDeviceFault, Ev.memNoSpare, Ev.memUncorrectable, Ev.memOverflow,
    Ev.tdcOverflow, Ev.emitterFault, Ev.pumpFault, Ev.ledFault] then 3 else 1

/-! ### Log ring (R401) -/

/-- The log ring holds 16 MiB of 64-byte entries (R396, R401). -/
def logCapacity : Nat := 262144

/-- Append an entry to the log ring, oldest overwritten. -/
def State.logPush (s : State) (kind code severity : Nat) (time : Stamp) (args : List Val) : State :=
  let e : LogEntry := { kind := kind, code := code, seq := s.roGet K.healthLogNext, time := time, bootCount := s.roGet K.sysBootCount,
                        epoch := s.roGet K.sysEpoch, severity := severity, args := args }
  ({ s with health := { s.health with log := (e :: s.health.log).take logCapacity } }).bump K.healthLogNext 1

/-- Enter an entry under the limit of 10 per second (R397, R401): entries beyond it are counted, and the count is entered once the rate
falls. FAULT-severity events go in first: they are not held back (R410). -/
def State.logEntry (s : State) (kind code severity : Nat) (time : Stamp) (args : List Val) : State :=
  let sec := s.now / secondTicks
  let s1 : State :=
    if sec = s.health.logSecond then s
    else
      let s0 : State := { s with health := { s.health with logSecond := sec, logInSecond := 0, logSuppressed := 0 } }
      if s.health.logSuppressed = 0 then s0
      else ({ s0 with health := { s0.health with logInSecond := 1 } }).logPush 4 0 1 time [u s.health.logSuppressed]
  if s1.health.logInSecond < 10 ∨ severity = 3 then
    ({ s1 with health := { s1.health with logInSecond := s1.health.logInSecond + 1 } }).logPush kind code severity time args
  else
    ({ s1 with health := { s1.health with logSuppressed := s1.health.logSuppressed + 1 } }).bump K.healthLogSuppressed 1

/-! ### Sessions' outbound order (R309, R311, R333) -/

/-- Responses that are ready at the front of a session's order, and those still held behind a background job. -/
def readyPrefix : List Held → List OutMsg × List Held
  | [] => ([], [])
  | .ready r d :: rest => let x := readyPrefix rest; (.resp r d :: x.1, x.2)
  | .job n d :: rest => ([], .job n d :: rest)

/-- A session's waiting notifications in the order they go out: EV_EVENT_LOST first where some were lost (R333). -/
def noteMsgs (x : Session) (time : Stamp) (epoch : Nat) : List OutMsg :=
  match x.notes with
  | [] => []
  | ns => (if x.lostCount = 0 then [] else [.lost time epoch x.lostFirst x.lostCount]) ++ ns.map .note

/-- Move what is ready into an outbound mailbox of 8 messages (R309): responses first, then notifications. -/
def Session.fill (x : Session) (time : Stamp) (epoch : Nat) : Session :=
  let room := 8 - x.outbox.length
  let r := readyPrefix x.held
  let rs := r.1.take room
  let heldBack : List Held := (r.1.drop room).map (fun m => match m with
    | .resp q d => .ready q d
    | _ => .job 0 false)
  let room2 := room - rs.length
  let ns := noteMsgs x time epoch
  let took := ns.take room2
  let lostTaken := decide (x.lostCount ≠ 0) && decide (took ≠ [])
  { x with outbox := x.outbox ++ rs ++ took,
           held := heldBack ++ r.2,
           notes := x.notes.drop (if lostTaken then took.length - 1 else took.length),
           lostCount := if lostTaken then 0 else x.lostCount,
           lostFirst := if lostTaken then 0 else x.lostFirst }

/-- What a TCP session sends at once, its mailbox empty again. -/
def Session.drain (x : Session) (time : Stamp) (epoch : Nat) : Session × List OutMsg :=
  let r := readyPrefix x.held
  ({ x with held := r.2, notes := [], lostCount := if x.notes = [] then x.lostCount else 0,
            lostFirst := if x.notes = [] then x.lostFirst else 0 },
   x.outbox ++ r.1 ++ noteMsgs x time epoch)

/-- One mailbox pair. -/
def State.pair (s : State) (n : Nat) : Session := s.sess.getD n Session.closed
/-- Replace one pair. -/
def State.setPair (s : State) (n : Nat) (x : Session) : State := { s with sess := s.sess.set n x }

/-- Let a pair's messages go out: pair 0 keeps them in its mailbox for READ (R315), TCP pairs send them. -/
def State.pump (s : State) (n : Nat) : State :=
  let x := s.pair n
  if x.open_ = false then s
  else if n = 0 then s.setPair 0 (x.fill s.stamp (s.roGet K.sysEpoch))
  else
    let r := x.drain s.stamp (s.roGet K.sysEpoch)
    let s1 := s.setPair n r.1
    { s1 with out := (r.2.map (Output.message n)).reverse ++ s1.out }

/-- Put a notification in a session's queue of 1024, dropping the oldest where it is full (R333). -/
def Session.note (x : Session) (e : Event) : Session :=
  if x.notes.length < 1024 then { x with notes := x.notes ++ [e] }
  else
    { x with notes := x.notes.drop 1 ++ [e], lostCount := x.lostCount + 1,
             lostFirst := if x.lostCount = 0 then (x.notes.head?.map (·.seq)).getD 0 else x.lostFirst }

/-- Offer an event to pair `n` where its mask takes it (R333). -/
def State.notify (s : State) (e : Event) (n : Nat) : State :=
  let x := s.pair n
  if x.open_ ∧ x.mask.getLsbD e.code then
    let lost := decide (1024 ≤ x.notes.length)
    let s1 := s.setPair n (x.note e)
    let s2 := if lost then s1.bump K.ncpEventsLost 1 else s1
    s2.pump n
  else s

/-- Raise an event (R333): next sequence number, the ring of 65 536, every subscribed session, and the log (R401). -/
def State.raiseFull (s : State) (code severity : Nat) (time : Stamp) (args : List Val) (epoch : Nat) : State :=
  let e : Event := { seq := s.roGet K.ncpEventNext, code := code, severity := severity, time := time, args := args, epoch := epoch }
  let s1 := ({ s with events := (e :: s.events).take 65536 }).bump K.ncpEventNext 1
  let s2 := if 2 ≤ severity ∨ code = Ev.state then s1.logEntry 0 code severity time args else s1
  [0, 1, 2, 3, 4, 5, 6].foldl (fun st n => st.notify e n) s2

/-- Raise an event with a severity its chapter sets, now, under the live epoch. -/
def State.raiseSev (s : State) (code severity : Nat) (args : List Val) : State :=
  s.raiseFull code severity s.stamp args (s.roGet K.sysEpoch)

/-- Raise an event now, under the live epoch (R33). -/
def State.raise (s : State) (code : Nat) (args : List Val) : State := s.raiseSev code (sevDefault code) args

/-! ### Lists of state by number -/

/-- A 10 MHz grid tick (R273): the first tick at or after `t` whose counter reading is a multiple of `n`. -/
def State.nextMultiple (s : State) (t : Tick) (n : Nat) : Tick :=
  t + ((-(s.counter t)) % (n : Int)).toNat

/-- The two ports in order. -/
def ports : List Port := [.a, .b]

/-- Apply to each port in turn. -/
def State.eachPort (s : State) (f : State → Port → State) : State := f (f s .a) .b

/-- The code of a module state (R389). -/
def Mode.code : Mode → Nat
  | .off => 0
  | .boot => 1
  | .ready => 2
  | .running => 3
  | .geode => 4
  | .bedrock => 5
  | .save => 6
  | .fault => 7

/-- NCP is served in READY, RUNNING, BEDROCK and FAULT (R310). -/
def Mode.served : Mode → Bool
  | .ready => true
  | .running => true
  | .bedrock => true
  | .fault => true
  | _ => false

/-- The measured launch delay of a port in ps, within the limits of R289. -/
def launchDelay (p : Port) : Nat := 1049950 + Config.launchDelayPs p.idx % 101

/-- RUNNING or BEDROCK. -/
def Mode.measuring : Mode → Bool
  | .running => true
  | .bedrock => true
  | _ => false

/-- READY, RUNNING or BEDROCK (R392). -/
def Mode.working : Mode → Bool
  | .ready => true
  | .running => true
  | .bedrock => true
  | _ => false

end Sys2Proof.Machine
end

