-- ==== Sys2Proof/Machine/Streams.lean ====
section
/-! DEFINITION. Output streams: the decimation chain, blocks and tiles, datagrams, subscribers, retransmission (chapter 05). -/

namespace Sys2Proof.Machine

/-! ### State by number -/

/-- One stream. -/
def State.stream (s : State) (n : Nat) : StreamSt := s.sig.streams.getD n StreamSt.idle
/-- Replace one stream. -/
def State.setStream (s : State) (n : Nat) (x : StreamSt) : State :=
  { s with sig := { s.sig with streams := s.sig.streams.set n x } }
/-- Coherent state of a port. -/
def State.coh (s : State) : Port → CohPort
  | .a => s.sig.cohA
  | .b => s.sig.cohB
/-- Replace it. -/
def State.setCoh (s : State) (p : Port) (x : CohPort) : State :=
  match p with
  | .a => { s with sig := { s.sig with cohA := x } }
  | .b => { s with sig := { s.sig with cohB := x } }
/-- One network link. -/
def State.link (s : State) : Port → LinkSt
  | .a => s.sig.linkA
  | .b => s.sig.linkB
/-- Replace it. -/
def State.setLink (s : State) (p : Port) (x : LinkSt) : State :=
  match p with
  | .a => { s with sig := { s.sig with linkA := x } }
  | .b => { s with sig := { s.sig with linkB := x } }

/-- A BLOCK-class value in force for a stream. -/
def StreamSt.par (x : StreamSt) (k : Key) : Nat := x.bank.set.get k
/-- A stream is suspended, by the links' budget or by BEDROCK (R139, R377). -/
def StreamSt.suspended (x : StreamSt) : Bool := x.suspendedAt.isSome || x.parked
/-- The UDP source port of a stream (R135). -/
def StreamSt.source (x : StreamSt) (sid : Nat) : Nat := (x.par K.nspBasePort + sid) % 65536
/-- The UDP payload to an address (R135): an IPv6 one has 20 bytes less. -/
def StreamSt.payload (x : StreamSt) (addr : Nat) : Nat := (if x.par K.nspMtu = 1 then 8972 else 1472) - (if addr / 2 ^ 32 = 0xFFFF then 0 else 20)

/-! ### The decimation chain (R121 to R124) -/

/-- Stages of 5 first, then stages of 2 (R121): the ratios of D, empty where D has other factors. -/
def ratiosOf : Nat → Nat → Option (List Nat)
  | 0, d => if d = 1 then some [] else none
  | f + 1, d =>
    if d = 1 then some []
    else if d % 5 = 0 then (ratiosOf f (d / 5)).map (5 :: ·)
    else if d % 2 = 0 then (ratiosOf f (d / 2)).map (2 :: ·)
    else none

/-- The factors of R121: 2ᵃ × 5ᵇ from 2 to 4096. -/
def factorOk (d : Nat) : Bool := decide (2 ≤ d) && decide (d ≤ 4096) && (ratiosOf 12 d).isSome

/-- Tap count N and minimum-phase delay d in half samples, of a preset's filter (R122). -/
def tapTable (preset ratio : Nat) (final : Bool) : Nat × Nat :=
  match preset, ratio, final with
  | 0, 2, false => (7, 2)
  | 0, 2, true => (11, 3)
  | 0, _, false => (19, 5)
  | 0, _, true => (27, 7)
  | 1, 2, false => (15, 4)
  | 1, 2, true => (31, 8)
  | 1, _, false => (37, 9)
  | 1, _, true => (69, 17)
  | 2, 2, false => (19, 5)
  | 2, 2, true => (111, 26)
  | 2, _, false => (51, 12)
  | 2, _, true => (275, 62)
  | _, 2, false => (23, 6)
  | _, 2, true => (127, 30)
  | _, _, false => (59, 14)
  | _, _, true => (319, 72)

/-- One stage of a chain: ratio, taps, delay in half samples, M_j, and whether it is the last. -/
structure Stage where
  ratio : Nat
  taps : Nat
  halfDelay : Nat
  m : Nat
  final : Bool
  deriving DecidableEq, Repr

/-- The stages of some ratios, from M_j = m on. -/
def stagesFrom (preset : Nat) : List Nat → Nat → List Stage
  | [], _ => []
  | [r], m => [⟨r, (tapTable preset r true).1, (tapTable preset r true).2, m, true⟩]
  | r :: r2 :: rest, m =>
    ⟨r, (tapTable preset r false).1, (tapTable preset r false).2, m, false⟩ :: stagesFrom preset (r2 :: rest) (m * r)

/-- The chain of a preset and factor. -/
def chainOf (preset d : Nat) : List Stage := stagesFrom preset ((ratiosOf 12 d).getD []) 1

/-- S: span of the cascade minus 1, in input traces (R124). -/
def spanOf (c : List Stage) : Nat := sumN (c.map (fun x => (x.taps - 1) * x.m))
/-- GD (R124). -/
def groupDelay (c : List Stage) : Nat := spanOf c / 2
/-- DCD in units of 1/16 input trace (R124, R131). -/
def dcDelay16 (c : List Stage) : Nat := sumN (c.map (fun x => 8 * x.halfDelay * x.m))
/-- U (R124). -/
def unsettledMax (c : List Stage) (d : Nat) : Nat := ceilDiv (spanOf c) d
/-- Σ N_j (R129). -/
def tapsSum (c : List Stage) : Nat := sumN (c.map (·.taps))

/-- True for the MINIMUM form: named, or SWIFT's default (R122). -/
def minimumForm (preset form : Nat) : Bool := form == 2 || (form == 0 && preset == 0)

/-- The taps of a filter in 2⁻³⁰, from the free ones of Config: a LINEAR filter is symmetric and a MINIMUM one has its delay at DC (R122); both have unit gain at DC (R121). What is left,
their response (R123), stays free (log entry 9). -/
def filterTaps (preset ratio : Nat) (final minimum : Bool) : List Int :=
  let x := tapTable preset ratio final
  let raw := Config.firTap preset ratio final minimum
  if minimum then
    let late := (List.range (x.1 - 2)).map (fun k => raw (k + 2))
    let second := (x.2 : Int) * 536870912 - sumZ (late.zipIdx.map (fun e => e.1 * ((e.2 + 2 : Nat) : Int)))
    (1073741824 - second - sumZ late) :: second :: late
  else
    let half := (List.range ((x.1 - 1) / 2)).map raw
    half ++ (1073741824 - 2 * sumZ half) :: half.reverse

/-- The bits of a preset's accumulators (R128). -/
def accWidth (preset : Nat) : Nat := if preset = 3 then 64 else 48
/-- Of those, the bits below 2⁻³² turn (log entry 9). -/
def accFraction (preset : Nat) : Nat := accWidth preset - 34

/-- Output `n` of a cascade whose stages are given last first, over input `x`, in 2⁻³² turn divided by 2^accFraction; every stage's sum stands in one accumulator (R128). -/
def cascade (preset : Nat) (minimum : Bool) (x : Int → Int) : List Stage → Int → Int
  | [], i => x i * 2 ^ accFraction preset
  | st :: earlier, n =>
    wrapS (accWidth preset) (roundDiv (sumZ ((filterTaps preset st.ratio st.final minimum).zipIdx.map (fun e =>
      e.1 * cascade preset minimum x earlier (n * st.ratio + (st.ratio - 1 : Nat) - (e.2 : Int))))) 1073741824)

/-! ### What a stream takes (R120) -/

/-- A stream of a kind that is enabled in a set. -/
def enabledKind (set : PSet) (n kind : Nat) : Bool := set.get (K.streamEnable n) == 1 && set.get (K.streamKind n) == kind

/-- The first point and count of a port's live range in force. -/
def State.liveRange (s : State) (p : Port) : Nat × Nat :=
  (s.pP p (K.portPointsFirst p), s.roGet (K.portPointsCountLive p))

/-- The output points of a STRAIN stream over a live range (R120). -/
def outPoints (set : PSet) (n : Nat) (range : Nat × Nat) : List Nat :=
  let first := set.get (K.streamPointsFirst n)
  let stride := max 1 (set.get (K.streamPointsStride n))
  let count := set.get (K.streamPointsCount n)
  let total := if count = 0 then (if first < range.1 + range.2 then ceilDiv (range.1 + range.2 - first) stride else 0) else count
  (List.range total).map (fun i => first + i * stride)

/-- The format a value is written in: 0 S16, 1 S32, 2 F32 (R116). -/
def formatWidth (f : Nat) : Nat := if f = 0 then 2 else 4

/-- Strain rate in s⁻¹ of a Δφ (2⁻³² turn, as a fraction num/den of it), for gauge g, pitch k and interval Δ in ticks (R116): Δφ · λ / (4π n ξ G) · f_tr, G = g k v / (4.8 × 10⁹). -/
def strainRate (num : Int) (den : Nat) (g k delta : Nat) : Rat :=
  let gLen : Rat := ((g * k * 204190476 : Nat) : Rat) / 4800000000
  let ftr : Rat := (200000000 : Rat) / ((max 1 delta : Nat) : Rat)
  if gLen = 0 then 0
  else (num : Rat) / ((den : Nat) : Rat) / 4294967296 * (155012 / 100000000000) / (2 * (14682 / 10000) * (78 / 100) * gLen) * ftr

/-- A decimated value, INVALID or `v / den` in 2⁻³² turn, in a format's bytes (R116, R126). -/
def encodeStrain (f g k delta : Nat) (v : Option Int) (den : Nat) : List Byte :=
  match f, v with
  | 0, none => [0x00, 0x80]
  | 0, some x => leInt 2 (clampInt (-32767) 32767 (roundDiv x (den * 65536)))
  | 1, none => [0x00, 0x00, 0x00, 0x80]
  | 1, some x => leInt 4 (clampInt (-2147483647) 2147483647 (roundDiv x den))
  | _, none => le 4 0x7FC00000
  | _, some x => le 4 (f32Round (strainRate x den g k delta))

/-! ### Filtering one stream (R125 to R127) -/

/-- The input value of a point at a grid index: 0 before a restart, for INVALID and where no trace is. -/
def rowValue (rows : List InRow) (start : Nat) (point : Nat) (i : Int) : Int :=
  if i < start then 0
  else match rows.find? (fun r => decide ((r.index : Int) = i)) with
    | some r => (r.values.getD point none).getD 0
    | none => 0

/-- INVALID words of a point among the D traces an output consumes (R126). -/
def invalidCount (rows : List InRow) (n d point : Nat) : Nat :=
  (rows.filter (fun r => decide (n * d ≤ r.index) && decide (r.index < n * d + d) && (r.values.getD point none).isNone)).length

/-- The sample a stream forms when trace n·D + D − 1 arrives (R125, R126). Values stand in 2⁻³² turn divided by 2^accFraction; the stamp is that of the trace of its index, of the
port's `trail`, or of its grid instant where there is none. -/
def StreamSt.sampleOf (x : StreamSt) (sid n : Nat) (newest : InRow) (trail : List (Nat × Nat × Stamp)) (geo : Nat × Nat) : Sample :=
  let d := x.par (K.streamDecFactor sid)
  let preset := x.par (K.streamDecPreset sid)
  let minimum := minimumForm preset (x.par (K.streamDecForm sid))
  let chain := chainOf preset d
  let s := spanOf chain
  let limit := x.par (K.streamInvalidLimit sid)
  let last := n * d + d - 1
  let span := x.rows.filter (fun r => decide (last ≤ r.index + s) && decide (r.index ≤ last))
  let pts := newest.values.length
  let values := (List.range pts).map (fun q =>
    if limit * d < 256 * invalidCount x.rows n d q then none
    else some (cascade preset minimum (rowValue x.rows x.start q) chain.reverse n))
  let want := if minimum then last else last - groupDelay chain
  let stamp := match trail.find? (fun r => r.1 == want && r.2.1 == newest.delta) with
    | some r => r.2.2
    | none => newest.stamp - ((last - want : Nat) : Int) * newest.delta * tickUnits
  { n := n, values := values, stamp := stamp,
    unsettled := x.events.any (fun e => decide (last < e + s) && decide (e ≤ last)),
    stitched := span.any (·.stitched), dark := span.any (·.dark), saturated := span.any (·.saturated),
    suspect := span.any (·.suspect), thinned := newest.thinned, lastInput := newest.stamp, delta := newest.delta, geo := geo }

/-- Tiles of points of at most `tp`, from tile number `k` of `total` (R130). -/
def splitTiles (mk : Nat → Nat → Nat → Tile) (points tp total : Nat) : List Tile :=
  (List.range total).map (fun k => mk k (k * tp) (min tp (points - k * tp)))

/-- The subscribers of a stream in force. -/
def StreamSt.activeSubs (x : StreamSt) (sid : Nat) : List Nat :=
  (List.range 4).filter (fun m => x.par (K.streamSubEnable sid m) == 1)

/-- Where the tiles of a block go: the subscribers in force at its end. -/
def StreamSt.dests (x : StreamSt) (sid : Nat) : List Dest :=
  (x.activeSubs sid).map (fun m => { sub := m, gen := (x.subs.getD m SubSt.idle).gen, addr := x.par (K.streamSubAddr sid m),
                                     udp := x.par (K.streamSubUdp sid m), dual := x.par (K.streamSubLink sid m) == 2 })

/-- Close a STRAIN stream's block: its samples become tiles in point order (R130, R131). -/
def StreamSt.closeBlock (x : StreamSt) (sid : Nat) : StreamSt :=
  match x.block with
  | [] => x
  | first :: _ =>
    let d := x.par (K.streamDecFactor sid)
    let preset := x.par (K.streamDecPreset sid)
    let form := x.par (K.streamDecForm sid)
    let minimum := minimumForm preset form
    let chain := chainOf preset d
    let fmt := x.par (K.streamFormat sid)
    let tp := max 1 (x.par (K.streamTilePoints sid))
    let stride := max 1 (x.par (K.streamPointsStride sid))
    let pts := first.values.length
    let total := ceilDiv pts tp
    let den := 2 ^ accFraction preset
    let unset := ((List.range x.block.length).filter (fun i => ((x.block.getD i first).unsettled))).map (· + 1)
    let mk := fun (q at_ cnt : Nat) =>
      let payload := x.block.flatMap (fun sm => ((sm.values.drop at_).take cnt).flatMap (fun v => encodeStrain fmt sm.geo.1 sm.geo.2 sm.delta v den))
      ({ kind := 0, port := x.par (K.streamPort sid), unsettled := maxN unset, stitched := x.block.any (·.stitched), dark := x.block.any (·.dark),
         saturated := x.block.any (·.saturated), suspect := x.block.any (·.suspect), gap := x.gap, thinned := x.block.any (·.thinned),
         lastTile := decide (q + 1 = total), index := q, total := total, epoch := x.blockEpoch, block := first.n, t0 := first.stamp,
         interval := d * first.delta, firstPoint := x.par (K.streamPointsFirst sid) + at_ * stride, points := cnt, samples := x.block.length,
         format := fmt, filter := preset + 4 * b2n minimum, decimation := d,
         filterDelay := if minimum then dcDelay16 chain else 16 * groupDelay chain, payload := payload,
         lastInput := (x.block.getLast?.map (·.lastInput)).getD first.lastInput } : Tile)
    if x.suspended then { x with block := [], gap := true }
    else { x with block := [], gap := false, queue := x.queue ++ (splitTiles mk pts tp total).map (fun y => { y with dests := x.dests sid }) }

/-- A restart (R127): filter state zeroed, so that no earlier row counts as input, and the event's first trace noted. An output after the latest event is unsettled by an earlier one only where it is by the latest. -/
def StreamSt.restart (x : StreamSt) (index : Nat) : StreamSt :=
  { x with start := index, events := [index] }

/-- The fields whose BLOCK-class change restarts the chain (R127). -/
def restartFields (sid : Nat) : List Key :=
  [K.streamEnable sid, K.streamKind sid, K.streamPort sid, K.streamPointsFirst sid, K.streamPointsCount sid, K.streamPointsStride sid,
   K.streamDecPreset sid, K.streamDecFactor sid, K.streamDecForm sid]

/-- The link a subscriber is on where its setting alone decides (R135): its preferred one while that is up, otherwise the other, if that one is up. -/
def linkFor (up : Port → Bool) (setting : Nat) : Port :=
  let want := Port.ofIdx (setting % 2)
  if !(up want) && up want.other then want.other else want

/-- What a BLOCK swap does to the subscribers (R331, R332): a disabled, moved or shortened one leaves; a new address begins a new generation. -/
def swapSubs (up : Port → Bool) (old new : PSet) (sid : Nat) (subs : List SubSt) : List SubSt :=
  (List.range 4).map (fun m =>
    let x := subs.getD m SubSt.idle
    let was : Bool := old.get (K.streamSubEnable sid m) == 1 && old.get (K.streamEnable sid) == 1
    let is : Bool := new.get (K.streamSubEnable sid m) == 1 && new.get (K.streamEnable sid) == 1
    let moved : Bool := decide (old.get (K.streamSubAddr sid m) ≠ new.get (K.streamSubAddr sid m)) ||
      decide (old.get (K.streamSubUdp sid m) ≠ new.get (K.streamSubUdp sid m))
    let shorter : Bool := decide (new.get (K.streamSubWindowMs sid m) < old.get (K.streamSubWindowMs sid m))
    let on : Port := if was && is && !moved && decide (old.get (K.streamSubLink sid m) = new.get (K.streamSubLink sid m)) then x.on else linkFor up (new.get (K.streamSubLink sid m))
    if was && (!is || moved || shorter) then { x with on := on, gen := x.gen + 1, leaving := x.gen :: x.leaving, lastSent := if is && !moved then x.lastSent else none }
    else if is && !was then { x with on := on, gen := x.gen + 1, lastSent := none }
    else { x with on := on })

/-- The code of stream.n.state (R139, log entry 14): 0 OFF, 1 RUNNING, 2 SUSPENDED, 3 IDLE. -/
def streamCode (enabled running suspended : Bool) : Nat :=
  if !enabled then 0 else if suspended then 2 else if running then 1 else 3

/-- Publish a stream's state and the delays of its chain (R124). -/
def State.streamPublish (s : State) (sid : Nat) : State :=
  let x := s.stream sid
  let chain := chainOf (x.par (K.streamDecPreset sid)) (x.par (K.streamDecFactor sid))
  let s1 := s.roSet (K.streamState sid) (streamCode (x.par (K.streamEnable sid) == 1) s.mode.measuring x.suspended)
  ((s1.roSet (K.streamDecGroupDelay sid) (groupDelay chain)).roSet (K.streamDecDcDelay sid) (dcDelay16 chain)).roSet
    (K.streamDecUnsettled sid) (unsettledMax chain (max 1 (x.par (K.streamDecFactor sid))))

/-- Epoch `a` came before epoch `b`: epochs wrap (R33). -/
def epochBefore (a b : Nat) : Bool := a != b && decide ((b + 4294967296 - a) % 4294967296 < 2147483648)

/-- A tile of generation `g` of subscriber `m` is retained, or waits to be sent. -/
def StreamSt.retains (x : StreamSt) (m g : Nat) : Bool :=
  x.held.any (fun h => h.subs.contains (m + 4 * g)) || x.queue.any (fun y => y.dests.any (fun d => d.sub == m && d.gen == g))

/-- Removed subscribers with no tile retained await nothing. -/
def StreamSt.forgetLeaving (x : StreamSt) : StreamSt :=
  { x with subs := x.subs.zipIdx.map (fun e => { e.1 with leaving := e.1.leaving.filter (x.retains e.2) }) }

/-- Release of retained tiles of removed subscribers is confirmed once none is left, sent or waiting (R331). -/
def State.confirmLeaving (s : State) (sid : Nat) : State :=
  (List.range 4).foldl (fun st m =>
    let x := st.stream sid
    let sub := x.subs.getD m SubSt.idle
    let gone := sub.leaving.filter (fun g => !(x.retains m g))
    if gone = [] then st
    else gone.foldl (fun st2 _ => st2.raise Ev.released [u sid, u m])
      (st.setStream sid { x with subs := x.subs.set m { sub with leaving := sub.leaving.filter (fun g => !(gone.contains g)) } })) s

/-- Load a bank into a stream at a block boundary (R31, R32). -/
def State.streamSwap (s : State) (sid : Nat) (b : Bank) : State :=
  let x := s.stream sid
  if x.bank.epoch = b.epoch then s
  else
    let restarts : Bool := (restartFields sid).any (fun k => decide (x.bank.set.get k ≠ b.set.get k))
    let same : Bool := decide (x.par (K.streamPort sid) = b.set.get (K.streamPort sid)) && enabledKind x.bank.set sid 0
    let y := { x with bank := b, subs := swapSubs (fun l => (s.link l).up) x.bank.set b.set sid x.subs, blockEpoch := b.epoch,
                      due := x.due.filter (fun e => epochBefore b.epoch e.2.epoch) }
    let y1 := if restarts then { y with rows := if same then x.rows.map (fun r => { r with values := [] }) else [], events := [], begun := false, lastIndex := none, block := [] } else y
    let y2 := if b.set.get (K.streamEnable sid) = 0 then { y1 with suspendedAt := none, parked := false } else y1
    let s1 : State := if enabledKind b.set sid 4 then s else { s with front := { s.front with blocks := s.front.blocks.set sid RefBlock.empty } }
    (s1.setStream sid y2.forgetLeaving).streamPublish sid

/-- A bank a port has had, by its epoch. -/
def State.histBank (s : State) (p : Port) (epoch : Nat) : Option Bank :=
  (match p with
   | .a => s.cfg.histA
   | .b => s.cfg.histB).find? (fun b => b.epoch == epoch)

/-- The fields whose change at F restarts the chain of a port's streams: those of R109, and port.x.dec.tile (R127). -/
def chainFields (p : Port) : List Key :=
  [K.portPointsFirst p, K.portPointsCount p, K.portPointsPitch p, K.portChirpBandwidth p, K.portChirpDuration p, K.portPcWindow p, K.portSlotPlan p,
   K.portDecTile p]

/-- What a change of a port's epoch does to its streams (R127): 2 restart, 1 marking for any other FRAME-class field of the port, 0 nothing. -/
def State.portEvent (s : State) (p : Port) (old new : Nat) (count : Bool) : Nat :=
  match s.histBank p old, s.histBank p new with
  | some a, some b =>
    let d := a.set.diff b.set
    if count || d.any (fun k => (chainFields p).contains k) then 2
    else if d.any (fun k => decide (k.i = p.idx) && (rowAt k.row).segs.head? == some (.lit "port.") && k.swap == .frame) then 1 else 0
  | _, _ => if count then 2 else 0

/-- The samples gathered belong to an earlier block than sample `n` does (R130). -/
def otherBlock (block : List Sample) (n ts : Nat) : Bool :=
  match block.head? with
  | some f => f.n / ts != n / ts
  | none => false

/-- Take one trace into a stream's filter: `restarted` zeroes it at this trace, `jump` is an event that sets gap, `marks` one that only marks (R126, R127). At the end of a factor's span a
sample is formed, and with the last of a block the block closes; the answer tells whether one did. -/
def StreamSt.takeTrace (x : StreamSt) (sid : Nat) (tr : StrainTrace) (trail : List (Nat × Nat × Stamp)) (restarted marks jump : Bool) : StreamSt × Bool :=
  let d := max 1 (x.par (K.streamDecFactor sid))
  let ts := max 1 (x.par (K.streamTileSamples sid))
  let newGrid : Bool := decide (x.lastDelta ≠ tr.delta) || (x.rows.head?.map (fun r => decide (tr.index ≤ r.index))).getD false
  let x0 := if newGrid then { x with rows := [] } else x
  let xz := if restarted then x0.restart tr.index else if marks then { x0 with events := [tr.index] } else x0
  let xa := if jump then { ((xz.closeBlock sid).restart tr.index) with gap := true, nextN := tr.index / d } else xz
  let xb := if x.begun then xa else { (xa.restart tr.index) with begun := true, nextN := ceilDiv tr.index d, blockEpoch := x.bank.epoch }
  let pts := outPoints xb.bank.set sid (tr.header.first, tr.header.count)
  let vals := pts.map (fun q => if tr.header.first ≤ q then (tr.words.getD (q - tr.header.first) none) else none)
  let row : InRow := { index := tr.index, values := vals, stitched := tr.header.stitched, dark := tr.header.dark,
                       saturated := tr.header.saturated, suspect := tr.header.suspect, thinned := tr.header.thinned,
                       stamp := tr.header.launch, delta := tr.delta }
  let keep := spanOf (chainOf (xb.par (K.streamDecPreset sid)) d) + d + 1
  let xc := { xb with rows := (row :: xb.rows).take keep, lastIndex := some tr.index, lastDelta := tr.delta, lastEpoch := tr.header.epoch, lastCount := tr.header.count }
  if (tr.index + 1) % d = 0 ∧ xc.nextN ≤ tr.index / d then
    let n := tr.index / d
    let other : Bool := otherBlock xc.block n ts
    let xd := if other then xc.closeBlock sid else xc
    let sm := xd.sampleOf sid n row trail (tr.header.gauge, tr.header.pitch)
    let xe := { xd with block := xd.block ++ [sm], evals := sm :: xd.evals, nextN := n + 1,
                        blockEpoch := if xd.block = [] then xd.bank.epoch else xd.blockEpoch }
    if (n + 1) % ts = 0 then (xe.closeBlock sid, true) else (xe, other)
  else (xc, false)

/-- A trace does not follow the last one a stream took: an index without a trace, or another grid (R127). -/
def StreamSt.jumps (x : StreamSt) (tr : StrainTrace) : Bool :=
  x.begun && (decide (x.lastIndex ≠ some (tr.index - 1)) || decide (tr.index = 0) || decide (x.lastDelta ≠ tr.delta))

/-- Take one trace into a STRAIN stream. Before the first trace of a block the values of the epoch in force at its launch load, once an open block has closed with its own (R31, R142); then
gap, filter, sample, and the block's end. The answer tells whether a block closed. -/
def State.streamTrace (s : State) (sid : Nat) (p : Port) (tr : StrainTrace) : State × Bool :=
  let x0 := s.stream sid
  let span0 := max 1 (x0.par (K.streamTileSamples sid) * x0.par (K.streamDecFactor sid))
  let jump : Bool := x0.jumps tr
  let bank := if !x0.begun || jump || decide (tr.index % span0 = 0) then (s.histBank p tr.header.epoch).filter (fun b => epochBefore x0.bank.epoch b.epoch) else none
  let s1 := match bank with
    | some b =>
      let y := x0.closeBlock sid
      (s.setStream sid (if jump then { y with gap := true } else y)).streamSwap sid b
    | none => s
  let x := s1.stream sid
  if x.parked || !(enabledKind x.bank.set sid 0) || decide (x.par (K.streamPort sid) ≠ p.idx) || epochBefore tr.header.epoch x.bank.epoch && !x.begun then (s1, false)
  else
    let portFields : Bool := x.begun && decide (x.lastEpoch ≠ tr.header.epoch)
    let event := if portFields then s1.portEvent p x.lastEpoch tr.header.epoch (x.lastCount != tr.header.count) else 0
    let r := x.takeTrace sid tr (s1.coh p).trail (event == 2) (event == 1) (x.begun && jump)
    (s1.setStream sid r.1, r.2 || (bank.isSome && x0.block != []))

/-- Take some traces into every stream, in order. -/
def State.streamTraces (s : State) (p : Port) (trs : List StrainTrace) : State × Bool :=
  trs.foldl (fun acc tr => (List.range 16).foldl (fun a n => let r := a.1.streamTrace n p tr; (r.1, a.2 || r.2)) acc) (s, false)

/-! ### Alarm zones' sums (R378) -/

/-- The sums of a zone over one more trace of its port. -/
def State.zoneTake (s : State) (p : Port) (tr : StrainTrace) (z : Nat) (x : ZoneSum) : ZoneSum :=
  if s.pG (K.alarmZoneEnable z) = 1 ∧ s.pG (K.alarmZonePort z) = p.idx then
    let first := s.pG (K.alarmZoneFirst z)
    let ws := (tr.words.drop (first - tr.header.first)).take (s.pG (K.alarmZoneCount z))
    let vs := ws.filterMap id
    ⟨x.square + sumN (vs.map (fun v => (v * v).natAbs)), x.valid + vs.length, x.words + ws.length⟩
  else x

/-- A trace enters the alarm interval that holds its launch (R378). -/
def State.alarmTake (s : State) (p : Port) (tr : StrainTrace) : State :=
  let n : Int := tr.header.launch / (secondUnits / 10)
  if s.mode.measuring = false ∨ n < s.power.alarmNext then s
  else
    let old := ((s.power.sums.find? (fun e => e.1 == n)).map (·.2)).getD (List.replicate 64 ⟨0, 0, 0⟩)
    let new := old.zipIdx.map (fun e => s.zoneTake p tr e.2 e.1)
    { s with power := { s.power with sums := s.power.sums.filter (fun e => e.1 != n) ++ [(n, new)] } }

/-! ### Swaps of the streams (R31, R32) -/

/-- The port whose F a stream's values follow: a STRAIN, QUALITY or DTS stream's own, a KERNEL stream's instance's; the others belong to no port (R83). -/
def streamPort (set : PSet) (sid : Nat) : Option Port :=
  match set.get (K.streamKind sid) with
  | 2 => ((List.range 8).find? (fun i => set.get (K.basaltInstEnable i) == 1 && set.get (K.basaltInstStream i) == sid)).map (fun i => Port.ofIdx (set.get (K.basaltInstPort i)))
  | 4 => none
  | 5 => none
  | 6 => none
  | _ => some (Port.ofIdx (set.get (K.streamPort sid)))

/-- A block of a stream other than STRAIN has begun and is not yet queued: a second with its summaries, a tile of an instance, an integration, a REF block, an alarm interval. A CAPTURE block
begins and ends when it is queued. -/
def State.blockOpen (s : State) (sid : Nat) : Bool :=
  let x := s.stream sid
  let p := Port.ofIdx (x.par (K.streamPort sid))
  let d := match p with
    | .a => s.raman.a
    | .b => s.raman.b
  x.par (K.streamEnable sid) == 1 && (match x.par (K.streamKind sid) with
    | 1 => (s.coh p).sums != [] || (s.coh p).closed != []
    | 2 => s.basalt.insts.zipIdx.any (fun e => e.1.on && e.1.bank.set.get (K.basaltInstStream e.2) == sid && (e.1.tile.map (fun y => !y.closed)).getD false)
    | 3 => d.cur.isSome || d.done != []
    | 4 => decide ((s.front.blocks.getD sid RefBlock.empty).scans ≠ 0)
    | 6 => s.mode.measuring
    | _ => false)

/-- At a block whose first input came at `first`: of the banks that wait, the newest whose F is not after it loads (R31, R32). -/
def State.loadDue (s : State) (sid : Nat) (first : Stamp) : State :=
  match ((s.stream sid).due.filter (fun e => decide (e.1 ≤ first))).getLast? with
  | some e => s.streamSwap sid e.2
  | none => s

/-- Where no block of a stream is open, the newest bank that waits loads. -/
def State.settle (s : State) (sid : Nat) : State :=
  if s.blockOpen sid then s
  else match (s.stream sid).due.getLast? with
    | some e => s.streamSwap sid e.2
    | none => s

/-- So for every stream. -/
def State.settleAll (s : State) : State := (List.range 16).foldl (fun st n => st.settle n) s

/-- Input traces stop on a port (R142): the traces that are formed pass the corner-turn buffer (R19), what it holds is processed, and open blocks close with the samples they have. -/
def State.closePort (s : State) (p : Port) : State :=
  let c := s.coh p
  let sa := c.strain.foldl (fun st tr => st.alarmTake p tr) s
  let sb := sa.setCoh p { sa.coh p with trail := c.strain.foldl (fun acc tr => (tr.index, tr.delta, tr.header.launch) :: acc) c.trail }
  let r := sb.streamTraces p (c.corner.flatMap (·.traces) ++ c.strain)
  let s1 := r.1.setCoh p { r.1.coh p with corner := [], strain := [] }
  (List.range 16).foldl (fun st n =>
    let x := st.stream n
    if enabledKind x.bank.set n 0 && x.par (K.streamPort n) == p.idx then st.setStream n (x.closeBlock n) else st.settle n) s1

/-- Streams restart when the module enters RUNNING (R127); those that BEDROCK suspended resume with gap (R377), and nothing stays of its traces in the corner-turn buffers. -/
def State.streamsRestart (s : State) : State :=
  let s0 := (s.setCoh .a { s.coh .a with corner := [] }).setCoh .b { s.coh .b with corner := [] }
  (List.range 16).foldl (fun st n =>
    let x := st.stream n
    let y := { x with rows := [], events := [], begun := false, lastIndex := none, block := [], parked := false, gap := x.gap || x.parked }
    ((st.setStream n y).settle n).streamPublish n) s0

/-- A commit's F passed, on a port or for the fields of none: STRAIN streams of a port with frames follow its traces; a stream with a block open loads the bank with its next block; the others
load it at once. -/
def State.streamsAtF (s : State) (at_ : Option Port) (b : Bank) : State :=
  (List.range 16).foldl (fun st n =>
    let x := st.stream n
    let set := if x.par (K.streamEnable n) = 1 then x.bank.set else b.set
    if decide (streamPort set n ≠ at_) || !(epochBefore x.bank.epoch b.epoch)
       || enabledKind x.bank.set n 0 && decide (2 ≤ st.roGet (K.portState (Port.ofIdx (x.par (K.streamPort n))))) then st
    else if st.blockOpen n then st.setStream n { x with due := x.due ++ [(st.stamp, b)] }
    else st.streamSwap n b) s

/-- A set with no swap point reaches every stream at once (R329, R383). -/
def State.streamsApply (s : State) (b : Bank) : State :=
  (List.range 16).foldl (fun st n => (st.setStream n { st.stream n with bank := ⟨0, (st.stream n).bank.set⟩, due := [] }).streamSwap n b) s

/-! ### Datagrams (R131, R133, R138) -/

/-- The 64-byte header of a tile with its seq (R131). -/
def nspHeader (x : Tile) (sid seq : Nat) : List Byte :=
  le 2 0x534E ++ le 1 1 ++ le 1 x.kind ++ le 1 sid ++ le 1 x.port ++
  le 1 (b2n (decide (x.unsettled ≠ 0) || x.rough) + 2 * b2n x.stitched + 4 * b2n x.dark + 8 * b2n x.saturated + 16 * b2n x.suspect + 32 * b2n x.gap +
        64 * b2n x.thinned + 128 * b2n x.lastTile) ++
  le 1 (x.index / 65536 % 16 + 16 * (x.total / 65536 % 16)) ++
  le 4 seq ++ le 4 x.epoch ++ le 8 x.block ++ tsBytes x.t0 ++ le 4 x.interval ++ le 4 x.firstPoint ++ le 2 x.points ++ le 2 x.samples ++
  le 2 x.index ++ le 2 x.total ++ le 2 x.unsettled ++ le 1 x.format ++ le 1 x.filter ++ le 2 x.decimation ++ le 2 x.payload.length ++
  le 4 x.filterDelay

/-- A whole datagram with its check value (R133). -/
def datagram (moduleId : BitVec 64) (x : Tile) (sid seq : Nat) : List Byte :=
  let body := nspHeader x sid seq ++ x.payload
  body ++ le 4 (checkValue moduleId sid seq body).toNat

/-- A tile with nothing in it, for control datagrams (R138): kind 0x0F, the subtype in `format`. -/
def controlTile (subtype : Nat) (payload : List Byte) : Tile where
  kind := 0x0F
  port := 0xFF
  unsettled := 0
  stitched := false
  dark := false
  saturated := false
  suspect := false
  gap := false
  thinned := false
  lastTile := false
  index := 0
  total := 0
  epoch := 0
  block := 0
  t0 := 0
  interval := 0
  firstPoint := 0
  points := 0
  samples := 0
  format := subtype
  filter := 0
  decimation := 0
  filterDelay := 0
  payload := payload
  lastInput := 0

/-- The links a tile goes out on for a subscriber: both for DUAL, else the one it is on (R135). -/
def StreamSt.linksOf (x : StreamSt) (sid m : Nat) : List Port :=
  if x.par (K.streamSubLink sid m) = 2 then ports else [(x.subs.getD m SubSt.idle).on]

/-- Send bytes to a subscriber on some links that are up. -/
def State.sendTo (s : State) (sid m : Nat) (links : List Port) (bytes : List Byte) : State :=
  let x := s.stream sid
  (links.filter (fun l => (s.link l).up)).foldl (fun st l =>
    st.emit (.datagram l (x.source sid) (BitVec.ofNat 128 (x.par (K.streamSubAddr sid m))) (x.par (K.streamSubUdp sid m)) bytes)) s

/-- Note that something went to a subscriber now. -/
def State.touchSub (s : State) (sid m : Nat) : State :=
  let x := s.stream sid
  s.setStream sid { x with subs := x.subs.set m { x.subs.getD m SubSt.idle with lastSent := some s.now } }

/-- The last seq a stream sent, one before its next (R138). -/
def State.lastSeq (s : State) (sid : Nat) : Nat := (s.roGet (K.streamSeq sid) + 4294967295) % 4294967296

/-- Send a control datagram to a subscriber (R138). -/
def State.control (s : State) (sid m subtype : Nat) (payload : List Byte) : State :=
  (s.sendTo sid m ((s.stream sid).linksOf sid m) (datagram s.moduleId (controlTile subtype payload) sid (s.lastSeq sid))).touchSub sid m

/-- The longest window in force of a stream's subscribers, in ticks (R136). -/
def StreamSt.longestWindow (x : StreamSt) (sid : Nat) : Nat :=
  maxN ((x.activeSubs sid).map (fun m => x.par (K.streamSubWindowMs sid m) * msTicks))

/-- The links a tile goes out on to a subscriber. -/
def StreamSt.destLinks (x : StreamSt) (d : Dest) : List Port := if d.dual then ports else [(x.subs.getD d.sub SubSt.idle).on]

/-- The links of a tile's copies for a subscriber that are up. -/
def State.upLinks (s : State) (sid : Nat) (d : Dest) : List Port := ((s.stream sid).destLinks d).filter (fun l => (s.link l).up)

/-- Send a tile to one subscriber on some links; something went to that subscriber now if it is still the present one. -/
def State.sendDest (s : State) (sid : Nat) (bytes : List Byte) (d : Dest) (links : List Port) : State :=
  let s1 := links.foldl (fun st l => st.emit (.datagram l ((s.stream sid).source sid) (BitVec.ofNat 128 d.addr) d.udp bytes)) s
  if ((s.stream sid).subs.getD d.sub SubSt.idle).gen = d.gen then s1.touchSub sid d.sub else s1

/-- First transmission of a stream's oldest tile (R130, R132, R136). -/
def State.sendTile (s : State) (sid : Nat) : State :=
  let x := s.stream sid
  match x.queue with
  | [] => s
  | tile :: rest =>
    let seq := s.roGet (K.streamSeq sid)
    let bytes := datagram s.moduleId tile sid seq
    let links := tile.dests.flatMap (fun d => (s.upLinks sid d).map (fun l => (d.sub + 4 * d.gen, l, s.now)))
    let held : HeldTile := { seq := seq, bytes := bytes, sentAt := s.now, keep := x.longestWindow sid, subs := tile.dests.map (fun d => d.sub + 4 * d.gen), links := links }
    let s1 := s.setStream sid { x with queue := rest, held := x.held ++ [held] }
    (tile.dests.foldl (fun st d => st.sendDest sid bytes d (s.upLinks sid d)) s1).bump (K.streamSeq sid) 1

/-- The stream's oldest tile comes before that of every other stream that sends: earlier last input trace, ties to the lower ID (R130). -/
def State.tileTurn (s : State) (sid : Nat) : Bool :=
  match (s.stream sid).queue with
  | [] => false
  | tile :: _ => (List.range 16).all (fun n =>
      n == sid || (s.stream n).suspended || (match (s.stream n).queue with
        | [] => true
        | o :: _ => decide (tile.lastInput < o.lastInput) || (decide (tile.lastInput = o.lastInput) && decide (sid < n))))

/-- The bytes of a list of ranges (R137, R138). -/
def rangeBytes (rs : List (Nat × Nat)) : List Byte := rs.flatMap (fun r => le 4 r.1 ++ le 4 r.2)

/-- Numbers as ranges of at most 4096 consecutive ones, in their order (R137, R138; log entry 64). -/
def rangesOf : List Nat → List (Nat × Nat) → List (Nat × Nat)
  | [], acc => acc.reverse
  | q :: qs, (a, n) :: rest => if q = (a + n) % 4294967296 ∧ n < 4096 then rangesOf qs ((a, n + 1) :: rest) else rangesOf qs ((q, 1) :: (a, n) :: rest)
  | q :: qs, [] => rangesOf qs [(q, 1)]

/-- Report some released tiles to a subscriber, in as many GONE datagrams as their ranges take (R135, R138). -/
def State.gone (s : State) (sid m : Nat) (seqs : List Nat) : State :=
  if seqs = [] then s
  else
    let x := s.stream sid
    let rs := rangesOf seqs []
    let each := max 1 ((x.payload (x.par (K.streamSubAddr sid m)) - 68) / 8)
    ((List.range (ceilDiv rs.length each)).foldl (fun st i => st.control sid m 1 (rangeBytes ((rs.drop (i * each)).take each))) s).bump (K.streamGoneCount sid) seqs.length

/-- The subscriber that asked for a retransmission is the present one of its position. -/
def State.asks (s : State) (sid : Nat) (r : RetxReq) : Bool := ((s.stream sid).subs.getD r.dest.sub SubSt.idle).gen == r.dest.gen

/-- RETX_TILE_RELEASE: tiles whose window has passed are released; waiting requests for them are answered GONE (R136, R137). -/
def execRetxTileRelease (t : Tick) (stream : Nat) (s : State) : Out :=
  let s0 := s.at t
  let x := s0.stream stream
  let done := x.held.filter (fun h => decide (h.sentAt + h.keep ≤ s0.now))
  let kept := x.held.filter (fun h => !decide (h.sentAt + h.keep ≤ s0.now))
  let lost := x.retx.filter (fun r => done.any (fun h => h.seq == r.seq))
  let s1 := s0.setStream stream { x with held := kept, retx := x.retx.filter (fun r => !(done.any (fun h => h.seq == r.seq))) }
  let s2 := (List.range 4).foldl (fun st m => st.gone stream m ((lost.filter (fun r => r.dest.sub == m && st.asks stream r)).map (·.seq))) s1
  .next (s2.confirmLeaving stream)

/-! ### NACK and retransmission (R137) -/

/-- The bytes of a NACK before its check value. Its reserved bits are not looked at (R10). -/
def nackBytes (n : Nack) : List Byte :=
  le 2 n.magic.toNat ++ le 1 n.version ++ le 1 n.kind ++ le 1 n.streamId ++ le 1 n.subscriber ++ le 2 n.rangeCount ++ le 4 n.nackNumber.toNat ++
  le 4 n.reserved.toNat ++ rangeBytes n.ranges

/-- What makes a NACK acceptable (R137). -/
def State.nackOk (s : State) (sid : Nat) (n : Nack) : Bool :=
  decide (checkValue s.moduleId n.streamId n.nackNumber.toNat (nackBytes n) = n.check)
  && decide (n.magic = 0x534E) && n.version == 1 && n.kind == 0x0E && decide (1 ≤ n.rangeCount) && decide (n.rangeCount ≤ 32)
  && n.ranges.length == n.rangeCount && n.ranges.all (fun r => decide (1 ≤ r.2) && decide (r.2 ≤ 4096))
  && n.streamId == sid && decide (n.subscriber < 4)
  && (s.stream sid).par (K.streamSubEnable sid n.subscriber) == 1
  && decide (n.fromAddr = BitVec.ofNat 128 ((s.stream sid).par (K.streamSubAddr sid n.subscriber)))
  && n.fromUdp == (s.stream sid).par (K.streamSubUdp sid n.subscriber)

/-- a is newer than b (R132). -/
def newer (a b : Nat) : Bool :=
  let d := (a + 4294967296 - b) % 4294967296
  decide (1 ≤ d) && decide (d ≤ 2147483647)

/-- The sequence numbers some ranges name. -/
def rangeSeqs (rs : List (Nat × Nat)) : List Nat := rs.flatMap (fun r => (List.range r.2).map (fun i => (r.1 + i) % 4294967296))

/-- NACK: discarded and counted, or each number queued, reported GONE, or ignored as not yet sent. -/
def execNack (t : Tick) (stream : Nat) (n : Nack) (s : State) : Out :=
  let s0 := s.at t
  if s0.nackOk stream n = false then .next (s0.bump (K.streamNackRejected stream) 1)
  else
    let x := s0.stream stream
    let seqs := (rangeSeqs n.ranges).filter (fun q => !(newer q (s0.lastSeq stream)))
    let held := seqs.filter (fun q => x.held.any (fun h => h.seq == q))
    let lost := seqs.filter (fun q => !(x.held.any (fun h => h.seq == q)))
    let who := (x.dests stream).find? (fun d => d.sub == n.subscriber)
    let reqs := held.filterMap (fun q => who.map (fun d => (⟨d, q, n.link, s0.now⟩ : RetxReq)))
    .next ((s0.setStream stream { x with retx := x.retx ++ reqs }).gone stream n.subscriber lost)

/-- The negotiated rate of a link in bytes per 10 ms. -/
def LinkSt.rate10ms (l : LinkSt) : Nat := if l.gigabit then 1250000 else 12500000

/-- One more copy of a held tile left for a subscriber. -/
def HeldTile.sentOn (h : HeldTile) (d : Dest) (l : Port) (now : Tick) : HeldTile := { h with links := h.links ++ [(d.sub + 4 * d.gen, l, now)] }

/-- A tile waits for its first transmission on a link. -/
def State.firstWaiting (s : State) (l : Port) : Bool :=
  (List.range 16).any (fun n =>
    let x := s.stream n
    x.suspended == false && x.queue.any (fun y => y.dests.any (fun d => (x.destLinks d).contains l)))

/-- The oldest retransmission asked for on a link: its stream and the request. -/
def State.oldestRetx (s : State) (l : Port) : Option (Nat × RetxReq) :=
  (List.range 16).foldl (fun best n =>
    match (s.stream n).retx.find? (fun r => r.link == l) with
    | none => best
    | some r =>
      match best with
      | none => some (n, r)
      | some b => if r.asked < b.2.asked then some (n, r) else best) none

/-- RETRANSMISSION_SEND: the oldest request on a link is served while no first transmission waits and the share of nsp.retx_share in this 10 ms allows it, as the stream's values have it. A span
of 10 ms begins with the first retransmission after the span before it (log entry 65). -/
def execRetransmissionSend (t : Tick) (link : Port) (s : State) : Out :=
  let s0 := s.at t
  let l := s0.link link
  if l.up = false ∨ s0.firstWaiting link then .next s0
  else
    match s0.oldestRetx link with
    | none => .next s0
    | some (sid, r) =>
      let x := s0.stream sid
      let s1 := s0.setStream sid { x with retx := x.retx.erase r }
      match x.held.find? (fun h => h.seq == r.seq) with
      | none => .next (if s1.asks sid r then s1.gone sid r.dest.sub [r.seq] else s1)
      | some h =>
        let fresh : Bool := decide (l.shareAt + 2000000 ≤ s0.now)
        let used := if fresh then 0 else l.share
        if l.rate10ms * x.par K.nspRetxShare < 100 * (used + h.bytes.length) then .next s0
        else
          let s2 := s1.setLink link { l with share := used + h.bytes.length, shareAt := if fresh then s0.now else l.shareAt }
          let s3 := s2.setStream sid { s2.stream sid with held := (s2.stream sid).held.map (fun y => if y.seq = r.seq then y.sentOn r.dest link s0.now else y) }
          .next ((s3.sendDest sid h.bytes r.dest [link]).bump (K.streamNackServed sid) 1)

/-- Something went to a subscriber, and 100 ms have passed since. -/
def sentLongAgo (x : SubSt) (now : Tick) : Bool := (x.lastSent.map (fun t => decide (t + 20000000 ≤ now))).getD false

/-- IDLE: 100 ms after anything last left for a subscriber of a stream that is not suspended (R138). -/
def execIdle (t : Tick) (stream : Nat) (sub : Nat) (s : State) : Out :=
  let s0 := s.at t
  let x := s0.stream stream
  if x.par (K.streamEnable stream) = 1 ∧ x.suspended = false ∧ sub ∈ x.activeSubs stream
     ∧ sentLongAgo (x.subs.getD sub SubSt.idle) s0.now ∧ s0.mode.served then
    .next (s0.control stream sub 0 [])
  else .next s0

/-- SUSPENDED: every 1 s while a stream is suspended, to each subscriber (R138). -/
def execSuspended (t : Tick) (stream : Nat) (s : State) : Out :=
  let s0 := s.at t
  let x := s0.stream stream
  if x.suspended = true ∧ x.suspendedSent + secondTicks ≤ s0.now then
    let s1 := s0.setStream stream { x with suspendedSent := s0.now }
    .next ((x.activeSubs stream).foldl (fun st m => st.control stream m 2 []) s1)
  else .next s0

/-! ### Links (R139) -/

/-- A subscriber moves to the other link of its own accord (AUTO). -/
def isAuto (x : StreamSt) (sid m : Nat) : Bool := decide (x.par (K.streamSubLink sid m) ≤ 1)

/-- After a loss, AUTO subscribers of a link move, and what they were sent on it in the last 10 ms is sent again; their queued retransmissions move with them. -/
def State.moveFrom (s : State) (l : Port) : State :=
  if (s.link l.other).up = false then s
  else
    (List.range 16).foldl (fun st n =>
      (((st.stream n).activeSubs n).filter (fun m => isAuto (st.stream n) n m && ((st.stream n).subs.getD m SubSt.idle).on == l)).foldl
        (fun st2 m =>
          let y := st2.stream n
          let sub := y.subs.getD m SubSt.idle
          let again := fun (h : HeldTile) => h.links.any (fun e => e.1 == m + 4 * sub.gen && e.2.1 == l && decide (st2.now ≤ e.2.2 + 2000000))
          let who : Dest := ⟨m, sub.gen, y.par (K.streamSubAddr n m), y.par (K.streamSubUdp n m), false⟩
          let st3 := st2.setStream n { y with subs := y.subs.set m { sub with on := l.other },
                                              retx := y.retx.map (fun r => if r.dest.sub = m ∧ r.link = l then { r with link := l.other } else r),
                                              held := y.held.map (fun h => if again h then h.sentOn who l.other st2.now else h) }
          (y.held.filter again).foldl (fun st4 h => st4.sendDest n h.bytes who [l.other]) st3) st) s

/-- A link that comes up takes AUTO subscribers whose own link is down. -/
def State.moveTo (s : State) (l : Port) : State :=
  if (s.link l.other).up then s
  else
    (List.range 16).foldl (fun st n =>
      let x := st.stream n
      st.setStream n { x with subs := (List.range 4).map (fun m =>
        let sub := x.subs.getD m SubSt.idle
        if isAuto x n m then { sub with on := l } else sub) }) s

/-- At a block boundary, AUTO subscribers return to their preferred link once it has been up for 10 s (AUTO_LINK_RETURN). -/
def State.autoReturn (s : State) (sid : Nat) : State :=
  let x := s.stream sid
  s.setStream sid { x with subs := (List.range 4).map (fun m =>
    let sub := x.subs.getD m SubSt.idle
    let want := Port.ofIdx (x.par (K.streamSubLink sid m) % 2)
    if isAuto x sid m && (s.link want).up && decide ((s.link want).since + 10 * secondTicks ≤ s.now) then { sub with on := want } else sub) }

/-- Put the tiles of a block of a kind whose blocks are whole in a stream's queue, unless the stream is off, of another kind, or suspended. -/
def State.enqueue (s : State) (sid kind : Nat) (tiles : List Tile) : State :=
  let x := s.stream sid
  if !(enabledKind x.bank.set sid kind) then s
  else if x.suspended then s.setStream sid { x with gap := true }
  else s.setStream sid { x with gap := false, counter := x.counter + 1,
                                queue := x.queue ++ tiles.map (fun y => { y with gap := y.gap || x.gap, dests := x.dests sid }) }

end Sys2Proof.Machine
end

