-- ==== Sys2Proof/Machine/BasaltCore.lean ====
section
/-! DEFINITION. Basalt's shared operations: images, shares, results in flight, the end of a bundle, faults, the end of a tile (R182 to R204, R209, R213 to R217). -/

namespace Sys2Proof.Machine

/-! ### State by number -/

/-- One physical core. -/
def State.core (s : State) (c : Nat) : BCore := s.basalt.cores.getD c BCore.off
/-- Replace it. -/
def State.setCore (s : State) (c : Nat) (x : BCore) : State := { s with basalt := { s.basalt with cores := s.basalt.cores.set c x } }
/-- One instance. -/
def State.inst (s : State) (i : Nat) : BInst := s.basalt.insts.getD i BInst.off
/-- Replace it. -/
def State.setInst (s : State) (i : Nat) (x : BInst) : State := { s with basalt := { s.basalt with insts := s.basalt.insts.set i x } }
/-- One kernel slot. -/
def State.slot (s : State) (k : Nat) : BSlot := s.basalt.slots.getD k ⟨[], none, false⟩
/-- Replace it. -/
def State.setSlot (s : State) (k : Nat) (x : BSlot) : State := { s with basalt := { s.basalt with slots := s.basalt.slots.set k x } }
/-- A BLOCK-class value in force for an instance. -/
def BInst.par (x : BInst) (k : Key) : Nat := x.bank.set.get k

/-! ### Images (R213) -/

/-- The header of an image, field by field. -/
structure ImageHeader where
  bundles : Nat
  initEntry : Nat
  tileEntry : Nat
  ivec : Nat
  dmemBytes : Nat
  persistAddr : Nat
  persistBytes : Nat
  cost : Nat
  perBrick : Nat
  recBytes : Nat
  samples : Nat
  warmup : Nat
  word0 : Nat
  minCores : Nat
  maxCores : Nat
  scratchMib : Nat
  fill : Nat
  deriving DecidableEq, Repr

/-- Read it. -/
def imageHeader (im : List Byte) : ImageHeader where
  bundles := fieldLe im 8 2
  initEntry := fieldLe im 10 2
  tileEntry := fieldLe im 12 2
  ivec := fieldLe im 14 2
  dmemBytes := fieldLe im 16 4
  persistAddr := fieldLe im 20 4
  persistBytes := fieldLe im 24 4
  cost := fieldLe im 28 2
  perBrick := fieldLe im 30 1
  recBytes := fieldLe im 31 1
  samples := fieldLe im 32 2
  warmup := fieldLe im 34 2
  word0 := fieldLe im 36 1
  minCores := fieldLe im 37 1
  maxCores := fieldLe im 38 1
  scratchMib := fieldLe im 40 4
  fill := fieldLe im 44 4

/-- The image an instance runs. -/
def State.instImage (s : State) (i : Nat) : List Byte := (s.slot ((s.inst i).par (K.basaltInstSlot i))).image
/-- Its header. -/
def State.instHeader (s : State) (i : Nat) : ImageHeader := imageHeader (s.instImage i)
/-- The header of the image a core runs. -/
def State.coreHeader (s : State) (c : Nat) : ImageHeader := s.instHeader ((s.core c).inst.getD 0)

/-! ### Shares (R183) -/

/-- The points of an instance over a live range: a count of 0 means to its end. -/
def instPoints (set : PSet) (i : Nat) (range : Nat × Nat) : Nat :=
  let first := set.get (K.basaltInstPointsFirst i)
  let count := set.get (K.basaltInstPointsCount i)
  if count = 0 then range.1 + range.2 - first else count

/-- Bricks of 32 points. -/
def bricksOf (points : Nat) : Nat := ceilDiv points 32

/-- The first logical core of an instance: above those of enabled instances of lower number. -/
def firstLogical (set : PSet) (i : Nat) : Nat :=
  sumN ((List.range i).map (fun j => if set.get (K.basaltInstEnable j) = 1 then set.get (K.basaltInstCores j) else 0))

/-- First brick and brick count of the m-th of `c` cores over `n` bricks. -/
def shareOf (n c m : Nat) : Nat × Nat :=
  let q := n / max 1 c
  let r := n % max 1 c
  if m < r then (m * (q + 1), q + 1) else (r * (q + 1) + (m - r) * q, q)

/-- The ACTIVE physical core with a logical number. -/
def State.physOf (s : State) (l : Nat) : Option Nat :=
  (List.range 34).find? (fun c => (s.core c).role == 0 && (s.core c).logical == l)

/-- The live range a tile's traces carry. -/
def BTile.range (t : BTile) : Nat × Nat :=
  match t.traces with
  | [] => (0, 0)
  | tr :: _ => (tr.header.first, tr.header.count)

/-- The share of a logical core in its instance's tile. -/
def State.coreShare (s : State) (i : Nat) (l : Nat) (t : BTile) : Nat × Nat :=
  let x := s.inst i
  shareOf (bricksOf (instPoints x.bank.set i t.range)) (x.par (K.basaltInstCores i)) (l - firstLogical x.bank.set i)

/-! ### Results in flight (R195, R196) -/

/-- Put a result in flight. -/
def BCore.write (x : BCore) (slot latency : Nat) (d : BDest) (v : Nat) : BCore :=
  { x with writes := x.writes ++ [⟨x.bundle + latency, slot, d, v⟩] }

/-- A result arrives. -/
def BCore.place (x : BCore) (d : BDest) (v : Nat) : BCore :=
  match d with
  | .v n => { x with v := x.v.set n (BitVec.ofNat 512 v) }
  | .s n => { x with s := x.s.set n (BitVec.ofNat 32 v) }
  | .a n => { x with a := x.a.set n (BitVec.ofNat 32 v) }
  | .mtc n => x.mtcLand n v
  | .ke n => x.keSet n v
  | .flag b => x.statusBit b true
  | .unflag b => x.statusBit b false

/-- A bit of KE_STATUS is no register two results can fight over. -/
def BDest.isFlag : BDest → Bool
  | .flag _ => true
  | .unflag _ => true
  | _ => false

/-- The register a destination names. -/
def BDest.reg : BDest → BDest
  | .mtc n => .ke n
  | d => d

/-- Land the results of one cycle (R196): for each register the highest slot is kept, and a second result sets WCOLL. Two results of one slot leave a value the spec does
not state: a fresh one. The number counts the draws. -/
def landCycle : Nat → List BWrite → BCore → Nat → BCore × Nat
  | 0, _, x, n => (x, n)
  | _ + 1, [], x, n => (x, n)
  | f + 1, w :: rest, x, n =>
    if w.dest.isFlag then landCycle f rest (x.place w.dest w.val) n
    else
      let same := rest.filter (fun y => y.dest.reg == w.dest.reg)
      let others := rest.filter (fun y => !(y.dest.reg == w.dest.reg))
      if same = [] then landCycle f others (x.place w.dest w.val) n
      else
        let top := (w :: same).foldl (fun a y => max a y.slot) 0
        let best := (w :: same).filter (fun y => y.slot == top)
        let y := x.statusBit 2 true
        match best with
        | [b] => landCycle f others (y.place b.dest b.val) n
        | _ => landCycle f others (y.place w.dest (Config.freeBits n)) (n + 1)

/-- Apply the stores that are due (R192). -/
def BCore.landStores (x : BCore) : BCore :=
  let due := x.stores.filter (fun y => decide (y.due ≤ x.bundle))
  { x with mem := due.foldl (fun m y => memWrites m y.cells) x.mem, stores := x.stores.filter (fun y => !decide (y.due ≤ x.bundle)) }

/-- Land what is due at the bundle count, bits of KE_STATUS last. -/
def BCore.land (x : BCore) (n : Nat) : BCore × Nat :=
  let now := x.writes.filter (fun y => decide (y.due ≤ x.bundle))
  let due := now.filter (fun y => !y.dest.isFlag) ++ now.filter (fun y => y.dest.isFlag)
  let r := landCycle (due.length + 1) due { x with writes := x.writes.filter (fun y => !decide (y.due ≤ x.bundle)) } n
  (r.1.landStores, r.2)

/-- Land everything in flight, cycle by cycle (R201): at most 8 cycles are outstanding. -/
def BCore.drain : Nat → BCore → Nat → BCore × Nat
  | 0, x, n => ({ x with writes := [], stores := [] }, n)
  | f + 1, x, n =>
    let r := ({ x with bundle := x.bundle + 1 } : BCore).land n
    BCore.drain f r.1 r.2

/-! ### Faults (R215 to R217) -/

/-- Hand results back with the draws they took. -/
def State.withCore (s : State) (c : Nat) (r : BCore × Nat) : State := ({ s with fresh := r.2 }).setCore c r.1

/-- The snapshot of a core (R215). -/
def BCore.snapshot (x : BCore) (phys cause : Nat) (now : Stamp) : BSnap :=
  { taken := now, cause := cause, logical := x.logical, pc := x.pc, mem := (x.stores.foldl (fun m y => memWrites m y.cells) x.mem), v := x.v, acc := x.acc, s := x.s,
    a := x.a, ke := (List.range 80).map (fun n => (x.mfcRead phys n).getD 0), undef := x.undef }

/-- Stop a core where it stands: nothing in flight, no channel busy. -/
def BCore.halt (x : BCore) : BCore :=
  { x with run := .stopped, writes := [], stores := [], open_ := false, rot := false, wait := none, branch := none, skip := none, noInt := false, tend := false,
           delay := none, frozen := false, tending := false, dma := [none, none, none, none], both := false, denied := 0 }

/-- A core failed in an instance's tile in progress: its block carries gap, and is sent at the deadline. -/
def BInst.gapTile (x : BInst) : BInst := { x with tile := x.tile.map (fun t => { t with gap := true, failed := true }) }

/-- The state code of an instance: 0 OFF, 1 RUNNING, 2 HALTED, 3 DEGRADED. -/
def BInst.code (x : BInst) : Nat :=
  if !x.on then 0 else if x.halted || x.shed then 2 else if x.lost ≠ [] then 3 else 1

/-- Publish it. -/
def State.publishInst (s : State) (i : Nat) : State := s.roSet (K.basaltInstState i) (s.inst i).code

/-- A software fault of an instance (R216): counted; it restarts at the next tile, or halts with the third within 60 s. -/
def State.instFault (s : State) (i : Nat) : State :=
  let x := s.inst i
  let recent := (s.now :: x.faults).filter (fun f => decide (s.now < f + 60 * secondTicks))
  let s1 := (s.setInst i { x with faults := recent, restart := true }).bump (K.basaltInstFaults i) 1
  if 3 ≤ recent.length ∧ !x.halted then
    ((s1.setInst i { (s1.inst i) with halted := true }).publishInst i).raise Ev.kernelHalted [u i]
  else s1

/-- The records of a failed core's share are fill (R215): those that its OUTPUT delivered before are dropped. -/
def BTile.dropShare (t : BTile) (share : Nat × Nat) (perBrick : Nat) : BTile :=
  { t with records := t.records.filter (fun r => decide (r.2.1 < share.1 * perBrick) || decide ((share.1 + share.2) * perBrick ≤ r.2.1)) }

/-- The tile in progress of an instance, after one of its cores failed: the core's records are fill, and its block carries gap (R215). -/
def State.coreGap (s : State) (i logical : Nat) : State :=
  let x := s.inst i
  s.setInst i ({ x with tile := x.tile.map (fun t => t.dropShare (s.coreShare i logical t) (s.instHeader i).perBrick) } : BInst).gapTile

/-- The event, snapshot and stop of a core fault (R215), for every kind. A core of no instance names 15, as its register does. -/
def State.coreStop (s : State) (c cause : Nat) : State :=
  let x := s.core c
  let k := ((x.inst.bind (fun i => (s.inst i).tile)).map (·.k)).getD 0
  let s1 := s.setCore c { x.halt with snap := some (x.snapshot c cause s.stamp) }
  let s2 := (s1.roSet (K.basaltCoreFaultCause c) cause).roSet (K.basaltCoreFaultPc c) x.pc
  let s3 := match x.inst with
    | some i => s2.coreGap i x.logical
    | none => s2
  s3.raise Ev.kernelFault [u (x.inst.getD 15), u c, u x.logical, u cause, u x.pc, u k]

/-- A software fault of a core. -/
def State.coreFault (s : State) (c cause : Nat) : State :=
  (s.coreStop c cause).instFault ((s.core c).inst.getD 0)

/-! ### The end of a tile (R209) -/

/-- The record of an output point and sample, fill where none arrived. -/
def BTile.recordAt (t : BTile) (h : ImageHeader) (smp q : Nat) : List Byte :=
  match t.records.find? (fun r => r.1 == smp && r.2.1 == q) with
  | some r => r.2.2
  | none => (List.range (h.recBytes / 4)).flatMap (fun _ => le 4 h.fill)

/-- The record is fill. -/
def BTile.isFill (t : BTile) (smp q : Nat) : Bool := (t.records.find? (fun r => r.1 == smp && r.2.1 == q)).isNone

/-- t0 of a KERNEL block: the launch of grid index k × T_dec. -/
def BTile.t0 (t : BTile) : Stamp :=
  match t.traces with
  | [] => 0
  | tr :: _ => tr.header.launch - (((tr.index - t.k * t.tdec) * t.delta : Nat) : Int) * tickUnits

/-- The tiles of a KERNEL block (R209). -/
def State.kernelTiles (s : State) (i : Nat) (t : BTile) : List Tile :=
  let x := s.inst i
  let h := s.instHeader i
  let sid := x.par (K.basaltInstStream i)
  let tp := max 1 ((s.stream sid).par (K.streamTilePoints sid))
  let pts := bricksOf (instPoints x.bank.set i t.range) * h.perBrick
  let total := ceilDiv pts tp
  let flag := fun (f : TraceHeader → Bool) => t.traces.any (fun tr => f tr.header)
  splitTiles (fun q at_ cnt =>
    { kind := 2, port := t.port.idx, unsettled := min t.unsettled h.samples, stitched := flag (·.stitched), dark := flag (·.dark), saturated := flag (·.saturated),
      suspect := flag (·.suspect),
      gap := t.gap && (List.range h.samples).any (fun sm => (List.range cnt).any (fun j => t.isFill sm (at_ + j))),
      thinned := flag (·.thinned), lastTile := decide (q + 1 = total), index := q, total := total, epoch := x.bank.epoch, block := t.k * h.samples, t0 := t.t0,
      interval := t.tdec * t.delta / max 1 h.samples, firstPoint := at_, points := cnt, samples := h.samples, format := 0x13, filter := 0,
      decimation := t.tdec / max 1 h.samples, filterDelay := 0,
      payload := (List.range h.samples).flatMap (fun sm => (List.range cnt).flatMap (fun j => t.recordAt h sm (at_ + j))),
      lastInput := (t.traces.getLast?.map (·.header.launch)).getD 0 }) pts tp total

/-- Send the block of an instance's tile, once (R209). -/
def State.closeTile (s : State) (i : Nat) : State :=
  let x := s.inst i
  match x.tile with
  | none => s
  | some t =>
    if t.closed then s
    else
      let s0 := s.loadDue (x.par (K.basaltInstStream i)) ((t.traces.head?.map (·.header.launch)).getD s.stamp)
      ((s0.enqueue (x.par (K.basaltInstStream i)) 2 (s0.kernelTiles i t)).setInst i { x with tile := some { t with closed := true }, left := t.unsettled - (s.instHeader i).samples }).settle (x.par (K.basaltInstStream i))

/-- The physical cores an instance holds. -/
def State.coresOf (s : State) (i : Nat) : List Nat :=
  (List.range 34).filter (fun c => (s.core c).role == 0 && (s.core c).inst == some i)

/-- Every core of the instance has reached TEND, and none failed in the tile. -/
def State.allEnded (s : State) (i : Nat) : Bool :=
  (s.coresOf i).all (fun c => (s.core c).run == .gated) && ((s.inst i).tile.map (fun t => !t.failed)).getD true
/-- No core of the instance runs. -/
def State.noneRuns (s : State) (i : Nat) : Bool :=
  (s.coresOf i).all (fun c => (s.core c).run != .init && (s.core c).run != .tile)

/-- Publish a core's role, logical number and instance. -/
def State.publishCore (s : State) (c : Nat) : State :=
  let x := s.core c
  ((s.roSet (K.basaltCoreRole c) x.role).roSet (K.basaltCoreLogical c) x.logical).roSet (K.basaltCoreInstance c) (x.inst.getD 15)

/-- A core belongs to no instance any more. -/
def State.freeCore (s : State) (c : Nat) : State :=
  (s.setCore c { (s.core c) with inst := none, run := .gated }).publishCore c

/-- An instance leaves service: its cores are free. -/
def State.instOff (s : State) (i : Nat) : State :=
  let s1 := (s.coresOf i).foldl State.freeCore s
  (s1.setInst i { BInst.off with shed := (s.inst i).shed }).publishInst i

/-- Some enabled instance of a set names a slot. -/
def slotNamed (set : PSet) (k : Nat) : Bool :=
  (List.range 8).any (fun i => set.get (K.basaltInstEnable i) == 1 && set.get (K.basaltInstSlot i) == k)

/-- Some enabled instance of a port's set that works on the port names a slot. -/
def slotNamedOn (set : PSet) (p : Port) (k : Nat) : Bool :=
  (List.range 8).any (fun i => set.get (K.basaltInstEnable i) == 1 && set.get (K.basaltInstPort i) == p.idx && set.get (K.basaltInstSlot i) == k)

/-- A slot is in use: named live, named by values whose successors have not passed F, or by an instance still under an older set (R331). -/
def State.slotInUse (s : State) (k : Nat) : Bool :=
  slotNamed s.cfg.live k || slotNamedOn s.cfg.actA.set .a k || slotNamedOn s.cfg.actB.set .b k || (List.range 8).any (fun i => (s.inst i).on && (s.inst i).par (K.basaltInstSlot i) == k)

/-- Publish a slot's state (R214): 0 EMPTY, 1 LOADED, 2 IN_USE. -/
def State.publishSlot (s : State) (k : Nat) : State :=
  s.roSet (K.basaltSlotState k) (if (s.slot k).image = [] then 0 else if s.slotInUse k then 2 else 1)

/-- Instances the live values disable leave service once their tile is closed, and slots no instance uses any more are released (R214, R331). -/
def State.basaltSettle (s : State) : State :=
  let s1 := (List.range 8).foldl (fun st i =>
    let x := st.inst i
    let p := Port.ofIdx (x.par (K.basaltInstPort i))
    let busy : Bool := match x.tile with
      | some t => !t.closed
      | none => false
    if x.on && !busy && (st.cfg.act p).set.get (K.basaltInstEnable i) == 0 then st.instOff i else st) s
  (List.range 8).foldl (fun st k =>
    let st1 : State :=
      if (st.slot k).releasing && !st.slotInUse k then (st.setSlot k { (st.slot k) with releasing := false }).raise Ev.released [u k]
      else st
    st1.publishSlot k) s1

/-! ### TEND and entry (R184, R205) -/

/-- The cells a core's data memory holds at INIT (R190). -/
def State.initMem (s : State) (i : Nat) : List Host.Cell :=
  let im := s.instImage i
  let h := imageHeader im
  memWrites [] (cellsFrom 0 (slice im (128 + 16 * h.bundles) h.dmemBytes))

/-- The arguments of an instance as the runtime writes them (R190). -/
def argCells (x : BInst) (i : Nat) : List Host.Cell :=
  cellsFrom 0x3FF00 ((List.range 16).flatMap (fun j => le 4 (x.par (K.basaltInstArg i j))))

/-- What KE_TILE_FLAGS takes from a tile's traces (R205). -/
def traceFlags (trs : List StrainTrace) : Nat :=
  let flag := fun (f : TraceHeader → Bool) => b2n (trs.any (fun tr => f tr.header))
  8 * flag (·.stitched) + 16 * flag (·.dark) + 32 * flag (·.saturated) + 64 * flag (·.suspect) + 128 * flag (·.thinned)

/-- Enter INIT or TILE (R184, R205): KE_IVEC from the header, KE_IPEND and IE cleared, cycle counts from 0, the KE_TILE_ registers set, arguments written. INIT also loads
data memory, zeroes the instance's scratch (R208) and resets every other control register. -/
def State.enterCore (s : State) (c i : Nat) (t : BTile) (init : Bool) : State :=
  let x := s.core c
  let h := s.instHeader i
  let share := s.coreShare i x.logical t
  let first := (s.inst i).par (K.basaltInstPointsFirst i)
  let ke0 := if init then keReset else x.ke
  let x0 : BCore := { x with ke := ke0, crc := if init then List.replicate 4 0xFFFFFFFFFFFFFFFF else x.crc,
                             mem := memWrites (if init then s.initMem i else x.mem) (argCells (s.inst i) i) }
  let x1 := (((((((((x0.keSet 6 h.ivec).keSet 3 0).statusBit 0 false).keSet 0x30 (t.k % 4294967296)).keSet 0x31 share.2).keSet 0x32 t.tdec).keSet 0x33
    (first + 32 * share.1)).keSet 0x34 t.flags).keSet 0x35 (6 * (t.deadline - s.now))).keSet 0x38 0
  let s1 := if init then s.setInst i { (s.inst i) with scratch := [] } else s
  s1.setCore c { x1.keSet 0x39 0 with
    run := if init then .init else .tile, pc := if init then h.initEntry else h.tileEntry, undef := if init then none else x.undef, first := true, late := false,
    needInit := false, open_ := false, rot := false, wait := none, branch := none, skip := none, noInt := false, tend := false, delay := none, frozen := false, tending := false,
    both := false, denied := 0 }

/-- The persist region of a core, as the checkpoint copies it (R217). -/
def persistRegion (h : ImageHeader) (x : BCore) : List Byte := memBytes x.mem h.persistAddr h.persistBytes

/-- A core has reached TEND with every channel idle: INIT goes on to TILE; TILE ends, its figures are published, its persist region copied, and the block is sent with the
last core (R184, R209, R217, R220). -/
def State.finishTend (s : State) (c : Nat) : State :=
  let x := s.core c
  let i := x.inst.getD 0
  match (s.inst i).tile with
  | none => s.setCore c { x.halt with run := .gated }
  | some t =>
    let y := ({ x with bundle := x.bundle + 2 } : BCore).landStores
    let x1 := { y with bundle := x.bundle, tending := false, tend := false }
    if x.run = .init then (s.setCore c x1).enterCore c i t false
    else
      let h := s.instHeader i
      let cycles := x1.keAt 0x38
      let load := if t.tdec * t.delta = 0 then 0 else min 1023 (ceilDiv (1000 * cycles) (6 * t.tdec * t.delta))
      let inst := s.inst i
      let loads := ((s.now, load) :: inst.loads).filter (fun e => decide (s.now < e.1 + secondTicks))
      let points := if h.persistBytes = 0 then inst.checkpoints
        else (x1.logical, persistRegion h x1) :: inst.checkpoints.filter (fun e => !(e.1 == x1.logical))
      let s1 := (s.setCore c { x1 with run := .gated }).setInst i { inst with loads := loads, checkpoints := points }
      let s2 := ((s1.roMax (K.basaltCoreCyclesMax c) cycles).roSet (K.basaltCoreStalls c) (x1.keAt 0x39)).roSet (K.basaltInstLoad i) (maxN (loads.map (·.2)))
      if s2.allEnded i then (s2.closeTile i).basaltSettle else s2

/-! ### Bundles (R185, R189, R198 to R200) -/

/-- A core issues: in RUNNING, inside INIT or TILE, not frozen. -/
def State.coreIssues (s : State) (c : Nat) : Bool :=
  let x := s.core c
  s.mode == .running && (x.run == .init || x.run == .tile) && !x.frozen && !x.tending

/-- The next bundle's address after the bundle at pc has issued, with the core's loop counts. A taken branch in its second delay slot redirects; within a branch's reach bundles
issue in address order; then a LOOPx with a count of 0 skips; then loop A, then loop B (R198 to R200). -/
def BCore.advance (x : BCore) : BCore :=
  let seq := { x with pc := x.pc + 1 }
  let loops : BCore :=
    match x.skip with
    | some e => { x with pc := e + 1 }
    | none =>
      let b := fun (y : BCore) =>
        if y.keAt 0xB ≠ 0 ∧ y.keAt 0xD = y.pc then
          (if 1 < y.keAt 0xB then { (y.keSet 0xB (y.keAt 0xB - 1)) with pc := y.keAt 0xC } else { (y.keSet 0xB 0) with pc := y.pc + 1 })
        else { y with pc := y.pc + 1 }
      if x.keAt 8 ≠ 0 ∧ x.keAt 0xA = x.pc then
        (if 1 < x.keAt 8 then { (x.keSet 8 (x.keAt 8 - 1)) with pc := x.keAt 9 } else b (x.keSet 8 0))
      else b x
  match x.branch with
  | some target => { seq with delay := some (2, target) }
  | none =>
    match x.delay with
    | some (2, target) => { seq with delay := some (1, target) }
    | some (_, some a) => { x with pc := a, delay := none }
    | some (_, none) => { loops with delay := none }
    | none => loops

/-- One cycle passes on a core's counters (R205): KE_CYCLE up, KE_TIMER and KE_TILE_DEADLINE down; the last count of either is KE_TIMER_EXPIRY's and KERNEL_DEADLINE's. -/
def BCore.tick (x : BCore) (n : Nat) : BCore :=
  let t := x.keAt 7
  ((x.keSet 0x38 ((x.keAt 0x38 + n) % 4294967296)).keSet 7 (if t = 0 then 0 else max 1 (t - n))).keSet 0x35 (x.keAt 0x35 - n)

/-- A bundle has issued: its rotation, the next address, one cycle, and what lands before the next bundle. -/
def BCore.issued (x : BCore) (n : Nat) : BCore × Nat :=
  let y := x.advance
  let z := if x.rot then y.keSet 0x10 ((y.rotbase + 31) % 32) else y
  let z1 := { (z.tick 1) with bundle := x.bundle + 1, open_ := false, rot := false, wait := none, branch := none, skip := none, first := false, both := false,
                              denied := if x.both && x.dmaBusy != 0 then x.denied + 1 else 0 }
  z1.land n

/-- A channel that has waited 32 cycles for an access takes both of one cycle, in which the core is frozen (R191). Whether a busy channel wanted an access in each of the cycles that
left none is not stated: a fresh value tells. -/
def State.contend (s : State) (c : Nat) : State :=
  let x := s.core c
  if x.denied < 32 then s
  else if s.freeVal 1 = 0 then s.drawn
  else (s.setCore c { ((x.tick 1).keSet 0x39 ((x.keAt 0x39 + 1) % 4294967296)) with denied := 0 }).drawn

/-- The end of a bundle: WAITD on a busy channel freezes the core at it, TEND ends the entry or freezes until the channels are idle, anything else goes on. -/
def State.closeBundle (s : State) (c : Nat) : State :=
  let x := s.core c
  match x.wait with
  | some m =>
    if Nat.land x.dmaBusy m ≠ 0 then s.setCore c { x with frozen := true, open_ := false }
    else s.withCore c (x.issued s.fresh)
  | none =>
    let s1 := (s.withCore c (x.issued s.fresh)).contend c
    if x.tend then
      (if x.dmaBusy = 0 then s1.finishTend c else s1.setCore c { (s1.core c) with tending := true })
    else s1

/-- Issue one operation of a core's bundle (R185): nothing where the core does not issue; FETCH where the bundle lies beyond the image (R215); else its effect, and with its last
operation the end of the bundle. -/
def State.issue (s : State) (c : Nat) (close : Bool) (body : State → State) : State :=
  if !s.coreIssues c then s
  else if (s.coreHeader c).bundles ≤ (s.core c).pc then s.coreFault c 1
  else
    let x := s.core c
    let s1 := body (if x.open_ then s else s.setCore c { x with open_ := true, noInt := false })
    if close && s1.coreIssues c then s1.closeBundle c else s1

/-- An operation that changes its core alone. -/
def State.issueCore (s : State) (c : Nat) (close : Bool) (f : BCore → BCore) : State :=
  s.issue c close (fun st => st.setCore c (f (st.core c)))

/-- An operation whose result is a value the spec does not state: the function takes it. -/
def State.issueFree (s : State) (c : Nat) (close : Bool) (f : Nat → BCore → BCore) : State :=
  s.issue c close (fun st => (st.setCore c (f (Config.freeBits st.fresh) (st.core c))).drawn)

end Sys2Proof.Machine
end

