-- ==== Sys2Proof/Machine/Emitter.lean ====
section
/-! DEFINITION. Emitter drive: latching, the shift chain, EMV, measurement, proof, neighbour test, failover, ageing, indicator strings
(chapter 12). -/

namespace Sys2Proof.Machine

/-! ### Channels (R292, R293) -/

/-- One channel. -/
def State.chan (s : State) (c : Nat) : Channel := s.drive.channels.getD c Channel.idle
/-- Replace one channel. -/
def State.setChan (s : State) (c : Nat) (x : Channel) : State :=
  { s with drive := { s.drive with channels := s.drive.channels.set c x } }
/-- The status of a channel: 0 OFF, 1 OK, 2 UNVERIFIED, 3 OPEN, 4 SHORT, 5 NEIGHBOUR, 6 PARTIAL. -/
def State.chStatus (s : State) (c : Nat) : Nat := s.roGet (K.emitChStatus c)
/-- Set a status. -/
def State.setChStatus (s : State) (c v : Nat) : State := s.roSet (K.emitChStatus c) v
/-- A channel in OPEN, SHORT or NEIGHBOUR. -/
def State.chBad (s : State) (c : Nat) : Bool := s.chStatus c == 3 || s.chStatus c == 4 || s.chStatus c == 5

/-- The LSB of a channel in µA (R292). -/
def chLsb (c : Nat) : Nat :=
  if c ≤ 1 ∨ c = 4 ∨ c = 7 then 100 else if c = 8 then 500 else if c ≤ 6 then 300 else 5
/-- The highest code a channel is driven at: the top of its range, or the derated limit of a pump (R292, R305). -/
def chLimit (c : Nat) : Nat := if c ≤ 1 then 3000 else if c ≤ 7 then 2800 else 4000
/-- True for booster channels. -/
def isBooster (c : Nat) : Bool := c == 2 || c == 3 || c == 5 || c == 6
/-- The other twin of a booster. -/
def twinOf (c : Nat) : Nat := if c = 2 then 3 else if c = 3 then 2 else if c = 5 then 6 else 5
/-- The first channel of a port's booster. -/
def boosterOf (p : Port) : Nat := 2 + 3 * p.idx
/-- A port's preamplifier channel. -/
def preOf (p : Port) : Nat := 4 + 3 * p.idx
/-- The pairs of pins that lie side by side (R302). -/
def neighbourPairs : List (Nat × Nat) := [(0, 1), (2, 3), (3, 4), (5, 6), (6, 7), (7, 8), (9, 10)]

/-- A channel is driven only in the states of R293. -/
def State.mayDrive (s : State) (c : Nat) : Bool := s.mode.working || (decide (9 ≤ c) && s.mode == .fault)

/-- The port whose booster pumps may launch: at least one twin and PRE neither OPEN, SHORT nor NEIGHBOUR (R377, R430). -/
def State.pumpsOk (s : State) (p : Port) : Bool :=
  !(s.chBad (preOf p)) && (!(s.chBad (boosterOf p)) || !(s.chBad (boosterOf p + 1)))

/-! ### Latching (R82, R295) -/

/-- The channels that latch on a port's strobe. S0, S1, LED_A and LED_B go with port A while it has frames, else with port B; DTS_SRC with the port its next pulse
serves. -/
def strobeChannels (p : Port) (framesA : Bool) (dtsTurn : Port) : List Nat :=
  (match p with
   | .a => [2, 3, 4]
   | .b => [5, 6, 7]) ++
  (if (p = .a ∧ framesA) ∨ (p = .b ∧ framesA = false) then [0, 1, 9, 10] else []) ++
  (if p = dtsTurn then [8] else [])

/-- Latch one channel: ALT at APR entry, back at APR exit, else a validated SHADOW (R295). -/
def Channel.latch (x : Channel) (enterApr leaveApr : Bool) : Channel :=
  let y := if enterApr then { x with onAlt := true } else if leaveApr then { x with onAlt := false } else x
  if y.onAlt = false ∧ y.shadowValid then { y with active := y.shadow, shadowValid := false, step := 0 } else { y with step := 0 }

/-- Latch the channels of a list; only those the APR rule moves (the port's own) take or leave ALT. -/
def State.latchAll (s : State) (cs : List Nat) (own : List Nat) (enterApr leaveApr : Bool) : State :=
  cs.foldl (fun st c => st.setChan c ((st.chan c).latch (enterApr && own.contains c) (leaveApr && own.contains c))) s

/-- The word a channel's latched table holds for its step. -/
def Channel.word (x : Channel) : BitVec 16 := (if x.onAlt then x.alt else x.active).getD x.step 0

/-- The code of a word: 0 while it is off (R294). -/
def wordCode (w : BitVec 16) : Nat := if w.getLsbD 12 then (w.extractLsb' 0 12).toNat else 0

/-- The port of a pump channel. -/
def chPort (c : Nat) : Port := if 5 ≤ c ∧ c ≤ 7 then .b else .a

/-- The launch clamp holds a port's boosters off (R47, R297). -/
def Emitter.clamped (d : Emitter) : Port → Bool
  | .a => d.clampA
  | .b => d.clampB

/-- Clamp or release a port's boosters. -/
def State.setClamp (s : State) (p : Port) (v : Bool) : State :=
  match p with
  | .a => { s with drive := { s.drive with clampA := v } }
  | .b => { s with drive := { s.drive with clampB := v } }

/-- A seed is driven: LOCKING, LOCKED, in a relock attempt, or faulted with the switch away from it still to come (R36, R38, R41). -/
def State.seedDriven (s : State) (c : Nat) : Bool :=
  let x := if c = 0 then s.opt.seed0 else s.opt.seed1
  let v := s.roGet (if c = 0 then K.opticalSeedS0Status else K.opticalSeedS1Status)
  let leaving : Bool := match s.opt.switch with
    | some w => w.fault && decide (w.to_ = (if c = 0 then Seed.s1 else Seed.s0))
    | none => false
  v == 1 || v == 2 || (v == 3 && (x.trying || leaving))

/-- When the OPTICAL_COIL test of a self-test begins: after the CONVERTER test's 2 s (R403). -/
def SelfTest.coilFrom (x : SelfTest) : Tick := x.since + (if bitOf x.mask 0 && !(bitOf x.skipped 0) then 2 * secondTicks else 0)

/-- The port whose reference coil the OPTICAL_COIL self-test lights now: 3 s on port A, then 3 s on port B. -/
def State.coilPort (s : State) : Option Port :=
  let x := s.health.selftest
  let from_ := x.coilFrom
  if s.mode = .ready ∧ x.running ∧ bitOf x.mask 1 ∧ bitOf x.skipped 1 = false ∧ from_ ≤ s.now then
    (if s.now < from_ + 3 * secondTicks then some .a else if s.now < from_ + 6 * secondTicks then some .b else none)
  else none

/-- What keeps a channel off, or at a minimum, whatever its tables hold: a seed that is not driven, a looped port's preamplifier (R59), and in READY the boosters and the DTS source but for the
coil test (R44). The answer is the code it is held at. -/
def State.chHeld (s : State) (c : Nat) : Option Nat :=
  if c ≤ 1 then (if s.seedDriven c then none else some 0)
  else if (c = 4 ∧ s.opt.portA.looped) ∨ (c = 7 ∧ s.opt.portB.looped) then some 0
  else if s.mode = .ready ∧ isBooster c then some (if s.coilPort = some (chPort c) then Config.pumpMinimum c else 0)
  else if s.mode = .ready ∧ c = 8 then some 0
  else none

/-- The current a channel is set to, in µA, by the first entry of R297 that applies (a proof pulse aside). -/
def State.chSetting (s : State) (c : Nat) : Nat :=
  if s.mayDrive c = false then 0
  else if isBooster c && s.drive.clamped (chPort c) then 0
  else if s.chStatus c = 3 ∨ s.chStatus c = 4 then 0
  else
    match s.chHeld c, (s.chan c).sum with
    | some code, _ => min code (chLimit c) * chLsb c
    | none, some code => min code (chLimit c) * chLsb c
    | none, none => min (wordCode (s.chan c).word) (chLimit c) * chLsb c

/-! ### EMV (R298, R299) -/

/-- V_f in mV at a current in 0.1 mA, by a straight line through the newest and the oldest measurement. -/
def vfModel (fit : List (Nat × Nat)) (i : Nat) : Nat :=
  match fit with
  | [] => 0
  | (i1, v1) :: _ =>
    match fit.getLast? with
    | none => v1
    | some (i0, v0) =>
      if i1 = i0 then v1
      else ((v0 : Int) + ((v1 : Int) - v0) * ((i : Int) - i0) / ((i1 : Int) - i0)).toNat

/-- The largest code any of a channel's tables can command, or its failover sum. -/
def Channel.peak (x : Channel) : Nat :=
  match x.sum with
  | some n => max n (maxN (x.active.map wordCode))
  | none => maxN ((x.active ++ x.shadow ++ x.alt).map wordCode)

/-- The need of a channel in mV (R298). -/
def State.chNeed (s : State) (c : Nat) : Nat :=
  let i := min (s.chan c).peak (chLimit c) * chLsb c / 100
  if i = 0 then 0 else vfModel (s.chan c).fit i + i / 100 + 600

/-- EMV in mV at a tick: it moves towards its target at 20 mV/µs (R298). -/
def State.emvNow (s : State) : Nat :=
  let v := s.roGet K.emitEmvVoltage
  let target := s.roGet K.emitEmvTarget
  let d := (s.now - s.drive.emvAt) / 10
  if v ≤ target then min target (v + d) else max target (v - d)

/-- Bring the reported EMV to now, then set a new target held within 2.5 V to 12 V. -/
def State.setEmvTarget (s : State) (target : Nat) : State :=
  let s1 := (s.roSet K.emitEmvVoltage s.emvNow)
  ({ s1 with drive := { s1.drive with emvAt := s1.now } }).roSet K.emitEmvTarget (max 2500 (min 12000 target))

/-- The target R298 gives: the largest need over channels 0 to 7. -/
def State.retarget (s : State) : State := s.setEmvTarget (maxN ((List.range 8).map s.chNeed))

/-! ### Faults and failover (R303, R304) -/

/-- EV_EMITTER_FAULT with the channel, the verdict's status code and the time. -/
def State.emitterFault (s : State) (c verdict : Nat) : State :=
  (s.setChStatus c verdict).raise Ev.emitterFault [u c, u verdict, tsVal s.stamp]

/-- A booster twin fails: it is off, the survivor is commanded to the sum within its derated limit (R304). The end of recovery is 2 ms later. -/
def State.failover (s : State) (c : Nat) : State :=
  let w := twinOf c
  let total := wordCode (s.chan c).word + wordCode (s.chan w).word
  if s.chBad w then s
  else
    let s1 := s.setChan w { s.chan w with sum := some (min total (chLimit w)) }
    let s2 := { s1 with drive := match chPort c with
      | .a => { s1.drive with rampA := true }
      | .b => { s1.drive with rampB := true } }
    let s3 := s2.raise Ev.pumpFault [u c, tsVal s2.stamp, tsVal (s2.stamp + 400000 * tickUnits)]
    let s4 := if chLimit w < total then s3.raise Ev.pumpDerated [u w] else s3
    s4.retarget

/-- A channel is declared OPEN or SHORT. -/
def State.declare (s : State) (c verdict : Nat) : State :=
  let s1 := s.emitterFault c verdict
  if isBooster c then s1.failover c else s1

/-- A pair is declared NEIGHBOUR (R302, R303): a booster pair is driven as one, its lower channel carrying the sum. -/
def State.declareNeighbour (s : State) (x y : Nat) : State :=
  let s1 := (s.emitterFault x 5).emitterFault y 5
  if isBooster x ∧ twinOf x = y then
    let total := wordCode (s1.chan x).word + wordCode (s1.chan y).word
    (s1.setChan x { s1.chan x with sum := some (min total (chLimit x)) }).setChan y { s1.chan y with sum := some 0 }
  else s1

/-! ### The shift chain (R296) -/

/-- CRC-16/CCITT over words, most significant bit first, from an all-ones start. -/
def crc16Bit (v : Nat) (b : Bool) : Nat :=
  let top := (v / 32768 % 2 = 1) != b
  if top then Nat.xor (v * 2 % 65536) 0x1021 else v * 2 % 65536

/-- CRC-16/CCITT over the bits of a number of width `w`, most significant first. -/
def crc16Bits : Nat → Nat → Nat → Nat
  | 0, _, v => v
  | w + 1, x, v => crc16Bits w x (crc16Bit v (bitOf x w))

/-- CRC-16/CCITT over 16-bit words (R296). -/
def crc16Words (ws : List (BitVec 16)) : Nat := ws.foldl (fun v w => crc16Bits 16 w.toNat v) 0xFFFF

/-- What a load does to one stage: nothing without header bit 15, nothing and a failure where its check fails, else the named table. -/
def stageLoad (x : Channel) (header : BitVec 16) (words : List (BitVec 16)) (check : BitVec 16) : Channel × Bool :=
  if header.getLsbD 15 = false then (x, true)
  else if crc16Words words ≠ check.toNat then (x, false)
  else if header.getLsbD 14 then ({ x with alt := words }, true)
  else ({ x with shadow := words, shadowValid := true }, true)

/-- Load stages 0 to n − 1. The count of failed checks comes with the channels. -/
def loadStages : List Channel → List (BitVec 16) → List (List (BitVec 16)) → List (BitVec 16) → List Channel × Nat
  | [], _, _, _ => ([], 0)
  | x :: xs, hs, ws, cs =>
    let r := stageLoad x (hs.headD 0) (ws.headD []) (cs.headD 0)
    let rest := loadStages xs hs.tail ws.tail cs.tail
    (r.1 :: rest.1, rest.2 + (if r.2 then 0 else 1))

/-- The 374 words of a load in chain order. -/
def chainWords : List (BitVec 16) → List (List (BitVec 16)) → List (BitVec 16) → List (BitVec 16)
  | [], _, _ => []
  | h :: hs, ws, cs => (h :: ws.headD []) ++ [cs.headD 0] ++ chainWords hs ws.tail cs.tail

/-- CHAIN_LOAD_COMPLETE: each stage checks its words; the returned bits are compared with the record of the last load; one repeat, then EV_EMIT_CHAIN. -/
def execChainLoadComplete (t : Tick) (headers : List (BitVec 16)) (words : List (List (BitVec 16))) (checks : List (BitVec 16))
    (readback : List (List (BitVec 16))) (s : State) : Out :=
  let s0 := s.at t
  let r := loadStages s0.drive.channels headers words checks
  let mismatch : Nat := b2n (decide (s0.drive.chain ≠ []) && decide (readback.flatten ≠ s0.drive.chain))
  let errors := r.2 + mismatch
  let s1 : State := { s0 with drive := { s0.drive with channels := r.1, chain := chainWords headers words checks,
                                                       repeating := decide (errors ≠ 0) && !s0.drive.repeating } }
  let s2 := (s1.bump K.emitChainErrors errors).emit (.chainLoad (chainWords headers words checks))
  let s3 := if errors ≠ 0 ∧ s0.drive.repeating then s2.raise Ev.emitChain [u errors] else s2
  .next s3.retarget

/-! ### Measurement (R299, R300) -/

/-- The supply of the LED strings in mV, within the limits of its output (R292, chapter 12's tables; log entry 4). -/
def ledSup : Nat := 28500 + Config.ledSupMv % 3001

/-- A short by its voltage criterion (R300). -/
def State.isShort (_s : State) (c pinMv : Nat) : Bool :=
  if 9 ≤ c then decide (ledSup ≤ pinMv + 500)
  else decide (pinMv < (if c ≤ 1 then 600 else if c ≤ 7 then 700 else 800))

/-- Headroom: EMV − V_pin − I × 0.1 Ω in mV (R299); `i` in 0.1 mA. -/
def State.headroom (s : State) (pinMv i : Nat) : Int := (s.emvNow : Int) - pinMv - (i / 100 : Nat)

/-- Keep the EMV target right after a measurement of a channel on EMV (R299). -/
def State.emvStep (s : State) (headroomEvent : Bool) : State :=
  if headroomEvent then
    let s1 := if 12000 ≤ s.emvNow then (s.bump K.emitEmvLimitCount 1).raise Ev.emvLimit [] else s
    s1.setEmvTarget (s1.roGet K.emitEmvTarget + 500)
  else
    let on := (List.range 8).filter (fun c => decide (s.chSetting c ≠ 0))
    let least := on.foldl (fun m c => min m (s.roInt (K.emitChHeadroom c))) 12000
    if least < 450 then ({ s with drive := { s.drive with ampleSince := none } }).setEmvTarget (s.roGet K.emitEmvTarget + 50)
    else if 750 < least then
      match s.drive.ampleSince with
      | none => { s with drive := { s.drive with ampleSince := some s.now } }
      | some t0 =>
        if t0 + 20000000 ≤ s.now then
          ({ s with drive := { s.drive with ampleSince := some s.now } }).setEmvTarget (s.roGet K.emitEmvTarget - 20)
        else s
    else { s with drive := { s.drive with ampleSince := none } }

/-- A Good verdict verifies the channel. -/
def State.verified (s : State) (c : Nat) : State :=
  let s1 := s.setChan c { s.chan c with verdict := .none, verifiedAt := s.now }
  let s2 := s1.roSet (K.emitChLastVerified c) (tsBits s1.stamp)
  if s2.chStatus c = 0 ∨ s2.chStatus c = 2 then s2.setChStatus c 1 else s2

/-- A partial short of an LED string (R300). -/
def State.partialShort (s : State) (c pinMv : Nat) : Bool :=
  let x : Port := if c = 9 then .a else .b
  decide (9 ≤ c) && decide (2 * (ledSup - pinMv) + s.pG (K.ledVfMv x) < 2 * s.pG (K.ledCount x) * s.pG (K.ledVfMv x))

/-- A measurement of a channel: current in 0.1 mA, pin voltage in mV, and the pin of a neighbour that is off. A clamped or unset channel gives no verdict (R308). -/
def State.driveMeasured (s0 : State) (ch : Nat) (current : Nat) (pinMv : Nat) (neighbour : Option (Nat × Nat)) : State :=
  let setting := s0.chSetting ch
  if 11 ≤ ch ∨ setting = 0 ∨ s0.chBad ch then s0
  else
    let ua := current * 100
    let vf := if 9 ≤ ch then ledSup - pinMv else pinMv
    let s1 := ((s0.roSet (K.emitChCurrent ch) current).roSet (K.emitChVoltage ch) vf).roSetInt (K.emitChHeadroom ch)
      (if ch ≤ 7 then s0.headroom pinMv current else 0)
    let short := s1.isShort ch pinMv
    let low : Bool := decide (ua * 10 < setting)
    let isOpen : Bool := low && (decide (8 ≤ ch) || decide (s1.chNeed ch ≤ s1.emvNow))
    let between : Bool := decide (setting ≤ ua * 10) && decide (ua * 10 < 9 * setting)
    let good : Bool := decide (9 * setting ≤ ua * 10) && decide (ua * 10 ≤ 11 * setting)
    let x := s1.chan ch
    let s2 : State :=
      if short then
        (if x.verdict = .short then s1.declare ch 4 else s1.setChan ch { x with verdict := .short })
      else if isOpen then
        (if x.verdict = .open_ then s1.declare ch 3 else s1.setChan ch { x with verdict := .open_ })
      else if good then (s1.setChan ch { x with fit := ((current, vf) :: x.fit).take 16 }).verified ch
      else s1.setChan ch { x with verdict := .none }
    let s3 := if s2.partialShort ch pinMv && !short && s2.chStatus ch != 6
      then (s2.setChStatus ch 6).raise Ev.ledFault [u ch] else s2
    let s4 := match neighbour with
      | some (y, mv) =>
        if ((neighbourPairs.contains (ch, y) || neighbourPairs.contains (y, ch)) && s3.chSetting y == 0 && !(s3.chBad y)
            && decide (((pinMv : Int) - mv).natAbs ≤ 50)) then s3.declareNeighbour (min ch y) (max ch y) else s3
      | none => s3
    if ch ≤ 7 then s4.emvStep (between && !short) else s4

/-- FAILOVER_RAMP_COMPLETE: the survivor stands at the sum, EMV at its need (R304). -/
def execFailoverRampComplete (t : Tick) (p : Port) (s : State) : Out :=
  let s0 := s.at t
  let ramping := match p with
    | .a => s0.drive.rampA
    | .b => s0.drive.rampB
  if ramping then
    .next ({ s0 with drive := match p with
      | .a => { s0.drive with rampA := false }
      | .b => { s0.drive with rampB := false } }).retarget
  else .next s0

/-! ### Neighbour test (R302, R303) -/

/-- A faulted channel is retested at READY entry: it returns to service unless its proof measurement fails, which the pair (c, c) tells (R303). -/
def State.retest (s : State) (shorts : List (Nat × Nat)) : State :=
  (List.range 11).foldl (fun st c => if st.chBad c && !(shorts.contains (c, c)) then
    (st.setChStatus c 2).setChan c { st.chan c with sum := none, verdict := .none } else st) s

/-- The neighbour test finds some pairs shorted. -/
def State.neighbourTest (s : State) (shorts : List (Nat × Nat)) : State :=
  neighbourPairs.foldl (fun st e => if shorts.contains e then st.declareNeighbour e.1 e.2 else st) s

/-! ### Ageing and indicator strings (R306, R307) -/

/-- PUMP_AGEING_RECORD: hourly, the current that holds the output against the factory current; `current` in 0.1 mA, `predicted` single-twin current in mA. -/
def execPumpAgeingRecord (t : Tick) (ch : Nat) (current : Nat) (predicted : Nat) (s : State) : Out :=
  let s0 := s.at t
  if 9 ≤ ch then .next s0
  else
    let factory := Config.factoryCurrent ch
    let x := s0.chan ch
    let charge := x.chargeRest + current
    let s1 := (s0.roSet (K.emitChAgeing ch) (if factory = 0 then 4096 else current * 4096 / factory)).bump (K.emitChHours ch) 1
    let s2 := (s1.bump (K.emitChCharge ch) (charge / 100)).setChan ch { x with chargeRest := charge % 100 }
    if isBooster ch && decide (800 ≤ predicted) then
      let s3 : State := { s2 with health := { s2.health with pumpAged := true } }
      .next (s3.raise Ev.pumpAgeing [u ch, u predicted])
    else .next s2

/-- The word of an LED string: level, on, duty (R294, R307). -/
def State.ledWord (s : State) (x : Port) (lit : Bool) : BitVec 16 :=
  BitVec.ofNat 16 (s.pG (K.ledLevel x) + 4096 * b2n (lit && s.pG (K.ledOn x) == 1 && s.pG (K.ledCount x) != 0) + 8192 * s.pG (K.ledDuty x))

/-- LED_BLINK: half of led.x.blink_ms has passed; the string changes between on and off at its next latch. -/
def execLedBlink (t : Tick) (x : Port) (s : State) : Out :=
  let s0 := s.at t
  let c := 9 + x.idx
  let half := s0.pG (K.ledBlinkMs x) * msTicks / 2
  let last := match x with
    | .a => s0.drive.blinkAtA
    | .b => s0.drive.blinkAtB
  let lit := match x with
    | .a => s0.drive.blinkA
    | .b => s0.drive.blinkB
  if half ≠ 0 ∧ last + half ≤ s0.now ∧ s0.mayDrive c ∧ s0.pG (K.ledCount x) ≠ 0 then
    let d := match x with
      | .a => { s0.drive with blinkA := !lit, blinkAtA := s0.now }
      | .b => { s0.drive with blinkB := !lit, blinkAtB := s0.now }
    let s1 : State := { s0 with drive := d }
    .next (s1.setChan c { s1.chan c with shadow := List.replicate 32 (s1.ledWord x (!lit)), shadowValid := true })
  else .next s0

/-- Every channel of a list goes off at once. -/
def State.channelsOff (s : State) (cs : List Nat) : State :=
  cs.foldl (fun st c => (st.setChan c { Channel.idle with alt := (st.chan c).alt, verifiedAt := (st.chan c).verifiedAt, fit := (st.chan c).fit,
                                                          sum := (st.chan c).sum, chargeRest := (st.chan c).chargeRest }).setChStatus c (if st.chBad c then st.chStatus c else 0)) s

end Sys2Proof.Machine
end

