-- ==== Sys2Proof/Machine/Deconvolve.lean ====
section
/-! DEFINITION. Frame-periodic deconvolution (R155). In the frequency domain the rule divides DFT(a)·conj(DFT(s)) by |DFT(s)|² + 2⁻²⁰·|DFT(s)[0]|²; DFT(s)[0] is the sum of s. Its h is the one
solution of the circular equations Sᵀ(S h) + λ h = Sᵀ a with λ = 2⁻²⁰·(Σ s)², which conjugate gradients reach exactly in at most N steps of rational arithmetic. -/

namespace Sys2Proof.Machine

/-- The inner product. -/
def dotQ (a b : List Rat) : Rat := (a.zip b).foldl (fun acc e => acc + e.1 * e.2) 0

/-- a + c·b. -/
def addScaled (a : List Rat) (c : Rat) (b : List Rat) : List Rat := (a.zip b).map (fun e => e.1 + c * e.2)

/-- Circular convolution: entry k is Σ_j s[j]·h[k − j]. -/
def circular (s h : List Rat) : List Rat :=
  let n := s.length
  (List.range n).map (fun k => dotQ s ((List.range n).map (fun j => h.getD ((k + n - j) % n) 0)))

/-- Circular correlation: entry k is Σ_j s[j]·a[k + j]. -/
def correlate (s a : List Rat) : List Rat :=
  let n := s.length
  (List.range n).map (fun k => dotQ s ((List.range n).map (fun j => a.getD ((k + j) % n) 0)))

/-- The equations' left side. -/
def normalEq (s : List Rat) (reg : Rat) (v : List Rat) : List Rat := addScaled (correlate s (circular s v)) reg v

/-- Conjugate gradients from x, with residue r and direction d, over at most so many steps. -/
def gradientSteps (s : List Rat) (reg : Rat) : Nat → List Rat → List Rat → List Rat → List Rat
  | 0, x, _, _ => x
  | n + 1, x, r, d =>
    let rr := dotQ r r
    if rr = 0 then x
    else
      let q := normalEq s reg d
      let step := rr / dotQ d q
      let r1 := addScaled r (-step) q
      gradientSteps s reg n (addScaled x step d) r1 (addScaled r1 (dotQ r1 r1 / rr) d)

/-- h of R155 for a mean frame a and an envelope s. -/
def deconvolve (a s : List Rat) : List Rat :=
  let total := sumQ s
  let b := correlate s a
  gradientSteps s (total * total / 1048576) s.length (s.map (fun _ => 0)) b b

end Sys2Proof.Machine
end

