-- ==== Sys2Proof/Machine/Raman.lean ====
section
/-! DEFINITION. Raman temperature sensing: integrations, the dark frame, feedback, results (chapter 06). -/

namespace Sys2Proof.Machine

/-- One port's Raman channels. -/
def State.dts (s : State) : Port → DtsPort
  | .a => s.raman.a
  | .b => s.raman.b
/-- Replace them. -/
def State.setDts (s : State) (p : Port) (x : DtsPort) : State :=
  match p with
  | .a => { s with raman := { s.raman with a := x } }
  | .b => { s with raman := { s.raman with b := x } }

/-- The channels of a port are not idle (R152, R367); the undo of step 1 lets them resume (R368). -/
def State.dtsOn (s : State) (p : Port) : Bool :=
  s.pI p (K.portDtsEnable p) == 1 && s.mode == .running && (!(bitOf (s.roGet K.powerShedSteps) 0) || s.power.undoing == some 1)

/-- A port's period and the index of the TAI instant at or before a time (R150). -/
def gridOf (x : Stamp) (period : Nat) : Int := x / (max 1 period * secondUnits)

/-- An integration ends (R151): SHORT where no grid boundary ends it; PARTIAL where none began it, unless a grid boundary ends it one period later. -/
def Integ.finish (x : Integ) (endAt : Stamp) (atGrid : Bool) : Integ :=
  let whole : Bool := atGrid && decide (endAt - x.t0 = (x.period : Int) * secondUnits)
  { x with short := !atGrid, partialRun := !x.fromGrid && !whole, endAt := endAt,
           interval := (roundDiv (endAt - x.t0) 65536000000).toNat }

/-- The integration in progress on a port ends and waits to be published. -/
def State.dtsEnd (s : State) (p : Port) (endAt : Stamp) (atGrid : Bool) : State :=
  let d := s.dts p
  match d.cur with
  | none => s
  | some x => s.setDts p { d with cur := none, done := d.done ++ [x.finish endAt atGrid] }

/-- The APD bias of a port's channels is off (R152). -/
def State.biasOff (s : State) (p : Port) : State := (s.roSet (K.portDtsBandApdBias p 0) 0).roSet (K.portDtsBandApdBias p 1) 0

/-- The port's frames end, or its channels go idle, within a frame: the integration ends at the end of its last whole frame (R151; log entry 27). -/
def State.dtsCut (s : State) (p : Port) : State :=
  let f := match p with
    | .a => s.opt.frameA
    | .b => s.opt.frameB
  let d := s.dts p
  if f.gap || f.groupNext == 0 then s.dtsEnd p s.stamp false
  else (s.setDts p { d with cur := d.cur.map (fun x => { x with frames := x.frames - 1 }) }).dtsEnd p (s.stampAt f.last) false

/-- Note a fibre event on the integration in progress (FIBRE_EVENT). -/
def State.dtsFibreEvent (s : State) (p : Port) : State :=
  let d := s.dts p
  s.setDts p { d with cur := d.cur.map (fun x => { x with fibreEvent := true }) }

/-! ### Feedback and bias (R144, R145) -/

/-- The feedback a band begins an integration with, and the schedule left: FIXED at its setting; AUTO moves by one scheduled step that is at least 200 µs old. -/
def State.nextFeedback (s : State) (p : Port) (b : Nat) (sched : Option (Bool × Tick)) : Nat × Option (Bool × Tick) :=
  let now := s.roGet (K.portDtsBandFeedback p b)
  if s.pI p (K.portDtsBandFeedbackMode p b) = 1 then (s.pI p (K.portDtsBandFeedbackFixed p b), none)
  else
    match sched with
    | some (up, at_) => if at_ + 40000 ≤ s.now then (if up then min 2 (now + 1) else now - 1, none) else (now, sched)
    | none => (now, none)

/-- The last thermistor reading taken at least 200 µs ago. -/
def State.thermFor (s : State) (l : List (Nat × Tick)) : Option Nat := (l.find? (fun e => decide (e.2 + 40000 ≤ s.now))).map (·.1)

/-- A band begins an integration: feedback and bias in force, tracker and bank clear. -/
def State.bandStart (s : State) (p : Port) (b : Nat) (feedback : Nat) (therm : List (Nat × Tick)) : State × Band :=
  let want : Option Int := (s.thermFor therm).map (fun r => Config.apdBiasMv (2 * p.idx + b) (s.pI p (K.portDtsBandApdGain p b)) r)
  let s1 := s.roSet (K.portDtsBandFeedback p b) feedback
  let s2 := match want with
    | some w => s1.roSet (K.portDtsBandApdBias p b) (clampInt 30000 75000 w).toNat
    | none => s1
  let limit : Bool := match want with
    | some w => decide (w < 30000) || decide (75000 < w)
    | none => false
  (s2, ⟨[], 16383, 0, true, 0, feedback, limit⟩)

/-- An integration begins at a start of a frame of `tf` ticks: INTEGRATION-class values load, the bank switches, and the frame is dark (R31, R147, R153). -/
def State.dtsBegin (s : State) (p : Port) (fromGrid : Bool) (tf : Nat) : State :=
  let s0 : State := { s with cfg := match p with
    | .a => { s.cfg with intA := s.cfg.actA }
    | .b => { s.cfg with intB := s.cfg.actB } }
  let d := { s0.dts p with forced := false }
  if s0.dtsOn p = false then (s0.setDts p { d with cur := none }).biasOff p
  else
    let fa := s0.nextFeedback p 0 d.stepAs
    let fs := s0.nextFeedback p 1 d.stepS
    let ra := s0.bandStart p 0 fa.1 d.thermAs
    let rs := ra.1.bandStart p 1 fs.1 d.thermS
    let s1 := (rs.1.roSet (K.portDtsPulseCount p) 0).roSet (K.portDtsIntegrationIndex p) d.raised
    let period := s1.pI p (K.portDtsPeriod p)
    let x : Integ :=
      { number := d.raised, bank := s1.cfg.integ p, t0 := s1.stamp, tf := tf, plan := (s1.cfg.act p).set.get (K.portSlotPlan p),
        tau := (s1.cfg.act p).set.get (K.portChirpDuration p), period := period, grid := gridOf s1.stamp period, fromGrid := fromGrid,
        dark := true, frames := 1, used := 0, pulses := 0, bandAs := ra.2, bandS := rs.2, suspect := false,
        unregulated := s1.roGet (K.opticalCoilUnregulated p) == 1, fibreEvent := false, pathSkipped := false, short := false, partialRun := false,
        offAs := s1.roGet (K.portDtsBandOffset p 0), offS := s1.roGet (K.portDtsBandOffset p 1), fault := d.faultAs || d.faultS, peaks := 0, energy := 0,
        coil := FeMean.none_, cal2 := FeMean.none_, nextCheck := s1.now + secondTicks, endAt := s1.stamp, interval := 0 }
    let s2 := ((s1.roSet (K.portDtsBandTrackerMin p 0) 16383).roSet (K.portDtsBandTrackerMax p 0) 0)
    let s3 := ((s2.roSet (K.portDtsBandTrackerMin p 1) 16383).roSet (K.portDtsBandTrackerMax p 1) 0)
    s3.setDts p { d with cur := some x, raised := d.raised + 1, stepAs := fa.2, stepS := fs.2 }

/-! ### Folding (R146 to R149) -/

/-- Add a frame's codes to a bank, bin by bin. -/
def addBins : List Nat → List Nat → List Nat
  | acc, [] => acc
  | [], c :: cs => c :: addBins [] cs
  | a :: as, c :: cs => (a + c) :: addBins as cs

/-- Fold one frame into a band. -/
def Band.fold (b : Band) (codes : List Nat) : Band :=
  { b with acc := addBins b.acc codes, lo := codes.foldl min b.lo, hi := codes.foldl max b.hi }

/-- A peak of 0.01 dBm in 2⁻³⁰ mW. -/
def peakPower (v : Int) : Nat :=
  let e := exp2Fix (v * 14267572527 / 1000)
  if 0 ≤ e.2 then e.1 * 2 ^ e.2.toNat / 2 ^ 30 else e.1 / 2 ^ (30 + (-e.2).toNat)

/-- The frame that has ended enters the port's integration (R147): folded while EMITTING throughout, not the dark frame, not thinned, with a code for each of its T_f bins (R146). -/
def State.dtsFold (s : State) (p : Port) (obs : FrameObs) (thinned : Bool) : State :=
  let d := s.dts p
  match d.cur with
  | none => s
  | some x =>
    let good : Bool := d.lit && s.roGet (K.portState p) == 3 && !x.dark && !thinned && obs.ramanAs.length == x.tf && obs.ramanS.length == x.tf
    let y : Integ :=
      if good then { x with used := x.used + 1, pulses := x.pulses + b2n d.pulsed, bandAs := x.bandAs.fold obs.ramanAs, bandS := x.bandS.fold obs.ramanS,
                            suspect := x.suspect || d.suspect, peaks := x.peaks + sumN (obs.peaks.map peakPower), energy := x.energy + (if d.pulsed then obs.dtsEnergy else 0) }
      else x
    let z := { y with dark := false, unregulated := y.unregulated || s.roGet (K.opticalCoilUnregulated p) == 1 }
    let s1 := s.setDts p { d with cur := some z }
    if good then
      ((((s1.roSet (K.portDtsBandTrackerMin p 0) z.bandAs.lo).roSet (K.portDtsBandTrackerMax p 0) z.bandAs.hi).roSet
        (K.portDtsBandTrackerMin p 1) z.bandS.lo).roSet (K.portDtsBandTrackerMax p 1) z.bandS.hi)
    else s1

/-- At a start of a frame of `tf` ticks: the boundary of R150 or R151 where one falls here, else one more frame. -/
def State.dtsStrobe (s : State) (p : Port) (first : Bool) (tf : Nat) : State :=
  let d := s.dts p
  let period := match d.cur with
    | some x => x.period
    | none => s.pI p (K.portDtsPeriod p)
  let atGrid : Bool := match d.cur with
    | some x => decide (gridOf s.stamp period ≠ x.grid)
    | none => decide (gridOf s.stamp period ≠ gridOf (s.stamp - (s.roGet (K.portFramePeriodLive p) : Int) * tickUnits) period)
  if first || atGrid || d.forced then ((s.dtsEnd p s.stamp atGrid).dtsBegin p atGrid tf)
  else s.setDts p { d with cur := d.cur.map (fun x => { x with frames := x.frames + 1 }) }

/-! ### The dark frame (R153, R154) -/

/-- Path error of a band, unit 0.01 %, offset and mean in 1/16 code: the expected step is half the span above the offset. -/
def pathError (offset mean : Nat) : Int :=
  let span : Int := 16383 * 16 - offset
  if span ≤ 0 then 0 else roundDiv ((2 * ((mean : Int) - offset) - span) * 10000) span.toNat

/-- One band's dark half and path check; the event carries the integration's epoch (R33). -/
def State.darkBand (s : State) (p : Port) (b offset mean : Nat) (checked : Bool) (epoch : Nat) : State × Bool :=
  let s1 := s.roSet (K.portDtsBandOffset p b) offset
  let e := clampInt (-32768) 32767 (pathError offset mean)
  if checked then
    let bad : Bool := decide (100 < e.natAbs)
    let s2 := s1.roSetInt (K.portDtsBandPathError p b) e
    (if bad then s2.raiseFull Ev.dtsPath (sevDefault Ev.dtsPath) s.stamp [u p.idx, u b, sv e] epoch else s2, bad)
  else (s1, if b = 0 then (s.dts p).faultAs else (s.dts p).faultS)

/-- DARK_FRAME_SECOND_HALF: the dark offset of the first half; the test DAC injects for the path check unless it is in use. -/
def execDarkFrameSecondHalf (t : Tick) (p : Port) (offset16 : List Nat) (meanCode16 : List Nat) (s : State) : Out :=
  let s0 := s.at t
  match (s0.dts p).cur with
  | none => .next s0
  | some x =>
    if x.dark = false then .next s0
    else
      let want : Bool := s0.pI p (K.portDtsPathcheck p) == 1
      let check : Bool := want && !s0.raman.dacFe
      let s1 : State := if check then { s0 with raman := { s0.raman with dacRaman := max s0.raman.dacRaman (s0.now + s0.roGet (K.portFramePeriodLive p) / 2) } } else s0
      let ra := s1.darkBand p 0 (offset16.getD 0 0) (meanCode16.getD 0 0) check x.bank.epoch
      let rs := ra.1.darkBand p 1 (offset16.getD 1 0) (meanCode16.getD 1 0) check x.bank.epoch
      let d := rs.1.dts p
      .next (rs.1.setDts p { d with faultAs := ra.2, faultS := rs.2, cur := some { x with pathSkipped := want && !check, fault := ra.2 || rs.2, offAs := offset16.getD 0 0, offS := offset16.getD 1 0 } })

/-! ### The check each second (R145) -/

/-- Headroom below 0.22: (max − offset) / (16 383 − offset), offset in 1/16 code. -/
def lowHeadroom (hi offset : Nat) : Bool := decide (((hi * 16 : Nat) : Int) * 100 - (offset : Int) * 100 < 22 * (16383 * 16 - (offset : Int)))

/-- One band's check: a step down at full scale, a step up while headroom has stayed low. A step that is scheduled keeps the time of the check that scheduled it. -/
def bandCheck (b : Band) (offset : Nat) (auto : Bool) (sched : Option (Bool × Tick)) (now : Tick) : Band × Option (Bool × Tick) :=
  let quiet := b.quiet && lowHeadroom b.hi offset
  let b1 := { b with quiet := quiet, checks := b.checks + 1 }
  if !auto then (b1, none)
  else if b.hi = 16383 then (b1, match sched with
    | some (false, at_) => some (false, at_)
    | _ => some (false, now))
  else if quiet then (b1, match sched with
    | some e => some e
    | none => some (true, now))
  else (b1, match sched with
    | some (false, at_) => some (false, at_)
    | _ => none)

/-- DTS_FEEDBACK_CHECK: once per second of an integration, on each band's running tracker. -/
def execDtsFeedbackCheck (t : Tick) (p : Port) (s : State) : Out :=
  let s0 := s.at t
  let d := s0.dts p
  match d.cur with
  | none => .next s0
  | some x =>
    if s0.now < x.nextCheck then .next s0
    else
    let ra := bandCheck x.bandAs (s0.roGet (K.portDtsBandOffset p 0)) (s0.pI p (K.portDtsBandFeedbackMode p 0) == 0) d.stepAs s0.now
    let rs := bandCheck x.bandS (s0.roGet (K.portDtsBandOffset p 1)) (s0.pI p (K.portDtsBandFeedbackMode p 1) == 0) d.stepS s0.now
    .next (s0.setDts p { d with cur := some { x with bandAs := ra.1, bandS := rs.1, nextCheck := x.nextCheck + secondTicks }, stepAs := ra.2, stepS := rs.2 })

/-! ### Readings of the front end (R157, R158, R173) -/

/-- A result of a channel is published: a value in °C where it is valid. -/
def FeMean.take (x : FeMean) (v : Option Rat) : FeMean := ⟨x.all + 1, x.valid + b2n v.isSome, x.sum + v.getD 0⟩

/-- The mean of the valid values in °C, valid itself where at least half of the results are (R173). -/
def FeMean.mean (x : FeMean) : Option Rat := if 0 < x.all ∧ x.all ≤ 2 * x.valid then some (x.sum / (x.valid : Nat)) else none

/-- A result of front-end channel `ch` enters the integration in progress of each port that uses the channel: its coil's RTD (R156), or its second calibration point's sensor (R158). -/
def State.dtsReading (s : State) (ch : Nat) (v : Option Rat) : State :=
  let put := fun (p : Port) (d : DtsPort) =>
    { d with cur := d.cur.map (fun x =>
        { x with coil := if ch = 4 + p.idx then x.coil.take v else x.coil,
                 cal2 := if ch + 1 = x.bank.set.get (K.portDtsCal2Channel p) then x.cal2.take v else x.cal2 }) }
  (s.setDts .a (put .a (s.dts .a))).setDts .b (put .b (s.dts .b))

/-! ### Deconvolution (R155) -/

/-- The mean folded frame of a band, less its dark offset: T_f bins. -/
def Integ.meanFrame (x : Integ) (b : Band) (off : Nat) : List Rat :=
  (List.range x.tf).map (fun k => ((b.acc.getD k 0 : Nat) : Rat) / (x.used : Nat) - (off : Rat) / 16)

/-- The number of groups of a plan, and so the slots of each (R74). -/
def planGroups (plan : Nat) : Nat := if plan = 0 then 8 else if plan = 1 then 4 else if plan = 2 then 2 else 1

/-- The energy launched in each tick of a frame, in pJ: the DTS pulse at 0, and every group's chirps. E_dts is the mean pulse energy, P_mean the mean of the slots' peaks in mW; 1 mW over a tick is 5 pJ. -/
def Integ.envelope (x : Integ) : List Rat :=
  let eDts : Rat := if x.pulses = 0 then 0 else (x.energy : Rat) / (x.pulses : Nat)
  let pMean : Rat := (x.peaks : Rat) / 1073741824 / (8 * x.used : Nat)
  let g := planGroups x.plan
  (List.range x.tf).map (fun k =>
    (if k = 0 then eDts * (x.pulses : Nat) / (x.used : Nat) else 0) +
    (((List.range g).filter (fun i => decide ((k + x.tf - i * (x.tf / g)) % x.tf < x.tau))).length : Nat) * (pMean * (8 / g : Nat) * 5))

/-- The Raman responses of both bands. -/
def Integ.response (x : Integ) : List Rat × List Rat :=
  (deconvolve (x.meanFrame x.bandAs x.offAs) x.envelope, deconvolve (x.meanFrame x.bandS x.offS) x.envelope)

/-! ### Temperatures (R156 to R158) -/

/-- °C in kelvin. -/
def kelvin (c : Rat) : Rat := c + 5463 / 20

/-- The sum of a response over two bins from a bin on. -/
def pairAt (h : List Rat) (bin : Nat) : Rat := h.getD bin 0 + h.getD (bin + 1) 0

/-- The first of the 256 coil bins of a port (R156). -/
def coilBin (p : Port) : Nat :=
  ((Config.binRef p.idx : Int) + roundDiv (asInt 32 (Config.coilPosition p.idx).toNat * 10000) 510476 - 128).toNat

/-- ln of a ratio of sums in 10⁻⁹; a ratio that has none gives a free value, the n-th draw (log entry 2). -/
def lnRatio (a b : Rat) (n : Nat) : Int := if 0 < a ∧ 0 < b then scaledLn 1000000000 (a / b).num.toNat (a / b).den else asInt 40 (Config.freeBits n % 2 ^ 40)

/-- ln Q_c: the ratio over the coil bins. -/
def lnCoil (p : Port) (h : List Rat × List Rat) (n : Nat) : Int :=
  lnRatio (sumQ ((h.1.drop (coilBin p)).take 256)) (sumQ ((h.2.drop (coilBin p)).take 256)) n

/-- ln Q_j of a DTS point. -/
def lnPoint (p : Port) (h : List Rat × List Rat) (j n : Nat) : Int :=
  let b := Config.binRef p.idx + 2 * j
  lnRatio (pairAt h.1 b) (pairAt h.2 b) n

/-- γ in kelvin. -/
def gamma : Rat := f32D Config.gammaF32.toNat

/-- z_j − z_c in metres (R156). -/
def zRel (p : Port) (j : Nat) : Rat := ((2 * j + 1 : Nat) : Rat) * (102095 / 200000) - ((asInt 32 (Config.coilPosition p.idx).toNat : Int) : Rat) / 100

/-- Δα of the parameter in nepers per metre: 10⁻⁴ dB/km × ln 10 / 10 000. -/
def dalphaOf (v : Int) : Rat := (v : Rat) / 10000 * (2302585092994046 / 1000000000000000) / 10000

/-- Δα in nepers per metre as dB/km. -/
def dalphaDb (x : Rat) : Rat := x * 10000 * (1000000000000000 / 2302585092994046)

/-- T_j − 273.15 °C from the coil term (10⁻⁹) and ln Q_j; none where the formula has no value. -/
def tempOf (coilTerm lnQ : Int) (dalpha z : Rat) : Option Rat :=
  let den := ((coilTerm - lnQ : Int) : Rat) / 1000000000 - dalpha * z
  if den ≤ 0 then none else some (gamma / den - 5463 / 20)

/-- Whole points at or before a length in 0.01 m (R156). -/
def dtsPoints (len : Nat) : Nat := min 131072 (len * 1000 / 102095)

/-- γ/T_c + ln Q_c in 10⁻⁹, from T_c in °C. -/
def coilTermOf (p : Port) (h : List Rat × List Rat) (c : Rat) (n : Nat) : Int :=
  lnCoil p h n + roundDiv (gamma * 1000000000 / kelvin c).num (gamma * 1000000000 / kelvin c).den

/-- The term a result uses, and how long it has been held (R157). With a valid mean of the RTD it is the integration's own, which an integration without data lacks; otherwise a held one for up to 10
results. -/
def DtsPort.term (d : DtsPort) (rtd : Bool) (own : Option Int) : Option Int × Nat :=
  if rtd then (own, if own.isSome then 0 else d.heldRuns)
  else if d.heldTerm.isSome ∧ d.heldRuns < 10 then (d.heldTerm, d.heldRuns + 1)
  else (none, d.heldRuns)

/-- Δα of an integration and whether it was fitted (R158): from its own coil term and the mean of its second point's sensor, both valid; else the parameter it began with. -/
def Integ.dalpha (x : Integ) (p : Port) (h : List Rat × List Rat) (own : Option Int) (n : Nat) : Rat × Bool :=
  let base := dalphaOf (x.bank.set.getInt (K.portDtsDalpha p))
  if x.bank.set.get (K.portDtsCal2Channel p) = 0 then (base, false)
  else
    match own, x.cal2.mean with
    | some c, some c2 =>
      let j := x.bank.set.get (K.portDtsCal2Point p)
      (((c : Rat) / 1000000000 - gamma / kelvin c2 - (lnPoint p h j n : Rat) / 1000000000) / zRel p j, true)
    | _, _ => (base, false)

/-- A temperature in a stream's format (R160): none is INVALID; a value the format cannot hold is free. -/
def dtsBytes (f : Nat) (v : Option Rat) (free : Nat) : List Byte :=
  if f = 0 then
    match v with
    | none => [0x00, 0x80]
    | some x => let n := roundDiv (x * 100).num (x * 100).den; if -32768 < n ∧ n < 32768 then leInt 2 n else le 2 free
  else
    match v with
    | none => le 4 0x7FC00000
    | some x => le 4 (f32Round x)

/-- The bytes of one point: INVALID beyond the end or without a term; a free value where the formula has none (log entry 2). -/
def pointBytes (f : Nat) (p : Port) (h : List Rat × List Rat) (term : Option Int) (dalpha : Rat) (live fresh j : Nat) : List Byte :=
  match term with
  | none => dtsBytes f none 0
  | some c =>
    if live ≤ j then dtsBytes f none 0
    else
      match tempOf c (lnPoint p h j (fresh + j)) dalpha (zRel p j) with
      | some v => dtsBytes f (some v) (Config.freeBits (fresh + j))
      | none => le (formatWidth f) (Config.freeBits (fresh + j))

/-- The flags of a result (R159). -/
def Integ.flags (x : Integ) (held invalid fitted : Bool) : Nat :=
  let sat := fun (b : Band) => b2n (decide (0 < x.used) && (b.hi == 16383 || b.lo == 0))
  b2n x.partialRun + 2 * b2n x.short + 4 * sat x.bandAs + 8 * sat x.bandS + 16 * b2n held + 32 * b2n invalid + 64 * b2n x.unregulated + 128 * b2n x.fault +
  256 * b2n x.pathSkipped + 512 * b2n (x.used == 0) + 1024 * b2n fitted + 2048 * b2n (decide (2 * x.used < x.frames)) + 4096 * b2n x.fibreEvent +
  8192 * b2n (x.bandAs.biasLimit || x.bandS.biasLimit)

/-- The 32-byte integration record (R160). -/
def Integ.record (x : Integ) (flags coil dalpha : Nat) : List Byte :=
  le 2 flags ++ le 1 x.bandAs.feedback ++ le 1 x.bandS.feedback ++ le 4 x.used ++ le 4 x.pulses ++ le 4 coil ++ le 4 dalpha ++ le 2 x.bandAs.hi ++
  le 2 x.bandS.hi ++ le 2 x.bandAs.lo ++ le 2 x.bandS.lo ++ le 2 (if x.frames = 0 then 0 else min 65535 (x.used * 65536 / x.frames)) ++ le 2 0

/-- What a published integration comes to (R155 to R159): the responses, the coil term, Δα, flags, and T_c and Δα as binary32. -/
structure DtsResult where
  h : List Rat × List Rat
  own : Option Int
  term : Option Int
  runs : Nat
  dalpha : Rat
  flags : Nat
  coil : Nat
  dalphaF : Nat

/-- The result of an integration; values that have none are the draws from `n` on. -/
def Integ.result (x : Integ) (d : DtsPort) (p : Port) (n : Nat) : DtsResult :=
  let h := x.response
  let rtd := x.coil.mean
  let own := if x.used = 0 then none else rtd.map (fun c => coilTermOf p h c n)
  let tm := d.term rtd.isSome own
  let da := x.dalpha p h own (n + 1)
  { h := h, own := own, term := if x.used = 0 then none else tm.1, runs := tm.2, dalpha := da.1,
    flags := x.flags (!rtd.isSome && tm.1.isSome) (!rtd.isSome && tm.1.isNone) da.2,
    coil := match rtd with
      | some c => f32Round c
      | none => 0x7FC00000,
    dalphaF := f32Round (dalphaDb da.1) }

/-- The tiles of a result for one DTS stream (R160). -/
def State.dtsTiles (s : State) (p : Port) (x : Integ) (r : DtsResult) (sid : Nat) : List Tile :=
  let y := s.stream sid
  let f := y.par (K.streamFormat sid)
  let first := y.par (K.streamPointsFirst sid)
  let stride := max 1 (y.par (K.streamPointsStride sid))
  let live := s.roGet (K.portDtsPointsLive p)
  let count := if y.par (K.streamPointsCount sid) = 0 then (if first < live then ceilDiv (live - first) stride else 0) else y.par (K.streamPointsCount sid)
  let tp := max 1 (y.par (K.streamTilePoints sid))
  let total := max 1 (ceilDiv count tp)
  (List.range total).map (fun q =>
    let n := min tp (count - q * tp)
    let js := (List.range n).map (fun i => first + (q * tp + i) * stride)
    let payload := x.record r.flags r.coil r.dalphaF ++ js.flatMap (pointBytes f p r.h r.term r.dalpha live (s.fresh + 2))
    { kind := 3, port := p.idx, unsettled := 0, stitched := false, dark := x.used == 0, saturated := bitOf r.flags 2 || bitOf r.flags 3, suspect := x.suspect,
      gap := false, thinned := false, lastTile := decide (q + 1 = total), index := q, total := total, epoch := x.bank.epoch, block := x.number, t0 := x.t0,
      interval := x.interval, firstPoint := first + q * tp * stride, points := n, samples := 1, format := if f = 0 then 0x10 else 0x11, filter := 0,
      decimation := 0, filterDelay := 0, payload := payload, lastInput := x.endAt })

/-- The coil check (R395): a term more than 0.002 from the factory term in three results in a row raises EV_CALIBRATION, under the epoch of the third (R33). -/
def State.coilCheck (s : State) (p : Port) (own : Option Int) (epoch : Nat) : State :=
  match own with
  | none => s
  | some v =>
    let d := s.dts p
    if 2000000 < (v - Config.coilTerm p.idx * 1000).natAbs then
      let n := d.drift + 1
      let s1 := s.setDts p { d with drift := n }
      if n = 3 then (s1.roSet (K.healthCoilDrift p) 1).raiseFull Ev.calibration (sevDefault Ev.calibration) s1.stamp [u p.idx] epoch else s1
    else (s.setDts p { d with drift := 0 }).roSet (K.healthCoilDrift p) 0

/-- The DTS streams of a port take a result, unless the integration began before the values of the stream (R31). -/
def State.dtsBlocks (s : State) (p : Port) (x : Integ) (r : DtsResult) : State :=
  (List.range 16).foldl (fun st n =>
    let st1 := st.loadDue n x.t0
    let y := st1.stream n
    if enabledKind y.bank.set n 3 && y.par (K.streamPort n) == p.idx && !(epochBefore x.bank.epoch y.bank.epoch) then st1.enqueue n 3 (st1.dtsTiles p x r n) else st1) s

/-- DTS_RESULT_PUBLISH of the integration with a number: it is the port's oldest ended one, in boundary order, port A's first where both ended at one instant (R159). -/
def execDtsResultPublish (t : Tick) (p : Port) (number : Nat) (s : State) : Out :=
  let s0 := s.at t
  let d := s0.dts p
  match d.done with
  | [] => .next s0
  | x :: rest =>
    let waits : Bool := p == .b && (s0.dts .a).done.any (fun y => decide (y.endAt = x.endAt))
    if waits || !(s0.mode.working) || x.number != number then .next s0
    else
      let r := x.result d p s0.fresh
      let cov := if x.frames = 0 then 0 else min 65535 (x.used * 65536 / x.frames)
      let live := s0.roGet (K.portDtsPointsLive p)
      let vals := (List.range live).map (fun j => ofLe (pointBytes 2 p r.h r.term r.dalpha live (s0.fresh + 2) j))
      let last := some (x.endAt, r.term.isNone, vals)
      let s1 := s0.setDts p { d with done := rest, heldTerm := if r.own.isSome then r.own else d.heldTerm, heldRuns := r.runs, last := last }
      let s2 := (((s1.roSet (K.portDtsLastFlags p) r.flags).roSet (K.portDtsLastCoilTemperature p) r.coil).roSet (K.portDtsLastDalpha p) r.dalphaF).roSet
        (K.portDtsLastCoverage p) cov
      let s3 := s2.dtsBlocks p x r
      let s4 : State := { s3 with fresh := s3.fresh + 131074 }
      .next (s4.coilCheck p r.own x.bank.epoch).settleAll

end Sys2Proof.Machine
end

