-- ==== Sys2Proof/Machine/TimeBase.lean ====
section
/-! DEFINITION. Lodestone: frequency and time sources, φ and steering, quality, PTP, the TDC and PPS_OUT (chapter 11). -/

namespace Sys2Proof.Machine

/-- Replace the time base. -/
def State.withTime (s : State) (t : TimeBase) : State := { s with time := t }

/-! ### Frequency sources (R274 to R276) -/

/-- One frequency input. -/
def State.freqIn (s : State) : FreqInput → FreqIn
  | .ref10m => s.time.ref
  | .ensClk => s.time.ens

/-- Replace one frequency input. -/
def State.setFreqIn (s : State) (i : FreqInput) (x : FreqIn) : State :=
  match i with
  | .ref10m => s.withTime { s.time with ref := x }
  | .ensClk => s.withTime { s.time with ens := x }

/-- The parameter that reports an input's presence. -/
def freqPresent : FreqInput → Key
  | .ref10m => K.timebaseRefPresent
  | .ensClk => K.timebaseEnsPresent

/-- A follower with a port in BUS alignment prefers BUS (R274). -/
def State.busPreferred (s : State) : Bool :=
  decide (s.pG K.schedLockRole = 2) && ports.any (fun p => s.pP p (K.portFrameAlign p) == 2)

/-- The frequency source R274 chooses: 1 EXT, 2 BUS, 3 OCXO. -/
def State.freqChoice (s : State) : Nat :=
  let ext := s.time.ref.selectable
  let bus := s.time.ens.selectable
  match s.pG K.timebaseFreqSource with
  | 0 => if s.busPreferred && bus then 2 else if ext then 1 else 3
  | 1 => if ext then 1 else 3
  | 2 => if bus then 2 else 3
  | _ => 3

/-- Select the frequency source afresh; a change is hitless and raises EV_TIME_SOURCE with the old and new sources (R276). -/
def State.selectFreq (s : State) : State :=
  let old := s.roGet K.timebaseFreqActive
  let new := s.freqChoice
  if old = new then s else (s.roSet K.timebaseFreqActive new).raise Ev.timeSource [u old, u new]

/-! ### Quality (R281, R282) -/

/-- Root mean square of some values. -/
def rms (xs : List Nat) : Nat := if xs = [] then 0 else isqrt (sumN (xs.map (fun x => x * x)) / xs.length)

/-- u in ps for the source in force (R281). -/
def State.uncertaintyNow (s : State) : Nat :=
  let raw :=
    match s.roGet K.timebaseTimeActive with
    | 1 => 3 * rms s.time.pps.residuals + 100
    | 2 => 3 * rms (s.time.ptpA.residuals.map Int.natAbs) * 1000 / 65536 + 1000 * s.pG K.timebasePtpAsymUncertNs
    | 3 => 3 * rms (s.time.ptpB.residuals.map Int.natAbs) * 1000 / 65536 + 1000 * s.pG K.timebasePtpAsymUncertNs
    | _ =>
      match s.time.holdover with
      | none => 4294967295
      | some h =>
        let t := s.now - h.entered
        h.u0 + h.sigmaY * t * 5 / 1000000000000 + h.sigmaA * t * t * 25 / (2 * 86400 * 10000000000000000000)
  min raw 4294967295

/-- The time-quality class (R281). -/
def State.qualityNow (s : State) : Nat :=
  match s.roGet K.timebaseTimeActive with
  | 1 => 0
  | 2 => 1
  | 3 => 1
  | 4 => 2
  | _ => if s.time.held then 2 else 3

/-- TIME_SUSPECT as R282 and R356 give it. -/
def State.suspectNow (s : State) : Bool :=
  s.roGet K.timebaseQuality == 3
  || decide (1000 * s.pG K.timebaseSuspectNs < s.roGet K.timebaseUncertainty)
  || (s.time.pps.source == .own && s.roGet K.timebaseTimeActive == 1 && decide (86400 * secondTicks < s.now - s.time.pps.ownSince))
  || s.time.ensSuspect

/-- Judge quality afresh; entering and leaving TIME_SUSPECT each raise EV_TIME_SUSPECT. -/
def State.judgeTime (s : State) : State :=
  let s1 := s.roSet K.timebaseQuality s.qualityNow
  let s2 := s1.roSet K.timebaseUncertainty s1.uncertaintyNow
  let new := b2n s2.suspectNow
  if s2.roGet K.timebaseSuspect = new then s2
  else (s2.roSet K.timebaseSuspect new).raise Ev.timeSuspect [u new]

/-! ### Time sources (R278, R281) -/

/-- A PTP port. -/
def TimeBase.ptp (t : TimeBase) : Port → PtpPort
  | .a => t.ptpA
  | .b => t.ptpB

/-- Replace a PTP port. -/
def State.setPtp (s : State) (p : Port) (x : PtpPort) : State :=
  match p with
  | .a => s.withTime { s.time with ptpA := x }
  | .b => s.withTime { s.time with ptpB := x }

/-- Data sets in the order of the default comparison of IEEE 1588-2019 (R284): true where the first is better. -/
def better (x y : Announce) : Bool :=
  if x.identity = y.identity then decide (x.stepsRemoved < y.stepsRemoved)
  else if x.priority1 ≠ y.priority1 then decide (x.priority1 < y.priority1)
  else if x.clockClass ≠ y.clockClass then decide (x.clockClass < y.clockClass)
  else if x.accuracy ≠ y.accuracy then decide (x.accuracy < y.accuracy)
  else if x.variance ≠ y.variance then decide (x.variance < y.variance)
  else if x.priority2 ≠ y.priority2 then decide (x.priority2 < y.priority2)
  else decide (x.identity.toNat < y.identity.toNat)

/-- The best of some masters. -/
def bestOf : List Master → Option Announce
  | [] => none
  | m :: rest =>
    match bestOf rest with
    | none => some m.data
    | some b => if better b m.data then some b else some m.data

/-- A port's best master. -/
def State.bestMaster (s : State) (p : Port) : Option Announce := bestOf (s.time.ptp p).masters

/-- The port whose best master is the best on either port (R284). -/
def State.bestPort (s : State) : Option Port :=
  match s.bestMaster .a, s.bestMaster .b with
  | none, none => none
  | some _, none => some .a
  | none, some _ => some .b
  | some x, some y => if better y x then some .b else some .a

/-- The state of a PTP port: 0 DISABLED, 1 LISTENING, 2 UNCALIBRATED, 3 SLAVE. -/
def State.ptpStateOf (s : State) (p : Port) : Nat :=
  if s.pG (K.timebasePtpEnable p) = 0 then 0
  else if s.bestMaster p = none then 1
  else if (s.time.ptp p).phi = none then 2 else 3

/-- Publish a PTP port's state and master, and the selected master's UTC offset (R284). -/
def State.ptpPublish (s : State) (p : Port) : State :=
  let s1 := s.roSet (K.timebasePtpState p) (s.ptpStateOf p)
  let s2 := s1.roSet (K.timebasePtpMaster p) (((s.bestMaster p).map (fun a => a.identity.toNat)).getD 0)
  match s2.bestPort with
  | none => s2
  | some q =>
    match s2.bestMaster q with
    | some a => s2.roSetInt K.timebaseUtcOffset a.utcOffset
    | none => s2

/-- The PTP port that can be a time source: in SLAVE state, its master the best on either port and traceable (R278, R284). -/
def State.ptpSource (s : State) : Option Port :=
  match s.bestPort with
  | none => none
  | some p =>
    match s.bestMaster p with
    | some a => if a.traceable && s.roGet (K.timebasePtpState p) == 3 then some p else none
    | none => none

/-- PPS can be a time source: present, and its seconds are known (R278). -/
def State.ppsUsable (s : State) : Bool :=
  s.roGet K.timebasePpsPresent == 1 && s.time.pps.source != .unknown

/-- The time source R278 chooses: 0 NONE, 1 PPS, 2 PTP_A, 3 PTP_B, 4 HOLDOVER, which GEODE enforces (R290). -/
def State.timeChoice (s : State) : Nat :=
  if s.mode = .geode then 4 else
  let ptp := match s.ptpSource with
    | some p => 2 + p.idx
    | none => 0
  let rest := if s.time.held then 4 else 0
  match s.pG K.timebaseTimeSource with
  | 0 => if s.ppsUsable then 1 else if ptp ≠ 0 then ptp else rest
  | 1 => if s.ppsUsable then 1 else rest
  | 2 => if ptp ≠ 0 then ptp else rest
  | _ => 0

/-- Standard error of the frequency estimate over the last 100 s, with its floor of 5 × 10⁻¹² (R281). -/
def sigmaY (xs : List Int) : Nat :=
  if xs = [] then 5000 else
  let n := xs.length
  let mean := sumZ xs / n
  max 5000 (isqrt (sumN (xs.map (fun x => (x - mean).natAbs * (x - mean).natAbs)) / n / n))

/-- Select the time source afresh (R278). Leaving a source notes u₀, σ_y and σ_a for holdover; a change raises EV_TIME_SOURCE. -/
def State.selectTime (s : State) : State :=
  let old := s.roGet K.timebaseTimeActive
  let new := s.timeChoice
  if old = new then s.judgeTime
  else
    let wasSource : Bool := old == 1 || old == 2 || old == 3
    let isSource : Bool := new == 1 || new == 2 || new == 3
    let ho : Option Holdover :=
      if isSource then none
      else if wasSource then
        some { entered := s.now, u0 := s.roGet K.timebaseUncertainty, sigmaY := sigmaY s.time.freqErrors,
               sigmaA := if s.time.efcHistory.length < 168 then 1000 else s.time.ageFitResidual }
      else s.time.holdover
    let s1 := s.withTime { s.time with held := s.time.held || isSource, holdover := ho }
    ((s1.roSet K.timebaseTimeActive new).raise Ev.timeSource [u old, u new]).judgeTime

/-- Bring φ to now without changing it. -/
def State.settlePhi (s : State) : State :=
  s.withTime { s.time with phi0 := s.phi s.now, phiAt := s.now }

/-- Take a measurement of φ made at a tick. -/
def State.measurePhi (s : State) (p : Int) (t : Tick) : State :=
  s.withTime { s.time with phi0 := p, phiAt := t }

/-! ### Steering and steps (R279, R280) -/

/-- The multiple of 20 ticks nearest φ. -/
def State.stepSize (s : State) : Int := 20 * roundDiv (s.phi s.now) 6553600

/-- Step the counter by a number of ticks; stamps do not move, for φ takes up the step (R280). -/
def State.stepCounter (s : State) (n : Int) : State :=
  let s1 := s.settlePhi
  (s1.withTime { s1.time with offset := s1.time.offset + n, phi0 := s1.time.phi0 - n * tickUnits }).raise Ev.timeStep [sv n]

/-- True where a port has frames (R52). -/
def State.hasFrames (s : State) (p : Port) : Bool := decide (2 ≤ s.roGet (K.portState p))

/-- y in 10⁻¹⁵ for a φ in 2⁻¹⁶ ns: |φ| / 100 s, at most 10⁻⁷ (R279). -/
def steerFor (phi : Int) : Int := clampInt (-100000000) 100000000 (phi * 10000 / 65536)

/-- Least-squares slope of the EFC history in 10⁻¹³ per day, and its rms residual, over points (tick, 10⁻¹²). -/
def efcFit (h : List (Tick × Int)) : Int × Nat :=
  match h with
  | [] => (0, 0)
  | _ =>
    let n : Int := h.length
    let xs := h.map (fun e => (e.1 / secondTicks : Nat))
    let ys := h.map (·.2)
    let mx := (sumN xs : Int) / n
    let my := sumZ ys / n
    let sxx := sumZ (xs.map (fun (x : Nat) => ((x : Int) - mx) * ((x : Int) - mx)))
    let sxy := sumZ ((xs.zip ys).map (fun e => ((e.1 : Int) - mx) * (e.2 - my)))
    if sxx ≤ 0 then (0, 0) else
    let slope := sxy * 864000 / sxx
    let res := (xs.zip ys).map (fun e => ((e.2 - my) - sxy * ((e.1 : Int) - mx) / sxx).natAbs * 10)
    (slope, rms res)

/-- One second of discipline: EFC follows the frequency error, its history grows, the ageing rate is learned (R277). -/
def State.discipline (s : State) (freqErr : Int) : State :=
  let active := s.roGet K.timebaseTimeActive
  let disciplined : Bool := s.roGet K.timebaseFreqActive != 3 || active == 1 || active == 2 || active == 3
  if disciplined then
    let efc := clampInt (-200000) 200000 (s.roInt K.timebaseOcxoEfc - roundDiv freqErr 1000)
    let hist := match s.time.efcHistory with
      | [] => [(s.now, efc)]
      | (t, e) :: rest => if 3600 * secondTicks ≤ s.now - t then ((s.now, efc) :: (t, e) :: rest).take 168 else (t, e) :: rest
    let fit := efcFit hist
    let s1 := (s.roSetInt K.timebaseOcxoEfc efc).withTime
      { s.time with efcHistory := hist, freqErrors := (freqErr :: s.time.freqErrors).take 100, ageAt := s.now, ageFitResidual := fit.2 }
    if 72 ≤ hist.length then s1.roSetInt K.timebaseOcxoAgeing (-fit.1) else s1
  else s

/-- Choose y for the second (R279): 0 under BUS, HOLDOVER, NONE, or while a step is pending. -/
def State.steer (s : State) (freqErr : Int) : State :=
  let active := s.roGet K.timebaseTimeActive
  let hold : Bool := s.roGet K.timebaseFreqActive == 2 || active == 4 || active == 0 || s.roGet K.timebaseStepPending == 1
  let y := if hold then 0 else steerFor (s.phi s.now)
  let s1 := s.settlePhi
  (s1.withTime { s1.time with rate := (if active = 0 then 0 else freqErr) - y }).roSetInt K.timebaseSteer y

/-- TIME_STEER_UPDATE (R277, R279, R280, R282): outside RUNNING and BEDROCK, or with no port in frames, the counter steps on the first time source
and whenever |φ| exceeds 50 ns; otherwise a φ beyond the threshold asks for a step. -/
def State.timeSteer (s : State) (freqErr : Int) : State :=
  if s.mode = .off ∨ s.mode = .save ∨ s.mode = .geode then s
  else
    let active := s.roGet K.timebaseTimeActive
    let haveSource : Bool := active == 1 || active == 2 || active == 3
    let free : Bool := !(s.mode.measuring) || !(s.hasFrames .a || s.hasFrames .b)
    let big : Bool := decide (50 * 65536 < (s.phi s.now).natAbs)
    let s1 : State :=
      if haveSource && free && (big || !s.time.acquired) then
        let n := s.stepSize
        (if n = 0 then s else s.stepCounter n).roSet K.timebaseStepPending 0
      else if haveSource && !free && decide (s.pG K.timebaseStepThresholdUs * 65536000 < (s.phi s.now).natAbs) then
        if s.roGet K.timebaseStepPending = 1 then s
        else (s.roSet K.timebaseStepPending 1).raise Ev.timeStepNeeded [sv (s.phi s.now)]
      else if haveSource then s.roSet K.timebaseStepPending 0
      else s
    let s2 := s1.withTime { s1.time with acquired := s1.time.acquired || haveSource }
    ((s2.discipline freqErr).steer freqErr).judgeTime

/-- The time-base fields at their F (R428): selections afresh, limits compared, TDC gates begun anew where a field of theirs changed. -/
def State.timeFieldsAtF (s : State) (changed : List Key) : State :=
  let tdc := (List.range 7).map (fun n =>
    let x := s.time.tdc.getD n TdcIn.idle
    if K.tdcInEnable n ∈ changed ∨ K.tdcInNominal n ∈ changed ∨ K.tdcInGateMs n ∈ changed
    then { x with gate := [], gateStart := s.now } else x)
  let s1 := s.withTime { s.time with tdc := tdc }
  let s2 := (s1.ptpPublish .a).ptpPublish .b
  s2.selectFreq.selectTime

/-! ### Presence of inputs (R275) -/

/-- REF_INPUT_PRESENT: the input becomes present and its gates begin. -/
def execRefInputPresent (t : Tick) (inp : FreqInput) (s : State) : Out :=
  let s0 := s.at t
  .next ((s0.roSet (freqPresent inp) 1).setFreqIn inp FreqIn.none)

/-- REF_INPUT_LOST: presence ends, and the frequency source is chosen afresh (R276). -/
def execRefInputLost (t : Tick) (inp : FreqInput) (s : State) : Out :=
  let s0 := s.at t
  .next (((s0.roSet (freqPresent inp) 0).setFreqIn inp FreqIn.none).selectFreq)

/-- What the end of a gate makes of an input (R275), and whether EV_REF_OUT_OF_TOL is raised. -/
def gateEnd (x : FreqIn) (good : Bool) : FreqIn × Bool :=
  if x.fine = false then
    (if good then { x with fine := true, selectable := true } else x, false)
  else if good then
    if x.failed then
      (if 9 ≤ x.good then { x with failed := false, good := 0, selectable := true } else { x with good := x.good + 1 }, false)
    else (x, false)
  else ({ x with selectable := false, failed := true, good := 0 }, true)

/-- FREQ_GATE_END: the gate's frequency is within 10⁻⁷ or not (R275). `devE15` is the deviation from the module's frequency estimate in 10⁻¹⁵. -/
def execFreqGateEnd (t : Tick) (inp : FreqInput) (devE15 : Int) (s : State) : Out :=
  let s0 := s.at t
  if s0.roGet (freqPresent inp) = 0 then .next s0
  else
    let r := gateEnd (s0.freqIn inp) (decide (devE15.natAbs ≤ 100000000))
    let s1 := s0.setFreqIn inp r.1
    let s2 := if r.2 then s1.raise Ev.refOutOfTol [u (match inp with
      | .ref10m => 1
      | .ensClk => 2), sv devE15] else s1
    .next s2.selectFreq

/-! ### PPS_IN (R275, R278) -/

/-- Where the seconds of the coming edges come from (R278): PTP when a master is selected, else TIME_SET, else the module's own time when |φ| is below
0.5 s. The answer is the source and the TAI second of an edge at counter time `c` (2⁻¹⁶ ns). -/
def State.ppsLabel (s : State) (c : Stamp) : LabelSource × Option Int :=
  let viaPtp : Option Int := match s.bestPort with
    | some p => (s.time.ptp p).phi
    | none => none
  match viaPtp, s.time.pps.pendingSet, s.time.pps.source, s.time.pps.label with
  | some f, _, _, _ => (.ptp, some (roundDiv (c + f) 65536000000000))
  | none, some n, _, _ => (.timeSet, some n)
  | none, none, .timeSet, some n => (.timeSet, some (n + 1))
  | none, none, _, _ =>
    if (s.phi s.now).natAbs < 32768000000000 then (.own, some (roundDiv (c + s.phi s.now) 65536000000000)) else (.unknown, none)

/-- Take an accepted edge of a present PPS_IN: label it and, where PPS is the time source, measure φ. -/
def State.ppsMeasure (s : State) (c : Stamp) (residual : Nat) : State :=
  let lab := s.ppsLabel c
  let pps := s.time.pps
  let pps1 := { pps with
    source := lab.1, label := lab.2, pendingSet := none,
    ownSince := if lab.1 = .own then (if pps.source = .own then pps.ownSince else s.now) else s.now,
    residuals := (residual :: pps.residuals).take 10 }
  let s1 := (s.withTime { s.time with pps := pps1 }).selectTime
  if s1.roGet K.timebaseTimeActive = 1 then
    match lab.2 with
    | some n => (s1.measurePhi (n * secondUnits + s1.pGInt K.timebasePpsDelay * 65536 / 1000 - c) s1.now).judgeTime
    | none => s1
  else s1

/-- PPS_IN_EDGE: an edge `sub` ps after tick `t`. Absent: three edges 1 s ± 1 µs apart make it present. Present: edges outside their window are ignored. -/
def execPpsInEdge (t : Tick) (sub : Nat) (residual : Nat) (s : State) : Out :=
  let s0 := s.at t
  let pps := s0.time.pps
  let edge := t * 5000 + sub
  let inWindow : Bool := match pps.lastEdge with
    | none => false
    | some l => decide (l + 999999000000 ≤ edge) && decide (edge ≤ l + 1000001000000)
  let c : Stamp := s0.counter t * tickUnits + ((sub * 65536 / 1000 : Nat) : Int)
  if s0.power.clocks.tdc = false then .next s0
  else if s0.roGet K.timebasePpsPresent = 1 then
    if inWindow then .next ((s0.withTime { s0.time with pps := { pps with lastEdge := some edge } }).ppsMeasure c residual)
    else .next s0
  else
    let n := if inWindow then pps.accepted + 1 else 1
    let s1 := s0.withTime { s0.time with pps := { pps with lastEdge := some edge, accepted := n } }
    if 3 ≤ n then .next ((s1.roSet K.timebasePpsPresent 1).ppsMeasure c residual) else .next s1

/-- PPS_IN_TIMEOUT: no edge by 1 µs after the predicted instant; PPS_IN is lost (R275). -/
def execPpsInTimeout (t : Tick) (s : State) : Out :=
  let s0 := s.at t
  match s0.time.pps.lastEdge with
  | some l =>
    if s0.roGet K.timebasePpsPresent = 1 ∧ l + 1000001000000 ≤ s0.now * 5000 then
      .next (((s0.roSet K.timebasePpsPresent 0).withTime
        { s0.time with pps := { s0.time.pps with accepted := 0, lastEdge := none, label := none, source := .unknown } }).selectTime)
    else .next s0
  | none => .next s0

/-- TIME_STEER_UPDATE. `freqErrE15` is the module's frequency estimate against TAI in 10⁻¹⁵. -/
def execTimeSteerUpdate (t : Tick) (freqErrE15 : Int) (s : State) : Out := .next ((s.at t).timeSteer freqErrE15)

/-- OCXO_AGEING_STEP (R277, R290): in holdover, also in GEODE, EFC moves 10⁻¹² against the predicted ageing each time that reaches as much. -/
def execOcxoAgeingStep (t : Tick) (s : State) : Out :=
  let s0 := s.at t
  let rate := s0.roInt K.timebaseOcxoAgeing
  if s0.roGet K.timebaseTimeActive = 4 ∧ 10 * 86400 * secondTicks ≤ rate.natAbs * (s0.now - s0.time.ageAt) then
    .next ((s0.withTime { s0.time with ageAt := s0.now }).roSetInt K.timebaseOcxoEfc
      (clampInt (-200000) 200000 (s0.roInt K.timebaseOcxoEfc - (if rate < 0 then -1 else 1))))
  else .next s0

/-! ### PTP (R283, R284) -/

/-- PTP is served outside OFF, SAVE and GEODE on an enabled port. -/
def State.ptpOn (s : State) (p : Port) : Bool :=
  s.pG (K.timebasePtpEnable p) == 1 && s.mode != .off && s.mode != .save && s.mode != .geode

/-- Publish a port and select the time source again. -/
def State.ptpRefresh (s : State) (p : Port) : State := ((s.ptpPublish p).ptpPublish p.other).selectTime

/-- PTP_ANNOUNCE: a master of the module's domain is heard. -/
def execPtpAnnounce (t : Tick) (p : Port) (a : Announce) (s : State) : Out :=
  let s0 := s.at t
  if s0.ptpOn p && decide (a.domain = s0.pG K.timebasePtpDomain) then
    let x := s0.time.ptp p
    let others := x.masters.filter (fun m => m.data.identity ≠ a.identity)
    .next ((s0.setPtp p { x with masters := ⟨a, s0.now⟩ :: others }).ptpRefresh p)
  else .next s0

/-- The Announce interval of a master in ticks. -/
def announceTicks (log : Int) : Nat :=
  if 0 ≤ log then secondTicks * 2 ^ log.toNat else secondTicks / 2 ^ (-log).toNat

/-- PTP_ANNOUNCE_TIMEOUT: masters silent for three intervals go. -/
def execPtpAnnounceTimeout (t : Tick) (p : Port) (s : State) : Out :=
  let s0 := s.at t
  let x := s0.time.ptp p
  let kept := x.masters.filter (fun m => decide (s0.now < m.heard + 3 * announceTicks m.data.intervalLog))
  let same : Bool := (bestOf kept).map (·.identity) == (bestOf x.masters).map (·.identity)
  let x1 := if same then { x with masters := kept }
    else { x with masters := kept, syncSeq := none, t1t2 := none, pathDelay := none, phi := none, residuals := [] }
  .next ((s0.setPtp p x1).ptpRefresh p)

/-- The asymmetry of a port in 2⁻¹⁶ ns (R283). -/
def State.asymmetry (s : State) (p : Port) : Int := s.pGInt (K.timebasePtpAsymmetry p) * 65536 / 1000

/-- With a Sync pair and a path delay at hand, the offset from the master moves φ (where the port is the time source) and joins the residuals. -/
def State.ptpMeasure (s : State) (p : Port) : State :=
  let x := s.time.ptp p
  match x.t1t2, x.pathDelay with
  | some (t1, t2), some d =>
    let off := t2 - t1 - d - s.asymmetry p
    let f := s.phi s.now - off
    let s1 := (s.setPtp p { x with phi := some f, residuals := (off :: x.residuals).take 64 }).ptpRefresh p
    if s1.roGet K.timebaseTimeActive = 2 + p.idx then (s1.measurePhi f s1.now).judgeTime else s1
  | _, _ => s

/-- A message from the port's best master. -/
def State.fromMaster (s : State) (p : Port) (master : BitVec 64) : Bool :=
  s.ptpOn p && decide ((s.bestMaster p).map (·.identity) = some master)

/-- PTP_SYNC: a one-step Sync completes the pair; a two-step one waits for its Follow_Up. -/
def execPtpSync (t : Tick) (p : Port) (master : BitVec 64) (seq : Nat) (twoStep : Bool) (t1 : Stamp) (rx : Stamp) (s : State) : Out :=
  let s0 := s.at t
  if s0.fromMaster p master then
    let x := s0.time.ptp p
    if twoStep then .next (s0.setPtp p { x with syncSeq := some (seq, rx) })
    else .next ((s0.setPtp p { x with syncSeq := none, t1t2 := some (t1, rx) }).ptpMeasure p)
  else .next s0

/-- PTP_FOLLOW_UP: completes the Sync of its sequence number. -/
def execPtpFollowUp (t : Tick) (p : Port) (master : BitVec 64) (seq : Nat) (t1 : Stamp) (s : State) : Out :=
  let s0 := s.at t
  let x := s0.time.ptp p
  match x.syncSeq with
  | some (q, rx) =>
    if s0.fromMaster p master && q == seq then
      .next ((s0.setPtp p { x with syncSeq := none, t1t2 := some (t1, rx) }).ptpMeasure p)
    else .next s0
  | none => .next s0

/-- PTP_DELAY_REQ_SEND: a Delay_Req, or a Pdelay_Req under P2P, leaves at `tx`. -/
def execPtpDelayReqSend (t : Tick) (p : Port) (tx : Stamp) (s : State) : Out :=
  let s0 := s.at t
  if s0.ptpOn p && s0.bestMaster p != none then
    let x := s0.time.ptp p
    let n := (x.reqSeq + 1) % 65536
    .next ((s0.setPtp p { x with reqSeq := n, reqTx := some tx }).emit
      (.ptp p (if s0.pG K.timebasePtpDelayMech = 0 then 1 else 2) (le 2 n)))
  else .next s0

/-- PTP_DELAY_RESP: the mean path delay of the E2E exchange (R283). -/
def execPtpDelayResp (t : Tick) (p : Port) (master : BitVec 64) (seq : Nat) (t4 : Stamp) (s : State) : Out :=
  let s0 := s.at t
  let x := s0.time.ptp p
  match x.reqTx, x.t1t2 with
  | some t3, some (t1, t2) =>
    if s0.fromMaster p master && x.reqSeq == seq && s0.pG K.timebasePtpDelayMech == 0 then
      .next ((s0.setPtp p { x with reqTx := none, pathDelay := some (((t2 - t3) + (t4 - t1)) / 2) }).ptpMeasure p)
    else .next s0
  | _, _ => .next s0

/-- PTP_PDELAY_RESP: the link delay of the P2P exchange (R283). -/
def execPtpPdelayResp (t : Tick) (p : Port) (seq : Nat) (t2 t3 t4 : Stamp) (s : State) : Out :=
  let s0 := s.at t
  let x := s0.time.ptp p
  match x.reqTx with
  | some t1 =>
    if s0.ptpOn p && x.reqSeq == seq && s0.pG K.timebasePtpDelayMech == 1 then
      .next ((s0.setPtp p { x with reqTx := none, pathDelay := some (((t4 - t1) - (t3 - t2)) / 2) }).ptpMeasure p)
    else .next s0
  | none => .next s0

/-- PTP_UNSUPPORTED_MESSAGE: discarded (R283). -/
def execPtpUnsupportedMessage (t : Tick) (_p : Port) (_kind : PtpUnsupported) (s : State) : Out := .next (s.at t)

/-! ### TDC (R285 to R287) -/

/-- One TDC input. -/
def State.tdcIn (s : State) (k : Nat) : TdcIn := s.time.tdc.getD k TdcIn.idle
/-- Replace one TDC input. -/
def State.setTdc (s : State) (k : Nat) (x : TdcIn) : State := s.withTime { s.time with tdc := s.time.tdc.set k x }

/-- The 16 bytes of a stamp record (R286). -/
def TdcRecord.bytes (r : TdcRecord) : List Byte :=
  tsBytes r.time ++ le 1 r.input ++ le 1 (b2n r.rising + 2 * b2n r.afterOverflow + 4 * b2n r.suspect) ++ le 2 r.seq

/-- While its reference runs (R24), inputs 0 to 3 stamp both edges while enabled, and 4 to 6 their rising edges (R285). -/
def State.tdcTakes (s : State) (k : Nat) (rising : Bool) : Bool :=
  s.power.clocks.tdc &&
  (if k ≤ 3 then s.pG (K.tdcInEnable k) == 1 else decide (k ≤ 6) && rising)

/-- Put a stamp in an input's FIFO of 4096, or count it as overflowed (R286). -/
def State.tdcStamp (s : State) (k : Nat) (rising : Bool) (edge : Nat) (time : Stamp) : State :=
  let x := s.tdcIn k
  if 4096 ≤ x.fifo.length then
    let s1 := (s.setTdc k { x with overflowing := true, afterOverflow := true }).bump (K.tdcInOverflow k) 1
    if x.overflowing then s1 else s1.raise Ev.tdcOverflow [u k]
  else
    let r : TdcRecord := { time := time, input := k, rising := rising, afterOverflow := x.afterOverflow,
                           suspect := s.roGet K.timebaseSuspect == 1, seq := x.seq }
    (s.setTdc k { x with fifo := x.fifo ++ [r], lastEdge := some edge, afterOverflow := false, seq := (x.seq + 1) % 65536 }).roSet
      (K.tdcInLast k) (ofLe r.bytes)

/-- TDC_EDGE: an edge `subPs` ps after tick `t`. Inputs 5 and 6 stamp every 10 000th; an edge within 4 ns of the last stamped one is missed (R285). -/
def execTdcEdge (t : Tick) (input : Nat) (rising : Bool) (subPs : Nat) (s : State) : Out :=
  let s0 := s.at t
  if s0.tdcTakes input rising then
    let x := s0.tdcIn input
    let edge := t * 5000 + subPs / 3 * 3
    let close : Bool := match x.lastEdge with
      | some l => decide (edge < l + 4000)
      | none => false
    if 5 ≤ input ∧ x.divider + 1 < 10000 then .next (s0.setTdc input { x with divider := x.divider + 1 })
    else
      let s1 := s0.setTdc input { x with divider := 0 }
      if close then .next (s1.bump (K.tdcInMissed input) 1)
      else .next (s1.tdcStamp input rising edge (s1.stampAt t + ((subPs / 3 * 3 * 65536 / 1000 : Nat) : Int)))
  else .next s0

/-- The nominal period of an input in ps: fixed at 1 ms for the divided inputs 5 and 6 (R285, R287). -/
def State.tdcNominal (s : State) (k : Nat) : Nat := if 5 ≤ k then 1000000000 else s.pG (K.tdcInNominal k)
/-- The gate of an input in ticks (R287). -/
def State.tdcGate (s : State) (k : Nat) : Nat := if 5 ≤ k then secondTicks else s.pG (K.tdcInGateMs k) * msTicks

/-- Take the oldest stamp out of an input's FIFO: inputs 0 to 3 also go to the log ring of 65 536 (R286). -/
def State.tdcDrain (s : State) (k : Nat) : State × Option TdcRecord :=
  let x := s.tdcIn k
  match x.fifo with
  | [] => (s, none)
  | r :: rest =>
    let x1 := { x with fifo := rest, overflowing := false,
                       gate := if s.tdcNominal k = 0 then x.gate else x.gate ++ [r.time] }
    let x2 := if k ≤ 3 then { x1 with log := (r :: x1.log).take 65536, logNext := (x1.logNext + 1) % 2 ^ 32 } else x1
    (s.setTdc k x2, some r)

/-- The fit of R287 over stamps in 2⁻¹⁶ ns: a, b, n of each stamp, all rational. -/
def tdcFit (xs : List Stamp) (nomPs : Nat) : Rat × Rat × List Int :=
  let t0 := xs.headD 0
  let nomU : Int := nomPs * 65536
  let ns := xs.map (fun x => roundDiv ((x - t0) * 1000) nomU.toNat)
  let cnt : Rat := xs.length
  let fx : List Rat := ns.map (fun (n : Int) => (n : Rat))
  let fy : List Rat := xs.map (fun (x : Stamp) => ((x - t0 : Int) : Rat))
  let mx := fx.foldl (· + ·) 0 / cnt
  let my := fy.foldl (· + ·) 0 / cnt
  let sxx := (fx.map (fun x => (x - mx) * (x - mx))).foldl (· + ·) 0
  let sxy := ((fx.zip fy).map (fun e => (e.1 - mx) * (e.2 - my))).foldl (· + ·) 0
  let b := if sxx = 0 then 0 else sxy / sxx
  (((t0 : Int) : Rat) + (my - b * mx), b, ns)

/-- Nearest integer to a rational. -/
def roundRat (r : Rat) : Int := roundDiv r.num r.den

/-- TDC_STAMP_DRAIN: the oldest record of an input's FIFO leaves it, to the gate's stamps and, of inputs 0 to 3, to the log ring and the trigger engine (R286, R287). -/
def execTdcStampDrain (t : Tick) (input : Nat) (s : State) : Out := .next ((s.at t).tdcDrain input).1

/-- TDC_GATE_FIT: at the end of an input's gate, the fit of its stamps is published (R287). -/
def execTdcGateFit (t : Tick) (input : Nat) (s : State) : Out :=
  let s0 := s.at t
  let x := s0.tdcIn input
  let nom := s0.tdcNominal input
  if input ≤ 6 ∧ nom ≠ 0 ∧ x.gateStart + s0.tdcGate input ≤ s0.now then
    let s1 := (s0.setTdc input { x with gate := [], gateStart := s0.now }).roSet (K.tdcInStamps input) x.gate.length
    if x.gate.length < 3 then .next (s1.roSet (K.tdcInFreq input) 0x80000000)
    else
      let fit := tdcFit x.gate nom
      let a := fit.1
      let b := fit.2.1
      let nomU : Rat := ((nom * 65536 : Nat) : Rat) / 1000
      if b = 0 then .next (s1.roSet (K.tdcInFreq input) 0x80000000)
      else
        let centre : Rat := ((s0.stampAt x.gateStart + s0.stampAt s0.now : Int) : Rat) / 2
        let phase := roundRat (a + b * (roundRat ((centre - a) / b) : Rat))
        let res := (x.gate.zip fit.2.2).map (fun e => (roundRat ((((e.1 : Int) : Rat) - a - b * (e.2 : Rat)) * 1000 / 65536)).natAbs)
        .next (((s1.roSetInt (K.tdcInFreq input) (roundRat ((nomU / b - 1) * 1000000000000))).roSet (K.tdcInPhase input) (tsBits phase)).roSet
          (K.tdcInResidual input) (rms res))
  else .next s0

/-! ### PPS_OUT (R288) -/

/-- A whole TAI second of module time falls within the tick. -/
def State.atWholeSecond (s : State) (t : Tick) : Bool := decide (s.stampAt t % secondUnits < tickUnits)

/-- PPS_OUT_EDGE: rises at a whole second, not within 0.5 s of the edge before. -/
def execPpsOutEdge (t : Tick) (s : State) : Out :=
  let s0 := s.at t
  let soon : Bool := match s0.time.ppsLast with
    | some l => decide (s0.stampAt t < l + 32768000000000)
    | none => false
  if s0.pG K.timebasePpsOutEnable = 1 ∧ s0.mode ≠ .off ∧ s0.mode ≠ .save ∧ s0.mode ≠ .geode
     ∧ s0.roGet K.timebaseQuality ≠ 3 ∧ s0.atWholeSecond t ∧ soon = false ∧ s0.time.ppsOut = false then
    .next ((s0.withTime { s0.time with ppsOut := true, ppsStart := t, ppsLast := some (s0.stampAt t) }).emit (.ppsEdge true))
  else .next s0

/-- PPS_OUT_FALL: low again 100 ms after the rise. -/
def execPpsOutFall (t : Tick) (s : State) : Out :=
  let s0 := s.at t
  if s0.time.ppsOut ∧ s0.time.ppsStart + 20000000 ≤ s0.now then
    .next ((s0.withTime { s0.time with ppsOut := false }).emit (.ppsEdge false))
  else .next s0

end Sys2Proof.Machine
end

