-- ==== Sys2Proof/Machine/Optical.lean ====
section
/-! DEFINITION. Seeds, port states, frame schedule and launches: the operations chapters 02 and 03 share. -/

namespace Sys2Proof.Machine

/-! ### State by port and by seed -/

/-- One port. -/
def State.portSt (s : State) : Port → PortSt
  | .a => s.opt.portA
  | .b => s.opt.portB
/-- Replace it. -/
def State.setPortSt (s : State) (p : Port) (x : PortSt) : State :=
  match p with
  | .a => { s with opt := { s.opt with portA := x } }
  | .b => { s with opt := { s.opt with portB := x } }
/-- The frame schedule of a port. -/
def State.frame (s : State) : Port → FrameSt
  | .a => s.opt.frameA
  | .b => s.opt.frameB
/-- Replace it. -/
def State.setFrame (s : State) (p : Port) (x : FrameSt) : State :=
  match p with
  | .a => { s with opt := { s.opt with frameA := x } }
  | .b => { s with opt := { s.opt with frameB := x } }
/-- One seed. -/
def State.seed (s : State) : Seed → SeedSt
  | .s0 => s.opt.seed0
  | .s1 => s.opt.seed1
/-- Replace it. -/
def State.setSeed (s : State) (d : Seed) (x : SeedSt) : State :=
  match d with
  | .s0 => { s with opt := { s.opt with seed0 := x } }
  | .s1 => { s with opt := { s.opt with seed1 := x } }
/-- 0 for S0, 1 for S1: the number of its drive channel too. -/
def seedIdx : Seed → Nat
  | .s0 => 0
  | .s1 => 1
/-- The other seed. -/
def otherSeed : Seed → Seed
  | .s0 => .s1
  | .s1 => .s0
/-- The parameter of a seed's status (R36). -/
def seedKey : Seed → Key
  | .s0 => K.opticalSeedS0Status
  | .s1 => K.opticalSeedS1Status
/-- A seed's status: 0 OFF, 1 LOCKING, 2 LOCKED, 3 FAULT, 4 RETIRED. -/
def State.seedStatus (s : State) (d : Seed) : Nat := s.roGet (seedKey d)
/-- Set it. -/
def State.setSeedStatus (s : State) (d : Seed) (v : Nat) : State := s.roSet (seedKey d) v
/-- The active seed. -/
def State.activeSeed (s : State) : Seed := if s.roGet K.opticalSeedActive = 1 then .s1 else .s0

/-- A port's state code: 0 NO_FIBRE, 1 DISCOVERING, 2 BOUND, 3 EMITTING, 4 APR. -/
def State.pState (s : State) (p : Port) : Nat := s.roGet (K.portState p)

/-- Shed step 4 holds this port (R367). -/
def State.shedHolds (s : State) (p : Port) : Bool :=
  bitOf (s.roGet K.powerShedSteps) 3 && s.pG K.powerBedrockPort != p.idx

/-- The module state lets this port work: RUNNING, or BEDROCK with this port kept (R51, R430). -/
def State.portServed (s : State) (p : Port) : Bool :=
  s.mode == .running || (s.mode == .bedrock && s.opt.kept == some p)

/-- A port may launch (R430). -/
def State.mayLaunch (s : State) (p : Port) : Bool :=
  s.portServed p && s.pP p (K.portEnable p) == 1 && !(s.shedHolds p) && s.seedStatus s.activeSeed == 2 && s.pumpsOk p

/-- The thinned schedule is in force (R87, R377). -/
def State.thinned (s : State) (p : Port) : Bool := s.mode == .bedrock && s.opt.kept == some p

/-! ### Frame period (R58, R68, R69) -/

/-- The number of groups G of a plan (R74). -/
def groupsOf (plan : Nat) : Nat := if plan = 0 then 8 else if plan = 1 then 4 else if plan = 2 then 2 else 1

/-- The slots of group g (R74). -/
def groupSlots (plan g : Nat) : List Nat := (List.range (8 / groupsOf plan)).map (fun i => g + i * groupsOf plan)

/-- R68 in ticks: smallest whole number of µs that covers a round trip in ps, with 20 µs, 40 µs and the chirps. -/
def autoPeriod (roundTrip plan tau : Nat) : Nat :=
  200 * max (max (ceilDiv (roundTrip + 20000000) 1000000) 40) (ceilDiv (groupsOf plan * (5 * tau + 3000)) 1000)

/-- The period R68 gives for the discovered round trip under a set. -/
def State.ruleFor (s : State) (set : PSet) (p : Port) : Nat :=
  autoPeriod (s.roGet (K.portFibreRoundTrip p)) (set.get (K.portSlotPlan p)) (set.get (K.portChirpDuration p))

/-- The period every commit check takes for a port under a set (R58, R68, R69). -/
def State.checkPeriod (s : State) (set : PSet) (p : Port) : Nat :=
  if set.get (K.portFrameMode p) = 1 then set.get (K.portFramePeriod p)
  else if (s.portSt p).stored then min 400000 (s.ruleFor set p) else 400000

/-- The period in force on a port (R58): in AUTO never shorter than at the last F until the next. -/
def State.period (s : State) (p : Port) : Nat :=
  if s.pP p (K.portFrameMode p) = 1 then s.pP p (K.portFramePeriod p)
  else if (s.portSt p).stored then min 400000 (max (s.ruleFor (s.cfg.act p).set p) (s.portSt p).minPeriod) else 400000

/-- The fibre outreaches the period (R58, R68): FIXED too short, the rule beyond 2.0 ms, or BEYOND_RANGE. -/
def State.overlong (s : State) (set : PSet) (p : Port) : Bool :=
  (s.portSt p).stored &&
  (s.roGet (K.portFibreEndKind p) == 3 ||
   (if set.get (K.portFrameMode p) = 1 then decide (set.get (K.portFramePeriod p) * 5000 < s.roGet (K.portFibreRoundTrip p) + 20000000)
    else decide (400000 < s.ruleFor set p)))

/-- The smallest interval of the thinned schedule in ticks: m × T_f / 8 (R87). -/
def thinStep (period : Nat) : Nat := ceilDiv 200000 (period / 8) * (period / 8)

/-- The trace interval Δ of a port in ticks (R125). -/
def State.traceInterval (s : State) (p : Port) : Nat :=
  if s.thinned p then thinStep (s.period p) else s.period p / groupsOf (s.pP p (K.portSlotPlan p))

/-! ### Launch power (R79, R80) -/

/-- The cap per slot, 0.1 dBm (R79). -/
def slotCap (plan : Nat) : Nat := if plan ≤ 1 then 210 else if plan = 2 then 180 else 150

/-- The chirps' average 8 × P × τ / T_f is within 18.0 mW at P in 0.1 dBm (R80): P in mW is 10^(P/100). -/
def averageOk (power tau period : Nat) : Bool :=
  let e := exp2Fix ((power : Int) * 14267572527 / 100)
  decide (8 * e.1 * 2 ^ e.2.toNat * tau ≤ 18 * period * 2 ^ 60)

/-- The smallest reduction in 0.1 dB that keeps the average within the limit. -/
def reductionFor (power tau period : Nat) : Nat :=
  ((List.range (power + 1)).find? (fun r => averageOk (power - r) tau period)).getD power

/-- P and its reduction for a set and a period (R79, R80). DESIGN CHOICE (log entry 54): a thinned port, which launches one slot at a time (R87), keeps the cap of its own slot_plan. -/
def powerFor (set : PSet) (p : Port) (period : Nat) : Nat × Nat :=
  let power := min (set.get (K.portLaunchPower p)) (slotCap (set.get (K.portSlotPlan p)))
  let r := reductionFor power (set.get (K.portChirpDuration p)) period
  (power - r, r)

/-- Publish P and the reduction of a port for a set and a period (R80), with the cap `powerFor` chooses. -/
def State.publishPower (s : State) (set : PSet) (p : Port) (period : Nat) : State :=
  (s.roSet (K.portLaunchSlotPower p) (powerFor set p period).1).roSet (K.portLaunchReduction p) (powerFor set p period).2

/-! ### Light (R45, R54, R63) -/

/-- The centre of a slot in kHz from the active seed: (s − 3.5) × 125 MHz (R45). -/
def slotCentre (slot : Nat) : Int := (2 * (slot : Int) - 7) * 62500

/-- The chirp's bandwidth in kHz (R77). -/
def chirpKhz (code : Nat) : Int := if code = 0 then 25000 else if code = 1 then 50000 else 100000

/-- A chirp of a bandwidth in a slot sweeps upwards from the slot centre − B/2 to the slot centre + B/2 (R45). -/
def chirpLight (slot : Nat) (khz : Int) (ticks : Nat) (peak : Int) : Light where
  centre := slotCentre slot
  sweep := some (slotCentre slot - khz / 2, slotCentre slot + khz / 2)
  ticks := ticks
  peak := peak

/-- An APR-level probe: slot 3, at most 1 µs, at most +10 dBm (R63). -/
def probeLight : Light := ⟨slotCentre 3, none, 200, 1000⟩

/-- The chirp of a slot under a set, at a power in 0.1 dBm (R45, R77). -/
def setLight (set : PSet) (p : Port) (slot power : Nat) : Light :=
  chirpLight slot (chirpKhz (set.get (K.portChirpBandwidth p))) (set.get (K.portChirpDuration p)) (10 * (power : Int))

/-- How many launches of a phase, `every` ticks apart, have left since `from_`: at most `total`. -/
def State.launchesSince (s : State) (from_ : Tick) (every total : Nat) : Nat := min total ((s.now - from_) / max 1 every + 1)

/-- One step of the ramp: 16 frames of 2 ms of slot 3 alone, a 100 MHz chirp of 8 µs (R54). -/
def State.rampStep (s : State) (p : Port) (from_ : Tick) (step : Nat) (peak : Int) : State :=
  let at_ := from_ + step * 6400000
  if s.now < at_ then s else s.emit (.train p 3 (s.stampAt at_) 400000 (s.launchesSince at_ 400000 16) (chirpLight 3 100000 1600 peak))

/-- The profile phase's launches: the committed plan at its period, 256 frames (R54). -/
def State.profileLight (s : State) (p : Port) (from_ : Tick) (period : Nat) : State :=
  let set := (s.cfg.act p).set
  let g := groupsOf (set.get (K.portSlotPlan p))
  let power := (powerFor set p period).1
  (List.range 8).foldl (fun st n =>
    let at_ := from_ + n % g * (period / g)
    if st.now < at_ then st else st.emit (.train p n (st.stampAt at_) period (st.launchesSince at_ period 256) (setLight set p n power))) s

/-- The period of the profile phase: the one that follows from the ranging (R54, R58). -/
def State.profilePeriod (s : State) (p : Port) (trip : Nat) : Nat :=
  let set := (s.cfg.act p).set
  let least := if (s.portSt p).stored then (s.portSt p).minPeriod else 400000
  if set.get (K.portFrameMode p) = 1 then set.get (K.portFramePeriod p)
  else min 400000 (max (autoPeriod trip (set.get (K.portSlotPlan p)) (set.get (K.portChirpDuration p))) least)

/-- The round trip in ps of a length in 0.01 m: 2 × length / v (R55). -/
def roundTripPs (len : Nat) : Nat := (roundDiv ((len * 20000000000 : Nat) : Int) 204190476).toNat

/-- The length that a ranging gives, in 0.01 m (R55). -/
def rangedLength (r : Ranging) : Nat := if r.beyondRange && !r.loopSeen then 20214857 else r.lastPosition

/-- The round trip a ranging gives: the search limit stands for BEYOND_RANGE (R55). -/
def rangedTrip (r : Ranging) : Nat := if r.beyondRange && !r.loopSeen then 1980000000 else roundTripPs (rangedLength r)

/-- The launches of the discovery phase in progress, as far as it has come (R54): they leave as the phase ends, or is broken off. DESIGN CHOICE (log entry 55). -/
def State.phaseLight (s : State) (p : Port) : State :=
  match (s.portSt p).phase with
  | none => s
  | some (.continuity, a) => s.emit (.train p 3 (s.stampAt a) 200000 (s.launchesSince a 200000 10) probeLight)
  | some (.ramp, a) => ((((s.rampStep p a 0 1000).rampStep p a 1 1300).rampStep p a 2 1600).rampStep p a 3 1900).rampStep p a 4 2100
  | some (.ranging, a) => (List.range 8).foldl (fun st n => st.emit (.train p n (st.stampAt a) 400000 (st.launchesSince a 400000 1024)
      (setLight (st.cfg.act p).set p n 150))) s
  | some (.profile, a) => s.profileLight p a (s.profilePeriod p (((s.portSt p).found.map rangedTrip).getD 0))

/-! ### DTS turn (R84) -/

/-- A port takes part in DTS pulses. The turn needs Raman channels that are not idle (R152, R367). -/
def State.dtsTakes (s : State) (p : Port) : Bool :=
  s.dtsOn p && s.pState p == 3

/-- The switch begins to move to a port, `delay` ticks from now, and settles 5 µs later. -/
def State.dtsMove (s : State) (to_ : Port) (delay : Nat) : State :=
  { s with opt := { s.opt with dts := { s.opt.dts with turn := to_, moving := some (s.now + delay + 1000) } } }

/-- The turn passes at once when its port stops taking part and the other takes part. -/
def State.dtsCheck (s : State) : State :=
  if !(s.dtsTakes s.opt.dts.turn) && s.dtsTakes s.opt.dts.turn.other then s.dtsMove s.opt.dts.turn.other 0 else s

/-! ### Frames begin and end -/

/-- The launches from a tick on belong to a new generation; the first of each slot among them is stitched. `seen` are the slots launched since. -/
def renewFrom (tick gen : Nat) : List Nat → List Launch → List Launch
  | _, [] => []
  | seen, l :: rest =>
    if l.tick < tick then l :: renewFrom tick gen seen rest
    else { l with gen := gen, stitched := l.stitched || l.slots.any (fun n => !(seen.contains n)) } :: renewFrom tick gen (seen ++ l.slots) rest

/-- References and temporal state of stages 7 to 9 are reset for what is launched from a tick on, every weight is 1 again, and the first trace of each slot is stitched; traces launched before it are still
formed with the state they have (R108, R109). -/
def State.pipelineResetAt (s : State) (p : Port) (tick : Tick) : State :=
  let c := s.coh p
  let f := s.frame p
  let fresh := (f.inflight.filter (fun l => decide (tick ≤ l.tick))).flatMap (·.slots)
  let s1 := s.setCoh p { c with gen := c.gen + 1, points := [], segs := [], prev := (⟨c.gen, c.points, c.segs⟩ :: c.prev).take 4, combineFrames := 0, weightsNext := none }
  let s2 := s1.setFrame p { f with inflight := renewFrom tick (c.gen + 1) [] f.inflight, stitch := (List.range 8).map (fun n => !(fresh.contains n)) }
  (List.range c.segs.length).foldl (fun st k => (List.range 8).foldl (fun st2 n => st2.roSet (K.portCombineSegWeight p k n) 255) st) s2

/-- The reset for everything launched from now on. -/
def State.pipelineReset (s : State) (p : Port) : State := s.pipelineResetAt p (s.now + 1)

/-- The first instant of a port's TAI grid at or after a tick (R70, R71): the grid stands on the tick count, placed by the TAI reading to the
nearest multiple of 20 ticks. -/
def State.gridNext (s : State) (p : Port) (t : Tick) : Tick :=
  let period := max 1 (s.period p)
  t + ((((s.pP p (K.portFrameOffset p) : Nat) : Int) - s.stepSize - s.counter t) % (period : Int)).toNat

/-- Signed difference in ps of a frame start and its grid instant (R71). -/
def State.gridError (s : State) (p : Port) (t : Tick) : Int :=
  let g : Int := (max 1 (s.period p) : Nat) * tickUnits
  let d := (s.stampAt t - ((s.pP p (K.portFrameOffset p) : Nat) : Int) * tickUnits) % g
  roundDiv ((if 2 * d ≤ g then d else d - g) * 1000) 65536

/-- A port follows the bus: BUS alignment under the role FOLLOWER (R90). -/
def State.onBus (s : State) (p : Port) : Bool := s.pP p (K.portFrameAlign p) == 2 && s.pG K.schedLockRole == 2

/-- Set the lock state, raising EV_FRAME_LOCK on a change (R90). -/
def State.setLock (s : State) (v : Nat) : State :=
  if s.roGet K.schedLockState = v then s else (s.roSet K.schedLockState v).raise Ev.frameLock [u v]

/-- Change the lock record. -/
def State.withLock (s : State) (l : Lock) : State := { s with opt := { s.opt with lock := l } }

/-- A port's frames begin: the first start by its alignment (R70, R90); the records of its converters, and of the interferometer where the other port has no frames, begin anew here. -/
def State.framesStart (s : State) (p : Port) : State :=
  let alone : Bool := (s.frame p.other).next.isNone && decide ((s.frame p.other).inflight = [])
  let sn : State := { s with sig := { s.sig with laser := if alone then { s.sig.laser with next := 3 * s.now / 2, phase := [] } else s.sig.laser } }
  let sc := sn.setCoh p { sn.coh p with adc := ⟨12 * s.now, []⟩, gainLog := [] }
  let s0 := sc.roSet (K.portFramePeriodLive p) (s.period p)
  if s0.onBus p then
    ((s0.setFrame p { FrameSt.idle with stitch := List.replicate 8 true, gap := true }).withLock { s0.opt.lock with acquireSince := some s0.now }).setLock 1
  else
    let next := if s0.pP p (K.portFrameAlign p) = 1 then s0.gridNext p (s0.now + 40000) else s0.nextMultiple (s0.now + 40000) 20
    s0.setFrame p { FrameSt.idle with next := some next, origin := next, stitch := List.replicate 8 true }

/-- A port that has frames waits for lock (R90): no frame runs until it, and the launches after it are stitched (R73). -/
def State.toBus (s : State) (p : Port) : State :=
  let f := s.frame p
  ((s.setFrame p { f with next := none, gap := true, stitch := List.replicate 8 true }).withLock { s.opt.lock with acquireSince := some s.now }).setLock 1

/-- A port's next frame start moves to a tick, with a break in its launches where it was not there already (R72, R73, R92). The thinned schedule follows (R87). -/
def State.regridTo (s : State) (p : Port) (next : Tick) : State :=
  let f := s.frame p
  if f.next = some next then s
  else s.setFrame p { f with next := some next, origin := f.origin + (next - f.next.getD 0), stitch := List.replicate 8 true }

/-- The first frame start of a port that waited for lock, or of a change to another alignment while it waited (R70, R90). -/
def State.firstAt (s : State) (p : Port) (next : Tick) : State :=
  s.setFrame p { s.frame p with next := some next, origin := next, thinNext := 0 }

/-- The frames of a port that follow no bus any more run as FREE (R90). -/
def State.freeRun (s : State) (p : Port) : State :=
  if s.hasFrames p ∧ (s.frame p).next = none then s.firstAt p (s.nextMultiple (s.now + 40000) 20) else s

/-- A port's frames end: its blocks close (R142), and no trace of it is still to come. -/
def State.framesStop (s : State) (p : Port) : State :=
  let s1 := (s.closePort p).dtsCut p
  let s2 := (s1.setFrame p FrameSt.idle).roSet (K.portFramePeriodLive p) 0
  s2.setCoh p { s2.coh p with points := [], prev := [] }

/-! ### Port states (R53) -/

/-- Move a port to a state with EV_PORT_STATE; frames begin or end with it, and leaving APR opens the clamp and raises EV_APR_EXIT (R53, R64). -/
def State.enterPort (s : State) (p : Port) (code : Nat) : State :=
  let old := s.pState p
  if old = code then s
  else
    let s0 := if old = 1 then s.phaseLight p else if old = 4 then (s.raise Ev.aprExit [u p.idx, tsVal s.stamp]).setClamp p false else s
    let s1 := s0.roSet (K.portState p) code
    let s2 := if 2 ≤ old ∧ code < 2 then s1.framesStop p else if old < 2 ∧ 2 ≤ code then s1.framesStart p else s1
    let s3 := if code = 2 then (s2.roSet (K.portFrameCount p) 0).roSet (K.portTraceCount p) 0 else s2
    let s4 := if code = 3 then s3.pipelineReset p else s3
    let s4 := s4.setDts p { s4.dts p with lit := false }
    let s5 := if code ≠ 1 then s4.setPortSt p { s4.portSt p with phase := none } else s4
    (s5.dtsCheck).raise Ev.portState [u p.idx, u code, tsVal s.stamp]

/-- The reasons that hold, as port.x.hold_reasons gives them (R431). -/
def State.holdMask (s : State) (p : Port) : Nat :=
  b2n (s.portSt p).overlength + 2 * b2n (s.portSt p).looped + 4 * b2n (s.shedHolds p) + 8 * b2n (s.portSt p).waitRestart

/-- The lowest code of a mask of reasons, 0 for none. -/
def lowestCode (m : Nat) : Nat :=
  if bitOf m 0 then 1 else if bitOf m 1 then 2 else if bitOf m 2 then 3 else if bitOf m 3 then 4 else 0

/-- Publish the hold reasons; an EMITTING port that is held goes to BOUND. -/
def State.publishHold (s : State) (p : Port) : State :=
  let m := s.holdMask p
  let s1 := (s.roSet (K.portHoldReasons p) m).roSet (K.portHoldReason p) (lowestCode m)
  if m ≠ 0 ∧ s1.pState p = 3 then s1.enterPort p 2 else s1

/-- A port's probe of NO_FIBRE is due: one per second (R53). -/
def State.probeDue (s : State) (p : Port) : Bool :=
  s.pState p == 0 && s.mayLaunch p && (match (s.portSt p).probeAt with
    | some a => decide (a + secondTicks ≤ s.now)
    | none => true)

/-- A commit may act now: 200 µs after validation, and at or after its named time (R30). -/
def State.mayAct (s : State) (c : Commit) : Bool := decide (c.minTick ≤ s.now) && (c.named.map (fun x => decide (x ≤ s.stamp))).getD true

/-- Port A's re-discovery is due at this instant: it waits in BOUND or EMITTING, or its F is now (R31, R60). -/
def State.aRestarts (s : State) : Bool :=
  ((s.portSt .a).rediscover && (s.pState .a == 2 || s.pState .a == 3)) ||
    (s.hasFrames .a && decide ((s.frame .a).next.getD (s.now + 1) ≤ s.now) &&
      s.cfg.commits.any (fun c => !c.passedA && s.mayAct c && c.actions.any (fun e => e.1 == K.portRediscover .a)))

/-- Port A needs discovery at this instant, so port B lets it go first (R60): its re-discovery is due, or its probe is. -/
def State.afterA (s : State) (p : Port) : Bool := p == .b && (s.aRestarts || s.probeDue .a)

/-- Discovery begins on a port (R53, R54); while the other port discovers, it waits (R60). -/
def State.discover (s : State) (p : Port) : State :=
  if s.pState p.other = 1 then s.setPortSt p { s.portSt p with rediscover := true }
  else
    let s1 := s.setPortSt p { s.portSt p with phase := some (.continuity, s.now), found := none, rediscover := false }
    s1.enterPort p 1

/-- A discovery has ended on a port: a change that waited on the other port starts there (R60). -/
def State.discoveryEnded (s : State) (p : Port) : State :=
  let q := p.other
  if (s.portSt q).rediscover && (s.pState q == 2 || s.pState q == 3) then s.discover q else s

/-- A port goes to NO_FIBRE. -/
def State.noFibre (s : State) (p : Port) : State :=
  let was := s.pState p
  let s1 := s.setPortSt p { s.portSt p with waitRestart := false, declared := none, rediscover := false, probeAt := some s.now }
  let s2 := (s1.enterPort p 0).publishHold p
  if was = 1 then s2.discoveryEnded p else s2

/-- Causes of EV_APR_ENTER (log entry 16): 0 break, 1 open connection, 2 LAUNCH_CLAMP, 3 continuity lost. -/
def State.enterApr (s : State) (p : Port) (cause : Nat) : State :=
  let was := s.pState p
  let s1 := s.enterPort p 4
  let s2 := s1.setPortSt p { s1.portSt p with aprSince := s.now, aprMarks := 0, declared := none, darkNear := [], darkEnd := [] }
  let s3 := s2.raise Ev.aprEnter [u p.idx, u cause, tsVal s.stamp]
  if was = 1 then s3.discoveryEnded p else s3

/-- A port leaves APR (R64): CLAMP_RECOVERY holds until its first frame in BOUND. -/
def State.leaveApr (s : State) (p : Port) (fibre : Bool) : State :=
  if fibre then
    let s2 := s.setPortSt p { s.portSt p with waitRestart := true }
    (s2.discover p).publishHold p
  else s.noFibre p

/-! ### Launches (R74, R75, R86, R87, R289) -/

/-- Launch a group at a tick: one trace is to come, stamped with the counter time, the launch delay and φ (R289). BOUND and APR launch no light,
but for the probe of a frame that carries one (R52, R86). -/
def State.launchGroup (s : State) (p : Port) (tick : Tick) (plan g : Nat) (slots : List Nat) (thin : Bool) : State :=
  let f := s.frame p
  let dark : Bool := s.pState p != 3
  let probe : Bool := s.pState p == 4 && f.probed && slots.contains 3
  let stamp := s.stampAt tick + ((launchDelay p * 65536 / 1000 : Nat) : Int)
  let l : Launch :=
    { tick := tick, stamp := stamp, plan := plan, group := g, slots := slots, dark := dark, apr := s.pState p == 4, thinned := thin,
      suspect := s.roGet K.timebaseSuspect == 1, stitched := slots.any (fun n => f.stitch.getD n false), epoch := (s.cfg.act p).epoch,
      frame := s.roGet (K.portFrameCount p), gain := (s.coh p).gainMark, seed := s.roGet K.opticalSeedActive, preBad := s.chBad (preOf p),
      first := s.pP p (K.portPointsFirst p), count := s.roGet (K.portPointsCountLive p),
      delta := if thin then thinStep (s.period p) else s.period p / groupsOf plan, set := (s.cfg.act p).set,
      gen := (s.coh p).gen, since := ((s.cfg.past.get p).head?.map (·.1)).getD 0 }
  let s1 := s.setFrame p { f with inflight := f.inflight ++ [l], stitch := slots.foldl (fun st n => st.set n false) f.stitch, probed := f.probed && !probe }
  if dark = false then slots.foldl (fun st n => st.emit (.pulse p n stamp (setLight l.set p n (s.roGet (K.portLaunchSlotPower p))))) s1
  else if probe then s1.emit (.pulse p 3 stamp probeLight) else s1

/-- Groups of a frame after group 0, and thinned launches, wait until their tick. -/
def State.launchNext (s : State) (p : Port) (g : Nat) : State :=
  let f := s.frame p
  let plan := s.pP p (K.portSlotPlan p)
  let s1 := s.launchGroup p (f.last + g * (s.period p / groupsOf plan)) plan g (groupSlots plan g) false
  s1.setFrame p { s1.frame p with groupNext := g + 1 }

/-- GROUP_LAUNCH: group g at its offset from the frame start (R74). -/
def execGroupLaunch (t : Tick) (p : Port) (g : Nat) (s : State) : Out :=
  let s0 := s.at t
  let f := s0.frame p
  let plan := s0.pP p (K.portSlotPlan p)
  if s0.hasFrames p && !(s0.thinned p) && decide (0 < g) && decide (g < groupsOf plan) && decide (f.groupNext = g) && !f.gap
     && decide (f.last + g * (s0.period p / groupsOf plan) ≤ s0.now) then
    .next (s0.launchNext p g)
  else .next s0

/-- THINNED_LAUNCH: the next multiple of m × T_f / 8 from the frame origin, slots in turn (R87). -/
def execThinnedLaunch (t : Tick) (p : Port) (s : State) : Out :=
  let s0 := s.at t
  let f := s0.frame p
  let at_ := f.origin + f.thinNext * thinStep (s0.period p)
  if s0.hasFrames p && s0.thinned p && f.next.isSome && !f.gap && decide (at_ ≤ s0.now) then
    let n := f.thinNext % 8
    let s1 := s0.launchGroup p at_ 0 n [n] true
    .next (s1.setFrame p { s1.frame p with thinNext := f.thinNext + 1 })
  else .next s0

/-! ### Seeds (R36 to R43, R429) -/

/-- How long after its launch tick the return of a trace's last point has wholly arrived: the chirp, the internal round trip of 2.1 µs (R35) and the point's own, k fibre samples of 1/12
tick for each point (R17, R96). -/
def Launch.returnTicks (l : Launch) (p : Port) : Nat :=
  l.set.get (K.portChirpDuration p) + 420 + ceilDiv ((l.first + l.count - 1) * l.set.get (K.portPointsPitch p)) 12

/-- The marks of a switch interval that ends at a tick (R39): a trace launched before it whose launch or return window reaches into the interval is stitched; of those launched at or after it,
which carry the new seed, the first of each slot. `seen` are the slots launched since. -/
def switchMarks (p : Port) (endAt : Tick) (seed : Nat) : List Nat → List Launch → List Launch
  | _, [] => []
  | seen, l :: rest =>
    if l.tick < endAt then { l with stitched := l.stitched || decide (endAt ≤ l.tick + l.returnTicks p + 200) } :: switchMarks p endAt seed seen rest
    else { l with seed := seed, stitched := l.stitched || l.slots.any (fun n => !(seen.contains n)) } :: switchMarks p endAt seed (seen ++ l.slots) rest

/-- The switch is made (R38 to R40): the traces it touches are stitched, the old seed goes off or stands by, L begins anew (R102); where the interval ends at an F, the port's pipeline is reset once
(R119); the wavelength is calibrated 1 h later (R394). -/
def State.switchSeed (s : State) (w : Switch) : State :=
  let old := otherSeed w.to_
  let mark := fun (st : State) (p : Port) =>
    let f := st.frame p
    let fresh := (f.inflight.filter (fun l => decide (w.endAt ≤ l.tick))).flatMap (·.slots)
    st.setFrame p { f with inflight := switchMarks p w.endAt (seedIdx w.to_) [] f.inflight,
                           stitch := (List.range 8).map (fun n => f.stitch.getD n false || !(fresh.contains n)) }
  let s1 := (s.roSet K.opticalSeedActive (seedIdx w.to_)).eachPort mark
  let s2 := if w.fault then
      (s1.setSeedStatus old 3).setSeed old { SeedSt.idle with ref := some w.endAt }
    else s1
  let s3 := (s2.bump K.opticalSeedSwitchCount 1).raise Ev.seedSwitch [tsVal (s.stampAt w.endAt), u (seedIdx w.to_)]
  let s4 : State := { s3 with opt := { s3.opt with switch := none, switchedAt := some w.endAt }, sig := { s3.sig with laser := { s3.sig.laser with phase := [] } },
                              health := { s3.health with wavelengthDue := s3.now + 3600 * secondTicks } }
  let s5 := s4.eachPort (fun st p => if st.hasFrames p && decide (0 < w.endAt) && decide (st.opt.fAt.get p = w.endAt) then st.pipelineResetAt p w.endAt else st)
  s5.eachPort (fun st p =>
    match (st.portSt p).phase with
    | some (ph, _) =>
      let lit := st.phaseLight p
      lit.setPortSt p { lit.portSt p with phase := some (if ph = .continuity then (.continuity, s.now) else (.ramp, s.now)) }
    | none => st)

/-- A pending switch whose interval has ended is made. -/
def State.switchIfDue (s : State) : State :=
  match s.opt.switch with
  | some w => if w.endAt ≤ s.now then s.switchSeed w else s
  | none => s

/-- The first frame start of a port at least `d` ticks from now. -/
def State.startAfter (s : State) (p : Port) (d : Nat) : Tick :=
  match (s.frame p).next with
  | none => s.now + d
  | some n => if s.now + d ≤ n then n else n + ceilDiv (s.now + d - n) (max 1 (s.period p)) * s.period p

/-- The switch interval of R38: it ends at a frame start of port A if A has frames, else of B; with no frames the switch happens at once. -/
def State.planSwitch (s : State) (to_ : Seed) (fault : Bool) : State :=
  let w : Switch :=
    if s.hasFrames .a then ⟨s.startAfter .a 200, to_, fault, some .a⟩
    else if s.hasFrames .b then ⟨s.startAfter .b 200, to_, fault, some .b⟩
    else ⟨s.now, to_, fault, none⟩
  let s1 : State := { s with opt := { s.opt with switch := some w } }
  if w.port = none then s1.switchIfDue else s1

/-- SEED_SWITCHOVER: the end of the switch interval (R38). -/
def execSeedSwitchover (t : Tick) (s : State) : Out := .next ((s.at t).switchIfDue)

/-- SEED_SELECT: the host's switch takes the interval of R38 that ends at F, the frame start `selectAt`, unless the seed is active, or has left LOCKED (R43). -/
def execSeedSelect (t : Tick) (s : State) : Out :=
  let s0 := s.at t
  if s0.opt.select = 0 then .next s0
  else
    let d : Seed := if s0.opt.select = 2 then .s1 else .s0
    let s1 : State := { s0 with opt := { s0.opt with select := 0 } }
    if d = s1.activeSeed then .next s1
    else if s1.seedStatus d ≠ 2 then .next (s1.raise Ev.seedFault [u (seedIdx d)])
    else .next (s1.switchSeed ⟨s1.opt.selectAt, d, false, none⟩)

/-- A seed may be driven for relock (R41): outside the states named, or as standby in BEDROCK or under shed step 2, it may not. -/
def State.mayRelock (s : State) (d : Seed) : Bool :=
  s.mode.working && (s.activeSeed == d || (s.mode != .bedrock && !(bitOf (s.roGet K.powerShedSteps) 1)))

/-- When attempt `n` (from 0) is due after its reference instant: 10, 70 and 130 s (R41). -/
def relockDue (ref n : Nat) : Tick := ref + (10 + 60 * n) * secondTicks

/-- An attempt has failed: after the third the seed is RETIRED (R41). -/
def State.relockFailed (s : State) (d : Seed) : State :=
  let x := s.seed d
  let s1 := s.setSeed d { x with trying := false, lockAt := none }
  if 3 ≤ x.attempts then ((s1.setSeed d SeedSt.idle).setSeedStatus d 4).raise Ev.seedFault [u (seedIdx d)] else s1

/-- SEED_RELOCK_ATTEMPT: at its scheduled time, at least 60 s after the attempt before; deferred while the seed may not be driven (R41). -/
def execSeedRelockAttempt (t : Tick) (d : Seed) (ok : Bool) (s : State) : Out :=
  let s0 := s.at t
  let x := s0.seed d
  match x.ref with
  | none => .next s0
  | some r =>
    if s0.seedStatus d = 3 ∧ s0.mayRelock d ∧ x.trying = false ∧ x.attempts < 3 ∧ relockDue r x.attempts ≤ s0.now
       ∧ (x.attempts = 0 ∨ x.lastAttempt + 60 * secondTicks ≤ s0.now) then
      let s1 := s0.setSeed d { x with attempts := x.attempts + 1, lastAttempt := s0.now, trying := ok, lockAt := none }
      .next (if ok then s1 else s1.relockFailed d)
    else .next s0

/-- SEED_LOCK_ACQUIRED: the lock of a driven seed is established, at a first acquisition and at a relock alike (R36). -/
def execSeedLockAcquired (t : Tick) (d : Seed) (s : State) : Out :=
  let s0 := s.at t
  let x := s0.seed d
  if (s0.seedStatus d = 1 ∨ s0.seedStatus d = 3 ∧ x.trying) ∧ s0.mode.working then .next (s0.setSeed d { x with lockAt := some s0.now })
  else .next s0

/-- A fault of the standby seed (R42): FAULT, the event, and its relock schedule from now. A relock in its second fails. -/
def State.standbyFault (s : State) (d : Seed) : State :=
  if (s.seed d).trying then s.relockFailed d
  else
    let s1 := (s.setSeedStatus d 3).setSeed d { SeedSt.idle with ref := some s.now }
    s1.raise Ev.seedFault [u (seedIdx d)]

/-- A seed's light goes: its lock ends, and a relock attempt that is cut off does not count as a failure; it is deferred (R41). -/
def SeedSt.cut (x : SeedSt) : SeedSt :=
  if x.trying then { x with lockAt := none, trying := false, attempts := x.attempts - 1, lastAttempt := x.lastAttempt - 60 * secondTicks } else { x with lockAt := none }

/-- The seeds go off: FAULT and RETIRED are kept, with the reference of their relock schedule. A switch whose interval has not ended is abandoned (R41, R429). -/
def State.seedsOff (s : State) : State :=
  let off := fun (st : State) (d : Seed) =>
    let x := st.seed d
    let st1 := if st.seedStatus d = 1 ∨ st.seedStatus d = 2 then st.setSeedStatus d 0 else st
    st1.setSeed d x.cut
  let s2 := off (off s .s0) .s1
  { s2 with opt := { s2.opt with switch := none, select := 0 } }

/-- A seed whose drive channel is OPEN, SHORT or NEIGHBOUR is in FAULT from now, with its relock schedule (R37, R303, R429). -/
def State.seedBad (s : State) (d : Seed) : State := (s.setSeedStatus d 3).setSeed d { SeedSt.idle with ref := some s.now }

/-- Seeds that are OFF go on and begin to lock. -/
def State.seedOn (s : State) (d : Seed) : State :=
  if s.seedStatus d ≠ 0 then s else if s.chBad (seedIdx d) then s.seedBad d else (s.setSeedStatus d 1).setSeed d SeedSt.idle

/-- The seeds start at READY entry and the active one is chosen (R429). -/
def State.seedsStart (s : State) (fromBoot : Bool) : State :=
  if fromBoot then
    let fresh := fun (st : State) (d : Seed) => if st.chBad (seedIdx d) then st.seedBad d else (st.setSeed d SeedSt.idle).setSeedStatus d 1
    let s1 := fresh (fresh s .s0) .s1
    (s1.roSet K.opticalSeedActive (if s1.chBad 0 then 1 else 0)).roSet K.opticalSeedSwitchCount 0
  else
    let act := s.activeSeed
    let s1 := if 3 ≤ s.seedStatus act then s.roSet K.opticalSeedActive (seedIdx (otherSeed act)) else s
    (s1.seedOn .s0).seedOn .s1

/-! ### What F brings to the schedule (R31, R72, R83, R90, R109) -/

/-- Some field of a list differs between two sets. -/
def changed (old new : PSet) (ks : List Key) : Bool := ks.any (fun k => decide (old.get k ≠ new.get k))

/-- The fields whose change resets the pipeline, beside the live count (R109). -/
def formatFields (p : Port) : List Key :=
  [K.portPointsFirst p, K.portPointsPitch p, K.portChirpBandwidth p, K.portChirpDuration p, K.portPcWindow p, K.portSlotPlan p]

/-- The number of points a set's AUTO count stands for on a port, from first to the last point at or before the discovered length, or with no record the farthest
point R104 admits at 2.0 ms; else the count itself (R105). -/
def State.resolveCount (s : State) (set : PSet) (p : Port) : Nat :=
  let count := set.get (K.portPointsCount p)
  if count ≠ 0 then count
  else
    let k := max 1 (set.get (K.portPointsPitch p))
    let first := set.get (K.portPointsFirst p)
    let last := if (s.portSt p).stored then s.roGet (K.portFibreLength p) * 48000000 / (k * 204190476) else 1980000 * 204190476 / (85080000 * k)
    min 131072 (last + 1 - first)

/-- The pipeline's fixed delays (R96). -/
def State.publishDelays (s : State) (p : Port) : State :=
  let field := s.pP p (K.portChirpDuration p) + 2600
  let g := s.pP p (K.portGauge p)
  let strain := field + 200 + ceilDiv (ceilDiv g 2 * s.pP p (K.portPointsPitch p)) 12
  (s.roSet (K.portPipelineFieldDelay p) field).roSet (K.portPipelineStrainDelay p) strain

/-- The tick of the frame start of a port that is at hand; the present tick where none is placed. -/
def State.startTick (s : State) (p : Port) : Tick := if s.hasFrames p then (s.frame p).next.getD s.now else s.now

/-- What F brings to a port once its active bank is loaded: NO_FIBRE where it is disabled, the minimum period, OVERLENGTH, the gap of a TAI grid, the
bus, the pipeline reset (`recount`: the live count changes; or the seed switched here: R119), the launch power, the pipeline's delays (R53, R58, R72, R80, R90, R96, R109). -/
def State.portAtF (s : State) (p : Port) (old : PSet) (recount : Bool) : State :=
  let new := (s.cfg.act p).set
  let s1 := if s.pP p (K.portEnable p) = 0 then s.noFibre p else s
  let rule := s1.checkPeriod new p
  let far := s1.overlong new p
  let s2 := s1.setPortSt p { s1.portSt p with minPeriod := rule, overlength := far }
  let s3 := (if far && !(s1.portSt p).overlength then s2.raise Ev.fibreOverlength [u p.idx] else s2).publishHold p
  let s4 := (s3.publishPower new p rule).publishDelays p
  let s5 := s4.roSet (K.portFibreAutoPeriod p) (if (s4.portSt p).stored then s4.ruleFor new p else s4.roGet (K.portFibreAutoPeriod p))
  if s5.hasFrames p = false then s5
  else
    let f := s5.startTick p
    let s6 := if changed old new (formatFields p) || recount || decide (s5.opt.switchedAt = some f) then s5.pipelineResetAt p f else s5
    let align := new.get (K.portFrameAlign p)
    let toBus := s6.onBus p && (decide (old.get (K.portFrameAlign p) ≠ 2) || decide (s6.roGet K.schedLockState = 0))
    let regrid := align == 1 && (changed old new [K.portFrameOffset p, K.portFrameAlign p] || decide (s6.roGet (K.portFramePeriodLive p) ≠ s6.period p))
    let env := decide (s6.roGet (K.portFramePeriodLive p) ≠ s6.period p) || changed old new [K.portSlotPlan p, K.portChirpDuration p, K.portLaunchPower p]
    let s7 := (s6.setDts p { s6.dts p with forced := (s6.dts p).forced || env }).roSet (K.portFramePeriodLive p) (s6.period p)
    if toBus then s7.toBus p
    else if regrid then
      let s8 := s7.regridTo p (s7.gridNext p s7.now)
      s8.setFrame p { s8.frame p with gap := true }
    else s7

/-- A MASTER drives ENS_CLK with its 10 MHz, unless a collision silenced it (R88, R93). -/
def State.driveClk (s : State) : State :=
  let on : Bool := s.pG K.schedLockRole == 1 && !s.opt.lock.collision
  if s.opt.lock.drives = on then s else (s.withLock { s.opt.lock with drives := on }).emit (.ensClk on)

/-- What F brings to the frame lock (R88, R90, R93): a written role lets a collided master drive again; outside FOLLOWER the state is OFF and a port that still waited for lock runs as
FREE; a module that becomes FOLLOWER aligns its BUS ports. -/
def State.lockAtF (s : State) (old : PSet) (wrote : Bool) : State :=
  let s1 := if wrote then s.withLock { s.opt.lock with collision := false } else s
  if s1.pG K.schedLockRole ≠ 2 then
    ((if s1.opt.lock.collision then s1 else s1.setLock 0).eachPort State.freeRun).driveClk
  else
    (if old.get K.schedLockRole = 2 then s1 else s1.eachPort (fun st p => if st.hasFrames p && st.onBus p then st.toBus p else st)).driveClk

end Sys2Proof.Machine
end

