-- ==== Sys2Proof/Machine/Compress.lean ====
section
/-! DEFINITION. Stages 1 to 5 of the pipeline, from converter samples to the branches of each point (R95, R97 to R103). What a calibration or a filter design fixes is a free constant of
Config (log entry 60). -/

namespace Sys2Proof.Machine

/-! ### Fixed-point rotation -/

/-- Rotate a vector by an angle in 2⁻⁴⁸ turn within a quarter turn of either sign, growing it by the product of the steps. -/
def rotateSteps : List Nat → Nat → Int → Cx → Cx
  | [], _, _, v => v
  | t :: ts, n, z, v =>
    if 0 ≤ z then rotateSteps ts (n + 1) (z - t) ⟨v.re - v.im / (2 : Int) ^ n, v.im + v.re / (2 : Int) ^ n⟩
    else rotateSteps ts (n + 1) (z + t) ⟨v.re + v.im / (2 : Int) ^ n, v.im - v.re / (2 : Int) ^ n⟩

/-- exp(j·2π·a) for a in 2⁻³² turn, in units of 2⁻³⁰. The start value 2⁴⁵ / 1.646 760 258… undoes the growth. -/
def turnUnit (a : Int) : Cx :=
  let w := wrapS 32 a
  let half : Bool := decide (1073741824 < w) || decide (w < -1073741824)
  let v := rotateSteps atanTable 0 (wrapS 32 (if half then w + 2147483648 else w) * 65536) ⟨21365813217388, 0⟩
  let u : Cx := ⟨roundDiv v.re 32768, roundDiv v.im 32768⟩
  if half then ⟨-u.re, -u.im⟩ else u

/-- a · b. -/
def Cx.mul (a b : Cx) : Cx := ⟨a.re * b.re - a.im * b.im, a.re * b.im + a.im * b.re⟩

/-- A sum in `shift` bits more than its result, rounded and held within a width (R95). -/
def Cx.narrow (v : Cx) (den width : Nat) : Cx := ⟨satS width (roundDiv v.re den), satS width (roundDiv v.im den)⟩

/-- The sum of terms over the first `n` numbers. -/
def cxSum (n : Nat) (f : Nat → Cx) : Cx :=
  (List.range n).foldl (fun acc i => let v := f i; ⟨acc.re + v.re, acc.im + v.im⟩) ⟨0, 0⟩

/-! ### What the converters and the monitor deliver (R48, R95) -/

/-- The samples of a port go on record, up to the present instant: at most 4.5 ms stay. -/
def Adc.take (x : Adc) (now : Tick) (raw : List Raw) : Adc :=
  let new := raw.take (12 * now - x.next)
  { next := x.next + new.length, samples := (new.reverse ++ x.samples).take 10800000 }

/-- The sample of an index; nothing stands on record for one that was not delivered. -/
def Adc.at_ (x : Adc) (m : Nat) : Raw := if m < x.next then x.samples.getD (x.next - 1 - m) ⟨0, 0, 0, 0⟩ else ⟨0, 0, 0, 0⟩

/-- A sample that any converter clipped (R99). -/
def rawClipped (r : Raw) : Bool := [r.xi, r.xq, r.yi, r.yq].any (fun v => decide (v = -2048) || decide (v = 2047))

/-- The largest code magnitude of a sample. -/
def rawPeak (r : Raw) : Nat := max (max r.xi.natAbs r.xq.natAbs) (max r.yi.natAbs r.yq.natAbs)

/-- One sample of the monitor continues θ, its 1 s mean, and L(t) = L(t − T_i) + θ − mean (R102). T_i of 195.9 ns is 58.77 samples; the eight taps stand about it. -/
def Laser.step (x : Laser) (o : Int × Int) : Laser :=
  let theta := x.theta + wrapS 32 (Config.monitorPhase o.1 o.2 - x.theta)
  let mean := x.mean + theta - roundDiv x.mean 300000000
  let back := (List.range 8).foldl (fun acc i => acc + Config.laserTap i * x.phase.getD (54 + i) 0) 0
  { next := x.next + 1, theta := theta, mean := mean,
    phase := ((roundDiv back (2 ^ 30) + theta - roundDiv mean 300000000) :: x.phase).take 1350000 }

/-- The monitor's samples go on record, up to the present instant. -/
def Laser.take (x : Laser) (now : Tick) (os : List (Int × Int)) : Laser := (os.take (3 * now / 2 - x.next)).foldl Laser.step x

/-- L at an index; 0 where nothing stands on record. -/
def Laser.at_ (x : Laser) (i : Nat) : Int := if i < x.next then x.phase.getD (x.next - 1 - i) 0 else 0

/-! ### Stage 1 (R97 to R99) -/

/-- Where gain window `w` of a frame of a period begins, in ticks from its start (R98). -/
def windowStart (period w : Nat) : Nat := w * period / 64

/-- The gain step in force at a tick: by the frame that holds it and the window of that frame (R98). -/
def gainAt (log : List (Tick × Nat × List Nat)) (t : Tick) : Nat :=
  match log.find? (fun e => decide (e.1 ≤ t)) with
  | none => 0
  | some (start, period, steps) =>
    let w := ((List.range 64).filter (fun k => decide (windowStart period k ≤ t - start))).length - 1
    steps.getD w 0

/-- One converter stream after the skew filter, in 2⁻³⁰ of a code. -/
def skewed (adc : Adc) (f : Raw → Int) (skew : Int) (m : Nat) : Int :=
  (List.range 16).foldl (fun acc i => acc + Config.skewTap skew i * f (adc.at_ (m + 8 - i))) 0

/-- z of one polarisation at a sample: skew, offset, imbalance and gain corrected, 16 bits each (R97). A code is 16 units; the terms are in 2⁻¹⁶ and the filter in 2⁻³⁰. -/
def stage1 (adc : Adc) (fi fq : Raw → Int) (x : IqTerms) (skewI skewQ : Int) (gain : Nat) (m : Nat) : Cx :=
  let i := roundDiv (skewed adc fi skewI m) 16384 - x.oI
  let q := roundDiv (skewed adc fq skewQ m) 16384 - x.oQ
  let inv := Config.gainInverse gain
  Cx.narrow ⟨x.aI * i * inv, (x.aQ * q + x.cross * i) * inv⟩ (2 ^ 44) 16

/-! ### Stage 2 (R100) -/

/-- The mixer's phase at a sample of a launch: the slot centre is (2s − 7) × 62.5 MHz, which is (2s − 7) × 5 / 192 turn a sample. In 2⁻³² turn. -/
def mixPhase (slot m : Nat) : Int := roundDiv (-((2 * (slot : Int) - 7) * 5 * (m : Int) * 2 ^ 32)) 192

/-- One sample of a slot's band at 300 MS/s: mixed down, filtered, decimated by 8, 18 bits each. `z` gives stage 1 by sample of the launch. -/
def stage2 (z : Nat → Cx) (slot j : Nat) : Cx :=
  let taps := Config.channelTaps
  Cx.narrow (cxSum taps.length (fun i =>
    let m := 8 * j + taps.length / 2 - i
    let v := (z m).mul (turnUnit (mixPhase slot m))
    let h := taps.getD i 0
    ⟨h * v.re, h * v.im⟩)) (2 ^ 58) 18

/-! ### Stage 3 (R101) -/

/-- The taps of the reference: τ × 300 MS/s. -/
def refTaps (tau : Nat) : Nat := 3 * tau / 2

/-- The launched chirp at the slot's baseband at tap `n`: a phase of −B·t/2 + B·t²/(2τ) turns at t = n / 300 MHz, in 2⁻³² turn (R45, R77, R101). -/
def chirpPhase (khz : Int) (tau n : Nat) : Int :=
  roundDiv (khz * (n : Int) * (2 * (n : Int) - 3 * (tau : Int)) * 2 ^ 32) (1800000 * max 1 tau)

/-- Coefficients F_1 to F_3 of the Taylor window of 35 dB and n̄ = 4, in 2⁻³⁰. PRESUMED (log entry 61): the window's usual definition; R101 names it only. -/
def taylorF : List Int := [367109384, -16102345, 4004048]

/-- The weight of tap `n` of `count` in 2⁻³⁰: RECT, or TAYLOR (R101). -/
def windowWeight (window count n : Nat) : Int :=
  if window = 0 then 2 ^ 30
  else
    2 ^ 30 + (List.range 3).foldl (fun (acc : Int) (k : Nat) =>
      let turn := roundDiv (((k : Int) + 1) * (2 * (n : Int) + 1 - (count : Int)) * 2 ^ 31) (max 1 count)
      acc + roundDiv (2 * taylorF.getD k 0 * (turnUnit turn).re) (2 ^ 30)) 0

/-- What the matched filter needs of a set. -/
structure Chirp where
  khz : Int
  tau : Nat
  window : Nat
  deriving DecidableEq, Repr

/-- The sum of the window's weights, in 2⁻³⁰. -/
def Chirp.gain (x : Chirp) : Nat := ((List.range (refTaps x.tau)).foldl (fun acc n => acc + windowWeight x.window (refTaps x.tau) n) 0).toNat

/-- One compressed sample, 24 bits each: the slot stream correlated with the conjugate of the weighted reference, 0 dB the peak of a full-scale chirp; the lag counts from the chirp's start. -/
def stage3 (b : Nat → Cx) (x : Chirp) (j : Nat) : Cx :=
  let taps := refTaps x.tau
  Cx.narrow (cxSum taps (fun n =>
    let v := (b (j + n)).mul (turnUnit (-(chirpPhase x.khz x.tau n)))
    let w := windowWeight x.window taps n
    ⟨w * v.re * 64, w * v.im * 64⟩)) (max 1 x.gain * 2 ^ 30) 24

/-- A compressed sample is marked where its span of the matched filter holds a clipped sample (R99). -/
def spanClipped (adc : Adc) (base tau j : Nat) : Bool := (List.range (8 * refTaps tau)).any (fun n => rawClipped (adc.at_ (base + 8 * j + n)))

/-! ### Stages 4 and 5 (R102, R103) -/

/-- Stage 4: the phase the seed gathered between launch and arrival is taken away (R102): z·exp(j·(L(t) − L(t − τ_p))), 24 bits each. -/
def stage4 (laser : Laser) (base j : Nat) (z : Cx) : Cx :=
  Cx.narrow (z.mul (turnUnit (laser.at_ (base + j) - laser.at_ base))) (2 ^ 30) 24

/-- Where a point lies on the 300 MS/s grid of its launch, in eighths of a sample: 2.1 µs of internal round trip, then i × k fibre samples (R35, R103). -/
def pointEighths (i k : Nat) : Nat := 8 * 630 + i * k

/-- Stage 5: a point's value by the 32-tap interpolator at one of 64 phases (R103). -/
def stage5 (z : Nat → Cx) (eighths : Nat) : Cx :=
  let phase := 8 * (eighths % 8)
  Cx.narrow (cxSum 32 (fun n =>
    let v := z (eighths / 8 + n - 15)
    let h := Config.pointTap phase n
    ⟨h * v.re, h * v.im⟩)) (2 ^ 30) 24

/-! ### A launch's branches, and the noise before it -/

/-- What stages 1 to 5 work with on one launch: the samples, the laser's record, the receiver's terms, the skews, the gains, the launch tick and the chirp. -/
structure Receiver where
  adc : Adc
  laser : Laser
  x : IqTerms
  y : IqTerms
  skews : List Int
  gains : List (Tick × Nat × List Nat)
  tick : Tick
  chirp : Chirp
  deriving DecidableEq, Repr

/-- Stage 1 of a polarisation by absolute sample. -/
def Receiver.first (r : Receiver) (polY : Bool) (m : Nat) : Cx :=
  let g := gainAt r.gains (m / 12)
  if polY then stage1 r.adc Raw.yi Raw.yq r.y (r.skews.getD 2 0) (r.skews.getD 3 0) g m
  else stage1 r.adc Raw.xi Raw.xq r.x (r.skews.getD 0 0) (r.skews.getD 1 0) g m

/-- Stage 3 of a slot and polarisation at a sample of a grid that begins at an absolute sample. -/
def Receiver.compressed (r : Receiver) (base : Nat) (slot : Nat) (polY : Bool) (j : Nat) : Cx :=
  stage3 (stage2 (fun m => r.first polY (base + m)) slot) r.chirp j

/-- A branch value of a point (stages 1 to 5). -/
def Receiver.value (r : Receiver) (slot : Nat) (polY : Bool) (i k : Nat) : Cx :=
  stage5 (fun j => stage4 r.laser (3 * r.tick / 2) j (r.compressed (12 * r.tick) slot polY j)) (pointEighths i k)

/-- A point is marked where any compressed sample it is interpolated from is (R99). -/
def Receiver.marked (r : Receiver) (i k : Nat) : Bool :=
  (List.range 32).any (fun n => spanClipped r.adc (12 * r.tick) r.chirp.tau (pointEighths i k / 8 + n - 15))

/-- One point as stage 5 delivers it: a branch for each slot of the group. -/
def Receiver.point (r : Receiver) (slots : List Nat) (i k : Nat) : PointObs where
  branches := slots.map (fun s => let x := r.value s false i k; let y := r.value s true i k; ⟨s, x.re, x.im, y.re, y.im⟩)
  marked := r.marked i k

/-- N_s before this launch: the mean power of both polarisations over 64 compressed samples of the slot's band, the span of the last of which ends 1 µs before the launch reaches the converters,
2.1 µs after its tick (R35, R108). -/
def Receiver.noise (r : Receiver) (slot : Nat) : Nat :=
  let base := 12 * (r.tick + 220) - 8 * (refTaps r.chirp.tau + 64)
  let pw := fun (z : Cx) => (z.re * z.re + z.im * z.im).toNat
  sumN ((List.range 64).map (fun j => pw (r.compressed base slot false (j + 1)) + pw (r.compressed base slot true (j + 1)))) / 64

/-! ### In the state -/

/-- The samples of a port's converters go on record. -/
def State.takeAdc (s : State) (p : Port) (raw : List Raw) : State :=
  let c := s.coh p
  if s.power.clocks.adc then s.setCoh p { c with adc := c.adc.take s.now raw } else s

/-- The samples of the interferometer monitor go on record. -/
def State.takeMonitor (s : State) (os : List (Int × Int)) : State := if s.power.clocks.adc = false then s else { s with sig := { s.sig with laser := s.sig.laser.take s.now os } }

/-- The receiver of a launch. -/
def State.receiver (s : State) (p : Port) (l : Launch) : Receiver where
  adc := (s.coh p).adc
  laser := s.sig.laser
  x := (s.coh p).iqX
  y := (s.coh p).iqY
  skews := (List.range 4).map (fun n => s.roInt (K.portIqSkew p n))
  gains := (s.coh p).gainLog
  tick := l.tick
  chirp := ⟨chirpKhz (l.set.get (K.portChirpBandwidth p)), l.set.get (K.portChirpDuration p), l.set.get (K.portPcWindow p)⟩

/-- The points of a launch's live range as stage 5 delivers them (R103). -/
def State.stageFive (s : State) (p : Port) (l : Launch) : List PointObs :=
  (List.range l.count).map (fun n => (s.receiver p l).point l.slots (l.first + n) (l.set.get (K.portPointsPitch p)))

/-- A frame begins: its start, period and gain steps are noted (R98). -/
def State.noteGains (s : State) (p : Port) (start : Tick) (period : Nat) : State :=
  let c := s.coh p
  s.setCoh p { c with gainLog := ((start, period, (List.range 64).map (fun w => s.roGet (K.portRxGain p w))) :: c.gainLog).take 4 }

/-- The largest code and whether any sample clipped in window `w` of the frame that ran from a tick (R98). -/
def windowSeen (adc : Adc) (start period w : Nat) : Nat × Bool :=
  let a := 12 * (start + windowStart period w)
  let b := 12 * (start + windowStart period (w + 1))
  let rs := (List.range (b - a)).map (fun i => adc.at_ (a + i))
  (maxN (rs.map rawPeak), rs.any rawClipped)

end Sys2Proof.Machine
end

