-- ==== Sys2Proof/Machine/Coherent.lean ====
section
/-! DEFINITION. Coherent processing: combining, field words, unwrap, strain words, headers, quality (chapter 04). Amplitudes are in units of 2⁻²³ of
full scale; inner precision is log entry 13. -/

namespace Sys2Proof.Machine

/-! ### Complex fixed point -/

/-- |z| in units of 2⁻¹⁶ of z's. -/
def Cx.mag16 (z : Cx) : Nat := isqrt ((z.re * z.re + z.im * z.im).toNat * 2 ^ 32)

/-- z / |z| in units of 2⁻³⁰; none for 0. -/
def Cx.unit (z : Cx) : Option Cx :=
  let m := isqrt ((z.re * z.re + z.im * z.im).toNat * 2 ^ 40)
  if m = 0 then none else some ⟨roundDiv (z.re * 2 ^ 50) m, roundDiv (z.im * 2 ^ 50) m⟩

/-- a · b*. -/
def Cx.mulConj (a b : Cx) : Cx := ⟨a.re * b.re + a.im * b.im, a.im * b.re - a.re * b.im⟩

/-- One branch as stages 6 and 7 take it: weight factor, value, reference (2⁻³⁰) and power. -/
structure CombIn where
  c : Nat
  z : Cx
  r : Cx
  pw : Nat
  deriving DecidableEq, Repr

/-- R106: y (the unit of z times 2⁻¹⁶ for `up` = 16, unchanged for 0) and the combined power. -/
def combine (up : Nat) (bs : List CombIn) : Cx × Nat :=
  let ws := bs.map (fun b => b.c * b.z.mag16)
  let total := sumN ws
  if total = 0 then (⟨0, 0⟩, 0)
  else
    let sum := (ws.zip bs).foldl (fun acc e =>
      let v := e.2.z.mulConj e.2.r
      (⟨acc.re + (e.1 : Int) * v.re, acc.im + (e.1 : Int) * v.im⟩ : Cx)) ⟨0, 0⟩
    let pw := sumN ((ws.zip bs).map (fun e => e.1 * e.2.pw))
    (⟨roundDiv (sum.re * 2 ^ up) (total * 2 ^ 30), roundDiv (sum.im * 2 ^ up) (total * 2 ^ 30)⟩, pw / total)

/-- The reference a branch is combined with: its own phase where it has none yet (R107). -/
def refOr (r : Option Cx) (z : Cx) : Cx :=
  match r with
  | some x => x
  | none => z.unit.getD ⟨2 ^ 30, 0⟩

/-- R107: the reference after a trace, from the branch value and ŷ of the previous trace. -/
def refNext (r : Option Cx) (z : Cx) (yhat : Option Cx) : Option Cx :=
  match z.unit with
  | none => r
  | some own =>
    let r0 := r.getD own
    match yhat with
    | none => some r0
    | some h =>
      let uz := own.mulConj h
      let un := (Cx.unit uz).getD ⟨2 ^ 30, 0⟩
      let v : Cx := ⟨r0.re + roundDiv (un.re - r0.re) 256, r0.im + roundDiv (un.im - r0.im) 256⟩
      some (v.unit.getD r0)

/-! ### One point of one trace (stages 6 and 7) -/

/-- What stage 7 gives for a point: y (2⁻¹⁶), P_c, P_c of each slot, and the point's new references. -/
structure PointOut where
  y : Cx
  pw : Nat
  slotPw : List (Nat × Nat)
  st : PointSt
  deriving DecidableEq, Repr

/-- A point never seen since the last reset. -/
def PointSt.fresh : PointSt where
  y := ⟨0, 0⟩
  pol := List.replicate 16 none
  slot := List.replicate 8 none
  psi := none
  word := none
  faded := false

/-- Slots whose launch sequence broke start their references afresh (R109). -/
def PointSt.dropSlots (x : PointSt) (slots : List Nat) : PointSt :=
  slots.foldl (fun a n => { a with pol := (a.pol.set (2 * n) none).set (2 * n + 1) none, slot := a.slot.set n none }) x

/-- Combine one point's branches (R106 to R108). -/
def combinePoint (x : PointSt) (weights : List Nat) (o : PointObs) : PointOut :=
  let yhat := x.y.unit
  let bx := fun (b : Branch) => (⟨b.xr, b.xi⟩ : Cx)
  let by_ := fun (b : Branch) => (⟨b.yr, b.yi⟩ : Cx)
  let pw := fun (z : Cx) => (z.re * z.re + z.im * z.im).toNat
  let six := o.branches.map (fun b =>
    let zx := bx b
    let zy := by_ b
    (b.slot, combine 0 [⟨1, zx, refOr (x.pol.getD (2 * b.slot) none) zx, pw zx⟩, ⟨1, zy, refOr (x.pol.getD (2 * b.slot + 1) none) zy, pw zy⟩]))
  let seven := combine 16 (six.map (fun e => ⟨weights.getD e.1 65536, e.2.1, refOr (x.slot.getD e.1 none) e.2.1, e.2.2⟩))
  let pol := o.branches.foldl (fun l b =>
    (l.set (2 * b.slot) (refNext (x.pol.getD (2 * b.slot) none) (bx b) yhat)).set (2 * b.slot + 1)
      (refNext (x.pol.getD (2 * b.slot + 1) none) (by_ b) yhat)) x.pol
  let slot := six.foldl (fun l e => l.set e.1 (refNext (x.slot.getD e.1 none) e.2.1 yhat)) x.slot
  { y := seven.1, pw := seven.2, slotPw := six.map (fun e => (e.1, e.2.2)), st := { x with y := seven.1, pol := pol, slot := slot } }

/-! ### Field words (R110, R111) -/

/-- The point lies beyond a length in 0.01 m (R103, R111): i × k fibre samples of v / (2 × 2.4 GS/s), which is 0.042 540 m (R105). -/
def beyond (i k len : Nat) : Bool := decide (len * 48000000 < i * k * 204190476)

/-- The amplitude field: 10·log₁₀(P_c) + 60 dB in 0.1 dB (R110); full scale is 2⁴⁶. -/
def amplitudeOf (pw : Nat) : Nat := if pw = 0 then 0 else (clampInt 0 1023 (scaledLog10 100 pw (2 ^ 46) + 600)).toNat

/-- The phase field: arg(y) in 2⁻²⁰ turn (R110). -/
def phaseOf (y : Cx) : Nat := ((roundDiv (angle y.re y.im) (2 ^ 28)) % (2 ^ 20 : Int)).toNat

/-- A field word from its fields. -/
def fieldWord (phase amp : Nat) (fading stitched : Bool) : BitVec 32 :=
  BitVec.ofNat 32 (phase * 4096 + amp * 4 + 2 * b2n fading + b2n stitched)

/-- P_c lies more than `depth` dB below a reference (R111). -/
def fadedBy (pw ref depth : Nat) : Bool :=
  if ref = 0 then false else if pw = 0 then true
  else decide ((depth : Int) * 2 ^ 80 < (log2Fix ref - log2Fix pw) * log10of2 * 10)

/-- Mean of a list of powers. -/
def meanN (l : List Nat) : Nat := if l = [] then 0 else sumN l / l.length

/-! ### Strain words (R113 to R115) -/

/-- arg(y(q)·y*(q − 1)) in 2⁻³² turn. -/
def spatialPhase (a b : Cx) : Int := let v := a.mulConj b; roundDiv (angle v.re v.im) 65536

/-- Spatial phases of a trace: none at the first point. -/
def spatialPhases : List Cx → List (Option Int)
  | [] => []
  | [_] => [none]
  | a :: b :: rest => match spatialPhases (b :: rest) with
    | [] => [none]
    | _ :: tail => none :: some (spatialPhase b a) :: tail

/-- δψ in (−2³¹, 2³¹] (R113); 0 where there is no previous trace. DESIGN CHOICE (log entry 62): a change of exactly +π is +2³¹, as R113's range (−π, π] has it, and not what its signed 32-bit
result can hold. -/
def deltaPsi (now prev : Option Int) : Int :=
  match now, prev with
  | some a, some b => let w := wrapS 32 (a - b); if w = -2147483648 then 2147483648 else w
  | _, _ => 0

/-- Running sums of δψ, one longer than the list: element i sums the first i. -/
def runningSums (l : List Int) : List Int := (l.foldl (fun acc x => (acc.1 + x, (acc.1 + x) :: acc.2)) ((0 : Int), [(0 : Int)])).2.reverse

/-- The geometry a strain word needs: first point, count, pitch, gauge, discovered length. -/
structure Geo where
  first : Nat
  count : Nat
  pitch : Nat
  gauge : Nat
  length : Nat
  depth : Nat
  deriving DecidableEq, Repr

/-- The word of point `i` (from 0) by the rules of R115, from a sum in 34-bit arithmetic (R114), and whether it was limited. -/
def strainWord (geo : Geo) (dark stitched : Bool) (sums : List Int) (faded old : List Bool) (prev : List (Option Int)) (i : Nat) : Option Int × Bool :=
  let lo := geo.gauge / 2
  let hi := (geo.gauge + 1) / 2
  let outside : Bool := decide (i < lo) || decide (geo.count ≤ i + hi) || beyond (geo.first + i + hi) geo.pitch geo.length
  let raw := wrapS 34 (sums.getD (i + hi + 1) 0 - sums.getD (i + 1 - lo) 0)
  let v := clampInt (-2147483647) 2147483647 raw
  let end_ := fun (l : List Bool) => l.getD (i - lo) true || l.getD (i + hi) true
  if dark then (none, false)
  else if outside then (none, false)
  else if stitched then (prev.getD i none, decide (v ≠ raw))
  else if end_ faded || end_ old then (none, decide (v ≠ raw))
  else (some v, decide (v ≠ raw))

/-! ### The header (R117) -/

/-- The bits of a header below its check. -/
def TraceHeader.low (h : TraceHeader) : Nat :=
  tsBits h.launch + h.epoch % 2 ^ 32 * 2 ^ 96 + h.frame % 2 ^ 32 * 2 ^ 128 + h.first * 2 ^ 160 + h.count * 2 ^ 178 + h.port.idx * 2 ^ 196 +
  h.group * 2 ^ 197 + h.plan * 2 ^ 200 + h.seed * 2 ^ 202 + b2n h.stitched * 2 ^ 203 + b2n h.dark * 2 ^ 204 + b2n h.saturated * 2 ^ 205 +
  b2n h.suspect * 2 ^ 206 + b2n h.risk * 2 ^ 207 + h.faded * 2 ^ 208 + h.invalid * 2 ^ 226 + h.satFirst * 2 ^ 244 + h.satLast * 2 ^ 262 +
  h.pitch * 2 ^ 280 + h.gauge * 2 ^ 288 + b2n h.gainChanged * 2 ^ 295

/-- The 64 bytes of a header. -/
def TraceHeader.bytes (h : TraceHeader) : List Byte :=
  let body := le 60 h.low
  body ++ le 4 (crc32c body).toNat

/-! ### A whole trace -/

/-- What a trace leaves: its header, field words, strain words, the port's new coherent state, and mean P_c over two windows. -/
structure TraceOut where
  header : TraceHeader
  fields : List (BitVec 32)
  strain : List (Option Int)
  coh : CohPort
  power : List Nat
  deriving DecidableEq, Repr

/-- Cut a list into runs of 64: the quality segments (R108). -/
def segmentsOf {α : Type} (l : List α) : List (List α) :=
  (List.range (ceilDiv l.length 64)).map (fun n => (l.drop (64 * n)).take 64)

/-- A segment never seen since the last reset. -/
def SegSt.fresh : SegSt := ⟨[], [], List.replicate 8 65536⟩

/-- The mean of each slot present among the powers of a trace's points. -/
def slotMeans (slots : List (List (Nat × Nat))) : List (Nat × Nat) :=
  (List.range 8).filterMap (fun n =>
    let v := slots.flatMap (fun l => (l.filter (fun e => e.1 == n)).map (·.2))
    if v = [] then none else some (n, meanN v))

/-- Take one trace's powers into a segment's statistics of the last 256 traces. -/
def SegSt.take (x : SegSt) (pws : List Nat) (slots : List (List (Nat × Nat))) : SegSt :=
  { x with power := (meanN pws :: x.power).take 256, slotPower := (slotMeans slots :: x.slotPower).take 256 }

/-- S_s of a segment (R108): the mean over the traces of the slot among the last 256. -/
def SegSt.slotMean (x : SegSt) (n : Nat) : Nat := meanN (x.slotPower.flatMap (fun l => (l.filter (fun e => e.1 == n)).map (·.2)))

/-- The sums of a segment with nothing in them. -/
def SegSum.zero : SegSum := ⟨0, 0, 0, 0, 0, 0, 0⟩

/-- Add one trace to a segment's sums. -/
def SegSum.add (x : SegSum) (pws : List Nat) (faded : List Bool) (words : List (Option Int)) (risks : List Nat) (marked : List Bool) : SegSum :=
  { points := x.points + pws.length, faded := x.faded + faded.count true, words := x.words + words.length,
    invalid := x.invalid + (words.filter (·.isNone)).length, powerSum := x.powerSum + sumN pws, risks := x.risks + sumN risks,
    clipped := x.clipped + marked.count true }

/-- The fade of each point before the trace is dark (R111): by its segment's mean, beyond the fibre, or a faulted preamplifier. -/
def fadeMarks (geo : Geo) (segs : List SegSt) (pws : List Nat) (preBad dark : Bool) : List Bool :=
  (List.range pws.length).map (fun i =>
    dark || preBad || beyond (geo.first + i) geo.pitch geo.length ||
    fadedBy (pws.getD i 0) (meanN (segs.getD (i / 64) SegSt.fresh).power) geo.depth)

/-- The temporal state of a generation (R109): the present one's, that of an earlier one whose traces are still to come, or a fresh one. -/
def CohPort.genOf (c : CohPort) (g : Nat) : CohGen :=
  if g = c.gen then ⟨g, c.points, c.segs⟩ else (c.prev.find? (fun x => x.gen == g)).getD ⟨g, [], []⟩

/-- Put it back. -/
def CohPort.withGen (c : CohPort) (x : CohGen) : CohPort :=
  if x.gen = c.gen then { c with points := x.points, segs := x.segs }
  else { c with prev := c.prev.map (fun y => if y.gen = x.gen then x else y) }

/-- Form one trace: stages 6 to 10 over what stage 5 delivers. `equal` is the combine mode EQUAL (R108); `monitorOk` no online error of the interferometer lanes (R405). -/
def formTrace (c : CohPort) (geo : Geo) (p : Port) (l : Launch) (points5 : List PointObs) (monitorOk equal gainNow : Bool) : TraceOut :=
  let n := geo.count
  let g := c.genOf l.gen
  let obs := (List.range n).map (fun i => points5.getD i ⟨[], false⟩)
  let stitched := l.stitched || !monitorOk
  let olds := (List.range n).map (fun i =>
    let x := g.points.getD i PointSt.fresh
    if l.stitched then x.dropSlots l.slots else x)
  let weights := fun (i : Nat) => if equal then List.replicate 8 65536 else (g.segs.getD (i / 64) SegSt.fresh).weights
  let outs := (List.range n).map (fun i => combinePoint (olds.getD i PointSt.fresh) (weights i) (obs.getD i ⟨[], false⟩))
  let dark := l.dark
  let pws := outs.map (fun q => if dark then 0 else q.pw)
  let faded := fadeMarks geo g.segs pws l.preBad dark
  let psis := spatialPhases (outs.map (·.y))
  let dpsi := (List.range n).map (fun i => deltaPsi (psis.getD i none) (olds.getD i PointSt.fresh).psi)
  let sums := runningSums dpsi
  let prev := olds.map (·.word)
  let words := (List.range n).map (strainWord geo dark stitched sums faded (olds.map (·.faded)) prev)
  let risks := (List.range n).map (fun i => if dark then 0 else b2n (decide (1610612736 < (dpsi.getD i 0).natAbs)) + b2n (words.getD i (none, false)).2)
  let marked := obs.map (·.marked)
  let marks := (List.range n).filter (fun i => marked.getD i false)
  let fields := (List.range n).map (fun i =>
    if dark then fieldWord 0 0 true stitched
    else
      let q := outs.getD i ⟨⟨0, 0⟩, 0, [], PointSt.fresh⟩
      fieldWord (phaseOf q.y) (amplitudeOf q.pw) (faded.getD i false) stitched)
  let strain := words.map (·.1)
  let header : TraceHeader :=
    { launch := l.stamp, launchTick := l.tick, epoch := l.epoch, frame := l.frame, first := geo.first, count := n, port := p, group := l.group,
      plan := l.plan, seed := l.seed, stitched := stitched, dark := dark, saturated := decide (marks ≠ []), suspect := l.suspect,
      risk := decide (0 < sumN risks), faded := faded.count true, invalid := (strain.filter (·.isNone)).length,
      satFirst := (marks.head?.map (· + geo.first)).getD 0, satLast := (marks.getLast?.map (· + geo.first)).getD 0, pitch := geo.pitch,
      gauge := geo.gauge, gainChanged := l.gain || gainNow, thinned := l.thinned }
  let points := (List.range n).map (fun i =>
    let q := outs.getD i ⟨⟨0, 0⟩, 0, [], PointSt.fresh⟩
    if dark then { olds.getD i PointSt.fresh with word := none, faded := true, y := ⟨0, 0⟩, psi := none }
    else { q.st with psi := psis.getD i none, word := strain.getD i none, faded := faded.getD i false })
  let pwSegs := segmentsOf pws
  let slotSegs := segmentsOf (outs.map (·.slotPw))
  let segs := (List.range pwSegs.length).map (fun k =>
    let x := g.segs.getD k SegSt.fresh
    if dark then x else x.take (pwSegs.getD k []) (slotSegs.getD k []))
  let fSegs := segmentsOf faded
  let wSegs := segmentsOf strain
  let rSegs := segmentsOf risks
  let mSegs := segmentsOf marked
  let sums2 := (List.range pwSegs.length).map (fun k =>
    (c.sums.getD k SegSum.zero).add (pwSegs.getD k []) (fSegs.getD k []) (wSegs.getD k []) (rSegs.getD k []) (mSegs.getD k []))
  { header := header, fields := fields, strain := strain, power := pws,
    coh := { c.withGen ⟨l.gen, points, segs⟩ with sums := sums2 } }

/-! ### Quality seconds (R118) -/

/-- 10·log₁₀ of a mean power over full scale in 0.1 dB; the lowest value for no power. -/
def powerDb (pw : Nat) : Int := if pw = 0 then -32768 else clampInt (-32768) 32767 (scaledLog10 100 pw (2 ^ 46))

/-- A fraction in 2⁻¹⁶, held within 16 bits. -/
def fraction16 (n d : Nat) : Nat := if d = 0 then 0 else min 65535 (n * 65536 / d)

/-- The summary of a segment's second. -/
def SegSum.summary (x : SegSum) (noise : List Nat) : SegSummary :=
  { faded := fraction16 x.faded x.points, invalid := fraction16 x.invalid x.words,
    power := powerDb (if x.points = 0 then 0 else x.powerSum / x.points), noise := powerDb (meanN noise), risks := x.risks, clipped := x.clipped }

/-- Close the second in progress: its summaries wait to be published. -/
def CohPort.closeSecond (c : CohPort) : CohPort :=
  if c.sums = [] then c
  else
    let sm := (List.range c.sums.length).map (fun k => (c.sums.getD k SegSum.zero).summary c.noise)
    { c with sums := [], closed := c.closed ++ [⟨c.secondEpoch, c.secondStart, c.secondFirst, c.secondLast, c.secondMarks, sm⟩] }

/-- A trace of another second, or of another epoch, closes the second in progress and begins its own: at the whole second, or at the F within it (R118, R134). -/
def CohPort.beginSecond (c : CohPort) (l : Launch) : CohPort :=
  let sec := l.stamp / secondUnits
  if c.sums ≠ [] ∧ c.secondStart / secondUnits = sec ∧ c.secondEpoch = l.epoch then c
  else
    let same : Bool := decide (c.secondStart / secondUnits = sec) && decide (c.secondEpoch ≠ l.epoch) && decide (c.sums ≠ [])
    { c.closeSecond with secondEpoch := l.epoch, secondStart := if same then l.since else sec * secondUnits, secondFirst := l.stamp, secondMarks := 0 }

/-- A trace that is formed is the last of its second so far, and what it carries marks the second (R131). -/
def CohPort.markSecond (c : CohPort) (h : TraceHeader) : CohPort :=
  { c with secondLast := h.launch,
           secondMarks := Nat.lor c.secondMarks (b2n h.stitched + 2 * b2n h.dark + 4 * b2n h.saturated + 8 * b2n h.suspect + 16 * b2n h.thinned) }

/-! ### Gain windows (R98) -/

/-- A frame's peaks and clips enter the run; codes are magnitudes. -/
def gainFrame (gs : List GainWin) (peaks : List Nat) (clips : List Bool) : List GainWin :=
  (List.range gs.length).map (fun w =>
    let g := gs.getD w ⟨0, 0, 0⟩
    { g with peak := max g.peak (peaks.getD w 0), clips := g.clips + b2n (clips.getD w false) })

/-- The least code magnitude that is not below −12 dB re full scale of 2048: 2048 × 10^(−12/20) is 514.4 (R98). -/
def quietCode : Nat := 515

/-- One window at the end of a run of 256 frames: its record for the next run, and its new step. -/
def gainEvaluate (g : GainWin) (step : Nat) : GainWin × Nat :=
  if 2 ≤ g.clips then (⟨0, 0, 0⟩, step - 1)
  else if g.peak < quietCode then
    (if 4 ≤ g.quiet + 1 then (⟨0, 0, 0⟩, min 7 (step + 1)) else (⟨0, 0, g.quiet + 1⟩, step))
  else (⟨0, 0, 0⟩, step)

/-- GAIN_RUN_EVALUATION: after each run of 256 frames in AUTO gain mode, steps that change wait for the next strobe. -/
def execGainRunEvaluation (t : Tick) (p : Port) (s : State) : Out :=
  let s0 := s.at t
  let c := s0.coh p
  if c.frames < 256 ∨ s0.hasFrames p = false then .next s0
  else if s0.pP p (K.portRxGainMode p) = 1 then
    .next (s0.setCoh p { c with frames := 0, gains := List.replicate 64 ⟨0, 0, 0⟩ })
  else
    let r := (List.range 64).map (fun w => gainEvaluate (c.gains.getD w ⟨0, 0, 0⟩) (s0.roGet (K.portRxGain p w)))
    let moved := ((List.range 64).filter (fun w => decide ((r.getD w (⟨0, 0, 0⟩, 0)).2 ≠ s0.roGet (K.portRxGain p w)))).map (fun w => (w, (r.getD w (⟨0, 0, 0⟩, 0)).2))
    .next (s0.setCoh p { c with frames := 0, gains := r.map (·.1), gainPending := moved })

/-- At a strobe, pending gain steps apply; the frames on either side of it are marked (R98, R117). FIXED mode holds every window at its step. -/
def State.gainStrobe (s : State) (p : Port) : State :=
  let c := s.coh p
  let want : List (Nat × Nat) :=
    if s.pP p (K.portRxGainMode p) = 1 then
      ((List.range 64).filter (fun w => decide (s.roGet (K.portRxGain p w) ≠ s.pP p (K.portRxGainFixed p)))).map (fun w => (w, s.pP p (K.portRxGainFixed p)))
    else c.gainPending
  let s1 := want.foldl (fun st e => st.roSet (K.portRxGain p e.1) e.2) s
  let some_ : Bool := decide (want ≠ [])
  let s2 := if some_ then s1.setFrame p { s1.frame p with inflight := (s1.frame p).inflight.map (fun l => { l with gain := true }) } else s1
  s2.setCoh p { s2.coh p with gainPending := [], gainMark := some_ }

/-! ### Receiver terms and weights -/

/-- A term moved a quarter of the way to what the statistics say (log entry 13). -/
def towards (old new : Int) : Int := old + roundDiv (new - old) 4

/-- The terms of one polarisation after a run (R97): half of the imbalance E[I²] − E[Q²] goes to each of a_I and a_Q. -/
def IqTerms.update (x : IqTerms) (o : IqStats) : IqTerms :=
  let total := o.ii + o.qq
  let step := if total = 0 then 0 else roundDiv ((o.ii - o.qq) * 65536) (2 * total.natAbs)
  { oI := towards x.oI (o.meanI * 65536), oQ := towards x.oQ (o.meanQ * 65536), aI := towards x.aI (x.aI - step), aQ := towards x.aQ (x.aQ + step),
    cross := if total = 0 then x.cross else towards x.cross (x.cross - roundDiv (2 * o.iq * 65536) total.natAbs) }

/-- Image rejection in 0.1 dB from the residual imbalance and cross terms of both polarisations. -/
def imageRejection (x y : IqStats) : Nat :=
  let total := (x.ii + x.qq + y.ii + y.qq).natAbs
  let res := (x.ii - x.qq).natAbs + 2 * x.iq.natAbs + (y.ii - y.qq).natAbs + 2 * y.iq.natAbs
  if total = 0 then 0 else if res = 0 then 65535 else (clampInt 0 65535 (scaledLog10 200 (2 * total) res)).toNat

/-- IQ_TERM_UPDATE: after 16 384 frames new terms and skews, within their range, wait for the next strobe (R97). -/
def execIqTermUpdate (t : Tick) (p : Port) (x y : IqStats) (s : State) : Out :=
  let s0 := s.at t
  let c := s0.coh p
  if c.iqFrames < 16384 then .next s0
  else
    let moves := x.skew.take 2 ++ y.skew.take 2
    let sk := (List.range 4).map (fun n => clampInt (-15) 15 (s0.roInt (K.portIqSkew p n) + moves.getD n 0))
    let s1 := s0.setCoh p { c with iqFrames := 0, iqPending := some (c.iqX.update x, c.iqY.update y, sk) }
    .next (s1.roSet (K.portIqImageRejection p) (imageRejection x y))

/-- c_s of a segment in 2⁻¹⁶, the largest 1 (R108). Where N_s is measured 0, S_s / N_s has no value: the command brings the value in 2⁻¹⁶, and nothing constrains it (log entry 63). -/
def weightsOf (power noise noiseless : List Nat) : List Nat :=
  let q := (List.range 8).map (fun n => if noise.getD n 0 = 0 then noiseless.getD n 0 else power.getD n 0 * 65536 / noise.getD n 0)
  let top := maxN q
  if top = 0 then List.replicate 8 65536 else q.map (fun v => (roundDiv ((v * 65536 : Nat) : Int) top).toNat)

/-- N_s of the launch's slots is measured, unless a booster proof pulse of the port came within one round trip plus 10 µs before (R108). -/
def State.measureNoise (s : State) (p : Port) (l : Launch) : State :=
  let c := s.coh p
  let rt := s.roGet (K.portFibreRoundTrip p) / 5000 + 2000
  let spoiled : Bool := match c.lastProof with
    | some a => decide (a ≤ l.tick) && decide (l.tick ≤ a + rt)
    | none => false
  if spoiled || l.dark then s else s.setCoh p { c with noise := l.slots.foldl (fun ns n => ns.set n ((s.receiver p l).noise n)) c.noise }

/-- Weights of the segments come into force, and are reported (R108). -/
def State.applyWeights (s : State) (p : Port) (ws : List (List Nat)) : State :=
  let c := s.coh p
  let segs := (List.range c.segs.length).map (fun k => { c.segs.getD k SegSt.fresh with weights := ws.getD k (List.replicate 8 65536) })
  (List.range segs.length).foldl (fun st k => (List.range 8).foldl (fun st2 n =>
    st2.roSet (K.portCombineSegWeight p k n) (roundDiv ((((segs.getD k SegSt.fresh).weights.getD n 65536 * 255 : Nat)) : Int) 65536).toNat) st)
    (s.setCoh p { c with segs := segs, weightsNext := none })

/-- The weights a mode gives each segment now (R108). -/
def CohPort.newWeights (c : CohPort) (adaptive : Bool) (noiseless : List Nat) : List (List Nat) :=
  c.segs.map (fun x => if adaptive then weightsOf ((List.range 8).map x.slotMean) c.noise noiseless else List.replicate 8 65536)

/-- COMBINE_WEIGHT_RECOMPUTE: after every 256 frames since the last reset the weights are computed afresh; they apply from the next strobe (R108). -/
def execCombineWeightRecompute (t : Tick) (p : Port) (noiseless : List Nat) (s : State) : Out :=
  let s0 := s.at t
  let c := s0.coh p
  if c.combineFrames < 256 then .next s0
  else .next (s0.setCoh p { c with combineFrames := 0, weightsNext := some (c.newWeights (s0.pP p (K.portCombineMode p) == 0) noiseless) })

/-! ### Publishing (R118, R134) -/

/-- The record of a segment in a QUALITY tile (R134). -/
def SegSummary.bytes (x : SegSummary) : List Byte :=
  le 2 x.faded ++ le 2 x.invalid ++ leInt 2 x.power ++ leInt 2 x.noise ++ le 4 x.risks ++ le 4 x.clipped

/-- Set a segment's published summary. -/
def State.setSummary (s : State) (p : Port) (n : Nat) (x : SegSummary) : State :=
  (((((s.roSet (K.portQualitySegFaded p n) x.faded).roSet (K.portQualitySegInvalid p n) x.invalid).roSetInt (K.portQualitySegPower p n) x.power).roSetInt
    (K.portQualitySegNoise p n) x.noise).roSet (K.portQualitySegUnwrapRisk p n) x.risks).roSet (K.portQualitySegClipped p n) x.clipped

/-- One QUALITY tile's constant fields. -/
def wholeTile (kind port : Nat) (t0 : Stamp) (interval : Nat) (block q total firstPoint points samples format : Nat) (epoch : Nat) (payload : List Byte) : Tile :=
  { kind := kind, port := port, unsettled := 0, stitched := false, dark := false, saturated := false, suspect := false, gap := false, thinned := false,
    lastTile := decide (q + 1 = total), index := q, total := total, epoch := epoch, block := block, t0 := t0, interval := interval,
    firstPoint := firstPoint, points := points, samples := samples, format := format, filter := 0, decimation := 0, filterDelay := 0,
    payload := payload, lastInput := t0 }

/-- The QUALITY streams of a port take one second's summaries (R134). A tile keeps the epoch of its second (R33); block_index counts the stream's blocks (log entry 27). -/
def State.qualityBlock (s : State) (p : Port) (x : SecondSum) : State :=
  (List.range 16).foldl (fun st n =>
    let st0 := st.loadDue n x.first
    let y := st0.stream n
    if enabledKind y.bank.set n 1 && y.par (K.streamPort n) == p.idx then
      let tp := max 1 (y.par (K.streamTilePoints n))
      let total := ceilDiv x.segs.length tp
      let tiles := (List.range total).map (fun q =>
        { wholeTile 1 p.idx x.t0 200000000 y.counter q total (q * tp) (min tp (x.segs.length - q * tp)) 1 3 x.epoch
            (((x.segs.drop (q * tp)).take tp).flatMap SegSummary.bytes) with
          stitched := bitOf x.marks 0, dark := bitOf x.marks 1, saturated := bitOf x.marks 2, suspect := bitOf x.marks 3, thinned := bitOf x.marks 4,
          lastInput := x.last })
      st0.enqueue n 1 tiles
    else st0) s

/-- QUALITY_SUMMARY: after a whole TAI second, the summaries of the second that has ended, once every trace launched in it is formed (R118). -/
def execQualitySummary (t : Tick) (p : Port) (s : State) : Out :=
  let s0 := s.at t
  let c0 := s0.coh p
  let formed : Bool := (s0.frame p).inflight.all (fun l => decide (c0.secondStart / secondUnits < l.stamp / secondUnits))
  let c := if c0.secondStart / secondUnits < s0.stamp / secondUnits ∧ formed then c0.closeSecond else c0
  let s1 := s0.setCoh p { c with closed := [] }
  .next (c.closed.foldl (fun st e =>
    let st1 := (List.range e.segs.length).foldl (fun a k => a.setSummary p k (e.segs.getD k ⟨0, 0, 0, 0, 0, 0⟩)) st
    st1.qualityBlock p e) s1 |>.settleAll)

/-! ### Breaks and losses (R61) -/

/-- Some run of the last dark marks covers every slot: marks are slots seen dark in consecutive traces. -/
def covers (slots : List Nat) : Bool := (List.range 8).all (fun n => slots.contains n)

/-- A window over points `a` to `a + n − 1` of the range stands 10 dB or more below the profile (R61). -/
def windowDark (power profile : List Nat) (first a n : Nat) : Bool :=
  let seg := fun (l : List Nat) => (l.drop (a - first)).take n
  let now := meanN (seg power)
  let then_ := meanN (seg profile)
  decide (then_ ≠ 0) && (decide (now = 0) || decide (10 * now ≤ then_))

/-- Judge the near window, the points of the live range within 50 m of the reference plane, and the end window of an EMITTING port's trace; a covering run of dark ones declares a break (R61, R62). -/
def State.judgeWindows (s : State) (p : Port) (geo : Geo) (slots : List Nat) (power : List Nat) (newLast : Option Nat) (newLoss : Option (Nat × Nat))
    (epoch : Nat) : State :=
  let x := s.portSt p
  if s.pState p ≠ 3 ∨ x.declared.isSome then s
  else
    let k := max 1 geo.pitch
    let near := 240000000000 / (204190476 * k) + 1
    let lastIdx := geo.length * 48000000 / (204190476 * k)
    let endFirst := lastIdx - 73
    let useEnd : Bool := decide (20000 ≤ geo.length) && decide (geo.first + 73 ≤ lastIdx)
    let nearDark := decide (geo.first < near) && windowDark power x.profile geo.first geo.first (near - geo.first)
    let endDark := useEnd && windowDark power x.profile geo.first endFirst 64
    let dn := if nearDark then x.darkNear ++ slots else []
    let de := if endDark then x.darkEnd ++ slots else []
    let s1 := s.setPortSt p { x with darkNear := dn.take 64, darkEnd := de.take 64 }
    if covers dn then
      ((s1.setPortSt p { s1.portSt p with declared := some 1 }).dtsFibreEvent p).raiseFull Ev.fibreBreak 1 s.stamp [u p.idx, u 0, tsVal s.stamp] epoch
    else if covers de && newLast.isSome then
      ((s1.setPortSt p { s1.portSt p with declared := some 0 }).dtsFibreEvent p).raiseFull Ev.fibreBreak 1 s.stamp [u p.idx, u (newLast.getD 0), tsVal s.stamp] epoch
    else
      match newLoss with
      | some (pos, size) => if 500 ≤ size ∧ endDark = false then (s1.dtsFibreEvent p).raiseFull Ev.fibreLoss 1 s.stamp [u p.idx, u pos, u size] epoch else s1
      | none => s1

end Sys2Proof.Machine
end

