-- ==== Sys2Proof/Machine/BasaltMem.lean ====
section
/-! DEFINITION. Basalt's memory operations and DMA: loads, stores, address registers, the four transfers, WAITD (R190 to R195, R206 to R209). -/

namespace Sys2Proof.Machine

/-! ### Access checks (R190, R215) -/

/-- The fault of a data access: 2 ADDR beyond data memory or, for a write, from 0x3_FF00 on; 3 ALIGN. -/
def accessFault (addr size : Nat) (write : Bool) : Option Nat :=
  if 0x40000 < addr + size then some 2
  else if write && decide (0x3FF00 < addr + size) then some 2
  else if addr % size ≠ 0 then some 3
  else none

/-- The first fault of two accesses. -/
def firstFault (a b : Option Nat) : Option Nat :=
  match a with
  | some k => some k
  | none => b

/-- The increment of form M; VSTM's is narrower (R185). -/
def inc24 (o : OpM) : Int := incOf 24 o.inc.toNat
/-- VSTM's increment. -/
def inc19 (o : OpM) : Int := incOf 19 (o.inc.toNat % 2 ^ 19)
/-- The scalar register in inc [23:19]. -/
def incReg (o : OpM) : Nat := o.inc.toNat / 2 ^ 19
/-- The increment of form M2. -/
def inc15 (o : OpM2) : Int := incOf 15 o.inc.toNat

/-- Update an address register after an access; a value the spec does not state is a fresh one. -/
def State.updateAddr (s : State) (c an mode : Nat) (inc : Int) (byReg : Option Nat) : State :=
  let x := s.core c
  match x.addrNext an mode inc byReg with
  | none => s
  | some (some v) => s.setCore c (x.write 0 1 (.a an) v)
  | some none => (s.setCore c (x.write 0 1 (.a an) (s.freeVal 32))).drawn

/-! ### DMA transfers (R206 to R209) -/

/-- The words of a trace at an instance's brick: its 32 lanes, none for INVALID and for lanes beyond the last point. -/
def brickLanes (first points brick : Nat) (tr : Option StrainTrace) : List (Option Int) :=
  (List.range 32).map (fun l =>
    let q := 32 * brick + l
    if points ≤ q then none
    else match tr with
      | none => none
      | some y => if first + q < y.header.first then none else y.words.getD (first + q - y.header.first) none)

/-- The trace of a tile at an index within it. -/
def BTile.traceAt (t : BTile) (j : Nat) : Option StrainTrace := t.traces.find? (fun tr => tr.index == t.k * t.tdec + j)

/-- A lane as BRICK_IN writes it: 0 S32, 1 S16, 2 S16_ZERO (R207). -/
def laneBytes (conv : Nat) (v : Option Int) : List Byte :=
  if conv = 0 then encodeStrain 1 0 0 1 v 1
  else if conv = 2 ∧ v = none then [0, 0]
  else encodeStrain 0 0 0 1 v 1

/-- The lane mask of INVALID points. -/
def invalidMask (ls : List (Option Int)) : Nat := ofLanes 1 (ls.map (fun v => b2n v.isNone))

/-- The cells a transfer into data memory writes. -/
def State.dmaCells (s : State) (c : Nat) (d : BDma) : List Host.Cell :=
  let x := s.core c
  let i := x.inst.getD 0
  let inst := s.inst i
  if d.op = 0 then
    match inst.tile with
    | none => []
    | some t =>
      let brick := (s.coreShare i x.logical t).1 + d.index
      let first := inst.par (K.basaltInstPointsFirst i)
      let points := instPoints inst.bank.set i t.range
      let rows := (List.range d.count).map (fun j => (t.traceAt (d.first + j), brickLanes first points brick (t.traceAt (d.first + j))))
      let main := cellsFrom d.dmem (rows.flatMap (fun r => r.2.flatMap (laneBytes d.conv)))
      let side := if d.side then cellsFrom d.aux (rows.flatMap (fun r =>
          le 4 (match r.1 with
            | none => 0
            | some tr => tr.header.low / 2 ^ 196 % 4096) ++ le 4 (invalidMask r.2))) else []
      main ++ side
  else if d.op = 1 then cellsFrom d.dmem (memBytes inst.scratch d.offset d.count)
  else []

/-- The stretches of data memory a transfer writes: address and length. -/
def BDma.regions (d : BDma) : List (Nat × Nat) :=
  if d.op = 0 then (d.dmem, d.count * (if d.conv = 0 then 128 else 64)) :: (if d.side then [(d.aux, d.count * 8)] else [])
  else if d.op = 1 then [(d.dmem, d.count)] else []

/-- A 64-byte line meets a stretch. -/
def lineIn (line : Nat) (r : Nat × Nat) : Bool := decide (line < r.1 + r.2) && decide (r.1 < line + 64)

/-- What a load reads: memory, but for a line a transfer is writing either its old or its new contents, as a fresh value chooses (R192). -/
def State.loadBytes (s : State) (c addr n : Nat) : List Byte × State :=
  let x := s.core c
  let line := addr / 64 * 64
  let over_ := x.dma.filterMap id |>.filter (fun d => d.regions.any (lineIn line))
  match over_ with
  | [] => (memBytes x.mem addr n, s)
  | d :: _ =>
    if s.freeVal 1 = 0 then (memBytes x.mem addr n, s.drawn)
    else (memBytes (memWrites x.mem ((s.dmaCells c d).filter (fun e => decide (line ≤ e.1) && decide (e.1 < line + 64)))) addr n, s.drawn)

/-! ### Loads -/

/-- Load `size` bytes and hand the number they spell to a destination. -/
def State.loadTo (s : State) (c addr size : Nat) (place : Nat → BCore → BCore) : State :=
  let r := s.loadBytes c addr size
  r.2.setCore c (place (ofLe r.1) (r.2.core c))

/-- One load of form M. -/
def loadM (o : OpM) (size : Nat) (place : Nat → BCore → BCore) (s : State) : Out :=
  if modeReserved o.mode then .fault .reservedEncoding
  else .next (s.issue o.core o.close (fun st =>
    let x := st.core o.core
    let addr := x.addrOf o.an.toNat o.mode.toNat (inc24 o)
    match accessFault addr size false with
    | some k => st.coreFault o.core k
    | none => (st.loadTo o.core addr size place).updateAddr o.core o.an.toNat o.mode.toNat (inc24 o) (some (incReg o))))

/-- A result for a vector register named at issue (R189). -/
def toV (slot latency r v : Nat) (x : BCore) : BCore := x.write slot latency (.v (physReg x.rotbase r)) v
/-- A result for a scalar register. -/
def toS (slot latency r v : Nat) (x : BCore) : BCore := x.write slot latency (.s r) v

/-- VLD (R194): 64 bytes. -/
def execVld (o : OpM) (s : State) : Out := loadM o 64 (toV 0 3 o.reg.toNat) s

/-- VLDB: a 16-bit word in every lane. -/
def execVldb (o : OpM) (s : State) : Out := loadM o 2 (fun v => toV 0 3 o.reg.toNat (ofLanes 16 (List.replicate 32 v))) s

/-- SLD: 32 bits. -/
def execSld (o : OpM) (s : State) : Out := loadM o 4 (toS 0 3 (low5 o.reg)) s

/-- The bundle being issued makes two accesses (R191). -/
def State.twoAccesses (s : State) (c : Nat) : State := s.setCore c { (s.core c) with both := true }

/-- VLD2: two vectors from two addresses; each address register by its own rule (R193). -/
def execVld2 (o : OpM2) (s : State) : Out :=
  if modeReserved o.mode then .fault .reservedEncoding
  else .next (s.issue o.core o.close (fun st =>
    let x := st.core o.core
    let a := x.addrOf o.an.toNat o.mode.toNat (inc15 o)
    let b := x.addrOf o.am.toNat o.mode.toNat (inc15 o)
    match firstFault (accessFault a 64 false) (accessFault b 64 false) with
    | some k => st.coreFault o.core k
    | none =>
      let s1 := ((st.twoAccesses o.core).loadTo o.core a 64 (toV 0 3 o.vd.toNat)).loadTo o.core b 64 (toV 0 3 ((o.vd.toNat + 1) % 64))
      let s2 := s1.updateAddr o.core o.an.toNat o.mode.toNat (inc15 o) none
      if o.am = o.an then s2 else s2.updateAddr o.core o.am.toNat o.mode.toNat (inc15 o) none))

/-! ### Stores: visible to loads two bundles later (R192) -/

/-- Put cells in flight. -/
def BCore.store (x : BCore) (cells : List Host.Cell) : BCore := { x with stores := x.stores ++ [⟨x.bundle + 2, cells⟩] }

/-- VLDST: the read sees memory as it was, then the write (R191). -/
def execVldst (o : OpM2) (s : State) : Out :=
  if modeReserved o.mode then .fault .reservedEncoding
  else .next (s.issue o.core o.close (fun st =>
    let x := st.core o.core
    let a := x.addrOf o.an.toNat o.mode.toNat (inc15 o)
    let b := x.addrOf o.am.toNat o.mode.toNat (inc15 o)
    match firstFault (accessFault a 64 false) (accessFault b 64 true) with
    | some k => st.coreFault o.core k
    | none =>
      let data := le 64 (x.vreg o.vs.toNat).toNat
      let s1 := (st.twoAccesses o.core).loadTo o.core a 64 (toV 0 3 o.vd.toNat)
      let s2 := s1.setCore o.core ((s1.core o.core).store (cellsFrom b data))
      let s3 := s2.updateAddr o.core o.an.toNat o.mode.toNat (inc15 o) none
      if o.am = o.an then s3 else s3.updateAddr o.core o.am.toNat o.mode.toNat (inc15 o) none))

/-- One store of form M: the cells from the core and the address. -/
def storeM (o : OpM) (size : Nat) (inc : Int) (cells : BCore → Nat → List Host.Cell) (s : State) : Out :=
  if modeReserved o.mode then .fault .reservedEncoding
  else .next (s.issue o.core o.close (fun st =>
    let x := st.core o.core
    let addr := x.addrOf o.an.toNat o.mode.toNat inc
    match accessFault addr size true with
    | some k => st.coreFault o.core k
    | none => (st.setCore o.core (x.store (cells x addr))).updateAddr o.core o.an.toNat o.mode.toNat inc (some (incReg o))))

/-- VST: 64 bytes. -/
def execVst (o : OpM) (s : State) : Out :=
  storeM o 64 (inc24 o) (fun x addr => cellsFrom addr (le 64 (x.vreg o.reg.toNat).toNat)) s

/-- The cells of the 16-bit lanes whose mask bit is 1. -/
def maskedCells (mask addr : Nat) (ls : List Nat) : List Host.Cell :=
  (List.range ls.length).flatMap (fun l => if bitOf mask l then cellsFrom (addr + 2 * l) (le 2 (ls.getD l 0)) else [])

/-- VSTM: the lanes its mask register picks; 32 lanes of 16 bits, one for each mask bit. -/
def execVstm (o : OpM) (s : State) : Out :=
  storeM o 64 (inc19 o) (fun x addr => maskedCells (x.sreg (incReg o)).toNat addr (x.lanes false o.reg.toNat)) s

/-- SST: 32 bits. -/
def execSst (o : OpM) (s : State) : Out :=
  storeM o 4 (inc24 o) (fun x addr => cellsFrom addr (le 4 (x.sreg (low5 o.reg)).toNat)) s

/-! ### Address registers -/

/-- AADDI: An ← An + inc. -/
def execAaddi (o : OpM) (s : State) : Out :=
  .next (s.issueCore o.core o.close (fun x => x.write 0 1 (.a o.an.toNat) (bitsOf 32 ((x.areg o.an.toNat).toNat + (inc24 o)))))

/-- AMOV: An ← Sa. -/
def execAmov (o : OpS) (an : BitVec 3) (s : State) : Out :=
  .next (s.issueCore o.core o.close (fun x => x.write 0 1 (.a an.toNat) (x.sreg o.sa.toNat).toNat))

/-- AGET: Sd ← An. -/
def execAget (o : OpS) (an : BitVec 3) (s : State) : Out :=
  .next (s.issueCore o.core o.close (fun x => toS 0 1 o.sd.toNat (x.areg an.toNat).toNat x))

/-! ### DMA -/

/-- Read a descriptor (R206). -/
def descriptorOf (bs : List Byte) : BDma :=
  let ctl := fieldLe bs 2 1
  { op := fieldLe bs 0 1, conv := fieldLe bs 1 1, irq := bitOf ctl 0, side := bitOf ctl 1, dmem := fieldLe bs 4 4, aux := fieldLe bs 8 4, index := fieldLe bs 12 4,
    first := fieldLe bs 16 4, count := fieldLe bs 20 4, offset := fieldLe bs 24 8 }

/-- What a descriptor must be, whatever the core (R206): codes, alignment, and stretches within data memory below the arguments. Reserved bits are not looked at (R10). -/
def descriptorForm (bs : List Byte) : Bool :=
  let d := descriptorOf bs
  decide (d.op < 4) && decide (d.conv < 3) && (d.op == 0 || d.conv == 0) &&
  decide (d.dmem % 64 = 0) && (!d.side || d.op != 0 || decide (d.aux % 64 = 0)) && d.regions.all (fun r => decide (r.1 + r.2 ≤ 0x3FF00)) &&
  (d.op != 1 && d.op != 2 || decide (d.count % 64 = 0) && decide (d.offset % 64 = 0)) && (d.op != 2 || decide (d.dmem + d.count ≤ 0x40000))

/-- What it must be on its core: its share, the tile, the scratch area, the records. -/
def State.descriptorFits (s : State) (c : Nat) (d : BDma) : Bool :=
  let x := s.core c
  let i := x.inst.getD 0
  let h := s.instHeader i
  match (s.inst i).tile with
  | none => false
  | some t =>
    let share := s.coreShare i x.logical t
    if d.op = 0 then decide (d.index < share.2) && decide (d.first + d.count ≤ t.tdec)
    else if d.op = 3 then decide (d.index < h.samples) && decide (d.first + d.count ≤ share.2 * h.perBrick) && decide (d.dmem + d.count * h.recBytes ≤ 0x40000)
    else decide (d.offset + d.count ≤ (s.inst i).par (K.basaltInstScratchMib i) * 2 ^ 20)

/-- Start a channel (R206): the descriptor is read when the operation issues; a bad one, and a busy channel, fault with cause 4. A descriptor of another operation is another
command's. -/
def startDma (o : OpS) (want : Nat) (s : State) : Out :=
  .next (s.issue o.core o.close (fun st =>
    let x := st.core o.core
    let addr := (x.sreg o.sa.toNat).toNat
    let ch := o.imm.toNat % 4
    match accessFault addr 32 false with
    | some k => st.coreFault o.core k
    | none =>
      let r := st.loadBytes o.core addr 32
      let d := descriptorOf r.1
      if (x.dma.getD ch none).isSome ∨ descriptorForm r.1 = false ∨ st.descriptorFits o.core d = false then r.2.coreFault o.core 4
      else if d.op ≠ want then r.2
      else r.2.setCore o.core { (r.2.core o.core) with dma := x.dma.set ch (some d) }))

/-- BRICK_IN (R207). -/
def execBrickIn (o : OpS) (s : State) : Out := startDma o 0 s
/-- SCRATCH_IN (R208). -/
def execScratchIn (o : OpS) (s : State) : Out := startDma o 1 s
/-- SCRATCH_OUT (R208). -/
def execScratchOut (o : OpS) (s : State) : Out := startDma o 2 s
/-- OUTPUT (R209). -/
def execOutput (o : OpS) (s : State) : Out := startDma o 3 s

/-- WAITD: freeze until the channels in imm16 [3:0] are idle. -/
def execWaitd (o : OpS) (s : State) : Out :=
  .next (s.issueCore o.core o.close (fun x => { x with wait := some (o.imm.toNat % 16) }))

/-- The records an OUTPUT delivers: sample, output point, bytes. -/
def State.outputRecords (s : State) (c : Nat) (d : BDma) (t : BTile) : List (Nat × Nat × List Byte) :=
  let x := s.core c
  let i := x.inst.getD 0
  let h := s.instHeader i
  let base := (s.coreShare i x.logical t).1 * h.perBrick
  (List.range d.count).map (fun j => (d.index, base + d.first + j, memBytes x.mem (d.dmem + j * h.recBytes) h.recBytes))

/-- A transfer takes place: into data memory, into scratch, or as records of the tile. -/
def State.transfer (s : State) (c : Nat) (d : BDma) : State :=
  let x := s.core c
  let i := x.inst.getD 0
  let inst := s.inst i
  if d.op = 2 then s.setInst i { inst with scratch := memWrites inst.scratch (cellsFrom d.offset (memBytes x.mem d.dmem d.count)) }
  else if d.op = 3 then
    s.setInst i { inst with tile := inst.tile.map (fun t => { t with records := s.outputRecords c d t ++ t.records }) }
  else s.setCore c { x with mem := memWrites x.mem (s.dmaCells c d) }

/-- Cycles a core was frozen, which the spec leaves open: a fresh value. -/
def State.thaw (s : State) (c : Nat) : State :=
  let x := s.core c
  let n := s.freeVal 32
  (s.setCore c ((x.tick n).keSet 0x39 ((x.keAt 0x39 + n) % 4294967296))).drawn

/-- DMA_COMPLETE (R206): the transfer has taken place, its channel is idle, its done bit set, its interrupt pending where asked; a core frozen by WAITD or TEND goes on once
its channels are idle. -/
def execDmaComplete (core ch : Nat) (s : State) : Out :=
  let x := s.core core
  match x.dma.getD ch none with
  | none => .next s
  | some d =>
    let s1 := s.transfer core d
    let y := { (s1.core core) with dma := x.dma.set ch none }
    let y1 := y.keSet 0x29 (Nat.lor (y.keAt 0x29) (2 ^ ch))
    let s2 := s1.setCore core (if d.irq then y1.keSet 3 (Nat.lor (y1.keAt 3) 1) else y1)
    let z := s2.core core
    if z.frozen then
      (if Nat.land z.dmaBusy (z.wait.getD 0) = 0 then
        let s3 := s2.thaw core
        .next (s3.withCore core (({ (s3.core core) with frozen := false } : BCore).issued s3.fresh))
       else .next s2)
    else if z.tending ∧ z.dmaBusy = 0 then .next ((s2.thaw core).finishTend core)
    else .next s2

end Sys2Proof.Machine
end

