-- ==== Sys2Proof/Machine/BasaltControl.lean ====
section
/-! DEFINITION. Basalt's control operations: NOP and rotation, branches, loops, control registers, TEND, TRACE, check units (R185 to R189, R198 to R200, R205, R212, R220). -/

namespace Sys2Proof.Machine

/-! ### NOP and rotation -/

/-- NOP: nothing in its slot (R185). -/
def execNop (core : Nat) (close : Bool) (s : State) : Out := .next (s.issueCore core close id)

/-- The bundle being issued carries rot: KE_ROTBASE goes down by 1 for the next bundle (R189). -/
def execRotDecrement (core : Nat) (s : State) : Out := .next (s.issueCore core false (fun x => { x with rot := true }))

/-! ### Branches: two delay slots (R198) -/

/-- Offset in bundles. -/
def branchOff (o : OpC) : Int := wrapS 13 o.off.toNat

/-- The bundle address an offset from this bundle names; one that lies below 0 is no address of the image. -/
def BCore.relative (x : BCore) (off : Int) : Nat := if 0 ≤ (x.pc : Int) + off then ((x.pc : Int) + off).toNat else 4096

/-- A branch issues, taken or not. -/
def branchOp (o : OpC) (f : BCore → Option Nat) (s : State) : Out :=
  .next (s.issueCore o.core o.close (fun x => { x with branch := some (f x) }))

/-- BR. -/
def execBr (o : OpC) (s : State) : Out := branchOp o (fun x => some (x.relative (branchOff o))) s
/-- BRZ: Sa is tested at issue. -/
def execBrz (o : OpC) (s : State) : Out :=
  branchOp o (fun x => if x.sreg o.s.toNat = 0 then some (x.relative (branchOff o)) else none) s
/-- BRNZ. -/
def execBrnz (o : OpC) (s : State) : Out :=
  branchOp o (fun x => if x.sreg o.s.toNat = 0 then none else some (x.relative (branchOff o))) s
/-- BRI: to Sa[11:0]. -/
def execBri (o : OpC) (s : State) : Out := branchOp o (fun x => some ((x.sreg o.s.toNat).toNat % 4096)) s
/-- CALL: S31 ← this address + 3, then branch. -/
def execCall (o : OpC) (s : State) : Out :=
  .next (s.issueCore o.core o.close (fun x => toS 2 1 31 (x.pc + 3) { x with branch := some (some (x.relative (branchOff o))) }))
/-- RETI: to KE_IRP; KE_STATUS takes KE_ISTATUS (R194, R204). -/
def execReti (o : OpC) (s : State) : Out :=
  .next (s.issueCore o.core o.close (fun x => ({ x with branch := some (some (x.keAt 4)) } : BCore).write 2 1 (.ke 1) (x.keAt 5 % 16)))

/-! ### Hardware loops (R199) -/

/-- Arm a loop whose count, top and end stand at `base`; a count of 0 skips to end + 1. -/
def loopOp (o : OpC) (base : Nat) (s : State) : Out :=
  .next (s.issueCore o.core o.close (fun x =>
    let n := (x.sreg o.s.toNat).toNat
    let y := ((x.write 2 1 (.mtc base) n).write 2 1 (.mtc (base + 1)) o.top.toNat).write 2 1 (.mtc (base + 2)) o.end_.toNat
    { y with noInt := true, skip := if n = 0 then some o.end_.toNat else y.skip }))

/-- LOOPA. -/
def execLoopa (o : OpC) (s : State) : Out := loopOp o 8 s
/-- LOOPB. -/
def execLoopb (o : OpC) (s : State) : Out := loopOp o 0xB s

/-! ### Control registers (R205) -/

/-- MFC: the register as it reads at issue; an index without a register gives a value the spec does not state. -/
def execMfc (o : OpC) (s : State) : Out :=
  match (s.core o.core).mfcRead o.core o.ke.toNat with
  | some v => .next (s.issueCore o.core o.close (toS 2 1 o.s.toNat v))
  | none => .next (s.issueFree o.core o.close (fun free x => toS 2 1 o.s.toNat (free % 2 ^ 32) x))

/-- A check unit's running value takes a new value: at once for later feeds, two bundles later for readers (R212). -/
def BCore.setCrc (x : BCore) (n v : Nat) : BCore :=
  (({ x with crc := x.crc.set n v } : BCore).write 2 2 (.ke (0x44 + n)) (v % 2 ^ 32)).write 2 2 (.ke (0x48 + n)) (v / 2 ^ 32 % 2 ^ 32)

/-- A check unit's running value in issue order. -/
def BCore.crcAt (x : BCore) (n : Nat) : Nat := x.crc.getD n 0

/-- MTC: lands two bundles later; a check unit's halves act in issue order with its feeds (R212). -/
def execMtc (o : OpC) (s : State) : Out :=
  .next (s.issueCore o.core o.close (fun x =>
    let v := (x.sreg o.s.toNat).toNat
    let k := o.ke.toNat
    let y := { x with noInt := true }
    if 0x44 ≤ k ∧ k ≤ 0x47 then y.setCrc (k - 0x44) (x.crcAt (k - 0x44) / 2 ^ 32 * 2 ^ 32 + v)
    else if 0x48 ≤ k ∧ k ≤ 0x4B then y.setCrc (k - 0x48) (x.crcAt (k - 0x48) % 2 ^ 32 + 2 ^ 32 * v)
    else y.write 2 2 (.mtc k) v))

/-- DINT: IE cleared. -/
def execDint (o : OpC) (s : State) : Out := .next (s.issueCore o.core o.close (fun x => x.write 2 1 (.unflag 0) 0))
/-- EINT: IE set. -/
def execEint (o : OpC) (s : State) : Out := .next (s.issueCore o.core o.close (fun x => x.write 2 1 (.flag 0) 1))

/-! ### TEND and TRACE -/

/-- TEND: the end of INIT or TILE, once every channel is idle (R184, R206). -/
def execTend (o : OpC) (t : Tick) (s : State) : Out :=
  .next ((s.at t).issueCore o.core o.close (fun x => { x with tend := true }))

/-- An entry of the trace ring: value, address, KE_CYCLE (R220). -/
def ringEntry (v pc cycle : Nat) : BitVec 96 := BitVec.ofNat 96 (v + 2 ^ 32 * (pc % 4096) + 2 ^ 64 * cycle)

/-- The newest 64 of a ring, newest last. -/
def ringPush (l : List (BitVec 96)) (e : BitVec 96) : List (BitVec 96) := (l ++ [e]).drop (l.length + 1 - 64)

/-- TRACE. -/
def execTrace (o : OpC) (s : State) : Out :=
  .next (s.issueCore o.core o.close (fun x => { x with ring := ringPush x.ring (ringEntry (x.sreg o.s.toNat).toNat x.pc (x.keAt 0x38)) }))

/-! ### Check units (R211, R212) -/

/-- Configuration of a unit. -/
def BCore.crcCfg (x : BCore) (n : Nat) : Nat := x.keAt (0x40 + n)

/-- CRCV: the 64 bytes of Va. -/
def execCrcv (o : OpC) (s : State) : Out :=
  .next (s.issueCore o.core o.close (fun x =>
    x.setCrc o.unit.toNat (crcFeed (x.crcCfg o.unit.toNat) (x.crcAt o.unit.toNat) (le 64 (x.vreg o.v.toNat).toNat))))

/-- CRCS: the k + 1 low bytes of Sa. -/
def execCrcs (o : OpC) (s : State) : Out :=
  .next (s.issueCore o.core o.close (fun x =>
    x.setCrc o.unit.toNat (crcFeed (x.crcCfg o.unit.toNat) (x.crcAt o.unit.toNat) (le (o.k.toNat + 1) (x.sreg o.s.toNat).toNat))))

/-- CRCSEED: the CRC from an all-ones start over the module ID, Sa[7:0] and Sb. -/
def execCrcseed (o : OpC) (s : State) : Out :=
  .next (s.issueCore o.core o.close (fun x =>
    x.setCrc o.unit.toNat (crcFeed (x.crcCfg o.unit.toNat) (2 ^ 64 - 1)
      (le 8 s.moduleId.toNat ++ le 1 (x.sreg o.s.toNat).toNat ++ le 4 (x.sreg o.sb.toNat).toNat))))

/-- CRCFIN: the finished check value, as its readers see it (R212), to Sd. -/
def execCrcfin (o : OpC) (s : State) : Out :=
  .next (s.issueCore o.core o.close (fun x =>
    toS 2 1 o.s.toNat (crcFinish (x.crcCfg o.unit.toNat) (x.keAt (0x44 + o.unit.toNat) + 2 ^ 32 * x.keAt (0x48 + o.unit.toNat)) % 2 ^ 32) x))

end Sys2Proof.Machine
end

