-- ==== Sys2Proof/Machine/BasaltEngine.lean ====
section
/-! DEFINITION. Basalt's engine events: tile entry, interrupts, counters' ends, hardware faults and spares, stopping (R182 to R184, R201 to R205, R210, R215 to R219). -/

namespace Sys2Proof.Machine

/-! ### Tile entry (R184, R210) -/

/-- The fields of an instance other than its arguments. -/
def instFields (i : Nat) : List Key :=
  [K.basaltInstEnable i, K.basaltInstSlot i, K.basaltInstPort i, K.basaltInstPointsFirst i, K.basaltInstPointsCount i, K.basaltInstCores i, K.basaltInstStream i,
   K.basaltInstScratchMib i, K.basaltInstDeadlineWarn i]

/-- Two sets differ in an instance's fields. -/
def instChanged (a b : PSet) (i : Nat) : Bool := (instFields i).any (fun k => decide (a.get k ≠ b.get k))
/-- Two sets differ in its arguments. -/
def argsChanged (a b : PSet) (i : Nat) : Bool :=
  (List.range 16).any (fun j => decide (a.get (K.basaltInstArg i j) ≠ b.get (K.basaltInstArg i j)))

/-- A change from one trace to the next that zeroes the decimation state (R127): of Δ, or at F. -/
def State.zeroes (s : State) (p : Port) (last : Option (Nat × Nat × Nat × Nat)) (tr : StrainTrace) : Bool :=
  match last with
  | none => false
  | some (e, _, c, d) => decide (tr.delta ≠ d) || (decide (tr.header.epoch ≠ e) && s.portEvent p e tr.header.epoch (c != tr.header.count) == 2)

/-- A tile holds an event that zeroes the decimation state (R127), counted from what the tile before ended with: an index from the next expected up to the tile's end without a
trace, or such a change. -/
def State.mixedTile (s : State) (p : Port) (end_ : Nat) : Nat → Option (Nat × Nat × Nat × Nat) → List StrainTrace → Bool
  | next, _, [] => decide (next < end_)
  | next, last, tr :: rest =>
    decide (tr.index ≠ next) || s.zeroes p last tr ||
    s.mixedTile p end_ (tr.index + 1) (some (tr.header.epoch, tr.index, tr.header.count, tr.delta)) rest

/-- Tiles between the last one an instance worked on and this one had no traces at all: the event lies in them, and this tile is the one after. -/
def tilesSkipped (last : Option (Nat × Nat × Nat × Nat)) (k tdec delta : Nat) : Bool :=
  match last with
  | none => false
  | some (_, n, _, d) => decide (n + 1 < k * tdec) && d == delta

/-- The tile an instance is to enter: of the port its values name, not entered before. -/
def State.tileFor (s : State) (i : Nat) (p : Port) : Option (BReady × Bank) :=
  match s.basalt.ready.get p with
  | none => none
  | some r =>
    match s.histBank p ((r.traces.head?.map (·.header.epoch)).getD 0) with
    | none => none
    | some b =>
      let entered : Bool := match (s.inst i).tile with
        | some t => t.port == p && t.k == r.k
        | none => false
      if b.set.get (K.basaltInstEnable i) = 1 ∧ b.set.get (K.basaltInstPort i) = p.idx ∧ entered = false then some (r, b) else none

/-- Cores take an instance's logical numbers (R183), a core new to it with INIT before its first TILE; others it held are free. -/
def State.allocate (s : State) (i : Nat) (set : PSet) : State :=
  let l0 := firstLogical set i
  let n := set.get (K.basaltInstCores i)
  (List.range 34).foldl (fun st c =>
    let x := st.core c
    if x.role = 0 ∧ l0 ≤ x.logical ∧ x.logical < l0 + n then (st.setCore c { x with inst := some i, needInit := x.needInit || x.inst != some i }).publishCore c
    else if x.inst = some i then st.freeCore c else st) s

/-- The logical numbers of an instance that no core has; of those, the ones no spare is being loaded for. -/
def State.missing (s : State) (i : Nat) (set : PSet) : List Nat × List Nat :=
  let l0 := firstLogical set i
  let none_ := ((List.range (set.get (K.basaltInstCores i))).map (l0 + ·)).filter (fun l => (s.physOf l).isNone)
  (none_, none_.filter (fun l => !((List.range 34).any (fun c => (s.core c).takes.map (·.1) == some l))))

/-- An instance takes up a tile (R184, R210, R216). -/
def State.enterTile (s : State) (i : Nat) (p : Port) (r : BReady) (b : Bank) : State :=
  let x := s.inst i
  let changed := x.on && instChanged x.bank.set b.set i
  let args := x.on && argsChanged x.bank.set b.set i
  let halted := x.halted && !(instChanged x.bank.set b.set i) && !(argsChanged x.bank.set b.set i)
  let delta := (r.traces.head?.map (·.delta)).getD 0
  let restart := x.restart || changed || !x.on || tilesSkipped x.last r.k r.tdec delta
  let mixed := s.mixedTile p ((r.k + 1) * r.tdec) (r.k * r.tdec) (if restart then none else x.last) r.traces
  let s1 := s.allocate i b.set
  let gone := s1.missing i b.set
  let cores := s1.coresOf i
  let late := cores.any (fun c => (s1.core c).late)
  let h := imageHeader (s1.slot (b.set.get (K.basaltInstSlot i))).image
  let left := if restart || mixed || late then max x.left h.warmup else x.left
  let t : BTile := { port := p, k := r.k, tdec := r.tdec, delta := delta, readyAt := r.readyAt, deadline := r.readyAt + r.tdec * delta - 10000, traces := r.traces,
                     flags := b2n restart + 2 * b2n args + 4 * b2n mixed + traceFlags r.traces, records := [], gap := halted || x.shed || gone.1 != [],
                     failed := false, unsettled := left, closed := false }
  let x1 : BInst := { x with bank := b, on := true, halted := halted, faults := if halted then x.faults else if x.halted then [] else x.faults, lost := gone.2,
                             restart := mixed, scratch := if restart then [] else x.scratch, tile := some t, left := left,
                             last := (r.traces.getLast?.map (fun tr => (tr.header.epoch, (r.k + 1) * r.tdec - 1, tr.header.count, tr.delta))) }
  if halted || x.shed then (((s1.setInst i { x1 with restart := true }).closeTile i).publishInst i).basaltSettle
  else
    let s2 := (s1.setInst i x1).publishInst i
    let s3 := if restart then s2.bump (K.basaltInstRestarts i) 1 else s2
    (cores.foldl (fun st c => st.enterCore c i t (restart || (st.core c).needInit)) s3).basaltSettle

/-- BASALT_TILE_ENTRY: an instance enters the newest ready tile of its port once its last tile is closed. -/
def execBasaltTileEntry (t : Tick) (inst : Nat) (s : State) : Out :=
  let s0 := s.at t
  let busy : Bool := match (s0.inst inst).tile with
    | some y => !y.closed
    | none => false
  if s0.mode ≠ .running ∨ busy then .next s0
  else match s0.tileFor inst .a with
    | some (r, b) => .next (s0.enterTile inst .a r b)
    | none => match s0.tileFor inst .b with
      | some (r, b) => .next (s0.enterTile inst .b r b)
      | none => .next s0

/-! ### Interrupts (R201, R202) -/

/-- The boundary before a core's next bundle is interruptible. -/
def BCore.interruptible (x : BCore) : Bool := !x.open_ && x.delay.isNone && !x.noInt && (!x.first || x.frozen)

/-- An enabled source is pending. -/
def BCore.interruptDue (x : BCore) : Bool := x.ie && decide (Nat.land (x.keAt 3) (x.keAt 2) ≠ 0)

/-- Entry (R201): everything issued lands, KE_IRP and KE_ISTATUS are saved, IE is cleared, INH set, and the handler is next. At most 6 cycles pass, which the spec leaves open. -/
def BCore.enterHandler (x : BCore) (n : Nat) : BCore × Nat :=
  let y := x.drain 8 n
  let z := (y.1.tick (Config.freeBits y.2 % 7)).keSet 4 (x.pc % 4096)
  let w := (z.keSet 5 z.status).keSet 1 (z.keAt 1 / 4 % 4 * 4 + 2)
  ({ w with pc := w.keAt 6, bundle := y.1.bundle, frozen := false, wait := none, rot := false }, y.2 + 1)

/-- INTERRUPT_ENTRY. -/
def execInterruptEntry (core : Nat) (s : State) : Out :=
  let x := s.core core
  let runs : Bool := s.mode == .running && (x.run == .init || x.run == .tile) && !x.tending
  if runs && x.interruptible && x.interruptDue then
    let s1 := if x.frozen then s.thaw core else s
    .next (s1.withCore core ((s1.core core).enterHandler s1.fresh))
  else .next s

/-- A core is inside INIT or TILE in RUNNING. -/
def State.coreInside (s : State) (c : Nat) : Bool :=
  s.mode == .running && ((s.core c).run == .init || (s.core c).run == .tile)

/-- A source of KE_IPEND is pending. -/
def BCore.pend (x : BCore) (bit : Nat) : BCore := x.keSet 3 (Nat.lor (x.keAt 3) (2 ^ bit))

/-- KE_TIMER_EXPIRY: a running timer reaches 0 and sets KE_IPEND[1] (R205). -/
def execKeTimerExpiry (core : Nat) (s : State) : Out :=
  let x := s.core core
  if s.coreInside core ∧ x.keAt 7 ≠ 0 then .next (s.setCore core ((x.keSet 7 0).pend 1)) else .next s

/-- DEADLINE_WARN: KE_TILE_DEADLINE has fallen below the instance's deadline_warn; 0 asks for no interrupt (R201). -/
def execDeadlineWarn (core : Nat) (s : State) : Out :=
  let x := s.core core
  let i := x.inst.getD 0
  let warn := (s.inst i).par (K.basaltInstDeadlineWarn i)
  if s.coreInside core ∧ warn ≠ 0 then .next (s.setCore core ((x.keSet 0x35 (min (x.keAt 0x35) (warn - 1))).pend 2)) else .next s

/-! ### Deadline, hardware faults, spares (R215 to R217) -/

/-- KERNEL_DEADLINE: a core still inside its entry at the deadline faults with cause 5; when none runs any more the block is sent. -/
def execKernelDeadline (t : Tick) (core : Nat) (s : State) : Out :=
  let s0 := s.at t
  let x := s0.core core
  match x.inst with
  | none => .next s0
  | some i =>
    match (s0.inst i).tile with
    | none => .next s0
    | some y =>
      if y.closed ∨ s0.now < y.deadline then .next s0
      else
        let s1 : State :=
          if s0.coreInside core && !x.tending then (s0.setCore core (x.keSet 0x35 0)).coreFault core 5 else s0
        if s1.noneRuns i then .next ((s1.closeTile i).basaltSettle) else .next s1

/-- A spare to load, if one is free. -/
def State.freeSpare (s : State) : Option Nat := (List.range 34).find? (fun c => (s.core c).role == 1 && (s.core c).takes.isNone)

/-- CORE_HARDWARE_FAULT: causes 8 to 10 stop and retire an ACTIVE core (R215, R217); a spare is loaded for its share, or the instance is degraded. -/
def execCoreHardwareFault (t : Tick) (core : Nat) (cause : Nat) (s : State) : Out :=
  let s0 := s.at t
  let x := s0.core core
  if s0.mode ≠ .running ∨ x.role = 2 ∨ cause < 8 ∨ 10 < cause then .next s0
  else
    let s1 := s0.coreStop core cause
    let s2 := (s1.setCore core { (s1.core core) with role := 2 }).publishCore core
    let s3 := { s2 with basalt := { s2.basalt with retired := core :: s2.basalt.retired, outOf := core :: s2.basalt.outOf } }
    if x.role = 1 then .next s3
    else match s3.freeSpare with
      | some c => .next (s3.setCore c { (s3.core c) with takes := some (x.logical, x.inst.getD 15) })
      | none =>
        match x.inst with
        | none => .next s3
        | some i =>
          let y := s3.inst i
          .next (((s3.setInst i { y with lost := x.logical :: y.lost }).publishInst i).raise Ev.kernelDegraded [u i, u x.logical])

/-- SPARE_CORE_LOADED: the spare takes the failed core's logical number and share, with the image and the persist region of the last checkpoint; it begins at the next tile, with INIT
where nothing persists (R217). -/
def execSpareCoreLoaded (t : Tick) (core : Nat) (s : State) : Out :=
  let s0 := s.at t
  let x := s0.core core
  match x.takes with
  | none => .next s0
  | some (l, i) =>
    if s0.mode ≠ .running ∨ x.role ≠ 1 then .next s0
    else
      let h := s0.instHeader i
      let saved := ((s0.inst i).checkpoints.find? (fun e => e.1 == l)).map (·.2)
      let mem := match saved with
        | some bytes => memWrites (s0.initMem i) (cellsFrom h.persistAddr bytes)
        | none => s0.initMem i
      let y : BCore := { x with role := 0, logical := l, inst := if i < 8 then some i else none, run := .gated, mem := mem, takes := none, late := true,
                                needInit := saved.isNone, undef := none }
      .next (((s0.setCore core y).publishCore core).raise Ev.coreReplaced [u i, u core, u l])

/-! ### Leaving RUNNING (R182, R219) -/

/-- A core's register files and memories hold no defined content (R182): fresh values from the n-th draw on, 197 of them; data memory is undefined as a whole, by the last. -/
def BCore.scramble (x : BCore) (n : Nat) : BCore :=
  { x.halt with run := .gated, v := (List.range 64).map (fun k => BitVec.ofNat 512 (Config.freeBits (n + k))),
                s := (List.range 32).map (fun k => BitVec.ofNat 32 (Config.freeBits (n + 64 + k))),
                a := (List.range 8).map (fun k => BitVec.ofNat 32 (Config.freeBits (n + 96 + k))),
                acc := (List.range 8).map (fun k => BitVec.ofNat 1536 (Config.freeBits (n + 104 + k))), mem := [], undef := some (n + 196),
                ke := (List.range 80).map (fun k => Config.freeBits (n + 112 + k) % 2 ^ keWidth k),
                crc := (List.range 4).map (fun k => Config.freeBits (n + 192 + k) % 2 ^ 64) }

/-- All cores stop at once; a tile in progress yields no block; every instance restarts at its next tile. A spare being loaded holds its new number. -/
def State.basaltStop (s : State) : State :=
  let s1 := (List.range 34).foldl (fun st c =>
    let x := st.core c
    let y := { (x.scramble st.fresh) with inst := none, late := false, needInit := false }
    let z := match x.takes with
      | some (l, _) => { y with role := 0, logical := l, takes := none }
      | none => y
    ({ (st.setCore c z) with fresh := st.fresh + 197 }).publishCore c) ({ s with basalt := { s.basalt with ready := ⟨none, none⟩ } } : State)
  (List.range 8).foldl (fun st i =>
    let x := st.inst i
    (st.setInst i { x with on := false, restart := true, tile := none, left := 0, last := none, checkpoints := [], scratch := [], loads := [], shed := false }).publishInst i) s1

/-- The largest cycle counts start afresh at a commit (R220). -/
def State.basaltAtF (s : State) : State :=
  ((List.range 34).foldl (fun st c => st.roSet (K.basaltCoreCyclesMax c) 0) s).basaltSettle

end Sys2Proof.Machine
end

