-- ==== Sys2Proof/Machine/BasaltMac.lean ====
section
/-! DEFINITION. Basalt's multiply-accumulate unit, slot 1 (R194, R197): accumulators take writes in issue order; results for vector registers land 4 bundles later. -/

namespace Sys2Proof.Machine

/-- Signed lanes of an accumulator. -/
def BCore.accLanes (x : BCore) (r : Nat) : List Int := (lanesOf 48 32 (x.accreg r).toNat).map (signed 48)

/-- An accumulator from its lanes, wrapping to 48 bits. -/
def accOf (ls : List Int) : BitVec 1536 := BitVec.ofNat 1536 (ofLanes 48 (ls.map (bitsOf 48)))

/-- Replace an accumulator. -/
def BCore.setAcc (x : BCore) (r : Nat) (v : BitVec 1536) : BCore := { x with acc := x.acc.set r v }

/-- An accumulator operation over Va and Vb lanes. -/
def accOp (o : OpX) (f : Int → Int → Int → Int) (s : State) : Out :=
  .next (s.issueCore o.core o.close (fun x =>
    x.setAcc o.acc.toNat (accOf (((x.accLanes o.acc.toNat).zip ((x.lanes16 o.va.toNat).zip (x.lanes16 o.vb.toNat))).map (fun e => f e.1 e.2.1 e.2.2)))))

/-- VMAC. -/
def execVmac (o : OpX) (s : State) : Out := accOp o (fun c a b => c + a * b) s
/-- VMSU. -/
def execVmsu (o : OpX) (s : State) : Out := accOp o (fun c a b => c - a * b) s
/-- VMUL. -/
def execVmul (o : OpX) (s : State) : Out := accOp o (fun _ a b => a * b) s
/-- VSQA. -/
def execVsqa (o : OpX) (s : State) : Out := accOp o (fun c a _ => c + a * a) s
/-- VMACS: by Sx[15:0]. -/
def execVmacs (o : OpX) (s : State) : Out :=
  .next (s.issueCore o.core o.close (fun x =>
    let k := signed 16 ((x.sreg o.sx.toNat).toNat % 65536)
    x.setAcc o.acc.toNat (accOf (((x.accLanes o.acc.toNat).zip (x.lanes16 o.va.toNat)).map (fun e => e.1 + e.2 * k)))))
/-- ACCCLR. -/
def execAccclr (o : OpX) (s : State) : Out := .next (s.issueCore o.core o.close (fun x => x.setAcc o.acc.toNat 0))

/-- Saturated lanes into a vector register, SAT landing with them. -/
def satResult (x : BCore) (w vd : Nat) (exact : List Int) : BCore :=
  let rs := exact.map (satFlag w)
  let y := toV 1 4 vd (ofLanes w (rs.map (fun r => bitsOf w r.1))) x
  if rs.any (·.2) then y.write 1 4 (.flag 3) 1 else y

/-- VMULQ: Q15 product, rounded and saturated. -/
def execVmulq (o : OpX) (vd : BitVec 6) (s : State) : Out :=
  .next (s.issueCore o.core o.close (fun x =>
    satResult x 16 vd.toNat (((x.lanes16 o.va.toNat).zip (x.lanes16 o.vb.toNat)).map (fun e => (e.1 * e.2 + 16384) / 32768))))

/-- ACCRD16: 32 lanes shifted, rounded, saturated to 16 bits. Rounding code 3 is reserved. -/
def execAccrd16 (o : OpX) (s : State) : Out :=
  if o.round = 3 then .fault .reservedEncoding
  else .next (s.issueCore o.core o.close (fun x =>
    satResult x 16 o.va.toNat ((x.accLanes o.acc.toNat).map (shiftRound o.round.toNat o.shift.toNat))))

/-- ACCRD32: half the lanes, to 32 bits. The spec states parts 0 and 1; another leaves a value it does not state. -/
def execAccrd32 (o : OpX) (s : State) : Out :=
  if o.round = 3 then .fault .reservedEncoding
  else if o.part.toNat < 2 then .next (s.issueCore o.core o.close (fun x =>
    satResult x 32 o.va.toNat ((((x.accLanes o.acc.toNat).drop (16 * o.part.toNat)).take 16).map (shiftRound o.round.toNat o.shift.toNat))))
  else .next (s.issueFree o.core o.close (fun free x => toV 1 4 o.va.toNat (free % 2 ^ 512) x))

/-- ACCSV: 16 bits of each lane. The spec states parts 0 to 2; part 3 leaves a value it does not state. -/
def execAccsv (o : OpX) (s : State) : Out :=
  if o.part.toNat < 3 then .next (s.issueCore o.core o.close (fun x =>
    toV 1 4 o.va.toNat (ofLanes 16 ((lanesOf 48 32 (x.accreg o.acc.toNat).toNat).map (fun l => l / 2 ^ (16 * o.part.toNat) % 65536))) x))
  else .next (s.issueFree o.core o.close (fun free x => toV 1 4 o.va.toNat (free % 2 ^ 512) x))

/-- A 48-bit lane with 16 of its bits replaced. -/
def putPart (part lane v : Nat) : Nat :=
  lane % 2 ^ (16 * part) + 2 ^ (16 * part) * (v % 65536) + lane / 2 ^ (16 * part + 16) * 2 ^ (16 * part + 16)

/-- ACCLD: 16 bits of each lane from Va. The spec states parts 0 to 2; part 3 leaves a value it does not state. -/
def execAccld (o : OpX) (s : State) : Out :=
  if o.part.toNat < 3 then .next (s.issueCore o.core o.close (fun x =>
    x.setAcc o.acc.toNat (BitVec.ofNat 1536 (ofLanes 48 (((lanesOf 48 32 (x.accreg o.acc.toNat).toNat).zip (x.lanes false o.va.toNat)).map
      (fun e => putPart o.part.toNat e.1 e.2))))))
  else .next (s.issueFree o.core o.close (fun free x => x.setAcc o.acc.toNat (BitVec.ofNat 1536 free)))

end Sys2Proof.Machine
end

