-- ==== Sys2Proof/Machine/BasaltScalar.lean ====
section
/-! DEFINITION. Basalt's scalar operations (R194): slots 0 and 2, latency 1, SMUL 2 (R195). -/

namespace Sys2Proof.Machine

/-- The slot an operation of form S stands in. -/
def slotOf (o : OpS) : Nat := if o.slot2 then 2 else 0

/-- A scalar operation over Sa, Sb and imm16. -/
def scalarOp (o : OpS) (latency : Nat) (f : Word → Word → Nat) (s : State) : Out :=
  .next (s.issueCore o.core o.close (fun x => toS (slotOf o) latency o.sd.toNat (f (x.sreg o.sa.toNat) (x.sreg o.sb.toNat)) x))

/-- SADD. -/
def execSadd (o : OpS) (s : State) : Out := scalarOp o 1 (fun a b => (a + b).toNat) s
/-- SSUB. -/
def execSsub (o : OpS) (s : State) : Out := scalarOp o 1 (fun a b => (a - b).toNat) s
/-- SADDI: imm16 sign-extended. -/
def execSaddi (o : OpS) (s : State) : Out := scalarOp o 1 (fun a _ => (a + o.imm.signExtend 32).toNat) s
/-- SAND. -/
def execSand (o : OpS) (s : State) : Out := scalarOp o 1 (fun a b => (a &&& b).toNat) s
/-- SOR. -/
def execSor (o : OpS) (s : State) : Out := scalarOp o 1 (fun a b => (a ||| b).toNat) s
/-- SXOR. -/
def execSxor (o : OpS) (s : State) : Out := scalarOp o 1 (fun a b => (a ^^^ b).toNat) s
/-- SSHL: bits shifted beyond the register are lost. -/
def execSshl (o : OpS) (s : State) : Out := scalarOp o 1 (fun a b => (a <<< b.toNat).toNat) s
/-- SSHR: logical. -/
def execSshr (o : OpS) (s : State) : Out := scalarOp o 1 (fun a b => (a >>> b.toNat).toNat) s
/-- SSHRA: arithmetic. -/
def execSshra (o : OpS) (s : State) : Out := scalarOp o 1 (fun a b => (a.sshiftRight b.toNat).toNat) s
/-- SMOVI: imm16 zero-extended. -/
def execSmovi (o : OpS) (s : State) : Out := scalarOp o 1 (fun _ _ => o.imm.toNat) s
/-- The value SMOVIH leaves: Sd with bits [31:16] replaced. -/
def movih (old : Word) (imm : BitVec 16) : Nat := old.toNat % 65536 + 65536 * imm.toNat
/-- SMOVIH. -/
def execSmovih (o : OpS) (s : State) : Out :=
  .next (s.issueCore o.core o.close (fun x => toS (slotOf o) 1 o.sd.toNat (movih (x.sreg o.sd.toNat) o.imm) x))
/-- SMUL: the low 32 bits of the product. -/
def execSmul (o : OpS) (s : State) : Out := scalarOp o 2 (fun a b => (a * b).toNat) s

end Sys2Proof.Machine
end

