-- ==== Sys2Proof/Machine/BasaltVector.lean ====
section
/-! DEFINITION. Basalt's vector operations of slot 2 (R194). -/

namespace Sys2Proof.Machine

/-- A lane-wise operation on bits of the lane width. -/
def laneOp (o : OpV) (f : Nat → Nat → Nat) (s : State) : Out :=
  .next (s.issueCore o.core o.close (fun x =>
    toV 2 1 o.d.toNat (ofLanes (laneW o.w) (((x.lanes o.w o.a.toNat).zip (x.laneB o)).map (fun e => f e.1 e.2))) x))

/-- A lane-wise operation on signed values, wrapping. -/
def signedLane (o : OpV) (f : Int → Int → Int) (s : State) : Out :=
  laneOp o (fun a b => bitsOf (laneW o.w) (f (signed (laneW o.w) a) (signed (laneW o.w) b))) s

/-- VADD: wraps. -/
def execVadd (o : OpV) (s : State) : Out := signedLane o (fun a b => a + b) s
/-- VSUB: wraps. -/
def execVsub (o : OpV) (s : State) : Out := signedLane o (fun a b => a - b) s

/-- Exact results saturated to the lane width; KE_STATUS.SAT lands with them where a lane saturated. -/
def saturating (o : OpV) (f : Int → Int → Int) (s : State) : Out :=
  .next (s.issueCore o.core o.close (fun x =>
    let rs := ((x.lanes o.w o.a.toNat).zip (x.laneB o)).map (fun e => satFlag (laneW o.w) (f (signed (laneW o.w) e.1) (signed (laneW o.w) e.2)))
    let y := toV 2 1 o.d.toNat (ofLanes (laneW o.w) (rs.map (fun r => bitsOf (laneW o.w) r.1))) x
    if rs.any (·.2) then y.write 2 1 (.flag 3) 1 else y))

/-- VADDS. -/
def execVadds (o : OpV) (s : State) : Out := saturating o (fun a b => a + b) s
/-- VSUBS. -/
def execVsubs (o : OpV) (s : State) : Out := saturating o (fun a b => a - b) s

/-- One lane of VABS: the spec states no absolute value of the most negative number, so that lane takes bits of a fresh value. -/
def absLane (w free l a : Nat) : Nat :=
  if a = 2 ^ (w - 1) then free / 2 ^ (w * l) % 2 ^ w else bitsOf w ((signed w a).natAbs : Int)

/-- VABS. -/
def execVabs (o : OpV) (s : State) : Out :=
  .next (s.issueFree o.core o.close (fun free x =>
    let ls := x.lanes o.w o.a.toNat
    toV 2 1 o.d.toNat (ofLanes (laneW o.w) ((List.range ls.length).map (fun l => absLane (laneW o.w) free l (ls.getD l 0)))) x))

/-- VMAX. -/
def execVmax (o : OpV) (s : State) : Out := signedLane o (fun a b => max a b) s
/-- VMIN. -/
def execVmin (o : OpV) (s : State) : Out := signedLane o (fun a b => min a b) s
/-- VAND. -/
def execVand (o : OpV) (s : State) : Out := laneOp o Nat.land s
/-- VOR. -/
def execVor (o : OpV) (s : State) : Out := laneOp o Nat.lor s
/-- VXOR. -/
def execVxor (o : OpV) (s : State) : Out := laneOp o Nat.xor s

/-- VSHL: bits shifted beyond the lane are lost. -/
def execVshl (o : OpV) (s : State) : Out := laneOp o (fun a b => if laneW o.w ≤ b then 0 else a * 2 ^ b % 2 ^ laneW o.w) s
/-- VSHRA: the sign fills. -/
def execVshra (o : OpV) (s : State) : Out := laneOp o (fun a b => bitsOf (laneW o.w) (signed (laneW o.w) a / (2 : Int) ^ min b 64)) s
/-- VSHRL: zeros fill. -/
def execVshrl (o : OpV) (s : State) : Out := laneOp o (fun a b => a / 2 ^ min b 64) s

/-- VMOV: operand a. -/
def execVmov (o : OpV) (s : State) : Out := laneOp o (fun a _ => a) s

/-- VBCAST: Sa, from field a, in every lane. -/
def execVbcast (o : OpV) (s : State) : Out :=
  .next (s.issueCore o.core o.close (fun x =>
    toV 2 1 o.d.toNat (ofLanes (laneW o.w) (List.replicate (laneN o.w) (x.sreg (low5 o.a)).toNat)) x))

/-- A comparison: one mask bit for each lane, to Sd (R194). -/
def compareOp (o : OpV) (f : Int → Int → Bool) (s : State) : Out :=
  .next (s.issueCore o.core o.close (fun x =>
    toS 2 1 (low5 o.d) (ofLanes 1 (((x.lanes o.w o.a.toNat).zip (x.laneB o)).map (fun e => b2n (f (signed (laneW o.w) e.1) (signed (laneW o.w) e.2))))) x))

/-- VCMPEQ. -/
def execVcmpeq (o : OpV) (s : State) : Out := compareOp o (fun a b => a == b) s
/-- VCMPGT. -/
def execVcmpgt (o : OpV) (s : State) : Out := compareOp o (fun a b => decide (b < a)) s
/-- VCMPGE. -/
def execVcmpge (o : OpV) (s : State) : Out := compareOp o (fun a b => decide (b ≤ a)) s

/-- VSEL: a lane from Va where the bit of Sm, in imm16 [4:0], is 1, else from Vb. -/
def execVsel (o : OpV) (s : State) : Out :=
  .next (s.issueCore o.core o.close (fun x =>
    let m := (x.sreg (o.imm.toNat % 32)).toNat
    let a := x.lanes o.w o.a.toNat
    let b := x.lanes o.w o.b.toNat
    toV 2 1 o.d.toNat (ofLanes (laneW o.w) ((List.range (laneN o.w)).map (fun l => if bitOf m l then a.getD l 0 else b.getD l 0))) x))

/-- VEXT: lane n of Va, from imm16, sign-extended; the spec states no value for a lane that does not exist. -/
def execVext (o : OpV) (s : State) : Out :=
  if o.imm.toNat < laneN o.w then
    .next (s.issueCore o.core o.close (fun x =>
      toS 2 1 (low5 o.d) (bitsOf 32 (signed (laneW o.w) ((x.lanes o.w o.a.toNat).getD o.imm.toNat 0))) x))
  else .next (s.issueFree o.core o.close (fun free x => toS 2 1 (low5 o.d) (free % 2 ^ 32) x))

/-- VINS: Sa, from field a, into lane n of Vd; for a lane that does not exist Vd takes a value the spec does not state. -/
def execVins (o : OpV) (s : State) : Out :=
  if o.imm.toNat < laneN o.w then
    .next (s.issueCore o.core o.close (fun x =>
      toV 2 1 o.d.toNat (ofLanes (laneW o.w) ((x.lanes o.w o.d.toNat).set o.imm.toNat ((x.sreg (low5 o.a)).toNat % 2 ^ laneW o.w))) x))
  else .next (s.issueFree o.core o.close (fun free x => toV 2 1 o.d.toNat (free % 2 ^ 512) x))

/-- VPERM: Vd[l] ← Va[Vb[l] mod lanes]. -/
def execVperm (o : OpV) (s : State) : Out :=
  .next (s.issueCore o.core o.close (fun x =>
    let a := x.lanes o.w o.a.toNat
    toV 2 2 o.d.toNat (ofLanes (laneW o.w) ((x.laneB o).map (fun i => a.getD (i % laneN o.w) 0))) x))

/-- VREDADD: the sum of the lanes, to 32 bits. -/
def execVredadd (o : OpV) (s : State) : Out :=
  .next (s.issueCore o.core o.close (fun x =>
    toS 2 3 (low5 o.d) (bitsOf 32 (sumZ ((x.lanes o.w o.a.toNat).map (signed (laneW o.w))))) x))

/-- The largest of some lanes. -/
def maxLane (ls : List Int) : Int := ls.foldl max (ls.headD 0)

/-- VREDMAX: the largest lane, to 32 bits. -/
def execVredmax (o : OpV) (s : State) : Out :=
  .next (s.issueCore o.core o.close (fun x =>
    toS 2 3 (low5 o.d) (bitsOf 32 (maxLane ((x.lanes o.w o.a.toNat).map (signed (laneW o.w))))) x))

end Sys2Proof.Machine
end

