-- ==== Sys2Proof/Machine/Capture.lean ====
section
/-! DEFINITION. Strata and captures: the ring, runs, extraction, the store, release, sends and derivation (R221 to R223, R233 to R243). -/

namespace Sys2Proof.Machine

/-! ### Small helpers -/

/-- One millisecond in units of 2⁻¹⁶ ns. -/
def msUnits : Int := 65536000000

/-- Strata state of a port. -/
def State.strun (s : State) (p : Port) : StrataRun := s.trig.runs.get p
/-- Replace it. -/
def State.setStrun (s : State) (p : Port) (x : StrataRun) : State := { s with trig := { s.trig with runs := s.trig.runs.set p x } }

/-- A capture by its number. -/
def State.capture (s : State) (n : Nat) : Option Capture := s.trig.captures.find? (fun c => c.number == n)
/-- Change a capture. -/
def State.modCapture (s : State) (n : Nat) (f : Capture → Capture) : State :=
  { s with trig := { s.trig with captures := s.trig.captures.map (fun c => if c.number = n then f c else c) } }

/-- Bytes of a trace record of `count` points (R221). -/
def recordBytes (count : Nat) : Nat := 64 + 64 * ceilDiv count 16

/-- The capture store in bytes. -/
def State.storeBytes (s : State) : Nat := s.pG K.captureStoreGib * 2 ^ 30
/-- What is not reserved. -/
def State.storeFree (s : State) : Nat := s.storeBytes - sumN (s.trig.captures.map (·.reserved))
/-- Publish the number of captures and the unreserved store. -/
def State.publishStore (s : State) : State :=
  (s.roSet K.captureCount s.trig.captures.length).roSet K.captureFreeBytes s.storeFree

/-! ### Retention (R222) -/

/-- Bytes per second a port brings, over ticks: bytes per trace and Δ; none without frames. -/
def State.ringLoad (s : State) (p : Port) : Rat :=
  if s.hasFrames p ∧ s.traceInterval p ≠ 0 then
    ((200000000 * (16 + recordBytes (s.roGet (K.portPointsCountLive p))) : Nat) : Rat) / (s.traceInterval p : Rat)
  else 0

/-- strata.retention_ms; 0 while no port brings traces. -/
def State.strataRetention (s : State) : State :=
  let load := s.ringLoad .a + s.ringLoad .b
  let ms : Nat := if load = 0 then 0 else (((s.pG K.strataSizeGib * 2 ^ 30 * 1000 : Nat) : Rat) / load).floor.toNat
  s.roSet K.strataRetentionMs (min ms 4294967295)

/-! ### Captures in progress -/

/-- The flags of a capture (R236). -/
def Capture.flags (c : Capture) : Nat :=
  b2n c.truncated + 2 * b2n c.cut + 4 * b2n c.merged + 8 * b2n (c.records.any (·.header.suspect)) + 16 * b2n c.complete + 32 * b2n c.limited + 64 * b2n c.host

/-- A ring record belongs to a capture: its port and window. -/
def Capture.wants (c : Capture) (r : StrataRec) : Bool :=
  (c.ranges.get r.port).isSome && decide (c.wStart ≤ r.launch) && decide (r.launch ≤ c.wEnd) && !(c.done.contains (r.port, r.launch))

/-- A record leaves the ring, or never came: open captures that want it count it lost and are TRUNCATED (R234). -/
def Capture.lose (c : Capture) (r : StrataRec) : Capture :=
  if !c.complete && c.wants r then { c with lost := c.lost + 1, truncated := true, done := (r.port, r.launch) :: c.done } else c

/-- Records leave the ring. -/
def State.loseRecords (s : State) (rs : List StrataRec) : State :=
  { s with trig := { s.trig with captures := s.trig.captures.map (fun c => rs.foldl Capture.lose c) } }

/-- Length of a capture's image. -/
def Capture.bytes (c : Capture) : Nat := 128 + sumN (c.records.map (fun r => recordBytes r.fields.length))

/-- How many uses of a capture are in progress (R238). -/
def Capture.uses (c : Capture) : Nat := b2n (!c.complete) + c.sends.length + c.derives

/-- Free a capture's space (R238). -/
def State.freeCapture (s : State) (n : Nat) : State :=
  ((({ s with trig := { s.trig with captures := s.trig.captures.filter (fun c => !(c.number == n)) } }).publishStore).raise Ev.captureReleased [u n])

/-- A use has ended: a capture waiting for release is freed with its last use. -/
def State.useEnded (s : State) (n : Nat) : State :=
  match s.capture n with
  | none => s
  | some c => if c.releasing && c.uses == 0 then s.freeCapture n else s

/-- Release a capture now, or once its last use ends. -/
def State.releaseCapture (s : State) (n : Nat) : State :=
  match s.capture n with
  | none => s
  | some c => if c.uses = 0 then s.freeCapture n else s.modCapture n (fun x => { x with releasing := true })

/-! ### Images and sends (R236, R243) -/

/-- The bytes of a copied record. -/
def CapRec.bytes (r : CapRec) : List Byte :=
  r.header.bytes ++ r.fields.flatMap (fun w => le 4 w.toNat) ++ List.replicate (recordBytes r.fields.length - 64 - 4 * r.fields.length) 0

/-- The first 124 bytes of the header. -/
def Capture.head (c : Capture) : List Byte :=
  let range := fun (p : Port) => (c.ranges.get p).getD (0, 0)
  ascii "CAPT" ++ le 2 1 ++ le 2 c.flags ++ le 4 c.number ++ le 4 c.records.length ++ le 4 c.lost ++ le 4 ((c.records.head?.map (·.header.epoch)).getD 0) ++
  le 4 ((c.records.getLast?.map (·.header.epoch)).getD 0) ++ le 1 (b2n (c.ranges.get .a).isSome + 2 * b2n (c.ranges.get .b).isSome) ++ le 1 c.profile ++ le 2 0 ++
  le 8 c.condMask ++ tsBytes c.trig ++ tsBytes c.wStart ++ tsBytes c.wEnd ++ le 4 (range .a).1 ++ le 4 (range .a).2 ++ le 4 (range .b).1 ++ le 4 (range .b).2 ++
  tsBytes (c.traces.get .a) ++ tsBytes (c.traces.get .b) ++ le 8 c.bytes

/-- The image. -/
def Capture.image (c : Capture) : List Byte :=
  let rest := c.records.flatMap CapRec.bytes
  c.head ++ le 4 (if c.complete then (crc32c (c.head ++ rest)).toNat else 0) ++ rest

/-- The UDP payload of R135. -/
def State.udpPayload (s : State) : Nat := if s.pG K.nspMtu = 1 then 8972 else 1472

/-- The datagrams of an image. -/
def State.imageTiles (s : State) (c : Capture) : List Tile :=
  let im := c.image
  let slice_ := (s.udpPayload - 68) / 64 * 64
  let total := ceilDiv im.length (max 64 slice_)
  (List.range total).map (fun q =>
    let part := (im.drop (q * slice_)).take slice_
    { controlTile 0x14 part with kind := 5, port := 0xFF, suspect := bitOf c.flags 3, gap := c.truncated || c.cut || c.limited, lastTile := decide (q + 1 = total),
                                 thinned := c.records.any (·.header.thinned), lastInput := (c.records.getLast?.map (·.launch)).getD c.wEnd,
                                 index := q, total := total, epoch := (c.records.head?.map (·.header.epoch)).getD 0, block := c.number, t0 := c.wStart,
                                 firstPoint := q * slice_ / 64, points := part.length / 64 })

/-- Queue an image on a CAPTURE stream. -/
def State.sendCapture (s : State) (n sid : Nat) : State :=
  match s.capture n with
  | none => s
  | some c => (s.enqueue sid 5 (s.imageTiles c)).modCapture n (fun x => { x with sends := x.sends ++ [sid] })

/-- A capture completes, whole or cut (R235): its header is final, its reservation is its size, and it is sent where its profile says so. -/
def State.completeCapture (s : State) (n : Nat) : State :=
  match s.capture n with
  | none => s
  | some c0 =>
    if c0.complete then s
    else
      let s1 := (s.modCapture n (fun c => { c with complete := true, completedAt := s.now, reserved := c.bytes })).publishStore
      let c := (s1.capture n).getD c0
      let s2 := s1.raise Ev.captureDone [u n, u c.flags, u c.bytes]
      let s3 := if c.auto < 16 ∧ c.releasing = false then s2.sendCapture n c.auto else s2
      s3.useEnded n

/-- Open captures that hold a port end early (R235). -/
def State.cutCaptures (s : State) (hit : Capture → Bool) : State :=
  (s.trig.captures.filter (fun c => !c.complete && hit c)).foldl (fun st c =>
    (st.modCapture c.number (fun x => { x with cut := true })).completeCapture c.number) s

/-! ### The ring (R221, R223) -/

/-- Where a record of a length begins in a ring, whether it wrapped. -/
def ringPlace (size head len : Nat) : Nat × Bool := if size < head + len then (0, true) else (head, false)

/-- A record's stretch meets another. -/
def overlaps (a la b lb : Nat) : Bool := decide (a < b + lb) && decide (b < a + la)

/-- Write a record, overwriting what it needs. -/
def State.ringWrite (s : State) (r : StrataRec) : State :=
  let size := s.pG K.strataSizeGib * 2 ^ 30
  let at_ := ringPlace size s.trig.head r.len
  let hit := fun (x : StrataRec) => overlaps x.addr x.len at_.1 r.len || (at_.2 && overlaps x.addr x.len s.trig.head (size - s.trig.head))
  let gone := s.trig.ring.filter hit
  let s1 := s.loseRecords gone
  { s1 with trig := { s1.trig with ring := { r with addr := at_.1 } :: s1.trig.ring.filter (fun x => !hit x), head := at_.1 + r.len } }

/-- The first trace of a new run: its start and epoch are published, open captures of the port are cut (R223, R235). -/
def State.beginRun (s : State) (p : Port) (launch : Stamp) (epoch : Nat) : State :=
  let s1 := s.cutCaptures (fun c => (c.ranges.get p).isSome)
  let s2 := s1.setStrun p { (s1.strun p) with start := some launch, due := false }
  ((s2.roSet (K.strataRunStart p) (tsBits launch)).roSet (K.strataFormatEpoch p) epoch).raise Ev.strataRun [u p.idx, tsVal launch, u epoch]

/-- A trace is formed: its launch is remembered, and with Strata on in RUNNING its record enters the ring, an absent one where P0 dropped it (R221, R261). -/
def State.strataTrace (s : State) (p : Port) (h : TraceHeader) (fields : List (BitVec 32)) (dropped : Bool) : State :=
  let x := s.strun p
  let s1 := s.setStrun p { x with launched := (h.launch :: x.launched).take 65536 }
  if s.mode ≠ .running ∨ s.pG K.strataSizeGib = 0 then s1
  else
    let s2 := if (x.due || x.start.isNone) && !dropped then s1.beginRun p h.launch h.epoch else s1
    s2.ringWrite { port := p, launch := h.launch, header := if dropped then none else some h, fields := fields, addr := 0,
                   len := if dropped then 0 else recordBytes h.count + 16 }

/-- The next trace of a port begins a new run. -/
def State.runDue (s : State) (p : Port) : State := s.setStrun p { (s.strun p) with due := true }

/-- The ring is emptied (R223). -/
def State.emptyRing (s : State) : State :=
  let s1 := s.loseRecords s.trig.ring
  { s1 with trig := { s1.trig with ring := [], head := 0 } }

/-- The module leaves RUNNING: captures are cut, no port has a current run (R235). -/
def State.strataStop (s : State) : State :=
  let s1 := s.cutCaptures (fun _ => true)
  (s1.setStrun .a { (s1.strun .a) with start := none, due := true }).setStrun .b { (s1.strun .b) with start := none, due := true }

/-- F of the fields that belong to no port: a change of strata.size_gib empties the ring and begins runs (R223). -/
def State.strataAtF (s : State) (old : PSet) : State :=
  let s1 := if old.get K.strataSizeGib = s.pG K.strataSizeGib then s else ((s.emptyRing).runDue .a).runDue .b
  let s2 := if s.pG K.strataSizeGib = 0 then (s1.setStrun .a { (s1.strun .a) with start := none }).setStrun .b { (s1.strun .b) with start := none } else s1
  (s2.strataRetention).publishStore

/-! ### Opening and extraction (R230, R233, R234, R237) -/

/-- The latest trace of a port launched at or before an instant (R229). -/
def State.traceAt (s : State) (p : Port) (x : Stamp) : Option Stamp :=
  let flying := ((s.frame p).inflight.filter (fun l => !l.apr && decide (l.stamp ≤ x))).map (·.stamp)
  match flying, (s.strun p).launched.find? (fun l => decide (l ≤ x)) with
  | [], some l => some l
  | [], none => none
  | f :: rest, some l => some ((f :: rest).foldl max l)
  | f :: rest, none => some (rest.foldl max f)

/-- The point range a profile names on a port, none where it is not of the profile. -/
def State.profileRange (s : State) (prof : Nat) (p : Port) : Option (Nat × Nat) :=
  if bitOf (s.pG (K.trigProfilePorts prof)) p.idx then
    let first := s.pG (K.trigProfileFirst prof p)
    let count := s.pG (K.trigProfileCount prof p)
    let live := s.liveRange p
    some (first, if count = 0 then live.1 + live.2 - first else count)
  else none

/-- R230: on some port of the profile the window begins before the current run, or there is none. -/
def State.prefillShort (s : State) (prof : Nat) (trig : Stamp) : Bool :=
  ports.any (fun p => (s.profileRange prof p).isSome &&
    (match (s.strun p).start with
     | none => true
     | some st => decide (trig - (s.pG (K.trigProfilePreMs prof) : Int) * msUnits < st)))

/-- Predicted size of a window over some ranges (R237): the traces that fall in it at the rates in force. -/
def State.predict (s : State) (ranges : PerPort (Option (Nat × Nat))) (len : Int) : Nat :=
  128 + sumN (ports.map (fun p =>
    match ranges.get p with
    | none => 0
    | some r =>
      let d := s.traceInterval p
      if d = 0 ∨ s.hasFrames p = false then 0 else ceilDiv (len / tickUnits).toNat d * recordBytes r.2))

/-- Make room (R237): release the oldest complete captures not in use, as many as needed, under REPLACE_OLDEST. -/
def makeRoom : Nat → Nat → State → State
  | 0, _, s => s
  | f + 1, need, s =>
    if need ≤ s.storeFree ∧ s.trig.captures.length < 64 then s
    else if s.pG K.captureFullPolicy = 0 then s
    else match s.trig.captures.find? (fun c => c.complete && c.uses == 0) with
      | none => s
      | some c => makeRoom f need (s.freeCapture c.number)

/-- Traces of a window that have already left the ring when a capture opens: launched in it, before the oldest record of the port. -/
def State.alreadyLost (s : State) (p : Port) (a b : Stamp) : List Stamp :=
  let kept := (s.trig.ring.filter (fun r => r.port == p)).map (·.launch)
  (s.strun p).launched.filter (fun l => decide (a ≤ l) && decide (l ≤ b) && !(kept.contains l))

/-- Mark a window's traces that already left the ring as lost. -/
def State.countLost (s : State) (n : Nat) : State :=
  match s.capture n with
  | none => s
  | some c =>
    let gone := ports.flatMap (fun p => if (c.ranges.get p).isSome then (s.alreadyLost p c.wStart c.wEnd).map (fun l => (p, l)) else [])
    let fresh := gone.filter (fun e => !(c.done.contains e))
    s.modCapture n (fun x => { x with lost := x.lost + fresh.length, truncated := x.truncated || fresh != [], done := fresh ++ x.done })

/-- Open a capture (R233, R237); none where the store refuses it. -/
def State.openCapture (s : State) (prof : Nat) (trig : Stamp) (mask : Nat) (host : Bool) (refPort : Option Port) (refTrace : Stamp) : State × Option Nat :=
  let a := trig - (s.pG (K.trigProfilePreMs prof) : Int) * msUnits
  let b := trig + (s.pG (K.trigProfilePostMs prof) : Int) * msUnits
  let ranges : PerPort (Option (Nat × Nat)) := ⟨s.profileRange prof .a, s.profileRange prof .b⟩
  let need := s.predict ranges (b - a)
  let s1 := makeRoom 65 need s
  if s1.storeFree < need ∨ 64 ≤ s1.trig.captures.length then (s1.bump K.captureRefused 1, none)
  else
    let n := s1.trig.nextCapture
    let c : Capture :=
      { number := n, truncated := false, cut := false, merged := false, complete := false, limited := false, host := host, lost := 0,
        profile := if host then 0xFF else prof, condMask := mask, trig := trig, wStart := a, wEnd := b, ranges := ranges,
        traces := ⟨(s1.traceAt .a trig).getD 0, (s1.traceAt .b trig).getD 0⟩, refPort := refPort, refTrace := refTrace, openedAt := s1.now, reserved := need,
        records := [], done := [], completedAt := 0, sends := [], derives := 0, releasing := false, auto := s1.pG (K.trigProfileAutoStream prof) }
    let s2 : State := { s1 with trig := { s1.trig with captures := s1.trig.captures ++ [c], nextCapture := n + 1 } }
    ((s2.countLost n).publishStore, some n)

/-- The union of two point ranges. -/
def joinRange (a b : Option (Nat × Nat)) : Option (Nat × Nat) :=
  match a, b with
  | none, y => y
  | x, none => x
  | some x, some y => let lo := min x.1 y.1; some (lo, max (x.1 + x.2) (y.1 + y.2) - lo)

/-- Merge a firing into an open capture (R231, R237): union of windows, ports and ranges, or STORE_LIMITED. Records of a port whose range grows are copied again. -/
def State.mergeCapture (s : State) (n cond prof : Nat) (trig : Stamp) : State :=
  match s.capture n with
  | none => s
  | some c =>
    let a := min c.wStart (trig - (s.pG (K.trigProfilePreMs prof) : Int) * msUnits)
    let b := max c.wEnd (trig + (s.pG (K.trigProfilePostMs prof) : Int) * msUnits)
    let ra := joinRange (c.ranges.get .a) (s.profileRange prof .a)
    let rb := joinRange (c.ranges.get .b) (s.profileRange prof .b)
    let ranges : PerPort (Option (Nat × Nat)) := ⟨ra, rb⟩
    let need := s.predict ranges (b - a)
    let mask := Nat.lor c.condMask (2 ^ cond)
    if s.storeFree < need - c.reserved then
      s.modCapture n (fun x => { x with merged := true, limited := true, condMask := mask, trig := min x.trig trig })
    else
      let same := fun (p : Port) => ranges.get p == c.ranges.get p
      let s1 := s.modCapture n (fun x =>
        { x with merged := true, condMask := mask, trig := min x.trig trig, wStart := a, wEnd := b, ranges := ranges, reserved := max x.reserved need,
                 traces := ⟨(s.traceAt .a (min x.trig trig)).getD 0, (s.traceAt .b (min x.trig trig)).getD 0⟩,
                 records := x.records.filter (fun r => same r.port),
                 done := x.done.filter (fun e => same e.1 || !(x.records.any (fun r => r.port == e.1 && r.launch == e.2))) })
      (s1.countLost n).publishStore

/-- Earlier launch first, port A first on a tie (R234). -/
def recBefore (a b : Port × Stamp) : Bool := decide (a.2 < b.2) || (a.2 == b.2 && decide (a.1.idx < b.1.idx))

/-- Insert a copied record in launch order. -/
def insertRec (r : CapRec) : List CapRec → List CapRec
  | [] => [r]
  | x :: rest => if recBefore (r.port, r.launch) (x.port, x.launch) then r :: x :: rest else x :: insertRec r rest

/-- The oldest ring record a capture still wants. -/
def State.nextRecord (s : State) (c : Capture) : Option StrataRec :=
  (s.trig.ring.filter c.wants).foldl (fun best r =>
    match best with
    | none => some r
    | some b => if recBefore (r.port, r.launch) (b.port, b.launch) then some r else best) none

/-- Copy one record into a capture; an absent one is lost. -/
def Capture.copy (c : Capture) (r : StrataRec) : Capture :=
  match r.header, c.ranges.get r.port with
  | some h, some range =>
    { c with records := insertRec ⟨r.port, r.launch, h, (r.fields.drop (range.1 - h.first)).take range.2⟩ c.records, done := (r.port, r.launch) :: c.done }
  | _, _ => c.lose r

/-- CAPTURE_RECORD_COPY: the next record of an open capture is copied (R234). -/
def execCaptureRecordCopy (t : Tick) (capture : Nat) (s : State) : Out :=
  let s0 := s.at t
  match s0.capture capture with
  | none => .next s0
  | some c =>
    if c.complete then .next s0
    else match s0.nextRecord c with
      | none => .next s0
      | some r => .next (s0.modCapture capture (fun x => x.copy r))

/-- The last trace of a window has been copied on each port: nothing launched in it is still to come. -/
def State.windowDone (s : State) (c : Capture) : Bool :=
  decide (c.wEnd < s.stamp) && (s.nextRecord c).isNone &&
  ports.all (fun p => (c.ranges.get p).isNone || (s.frame p).inflight.all (fun l => l.apr || decide (c.wEnd < l.stamp)))

/-- CAPTURE_COMPLETE (R235). -/
def execCaptureComplete (t : Tick) (capture : Nat) (s : State) : Out :=
  let s0 := s.at t
  match s0.capture capture with
  | none => .next s0
  | some c => if !c.complete && s0.windowDone c then .next (s0.completeCapture capture) else .next s0

/-- CAPTURE_RETAIN_EXPIRY: capture.retain_s after completion a capture is released, at once or with its last use (R238). -/
def execCaptureRetainExpiry (t : Tick) (capture : Nat) (s : State) : Out :=
  let s0 := s.at t
  let retain := s0.pG K.captureRetainS
  match s0.capture capture with
  | none => .next s0
  | some c =>
    if c.complete ∧ retain ≠ 0 ∧ c.completedAt + retain * secondTicks ≤ s0.now then .next (s0.releaseCapture capture) else .next s0

/-- CAPTURE_SEND_COMPLETE: the stream has sent every tile of the image; that use ends (R238, R243). -/
def execCaptureSendComplete (t : Tick) (capture : Nat) (s : State) : Out :=
  let s0 := s.at t
  match s0.capture capture with
  | none => .next s0
  | some c =>
    match c.sends.find? (fun sid => !((s0.stream sid).queue.any (fun x => x.kind == 5 && x.format == 0x14 && x.block == capture))) with
    | none => .next s0
    | some sid => .next ((s0.modCapture capture (fun x => { x with sends := x.sends.erase sid })).useEnded capture)

/-! ### Derivation (R240 to R242) -/

/-- A derived trace of a capture: words over the derivation range, with whether it breaks the run. -/
structure Derived where
  src : CapRec
  words : List (Option Int)
  raw : List (BitVec 32)
  index : Nat
  delta : Nat
  broken : Bool
  deriving DecidableEq, Repr

/-- The grid index of a launch (R125): its time since the TAI origin less the frame offset, in intervals Δ, to the nearest. -/
def gridIndex (launch : Stamp) (delta off : Nat) : Nat := if delta = 0 then 0 else (roundDiv (launch - off * tickUnits) (delta * 327680)).toNat

/-- A stored phase in 2⁻³² turn, and its fading and stitched bits (R110). -/
def storedPhase (w : BitVec 32) : Int := (w.toNat / 4096 : Nat) * 4096

/-- Spatial phases of stored words: none at the first. -/
def storedSpatial : List (BitVec 32) → List (Option Int)
  | [] => []
  | [_] => [none]
  | a :: b :: rest => match storedSpatial (b :: rest) with
    | [] => [none]
    | _ :: tail => none :: some (wrapS 32 (storedPhase b - storedPhase a)) :: tail

/-- The RATE words of a record after its predecessor (R240): R113 to R115 over the stored words. -/
def deriveRate (req : DeriveReq) (len : Nat) (now prev : CapRec) (old : List (Option Int)) : List (Option Int) :=
  let part := fun (r : CapRec) => (r.fields.drop (req.first - r.header.first)).take req.count
  let ws := part now
  let psis := storedSpatial ws
  let prevs := storedSpatial (part prev)
  let dpsi := (List.range ws.length).map (fun i => deltaPsi (psis.getD i none) (prevs.getD i none))
  let geo : Geo := { first := req.first, count := req.count, pitch := now.header.pitch, gauge := req.gauge, length := len, depth := 0 }
  let bit := fun (l : List (BitVec 32)) (n : Nat) => l.map (fun w => bitOf w.toNat n)
  (List.range ws.length).map (fun i =>
    (strainWord geo now.header.dark (bitOf (ws.getD i 0).toNat 0) (runningSums dpsi) (bit ws 1) (bit (part prev) 1) old i).1)

/-- The step from one record to the next is a launch sequence without a break: the interval of R117's frames is the capture's. -/
def gapBetween (delta : Nat) (a b : CapRec) : Bool := decide (roundDiv (b.launch - a.launch) 327680 ≠ (delta : Int))

/-- Derive record after record: predecessor, its words, running sums. -/
def deriveAll (req : DeriveReq) (len delta off : Nat) : List CapRec → Option (CapRec × List (Option Int)) → List Int → List Derived
  | [], _, _ => []
  | r :: rest, prev, sums =>
    let raw := (r.fields.drop (req.first - r.header.first)).take req.count
    let broken : Bool := match prev with
      | none => true
      | some p => gapBetween delta p.1 r
    let rate : List (Option Int) := match prev with
      | some p => if broken then raw.map (fun _ => none) else deriveRate req len r p.1 p.2
      | none => raw.map (fun _ => none)
    let sums1 := (List.range raw.length).map (fun i => sums.getD i 0 + (rate.getD i none).getD 0)
    let words := if req.mode = 2 then (List.range raw.length).map (fun i => (rate.getD i none).map (fun _ => sums1.getD i 0)) else rate
    { src := r, words := words, raw := raw, index := gridIndex r.launch delta off, delta := delta, broken := broken }   :: deriveAll req len delta off rest (some (r, rate)) sums1

/-- Tiles of a FIELD derivation: raw words, tile_samples traces to a block. -/
def fieldTiles (x : StreamSt) (sid : Nat) (req : DeriveReq) (ds : List Derived) : List Tile :=
  let ts := max 1 (x.par (K.streamTileSamples sid))
  let tp := max 1 (x.par (K.streamTilePoints sid))
  let total := ceilDiv req.count tp
  (List.range (ceilDiv ds.length ts)).flatMap (fun b =>
    let part := (ds.drop (b * ts)).take ts
    match part with
    | [] => []
    | f :: _ =>
      splitTiles (fun q at_ cnt =>
        { controlTile 0x15 (part.flatMap (fun d => ((d.raw.drop at_).take cnt).flatMap (fun w => le 4 w.toNat))) with
          kind := 5, port := req.port, stitched := part.any (·.src.header.stitched), dark := part.any (·.src.header.dark),
          saturated := part.any (·.src.header.saturated), suspect := part.any (·.src.header.suspect), gap := part.any (·.broken), lastTile := decide (q + 1 = total),
          index := q, total := total, epoch := f.src.header.epoch, block := b * ts, t0 := f.src.launch, thinned := part.any (·.src.header.thinned),
          lastInput := (part.getLast?.map (·.src.launch)).getD f.src.launch, interval := f.delta, firstPoint := req.first + at_,
          points := cnt, samples := part.length, decimation := 1 }) req.count tp total)

/-- A stream that filters a derivation: the CAPTURE stream's tile shape with the request's chain. -/
def deriveStream (x : StreamSt) (sid : Nat) (req : DeriveReq) : StreamSt :=
  let set := ((((((((x.bank.set.set (K.streamKind sid) 0).set (K.streamPort sid) req.port).set (K.streamPointsFirst sid) req.first).set
    (K.streamPointsCount sid) req.count).set (K.streamPointsStride sid) 1).set (K.streamDecPreset sid) req.preset).set (K.streamDecForm sid) req.form).set
    (K.streamDecFactor sid) req.factor).set (K.streamFormat sid) req.format
  { StreamSt.idle with bank := { x.bank with set := set } }

/-- The tiles of a RATE or CUMULATIVE derivation (R241, R243). -/
def wordTiles (x : StreamSt) (sid : Nat) (req : DeriveReq) (ds : List Derived) : List Tile :=
  let step := fun (d : Derived) => if req.mode = 2 then secondTicks else d.delta
  let trail := ds.map (fun d => (d.index, step d, d.src.launch))
  let f := ds.foldl (fun (st : StreamSt) (d : Derived) =>
    let tr : StrainTrace := { header := { d.src.header with first := req.first, count := req.count, gauge := req.gauge }, index := d.index, delta := step d, offset := 0, words := d.words }
    (st.takeTrace sid tr trail false false (d.broken && st.begun)).1) (deriveStream x sid req)
  let first := (ds.head?.map (·.index)).getD 0
  (f.closeBlock sid).queue.map (fun y =>
    { y with kind := 5, port := req.port, format := if req.mode = 2 then (if req.format = 1 then 0x16 else if req.format = 2 then 0x17 else y.format) else y.format,
             interval := req.factor * (ds.head?.map (·.delta)).getD 0, block := y.block - first / max 1 req.factor,
             epoch := (((ds.filter (fun d => decide (d.src.launch ≤ y.t0))).getLast?.orElse (fun _ => ds.head?)).map (·.src.header.epoch)).getD 0 })

/-- The interval Δ of a capture's port: the least step between its records. -/
def capDelta : List CapRec → Nat
  | [] => 0
  | [_] => 0
  | a :: b :: rest =>
    let d := (roundDiv (b.launch - a.launch) 327680).toNat
    match capDelta (b :: rest) with
    | 0 => d
    | m => min d m

/-- The output of a derivation; records DRAM delivers as poisoned are missing (R264). -/
def State.deriveTiles (s : State) (req : DeriveReq) : List Tile :=
  match s.capture req.capture with
  | none => []
  | some c =>
    let p := Port.ofIdx req.port
    let rs := c.records.filter (fun r => r.port == p && !(s.mem.poisonedRecs.contains (c.number, r.port, r.launch)))
    let ds := deriveAll req (s.roGet (K.portFibreLength p)) (capDelta rs) (s.pP p (K.portFrameOffset p)) rs none []
    let x := s.stream req.stream
    if req.mode = 0 then fieldTiles x req.stream req ds else wordTiles x req.stream req ds

/-- CAPTURE_DERIVE_COMPLETE: the running derivation's output is queued on its stream, its use of the capture ends, and the next one runs (R241, R242). -/
def execCaptureDeriveComplete (t : Tick) (s : State) : Out :=
  let s0 := s.at t
  match s0.trig.derives with
  | [] => .next s0
  | req :: rest =>
    let s1 := s0.enqueue req.stream 5 (s0.deriveTiles req)
    let s2 : State := { s1 with trig := { s1.trig with derives := rest } }
    .next ((s2.modCapture req.capture (fun x => { x with derives := x.derives - 1 })).useEnded req.capture)

end Sys2Proof.Machine
end

