-- ==== Sys2Proof/Machine/BasaltDecode.lean ====
section
/-! DEFINITION. A bundle's bits as the operations they stand for: slots, forms, opcodes, operand fields (R185, R186, R194). -/

namespace Sys2Proof.Machine

/-- Bits [hi:lo] of a number. -/
def bitsAt (v hi lo : Nat) : Nat := v / 2 ^ lo % 2 ^ (hi + 1 - lo)

/-- Bits [hi:lo] as a field of `w` bits. -/
def fieldAt (w v hi lo : Nat) : BitVec w := BitVec.ofNat w (bitsAt v hi lo)

/-- Slot 0 of a bundle (R185). -/
def slot0 (b : Nat) : Nat := bitsAt b 41 0
/-- Slot 1. -/
def slot1 (b : Nat) : Nat := bitsAt b 83 42
/-- Slot 2. -/
def slot2 (b : Nat) : Nat := bitsAt b 125 84
/-- The rot bit of a bundle (R189). -/
def rotOf (b : Nat) : Bool := bitOf b 126
/-- Opcode of a slot. -/
def opcodeOf (sl : Nat) : Nat := bitsAt sl 41 36

/-- An operation of a slot: the mnemonic of R194's table with the operands of its form. `s` holds the address register of AMOV and AGET beside, `x` the destination of VMULQ, which
form X has no field for (log entry 38). DMA stands for its four transfers, which the descriptor tells apart. -/
inductive BOp where
  | nop (core : Nat)
  | m (name : String) (o : OpM)
  | m2 (name : String) (o : OpM2)
  | s (name : String) (o : OpS) (an : BitVec 3)
  | x (name : String) (o : OpX) (vd : BitVec 6)
  | v (name : String) (o : OpV)
  | c (name : String) (o : OpC)
  deriving DecidableEq, Repr

/-! ### Opcodes (R194) -/

/-- The mnemonic of an opcode in a part of the table. -/
def opName (table : List (Nat × String)) (op : Nat) : Option String := (table.find? (fun e => e.1 == op)).map (·.2)

/-- Slot 0, form M. -/
def opsM : List (Nat × String) :=
  [(1, "VLD"), (2, "VLDB"), (5, "VST"), (6, "VSTM"), (7, "SLD"), (8, "SST"), (9, "AADDI")]
/-- Slot 0, form M2. -/
def opsM2 : List (Nat × String) := [(3, "VLD2"), (4, "VLDST")]
/-- The scalar ALU of slots 0 and 2. -/
def opsScalar : List (Nat × String) :=
  [(0x10, "SADD"), (0x11, "SSUB"), (0x12, "SADDI"), (0x13, "SAND"), (0x14, "SOR"), (0x15, "SXOR"), (0x16, "SSHL"), (0x17, "SSHR"), (0x18, "SSHRA"), (0x19, "SMOVI"), (0x1A, "SMOVIH")]
/-- Slot 0, form S. -/
def opsS0 : List (Nat × String) := [(0xA, "AMOV"), (0xB, "AGET"), (0x20, "DMA"), (0x21, "WAITD")] ++ opsScalar
/-- Slot 2, form S. -/
def opsS2 : List (Nat × String) := opsScalar ++ [(0x1B, "SMUL")]
/-- Slot 1, form X. -/
def opsX : List (Nat × String) :=
  [(1, "VMAC"), (2, "VMSU"), (3, "VMUL"), (4, "VMACS"), (5, "VSQA"), (6, "VMULQ"), (8, "ACCCLR"), (9, "ACCRD16"), (0xA, "ACCRD32"), (0xB, "ACCSV"), (0xC, "ACCLD")]
/-- Slot 2, form V. -/
def opsV : List (Nat × String) :=
  [(1, "VADD"), (2, "VSUB"), (3, "VADDS"), (4, "VSUBS"), (5, "VABS"), (6, "VMAX"), (7, "VMIN"), (8, "VAND"), (9, "VOR"), (0xA, "VXOR"), (0xB, "VSHL"), (0xC, "VSHRA"), (0xD, "VSHRL"),
   (0xE, "VMOV"), (0xF, "VBCAST"), (0x20, "VCMPEQ"), (0x21, "VCMPGT"), (0x22, "VCMPGE"), (0x23, "VSEL"), (0x24, "VEXT"), (0x25, "VINS"), (0x26, "VPERM"), (0x27, "VREDADD"), (0x28, "VREDMAX")]
/-- Slot 2, form C; CRC's sub-functions stand under its own opcode. -/
def opsC : List (Nat × String) :=
  [(0x30, "BR"), (0x31, "BRZ"), (0x32, "BRNZ"), (0x33, "BRI"), (0x34, "CALL"), (0x35, "RETI"), (0x36, "LOOPA"), (0x37, "LOOPB"), (0x38, "MFC"), (0x39, "MTC"), (0x3A, "DINT"), (0x3B, "EINT"),
   (0x3C, "TEND"), (0x3D, "TRACE")]
/-- The sub-functions of CRC (R186, R212). -/
def opsCrc : List (Nat × String) := [(0, "CRCV"), (1, "CRCS"), (2, "CRCSEED"), (3, "CRCFIN")]

/-! ### Operand fields (R185, R186) -/

/-- Form M. -/
def readM (core : Nat) (sl : Nat) : OpM :=
  { core := core, reg := fieldAt 6 sl 35 30, an := fieldAt 3 sl 29 27, mode := fieldAt 3 sl 26 24, inc := fieldAt 24 sl 23 0, close := false }

/-- Form M2. -/
def readM2 (core : Nat) (sl : Nat) : OpM2 :=
  { core := core, vd := fieldAt 6 sl 35 30, an := fieldAt 3 sl 29 27, mode := fieldAt 3 sl 26 24, am := fieldAt 3 sl 23 21, vs := fieldAt 6 sl 20 15, inc := fieldAt 15 sl 14 0, close := false }

/-- Form S. -/
def readS (core : Nat) (two : Bool) (sl : Nat) : OpS :=
  { core := core, slot2 := two, sd := fieldAt 5 sl 34 30, sa := fieldAt 5 sl 29 25, sb := fieldAt 5 sl 24 20, imm := fieldAt 16 sl 15 0, close := false }

/-- Form X. -/
def readX (core : Nat) (sl : Nat) : OpX :=
  { core := core, acc := fieldAt 3 sl 35 33, va := fieldAt 6 sl 32 27, vb := fieldAt 6 sl 26 21, sx := fieldAt 5 sl 20 16, shift := fieldAt 6 sl 15 10, round := fieldAt 2 sl 9 8,
    part := fieldAt 2 sl 7 6, close := false }

/-- Form V. -/
def readV (core : Nat) (sl : Nat) : OpV :=
  { core := core, d := fieldAt 6 sl 35 30, a := fieldAt 6 sl 29 24, b := fieldAt 6 sl 23 18, w := bitOf sl 17, i := bitOf sl 16, imm := fieldAt 16 sl 15 0, close := false }

/-- Form C with no operand. -/
def bareC (core : Nat) : OpC :=
  { core := core, s := 0, v := 0, off := 0, top := 0, end_ := 0, ke := 0, unit := 0, sb := 0, k := 0, close := false }

/-- Form C: the fields R186 names for the operation. -/
def readC (core : Nat) (name : String) (sl : Nat) : OpC :=
  let o := bareC core
  let r : OpC := { o with s := fieldAt 5 sl 34 30 }
  let u : OpC := { o with unit := fieldAt 2 sl 29 28 }
  if name = "BR" ∨ name = "CALL" then { o with off := fieldAt 13 sl 12 0 }
  else if name = "BRZ" ∨ name = "BRNZ" then { r with off := fieldAt 13 sl 12 0 }
  else if name = "BRI" ∨ name = "TRACE" then r
  else if name = "LOOPA" ∨ name = "LOOPB" then { r with top := fieldAt 12 sl 23 12, end_ := fieldAt 12 sl 11 0 }
  else if name = "MFC" ∨ name = "MTC" then { r with ke := fieldAt 8 sl 7 0 }
  else if name = "CRCV" then { u with v := fieldAt 6 sl 35 30 }
  else if name = "CRCS" then { u with s := fieldAt 5 sl 34 30, k := fieldAt 2 sl 1 0 }
  else if name = "CRCSEED" then { u with s := fieldAt 5 sl 34 30, sb := fieldAt 5 sl 16 12 }
  else if name = "CRCFIN" then { u with s := fieldAt 5 sl 34 30 }
  else o

/-- The bits form C uses for an operation, as a mask of [35:0]. -/
def maskC (name : String) : Nat :=
  let reg := 31 * 2 ^ 30
  let crc := 63 * 2 ^ 24
  if name = "BR" ∨ name = "CALL" then 2 ^ 13 - 1
  else if name = "BRZ" ∨ name = "BRNZ" then reg + (2 ^ 13 - 1)
  else if name = "BRI" ∨ name = "TRACE" then reg
  else if name = "LOOPA" ∨ name = "LOOPB" then reg + (2 ^ 24 - 1)
  else if name = "MFC" ∨ name = "MTC" then reg + 255
  else if name = "CRCV" then 63 * 2 ^ 30 + crc
  else if name = "CRCS" then reg + crc + 3
  else if name = "CRCSEED" then reg + crc + 31 * 2 ^ 12
  else if name = "CRCFIN" then reg + crc
  else 0

/-- The mnemonic of form C in a slot. -/
def nameC (sl : Nat) : Option String := if opcodeOf sl = 0x3E then opName opsCrc (bitsAt sl 27 24) else opName opsC (opcodeOf sl)

/-- Form S has [35] and [19:16] at 0. -/
def formS (sl : Nat) : Bool := decide (bitsAt sl 35 35 = 0) && decide (bitsAt sl 19 16 = 0)

/-- AMOV names its address register where form S has Sd, AGET where it has Sa (log entry 38). -/
def anOf (name : String) (sl : Nat) : BitVec 3 :=
  if name = "AMOV" then fieldAt 3 sl 34 30 else if name = "AGET" then fieldAt 3 sl 29 25 else 0

/-! ### Slots -/

/-- The operation of slot 0; none where its opcode is not defined, a reserved bit is set, or VLD2 names an odd Vd (R187). -/
def readSlot0 (core sl : Nat) : Option BOp :=
  let op := opcodeOf sl
  if op = 0 then some (.nop core)
  else match opName opsM op with
    | some n => some (.m n (readM core sl))
    | none => match opName opsM2 op with
      | some n => if n = "VLD2" ∧ bitsAt sl 30 30 = 1 then none else some (.m2 n (readM2 core sl))
      | none => match opName opsS0 op with
        | some n => if formS sl then some (.s n (readS core false sl) (anOf n sl)) else none
        | none => none

/-- The operation of slot 1. Where VMULQ's Vd stands is not stated: a free value of the slot's bits. -/
def readSlot1 (core sl : Nat) : Option BOp :=
  if opcodeOf sl = 0 then some (.nop core)
  else match opName opsX (opcodeOf sl) with
    | some n => if bitsAt sl 5 0 = 0 then some (.x n (readX core sl) (if n = "VMULQ" then Config.vmulqVd sl else 0)) else none
    | none => none

/-- The operation of slot 2. -/
def readSlot2 (core sl : Nat) : Option BOp :=
  if opcodeOf sl = 0 then some (.nop core)
  else match opName opsV (opcodeOf sl) with
    | some n => some (.v n (readV core sl))
    | none => match opName opsS2 (opcodeOf sl) with
      | some n => if formS sl then some (.s n (readS core true sl) 0) else none
      | none => match nameC sl with
        | some n => if clearBits (bitsAt sl 35 0) (maskC n) = 0 then some (.c n (readC core n sl)) else none
        | none => none

/-- The operations a bundle's three slots hold, where each is defined and bit 127 is 0 (R185, R187). -/
def bundleOps (core b : Nat) : Option (List BOp) :=
  match readSlot0 core (slot0 b), readSlot1 core (slot1 b), readSlot2 core (slot2 b) with
  | some x, some y, some z => if bitsAt b 127 127 = 0 then some [x, y, z] else none
  | _, _, _ => none

/-! ### Commands and bundles -/

/-- The operation a command stands for, with `close` left aside; none for every other command. -/
def operationOf (i : Instr) : Option BOp :=
  match i with
  | .nop core _ => some (.nop core)
  | .vld o => some (.m "VLD" { o with close := false })
  | .vldb o => some (.m "VLDB" { o with close := false })
  | .vld2 o => some (.m2 "VLD2" { o with close := false })
  | .vldst o => some (.m2 "VLDST" { o with close := false })
  | .vst o => some (.m "VST" { o with close := false })
  | .vstm o => some (.m "VSTM" { o with close := false })
  | .sld o => some (.m "SLD" { o with close := false })
  | .sst o => some (.m "SST" { o with close := false })
  | .aaddi o => some (.m "AADDI" { o with close := false })
  | .amov o an => some (.s "AMOV" { o with close := false } an)
  | .aget o an => some (.s "AGET" { o with close := false } an)
  | .sadd o => some (.s "SADD" { o with close := false } 0)
  | .ssub o => some (.s "SSUB" { o with close := false } 0)
  | .saddi o => some (.s "SADDI" { o with close := false } 0)
  | .sand o => some (.s "SAND" { o with close := false } 0)
  | .sor o => some (.s "SOR" { o with close := false } 0)
  | .sxor o => some (.s "SXOR" { o with close := false } 0)
  | .sshl o => some (.s "SSHL" { o with close := false } 0)
  | .sshr o => some (.s "SSHR" { o with close := false } 0)
  | .sshra o => some (.s "SSHRA" { o with close := false } 0)
  | .smovi o => some (.s "SMOVI" { o with close := false } 0)
  | .smovih o => some (.s "SMOVIH" { o with close := false } 0)
  | .smul o => some (.s "SMUL" { o with close := false } 0)
  | .brickIn o => some (.s "DMA" { o with close := false } 0)
  | .scratchIn o => some (.s "DMA" { o with close := false } 0)
  | .scratchOut o => some (.s "DMA" { o with close := false } 0)
  | .output o => some (.s "DMA" { o with close := false } 0)
  | .waitd o => some (.s "WAITD" { o with close := false } 0)
  | .vmac o => some (.x "VMAC" { o with close := false } 0)
  | .vmsu o => some (.x "VMSU" { o with close := false } 0)
  | .vmul o => some (.x "VMUL" { o with close := false } 0)
  | .vmacs o => some (.x "VMACS" { o with close := false } 0)
  | .vsqa o => some (.x "VSQA" { o with close := false } 0)
  | .accclr o => some (.x "ACCCLR" { o with close := false } 0)
  | .accrd16 o => some (.x "ACCRD16" { o with close := false } 0)
  | .accrd32 o => some (.x "ACCRD32" { o with close := false } 0)
  | .accsv o => some (.x "ACCSV" { o with close := false } 0)
  | .accld o => some (.x "ACCLD" { o with close := false } 0)
  | .vmulq o vd => some (.x "VMULQ" { o with close := false } vd)
  | .vadd o => some (.v "VADD" { o with close := false })
  | .vsub o => some (.v "VSUB" { o with close := false })
  | .vadds o => some (.v "VADDS" { o with close := false })
  | .vsubs o => some (.v "VSUBS" { o with close := false })
  | .vabs o => some (.v "VABS" { o with close := false })
  | .vmax o => some (.v "VMAX" { o with close := false })
  | .vmin o => some (.v "VMIN" { o with close := false })
  | .vand o => some (.v "VAND" { o with close := false })
  | .vor o => some (.v "VOR" { o with close := false })
  | .vxor o => some (.v "VXOR" { o with close := false })
  | .vshl o => some (.v "VSHL" { o with close := false })
  | .vshra o => some (.v "VSHRA" { o with close := false })
  | .vshrl o => some (.v "VSHRL" { o with close := false })
  | .vmov o => some (.v "VMOV" { o with close := false })
  | .vbcast o => some (.v "VBCAST" { o with close := false })
  | .vcmpeq o => some (.v "VCMPEQ" { o with close := false })
  | .vcmpgt o => some (.v "VCMPGT" { o with close := false })
  | .vcmpge o => some (.v "VCMPGE" { o with close := false })
  | .vsel o => some (.v "VSEL" { o with close := false })
  | .vext o => some (.v "VEXT" { o with close := false })
  | .vins o => some (.v "VINS" { o with close := false })
  | .vperm o => some (.v "VPERM" { o with close := false })
  | .vredadd o => some (.v "VREDADD" { o with close := false })
  | .vredmax o => some (.v "VREDMAX" { o with close := false })
  | .br o => some (.c "BR" { o with close := false })
  | .brz o => some (.c "BRZ" { o with close := false })
  | .brnz o => some (.c "BRNZ" { o with close := false })
  | .bri o => some (.c "BRI" { o with close := false })
  | .call o => some (.c "CALL" { o with close := false })
  | .reti o => some (.c "RETI" { o with close := false })
  | .loopa o => some (.c "LOOPA" { o with close := false })
  | .loopb o => some (.c "LOOPB" { o with close := false })
  | .mfc o => some (.c "MFC" { o with close := false })
  | .mtc o => some (.c "MTC" { o with close := false })
  | .dint o => some (.c "DINT" { o with close := false })
  | .eint o => some (.c "EINT" { o with close := false })
  | .trace o => some (.c "TRACE" { o with close := false })
  | .crcv o => some (.c "CRCV" { o with close := false })
  | .crcs o => some (.c "CRCS" { o with close := false })
  | .crcseed o => some (.c "CRCSEED" { o with close := false })
  | .crcfin o => some (.c "CRCFIN" { o with close := false })
  | .tend o _ => some (.c "TEND" { o with close := false })
  | _ => none

/-- The core an operation runs on. -/
def BOp.core : BOp → Nat
  | .nop n => n
  | .m _ o => o.core
  | .m2 _ o => o.core
  | .s _ o _ => o.core
  | .x _ o _ => o.core
  | .v _ o => o.core
  | .c _ o => o.core

/-- A bundle of an image. -/
def bundleAt (im : List Byte) (n : Nat) : Nat := fieldLe im (128 + 16 * n) 16

/-- The bundle at a core's address, in the image it runs. -/
def State.bundleOf (s : State) (c : Nat) : Nat := bundleAt (s.instImage ((s.core c).inst.getD 0)) (s.core c).pc

/-- A command is what the bundle at its core's address spells (R185): one of its operations, or its rot bit. -/
def State.spelled (s : State) (i : Instr) : Bool :=
  match i with
  | .rotDecrement core => rotOf (s.bundleOf core)
  | _ =>
    match operationOf i with
    | none => false
    | some op => ((bundleOps op.core (s.bundleOf op.core)).map (fun l => l.contains op)).getD false

end Sys2Proof.Machine
end

