-- ==== Sys2Proof/Machine/BasaltImage.lean ====
section
/-! DEFINITION. What the loader checks of a kernel image (R185 to R187, R213). -/

namespace Sys2Proof.Machine

/-- A branch, or RETI (R187). -/
def isBranch (b : Nat) : Bool := let op := opcodeOf (slot2 b); decide (0x30 ≤ op) && decide (op ≤ 0x35)
/-- A LOOPx. -/
def isLoop (b : Nat) : Bool := let op := opcodeOf (slot2 b); op == 0x36 || op == 0x37

/-- One bundle by itself: its slots hold defined operations, and WAITD shares it with NOPs alone. -/
def bundleOk (b : Nat) : Bool :=
  (bundleOps 0 b).isSome && (opcodeOf (slot0 b) != 0x21 || (decide (opcodeOf (slot1 b) = 0) && decide (opcodeOf (slot2 b) = 0)))

/-- The bundle at an address of the image is a branch or RETI; past the last bundle stands none. -/
def branchAt (im : List Byte) (n : Nat) : Bool := decide (n < (imageHeader im).bundles) && isBranch (bundleAt im n)

/-- A branch or RETI stands in one of the two bundles before an address. -/
def branchNear (im : List Byte) (n : Nat) : Bool := (decide (1 ≤ n) && branchAt im (n - 1)) || (decide (2 ≤ n) && branchAt im (n - 2))

/-- A bundle among its neighbours: no branch, RETI or LOOPx in the two bundles after a branch or RETI; a LOOPx names a top not above its end, and an end with no branch or RETI at it
or in the two bundles before it. -/
def bundlePlaced (im : List Byte) (n : Nat) : Bool :=
  let b := bundleAt im n
  let last := bitsAt (slot2 b) 11 0
  (!(isBranch b || isLoop b) || !branchNear im n) &&
  (!isLoop b || (decide (bitsAt (slot2 b) 23 12 ≤ last) && !branchAt im last && !branchNear im last))

/-- The header's own rules and the check value (R213). -/
def headerOk (im : List Byte) : Bool :=
  let h := imageHeader im
  decide (slice im 0 4 = ascii "BSLT") && decide (fieldLe im 4 2 = 1) && decide (fieldLe im 6 2 = 0) && decide (1 ≤ h.bundles) && decide (h.bundles ≤ 4096) &&
  decide (h.initEntry < h.bundles) && decide (h.tileEntry < h.bundles) && decide (h.ivec < h.bundles) &&
  decide (h.dmemBytes % 64 = 0) && decide (h.dmemBytes ≤ 0x3FF00) && decide (h.persistAddr % 64 = 0) && decide (h.persistBytes % 64 = 0) &&
  decide (h.persistBytes ≤ 16384) && decide (1 ≤ h.cost) && decide (h.cost ≤ 768) && decide (1 ≤ h.perBrick) && decide (h.perBrick ≤ 32) &&
  decide (4 ≤ h.recBytes) && decide (h.recBytes ≤ 64) && decide (h.recBytes % 4 = 0) && (log2Exact h.samples).isSome && decide (h.samples ≤ 2048) &&
  decide (h.word0 ≤ 2) && decide (1 ≤ h.minCores) && decide (h.minCores ≤ h.maxCores) && decide (h.maxCores ≤ 32) && decide (fieldLe im 39 1 = 0) &&
  decide (fieldLe im 64 56 = 0) && decide (fieldLe im 120 4 = im.length) && decide (im.length = 128 + 16 * h.bundles + h.dmemBytes) &&
  decide ((crc32c (slice im 0 124 ++ im.drop 128)).toNat = fieldLe im 124 4)

/-- The loader accepts an image (R187, R213). -/
def imageOk (im : List Byte) : Bool :=
  headerOk im && (List.range (imageHeader im).bundles).all (fun n => bundleOk (bundleAt im n) && bundlePlaced im n)

/-- The image's check value. -/
def imageCheck (im : List Byte) : Nat := fieldLe im 124 4

/-- Publish a slot's name, check value and persistence. -/
def State.publishImage (s : State) (k : Nat) : State :=
  let im := (s.slot k).image
  (((s.roSet (K.basaltSlotName k) (fieldLe im 48 16)).roSet (K.basaltSlotCheck k) (imageCheck im)).roSet (K.basaltSlotPersistent k)
    (b2n (im ≠ [] ∧ s.basalt.stored.any (fun e => e.1 == k && e.2 == im)))).publishSlot k

end Sys2Proof.Machine
end

