-- ==== Sys2Proof/Machine/Schedule.lean ====
section
/-! DEFINITION. Frame starts, patterns, proof windows, the DTS switch, frame lock, and actions committed for F (chapter 03, R43, R92, R280, R302). -/

namespace Sys2Proof.Machine

/-! ### The frame start (R81, R86, R88) -/

/-- The sync word of a frame start (R89). -/
def State.syncWord (s : State) (p : Port) : Nat :=
  let top := 0xA5 * 2 ^ 40 + s.period p % 2 ^ 19 * 2 ^ 21 + s.roGet (K.portFrameCount p) % 65536 * 32 + p.idx * 16 + 8 * b2n (s.pP p (K.portFrameAlign p) == 1)
  top * 65536 + crc16Bits 48 top 0xFFFF

/-- A MASTER sends its sync word at each frame start of its source port (R88), unless a collision silenced it (R93). -/
def State.syncSend (s : State) (p : Port) : State :=
  if s.pG K.schedLockRole = 1 ∧ s.pG K.schedLockPort = p.idx ∧ s.opt.lock.collision = false then s.emit (.syncWordOut (s.syncWord p)) else s

/-- The DTS pulse of a frame start (R84, R49): the turn's port, settled for at least 5 µs; the turn passes if the other port takes part. -/
def State.dtsFire (s : State) (p : Port) : State :=
  let d := s.opt.dts
  if d.turn = p ∧ s.dtsTakes p ∧ d.moving = none ∧ d.settledAt + 1000 ≤ s.now then
    let s0 := (s.emit (.dtsPulse p)).bump (K.portDtsPulseCount p) 1
    let s1 := s0.setDts p { s0.dts p with pulsed := true }
    if s1.dtsTakes p.other then s1.dtsMove p.other 22 else s1
  else s

/-- The frame of a port begins at its tick: counts, states, launches (R53, R62, R70, R81, R86). -/
def State.frameBegin (s : State) (p : Port) (start : Tick) : State :=
  let period := s.period p
  let f := s.frame p
  let s1 := ((s.setFrame p { f with last := start, next := some (start + period), groupNext := 1, probed := f.probed && s.thinned p, gap := false }).bump (K.portFrameCount p) 1).roSet
    (K.portFramePeriodLive p) period
  let s2 := if s1.pP p (K.portFrameAlign p) = 1 then s1.roSetInt (K.portFrameGridError p) (s1.gridError p start) else s1
  let s3 := s2.setPortSt p { s2.portSt p with waitRestart := s2.pState p == 4 && (s2.portSt p).waitRestart }
  let s4 := s3.publishHold p
  let s5 := if s4.pState p = 2 ∧ s4.holdMask p = 0 then s4.enterPort p 3 else s4
  let x := s5.portSt p
  let marks := (start - x.aprSince) / 20000000
  let s6 := if s5.pState p = 4 ∧ x.aprMarks < marks ∧ s5.mayLaunch p then
      (s5.setPortSt p { x with aprMarks := marks }).setFrame p { s5.frame p with probed := true }
    else s5
  let s7 := if s6.thinned p then s6
    else
      let plan := s6.pP p (K.portSlotPlan p)
      s6.launchGroup p start plan 0 (groupSlots plan 0) false
  let s8 := s7.setDts p { s7.dts p with lit := s7.pState p == 3, suspect := s7.roGet K.timebaseSuspect == 1, pulsed := false }
  (s8.dtsFire p).syncSend p

/-! ### Pattern latching without frames (R82, R295) -/

/-- INTERNAL_STROBE: every 200 000 ticks while neither port has frames (R82). -/
def execInternalStrobe (t : Tick) (s : State) : Out :=
  let s0 := s.at t
  if s0.hasFrames .a || s0.hasFrames .b || decide (s0.now < s0.opt.internalNext) then .next s0
  else
    let s1 : State := { s0 with opt := { s0.opt with internalNext := s0.now + 200000 } }
    .next (s1.latchAll [0, 1, 9, 10] [] false false)

/-- The channels that latch on a strobe (R82). -/
def State.sourceChannels (s : State) : StrobeSource → List Nat
  | .portA => strobeChannels .a (s.hasFrames .a) s.opt.dts.turn
  | .portB => strobeChannels .b (s.hasFrames .a) s.opt.dts.turn
  | .internal => if s.hasFrames .a || s.hasFrames .b then [] else [0, 1, 9, 10]

/-- The offset of a step from its strobe, in ticks (R295). -/
def State.stepStart (s : State) (src : StrobeSource) (n : Nat) : Nat :=
  (match src with
   | .portA => s.drive.stepsA
   | .portB => s.drive.stepsB
   | .internal => s.drive.stepsI).getD n 0

/-- The tick of the last strobe of a source. -/
def State.lastStrobe (s : State) (src : StrobeSource) : Tick :=
  match src with
  | .portA => (s.frame .a).last
  | .portB => (s.frame .b).last
  | .internal => s.opt.internalNext - 200000

/-- PATTERN_STEP: each channel that latches on the strobe takes the word of step i from its start offset on (R295). -/
def execPatternStep (t : Tick) (src : StrobeSource) (step : Nat) (s : State) : Out :=
  let s0 := s.at t
  if s0.lastStrobe src + s0.stepStart src step ≤ s0.now ∧ step < 32 then
    .next ((s0.sourceChannels src).foldl (fun st c => st.setChan c { st.chan c with step := step }) s0)
  else .next s0

/-! ### Proof windows (R85, R300, R301) -/

/-- A channel is in use (R301). -/
def State.chInUse (s : State) (c : Nat) : Bool :=
  if c ≤ 1 then false
  else if c ≤ 7 then s.pP (chPort c) (K.portEnable (chPort c)) == 1
  else if c = 8 then s.pI .a (K.portDtsEnable .a) == 1 || s.pI .b (K.portDtsEnable .b) == 1
  else s.pG (K.ledCount (Port.ofIdx (c - 9))) != 0

/-- A channel is due for proof: unverified for 1 s, in use, OK or UNVERIFIED, and not held off by the clamp. -/
def State.proofDue (s : State) (c : Nat) : Bool :=
  s.mayDrive c && s.chInUse c && (s.chStatus c == 1 || s.chStatus c == 2) && decide ((s.chan c).verifiedAt + secondTicks ≤ s.now)
  && !(isBooster c && s.drive.clamped (chPort c))

/-- One channel's proof pulse: counted, and its single measurement decides (R300). -/
def State.proof (s : State) (opens shorts : List Nat) (c : Nat) : State :=
  let s0 := s.bump (K.emitChProofs c) 1
  let s1 := if isBooster c then s0.setCoh (chPort c) { s0.coh (chPort c) with lastProof := some s.now } else s0
  if opens.contains c then s1.declare c 3 else if shorts.contains c then s1.declare c 4 else s1.verified c

/-- The channels of a list in one proof window: those due and proofed, and those due that are OFF, which read UNVERIFIED from the end of it until they are verified (R85, R301). -/
def State.proofs (s : State) (cs opens shorts : List Nat) : State :=
  let late := cs.filter (fun c => s.mayDrive c && s.chInUse c && s.chStatus c == 0 && decide ((s.chan c).verifiedAt + secondTicks ≤ s.now))
  let s1 := (cs.filter s.proofDue).foldl (fun st c => st.proof opens shorts c) s
  late.foldl (fun st c => st.setChStatus c 2) s1

/-- PROOF_WINDOW: from 2.5 µs to 0.5 µs before the next frame start, or on the internal strobe while neither port has frames (R85). -/
def execProofWindow (t : Tick) (p : Option Port) (opens shorts : List Nat) (s : State) : Out :=
  let s0 := s.at t
  match p with
  | some q =>
    match (s0.frame q).next with
    | some n =>
      if n ≤ s0.now + 500 then
        .next (s0.proofs (strobeChannels q (s0.hasFrames .a) s0.opt.dts.turn) opens shorts)
      else .next s0
    | none => .next s0
  | none =>
    if s0.hasFrames .a || s0.hasFrames .b || decide (s0.now + 500 < s0.opt.internalNext) then .next s0
    else .next (s0.proofs (List.range 11) opens shorts)

/-! ### The DTS switch (R84) -/

/-- DTS_SWITCH_SETTLED: the moving switch has settled on the port whose turn it is. -/
def execDtsSwitchSettled (t : Tick) (s : State) : Out :=
  let s0 := s.at t
  match s0.opt.dts.moving with
  | some m =>
    if m ≤ s0.now then .next { s0 with opt := { s0.opt with dts := { s0.opt.dts with moving := none, settledAt := m } } } else .next s0
  | none => .next s0

/-! ### Frame lock (R88 to R93) -/

/-- The BUS ports that have frames. -/
def State.busPorts (s : State) : List Port := ports.filter (fun p => s.onBus p && s.hasFrames p)

/-- A sync word holds its check and preamble (R89). -/
def syncOk (w : Nat) : Bool := crc16Bits 48 (w / 65536) 0xFFFF == w % 65536 && w / 2 ^ 56 == 0xA5

/-- The period field of a sync word. -/
def syncPeriod (w : Nat) : Nat := w / 2 ^ 37 % 2 ^ 19

/-- Place the first frame start of every BUS port that waits for it (R90). -/
def State.busStart (s : State) (n : Tick) : State :=
  s.busPorts.foldl (fun st p => if (st.frame p).next = none then st.firstAt p n else st) s

/-- Move the frame starts of every BUS port that has them by the tick R91 makes, from the predicted start to the word; the launches are not flagged. -/
def State.busShift (s : State) (from_ to_ : Tick) : State :=
  s.busPorts.foldl (fun st p =>
    let f := st.frame p
    st.setFrame p { f with next := f.next.map (fun x => x + to_ - from_), origin := f.origin + to_ - from_ }) s

/-- A valid word whose period matches moves the lock state (R90, R91); `t` is the tick its first bit began. -/
def State.syncMatch (s : State) (t : Tick) (period : Nat) : State :=
  let old := s.opt.lock
  let s1 := s.withLock { old with lastWord := some (t, period), predicted := t + period, missed := 0 }
  let delay := s.pG K.schedLockDelay
  let st := s.roGet K.schedLockState
  if st = 1 then (s1.busStart (t + period + delay)).setLock 2
  else if st = 2 ∨ st = 3 then
    if t ≤ old.predicted + 1 ∧ old.predicted ≤ t + 1 then
      (s1.busShift old.predicted t).setLock 2
    else s1.setLock 4
  else s1

/-- SYNC_WORD_RECEIVE: a FOLLOWER takes a word (R90). A word its check field rejects is counted. DESIGN CHOICE (log entry 57): so is a word whose check holds and whose preamble is not 0xA5. -/
def execSyncWordReceive (t : Tick) (word : BitVec 64) (s : State) : Out :=
  let s0 := s.at t
  let w := word.toNat
  if s0.pG K.schedLockRole ≠ 2 then .next s0
  else if syncOk w = false then .next (s0.bump K.schedLockWordErrors 1)
  else
    let period := syncPeriod w
    if s0.busPorts.all (fun p => s0.pP p (K.portFramePeriod p) == period) then .next (s0.syncMatch t period)
    else
      let s1 := s0.withLock { s0.opt.lock with lastWord := some (t, period), predicted := t + period, missed := 0 }
      .next ((s1.busStart (s1.nextMultiple (s1.now + 40000) 20)).setLock 5)

/-- LOCK_WORD_MISSING: a predicted start passes without a valid word; three in a row lead from LOCKED to FLYWHEEL (R90). -/
def execLockWordMissing (t : Tick) (s : State) : Out :=
  let s0 := s.at t
  let l := s0.opt.lock
  let st := s0.roGet K.schedLockState
  if (st = 2 ∨ st = 3) ∧ l.predicted + 1280 ≤ s0.now then
    let period := match l.lastWord with
      | some w => w.2
      | none => 0
    let s1 := s0.withLock { l with missed := l.missed + 1, predicted := l.predicted + period }
    .next (if st = 2 ∧ 3 ≤ l.missed + 1 then s1.setLock 3 else s1)
  else .next s0

/-- LOCK_ACQUIRE_TIMEOUT: 1 s in ACQUIRING without a valid word (R90): frames run, not aligned. -/
def execLockAcquireTimeout (t : Tick) (p : Port) (s : State) : Out :=
  let s0 := s.at t
  match s0.opt.lock.acquireSince with
  | some a =>
    if s0.roGet K.schedLockState = 1 ∧ a + secondTicks ≤ s0.now ∧ s0.hasFrames p then
      let s1 := s0.busStart (s0.nextMultiple (s0.now + 40000) 20)
      .next ((s1.withLock { s1.opt.lock with acquireSince := none }).setLock 4)
    else .next s0
  | none => .next s0

/-- SYNC_COLLISION: the MASTER stops driving ENS_SYNC and ENS_CLK until a commit writes the role (R93). -/
def execSyncCollision (t : Tick) (s : State) : Out :=
  let s0 := s.at t
  if s0.pG K.schedLockRole = 1 then .next (((s0.withLock { s0.opt.lock with collision := true }).driveClk).setLock 6) else .next s0

/-- SCHED_LOCK_REALIGN: at F, for each BUS port that was UNLOCKED or MISMATCH then, with a valid word of matching period present, the frame before the first aligned start is stretched (R92).
DESIGN CHOICE (log entry 58): a valid word is present while the last one is no older than one period and a word's 1280 ticks; DESIGN CHOICE (log entry 59): the state is LOCKED at once. -/
def execSchedLockRealign (t : Tick) (p : Port) (s : State) : Out :=
  let s0 := s.at t
  let s1 : State := { s0 with opt := { s0.opt with realignDue := s0.opt.realignDue.set p false } }
  match s0.opt.realignDue.get p, s0.opt.lock.lastWord, (s0.frame p).next with
  | true, some (w, period), some n =>
    let here := s0.pP p (K.portFramePeriod p)
    if s0.onBus p ∧ period = here ∧ 0 < here ∧ s0.now ≤ w + period + 1280 then
      let base := w + s0.pG K.schedLockDelay
      let aligned := if n ≤ base then base else base + ceilDiv (n - base) here * here
      .next ((s1.regridTo p aligned).setLock 2)
    else .next s1
  | true, _, _ => .next s1
  | false, _, _ => .next s0

/-! ### Other actions committed for F -/

/-- TIMEBASE_STEP: the counter steps by the multiple of 20 ticks nearest φ; on TAI ports it is a change of alignment (R71, R72, R280). -/
def execTimebaseStep (t : Tick) (s : State) : Out :=
  let s0 := s.at t
  if s0.opt.stepDue = false then .next s0
  else
    let s1 : State := { s0 with opt := { s0.opt with stepDue := false } }
    let s2 := (s1.stepCounter s1.stepSize).roSet K.timebaseStepPending 0
    .next (s2.eachPort (fun st p =>
      if st.hasFrames p ∧ st.pP p (K.portFrameAlign p) = 1 then
        let st1 := st.regridTo p (st.gridNext p st.now)
        st1.setFrame p { st1.frame p with gap := true }
      else st))

/-- PORT_REDISCOVER: a RESTART-class change that waits past its F (R31, R53, R60, R64): in BOUND or EMITTING the port discovers, or waits for the other port, port B also for port A's where
both are due; in APR it waits for the end of the hold; a discovery in progress serves it. -/
def execPortRediscover (t : Tick) (p : Port) (s : State) : Out :=
  let s0 := s.at t
  if (s0.portSt p).rediscover = false then .next s0
  else
    let st := s0.pState p
    if st = 2 ∨ st = 3 then .next (if p == .b && s0.aRestarts then s0 else s0.discover p)
    else if st = 4 then .next s0
    else .next (s0.setPortSt p { s0.portSt p with rediscover := false })

end Sys2Proof.Machine
end

