-- ==== Sys2Proof/Machine/Discovery.lean ====
section
/-! DEFINITION. Probes, the phases of discovery, its record, the launch clamp and the end of APR (chapter 02). -/

namespace Sys2Proof.Machine

/-- NO_FIBRE_PROBE: one APR-level probe per second while the port may launch; backscatter starts discovery unless the other port discovers, or port A needs to at this instant too
(R53, R60, R430). -/
def execNoFibreProbe (t : Tick) (p : Port) (found : Bool) (s : State) : Out :=
  let s0 := s.at t
  if s0.probeDue p then
    let s1 := (s0.setPortSt p { s0.portSt p with probeAt := some s0.now }).emit (.pulse p 3 s0.stamp probeLight)
    .next (if found ∧ s1.pState p.other ≠ 1 ∧ s1.afterA p = false then s1.discover p else s1)
  else .next s0

/-- The phase of a discovery that has lasted its time (R54). -/
def State.phaseOver (s : State) (p : Port) (ph : Phase) (ticks : Nat) : Bool :=
  match (s.portSt p).phase with
  | some (x, a) => s.pState p == 1 && x == ph && decide (a + ticks ≤ s.now)
  | none => false

/-- The next phase begins; the launches of the one that ends have left (R54). -/
def State.toPhase (s : State) (p : Port) (ph : Phase) : State :=
  let s1 := s.phaseLight p
  s1.setPortSt p { s1.portSt p with phase := some (ph, s1.now) }

/-- DISCOVERY_CONTINUITY_END: after 10 ms, the ramp or NO_FIBRE (R54). -/
def execDiscoveryContinuityEnd (t : Tick) (p : Port) (found : Bool) (s : State) : Out :=
  let s0 := s.at t
  if s0.phaseOver p .continuity 2000000 then .next (if found then s0.toPhase p .ramp else (s0.setPortSt p { s0.portSt p with fibreFound := false }).noFibre p) else .next s0

/-- DISCOVERY_RAMP_END: after 160 ms, the ranging (R54). -/
def execDiscoveryRampEnd (t : Tick) (p : Port) (s : State) : Out :=
  let s0 := s.at t
  if s0.phaseOver p .ramp 32000000 then .next (s0.toPhase p .ranging) else .next s0

/-- End kind (R55): 4 LOOPED, 3 BEYOND_RANGE, 1 REFLECTIVE above −45 dB, else 2. -/
def endKind (r : Ranging) : Nat :=
  if r.loopSeen then 4 else if r.beyondRange then 3 else if -4500 < r.endReflectance then 1 else 2

/-- An event that discovery reports (R56). -/
def reported (e : FibreEvent) : Bool :=
  decide ((if e.position ≤ 5000000 then (100 : Int) else 300) ≤ e.loss) ||
  (match e.reflectance with
   | some x => decide (-6500 ≤ x)
   | none => false)

/-- Insert in falling order of loss. -/
def insertLoss (e : FibreEvent) : List FibreEvent → List FibreEvent
  | [] => [e]
  | x :: rest => if x.loss < e.loss then e :: x :: rest else x :: insertLoss e rest

/-- Events by falling loss. -/
def byLoss (es : List FibreEvent) : List FibreEvent := es.foldl (fun acc e => insertLoss e acc) []

/-- Insert in order of position. -/
def insertPos (e : FibreEvent) : List FibreEvent → List FibreEvent
  | [] => [e]
  | x :: rest => if e.position < x.position then e :: x :: rest else x :: insertPos e rest

/-- Events in order of position. -/
def byPosition (es : List FibreEvent) : List FibreEvent := es.foldl (fun acc e => insertPos e acc) []

/-- A reflective event of −35 dB or more is followed by an event dead zone of 5 m (R56). -/
def deadAfter (e : FibreEvent) : Option Nat :=
  match e.reflectance with
  | some x => if -3500 ≤ x then some (e.position + 500) else none
  | none => none

/-- Events in order of position, without those in the dead zone of an event found before them (R56); `dead` is where the zone in force ends. -/
def outOfDeadZones : Nat → List FibreEvent → List FibreEvent
  | _, [] => []
  | dead, e :: rest => if e.position < dead then outOfDeadZones dead rest else e :: outOfDeadZones ((deadAfter e).getD dead) rest

/-- The events discovery finds (R56): those it reports, outside dead zones, in order of position. -/
def foundEvents (es : List FibreEvent) : List FibreEvent := outOfDeadZones 0 (byPosition (es.filter reported))

/-- The events reported, at most the 64 largest by loss, in order of position. -/
def keptEvents (es : List FibreEvent) : List FibreEvent := byPosition ((byLoss (foundEvents es)).take 64)

/-- Publish length, round trip, end kind and end reflectance on a port. -/
def State.setRecord (s : State) (p : Port) (len rt kind : Nat) (refl : Int) : State :=
  (((s.roSet (K.portFibreLength p) len).roSet (K.portFibreRoundTrip p) rt).roSet (K.portFibreEndKind p) kind).roSetInt (K.portFibreEndReflectance p) refl

/-- Record a ranging on a port (R55). -/
def State.setRanged (s : State) (p : Port) (r : Ranging) : State :=
  let k := endKind r
  s.setRecord p (rangedLength r) (rangedTrip r) k (if k = 3 then -32768 else r.endReflectance)

/-- What a ranging finds on a port that was discovered second on a loop: the end, the length and the reflectance stay as the first port's ranging measured them (R59). -/
def State.rangedOn (s : State) (p : Port) (r : Ranging) : Ranging :=
  if (s.portSt p).looped ∧ s.roGet (K.portFibreEndKind p) = 4 then
    { r with loopSeen := true, beyondRange := false, lastPosition := s.roGet (K.portFibreLength p), endReflectance := s.roInt (K.portFibreEndReflectance p) }
  else r

/-- DISCOVERY_RANGING_END: after 2.048 s, the profile phase; a loop gives the other port the hold reason LOOPED, its preamplifier pump off; what both report of it waits for the end of the
profile phase (R55, R57, R59). -/
def execDiscoveryRangingEnd (t : Tick) (p : Port) (r : Ranging) (s : State) : Out :=
  let s0 := s.at t
  if s0.phaseOver p .ranging 409600000 then
    let s1 := (s0.setPortSt p { s0.portSt p with found := some (s0.rangedOn p r) }).toPhase p .profile
    if r.loopSeen && !(s0.portSt p).looped then
      let q := p.other
      let s2 := s1.raise Ev.fibreLooped [u p.idx, u q.idx]
      let s3 := s2.setPortSt q { s2.portSt q with looped := true }
      .next ((s3.channelsOff [preOf q]).publishHold q)
    else
      .next s1
  else .next s0

/-- Write one event of the record. -/
def State.setEvent (s : State) (p : Port) (n : Nat) (e : FibreEvent) : State :=
  ((s.roSet (K.portFibreEventPosition p n) e.position).roSetInt (K.portFibreEventLoss p n) e.loss).roSetInt
    (K.portFibreEventReflectance p n) (e.reflectance.getD (-32768))

/-- Write the events of a record from number `n` on. -/
def State.setEvents (s : State) (p : Port) : List FibreEvent → Nat → State
  | [], _ => s
  | e :: rest, n => (s.setEvent p n e).setEvents p rest (n + 1)

/-- The record of a discovery (R56, R57): events, signature; the answer tells whether the fibre changed. -/
def State.publishRecord (s : State) (p : Port) (r : Ranging) : State × Bool :=
  let es := keptEvents r.events
  let all := (foundEvents r.events).length
  let s1 := (((s.setRanged p r).roSet (K.portFibreEventCount p) es.length).roSet (K.portFibreEventOverflow p) (b2n (decide (64 < all)))).setEvents p es 0
  let sgn := (Config.fibreSignature (rangedLength r / 100) (((byLoss es).take 3).map (fun e => e.position / 100))).toNat
  let isNew : Bool := !(s.portSt p).stored || decide (s.roGet (K.portFibreSignature p) ≠ sgn)
  ((s1.roSet (K.portFibreSignature p) sgn).roSet (K.portFibreDiscoveredAt p) (tsBits s.stamp), isNew)

/-- The highest gain step at which a predicted peak, given at step 0, stays at or below −6 dB re full scale; steps are 3 dB apart (R98). -/
def openingStep (peak : Nat) : Nat :=
  if peak = 0 then 7
  else (([7, 6, 5, 4, 3, 2, 1].find? (fun (n : Nat) => decide (scaledLog10 2000 peak 2048 + 300 * (n : Int) ≤ -600))).getD 0)

/-- The profile phase completes (R57, R58, R98; `winPeaks` the peak composite sample the profile predicts for each gain window at step 0): record, events, gain schedule, OVERLENGTH, launch power; the port enters BOUND. -/
def State.discoveryDone (s : State) (p : Port) (profile winPeaks : List Nat) : State :=
  match (s.portSt p).found with
  | none => s
  | some r =>
    let first : Bool := !(s.portSt p).stored
    let rec_ := s.publishRecord p r
    let s1 := rec_.1.raise Ev.discoveryDone [u p.idx, tsVal s.stamp]
    let s2 := if rec_.2 then s1.raise Ev.fibreChanged [u p.idx] else s1
    let set := (s2.cfg.act p).set
    let x := s2.portSt p
    let s3 := s2.setPortSt p { x with stored := true, fibreFound := true, found := none, profile := profile, darkNear := [], darkEnd := [],
                                      minPeriod := if first then max x.minPeriod 400000 else x.minPeriod }
    let s3 := if r.loopSeen ∧ (s3.portSt p).looped = false then s3.setRanged p.other r else s3
    let s4 := (s3.roSet (K.portFibreAutoPeriod p) (s3.ruleFor set p)).roSet (K.portDtsPointsLive p) (dtsPoints (rangedLength r))
    let far := s4.overlong set p
    let s5 := s4.setPortSt p { s4.portSt p with overlength := far }
    let s6 := if far then s5.raise Ev.fibreOverlength [u p.idx] else s5
    let s7 := if (s6.portSt p.other).looped ∧ r.loopSeen = false ∧ s6.roGet (K.portFibreEndKind p) ≠ 4 ∧ (s6.portSt p).looped = false
      then (s6.setPortSt p.other { s6.portSt p.other with looped := false }).publishHold p.other else s6
    let s8 := if s7.pP p (K.portRxGainMode p) = 0 then
        (List.range 64).foldl (fun st w => st.roSet (K.portRxGain p w) (openingStep (winPeaks.getD w 0))) s7
      else (List.range 64).foldl (fun st w => st.roSet (K.portRxGain p w) (st.pP p (K.portRxGainFixed p))) s7
    let s9 := s8.publishPower set p (s8.period p)
    ((s9.enterPort p 2).publishHold p).discoveryEnded p

/-- LAUNCH_CLAMP: modulator and boosters shut, the port in APR at once (R47, R53). DESIGN CHOICE (log entry 56): R47 has the port enter APR whenever the clamp trips, the table of R53 lists of
DISCOVERING the ramp and ranging phases only; the model enters APR in every phase of DISCOVERING. -/
def execLaunchClamp (t : Tick) (p : Port) (s : State) : Out :=
  let s0 := s.at t
  let st := s0.pState p
  if st = 1 ∨ st = 3 then .next ((s0.setClamp p true).enterApr p 2) else .next s0

/-- APR_HOLD_EXPIRY: the hold is over and a probe looked for backscatter (R53, R64). -/
def execAprHoldExpiry (t : Tick) (p : Port) (found : Bool) (s : State) : Out :=
  let s0 := s.at t
  let x := s0.portSt p
  if s0.pState p = 4 ∧ x.aprSince + s0.pP p (K.portAprHoldS p) * secondTicks ≤ s0.now ∧ s0.mayLaunch p then
    if found = false then .next (s0.leaveApr p false)
    else if (s0.pP p (K.portResume p) = 0 ∨ x.rediscover) ∧ s0.pState p.other ≠ 1 ∧ s0.afterA p = false then .next (s0.leaveApr p true)
    else .next s0
  else .next s0

end Sys2Proof.Machine
end

