-- ==== Sys2Proof/Machine/Digest.lean ====
section
/-! DEFINITION. Parameters as typed values, and the shared digest of a set (R318, R347). -/

namespace Sys2Proof.Machine

/-- The typed value of a parameter (R318, R324). -/
def paramVal (k : Key) (v : Nat) : Val :=
  match (rowAt k.row).kind with
  | .u64 => .u64 (BitVec.ofNat 64 v)
  | .s64 => .s64 (BitVec.ofInt 64 (asInt (rowAt k.row).width v))
  | .f32 => .f32 (BitVec.ofNat 32 v)
  | .ts96 => .ts96 (BitVec.ofNat 96 v)
  | .b128 => .b128 (BitVec.ofNat 128 v)

/-- A typed value as it goes into a message (R318). -/
def valBytes : Val → List Byte
  | .u64 v => 0 :: le 8 v.toNat
  | .s64 v => 1 :: le 8 v.toNat
  | .f32 v => 2 :: le 4 v.toNat
  | .ts96 v => 3 :: le 12 v.toNat
  | .b128 v => 4 :: le 16 v.toNat
  | .bytes v => 5 :: (le 2 v.length ++ v)

/-- The text a B128 parameter holds: its bytes up to the first zero (R347). -/
def textOf (v : Nat) : String :=
  String.ofList (((le 16 v).takeWhile (fun b => b != 0)).map (fun b => Char.ofNat b.toNat))

/-- The prefixes a set uses (R347). -/
def sharedPrefixes (set : PSet) : List String :=
  ((List.range 8).filter (fun n => set.get (K.ensShared n) != 0)).map (fun n => textOf (set.get (K.ensShared n)))

/-- The shared parameters of a set in tree order: RW ones under a used prefix, and ens.shared.0 to 7 (R347). -/
def sharedKeys (set : PSet) : List Key :=
  match sharedPrefixes set with
  | [] => (List.range 8).map K.ensShared
  | ps =>
    (treeOrder ((allKeysFrom paramRows 0).filter (fun k =>
      k.access == .rw && (k.row == (K.ensShared 0).row || ps.any (fun p => pathBegins p k.path))))).map (·.2)

/-- The shared digest of a set: CRC-64/ECMA-182 from an all-ones start over paths and values (R347). -/
def sharedDigest (set : PSet) : BitVec 64 :=
  BitVec.ofNat 64 (crcFeed 3 0xFFFFFFFFFFFFFFFF
    ((sharedKeys set).flatMap (fun k => str k.path ++ valBytes (paramVal k (set.get k)))))

end Sys2Proof.Machine
end

