-- ==== Sys2Proof/Machine/NcpCore.lean ====
section
/-! DEFINITION. How a request is served: message bytes, check values, the duplicate cache, answers and background work (R309 to R322, R335, R336). -/

namespace Sys2Proof.Machine

/-! ### Result codes (R336) -/

namespace E
def ok := 0x0000
def format := 0x0101
def check := 0x0102
def version := 0x0103
def command := 0x0104
def busy := 0x0105
def state := 0x0106
def stale := 0x0107
def reused := 0x0108
def path := 0x0201
def type_ := 0x0202
def range := 0x0203
def readonly := 0x0204
def draftChanged := 0x0205
def time := 0x0301
def seed := 0x0302
def schedule := 0x0303
def points := 0x0304
def ceiling := 0x0305
def linkRate := 0x0306
def stream := 0x0307
def dts := 0x0308
def frontEnd := 0x0309
def kernel := 0x030A
def trigger := 0x030B
def memory := 0x030C
def power := 0x030D
def ensemble := 0x030E
def notFound := 0x0401
def inUse := 0x0402
def releasing := 0x0403
def image := 0x0404
def persist := 0x0405
def prefill := 0x0406
def captureRefused := 0x0407
def notReady := 0x0408
def queueFull := 0x0409
def fwSequence := 0x0501
def fwSignature := 0x0502
def fwRollback := 0x0503
def fwActive := 0x0504
def fwFlash := 0x0505
end E

/-! ### Bytes of messages (R316, R318) -/

/-- A TS96 as it stands in a request. -/
def ts96Bytes (t : TS96) : List Byte := le 12 (TS96bits t)

/-- The header of a request of a command code (R316). Its reserved bits stand in the check value and nowhere else (R10). -/
def hdrBytes (h : Hdr) (code : Nat) : List Byte :=
  le 2 0x434E ++ le 1 h.version ++ le 1 h.kind ++ le 2 code ++ le 2 (2 * b2n h.draft + 8 * h.rsv) ++ le 8 h.client.toNat ++ le 4 h.request.toNat ++
  le 3 0 ++ le 1 h.rsvHigh ++ le 4 0 ++
  le 4 h.bodyLen

/-- A whole request. -/
def hdrMessage (h : Hdr) (code : Nat) (body : List Byte) : List Byte := hdrBytes h code ++ body ++ le 4 h.check.toNat

/-- The check value of a request holds (R317); HELLO's prefix carries a module ID of zeros. -/
def State.checkOk (s : State) (h : Hdr) (code : Nat) (body : List Byte) : Bool :=
  decide (checkValue (if code = 1 then 0 else s.moduleId) 0xFF h.request.toNat (hdrBytes h code ++ body) = h.check)

/-- The bytes of a response as a pair sends it (R316, R317). -/
def Resp.bytes (r : Resp) (moduleId : BitVec 64) (pair : Nat) (dup : Bool) : List Byte :=
  let m := le 2 0x434E ++ le 1 1 ++ le 1 1 ++ le 2 r.command ++ le 2 (b2n dup + 4 * b2n r.more) ++ le 8 r.client.toNat ++ le 4 r.request.toNat ++ le 2 r.result ++
    le 1 pair ++ le 1 0 ++ le 4 r.epoch ++ le 4 r.body.length ++ r.body
  m ++ le 4 (checkValue moduleId 0xFF r.request.toNat m).toNat

/-- The body of a notification (R333). -/
def noteBody (code severity : Nat) (time : Stamp) (args : List Val) : List Byte :=
  le 2 code ++ le 1 severity ++ le 1 args.length ++ tsBytes time ++ args.flatMap valBytes

/-- The bytes of a notification. -/
def noteBytes (moduleId : BitVec 64) (pair request epoch : Nat) (body : List Byte) : List Byte :=
  let m := le 2 0x434E ++ le 1 1 ++ le 1 2 ++ le 2 0xFFFF ++ le 2 0 ++ le 8 0 ++ le 4 request ++ le 2 0 ++ le 1 pair ++ le 1 0 ++ le 4 epoch ++
    le 4 body.length ++ body
  m ++ le 4 (checkValue moduleId 0xFF request m).toNat

/-- The bytes of an outbound message of a pair. -/
def OutMsg.bytes (moduleId : BitVec 64) (pair : Nat) : OutMsg → List Byte
  | .resp r dup => r.bytes moduleId pair dup
  | .note e => noteBytes moduleId pair e.seq e.epoch (noteBody e.code e.severity e.time e.args)
  | .lost time epoch first count => noteBytes moduleId pair first epoch (noteBody Ev.eventLost 1 time [u first, u count])

/-! ### Answers -/

/-- What executing a request gives: a body with its more flag, an error with its body's index and paths, or work that completes later. -/
inductive Answer where
  | ok (body : List Byte) (more : Bool)
  | err (code index : Nat) (path path2 : String)
  | later (work : JobWork)
  deriving DecidableEq, Repr

/-- An error that names no entry. -/
def Answer.fail (code : Nat) : Answer := .err code 0xFFFF "" ""
/-- An empty body. -/
def Answer.done : Answer := .ok [] false

/-- The error body (R318). -/
def errorBody (index : Nat) (path path2 : String) : List Byte := le 2 index ++ str path ++ str path2

/-- The response to a request. -/
def State.respond (s : State) (code : Nat) (h : Hdr) (result : Nat) (more : Bool) (body : List Byte) : Resp :=
  { command := code, client := h.client, request := h.request, result := result, more := more, epoch := s.roGet K.sysEpoch, body := body }

/-- Put something in a session's order and let its messages go out. -/
def State.hold (s : State) (n : Nat) (x : Held) : State :=
  let y := s.pair n
  if y.open_ then (s.setPair n { y with held := y.held ++ [x] }).pump n else s

/-- Answer an error that is not cached. -/
def State.refuse (s : State) (code : Nat) (h : Hdr) (result : Nat) : State :=
  s.hold h.pair (.ready (s.respond code h result false (errorBody 0xFFFF "" "")) false)

/-! ### The duplicate cache (R319 to R322) -/

/-- The entry a client has. -/
def State.dupClient (s : State) (c : BitVec 64) : Option DupClient := s.dup.find? (fun d => d.client == c)

/-- `a` lies in the window of `newest`. -/
def inWindow (newest a : BitVec 32) : Bool := decide ((newest - a).toNat < 64)
/-- `a` is newer than `b` (R132). -/
def newerReq (a b : BitVec 32) : Bool := let d := (a - b).toNat; decide (1 ≤ d) && decide (d ≤ 2147483647)

/-- Remember a request that was executed: its client enters, the oldest leaving where 16 are held; the window moves with a newer number. -/
def State.remember (s : State) (h : Hdr) (resp : Option Resp) (job : Nat) : State :=
  let e : DupEntry := ⟨h.request, h.check, resp, job⟩
  let last := s.requests + 1
  let others := s.dup.filter (fun d => !(d.client == h.client))
  let mine : DupClient := match s.dupClient h.client with
    | some d =>
      let top := if newerReq h.request d.newest then h.request else d.newest
      { d with newest := top, entries := (e :: d.entries).filter (fun x => inWindow top x.request), last := last }
    | none => { client := h.client, newest := h.request, entries := [e], last := last }
  let kept := if (s.dupClient h.client).isNone ∧ 16 ≤ others.length then
      (match others.foldl (fun (m : Option DupClient) d => match m with
        | none => some d
        | some x => if d.last < x.last then some d else some x) none with
       | some old => others.filter (fun d => !(d.client == old.client))
       | none => others)
    else others
  ({ s with dup := mine :: kept, requests := last }).roSet K.ncpClients (kept.length + 1)

/-- A request of a client in the cache that is not executed still counts as its last. -/
def State.touchClient (s : State) (c : BitVec 64) : State :=
  { s with requests := s.requests + 1, dup := s.dup.map (fun d => if d.client = c then { d with last := s.requests + 1 } else d) }

/-! ### Serving (R310, R311, R317, R319, R320) -/

/-- NCP is served on a pair: in the states of R310; in the boot ROM's recovery, and with no root PLL, on the SPI port only (R374). -/
def State.servedOn (s : State) (pair : Nat) : Bool :=
  if s.mode = .boot then s.power.recovery && pair == 0
  else s.mode.served && !(s.mode == .fault && s.power.bootFail == 3 && pair != 0)

/-- The commands recovery serves (R374): HELLO, PING, STATE_GET, FW_BEGIN, FW_WRITE, FW_FINISH, FW_ACTIVATE. -/
def recoveryServes (code : Nat) : Bool := [0x0001, 0x0002, 0x0080, 0x0060, 0x0061, 0x0062, 0x0063].contains code

/-- A request reaches the module: NCP is served, its session is open; on pair 0 it is the oldest message of the SPI port's inbound mailbox. -/
def State.reaches (s : State) (h : Hdr) (code : Nat) (body : List Byte) : Bool :=
  s.servedOn h.pair && (s.pair h.pair).open_ && decide (h.pair ≤ 6) && (h.pair != 0 || s.spi.inbox.head? == some (hdrMessage h code body))

/-- The session has a request: its time, and its first client. -/
def State.sessionUse (s : State) (h : Hdr) : State :=
  let x := s.pair h.pair
  let s1 := s.setPair h.pair { x with lastAt := s.now, client := if x.client = 0 then h.client else x.client }
  if h.pair = 0 then { s1 with spi := { s1.spi with inbox := s1.spi.inbox.drop 1 } } else s1

/-- Responses of a session that wait behind background work, as requests not yet answered (R311). -/
def Session.waiting (x : Session) : Nat := x.held.length

/-- Execute a request and answer it. -/
def State.execute (s : State) (code : Nat) (h : Hdr) (run : State → State × Answer) : State :=
  let r := run s
  match r.2 with
  | .ok body more =>
    let resp := r.1.respond code h E.ok more body
    (r.1.remember h (some resp) 0).hold h.pair (.ready resp false)
  | .err result index path path2 =>
    let resp := r.1.respond code h result false (errorBody index path path2)
    (if result = E.busy then r.1.touchClient h.client else r.1.remember h (some resp) 0).hold h.pair (.ready resp false)
  | .later work =>
    let id := r.1.nextJob + 1
    let s1 : State := { r.1 with jobs := r.1.jobs ++ [⟨id, code, h.client, h.request, work⟩], nextJob := id }
    (s1.remember h none id).hold h.pair (.job id false)

/-- A request arrives and is treated: check value, client, duplicate cache, room, version and type, then execution (R311, R316 to R320). -/
def State.serveNcp (s : State) (code : Nat) (h : Hdr) (body : List Byte) (run : State → State × Answer) : State :=
  let s0 := s.at h.at_
  if s0.reaches h code body = false then s0
  else
    let s1 := s0.sessionUse h
    if s1.checkOk h code body = false then (s1.bump K.ncpCheckErrors 1).refuse code h E.check
    else if h.client = 0 then s1.refuse code h E.format
    else
      let run1 : State → State × Answer := fun st =>
        if h.version ≠ 1 then (st, Answer.fail E.version)
        else if h.kind ≠ 0 ∨ h.bodyLen ≠ body.length then (st, Answer.fail E.format)
        else if s1.mode = .boot ∧ recoveryServes code = false then (st, Answer.fail E.state)
        else run st
      let fresh := if 8 ≤ (s1.pair h.pair).waiting then s1.refuse code h E.busy else s1.execute code h run1
      match s1.dupClient h.client with
      | none => fresh
      | some d =>
        if inWindow d.newest h.request then
          match d.entries.find? (fun e => e.request == h.request) with
          | some e =>
            let s2 := s1.touchClient h.client
            if e.check ≠ h.check then s2.refuse code h E.reused
            else match e.resp with
              | some r => s2.hold h.pair (.ready r true)
              | none => s2.hold h.pair (.job e.job true)
          | none => fresh
        else if newerReq h.request d.newest then fresh
        else (s1.touchClient h.client).refuse code h E.stale

/-- A request whose execution never fails to find its state. -/
def request (code : Nat) (h : Hdr) (body : List Byte) (run : State → State × Answer) (s : State) : Out := .next (s.serveNcp code h body run)

/-! ### Background work (R311) -/

/-- A job's response takes its place wherever a session waits for it. -/
def Session.resolve (x : Session) (id : Nat) (r : Resp) : Session :=
  { x with held := x.held.map (fun y => match y with
    | .job n d => if n = id then .ready r d else y
    | _ => y) }

/-- A job is answered: the cache holds its response, every session that waits for it gets it. -/
def State.answerJob (s : State) (j : Job) (result : Nat) (body : List Byte) : State :=
  let r : Resp := { command := j.command, client := j.client, request := j.request, result := result, more := false, epoch := s.roGet K.sysEpoch, body := body }
  let s1 : State := { s with jobs := s.jobs.filter (fun x => !(x.id == j.id)),
                             dup := s.dup.map (fun d => if d.client = j.client then
                               { d with entries := d.entries.map (fun e => if e.job = j.id ∧ e.resp = none then { e with resp := some r } else e) } else d),
                             sess := s.sess.map (fun x => x.resolve j.id r) }
  [0, 1, 2, 3, 4, 5, 6].foldl (fun st n => st.pump n) s1

/-! ### Pages and rings -/

/-- As many leading items as fit in `room` bytes. -/
def takeFit : Nat → List (List Byte) → List (List Byte)
  | _, [] => []
  | room, x :: rest => if x.length ≤ room then x :: takeFit (room - x.length) rest else []

/-- A list answer from a cursor (R335): next cursor, count, items; the cursor is an index into the list (log entry 19). -/
def page (items : List (List Byte)) (cursor : Nat) : Answer :=
  if items.length < cursor then Answer.fail E.format
  else
    let part := takeFit 65530 (items.drop cursor)
    let next := cursor + part.length
    let end_ : Nat := if next < items.length then next else 0
    .ok (le 4 end_ ++ le 2 part.length ++ part.flatten) (decide (end_ ≠ 0))

/-- A read of a ring (R427): the oldest index held, the next index, the entries from the oldest, the index asked for, the most to give, and bytes of room. -/
def ringRead (oldest next : Nat) (entries : List (List Byte)) (start max_ : Nat) : Answer :=
  let span := (next + 4294967296 - oldest) % 4294967296
  let d := (start + 4294967296 - oldest) % 4294967296
  let behind : Bool := decide (2147483648 ≤ d) || decide (span < d)
  let ahead : Bool := decide (span ≤ d) && decide ((start + 4294967296 - next) % 4294967296 < 2147483648)
  if ahead then .ok (le 4 next ++ le 4 next ++ le 2 0 ++ le 2 0) false
  else
    let skip := if behind then 0 else d
    let part := takeFit 65524 ((entries.drop skip).take max_)
    let first := (oldest + skip) % 4294967296
    .ok (le 4 first ++ le 4 ((first + part.length) % 4294967296) ++ le 2 part.length ++ le 2 0 ++ part.flatten) false

end Sys2Proof.Machine
end

