-- ==== Sys2Proof/Machine/EnsCore.lean ====
section
/-! DEFINITION. Ensembles: the member table, statuses, peer messages, joining and leaving (R341 to R347). -/

namespace Sys2Proof.Machine

/-- Change the ensemble record. -/
def State.withEns (s : State) (e : Ensemble) : State := { s with ens := e }

/-- The ensemble the module belongs to, 0 for none (R341). -/
def State.ensId (s : State) : Nat := s.pG K.ensId

/-- The running firmware's major and minor version. -/
def State.ownMajor (s : State) : Nat :=
  (match s.fw.running with
   | .a => s.fw.a.version
   | .b => s.fw.b.version) % 256
/-- The minor version. -/
def State.ownMinor (s : State) : Nat :=
  (match s.fw.running with
   | .a => s.fw.a.version
   | .b => s.fw.b.version) / 256 % 256

/-- A member by its module ID. -/
def State.member (s : State) (id : BitVec 64) : Option Member := s.ens.members.find? (fun m => m.id == id)

/-- Replace a member. -/
def State.setMember (s : State) (x : Member) : State :=
  s.withEns { s.ens with members := s.ens.members.map (fun m => if m.id = x.id then x else m) }

/-- Insert a member in ascending order of module ID. -/
def insertMember (x : Member) : List Member → List Member
  | [] => [x]
  | m :: ms => if x.id.toNat < m.id.toNat then x :: m :: ms else m :: insertMember x ms

/-- Insert a module ID in ascending order. -/
def insertId (x : BitVec 64) : List (BitVec 64) → List (BitVec 64)
  | [] => [x]
  | m :: ms => if x.toNat < m.toNat then x :: m :: ms else m :: insertId x ms

/-- The member table, the module itself included, in ascending order (R341). -/
def State.tableIds (s : State) : List (BitVec 64) := insertId s.moduleId (s.ens.members.map (·.id))

/-- A member is not ABSENT. -/
def Member.here (m : Member) : Bool := m.absent.isNone

/-! ### ens.major and status (R345, R346) -/

/-- The version most of a list share, the lower in a tie. -/
def majority (vs : List Nat) : Nat :=
  vs.foldl (fun best v =>
    let n := vs.count v
    let b := vs.count best
    if b < n ∨ (b = n ∧ v < best) then v else best) (vs.headD 0)

/-- The firmware majors of the members that are not ABSENT, the module's own first. -/
def State.majors (s : State) : List Nat :=
  s.ownMajor :: (s.ens.members.filter Member.here).filterMap (fun m => m.hb.map (·.fwMajor))

/-- The newest ensemble epoch known, and the digest of its commit: the module's own commit of that epoch, else what a member of that epoch reports. None before any
ensemble commit. -/
def State.newestEns (s : State) : Option (Nat × BitVec 64) :=
  let hbs := s.ens.members.filterMap (·.hb)
  let top := maxN (s.roGet K.ensEpoch :: hbs.map (·.ensEpoch))
  if top = 0 then none
  else match s.ens.newest with
    | some (e, d) => if e = top then some (e, d) else (hbs.find? (fun h => h.ensEpoch == top)).map (fun h => (top, h.digest))
    | none => (hbs.find? (fun h => h.ensEpoch == top)).map (fun h => (top, h.digest))

/-- The first status of R345 that applies. -/
def statusOf (absent : Bool) (major ensMajor state : Nat) (digest : BitVec 64) (ensEpoch : Nat) (newest : Option (Nat × BitVec 64)) : Nat :=
  if absent then 5
  else if major ≠ ensMajor then 2
  else if state = 7 then 4
  else if state = 5 then 3
  else match newest with
    | some (e, d) => if digest ≠ d ∨ ensEpoch < e then 1 else 0
    | none => 0

/-- A member's status now. -/
def Member.statusNow (m : Member) (ensMajor : Nat) (newest : Option (Nat × BitVec 64)) : Nat :=
  match m.hb with
  | some h => statusOf m.absent.isSome h.fwMajor ensMajor h.state h.digest h.ensEpoch newest
  | none => 5

/-- The statuses in which a member counts as lost to its bus group: ABSENT, FAULTED, DEGRADED (R354). -/
def lostStatus (v : Nat) : Bool := v == 3 || v == 4 || v == 5

/-- Every change of a status: the event, and EV_ENS_BUS where a bus group's master is lost. -/
def State.statusChange (s : State) (id : BitVec 64) (old new : Nat) : State :=
  if old = new then s
  else
    let s1 := s.raise Ev.ensMember [.u64 id, u old, u new]
    if lostStatus new && !lostStatus old then
      (s1.ens.masters.filter (fun e => e.2 == id)).foldl (fun st e => st.raise Ev.ensBus [u e.1, .u64 id]) s1
    else s1

/-- ens.major, ens.members and every status afresh, with their events in table order. -/
def State.ensRefresh (s : State) : State :=
  if s.ensId = 0 then s
  else
    let major := majority s.majors
    let newest := s.newestEns
    let own := statusOf false s.ownMajor major s.mode.code (sharedDigest s.cfg.live) (s.roGet K.ensEpoch) newest
    let old := s.roGet K.ensStatus
    let before := s.ens.members
    let s1 := ((s.roSet K.ensMajor major).roSet K.ensMembers (before.length + 1)).roSet K.ensStatus own
    let s2 := s1.withEns { s1.ens with members := before.map (fun m => { m with status := m.statusNow major newest }) }
    let changes := s.tableIds.map (fun id =>
      if id = s.moduleId then (id, old, own)
      else match before.find? (fun m => m.id == id) with
        | some m => (id, m.status, m.statusNow major newest)
        | none => (id, 0, 0))
    changes.foldl (fun st e => st.statusChange e.1 e.2.1 e.2.2) s2

/-! ### Peer messages (R343) -/

/-- A peer message in the layout of R316 on mailbox pair 7, its check value over the ensemble ID and 0xFE. -/
def State.peerMessage (s : State) (ens : Nat) (code : Nat) (body : List Byte) : List Byte :=
  let m := le 2 0x434E ++ le 1 1 ++ le 1 0 ++ le 2 code ++ le 2 0 ++ le 8 s.moduleId.toNat ++ le 4 0 ++ le 2 0 ++ le 1 7 ++ le 1 0 ++ le 4 (s.roGet K.sysEpoch) ++
    le 4 body.length ++ body
  m ++ le 4 (checkValue (BitVec.ofNat 64 ens) 0xFE 0 m).toNat

/-- A TCP connection to a peer is in use (R343). -/
def State.useConn (s : State) (id : BitVec 64) : State :=
  s.withEns { s.ens with conns := (id, s.now) :: s.ens.conns.filter (fun e => !(e.1 == id)) }

/-- Send a message to a peer over TCP. -/
def State.sendPeer (s : State) (id : BitVec 64) (code : Nat) (body : List Byte) : State :=
  (s.emit (.peer none id code (s.peerMessage s.ensId code body))).useConn id

/-- The body of a heartbeat (R343). -/
def State.heartbeatBody (s : State) : List Byte :=
  le 8 s.moduleId.toNat ++ le 8 s.ensId ++ le 1 s.ownMajor ++ le 1 s.ownMinor ++ le 1 s.mode.code ++ le 4 (s.roGet K.sysEpoch) ++ le 4 (s.roGet K.ensEpoch) ++
  le 8 (sharedDigest s.cfg.live).toNat ++ le 1 (s.pG K.ensBusGroup) ++ le 1 (s.roGet K.timebaseQuality) ++ le 8 (Config.tableDigest s.tableIds).toNat

/-- The network ports whose link is up. -/
def State.linksUp (s : State) : List Port :=
  ports.filter (fun p => match p with
    | .a => s.sig.linkA.up
    | .b => s.sig.linkB.up)

/-- A heartbeat to one peer, on each network port whose link is up; its check value under an ensemble ID. -/
def State.beat (s : State) (ens : Nat) (id : BitVec 64) : State :=
  s.linksUp.foldl (fun st p => st.emit (.peer (some p) id 0xF0 (s.peerMessage ens 0xF0 s.heartbeatBody))) s

/-- Send a peer the member table. -/
def State.sendTable (s : State) (id : BitVec 64) : State :=
  let ids := s.tableIds
  s.sendPeer id 0xF2 (le 1 ids.length ++ ids.flatMap (fun x => le 8 x.toNat))

/-- Contact a module: it is shown the table and a heartbeat, so that it can answer with its own (R342). -/
def State.contact (s : State) (id : BitVec 64) : State := (s.sendTable id).beat s.ensId id

/-- Peer traffic is served: the module belongs to an ensemble, in the states of R344. -/
def State.peersServed (s : State) : Bool := s.mode.served && decide (s.ensId ≠ 0)

/-- Something was heard from a member (R344). -/
def State.heardFrom (s : State) (id : BitVec 64) : State :=
  match s.member id with
  | none => s
  | some m => (s.setMember { m with heard := s.now, heardAt := s.stamp, absent := none }).ensRefresh

/-- A request of a peer on mailbox pair 7 (R343, R357): one whose check fails is discarded; the answer goes back over the same connection. -/
def State.servePeer (s : State) (code : Nat) (h : Hdr) (body : List Byte) (run : State → State × Answer) : State :=
  let s0 := s.at h.at_
  if s0.peersServed = false ∨ checkValue (BitVec.ofNat 64 s0.ensId) 0xFE h.request.toNat (hdrBytes h code ++ body) ≠ h.check then s0
  else
    let r := run (s0.heardFrom h.client)
    match r.2 with
    | .ok b _ => r.1.sendPeer h.client code (le 2 E.ok ++ b)
    | .err result index path path2 => r.1.sendPeer h.client code (le 2 result ++ errorBody index path path2)
    | .later _ => r.1

/-! ### Joining and leaving (R344) -/

/-- ens.* at F: a changed ens.id leaves the old ensemble with one last heartbeat that carries the new ID, and begins a table of its own. -/
def State.ensAtF (s : State) (old : PSet) : State :=
  let was := old.get K.ensId
  if was = s.ensId then s.ensRefresh
  else
    let s1 := s.ens.members.foldl (fun st m => st.beat was m.id) s
    let s2 : State := { s1 with ens := { Ensemble.reset with count := s.ens.count, closed := s.ens.closed, voted := s.ens.voted, newest := s.ens.newest },
                                cfg := { s1.cfg with frozen := false }, time := { s1.time with ensSuspect := false } }
    let s3 := ((((s2.roSet K.ensMajor 0).roSet K.ensMembers 0).roSet K.ensStatus 0).roSet K.ensTimeNear 0)
    let s4 := if s3.roGet K.ensTxnState = 1 then s3.roSet K.ensTxnState 3 else s3
    let s5 := if s4.roGet K.ensTimeState = 0 then s4 else (s4.roSet K.ensTimeState 0).raise Ev.ensTime [u 0, sv (s4.roInt K.ensTimeDeviation), u 0]
    (s5.judgeTime).ensRefresh

end Sys2Proof.Machine
end

