-- ==== Sys2Proof/Machine/FrontEnd.lean ====
section
/-! DEFINITION. The reference sensor front end and the housekeeping converter (chapter 07). -/

namespace Sys2Proof.Machine

/-- Change the front end. -/
def State.withFront (s : State) (f : Front) : State := { s with front := f }
/-- One channel. -/
def State.feCh (s : State) (n : Nat) : FeCh := s.front.chans.getD n FeCh.idle
/-- Replace it. -/
def State.setFeCh (s : State) (n : Nat) (x : FeCh) : State := s.withFront { s.front with chans := s.front.chans.set n x }
/-- A measurement field in force on a channel. -/
def FeCh.par (x : FeCh) (k : Key) : Nat := x.set.get k

/-- The front end runs in READY and RUNNING (R163). -/
def State.feRuns (s : State) : Bool := s.mode == .ready || s.mode == .running

/-- The enabled channels under the values of F, in order; 4 to 6 always (R162). -/
def State.feEnabled (s : State) : List Nat :=
  (List.range 10).filter (fun n => (decide (4 ≤ n) && decide (n ≤ 6)) || s.pG (K.feChEnable n) == 1)

/-- The decimation N of an oversampling code (R166). -/
def osrN (code : Nat) : Nat := if code = 0 then 625 else if code = 1 then 3125 else if code = 2 then 15625 else 312500
/-- The window in ticks: 256 × N. -/
def windowTicks (code : Nat) : Nat := 256 * osrN code
/-- The length of a slot under a set (R164). -/
def slotTicks (set : PSet) (n : Nat) : Nat := set.get (K.feChSettle n) + windowTicks (set.get (K.feChOsr n)) + 10000
/-- The natural length of a scan of some channels. -/
def scanTicks (set : PSet) (ns : List Nat) : Nat := sumN (ns.map (slotTicks set))

/-- The front end starts at READY entry: the reference powers up, filters restart, the first scan begins at once (R163, R171). -/
def State.feStart (s : State) : State :=
  s.withFront { s.front with chans := s.front.chans.map (fun x => { x with hist := [], outputs := 0, accepted := true, scanned := false, excited := false, lastRef := none, tripOpen := false, tripShort := false }),
                             order := [], scanning := false, nextScan := s.now, slot := none, upSince := s.now, extSince := none, scan := [], period := s.pG K.feScanPeriodMs }

/-! ### REF blocks (R179) -/

/-- One record with its offset from t0 in µs. -/
def refRecord (r : List Byte × Stamp) (t0 : Stamp) : List Byte := r.1 ++ le 3 ((r.2 - t0) / 65536000).toNat

/-- Close a stream's REF block: one tile. -/
def State.refClose (s : State) (sid : Nat) : State :=
  let b := s.front.blocks.getD sid RefBlock.empty
  if b.scans = 0 then s
  else
    let x := s.stream sid
    let t := wholeTileRef x.counter b x.bank.epoch
    let s1 := s.withFront { s.front with blocks := s.front.blocks.set sid RefBlock.empty }
    (s1.enqueue sid 4 [t]).settle sid
where
  /-- The tile of a REF block. -/
  wholeTileRef (block : Nat) (b : RefBlock) (epoch : Nat) : Tile :=
    { kind := 4, port := 0xFF, unsettled := 0, stitched := false, dark := false, saturated := false, suspect := false, gap := false, thinned := false,
      lastTile := true, index := 0, total := 1, epoch := epoch, block := block, t0 := b.t0, interval := min b.interval 4294967295, firstPoint := 0,
      points := b.channels, samples := b.scans, format := 0x12, filter := 0, decimation := 0, filterDelay := 0,
      payload := b.recs.flatMap (fun r => refRecord r b.t0), lastInput := (b.recs.getLast?.map (·.2)).getD b.t0, rough := b.unsettled }

/-- Close every REF block: the enabled set changes, or the front end stops (R142, R179). -/
def State.refCloseAll (s : State) : State := (List.range 16).foldl (fun st n => st.refClose n) s

/-- The front end stops: excitation off, no result (R163). -/
def State.feStop (s : State) : State :=
  let s1 := s.refCloseAll
  { s1 with front := { s1.front with chans := s1.front.chans.map (fun x => { x with excited := false }), scanning := false, order := [], slot := none, scan := [] }, raman := { s1.raman with dacFe := false } }

/-- A scan has ended: its records join the block of every REF stream. -/
def State.scanDone (s : State) : State :=
  let f := s.front
  let live := s.roGet K.feScanPeriodLive
  (List.range 16).foldl (fun st sid =>
    let x := st.stream sid
    if !(enabledKind x.bank.set sid 4) then st
    else
      let b0 := st.front.blocks.getD sid RefBlock.empty
      let far : Bool := decide (b0.scans ≠ 0) && f.scan.any (fun r => decide (16777216 ≤ (r.2 - b0.t0) / 65536000))
      let st1 := if far then st.refClose sid else st
      let b1 := st1.front.blocks.getD sid RefBlock.empty
      let b2 : RefBlock := if b1.scans = 0 then ⟨f.scanStamp, live, 0, [], false, f.enabled.length⟩ else b1
      let b3 := { b2 with scans := b2.scans + 1, recs := b2.recs ++ f.scan, unsettled := b2.unsettled || f.scanUnsettled }
      let st2 := st1.withFront { st1.front with blocks := st1.front.blocks.set sid b3 }
      if (st2.stream sid).par (K.streamTileSamples sid) ≤ b3.scans then st2.refClose sid else st2) s

/-! ### The scan (R164, R165) -/

/-- The next scan start after a tick: at once, or the next whole multiple of the period in force in TAI (R164, R165). -/
def State.scanAfter (s : State) : Tick :=
  let ms := s.front.period
  if ms = 0 then s.now
  else
    let g : Int := ms * 65536000000
    s.tickOfStamp ((s.stamp + g - 1) / g * g)

/-- FE_SCAN_START: the enabled channels, in ascending order; a change of the set closes REF blocks (R164, R165, R179). -/
def execFeScanStart (t : Tick) (s : State) : Out :=
  let s0 := s.at t
  if !(s0.feRuns) || s0.front.scanning || decide (s0.now < s0.front.nextScan) then .next s0
  else
    let en := s0.feEnabled
    let s1 := if en ≠ s0.front.enabled then s0.refCloseAll else s0
    let ms := s1.pG K.feScanPeriodMs
    let chans := (List.range 10).map (fun n => let x := s1.feCh n; if en.contains n then x else { x with scanned := false, excited := false, tripOpen := false, tripShort := false })
    let s2 := s1.withFront { s1.front with chans := chans, order := en, enabled := en, scanning := true, scanStart := s1.now, scanStamp := s1.stamp,
                                           scan := [], scanUnsettled := false, period := ms }
    .next (s2.roSet K.feScanPeriodLive (if ms = 0 then scanTicks s2.cfg.actG.set en else ms * msTicks))

/-- The fields whose new value restarts the running filter (R171). -/
def filterFields (n : Nat) : List Key :=
  [K.feChExcitation n, K.feChExcLevel n, K.feChExcGating n, K.feChReference n, K.feChGain n, K.feChOsr n, K.feChSettle n, K.feChFilter n]

/-- fe.test substitutes a channel: target 0 is channel 9, 1 to 4 are channels 0 to 3 (R177). -/
def State.testTarget (s : State) (n : Nat) : Bool :=
  s.pG K.feTestEnable == 1 && (if s.pG K.feTestTarget = 0 then n == 9 else n + 1 == s.pG K.feTestTarget)

/-- FE_SLOT_START: the channel's fields and epoch load, its excitation goes on, its filter restarts where a field changed, and a test slot claims the DAC (R164, R165, R171,
R177). -/
def execFeSlotStart (t : Tick) (ch : Nat) (s : State) : Out :=
  let s0 := s.at t
  if !(s0.feRuns) || !(s0.front.scanning) || decide (s0.front.order.head? ≠ some ch) || s0.front.slot.isSome then .next s0
  else
    let x := s0.feCh ch
    let new := s0.cfg.actG.set
    let restart : Bool := !x.scanned || (filterFields ch).any (fun k => decide (x.set.get k ≠ new.get k))
    let ref := new.get (K.feChReference ch)
    let open_ := s0.now + new.get (K.feChSettle ch)
    let want := s0.testTarget ch
    let busy : Bool := decide (s0.now < s0.raman.dacRaman)
    let testing := want && !busy
    let ext := if ref = 1 then some (s0.front.extSince.getD s0.now) else s0.front.extSince
    let excChanged : Bool := x.scanned && [K.feChExcitation ch, K.feChExcLevel ch, K.feChExcGating ch].any (fun k => decide (x.set.get k ≠ new.get k))
    let settling : Bool :=
      (decide (open_ < s0.now + 400000) && ((x.lastRef.isSome && decide (x.lastRef ≠ some ref)) || (ref == 2 && excChanged)))
      || (ext.map (fun e => decide (open_ < e + 400000))).getD false || decide (open_ < s0.front.upSince + 10000000)
    let y := { x with set := new, epoch := s0.cfg.actG.epoch, hist := if restart then [] else x.hist, outputs := if restart then 0 else x.outputs,
                      lastRef := some ref, scanned := true, excited := new.get (K.feChExcitation ch) != 0 }
    let s1 := (s0.setFeCh ch y).withFront
      { (s0.setFeCh ch y).front with slot := some ⟨ch, s0.now, testing, settling, none⟩, extSince := ext, order := s0.front.order.drop 1 }
    let s2 : State := if testing then { s1 with raman := { s1.raman with dacFe := true } } else s1
    .next (if want && busy then s2.bump K.feTestSkipped 1 else s2)

/-! ### Conversion (R166 to R168) -/

/-- raw = round(x × gain × 2²³), limited. -/
def rawOf (num : Int) (den gainCode : Nat) : Int := clampInt (-8388607) 8388607 (roundDiv (num * 2 ^ (23 + gainCode)) den)

/-- |x × gain| exceeds 1.05. -/
def overRange (num : Int) (den gainCode : Nat) : Bool := decide (105 * den < 100 * num.natAbs * 2 ^ gainCode)

/-- The reference of a channel left its limits (R168). -/
def refOutside (reference low high : Nat) : Bool :=
  if reference = 1 then decide (low < 1000000) || decide (5250000 < high) else if reference = 2 then decide (low < 100000) else false

/-- FE_WINDOW_END: the conversion of the integration window. -/
def execFeWindowEnd (t : Tick) (ch : Nat) (obs : FeObs) (s : State) : Out :=
  let s0 := s.at t
  match s0.front.slot with
  | some sl =>
    let x := s0.feCh ch
    let g := x.par (K.feChGain ch)
    if sl.ch = ch ∧ sl.conv = none ∧ sl.start + x.par (K.feChSettle ch) + windowTicks (x.par (K.feChOsr ch)) ≤ s0.now then
      let conv : FeConv := { raw := rawOf obs.num (max 1 obs.den) g, overrange := overRange obs.num (max 1 obs.den) g || obs.fullScale,
                             refFault := refOutside (x.par (K.feChReference ch)) obs.refLow obs.refHigh, parityOk := obs.parityOk, end_ := s0.stamp, endTick := s0.now }
      .next (s0.withFront { s0.front with slot := some { sl with conv := some conv } })
    else .next s0
  | none => .next s0

/-! ### Linearisation (R174, R175) -/

/-- One binary32 addition. -/
def f32Add (a b : Nat) : Nat := f32Round (f32D a + f32D b)
/-- One binary32 multiplication. -/
def f32Mul (a b : Nat) : Nat := f32Round (f32D a * f32D b)

/-- Horner's rule in x over the coefficients of one j, highest first. -/
def horner (x : Nat) : List Nat → Nat → Nat
  | [], acc => acc
  | c :: cs, acc => horner x cs (f32Add (f32Mul acc x) c)

/-- Coefficient c.i.j of a channel: the factory's where the channel measures a temperature of the module (R162, R175). -/
def linCoef (set : PSet) (n i j : Nat) : Nat := if 4 ≤ n ∧ n ≤ 6 then (Config.feFactory n i j).toNat else set.get (K.feChLinC n i j)

/-- y for x and t in binary32 (R174). -/
def linearise (set : PSet) (n x t : Nat) : Nat :=
  let y := fun j => horner x ([5, 4, 3, 2, 1, 0].map (fun i => linCoef set n i j)) 0
  f32Add (f32Add (y 0) (f32Mul (y 1) t)) (f32Mul (f32Mul (y 2) t) t)

/-- The t of linearisation and whether it is held (R175). -/
def State.blockT (s : State) : Nat × Bool :=
  match s.front.tLast with
  | none => (0x41C80000, true)
  | some (v, at_) => (v, decide (at_ + 10 * secondTicks < s.now))

/-! ### Results (R170 to R173, R176) -/

/-- The length M of a running filter. -/
def filterM (code : Nat) : Nat := if code = 0 then 1 else if code = 1 then 4 else if code = 2 then 16 else 64

/-- The mean of the filter's conversions, rounded. -/
def filterOut (l : List Int) : Int := if l = [] then 0 else roundDiv (sumZ l) l.length

/-- A result word (R172). -/
def resultWord (raw : Int) (isOpen unsettled refSettling overrange refFault test tHeld short : Bool) : Nat :=
  (raw % 16777216).toNat * 256 + b2n isOpen + 2 * b2n unsettled + 4 * b2n refSettling + 8 * b2n overrange + 16 * b2n refFault + 32 * b2n test +
  64 * b2n tHeld + 128 * b2n short

/-- None of open, short, overrange, ref_fault, test, unsettled and ref_settling is set (R173). -/
def resultValid (w : Nat) : Bool := w % 64 == 0 && !(bitOf w 7)

/-- The reference voltage in µV a channel's ratio stands on; none for EXTERNAL, whose voltage the module does not report (R168). -/
def refMicro (x : FeCh) (n : Nat) : Option Nat :=
  match x.par (K.feChReference n) with
  | 0 => some 2500000
  | 1 => none
  | _ => if x.par (K.feChExcitation n) = 1 then some (x.par (K.feChExcLevel n) * 2500) else some (x.par (K.feChExcLevel n) * 1000)

/-- fe.test.error: measured minus set level in µV (R177); free where the reference is external. -/
def State.testError (s : State) (n : Nat) (raw : Int) : State :=
  let x := s.feCh n
  let set : Int := roundDiv ((s.pG K.feTestLevel * 2500000 : Nat) : Int) 4096
  match refMicro x n with
  | some v => s.roSetInt K.feTestError (roundDiv (raw * v) (2 ^ (23 + x.par (K.feChGain n))) - set)
  | none => (s.roSet K.feTestError (s.freeVal 32)).drawn

/-- Events and counts of a break (R176): the first flagged result, and the first afterwards that is neither. -/
def State.breakEvents (s : State) (n : Nat) (isOpen short : Bool) : State :=
  let x := s.feCh n
  if isOpen || short then
    let s1 := s.bump (K.feChOpenCount n) 1
    if x.broken then s1 else (s1.setFeCh n { x with broken := true }).raise (if isOpen then Ev.feOpen else Ev.feShort) [u n]
  else if x.broken then (s.setFeCh n { x with broken := false }).raise Ev.feRestored [u n]
  else s

/-- What a slot's conversion comes to (R170 to R176): its channel's record, the result word and value, the lines found open, and the flags that stop a number. -/
structure FeResult where
  chan : FeCh
  word : Nat
  value : Nat
  lines : Nat
  isOpen : Bool
  short : Bool
  unsettled : Bool
  deriving DecidableEq, Repr

/-- The result of a conversion. `broken` names the lines of [4:1] the sense-difference check found broken. -/
def State.feResult (s : State) (ch : Nat) (sl : FeSlot) (cv : FeConv) (broken : Nat) : FeResult :=
  let x := s.feCh ch
  let ext : Bool := decide (ch ≤ 3)
  let lines := if ext && x.par (K.feChLeadCheck ch) == 1 && x.excited then broken / 2 % 16 * 2 else 0
  let isOpen := x.tripOpen || decide (lines ≠ 0)
  let test := sl.testing && ext
  let accepted : Bool := !isOpen && !x.tripShort && !cv.overrange && !cv.refFault && !test && cv.parityOk
  let m := filterM (x.par (K.feChFilter ch))
  let anew := accepted && !x.accepted
  let hist := if accepted then (cv.raw :: (if anew then [] else x.hist)).take m else x.hist
  let outs := if accepted then (if anew then 0 else x.outputs) + 1 else x.outputs
  let unsettled : Bool := decide ((if accepted then outs else x.outputs + 1) < m)
  let noNumber : Bool := isOpen || x.tripShort || cv.refFault || test
  let raw : Int := if noNumber then -8388608 else if cv.overrange then cv.raw else if accepted then filterOut hist
    else if x.hist = [] then cv.raw else filterOut x.hist
  { chan := { x with hist := hist, outputs := outs, accepted := accepted, tripOpen := false, tripShort := false, excited := x.excited && x.par (K.feChExcGating ch) == 0 },
    word := resultWord raw isOpen unsettled sl.refSettling cv.overrange cv.refFault test s.blockT.2 x.tripShort,
    value := if noNumber then 0x7FC00000 else linearise x.set ch (f32Round (mkRat raw (2 ^ (23 + x.par (K.feChGain ch))))) s.blockT.1,
    lines := lines + b2n x.tripOpen, isOpen := isOpen, short := x.tripShort, unsettled := unsettled }

/-- A result is published: its registers, a break's events, the test's error, the coil temperature, and its record in the scan (R172, R176, R177, R179). -/
def State.fePublish (s : State) (ch : Nat) (sl : FeSlot) (cv : FeConv) (r : FeResult) : State :=
  let s1 := (((s.setFeCh ch r.chan).roSet (K.feChResult ch) r.word).roSet (K.feChValue ch) r.value).roSet (K.feChTime ch) (tsBits cv.end_)
  let s2 := (s1.roSet (K.feChOpenLines ch) r.lines).breakEvents ch r.isOpen r.short
  let s3 := if sl.testing then s2.testError ch cv.raw else s2
  let s4 := if ch = 4 then s3.roSet (K.opticalCoilTemperature .a) r.value else if ch = 5 then s3.roSet (K.opticalCoilTemperature .b) r.value else s3
  let s5 := s4.withFront { s4.front with slot := none, scan := s4.front.scan ++ [(le 4 r.word ++ le 4 r.value ++ le 4 r.chan.epoch ++ le 1 ch, cv.end_)],
                                         scanUnsettled := s4.front.scanUnsettled || r.unsettled,
                                         tLast := if ch = 6 ∧ resultValid r.word then some (r.value, s4.now) else s4.front.tLast }
  let s6 : State := if sl.testing then { s5 with raman := { s5.raman with dacFe := false } } else s5
  s6.dtsReading ch (if resultValid r.word then some (f32D r.value) else none)

/-- The last slot of a scan ends it (R164). -/
def State.feScanEnd (s : State) : State :=
  if s.front.order = [] then
    let s1 := s.scanDone
    s1.withFront { s1.front with scanning := false, nextScan := s1.scanAfter }
  else s

/-- FE_RESULT_PUBLISH: at the end of the check interval. -/
def execFeResultPublish (t : Tick) (ch : Nat) (broken : Nat) (s : State) : Out :=
  let s0 := s.at t
  match s0.front.slot with
  | none => .next s0
  | some sl =>
    match sl.conv with
    | none => .next s0
    | some cv =>
      if sl.ch ≠ ch ∨ s0.now < cv.endTick + 10000 then .next s0
      else .next (s0.fePublish ch sl cv (s0.feResult ch sl cv broken)).feScanEnd

/-- FE_COMPLIANCE_TRIP: a force-line comparator trips while a channel's excitation is on; it flags the slot's result, or latches for the next (R176). -/
def execFeComplianceTrip (t : Tick) (ch : Nat) (trip : Trip) (s : State) : Out :=
  let s0 := s.at t
  let x := s0.feCh ch
  if s0.feRuns = false ∨ x.excited = false ∨ 4 ≤ ch then .next s0
  else
    let mode := x.par (K.feChExcitation ch)
    match trip with
    | .excHigh => .next (if mode = 1 then s0.setFeCh ch { x with tripOpen := true } else s0)
    | .currentLow => .next (if mode = 2 then s0.setFeCh ch { x with tripOpen := true } else s0)
    | .currentLimit => .next (if mode = 2 then s0.setFeCh ch { x with tripShort := true } else s0)

/-! ### Housekeeping (R50, R144, R178) -/

/-- The case temperature in 0.01 °C: the higher of the two case sensors. -/
def State.caseCenti (s : State) : Int :=
  let c := fun n => let r := f32D (s.roGet (K.hkChValue n)) * 100; roundDiv r.num r.den
  max (c 9) (c 10)

/-- The interval of a housekeeping channel in ticks (R178). -/
def hkInterval (n : Nat) : Nat := if n = 4 ∨ n = 5 then 10 * msTicks else if n = 6 ∨ n = 7 ∨ n = 8 ∨ n = 11 ∨ n = 12 then 100 * msTicks else if n = 15 then 10000 * msTicks else 1000 * msTicks

/-- One reading. -/
def State.hkRead (s : State) (r : HkReading) : State :=
  let v := (Config.hkValue r.channel r.raw).toNat
  let s1 := (s.roSet (K.hkChRaw r.channel) r.raw).roSet (K.hkChValue r.channel) v
  let s2 := s1.withFront { s1.front with hkAt := s1.front.hkAt.set r.channel s1.now, hkNext := s1.front.hkNext.set r.channel (s1.now / msTicks * msTicks + hkInterval r.channel) }
  let therm := fun (p : Port) (anti : Bool) =>
    let d := s2.dts p
    s2.setDts p (if anti then { d with thermAs := ((r.raw, s2.now) :: d.thermAs).take 2 } else { d with thermS := ((r.raw, s2.now) :: d.thermS).take 2 })
  match r.channel with
  | 0 => therm .a true
  | 1 => therm .a false
  | 2 => therm .b true
  | 3 => therm .b false
  | 5 => let x := f32D v * 1000; s2.roSet K.powerHoldVoltage (roundDiv x.num x.den).toNat
  | 15 => if r.raw < 2040 ∨ 2056 < r.raw then s2.raise Ev.hkFault [u r.raw] else s2
  | _ => s2

/-- Each coil's oven against the case temperature (R50). -/
def State.coilFlags (s : State) : State :=
  s.eachPort (fun st p =>
    st.roSet (K.opticalCoilUnregulated p) (b2n (decide ((st.pI p K.opticalCoilSetpoint : Int) - 500 < st.caseCenti))))

/-- A reading of a channel is due: its interval has passed. In SAVE the save sequence alone asks, for the HOLD voltage (log entry 68). -/
def State.hkDue (s : State) (n : Nat) : Bool := decide (n < 16) && decide (s.front.hkNext.getD n 0 ≤ s.now) && (s.mode != .save || n == 5)

/-- HK_BURST: the readings due in one 1 ms slot; it runs in every state but OFF and GEODE (R178). -/
def execHkBurst (t : Tick) (readings : List HkReading) (s : State) : Out :=
  let s0 := s.at t
  if s0.mode = .off ∨ s0.mode = .geode then .next s0
  else
    let s1 := readings.foldl (fun st r => if st.hkDue r.channel then st.hkRead r else st) s0
    let s2 := if readings.any (fun r => r.channel == 9 || r.channel == 10) then
        let c := s1.caseCenti
        (s1.roSet K.powerCaseC (f32Round (mkRat c 100))).coilFlags
      else s1
    .next s2

end Sys2Proof.Machine
end

