-- ==== Sys2Proof/Machine/Memory.lean ====
section
/-! DEFINITION. The memory subsystem: address maps, scheduling, refresh, errors, migration, training, self-refresh (R247 to R271). -/

namespace Sys2Proof.Machine

/-! ### Parts -/

/-- Replace the memory subsystem. -/
def State.withMem (s : State) (m : MemSt) : State := { s with mem := m }
/-- A QoS port. -/
def State.qos (s : State) (p : Nat) : QosPort := s.mem.ports.getD p ⟨[], 0, 0, 0⟩
/-- Replace a QoS port. -/
def State.setQos (s : State) (p : Nat) (x : QosPort) : State := s.withMem { s.mem with ports := s.mem.ports.set p x }
/-- A physical rank. -/
def State.rank (s : State) (r : Nat) : MemRank := s.mem.ranks.getD r MemRank.reset
/-- Replace a physical rank. -/
def State.setRank (s : State) (r : Nat) (x : MemRank) : State := s.withMem { s.mem with ranks := s.mem.ranks.set r x }
/-- A bank of a rank. -/
def MemRank.bank (x : MemRank) (b : Nat) : MemBank := x.banks.getD b MemBank.reset
/-- The tick of a controller clock of 1.25 ns. -/
def clockTick (c : Nat) : Tick := c / 4

/-! ### Addresses (R249, R250) -/

/-- The orders of R249. -/
inductive MapOrder where
  | linear
  | interleave
  | hashed
  deriving DecidableEq, Repr

/-- The order of the region that holds an address: the regions of P1 and P2 are hashed. The free region, which no port uses, is taken as interleaved (log entry 17). -/
def orderOf (a : Nat) : MapOrder := if 0x80000000 ≤ a ∧ a < 0x300000000 then .hashed else .interleave

/-- `n` bits of an address from bit `lo`. -/
def addrBits (a lo n : Nat) : Nat := a / 2 ^ lo % 2 ^ n

/-- Where an address lies: logical rank, bank (bank group × 4 + bank in group), row, column. -/
structure MemPlace where
  rank : Nat
  bank : Nat
  row : Nat
  column : Nat
  deriving DecidableEq, Repr

/-- The assignment of R249 under an order. -/
def placeIn (o : MapOrder) (a : Nat) : MemPlace :=
  match o with
  | .linear => ⟨addrBits a 34 2, addrBits a 14 2 * 4 + addrBits a 16 2, addrBits a 18 16, addrBits a 8 6⟩
  | .interleave => ⟨addrBits a 18 2, addrBits a 8 2 * 4 + addrBits a 16 2, addrBits a 20 16, addrBits a 10 6⟩
  | .hashed =>
    ⟨Nat.xor (Nat.xor (addrBits a 18 2) (addrBits a 24 2)) (addrBits a 32 2),
     Nat.xor (Nat.xor (addrBits a 8 2) (addrBits a 20 2)) (addrBits a 28 2) * 4 + Nat.xor (Nat.xor (addrBits a 16 2) (addrBits a 22 2)) (addrBits a 30 2),
     addrBits a 20 16, addrBits a 10 6⟩

/-- Where a logical address lies. -/
def placeOf (a : Nat) : MemPlace := placeIn (orderOf a) a

/-- The offset of an address within its logical rank, in logical address order. -/
def rankOffset (a : Nat) : Nat := a / 2 ^ 20 * 2 ^ 18 + a % 2 ^ 18

/-! ### Migration (R266, R267) -/

/-- Ticks the copy of 16 GiB takes at 8.6 GB/s, rounded up: 17 179 869 184 / 43 bytes a tick. -/
def copyTicks : Nat := 399531842

/-- Ticks copied so far. -/
def Migration.elapsed (m : Migration) (now : Tick) : Nat :=
  min copyTicks (m.copied + match m.since with
    | none => 0
    | some a => now - a)

/-- The copy pointer, in units of 2 KiB: 43 bytes a tick. -/
def Migration.pointer (m : Migration) (now : Tick) : Nat := if m.elapsed now = copyTicks then 8388608 else m.elapsed now * 43 / 2048

/-- mem.migration.progress: the pointer in 2⁻¹⁶ of the rank. -/
def State.migrationProgress (s : State) : Nat :=
  match s.mem.migration with
  | none => 0
  | some m => min 65535 (m.pointer s.now / 128)

/-- The unit at the pointer waits for its copy (R266). -/
def State.inCopy (s : State) (a : Nat) : Bool :=
  match s.mem.migration with
  | none => false
  | some m => m.since.isSome && (placeOf a).rank == m.logical && rankOffset a / 2048 == m.pointer s.now

/-- The physical ranks that serve a request (R248, R266): reads below the pointer the new rank, writes below it both, everything else the rank of the table. -/
def State.servers (s : State) (a : Nat) (write : Bool) : List Nat :=
  let l := (placeOf a).rank
  let old := s.mem.table.getD l 0
  match s.mem.migration with
  | none => [old]
  | some m => if m.logical = l ∧ m.verified ∧ rankOffset a / 2048 < m.pointer s.now then (if write then [m.new, m.old] else [m.new]) else [old]

/-- Publish the roles and logical numbers of the ranks (R248, R266, R267): 0 ACTIVE, 1 SPARE, 2 MIGRATING_FROM, 3 MIGRATING_TO, 4 RETIRED; spare_state 0 READY, 1 IN_USE, 2 NONE. -/
def State.publishRanks (s : State) : State :=
  let m := s.mem
  let active := fun (r : Nat) => m.table.contains r
  let spare := (List.range 5).any (fun r => !active r && !m.retired.contains r)
  let role := fun (r : Nat) =>
    match m.migration with
    | some g => if r = g.old then 2 else if r = g.new then 3 else if active r then 0 else if m.retired.contains r then 4 else 1
    | none => if active r then 0 else if m.retired.contains r then 4 else 1
  let s1 := (List.range 5).foldl (fun st r =>
    (st.roSet (K.memRankRole r) (role r)).roSet (K.memRankLogical r) (if active r then m.table.idxOf r else 0)) s
  s1.roSet K.memSpareState (if m.migration.isSome then 1 else if spare then 0 else 2)

/-- The spare that waits, none while it is in use, under test results or retired. -/
def State.spareRank (s : State) : Option Nat :=
  if s.mem.migration.isSome then none else (List.range 5).find? (fun r => !s.mem.table.contains r && !s.mem.retired.contains r)

/-- Migration of a rank begins: the spare leaves self-refresh to be verified; a spare test in progress ends (R266). -/
def State.startMigration (s : State) (old spare : Nat) : State :=
  let g : Migration := { old := old, new := spare, logical := s.mem.table.idxOf old, copied := 0, since := none, verified := false }
  ((s.withMem { s.mem with migration := some g, spareTest := none }).setRank spare { s.rank spare with selfRefresh := false }).publishRanks

/-- The migration is abandoned: the old rank is complete, the spare is retired (R271). -/
def State.abandonMigration (s : State) : State :=
  match s.mem.migration with
  | none => s
  | some g =>
    (((s.withMem { s.mem with migration := none, retired := g.new :: s.mem.retired }).setRank g.new { s.rank g.new with selfRefresh := true }).publishRanks).raise
      Ev.memNoSpare [u g.new]

/-! ### Errors (R264, R265) -/

/-- A device is known to be faulty. -/
def State.isFaulty (s : State) (r d : Nat) : Bool := s.mem.faulty.contains (r, d)

/-- A device becomes FAULTY (R265): recorded, raised, and its rank migrates, or has no spare; the spare of a migration abandons it (R266, R268, R271). -/
def State.deviceFaulty (s : State) (r d : Nat) : State :=
  if s.isFaulty r d then s
  else
    let s1 := (((s.withMem { s.mem with faulty := s.mem.faulty ++ [(r, d)] }).roSet (K.memRankDeviceState r d) 2).raise Ev.memDeviceFault [u r, u d])
    match s1.mem.migration with
    | some g =>
      if r = g.new then s1.abandonMigration
      else if r = g.old then s1
      else if s1.mem.table.contains r then s1.raise Ev.memNoSpare [u r] else s1
    | none =>
      if s1.mem.table.contains r then
        (match s1.spareRank with
         | some sp => s1.startMigration r sp
         | none => s1.raise Ev.memNoSpare [u r])
      else if s1.mem.retired.contains r then s1
      else ((s1.withMem { s1.mem with retired := r :: s1.mem.retired, spareTest := none }).publishRanks).raise Ev.memNoSpare [u r]

/-- Corrected errors of a device within 24 h. -/
def State.recentErrors (s : State) (r d : Nat) : Nat :=
  (s.mem.errors.filter (fun e => e.1 == r && e.2.1 == d && decide (s.now < e.2.2 + 86400 * secondTicks))).length

/-- A corrected error is attributed (R265). `recurs` tells that it stood in a burst just written back. -/
def State.attribute (s : State) (r d lanes : Nat) (recurs : Bool) : State :=
  let kept := s.mem.errors.filter (fun e => decide (s.now < e.2.2 + 86400 * secondTicks))
  let s1 := (s.withMem { s.mem with errors := (r, d, s.now) :: kept }).bump (K.memRankDeviceCorrected r d) 1
  let n := s1.recentErrors r d
  if recurs ∨ 256 < n ∨ 4 ≤ lanes then s1.deviceFaulty r d
  else if 16 ≤ n ∧ s1.roGet (K.memRankDeviceState r d) = 0 then s1.roSet (K.memRankDeviceState r d) 1
  else s1

/-! ### Poisoned data (R264). Which element of a port's data a burst holds is the memory layout, which the spec does not give: a fresh value chooses it (log entry 18). -/

/-- One of `n` things, by a fresh value. -/
def State.pick (s : State) (n : Nat) : Nat := s.freeVal 32 % max 1 n

/-- Words from `at_` on become INVALID, as many as a burst holds. -/
def poisonWords (at_ : Nat) (ws : List (Option Int)) : List (Option Int) :=
  ws.take at_ ++ ((ws.drop at_).take 64).map (fun _ => none) ++ ws.drop (at_ + 64)

/-- The k-th trace of some tiles holds the poisoned words. -/
def poisonTiles (at_ : Nat) : Nat → List CornerTile → List CornerTile
  | _, [] => []
  | k, y :: rest =>
    if k < y.traces.length then { y with traces := modAt (fun tr => { tr with words := poisonWords at_ tr.words }) k y.traces } :: rest
    else y :: poisonTiles at_ (k - y.traces.length) rest

/-- P1: strain words of the corner-turn buffer become INVALID, or decimation state is zeroed for its points. -/
def State.poisonP1 (s : State) : State :=
  let p := Port.ofIdx (s.pick 2)
  let s1 := s.drawn
  let c := s1.coh p
  let k := s1.pick (sumN (c.corner.map (·.traces.length)))
  let s2 := s1.drawn
  let at_ := s2.pick (((c.corner.flatMap (·.traces))[k]?.map (·.words.length)).getD 0) / 64 * 64
  let s3 := s2.drawn
  let state_ : Bool := s3.freeVal 1 == 1
  let s4 := s3.drawn
  if state_ then
    let n := s4.pick 16
    let s5 := s4.drawn
    let x := s5.stream n
    s5.setStream n { x with rows := x.rows.map (fun r => { r with values := r.values.take at_ ++ ((r.values.drop at_).take 64).map (fun _ => some 0) ++ r.values.drop (at_ + 64) }) }
  else s4.setCoh p { c with corner := poisonTiles at_ k c.corner }

/-- The DMA channels reading DRAM: core and descriptor. -/
def State.dmaReads (s : State) : List (Nat × BDma) :=
  (List.range 34).flatMap (fun c => ((s.core c).dma.filterMap id).filter (fun d => decide (d.op ≤ 1)) |>.map (fun d => (c, d)))

/-- P2: BRICK_IN delivers INVALID words; SCRATCH_IN faults its core with cause DMA (R215). -/
def State.poisonP2 (s : State) : State :=
  let ds := s.dmaReads
  match ds[s.pick ds.length]? with
  | none => s.drawn
  | some (c, d) =>
    let s1 := s.drawn
    if d.op = 1 then s1.coreFault c 4
    else
      let i := (s1.core c).inst.getD 0
      let x := s1.inst i
      let at_ := s1.freeVal 32
      s1.drawn.setInst i { x with tile := x.tile.map (fun t =>
        { t with traces := t.traces.map (fun tr => if tr.index = t.k * t.tdec + d.first then { tr with words := poisonWords (at_ % max 1 tr.words.length / 64 * 64) tr.words } else tr) }) }

/-- P3: the record that holds the burst is lost to extraction; a stored record is missing to derivations. -/
def State.poisonP3 (s : State) (a : Nat) : State :=
  if 0x300000000 ≤ a ∧ a < 0x300000000 + s.pG K.strataSizeGib * 2 ^ 30 then
    let off := a - 0x300000000
    { s with trig := { s.trig with ring := s.trig.ring.map (fun r => if overlaps r.addr r.len off 256 then { r with header := none } else r) } }
  else
    let all := s.trig.captures.flatMap (fun c => c.records.map (fun r => (c.number, r.port, r.launch)))
    match all[s.pick all.length]? with
    | none => s.drawn
    | some e => s.drawn.withMem { s.mem with poisonedRecs := e :: s.mem.poisonedRecs }

/-- P4: the tile a retransmission was to send is reported GONE (R138). -/
def State.poisonP4 (s : State) : State :=
  let all := (List.range 16).flatMap (fun n => (s.stream n).retx.map (fun r => (n, r)))
  match all[s.pick all.length]? with
  | none => s.drawn
  | some (n, r) =>
    let x := s.stream n
    let s1 := s.drawn.setStream n { x with held := x.held.filter (fun h => !(h.seq == r.seq)), retx := x.retx.filter (fun q => !(q.seq == r.seq)) }
    (List.range 4).foldl (fun st m => st.gone n m ((x.retx.filter (fun q => q.dest.sub == m && q.seq == r.seq && st.asks n q)).map (·.seq))) s1

/-- P5: the firmware reads the other copy and rewrites the poisoned one from it. -/
def State.poisonP5 (s : State) (a : Nat) : State :=
  if s.mem.poison.contains (Nat.xor a (2 ^ 19)) then s else s.withMem { s.mem with poison := s.mem.poison.filter (fun b => !(b == a)) }

/-- A poisoned burst is delivered to a port. -/
def State.deliverPoison (s : State) (port a : Nat) : State :=
  match port with
  | 1 => s.poisonP1
  | 2 => s.poisonP2
  | 3 => s.poisonP3 a
  | 4 => s.poisonP4
  | 5 => s.poisonP5 a
  | _ => s

/-- A read is found uncorrectable: counted, rewritten with the poison pattern, raised, delivered (R264). -/
def State.uncorrectable (s : State) (port a : Nat) : State :=
  (((s.withMem { s.mem with poison := a :: s.mem.poison }).bump K.memUncorrectable 1).raise Ev.memUncorrectable [u a, u port]).deliverPoison port a

/-- A read of the burst at `a` on a physical rank (R264, R265). -/
def State.readBurst (s : State) (port a r : Nat) (ecc : EccObs) : State :=
  if s.mem.poison.contains a then s.deliverPoison port a
  else
    let recurs := s.mem.recheck.contains a
    let s1 := s.withMem { s.mem with recheck := s.mem.recheck.filter (fun b => !(b == a)) }
    match ecc with
    | .clean => s1
    | .uncorrectable => s1.uncorrectable port a
    | .corrected d lanes =>
      if s1.mem.faulty.any (fun e => e.1 == r && !(e.2 == d)) then s1.uncorrectable port a
      else
        let s2 := s1.attribute r d lanes recurs
        if s2.mem.writeBacks.any (fun e => e.1 == a) then s2
        else s2.withMem { s2.mem with writeBacks := s2.mem.writeBacks ++ [(a, s2.now + 2000)] }

/-- A write of the burst at `a`: it is poisoned no more, and no write-back of it is due. -/
def State.writeBurst (s : State) (a : Nat) : State :=
  s.withMem { s.mem with poison := s.mem.poison.filter (fun b => !(b == a)), writeBacks := s.mem.writeBacks.filter (fun e => !(e.1 == a)),
                         recheck := s.mem.recheck.filter (fun b => !(b == a)) }

/-! ### Queues and urgency (R252 to R254) -/

/-- FIFO of a port in bytes. -/
def fifoSize (p : Nat) : Nat := [262144, 524288, 131072, 65536, 65536, 16384, 32768].getD p 0
/-- Run cap of a port in bytes. -/
def runCap (p : Nat) : Nat := if p = 0 ∨ p = 6 then 2048 else 1024
/-- Latency target of a port in clocks of 1.25 ns. -/
def latencyTarget (p : Nat) : Nat := [1600, 3200, 3200, 16000, 8000, 4000, 40000].getD p 0
/-- Base urgency of P1 to P6. -/
def baseUrgency (p : Nat) : Nat := [0, 1, 1, 0, 1, 1, 0].getD p 0
/-- Budget of P1 to P6 in a window of 10 µs, in bytes (R27, R254). -/
def State.budget (s : State) (p : Nat) : Nat :=
  if p = 6 ∧ s.mem.migration.isSome then 172000 else [64000, 136000, 69000, 40000, 25000, 2000, 100].getD p 0

/-- Bytes waiting in a port's FIFO. -/
def QosPort.fill (x : QosPort) : Nat := sumN (x.fifo.map (fun r => r.req.bytes))

/-- What its age adds to a request's urgency. -/
def ageRise (port clock arrived : Nat) : Nat :=
  if latencyTarget port ≤ clock - arrived then 2 else if latencyTarget port ≤ 2 * (clock - arrived) then 1 else 0

/-- The rise of every request of a port by its age at a clock. -/
def State.ageRequests (s : State) (p clock : Nat) : State :=
  let x := s.qos p
  s.setQos p { x with fifo := x.fifo.map (fun r => { r with rise := max r.rise (ageRise p clock r.req.arrived) }) }

/-- Urgency of the request at the head of a port. -/
def State.urgency (s : State) (p : Nat) (r : MemReq) : Nat :=
  let x := s.qos p
  if p = 0 then (if x.fill < 32768 then 1 else if x.fill < 65536 then 2 else 3)
  else min 3 ((if s.budget p < x.meter then 0 else baseUrgency p) + r.rise)

/-- A request enters its FIFO where there is room for it (R261 treats the trace whose words find none). -/
def State.arrive (s : State) (r : DramReq) : State :=
  let x := s.qos r.port
  if fifoSize r.port < x.fill + r.bytes then s
  else
    let y : QosPort := { x with fifo := x.fifo ++ [⟨r, 0⟩] }
    s.setQos r.port { y with peak := max y.peak y.fill }

/-- Some queued request goes to a bank of a physical rank. -/
def State.bankWanted (s : State) (r b : Nat) : Bool :=
  s.mem.ports.any (fun x => x.fifo.any (fun q => (placeOf q.req.address).bank == b && (s.servers q.req.address q.req.write).contains r))

/-- A request could go now: no refresh and no tracking window holds its banks, and its unit is not being copied. -/
def State.canGo (s : State) (clock : Nat) (q : MemReq) : Bool :=
  let pl := placeOf q.req.address
  !s.inCopy q.req.address &&
  (s.servers q.req.address q.req.write).all (fun r => decide (((s.rank r).bank pl.bank).busy ≤ clock) && !(s.rank r).selfRefresh)

/-! ### Refresh (R257 to R259) -/

/-- A rank takes refreshes: active or under migration, not in self-refresh. -/
def State.refreshed (s : State) (r : Nat) : Bool := s.mem.table.contains r && !(s.rank r).selfRefresh || (match s.mem.migration with
  | some g => g.new == r && !(s.rank r).selfRefresh
  | none => false)

/-- Issue a refresh to the bank next in the rotation: it is held for 140 ns, its row closed, and the debt falls by 1. -/
def MemRank.refresh (x : MemRank) (clock : Nat) : MemRank :=
  { x with banks := modAt (fun b => { b with row := none, busy := clock + 112 }) x.rotation x.banks, rotation := (x.rotation + 1) % 16, debt := x.debt - 1 }

/-- The debt reaches 8: refresh wins until it is 4. -/
def MemRank.judgeDebt (x : MemRank) : MemRank :=
  { x with forcing := if 8 ≤ x.debt then true else if x.debt ≤ 4 then false else x.forcing }

/-- A rank with a forced refresh due: at most one every 90 ns. -/
def State.forcedDue (s : State) (clock : Nat) : Option Nat :=
  (List.range 5).find? (fun r => s.refreshed r && (s.rank r).forcing && (match (s.rank r).lastForced with
    | none => true
    | some c => decide (c + 72 ≤ clock)))

/-- A forced refresh. -/
def State.forceRefresh (s : State) (r clock : Nat) : State :=
  (s.setRank r ({ (s.rank r).refresh clock with lastForced := some clock }).judgeDebt).bump (K.memRankForcedRefresh r) 1

/-- Due refreshes whose bank nobody wants are issued; with no debt an idle bank may be refreshed early, as a fresh value chooses, to −8 (R258). -/
def State.easyRefresh (s : State) (r clock : Nat) : State :=
  let x := s.rank r
  if !s.refreshed r || s.bankWanted r x.rotation || decide (clock < (x.bank x.rotation).busy) then s
  else if 0 < x.debt then s.setRank r (x.refresh clock).judgeDebt
  else if -8 < x.debt then (if s.freeVal 1 = 1 then (s.drawn).setRank r (x.refresh clock) else s.drawn)
  else s

/-! ### Choosing and serving (R255, R256) -/

/-- The candidate of a port: its head request, where it can go. -/
def State.candidate (s : State) (clock p : Nat) : Option MemReq :=
  match (s.qos p).fifo with
  | [] => none
  | q :: _ => if s.canGo clock q then some q else none

/-- The row of a request is open. -/
def State.rowHit (s : State) (q : MemReq) : Bool :=
  let pl := placeOf q.req.address
  (s.servers q.req.address q.req.write).all (fun r => ((s.rank r).bank pl.bank).row == some pl.row)

/-- R255, rules 2 to 6: `a` goes before `b`, which comes from a higher-numbered port. -/
def State.goesFirst (s : State) (pa : Nat) (a : MemReq) (pb : Nat) (b : MemReq) : Bool :=
  let ua := s.urgency pa a
  let ub := s.urgency pb b
  let keep := decide (s.mem.runLength < 4)
  let sameA := keep && a.req.write == s.mem.write
  let sameB := keep && b.req.write == s.mem.write
  if ua ≠ ub then decide (ub < ua)
  else if s.rowHit a ≠ s.rowHit b then s.rowHit a
  else if sameA ≠ sameB then sameA
  else decide (a.req.arrived ≤ b.req.arrived)

/-- The port the scheduler serves. -/
def State.choose (s : State) (clock : Nat) : Option Nat :=
  (List.range 7).foldl (fun best p =>
    match s.candidate clock p with
    | none => best
    | some q =>
      match best with
      | none => some p
      | some b =>
        match s.candidate clock b with
        | none => some p
        | some qb => if s.goesFirst b qb p q then some b else some p) none

/-- An access to a bank (R256): hit, miss or empty moves the predictor, which then decides whether the row stays open. -/
def MemBank.access (x : MemBank) (row clock : Nat) : MemBank :=
  let pred := match x.row with
    | none => x.pred
    | some r => if r = row then min 3 (x.pred + 1) else x.pred - 1
  { x with pred := pred, row := if 2 ≤ pred then some row else none, lastUse := clock }

/-- A burst on a physical rank. -/
def State.touchRank (s : State) (a clock r : Nat) : State :=
  let x := s.rank r
  let pl := placeOf a
  let b := x.bank pl.bank
  s.setRank r { x with banks := x.banks.set pl.bank (b.access pl.row clock), accesses := x.accesses + 1, hits := x.hits + b2n (b.row == some pl.row), burstEnd := clock + 2 }

/-- The direction of the last burst and how many ran in it. -/
def MemSt.noteDirection (m : MemSt) (write : Bool) : MemSt :=
  if m.write = write then { m with runLength := m.runLength + 1 } else { m with write := write, runLength := 1 }

/-- The head request of a port takes the bus. -/
def State.serve (s : State) (p clock : Nat) (ecc : EccObs) : State :=
  let x := s.qos p
  match x.fifo with
  | [] => s
  | q :: rest =>
    let a := q.req.address / 256 * 256
    let phys := s.servers a q.req.write
    let s1 := s.setQos p { x with fifo := rest, meter := x.meter + q.req.bytes, latency := max x.latency (clock + 2 - q.req.arrived) }
    let s2 := s1.bump (K.memPortBytes p) q.req.bytes
    let s3 := phys.foldl (fun st r => st.touchRank a clock r) s2
    let bytes := match s.mem.run with
      | some r => if r.port = p then r.bytes + q.req.bytes else q.req.bytes
      | none => q.req.bytes
    let s4 := s3.withMem { (s3.mem.noteDirection q.req.write) with run := if bytes < runCap p then some ⟨p, bytes⟩ else none }
    if q.req.write then s4.writeBurst a else s4.readBurst p a (phys.headD 0) ecc

/-- Latencies, fills and hit shares of a second that has ended are published (R252, R256). -/
def State.memSecond (s : State) : State :=
  let sec := s.now / secondTicks
  if sec = s.mem.second then s
  else
    let s1 := (List.range 7).foldl (fun st p =>
      let x := st.qos p
      ((st.roSet (K.memPortLatencyMax p) (x.latency * 5 / 4)).roSet (K.memPortFifoPeak p) (min x.peak 1048575)).setQos p { x with latency := 0, peak := x.fill }) s
    let s2 := (List.range 5).foldl (fun st r =>
      let x := st.rank r
      (st.roSet (K.memRankHitRatio r) (fraction16 x.hits x.accesses)).setRank r { x with hits := 0, accesses := 0 }) s1
    s2.withMem { s2.mem with second := sec }

/-! The commands of the controller act while its domain runs (R24). -/

/-- DRAM_BURST_BOUNDARY (R255): requests arrive; a run in progress goes on within its cap; else a forced refresh goes first; else due refreshes whose banks are free are issued and the
first request by R255 is served. -/
def execDramBurstBoundary (clock : Nat) (arrivals : List DramReq) (ecc : EccObs) (s : State) : Out :=
  if s.power.clocks.dram = false then .next (s.at (clockTick clock))
  else
  let s0 := (s.at (clockTick clock)).memSecond
  let s1 := arrivals.foldl State.arrive s0
  let s2 := (List.range 7).foldl (fun st p => st.ageRequests p clock) s1
  let goesOn : Option Nat := match s2.mem.run with
    | some r => (match s2.candidate clock r.port with
      | some q => if r.bytes + q.req.bytes ≤ runCap r.port then some r.port else none
      | none => none)
    | none => none
  match goesOn with
  | some p => .next (s2.serve p clock ecc)
  | none =>
    let s3 := s2.withMem { s2.mem with run := none }
    match s3.forcedDue clock with
    | some r => .next (s3.forceRefresh r clock)
    | none =>
      let s4 := (List.range 5).foldl (fun st r => st.easyRefresh r clock) s3
      match s4.choose clock with
      | some p => .next (s4.serve p clock ecc)
      | none => .next s4

/-- REFRESH_INTERVAL (R257, R258): one more refresh is owed. -/
def execRefreshInterval (clock : Nat) (rank : Nat) (s : State) : Out :=
  let s0 := s.at (clockTick clock)
  if s0.power.clocks.dram = false then .next s0
  else
  if s0.refreshed rank then
    let x := s0.rank rank
    let y := ({ x with debt := x.debt + 1 } : MemRank).judgeDebt
    let s1 := s0.setRank rank y
    .next (if s1.roInt (K.memRankRefreshDebtMax rank) < y.debt then s1.roSetInt (K.memRankRefreshDebtMax rank) (min 15 y.debt) else s1)
  else .next s0

/-- REFRESH_RATE_POLL (R257): the rank's mode register tells the rate. -/
def execRefreshRatePoll (t : Tick) (rank : Nat) (doubled : Bool) (s : State) : Out :=
  let s0 := s.at t
  if s0.power.clocks.dram = false then .next s0
  else
  if s0.refreshed rank then .next (s0.roSet (K.memRankRefreshRate rank) (b2n doubled)) else .next s0

/-- ROW_IDLE_CLOSE (R256): an open row to which no request is queued closes 64 clocks after its last access. -/
def execRowIdleClose (clock : Nat) (rank : Nat) (bank : Nat) (s : State) : Out :=
  let s0 := s.at (clockTick clock)
  if s0.power.clocks.dram = false then .next s0
  else
  let x := s0.rank rank
  let b := x.bank bank
  let wanted := s0.mem.ports.any (fun p => p.fifo.any (fun q =>
    (placeOf q.req.address).bank == bank && b.row == some (placeOf q.req.address).row && (s0.servers q.req.address q.req.write).contains rank))
  if b.row.isSome ∧ wanted = false ∧ b.lastUse + 64 ≤ clock then .next (s0.setRank rank { x with banks := x.banks.set bank { b with row := none } })
  else .next s0

/-- QOS_METER_WINDOW (R254): a new window of 10 µs. -/
def execQosMeterWindow (t : Tick) (s : State) : Out :=
  let s0 := s.at t
  if s0.power.clocks.dram = false then .next s0
  else
  if s0.mem.meterAt + 2000 ≤ s0.now then
    .next (s0.withMem { s0.mem with meterAt := s0.now, ports := s0.mem.ports.map (fun x => { x with meter := 0 }) })
  else .next s0

/-- REQUEST_URGENCY_AGE (R253): requests of P1 to P6 rise with their age. -/
def execRequestUrgencyAge (clock : Nat) (port : Nat) (s : State) : Out :=
  let s0 := s.at (clockTick clock)
  if s0.power.clocks.dram = false then .next s0
  else
  if port = 0 then .next s0 else .next (s0.ageRequests port clock)

/-! ### Scrub and write-back (R264, R265, R393) -/

/-- The completion time of a background activity (R393). -/
def State.bgDone (s : State) (k : Nat) : State := s.roSet (K.healthBgLast k) (tsBits s.stamp)

/-- PATROL_SCRUB_READ (R265): one burst every 320 µs in logical address order; it pauses outside the working states and during a migration. -/
def execPatrolScrubRead (t : Tick) (ecc : EccObs) (s : State) : Out :=
  let s0 := s.at t
  if s0.power.clocks.dram = false then .next s0
  else
  if s0.mode.working ∧ s0.mem.migration = none ∧ s0.mem.patrolAt + 64000 ≤ s0.now then
    let a := s0.roGet K.memScrubPosition
    let s1 := (s0.withMem { s0.mem with patrolAt := s0.now }).bump (K.memPortBytes 6) 256
    let s2 := s1.readBurst 6 a ((s1.servers a false).headD 0) ecc
    let s3 := s2.roSet K.memScrubPosition (a + 256)
    .next (if a + 256 = 2 ^ 36 then (s3.bump K.memScrubPassCount 1).bgDone 0 else s3)
  else .next s0

/-- ECC_WRITE_BACK (R264): a corrected burst that no port has written since is written back. -/
def execEccWriteBack (t : Tick) (address : Nat) (s : State) : Out :=
  let s0 := s.at t
  if s0.power.clocks.dram = false then .next s0
  else
  if s0.mem.writeBacks.any (fun e => e.1 == address) then
    let s1 := s0.withMem { s0.mem with writeBacks := s0.mem.writeBacks.filter (fun e => !(e.1 == address)), recheck := address :: s0.mem.recheck }
    .next (s1.bump (K.memPortBytes 6) 256)
  else .next s0

/-! ### Training (R262) -/

/-- The entry of the factory table nearest the DRAM temperature of housekeeping channel 14. -/
def State.nearestEntry (s : State) : Nat :=
  let v := f32D (s.roGet (K.hkChValue 14))
  let temps : List Int := [-20, 10, 40, 70, 100]
  let dist := fun (i : Nat) => let d : Rat := (temps.getD i 0 : Rat) - v; if d < 0 then -d else d
  (List.range 5).foldl (fun best i => if dist i < dist best then i else best) 0

/-- A rank takes its delays: from the table, or by full training, whose delays replace the nearest entry (R262). A rank that fails both has a faulty device, which the training record
names: a fresh value. -/
def State.trainRank (s : State) (r : Nat) (full ok : Bool) : State :=
  let x := s.rank r
  let s1 := (s.setRank r { x with lanes := List.replicate 162 0, steps := [] }).roSet (K.memRankTrainSource r) (b2n full)
  let s2 := if full && ok then (s1.withMem { s1.mem with trained := (r, s1.nearestEntry) :: s1.mem.trained }).raise Ev.memTrained [u r] else s1
  if ok then s2 else (s2.drawn).deviceFaulty r (s2.pick 9)

/-! ### Migration's events -/

/-- MIGRATION_SPARE_VERIFIED (R266): the copy begins; a spare that fails training abandons it. -/
def execMigrationSpareVerified (t : Tick) (ok : Bool) (full : Bool) (s : State) : Out :=
  let s0 := s.at t
  if s0.power.clocks.dram = false then .next s0
  else
  match s0.mem.migration with
  | none => .next s0
  | some g =>
    if g.verified then .next s0
    else
      let s1 := s0.trainRank g.new full ok
      match s1.mem.migration with
      | none => .next s1
      | some g1 => .next (s1.withMem { s1.mem with migration := some { g1 with verified := true, since := some s1.now } })

/-- MIGRATION_COMPLETE (R267): at a boundary with no burst of the rank in flight once the pointer is at its end, the table names the spare and the old rank is retired. -/
def execMigrationComplete (t : Tick) (s : State) : Out :=
  let s0 := s.at t
  if s0.power.clocks.dram = false then .next s0
  else
  match s0.mem.migration with
  | none => .next s0
  | some g =>
    if g.verified ∧ g.elapsed s0.now = copyTicks ∧ clockTick (s0.rank g.old).burstEnd ≤ s0.now then
      let s1 := s0.withMem { s0.mem with table := s0.mem.table.set g.logical g.new, migration := none, retired := g.old :: s0.mem.retired }
      .next (((s1.setRank g.old { s1.rank g.old with selfRefresh := true }).publishRanks).raise Ev.memMigrationDone [u g.old, u g.new, u g.logical])
    else .next s0

/-- The copy pauses where it stands. -/
def State.pauseMigration (s : State) : State :=
  match s.mem.migration with
  | none => s
  | some g => s.withMem { s.mem with migration := some { g with copied := g.elapsed s.now, since := none } }

/-- The copy goes on from its pointer. -/
def State.resumeMigration (s : State) : State :=
  match s.mem.migration with
  | none => s
  | some g => if g.verified then s.withMem { s.mem with migration := some { g with since := some s.now } } else s

/-! ### Tracking and the spare test (R263) -/

/-- WCK_DQ_TRACKING: every 100 ms the oscillators are read; each lane moves by at most one step. -/
def execWckDqTracking (t : Tick) (rank : Nat) (moves : List Int) (s : State) : Out :=
  let s0 := s.at t
  if s0.power.clocks.dram = false then .next s0
  else
  let x := s0.rank rank
  if s0.refreshed rank ∧ x.tracked + 20000000 ≤ s0.now then
    .next (s0.setRank rank { x with tracked := s0.now, steps := (moves.take 162).map (clampInt (-1) 1) })
  else .next s0

/-- TRACKING_STEP: in a window with no burst in flight, after any forced refresh due there; the window of 20 ns holds the rank's banks. -/
def execTrackingStep (t : Tick) (rank : Nat) (s : State) : Out :=
  let s0 := s.at t
  if s0.power.clocks.dram = false then .next s0
  else
  let x := s0.rank rank
  if x.steps = [] ∨ s0.forcedDue (4 * s0.now) = some rank ∨ 4 * s0.now < x.burstEnd then .next s0
  else
    let moved := (List.range x.lanes.length).map (fun i => x.lanes.getD i 0 + x.steps.getD i 0)
    .next (s0.setRank rank { x with lanes := moved, steps := [], banks := x.banks.map (fun b => { b with busy := max b.busy (4 * s0.now + 16) }) })

/-- SPARE_RANK_TEST: once every 24 h the spare leaves self-refresh for its test, in the working states (R263, R392). -/
def execSpareRankTest (t : Tick) (s : State) : Out :=
  let s0 := s.at t
  if s0.power.clocks.dram = false then .next s0
  else
  match s0.spareRank with
  | none => .next s0
  | some r =>
    if s0.mode.working ∧ s0.mem.spareTest = none ∧ s0.mem.spareLast + 86400 * secondTicks ≤ s0.now then
      .next ((s0.withMem { s0.mem with spareTest := some s0.now, spareLast := s0.now }).setRank r { s0.rank r with selfRefresh := false })
    else .next s0

/-- Ticks the spare test takes: 16 GiB written and read back at 8 MB/s, rounded down. -/
def spareTestTicks : Nat := 4294 * secondTicks

/-- SPARE_RANK_TEST_END: the spare returns to self-refresh; one with a failing device is retired. -/
def execSpareRankTestEnd (t : Tick) (failing : Option Nat) (s : State) : Out :=
  let s0 := s.at t
  if s0.power.clocks.dram = false then .next s0
  else
  match s0.mem.spareTest, s0.spareRank with
  | some a, some r =>
    if a + spareTestTicks ≤ s0.now then
      let s1 := ((s0.withMem { s0.mem with spareTest := none }).setRank r { s0.rank r with selfRefresh := true }).bgDone 1
      match failing with
      | none => .next s1
      | some d => .next (s1.deviceFaulty r d)
    else .next s0
  | _, _ => .next s0

/-! ### Power (R268 to R270) -/

/-- Entry to GEODE (R269): queued requests complete, debts are paid, banks precharged, active ranks enter self-refresh; a copy pauses. -/
def State.memGeode (s : State) : State :=
  let s1 := (List.range 7).foldl (fun st p =>
    let x := st.qos p
    let st1 := x.fifo.foldl (fun a q => if q.req.write then a.writeBurst (q.req.address / 256 * 256) else a) st
    (st1.bump (K.memPortBytes p) x.fill).setQos p { x with fifo := [] }) s
  let s2 := s1.pauseMigration
  s2.withMem { s2.mem with run := none, spareTest := none, ranks := s2.mem.ranks.map (fun x =>
    { x with debt := 0, forcing := false, selfRefresh := true, steps := [], banks := x.banks.map (fun b => { b with row := none }) }) }

/-- Exit from self-refresh (R269): active ranks and a rank under migration are trained; what training finds is measured in the module, fresh values here. -/
def State.memWake (s : State) : State :=
  let use := fun (st : State) (r : Nat) => st.mem.table.contains r || (match st.mem.migration with
    | some g => g.new == r || g.old == r
    | none => false)
  let s1 := (List.range 5).foldl (fun st r =>
    if use st r then
      let full := st.freeVal 1 == 1
      let st1 := st.drawn
      let ok := !full || st1.freeVal 1 == 1
      (st1.drawn.setRank r { st1.rank r with selfRefresh := false }).trainRank r full ok
    else st) s
  s1.resumeMigration

/-- SAVE entry (R270): queued requests are discarded, every rank enters self-refresh, a copy stops for good (R271). -/
def State.memSave (s : State) : State :=
  let m := { s.mem with run := none, migration := none, spareTest := none }
  (s.withMem { m with ports := m.ports.map (fun x => { x with fifo := [] }), ranks := m.ranks.map (fun x => { x with selfRefresh := true }) }).publishRanks

/-- BOOT (R262, R268): the DRAM holds nothing; retired ranks stay out, a rank whose record names a faulty device is exchanged for the spare while there is one; the ranks in use are
trained. -/
def State.memBoot (s : State) (full ok : List Bool) : State :=
  let bad := fun (r : Nat) => s.mem.faulty.any (fun e => e.1 == r)
  let spare := (List.range 5).find? (fun r => !s.mem.table.contains r && !s.mem.retired.contains r && !bad r)
  let m0 : MemSt := { MemSt.reset with table := s.mem.table, faulty := s.mem.faulty, retired := s.mem.retired, trained := s.mem.trained, spareLast := s.mem.spareLast,
                                       meterAt := s.now, second := s.now / secondTicks, patrolAt := s.now }
  let m1 : MemSt := match s.mem.table.find? bad, spare with
    | some r, some sp => { m0 with table := m0.table.map (fun x => if x = r then sp else x), retired := r :: m0.retired }
    | _, _ => m0
  let s1 := s.withMem { m1 with ranks := (List.range 5).map (fun r => { MemRank.reset with selfRefresh := !m1.table.contains r, tracked := s.now }) }
  let s2 := m1.faulty.foldl (fun st e => st.roSet (K.memRankDeviceState e.1 e.2) 2) s1
  ((List.range 5).foldl (fun st r => if m1.table.contains r then st.trainRank r (full.getD r false) (ok.getD r true) else st) s2).publishRanks

/-- Present faults of the memory: faulty devices on ranks in use, with no spare (R268). -/
def State.memFaults (s : State) : Nat :=
  if s.spareRank.isSome then 0 else (s.mem.faulty.filter (fun e => s.mem.table.contains e.1)).length

end Sys2Proof.Machine
end

