-- ==== Sys2Proof/Machine/Trigger.lean ====
section
/-! DEFINITION. The trigger engine: conditions, firings, groups, output pulses (R224 to R232). -/

namespace Sys2Proof.Machine

/-! ### Conditions -/

/-- A condition's state beside its parameters. -/
def State.cond (s : State) (n : Nat) : CondSt := s.trig.conds.getD n ⟨0, 0⟩
/-- Replace it. -/
def State.setCond (s : State) (n : Nat) (x : CondSt) : State := { s with trig := { s.trig with conds := s.trig.conds.set n x } }

/-- The fields of a condition. -/
def condFields (n : Nat) : List Key :=
  [K.trigCondEnable n, K.trigCondSource n, K.trigCondIndex n, K.trigCondZoneFirst n, K.trigCondZoneCount n, K.trigCondCompare n, K.trigCondHi n, K.trigCondLo n,
   K.trigCondHyst n, K.trigCondMinPoints n, K.trigCondHoldoffMs n, K.trigCondOffset n, K.trigCondTime n, K.trigCondPeriodMs n, K.trigCondCapture n,
   K.trigCondProfile n, K.trigCondOut n]

/-- A condition enters ARMED (R227). -/
def State.armCond (s : State) (n : Nat) : State := (s.setCond n { (s.cond n) with since := s.stamp }).roSet (K.trigCondState n) 0

/-- Every condition enters ARMED as the module enters RUNNING. -/
def State.armAll (s : State) : State := (List.range 64).foldl State.armCond s

/-- F of a commit: conditions whose fields changed enter ARMED. -/
def State.triggerAtF (s : State) (old : PSet) : State :=
  (List.range 64).foldl (fun st n => if (condFields n).any (fun k => decide (old.get k ≠ st.pG k)) then st.armCond n else st) s

/-- The newest set whose F lies at or before an instant. -/
def pastSet (x : Stamp) (l : List (Stamp × PSet)) (default : PSet) : PSet :=
  match l.find? (fun e => decide (e.1 ≤ x)) with
  | some e => e.2
  | none => default

/-- The set a condition's evaluation uses (R228): by F on the source's port, or by the rule of R83. -/
def State.condSet (s : State) (src : Option Port) (x : Stamp) : PSet :=
  match src with
  | some p => pastSet x (s.cfg.past.get p) (s.cfg.act p).set
  | none => pastSet x s.cfg.pastG s.cfg.actG.set

/-! ### Values (R225) -/

/-- The value of a binary32; an infinity lies beyond every finite one, a NaN is no value. -/
def f32Ext (b : Nat) : Option Rat :=
  match f32Val b with
  | some r => some r
  | none => if f32IsNaN b then none else if bitOf b 31 then some (-(2 ^ 200 : Nat)) else some ((2 ^ 200 : Nat) : Rat)

/-- An integer rounded to binary32. -/
def f32OfInt (v : Int) : Rat := f32D (f32Round v)

/-- A point of a STRAIN sample in its stream's format. -/
def strainValue (fmt g k delta : Nat) (v : Option Int) (den : Nat) : Option Rat :=
  match v with
  | none => none
  | some x =>
    if fmt = 0 then some (f32OfInt (clampInt (-32767) 32767 (roundDiv x (den * 65536))))
    else if fmt = 1 then some (f32OfInt (clampInt (-2147483647) 2147483647 (roundDiv x den)))
    else f32Ext (f32Round (strainRate x den g k delta))

/-- Word 0 of a kernel record in its word0_type. -/
def kernelValue (kind w : Nat) : Option Rat :=
  if kind = 0 then some (f32OfInt (wrapS 32 w)) else if kind = 1 then some (f32OfInt w) else f32Ext w

/-- A run of values from a point. -/
def zoneOf (first count : Nat) (f : Nat → Option Rat) : List (Option Rat) := (List.range count).map (fun j => f (first + j))

/-! ### Tests (R226) -/

/-- The set test and the clear test of a value. -/
def setTest (cmp : Nat) (hi lo v : Rat) : Bool :=
  match cmp with
  | 0 => decide (hi < v)
  | 1 => decide (v < lo)
  | 2 => decide (hi < v) || decide (v < lo)
  | _ => decide (hi < v) || decide (hi < -v)

/-- How many values of a zone meet a test. -/
def countMeet (f : Rat → Bool) (vs : List (Option Rat)) : Nat := (vs.filter (fun v => (v.map f).getD false)).length

/-- At least min_points values meet the set test. -/
def meetsSet (set : PSet) (n : Nat) (vs : List (Option Rat)) : Bool :=
  decide (set.get (K.trigCondMinPoints n) ≤ countMeet (setTest (set.get (K.trigCondCompare n)) (f32D (set.get (K.trigCondHi n))) (f32D (set.get (K.trigCondLo n)))) vs)

/-- Fewer than min_points values meet the clear test: the thresholds moved by hyst. -/
def meetsClear (set : PSet) (n : Nat) (vs : List (Option Rat)) : Bool :=
  let hyst := f32D (set.get (K.trigCondHyst n))
  decide (countMeet (setTest (set.get (K.trigCondCompare n)) (f32D (set.get (K.trigCondHi n)) - hyst) (f32D (set.get (K.trigCondLo n)) + hyst)) vs <
    set.get (K.trigCondMinPoints n))

/-! ### Firings (R229 to R232) -/

/-- The reference port of a firing: the lowest of its capture profile, or the first with frames. -/
def State.refPort (s : State) (captures : Bool) (prof : Nat) : Option Port :=
  if captures then ports.find? (fun p => (s.profileRange prof p).isSome)
  else ports.find? (fun p => s.hasFrames p)

/-- Pulse the outputs of a firing (R232). -/
def State.pulseOut (s : State) (mask : Nat) : State :=
  [0, 1].foldl (fun st j =>
    if bitOf mask j then
      let end_ := st.now + st.pG (K.trigOutWidth j)
      let cur := st.trig.pulses.getD j none
      let st1 : State := { st with trig := { st.trig with pulses := st.trig.pulses.set j (some (max end_ (cur.getD 0))) } }
      if cur.isSome then st1 else st1.emit (.evtOut j true)
    else st) s

/-- A firing joins the group it coincides with, or begins one (R231). -/
def State.joinGroup (s : State) (port : Option Port) (trace : Stamp) (f : Firing) : State :=
  let fits := fun (g : Group) => port.isSome && g.port == port && g.trace == trace && decide (s.now ≤ g.since + s.pG K.trigMergeMs * msTicks)
  if s.trig.groups.any fits then
    { s with trig := { s.trig with groups := s.trig.groups.map (fun g => if fits g then { g with firings := g.firings ++ [f] } else g) } }
  else { s with trig := { s.trig with groups := s.trig.groups ++ [⟨port, trace, s.now, [f]⟩] } }

/-- The open capture a firing merges into (R231). -/
def State.mergeTarget (s : State) (port : Option Port) (trace : Stamp) : Option Nat :=
  (s.trig.captures.find? (fun c => !c.complete && !c.host && port.isSome && c.refPort == port && c.refTrace == trace &&
    decide (s.now ≤ c.openedAt + s.pG K.trigMergeMs * msTicks))).map (·.number)

/-- The capture of a firing: merged, opened, or none. -/
def State.firingCapture (s : State) (set : PSet) (n : Nat) (trig : Stamp) (port : Option Port) (trace : Stamp) : State × Option Nat :=
  if set.get (K.trigCondCapture n) = 0 then (s, none)
  else match s.mergeTarget port trace with
    | some c => (s.mergeCapture c n (set.get (K.trigCondProfile n)) trig, some c)
    | none => s.openCapture (set.get (K.trigCondProfile n)) trig (2 ^ n) false port trace

/-- A condition fires (R227, R229 to R232), unless R230 ignores the firing; `hold` tells whether it enters HOLD from ARMED. -/
def State.fire (s : State) (set : PSet) (n : Nat) (trig : Stamp) : State :=
  let captures : Bool := set.get (K.trigCondCapture n) == 1
  let prof := set.get (K.trigCondProfile n)
  if captures && s.prefillShort prof trig then s.bump (K.trigCondPrefillIgnored n) 1
  else
    let port := s.refPort captures prof
    let trace := ((port.bind (fun p => s.traceAt p trig))).getD 0
    let s1 := ((s.bump (K.trigCondFired n) 1).roSet (K.trigCondState n) 1).setCond n { (s.cond n) with firedAt := trig }
    let r := s1.firingCapture set n trig port trace
    (r.1.joinGroup port trace ⟨n, trig, trace, r.2⟩).pulseOut (set.get (K.trigCondOut n))

/-- One evaluation of a condition's state machine (R227): whether the set test is met, whether the clear test is. -/
def State.evaluate (s : State) (set : PSet) (n : Nat) (trig : Stamp) (sets clears : Bool) : State :=
  let held : Bool := decide ((s.cond n).firedAt + (set.get (K.trigCondHoldoffMs n) : Int) * msUnits ≤ trig)
  match s.roGet (K.trigCondState n) with
  | 0 => if sets then s.fire set n trig else s
  | 1 => if held then s.roSet (K.trigCondState n) (if clears then 0 else 2) else s
  | _ => if clears then s.roSet (K.trigCondState n) 0 else s

/-- The offset of a condition in units of time (R229). -/
def condOffset (set : PSet) (n : Nat) : Int := set.getInt (K.trigCondOffset n) * tickUnits

/-- T_trig of a STRAIN sample (R229): its stamp, less DCD × Δ in the MINIMUM form. -/
def strainInstant (x : StreamSt) (sid : Nat) (sm : Sample) : Stamp :=
  let preset := x.par (K.streamDecPreset sid)
  if minimumForm preset (x.par (K.streamDecForm sid)) then
    sm.stamp - ((dcDelay16 (chainOf preset (x.par (K.streamDecFactor sid))) * sm.delta : Nat) : Int) * tickUnits / 16
  else sm.stamp

/-- An evaluation of a STRAIN condition over output sample `which` (R224, R225). -/
def State.evalStrain (s : State) (n which : Nat) : State :=
  let sid := s.pG (K.trigCondIndex n)
  let x := s.stream sid
  match x.evals.find? (fun sm => sm.n == which) with
  | none => s
  | some sm =>
    let p := Port.ofIdx (x.par (K.streamPort sid))
    let base := strainInstant x sid sm
    let set := s.condSet (some p) base
    if set.get (K.trigCondEnable n) = 0 ∨ set.get (K.trigCondSource n) ≠ 0 then s
    else
      let den := 2 ^ accFraction (x.par (K.streamDecPreset sid))
      let vs := zoneOf (set.get (K.trigCondZoneFirst n)) (set.get (K.trigCondZoneCount n)) (fun q =>
        if sm.unsettled then none else strainValue (x.par (K.streamFormat sid)) sm.geo.1 sm.geo.2 sm.delta (sm.values.getD q none) den)
      s.evaluate set n (base + condOffset set n) (meetsSet set n vs) (meetsClear set n vs)

/-- An evaluation of a KERNEL condition at sample `which` of its instance's tile, once its zone's records have arrived or the deadline has passed. -/
def State.evalKernel (s : State) (n which : Nat) : State :=
  let i := s.pG (K.trigCondIndex n)
  match (s.inst i).tile with
  | none => s
  | some t =>
    let h := s.instHeader i
    let base := t.t0 + ((which * (t.tdec * t.delta / max 1 h.samples) : Nat) : Int) * tickUnits
    let set := s.condSet (some t.port) base
    let first := set.get (K.trigCondZoneFirst n)
    let count := set.get (K.trigCondZoneCount n)
    let arrived : Bool := (List.range count).all (fun j => !(t.isFill which (first + j))) || decide (t.deadline ≤ s.now) || t.closed
    if set.get (K.trigCondEnable n) = 0 ∨ set.get (K.trigCondSource n) ≠ 1 ∨ h.samples ≤ which ∨ arrived = false then s
    else
      let vs := zoneOf first count (fun q =>
        if which < t.unsettled || t.isFill which q then none else kernelValue h.word0 (ofLe ((t.recordAt h which q).take 4)))
      s.evaluate set n (base + condOffset set n) (meetsSet set n vs) (meetsClear set n vs)

/-- An evaluation of a DTS condition over its port's last result. -/
def State.evalDts (s : State) (n : Nat) : State :=
  let p := Port.ofIdx (s.pG (K.trigCondIndex n))
  match (s.dts p).last with
  | none => s
  | some (boundary, noValue, temps) =>
    let set := s.condSet (some p) boundary
    if set.get (K.trigCondEnable n) = 0 ∨ set.get (K.trigCondSource n) ≠ 2 then s
    else
      let vs := zoneOf (set.get (K.trigCondZoneFirst n)) (set.get (K.trigCondZoneCount n)) (fun q =>
        if noValue then none else (temps.drop q).head?.bind f32Ext)
      s.evaluate set n (boundary + condOffset set n) (meetsSet set n vs) (meetsClear set n vs)

/-- The edge of a stamp meets compare: 0 RISING, 1 FALLING, 2 BOTH. -/
def edgeMatches (cmp : Nat) (rising : Bool) : Bool := cmp == 2 || (cmp == 0 && rising) || (cmp == 1 && !rising)

/-- An evaluation of an EVENT condition at the stamp with record number `which` of its input. -/
def State.evalEvent (s : State) (n which : Nat) : State :=
  match (s.time.tdc.getD (s.pG (K.trigCondIndex n)) TdcIn.idle).log.find? (fun r => r.seq == which) with
  | none => s
  | some r =>
    let set := s.condSet none r.time
    if set.get (K.trigCondEnable n) = 0 ∨ set.get (K.trigCondSource n) ≠ 3 then s
    else s.evaluate set n (r.time + condOffset set n) (edgeMatches (set.get (K.trigCondCompare n)) r.rising) true

/-- TRIGGER_EVALUATION: one evaluation of a condition, while the module is in RUNNING (R224 to R231). -/
def execTriggerEvaluation (t : Tick) (cond : Nat) (which : Nat) (s : State) : Out :=
  let s0 := s.at t
  if s0.mode ≠ .running then .next s0
  else match s0.pG (K.trigCondSource cond) with
    | 0 => .next (s0.evalStrain cond which)
    | 1 => .next (s0.evalKernel cond which)
    | 2 => .next (s0.evalDts cond)
    | 3 => .next (s0.evalEvent cond which)
    | _ => .next s0

/-- The next instant of a TIME condition armed at `since`: its time, then every period after it. -/
def nextInstant (time since : Stamp) (periodMs : Nat) : Option Stamp :=
  if since ≤ time then some time
  else if periodMs = 0 then none
  else
    let p := (periodMs : Int) * msUnits
    some (time + (since - time + p - 1) / p * p)

/-- TIME_CONDITION_INSTANT: a TIME condition fires at its instant, whatever its state and holdoff_ms (R227, R246). -/
def execTimeConditionInstant (t : Tick) (cond : Nat) (s : State) : Out :=
  let s0 := s.at t
  if s0.mode ≠ .running ∨ s0.pG (K.trigCondEnable cond) = 0 ∨ s0.pG (K.trigCondSource cond) ≠ 4 then .next s0
  else match nextInstant (stampOfBits (s0.pG (K.trigCondTime cond))) (s0.cond cond).since (s0.pG (K.trigCondPeriodMs cond)) with
    | none => .next s0
    | some x =>
      if s0.stamp < x then .next s0
      else
        let set := s0.condSet none x
        let s1 := s0.setCond cond { (s0.cond cond) with since := x + 1 }
        .next (s1.fire set cond (x + condOffset set cond))

/-- EVT_OUT_PULSE_END: a pulse that has run its width ends (R232). -/
def execEvtOutPulseEnd (t : Tick) (j : Nat) (s : State) : Out :=
  let s0 := s.at t
  match s0.trig.pulses.getD j none with
  | none => .next s0
  | some e =>
    if e ≤ s0.now then .next (({ s0 with trig := { s0.trig with pulses := s0.trig.pulses.set j none } }).emit (.evtOut j false)) else .next s0

/-- Firings in ascending order of condition. -/
def insertFiring (f : Firing) : List Firing → List Firing
  | [] => [f]
  | x :: rest => if f.cond < x.cond then f :: x :: rest else x :: insertFiring f rest

/-- Raise the events of a group (R231). -/
def State.notifyGroup (s : State) (g : Group) : State :=
  (g.firings.foldl (fun l f => insertFiring f l) []).foldl (fun st f =>
    st.raise Ev.trigger [u f.cond, tsVal f.trig, tsVal f.trace, u (f.capture.getD 0xFFFFFFFF)]) s

/-- TRIGGER_GROUP_NOTIFY: the groups whose merge horizon has passed raise their events, the oldest first (R231). -/
def execTriggerGroupNotify (t : Tick) (s : State) : Out :=
  let s0 := s.at t
  let due := fun (g : Group) => decide (g.since + s0.pG K.trigMergeMs * msTicks ≤ s0.now)
  let ripe := s0.trig.groups.filter due
  .next (ripe.foldl State.notifyGroup { s0 with trig := { s0.trig with groups := s0.trig.groups.filter (fun g => !due g) } })

end Sys2Proof.Machine
end

