-- ==== Sys2Proof/Machine/Modes.lean ====
section
/-! DEFINITION. Power grants and demand, the grant level, and every change of module state (chapter 15). -/

namespace Sys2Proof.Machine

/-! ### Causes of EV_STATE (log entry 16) -/

namespace Cause
def run := 1
def stop := 2
def geodeEnter := 3
def powerWait := 4
def bedrock := 5
def bedrockExit := 6
def noSeed := 7
def noPort := 8
def thermal := 9
def reset := 10
def retry := 11
def resetN := 12
def lockstep := 13
def wake := 14
def pfail := 15
def saveDone := 16
def source := 17
def bootPll := 18
def bootDram := 19
def storedSetInvalid := 20
def boot := 21
def trial := 22
end Cause

/-- Replace the power state. -/
def State.withPower (s : State) (x : PowerSt) : State := { s with power := x }

/-! ### Sources and grants (R361, R363) -/

/-- Whether a source is present is reported here. -/
def srcKey : Source → Key
  | .a => K.powerSourcePresent .a
  | .b => K.powerSourcePresent .b
  | .vaux => K.powerSourceVauxPresent

/-- A source's grant is reported here. -/
def grantKey : Source → Key
  | .a => K.powerGrant .a
  | .b => K.powerGrant .b
  | .vaux => K.powerGrantVaux

/-- The code of a source in events (log entry 16). -/
def srcCode : Source → Nat
  | .a => 0
  | .b => 1
  | .vaux => 2

/-- All sources. -/
def allSources : List Source := [.a, .b, .vaux]

/-- A source is present. -/
def State.present (s : State) (x : Source) : Bool := s.roGet (srcKey x) == 1

/-- Some source is present. -/
def State.powered (s : State) : Bool := allSources.any s.present

/-- The grant of a class in 0.1 W (R363). -/
def classGrant (c : Nat) : Nat := if c ≤ 3 then 130 else if c = 4 then 255 else if c = 5 then 400 else if c = 6 then 510 else if c = 7 then 620 else 713

/-- The grant of a present network port: its class's until the PSE has answered over LLDP, then the lowest of allocation, class and what was asked for. -/
def State.portGrant (s : State) (p : Port) : Nat :=
  let c := classGrant (s.roGet (K.powerClass p))
  match s.power.lldp.get p with
  | none => c
  | some a => if s.pG K.powerLldpRequestW = 0 then min a c else min (min a c) (s.pG K.powerLldpRequestW)

/-- The grant of a source in 0.1 W, 0 where it is absent. -/
def State.grantOf (s : State) (x : Source) : Nat :=
  if s.present x = false then 0
  else match x with
    | .a => s.portGrant .a
    | .b => s.portGrant .b
    | .vaux => s.pG K.powerVauxGrantW

/-- G_u in 0.1 W: the sum of the grants less 2.0 W. -/
def State.usable (s : State) : Int := (s.roGet (grantKey .a) : Int) + s.roGet (grantKey .b) + s.roGet (grantKey .vaux) - 20

/-- Publish G_u, and note since when it is at 28.0 W. -/
def State.publishUsable (s : State) : State :=
  let s1 := s.roSet K.powerUsableW s.usable.toNat
  s1.withPower { s1.power with grantSince := if 280 ≤ s1.usable then (match s1.power.grantSince with
    | some t => some t
    | none => some s1.now) else none }

/-- Take a source's grant afresh; a change raises EV_GRANT with the source, its grant and G_u, but not in OFF. -/
def State.regrantOne (s : State) (x : Source) : State :=
  let g := s.grantOf x
  if g = s.roGet (grantKey x) then s
  else
    let s1 := (s.roSet (grantKey x) g).publishUsable
    if s1.mode = .off then s1 else s1.raise Ev.grant [u (srcCode x), u g, sv s1.usable]

/-- Take every grant afresh. -/
def State.regrant (s : State) : State := allSources.foldl State.regrantOne s

/-! ### Demand (R364, R365) -/

/-- What draws power: links at 10GBASE-T and at 1000BASE-T, seeds, ports with frames, ports with pumps on, cores, the shared pipeline, Raman, r of R364, and whether the
module draws at all. -/
structure Load where
  ten : Nat
  gig : Nat
  seeds : Nat
  framed : Nat
  pumped : Nat
  cores : Nat
  shared : Bool
  raman : Bool
  rate : Rat
  deriving DecidableEq, Repr

/-- A seed in mW at a case temperature in 0.01 °C. -/
def seedMw (case : Int) : Rat := if case ≤ 2500 then 2200 else 2200 + (case - 2500 : Int) * 8 / 15

/-- The demand of a load in mW. -/
def Load.mw (x : Load) (case : Int) : Rat :=
  4900 + (2200 + 4300 * x.rate) + 3800 * x.ten + 1100 * x.gig + x.seeds * seedMw case + 6800 * x.framed + 3000 * x.pumped
  + (if x.shared then 1100 + 4300 * x.rate else 0) + 200 * x.cores + (if x.raman then 1600 else 0)

/-- Points per second over 1.6 × 10⁹, for points at an interval in ticks. -/
def rateOf (points interval : Nat) : Rat := (points : Rat) / (8 * (max 1 interval : Nat) : Nat)

/-- The cores of the enabled instances that are not shed. -/
def State.coresOn (s : State) : Nat :=
  sumN ((List.range 8).map (fun i => if s.pG (K.basaltInstEnable i) = 1 ∧ (s.inst i).shed = false then s.pG (K.basaltInstCores i) else 0))

/-- Some port has dts.enable at 1. -/
def State.ramanAsked (s : State) : Bool := ports.any (fun p => s.pI p (K.portDtsEnable p) == 1)

/-- Step `i` of R367 is in force. -/
def State.inForce (s : State) (i : Nat) : Bool := bitOf (s.roGet K.powerShedSteps) (i - 1)

/-- How many ports meet a test. -/
def countPorts (f : Port → Bool) : Nat := (ports.filter f).length

/-- The load now. -/
def State.load (s : State) : Load where
  ten := countPorts (fun p => (s.link p).up && !(s.link p).gigabit)
  gig := countPorts (fun p => (s.link p).up && (s.link p).gigabit)
  seeds := b2n (s.seedStatus .s0 != 0 && s.seedStatus .s0 != 4) + b2n (s.seedStatus .s1 != 0 && s.seedStatus .s1 != 4)
  framed := countPorts s.hasFrames
  pumped := countPorts (fun p => s.pState p == 1 || s.pState p == 3)
  cores := if s.mode = .ready ∨ s.mode = .running then s.coresOn else 0
  shared := s.mode.measuring
  raman := (s.mode == .ready || s.mode == .running) && s.ramanAsked && (!(s.inForce 1) || s.power.undoing == some 1)
  rate := (ports.map (fun p => if s.hasFrames p then rateOf (s.roGet (K.portPointsCountLive p)) (s.traceInterval p) else 0)).foldl (· + ·) 0

/-- The demand now in mW; the model of R364 counts nothing in OFF and GEODE. -/
def State.demandMw (s : State) : Rat := if s.mode = .off ∨ s.mode = .geode then 0 else s.load.mw s.caseCenti

/-- Milliwatts in units of 0.1 W. -/
def deciWatts (x : Rat) : Nat := (roundRat (x / 100)).toNat

/-- The demand covers no more than G_u. -/
def State.covers (s : State) (x : Rat) : Bool := decide (x ≤ (s.usable : Rat) * 100)

/-- The standby seed. -/
def State.standby (s : State) : Seed := otherSeed s.activeSeed

/-- The port shed step 4 holds. -/
def State.shedPort (s : State) : Port := (Port.ofIdx (s.pG K.powerBedrockPort)).other

/-- What a step in force keeps out of the present demand, in mW (R367). -/
def State.saved (s : State) (step : Nat) : Rat :=
  if s.inForce step = false then 0
  else match step with
    | 1 => if s.ramanAsked && s.power.undoing != some 1 then 1600 else 0
    | 2 => if s.seedStatus s.standby = 0 then seedMw s.caseCenti else 0
    | 3 => 200 * (sumN ((List.range 8).map (fun i => if s.pG (K.basaltInstEnable i) = 1 ∧ (s.inst i).shed then s.pG (K.basaltInstCores i) else 0)) : Nat)
    | _ => if s.pP s.shedPort (K.portEnable s.shedPort) = 1 ∧ s.pState s.shedPort ≠ 1 ∧ s.pState s.shedPort ≠ 3 then 3000 else 0

/-- The demand with no step of R367 applied (R366). -/
def State.fullDemand (s : State) : Rat := s.demandMw + s.saved 1 + s.saved 2 + s.saved 3 + s.saved 4

/-- A set's load in RUNNING: both seeds, every enabled port EMITTING, no step applied, with the links as given (R365, R366). -/
def State.runLoad (s : State) (set : PSet) (ten gig : Nat) (count : Port → Nat) : Load where
  ten := ten
  gig := gig
  seeds := 2
  framed := countPorts (fun p => set.get (K.portEnable p) == 1)
  pumped := countPorts (fun p => set.get (K.portEnable p) == 1)
  cores := sumN ((List.range 8).map (fun i => if set.get (K.basaltInstEnable i) = 1 then set.get (K.basaltInstCores i) else 0))
  shared := true
  raman := ports.any (fun p => set.get (K.portDtsEnable p) == 1)
  rate := (ports.map (fun p => if set.get (K.portEnable p) = 1 then
    rateOf (count p) (s.checkPeriod set p / groupsOf (set.get (K.portSlotPlan p))) else 0)).foldl (· + ·) 0

/-- The run demand of the live set (R366). -/
def State.runDemand (s : State) : Rat :=
  (s.runLoad s.cfg.live s.load.ten s.load.gig (fun p => s.resolveCount s.cfg.live p)).mw s.caseCenti

/-- The demand CFG_COMMIT judges a set by (R365). -/
def State.commitDemand (s : State) (set : PSet) (count : Port → Nat) : Rat := (s.runLoad set 2 0 count).mw 8500

/-! ### The port BEDROCK keeps (R377) -/

/-- A port can launch. -/
def State.canLaunch (s : State) (p : Port) : Bool := s.pP p (K.portEnable p) == 1 && (s.portSt p).fibreFound && s.pumpsOk p

/-- The port to keep: power.bedrock_port if it can launch, else the other. -/
def State.keptChoice (s : State) : Option Port :=
  let p := Port.ofIdx (s.pG K.powerBedrockPort)
  if s.canLaunch p then some p else if s.canLaunch p.other then some p.other else none

/-- The Bedrock demand: one seed, one thinned port, one link at 10GBASE-T (R366). -/
def State.bedrockDemand (s : State) : Rat :=
  let p := match s.opt.kept, s.keptChoice with
    | some k, _ => k
    | none, some k => k
    | none, none => Port.ofIdx (s.pG K.powerBedrockPort)
  let x : Load := { ten := 1, gig := 0, seeds := 1, framed := 1, pumped := 1, cores := 0, shared := true, raman := false,
                    rate := rateOf (s.roGet (K.portPointsCountLive p)) (thinStep (s.period p)) }
  x.mw s.caseCenti

/-! ### Present faults (R370) -/

/-- The conditions that count now. -/
def State.presentFaults (s : State) : Nat :=
  let bad := fun (d : Seed) => s.seedStatus d == 3 || s.seedStatus d == 4
  let seeds := if bad .s0 && bad .s1 && s.chStatus 0 == 5 && s.chStatus 1 == 5 then 1 else b2n (bad .s0) + b2n (bad .s1)
  let pairs := neighbourPairs.filter (fun e => decide (2 ≤ e.1) && decide (e.2 ≤ 8) && s.chStatus e.1 == 5 && s.chStatus e.2 == 5)
  let single := ([2, 3, 4, 5, 6, 7, 8].filter (fun c => s.chBad c && !(s.chStatus c == 5 && pairs.any (fun e => e.1 == c || e.2 == c)))).length
  let image := fun (x : FwImage) => x.state == .invalid && x.bootFailed
  seeds + pairs.length + single + s.mem.retired.length + s.memFaults
    + b2n (!((List.range 34).any (fun c => (s.core c).role == 1 && (s.core c).takes.isNone))) + b2n (image s.fw.a || image s.fw.b)

/-! ### Sessions and the state itself -/

/-- A session ends (R309, R312): waiting requests go, a TCP connection closes, EV_SESSION tells. -/
def State.closeSession (s : State) (n : Nat) : State :=
  let x := s.pair n
  if x.open_ = false then s
  else
    let s1 := s.setPair n Session.closed
    let s2 := s1.roSet K.ncpSessions (s1.sess.filter (·.open_)).length
    let s3 : State := if n = 0 then { s2 with spi := { s2.spi with inbox := [] } } else s2.emit (.closed n)
    s3.raise Ev.session [u n, u x.client.toNat, u 0]

/-- Every session ends. -/
def State.closeSessions (s : State) : State := [0, 1, 2, 3, 4, 5, 6].foldl State.closeSession s

/-- Tests the new state does not have are lost (R403, R407, R410): self-tests outside READY and RUNNING, in RUNNING all but the spare rank's; link tests there but that of a network port. -/
def State.testsKept (s : State) : State :=
  let h := s.health
  let keepSelf : Bool := s.mode == .ready || (s.mode == .running && h.selftest.mask == 8)
  let keepLink := fun (x : LinkTest) => x.until_.isNone || s.mode == .ready || (s.mode == .running && x.port.isSome)
  let lost : Bool := h.selftest.running && !keepSelf
  let s1 : State := { s with health := { h with selftest := if lost then SelfTest.none_ else h.selftest,
                                                linkTests := h.linkTests.map (fun o => match o with
                                                  | some x => if keepLink x then some x else none
                                                  | none => none) } }
  if lost then s1.roSet K.healthSelftestState 0 else s1

/-- Leaving BEDROCK raises EV_BEDROCK with the causes still in force and the kept port (R376). -/
def State.bedrockLeft (s : State) (was m : Mode) : State :=
  if was = .bedrock ∧ m ≠ .bedrock then s.raiseSev Ev.bedrock 1 [u (s.roGet K.powerBedrockCauses), u ((s.opt.kept.map Port.idx).getD 255)] else s

/-- The module changes state, and with it the clock domains that run (R24); EV_STATE carries the old state, the new one and the cause. A change into OFF is not entered (R369). -/
def State.setMode (s : State) (m : Mode) (cause : Nat) : State :=
  let s1 := State.testsKept { s with mode := m, modeSince := s.stamp, power := { s.power with clocks := clocksOf m } }
  if m = .off then s1
  else ((s1.raiseSev Ev.state (if m = .fault then 3 else 1) [u s.mode.code, u m.code, u cause]).bedrockLeft s.mode m).ensRefresh

/-! ### Shed steps (R367, R368) -/

/-- Set or clear a step. -/
def State.setStep (s : State) (i : Nat) (on : Bool) : State :=
  let v := s.roGet K.powerShedSteps
  s.roSet K.powerShedSteps (if s.inForce i then (if on then v else v - 2 ^ (i - 1)) else if on then v + 2 ^ (i - 1) else v)

/-- A step is in force from now, with EV_SHED "applied". -/
def State.stepApplied (s : State) (i : Nat) : State := if s.inForce i then s else (s.setStep i true).raise Ev.shed [u i, u 1]

/-- A step is undone, with EV_SHED "undone". -/
def State.stepUndone (s : State) (i : Nat) : State :=
  let s1 := (s.setStep i false).raise Ev.shed [u i, u 0]
  s1.withPower { s1.power with undoing := none, fitSince := none }

/-- The Raman channels of both ports go idle, the DTS source goes off. -/
def State.ramanIdle (s : State) : State := (((((s.dtsCut .a).dtsCut .b).biasOff .a).biasOff .b).dtsCheck).channelsOff [8]

/-- The standby seed goes off, unless a switch to it is under way. -/
def State.standbyOff (s : State) : State :=
  let d := s.standby
  if s.opt.switch.isSome then s
  else
    let s1 := if s.seedStatus d = 1 ∨ s.seedStatus d = 2 then s.setSeedStatus d 0 else s
    s1.setSeed d { s1.seed d with lockAt := none, trying := false }

/-- An instance is halted by step 3: its cores stop, the block in progress is sent with gap (R216). -/
def State.shedInst (s : State) (i : Nat) : State :=
  let s1 := (s.coresOf i).foldl (fun st c => st.setCore c (st.core c).halt) s
  ((s1.setInst i { (s1.inst i).gapTile with shed := true, restart := true }).closeTile i).publishInst i

/-- The enabled instance of the highest number that is not shed. -/
def State.nextShed (s : State) : Option Nat :=
  [7, 6, 5, 4, 3, 2, 1, 0].find? (fun i => s.pG (K.basaltInstEnable i) == 1 && !(s.inst i).shed)

/-- Step 4: the port other than power.bedrock_port is held; a discovery of it is abandoned. -/
def State.shedHold (s : State) : State :=
  let q := s.shedPort
  let s1 := s.stepApplied 4
  (if s1.pState q = 1 then s1.noFibre q else s1.publishHold q).dtsCheck

/-- Apply steps in order until the demand fits G_u. -/
def State.shedMore : Nat → State → State
  | 0, s => s
  | n + 1, s =>
    if s.covers s.demandMw then s
    else if s.inForce 1 = false then shedMore n (s.stepApplied 1).ramanIdle
    else if s.inForce 2 = false then shedMore n (s.stepApplied 2).standbyOff
    else match s.nextShed with
      | some i => shedMore n ((s.stepApplied 3).shedInst i)
      | none =>
        if s.inForce 3 = false then shedMore n (s.stepApplied 3)
        else if s.inForce 4 = false then shedMore n s.shedHold
        else s

/-- An undo that has not completed is taken back: the grant no longer allows it. -/
def State.cancelUndo (s : State) : State :=
  match s.power.undoing with
  | none => s
  | some i =>
    let s1 := s.withPower { s.power with undoing := none, fitSince := none }
    match i with
    | 1 => s1.ramanIdle
    | 2 => s1.standbyOff
    | _ => s1

/-- The last step in force, 0 for none. -/
def State.lastStep (s : State) : Nat := if s.inForce 4 then 4 else if s.inForce 3 then 3 else if s.inForce 2 then 2 else if s.inForce 1 then 1 else 0

/-- Note since when the next undo would fit: G_u exceeds the demand with the last step undone by more than 2.0 W. -/
def State.watchUndo (s : State) : State :=
  let i := s.lastStep
  let fits : Bool := i != 0 && s.power.undoing.isNone && decide (s.demandMw + s.saved i + 2000 < (s.usable : Rat) * 100)
  s.withPower { s.power with fitSince := if fits then (match s.power.fitSince with
    | some t => some t
    | none => some s.now) else none }

/-- No step is in force any more: the module leaves RUNNING, or enters BEDROCK. -/
def State.dropSteps (s : State) : State :=
  let s1 := (s.roSet K.powerShedSteps 0).withPower { s.power with undoing := none, fitSince := none }
  let s2 := (List.range 8).foldl (fun st i => st.setInst i { st.inst i with shed := false }) s1
  (s2.publishHold .a).publishHold .b

/-- An undo of step 1 completes with the first dark frame, of step 4 at the held port's frame start, of step 2 with the standby's lock or fault; each at once where nothing is
to wait for (R368). -/
def State.undoDone (s : State) (i : Nat) : State :=
  if s.power.undoing = some i then
    let s1 := s.stepUndone i
    if i = 4 then ((s1.publishHold .a).publishHold .b).dtsCheck else s1
  else s

/-! ### Leaving measurement -/

/-- Nothing waits to discover. -/
def State.noWaiting (s : State) : State :=
  s.eachPort (fun st p => st.setPortSt p { st.portSt p with rediscover := false })

/-- Ports to NO_FIBRE, captures cut, cores stopped, steps and Bedrock causes gone, alarm sums gone: what every exit from RUNNING and BEDROCK does. -/
def State.stopMeasuring (s : State) : State :=
  let s1 := (((s.noWaiting).noFibre .a).noFibre .b).channelsOff [2, 3, 5, 6, 8]
  let s2 := (s1.strataStop).basaltStop
  let s3 := (s2.dropSteps).roSet K.powerBedrockCauses 0
  { s3 with opt := { s3.opt with kept := none }, power := { s3.power with sums := [], clearSince := none } }

/-- A network link is down: AUTO subscribers move (R139). -/
def State.linkDown (s : State) (p : Port) : State :=
  let l := s.link p
  if l.up then (s.setLink p { l with up := false, since := s.now }).moveFrom p else s

/-- The links renegotiate, port B first (R377). -/
def State.relinkStart (s : State) : State := (s.withPower { s.power with relink := [.b, .a] }).linkDown .b

/-- FAULT (R371): channels 0 to 8 off, ports NO_FIBRE, nothing measured. -/
def State.enterFault (s : State) (cause : Nat) : State :=
  let s1 := s.setMode .fault cause
  let s2 := (if s.mode.working then (s1.stopMeasuring).feStop else s1).seedsOff
  let s3 := s2.channelsOff [0, 1, 2, 3, 4, 5, 6, 7, 8]
  s3.withPower { s3.power with faultAt := s3.now, thermal := cause == Cause.thermal, forced := false }

/-! ### BEDROCK (R376, R377) -/

/-- The causes that hold for entry now: THERMAL, FAULTS and FORCED (R376). -/
def State.causesNow (s : State) : Nat := 2 * b2n s.power.hot + 4 * b2n (decide (2 ≤ s.presentFaults)) + 8 * b2n s.power.forced

/-- A port's launches follow another schedule from its next frame: groups of this frame launch no more, every slot's next trace is stitched (R73, R87). -/
def State.reschedule (s : State) (p : Port) : State :=
  let f := s.frame p
  s.setFrame p { f with origin := f.next.getD s.now, groupNext := 8, thinNext := 0, stitch := List.replicate 8 true }

/-- Streams other than ALARM are suspended (R377). -/
def State.suspendStreams (s : State) : State :=
  (List.range 16).foldl (fun st n =>
    let x := st.stream n
    if x.par (K.streamEnable n) = 1 ∧ x.par (K.streamKind n) ≠ 6 then
      (st.setStream n { x with parked := true, suspendedSent := if x.suspended then x.suspendedSent else st.now }).streamPublish n
    else st) s

/-- Enter BEDROCK with some causes. -/
def State.enterBedrock (s : State) (causes : Nat) : State :=
  let s0 := s.dropSteps
  match s0.keptChoice with
  | none => s0.enterFault Cause.noPort
  | some k =>
    let s1 := (s0.closePort k).noWaiting
    let s2 : State := { s1 with opt := { s1.opt with kept := some k }, power := { s1.power with clearSince := none } }
    let s3 := ((s2.roSet K.powerBedrockCauses causes).roSet K.powerLevel 2).setMode .bedrock Cause.bedrock
    let s4 := (s3.raiseSev Ev.bedrock 2 [u causes, u k.idx]).noFibre k.other
    let s5 := ((((s4.dtsCut k).biasOff .a).biasOff .b).dtsCheck).strataStop
    let s6 := ((s5.basaltStop).feStop).suspendStreams
    ((s6.standbyOff).reschedule k).relinkStart

/-- Enter RUNNING (R127, R210, R223, R227, R377). A remaining cause leads on to BEDROCK at once (R391). -/
def State.enterRunning (s : State) (cause : Nat) : State :=
  let fromBedrock : Bool := s.mode == .bedrock
  let k := s.opt.kept
  let s1 := s.setMode .running cause
  let s2 : State :=
    if fromBedrock then
      let a : State := { s1 with opt := { s1.opt with kept := none } }
      let b := a.roSet K.powerBedrockCauses 0
      let c := ((b.feStart).seedOn b.standby).relinkStart
      match k with
      | some p => c.reschedule p
      | none => c
    else { s1 with power := { s1.power with sums := [], alarmNext := s1.stamp / (secondUnits / 10) } }
  let s3 := ((s2.runDue .a).runDue .b).streamsRestart
  let s4 := s3.armAll
  let s5 := (s4.withPower { s4.power with clearSince := none, fitSince := none, undoing := none }).eachPort (fun st p => st.setPortSt p { st.portSt p with probeAt := none })
  if s5.causesNow ≠ 0 then s5.enterBedrock s5.causesNow else s5

/-! ### The save record (R386) -/

/-- Assemble the record. -/
def State.saveRec (s : State) : SaveRec where
  time := s.stamp
  boots := s.roGet K.sysBootCount
  epoch := s.roGet K.sysEpoch
  digest := sharedDigest s.cfg.live
  efc := s.roGet K.timebaseOcxoEfc
  ageing := s.roGet K.timebaseOcxoAgeing
  hours := (List.range 11).map (fun c => s.roGet (K.emitChHours c))
  charge := (List.range 11).map (fun c => s.roGet (K.emitChCharge c))
  indices := (List.range 11).map (fun c => s.roGet (K.emitChAgeing c))
  events := s.events.take 1024
  wear := s.health.erases

/-- The 64 KiB blocks of a save slot of 512 KiB (R396). -/
def slotBlocks (n : Nat) : List Nat := (List.range 8).map (fun i => 1728 + 8 * n + i)

/-- A record is written to the slot in turn, which is erased no more; the other slot is next. -/
def State.recordWritten (s : State) (r : SaveRec) : State :=
  let q := s.power
  s.withPower { q with saved := some r, slot := 1 - q.slot, dirty := q.dirty.set (Port.ofIdx q.slot) (slotBlocks q.slot) }

/-! ### GEODE (R380 to R383) -/

/-- Enter GEODE. The link kept is A's if up, else B's; with none up the ports are tried in turn from A; in deep GEODE both PHYs are off. -/
def State.enterGeode (s : State) (deep : Bool) (mask : Nat) (wake : Stamp) (grant : Bool) (cause : Nat) : State :=
  let s1 := s.setMode .geode cause
  let s2 := if s.mode.working then (s1.stopMeasuring).feStop else s1
  let s3 := ((s2.seedsOff).channelsOff (List.range 11)).closeSessions
  let rec_ := s3.saveRec
  let s4 := (s3.recordWritten rec_).memGeode
  let kept : Option Port := if deep then none else if (s4.link .a).up then some .a else if (s4.link .b).up then some .b else none
  let s5 := s4.eachPort (fun st p => if kept = some p then st.setLink p { st.link p with gigabit := true } else st.linkDown p)
  let g : Geode := { deep := deep, mask := if deep then mask % 16 else mask % 32, wake := wake, grant := grant,
                     live := ⟨s5.roGet K.sysEpoch, s5.cfg.live⟩, kept := kept, trying := if deep ∨ kept ≠ none then none else some (.a, s5.now), down := none, save := rec_ }
  let s6 : State := { s5 with cfg := { s5.cfg with commits := [], frozen := false }, ens := { s5.ens with prepared := none, coord := none },
                              power := { s5.power with geode := some g, stale := true, relink := [], runAsked := false, forced := false } }
  (s6.roSetInt K.timebaseSteer 0).selectTime

/-! ### Levels (R366, R376) -/

/-- POWER_WAIT: GEODE, woken by GRANT and WAKE (R366, R382). -/
def State.powerWait (s : State) : State := (s.roSet K.powerLevel 3).enterGeode false 1 0 true Cause.powerWait

/-- The level in RUNNING. FULL: nothing more is shed. SHED: steps until the demand fits. Else BEDROCK, with GRANT, or LADDER where the steps are exhausted, or POWER_WAIT. -/
def State.levelRunning (s : State) : State :=
  if s.causesNow ≠ 0 then s.enterBedrock s.causesNow
  else if s.covers s.fullDemand then (s.roSet K.powerLevel 0).watchUndo
  else if 380 ≤ s.usable then
    let s1 := s.roSet K.powerLevel 1
    if s1.covers s1.demandMw then s1.watchUndo
    else
      let s2 := State.shedMore 16 s1.cancelUndo
      if s2.covers s2.demandMw then s2.watchUndo else s2.enterBedrock 16
  else if s.covers s.bedrockDemand then s.enterBedrock 1
  else s.powerWait

/-- The level in READY. -/
def State.levelReady (s : State) : State :=
  if s.usable < 260 then s.powerWait
  else s.roSet K.powerLevel (if s.covers s.runDemand then 0 else if 380 ≤ s.usable then 1 else 2)

/-- The causes as they stand in BEDROCK: GRANT arises below 38.0 W, GRANT and LADDER clear at 40.0 W. -/
def State.bedrockCauses (s : State) : Nat :=
  let old := s.roGet K.powerBedrockCauses
  let grant := if s.usable < 380 then true else if 400 ≤ s.usable then false else bitOf old 0
  let ladder := bitOf old 4 && decide (s.usable < 400)
  b2n grant + s.causesNow + 16 * b2n ladder

/-- The level in BEDROCK: causes move, a standby seed a switch left on goes off, a kept port that can launch no more leads to FAULT or to the other port. -/
def State.levelBedrock (s : State) : State :=
  let c := s.bedrockCauses
  let s1 := s.roSet K.powerBedrockCauses c
  let s2 := s1.withPower { s1.power with clearSince := if c = 0 then (match s1.power.clearSince with
    | some t => some t
    | none => some s1.now) else none }
  let level := if bitOf c 0 || bitOf c 4 then 2 else if s2.covers s2.runDemand then 0 else 1
  if s2.covers s2.bedrockDemand = false then s2.powerWait
  else
    let s3 := (s2.roSet K.powerLevel level).standbyOff
    if (ports.any s3.canLaunch) = false then s3.enterFault Cause.noPort
    else match s3.opt.kept with
      | some k =>
        if s3.canLaunch k then s3
        else
          let s4 := s3.noFibre k
          ({ s4 with opt := { s4.opt with kept := some k.other } }).reschedule k.other
      | none => s3

/-- Evaluate the level (R366). With no source present PFAIL decides instead. -/
def State.evalLevel (s : State) : State :=
  let s0 := s.withPower { s.power with levelAt := s.now }
  if s0.powered = false then s0
  else match s0.mode with
    | .running => s0.levelRunning
    | .ready => s0.levelReady
    | .bedrock => s0.levelBedrock
    | _ => s0

end Sys2Proof.Machine
end

