-- ==== Sys2Proof/Machine/Boot.lean ====
section
/-! DEFINITION. Passing through BOOT: what survives it, what it starts, and entry to READY (R329, R339, R369 to R375, R381 to R387, R400). -/

namespace Sys2Proof.Machine

/-! ### What survives -/

/-- Rows of read-only parameters that live in flash or are measured in BOOT too: fibre records, emitter accounts, sources and grants, HOLD and housekeeping, OCXO, firmware, health
and the boot count. -/
def keptRows : List Nat :=
  [K.portFibreLength .a, K.portFibreRoundTrip .a, K.portFibreAutoPeriod .a, K.portFibreEndKind .a, K.portFibreEndReflectance .a, K.portFibreEventCount .a,
   K.portFibreEventOverflow .a, K.portFibreEventPosition .a 0, K.portFibreEventLoss .a 0, K.portFibreEventReflectance .a 0, K.portFibreSignature .a,
   K.portFibreDiscoveredAt .a, K.portDtsPointsLive .a, K.emitChAgeing 0, K.emitChHours 0, K.emitChCharge 0, K.powerSourcePresent .a, K.powerSourceVauxPresent,
   K.powerClass .a, K.powerGrant .a, K.powerGrantVaux, K.powerUsableW, K.powerHoldVoltage, K.powerHoldCapacitanceUf, K.powerCaseC, K.hkChRaw 0, K.hkChValue 0,
   K.timebaseOcxoEfc, K.timebaseOcxoAgeing, K.fwActive, K.fwImageState .a, K.fwImageVersion .a, K.fwMinSecurity, K.fwKeysRevoked, K.healthBgLast 0,
   K.healthFlashEraseMax, K.healthFlashSpareBlocks, K.healthLogNext, K.healthLifeHours, K.healthLifeTempBin 0, K.healthLifeEfcUsed, K.healthLifeWarnings,
   K.sysBootCount].map (·.row)

/-- The read-only parameters after a pass through BOOT has begun. -/
def keptRo (ro : PSet) : PSet := ⟨ro.entries.filter (fun e => keptRows.contains e.1.row)⟩

/-- A channel keeps its measurements for V_f(I) and what its charge account has not yet counted. -/
def bootChannel (x : Channel) : Channel := { Channel.idle with fit := x.fit, chargeRest := x.chargeRest }

/-- A port keeps that its record is stored and found a fibre. -/
def bootPort (x : PortSt) : PortSt := { PortSt.idle with stored := x.stored, fibreFound := x.fibreFound, profile := x.profile }

/-- The state of an image (R339). -/
def Fw.image (x : Fw) : Port → FwImage
  | .a => x.a
  | .b => x.b

/-- Replace an image and publish it. -/
def State.setImage (s : State) (p : Port) (x : FwImage) : State :=
  let s1 : State := { s with fw := match p with
    | .a => { s.fw with a := x }
    | .b => { s.fw with b := x } }
  let code := match x.state with
    | .empty => 0
    | .writing => 1
    | .valid => 2
    | .invalid => 3
    | .trial => 4
    | .active => 5
  (s1.roSet (K.fwImageState p) code).roSet (K.fwImageVersion p) x.version

/-- The code of an image's state. -/
def FwState.code : FwState → Nat
  | .empty => 0
  | .writing => 1
  | .valid => 2
  | .invalid => 3
  | .trial => 4
  | .active => 5

/-- An image changes state, to be told by EV_FW_STATE once NCP is served. -/
def State.imageLater (s : State) (p : Port) (st : FwState) (bootFailed : Bool) : State :=
  let x := s.fw.image p
  let s1 := s.setImage p { x with state := st, bootFailed := x.bootFailed || bootFailed }
  { s1 with fw := { s1.fw with told := s1.fw.told ++ [(p, st)] } }

/-- A trial that has not been confirmed fails at a pass through BOOT; an update in progress is lost (R337, R339). -/
def State.fwAtBoot (s : State) : State :=
  let s1 := if s.fw.trial then s.imageLater s.fw.running .invalid false else s
  let lose := fun (st : State) (p : Port) => if (st.fw.image p).state = .writing then st.setImage p { st.fw.image p with state := .empty, content := [] } else st
  let s2 := lose (lose s1 .a) .b
  { s2 with fw := { s2.fw with trial := false, trialDeadline := none, owner := none, expected := 0, received := 0 } }

/-- The counters a save record restores (R387). -/
def State.restoreCounters (s : State) (r : SaveRec) : State :=
  let s1 := (s.roSet K.timebaseOcxoEfc r.efc).roSet K.timebaseOcxoAgeing r.ageing
  (List.range 11).foldl (fun st c =>
    ((st.roSet (K.emitChHours c) (r.hours.getD c 0)).roSet (K.emitChCharge c) (r.charge.getD c 0)).roSet (K.emitChAgeing c) (r.indices.getD c 0)) s1

/-- After a loss of power the newest record's counters stand; with none, those of manufacture. -/
def State.restoreFlash (s : State) : State :=
  match s.power.saved with
  | some r => s.restoreCounters r
  | none => s.restoreCounters { s.saveRec with efc := (K.timebaseOcxoEfc).reset, ageing := 0, hours := [], charge := [], indices := [] }

/-- The module passes into BOOT. Everything but flash, the sources and the measured values starts as after reset; the counter starts at a new multiple of 20; the ring begins with
the events of a new save record, then EV_STATE. `cold` tells that it comes from OFF or SAVE: the counters are those of the newest record, and HOLD is charged anew (R373, R385). -/
def State.enterBoot (s : State) (cause : Nat) (cold : Bool) : State :=
  let f := s.fwAtBoot
  let boots := max 1 (s.roGet K.sysBootCount) + 1
  let z := State.reset
  let q := s.power
  let base : State :=
    { z with pending := s.pending, fresh := s.fresh, out := s.out, now := s.now, moduleId := s.moduleId, modeSince := s.modeSince, mode := s.mode, nextJob := s.nextJob,
             ro := keptRo f.ro
             cfg := { z.cfg with stored := s.cfg.stored }
             fw := f.fw
             time := { TimeBase.reset (20 * (Config.startCount boots : Int) - s.now) with phiAt := s.now, ageAt := s.now }
             health := { Health.reset with log := s.health.log, logSecond := s.health.logSecond, logInSecond := s.health.logInSecond, erases := s.health.erases,
                                           moved := s.health.moved, eraseSecond := s.health.eraseSecond, eraseCount := s.health.eraseCount, wear := s.health.wear,
                                           telAt := s.now, hourAt := s.now, lifeAt := s.now, pumpAged := s.health.pumpAged, hotHours := s.health.hotHours }
             opt := { z.opt with portA := bootPort s.opt.portA, portB := bootPort s.opt.portB }
             drive := { z.drive with channels := s.drive.channels.map bootChannel, emvAt := s.now }
             front := { z.front with hkAt := s.front.hkAt, hkNext := s.front.hkNext }
             basalt := { z.basalt with stored := s.basalt.stored, retired := s.basalt.retired, outOf := s.basalt.outOf }
             mem := { z.mem with table := s.mem.table, faulty := s.mem.faulty, retired := s.mem.retired, trained := s.mem.trained, spareLast := s.mem.spareLast }
             power := { PowerSt.reset with lldp := q.lldp, retries := q.retries, lockstep := q.lockstep, warned := q.warned, hot := q.hot, driven := false, held := q.held,
                                           bootAt := s.now, slot := q.slot, dirty := q.dirty, record := q.record, saved := q.saved, storedBad := q.storedBad,
                                           grantSince := q.grantSince, mpsAt := q.mpsAt } }
  let b0 := base.roSet K.sysBootCount boots
  let b1 := if cold then (b0.restoreFlash).roSet K.powerHoldVoltage 0 else b0
  let b2 := (List.range 11).foldl (fun st c => if s.chBad c then st.setChStatus c (s.chStatus c) else st) b1
  let b3 := (s.sess.zipIdx.filter (fun e => e.1.open_ && decide (1 ≤ e.2))).foldl (fun st e => st.emit (.closed e.2)) b2
  let b4 : State := match q.record with
    | some (r, _) => r.events.reverse.foldl (fun st e =>
        ({ st with events := ({ e with seq := st.roGet K.ncpEventNext } :: st.events).take 65536 }).bump K.ncpEventNext 1) b3
    | none => b3
  b4.setMode .boot cause

/-- BOOT begins from OFF: the sources present and their grants are reported (R361). -/
def State.powerOn (s : State) : State :=
  let s1 := s.enterBoot Cause.source true
  let s2 := allSources.foldl (fun st x => if st.present x then st.raise Ev.source [u (srcCode x), u 1] else st) s1
  allSources.foldl (fun st x => if st.present x then st.raise Ev.grant [u (srcCode x), u (st.roGet (grantKey x)), sv st.usable] else st) s2

/-! ### Applying a set with no swap point (R329, R383) -/

/-- The memory regions in force (R250). -/
def State.publishRegions (s : State) : State :=
  let strata := s.pG K.strataSizeGib
  let store := s.pG K.captureStoreGib
  ((s.roSet K.memRegionStrataBase 0x300000000).roSet K.memRegionCaptureBase (0x1000000000 - store * 2 ^ 30)).roSet K.memRegionFreeGib (52 - strata - store)

/-- A set is live from now everywhere, under an epoch. -/
def State.applySet (s : State) (set : PSet) (epoch : Nat) : State :=
  let b : Bank := ⟨epoch, set⟩
  let old := s.cfg.live
  let s1 : State := { s with cfg := { s.cfg with live := set, commits := [], actA := b, actB := b, actG := b, intA := b, intB := b, histA := [b], histB := [b],
                                                 past := ⟨[(s.stamp, set)], [(s.stamp, set)]⟩, pastG := [(s.stamp, set)], frozen := false } }
  let s2 := (s1.roSet K.sysEpoch epoch).eachPort (fun st p => (st.roSet (K.portPointsCountLive p) (st.resolveCount set p)).portAtF p old false)
  let s3 := ((s2.lockAtF old true).timeFieldsAtF (set.diff old)).streamsApply b
  let s4 := ((s3.strataAtF old).triggerAtF old).basaltAtF
  ((s4.publishRegions).regrant).ensAtF old

/-! ### Steps of BOOT (R373, R374) -/

/-- The image that starts: the other one under BOOT_SEL where it is VALID, a TRIAL one, the active one, or the other where it is VALID; none leads to recovery (R339, R372). -/
def State.chooseImage (s : State) (o : BootObs) : State × Bool :=
  let good : Port → Bool := fun p => match p with
    | .a => o.imageAOk
    | .b => o.imageBOk
  let act := s.fw.active
  let other := act.other
  let start := fun (st : State) (p : Port) (trial : Bool) =>
    ({ st with fw := { st.fw with running := p, trial := trial, trialDeadline := if trial then some (st.power.bootAt + 120 * secondTicks) else none } } : State)
  let normal := fun (st : State) =>
    if good act then
      let st1 := if (st.fw.image act).state = .active then st else st.setImage act { st.fw.image act with state := .active, bootFailed := false }
      (start st1 act false, true)
    else
      let st1 := st.imageLater act .invalid true
      if (st1.fw.image other).state = .valid ∧ good other then
        let st2 := (st1.imageLater other .active false).roSet K.fwActive other.idx
        (start { st2 with fw := { st2.fw with active := other } } other false, true)
      else (st1, false)
  if o.bootSel ∧ (s.fw.image other).state = .valid ∧ good other then (start s other false, true)
  else if (s.fw.image other).state = .trial then
    (if good other then (start s other true, true) else normal (s.imageLater other .invalid true))
  else normal s

/-- The DRAM is trained; a rank that fails is exchanged for the spare with no copy (R262, R268). The answer tells whether every rank in use passed. -/
def State.bootDram (s : State) (full ok : List Bool) : State × Bool :=
  let s1 := s.memBoot full ok
  let s2 := match s1.mem.migration with
    | some g =>
      let m := s1.mem
      let a := s1.withMem { m with migration := none, table := m.table.map (fun r => if r = g.old then g.new else r), retired := g.old :: m.retired }
      ((a.setRank g.old { a.rank g.old with selfRefresh := true }).setRank g.new { a.rank g.new with selfRefresh := false }).trainRank g.new
        (full.getD g.new false) (ok.getD g.new true)
    | none => s1
  (s2.publishRanks, s2.mem.table.all (fun r => ok.getD r true))

/-- Persistent kernels return to their slots; one whose check fails leaves its slot EMPTY (R214). Cause 11 stands for IMAGE (log entry 16). -/
def State.bootKernels (s : State) (ok : List Bool) : State :=
  s.basalt.stored.foldl (fun st e =>
    if ok.getD e.1 true then (st.setSlot e.1 { (st.slot e.1) with image := e.2 }).publishImage e.1
    else st.raise Ev.kernelFault [u 255, u 255, u 255, u 11, u 0, u e.1]) s

/-- Cores out of service are retested: one retired once returns as a spare where it passes (R400). The first 32 good cores are ACTIVE, the others spares (R182). -/
def State.bootCores (s : State) (ok : List Bool) : State :=
  let back := s.basalt.outOf.filter (fun c => ok.getD c false && decide ((s.basalt.retired.filter (· == c)).length < 2))
  let stay := s.basalt.outOf.filter (fun c => !back.contains c)
  let good := (List.range 34).filter (fun c => !stay.contains c && !back.contains c)
  let place := fun (c : Nat) (x : BCore) =>
    if stay.contains c then { x with role := 2, logical := 0 }
    else match (good ++ back).idxOf? c with
      | some n => if n < 32 then { x with role := 0, logical := n } else { x with role := 1, logical := 0 }
      | none => x
  let s1 : State := { s with basalt := { s.basalt with outOf := stay, cores := (List.range 34).map (fun c => place c (s.core c)) } }
  let s2 := (List.range 34).foldl (fun st c => st.publishCore c) s1
  back.foldl (fun st c => st.raise Ev.coreReturned [u c]) s2

/-! ### READY (R302, R369, R375, R387, R429) -/

/-- What waits for NCP to be served: the save's result, and image states. -/
def State.tellHost (s : State) : State :=
  let s1 := match s.power.record with
    | some (r, result) => (s.withPower { s.power with record := none }).raiseSev Ev.saveResult (if result = 0 then 1 else 2) [tsVal r.time, u r.epoch, u result]
    | none => s
  let s2 : State := { s1 with fw := { s1.fw with told := [] } }
  s1.fw.told.foldl (fun st e => st.raise Ev.fwState [u e.1.idx, u e.2.code]) s2

/-- Entry to READY from BOOT or GEODE: retest and neighbour test, seeds, front end; a trial image has fw.trial_s from here. -/
def State.enterReady (s : State) (cause : Nat) (fromBoot : Bool) (shorts : List (Nat × Nat)) : State :=
  let s1 := s.setMode .ready cause
  let s2 := ((s1.retest shorts).neighbourTest shorts).seedsStart fromBoot
  let s3 := s2.feStart
  let s4 : State := if s3.fw.trial ∧ fromBoot then { s3 with fw := { s3.fw with trialDeadline := some (s3.now + s3.pG K.fwTrialS * secondTicks) } } else s3
  (s4.tellHost).evalLevel

/-- FAULT reached from BOOT (R374). -/
def State.bootFault (s : State) (code cause : Nat) : State :=
  let s1 := s.enterFault cause
  (s1.withPower { s1.power with bootFail := code }).tellHost

/-- A failed lockstep self-test: BOOT repeats, at most 3 times within 60 s, then holds (R374). -/
def State.lockstepFailed (s : State) : State :=
  let ts := (s.now :: s.power.lockstep).filter (fun t => decide (s.now < t + 60 * secondTicks))
  let s1 := s.withPower { s.power with lockstep := ts }
  if ts.length ≤ 3 then s1.enterBoot Cause.lockstep false
  else s1.withPower { s1.power with stuck := true, bootFail := 1 }

/-- The steps of BOOT after the self-test of the management processor. -/
def State.bootSteps (s : State) (o : BootObs) : State :=
  let im := s.chooseImage o
  if im.2 = false then im.1.withPower { im.1.power with recovery := true, bootFail := 2 }
  else if o.pllOk = false then im.1.bootFault 3 Cause.bootPll
  else
    let d := im.1.bootDram o.rankFull o.rankOk
    if d.2 = false then d.1.bootFault 4 Cause.bootDram
    else
      let s1 := (d.1.bootKernels o.kernelOk).bootCores o.coreRetestOk
      let bad : Bool := s1.cfg.stored.isSome && !o.storedOk
      let set : PSet := if bad then PSet.reset else s1.cfg.stored.getD PSet.reset
      let s2 : State := { s1 with cfg := { s1.cfg with draft := set }, power := { s1.power with storedBad := bad, runAsked := set.get K.powerAutorun == 1 } }
      let s3 := (s2.applySet set 1).publishStore
      let s4 := s3.logEntry 1 0 1 s3.stamp []
      if 260 ≤ s4.usable then s4.enterReady (if bad then Cause.storedSetInvalid else Cause.boot) true o.neighbourShorts
      else s4.powerWait

/-! ### Waking (R381 to R383) -/

/-- GEODE ends on a wake source: the live set held becomes live under the next epoch, the DRAM leaves self-refresh, READY follows. -/
def State.wakeUp (s : State) (source : Nat) (shorts : List (Nat × Nat)) : State :=
  match s.power.geode with
  | none => s
  | some g =>
    let s1 := s.raise Ev.wake [u source]
    let epoch := if g.live.epoch = 4294967295 then 1 else g.live.epoch + 1
    let s2 := (s1.withPower { s1.power with geode := none, stale := false, runAsked := g.live.set.get K.powerRunOnWake == 1 }).memWake
    let s3 := s2.withTime { s2.time with held := false }
    let s4 := s3.applySet g.live.set epoch
    (s4.enterReady Cause.wake false shorts).selectTime

end Sys2Proof.Machine
end

