-- ==== Sys2Proof/Machine/Power.lean ====
section
/-! DEFINITION. Commands of power and module states (chapter 15): sources, levels, BOOT, wakes, power failure, thermal limits, alarms. -/

namespace Sys2Proof.Machine

/-! ### Sources (R361 to R363) -/

/-- SOURCE_LOSS: a source below its loss threshold for 5 µs is lost; its classification and allocation go with it. -/
def execSourceLoss (t : Tick) (src : Source) (s : State) : Out :=
  let s0 := s.at t
  if s0.present src = false then .next s0
  else
    let s1 := s0.roSet (srcKey src) 0
    let s2 := match src with
      | .a => (s1.roSet (K.powerClass .a) 0).withPower { s1.power with lldp := s1.power.lldp.set .a none }
      | .b => (s1.roSet (K.powerClass .b) 0).withPower { s1.power with lldp := s1.power.lldp.set .b none }
      | .vaux => s1
    let s3 := if s2.mode = .off then s2 else s2.raise Ev.source [u (srcCode src), u 0]
    .next (s3.regrant).evalLevel

/-- SOURCE_PRESENT: a source is present; from OFF BOOT begins, unless PFAIL_N is held low (R426). -/
def execSourcePresent (t : Tick) (src : Source) (s : State) : Out :=
  let s0 := s.at t
  if s0.present src then .next s0
  else
    let s1 := s0.roSet (srcKey src) 1
    if s1.mode = .off then
      let s2 := s1.regrant
      .next (if s2.power.held then s2 else s2.powerOn)
    else .next ((s1.raise Ev.source [u (srcCode src), u 1]).regrant).evalLevel

/-- POE_CLASSIFICATION: the class the PSE assigns sets the grant. -/
def execPoeClassification (t : Tick) (p : Port) (cls : Nat) (s : State) : Out :=
  .next (((s.at t).roSet (K.powerClass p) cls).regrant).evalLevel

/-- LLDP_POWER_ALLOCATION: the PSE answers with an allocation in 0.1 W. -/
def execLldpPowerAllocation (t : Tick) (p : Port) (alloc : Nat) (s : State) : Out :=
  let s0 := s.at t
  if s0.mode = .off then .next s0
  else .next ((s0.withPower { s0.power with lldp := s0.power.lldp.set p (some alloc) }).regrant).evalLevel

/-- MPS_PULSE: every 250 ms a signature pulse on each powered network port, in every state but OFF (R362). -/
def execMpsPulse (t : Tick) (s : State) : Out :=
  let s0 := s.at t
  if s0.mode = .off ∨ s0.now < s0.power.mpsAt + 250 * msTicks then .next s0
  else
    let s1 := s0.withPower { s0.power with mpsAt := s0.now }
    let s2 := if s1.present .a then s1.emit (.mps .a) else s1
    .next (if s2.present .b then s2.emit (.mps .b) else s2)

/-! ### Levels (R366, R368, R375, R376) -/

/-- LEVEL_EVALUATION: every 10 ms. -/
def execLevelEvaluation (t : Tick) (s : State) : Out :=
  let s0 := s.at t
  .next (if s0.power.levelAt + 10 * msTicks ≤ s0.now then s0.evalLevel else s0)

/-- The undo of a step begins; it completes at once where nothing is to wait for. -/
def State.undoStep (s : State) (i : Nat) : State :=
  let s1 := s.withPower { s.power with undoing := some i, fitSince := none }
  match i with
  | 1 =>
    let s2 := s1.dtsCheck
    if ports.any (fun p => s2.hasFrames p && s2.pP p (K.portDtsEnable p) == 1) then s2 else s2.undoDone 1
  | 2 =>
    let s2 := s1.seedOn s1.standby
    if s2.seedStatus s2.standby = 1 then s2 else s2.undoDone 2
  | 3 => ((List.range 8).foldl (fun st k => (st.setInst k { st.inst k with shed := false }).publishInst k) s1).undoDone 3
  | _ => if s1.hasFrames s1.shedPort then s1 else s1.undoDone 4

/-- SHED_UNDO: after 10 s in which G_u exceeded what it needs by 2.0 W, the last step in force is undone (R368). -/
def execShedUndo (t : Tick) (s : State) : Out :=
  let s0 := s.at t
  match s0.power.fitSince with
  | none => .next s0
  | some f =>
    if s0.mode = .running ∧ s0.lastStep ≠ 0 ∧ s0.power.undoing = none ∧ f + 10 * secondTicks ≤ s0.now then .next (s0.undoStep s0.lastStep) else .next s0

/-- BEDROCK_EXIT: every cause has been clear for power.bedrock_exit_s; the level is evaluated afresh. -/
def execBedrockExit (t : Tick) (s : State) : Out :=
  let s0 := s.at t
  match s0.power.clearSince with
  | none => .next s0
  | some c =>
    if s0.mode = .bedrock ∧ s0.bedrockCauses = 0 ∧ c + s0.pG K.powerBedrockExitS * secondTicks ≤ s0.now then
      .next (s0.enterRunning Cause.bedrockExit).evalLevel
    else .next s0

/-- READY_TO_RUNNING: a run is requested, a seed is LOCKED, the case is at −20 °C or above, the level is FULL or SHED; a self-test runs in READY only (R375, R403). -/
def execReadyToRunning (t : Tick) (s : State) : Out :=
  let s0 := s.at t
  if s0.mode = .ready ∧ s0.power.runAsked ∧ (s0.seedStatus .s0 = 2 ∨ s0.seedStatus .s1 = 2) ∧ -2000 ≤ s0.caseCenti ∧ s0.roGet K.powerLevel ≤ 1
     ∧ s0.health.selftest.running = false then
    .next (s0.enterRunning Cause.run).evalLevel
  else .next s0

/-! ### BOOT and its ends (R369 to R374, R426) -/

/-- BOOT_COMPLETE: the boot sequence has run. -/
def execBootComplete (t : Tick) (obs : BootObs) (s : State) : Out :=
  let s0 := s.at t
  if s0.mode ≠ .boot ∨ s0.power.stuck ∨ s0.power.recovery then .next s0
  else
    let s1 := s0.roSet K.sysBootCount (max 1 (s0.roGet K.sysBootCount))
    .next (if obs.lockstepOk then s1.bootSteps obs else s1.lockstepFailed)

/-- FAULT_RETRY: power.fault_retry_s after FAULT, at most 3 times in 24 h, after a thermal fault only at 70 °C or below (R371). -/
def execFaultRetry (t : Tick) (s : State) : Out :=
  let s0 := s.at t
  let recent := s0.power.retries.filter (fun r => decide (s0.now < r + 86400 * secondTicks))
  let wait := s0.pG K.powerFaultRetryS
  if s0.mode = .fault ∧ wait ≠ 0 ∧ s0.power.faultAt + wait * secondTicks ≤ s0.now ∧ recent.length < 3 ∧ (s0.power.thermal = false ∨ s0.caseCenti ≤ 7000) then
    .next ((s0.withPower { s0.power with retries := s0.now :: recent }).enterBoot Cause.retry false)
  else .next s0

/-- RESET_N low for 10 µs: BOOT from every state but OFF, and SAVE, which completes first (R369, R372). -/
def execResetN (t : Tick) (s : State) : Out :=
  let s0 := s.at t
  .next (if s0.mode = .off ∨ s0.mode = .save then s0 else s0.enterBoot Cause.resetN false)

/-- LOCKSTEP_MISMATCH: the management processor passes through BOOT (R369). -/
def execLockstepMismatch (t : Tick) (s : State) : Out :=
  let s0 := s.at t
  .next (if s0.mode = .off ∨ s0.mode = .save ∨ s0.power.stuck then s0 else s0.enterBoot Cause.lockstep false)

/-- FW_TRIAL_TIMEOUT: an unconfirmed trial fails, and the previous image boots (R339). -/
def execFwTrialTimeout (t : Tick) (s : State) : Out :=
  let s0 := s.at t
  match s0.fw.trialDeadline with
  | none => .next s0
  | some d => .next (if s0.fw.trial ∧ d ≤ s0.now ∧ s0.mode ≠ .off ∧ s0.mode ≠ .save then s0.enterBoot Cause.trial false else s0)

/-- PFAIL_N_RELEASE: BOOT begins, 100 ms after the release of a PFAIL_N held from outside while a source is present (R426); `t` is the start of BOOT. -/
def execPfailNRelease (t : Tick) (s : State) : Out :=
  let s0 := s.at t
  if s0.power.held = false then .next s0
  else
    let s1 := s0.withPower { s0.power with held := false }
    .next (if s1.mode = .off ∧ s1.powered then s1.powerOn else s1)

/-! ### Waking (R382, R383) -/

/-- Bit `b` of the wake mask of a module in GEODE. -/
def State.wakes (s : State) (b : Nat) : Bool :=
  s.mode == .geode && (match s.power.geode with
    | some g => bitOf g.mask b
    | none => false)

/-- A value of the live set GEODE holds. -/
def State.geodePar (s : State) (k : Key) : Nat :=
  match s.power.geode with
  | some g => g.live.set.get k
  | none => k.reset

/-- WAKE_INPUT: WAKE high for 1 ms. -/
def execWakeInput (t : Tick) (shorts : List (Nat × Nat)) (s : State) : Out :=
  let s0 := s.at t
  .next (if s0.wakes 0 then s0.wakeUp 0 shorts else s0)

/-- COMPARATOR_WAKE: CMP_x stands beyond its threshold, in the direction of its polarity, for its persistence. -/
def execComparatorWake (t : Tick) (x : Port) (mv : Nat) (beyondUs : Nat) (shorts : List (Nat × Nat)) (s : State) : Out :=
  let s0 := s.at t
  let limit := s0.geodePar (K.powerCmpThresholdMv x)
  let beyond : Bool := if s0.geodePar (K.powerCmpPolarity x) = 0 then decide (limit < mv) else decide (mv < limit)
  .next (if s0.wakes (1 + x.idx) ∧ beyond ∧ s0.geodePar (K.powerCmpPersistUs x) ≤ beyondUs then s0.wakeUp (1 + x.idx) shorts else s0)

/-- WAKE_TIMER: the time counter has reached the wake time. -/
def execWakeTimer (t : Tick) (shorts : List (Nat × Nat)) (s : State) : Out :=
  let s0 := s.at t
  match s0.power.geode with
  | none => .next s0
  | some g => .next (if s0.wakes 3 ∧ g.wake ≤ s0.stamp then s0.wakeUp 3 shorts else s0)

/-- WAKE_DATAGRAM: a UDP datagram to ncp.tcp_port on the kept link holds a WAKE request with a valid check value. -/
def execWakeDatagram (t : Tick) (h : Hdr) (udp : Nat) (link : Port) (shorts : List (Nat × Nat)) (s : State) : Out :=
  let s0 := s.at t
  match s0.power.geode with
  | none => .next s0
  | some g =>
    .next (if s0.wakes 4 ∧ g.deep = false ∧ g.kept = some link ∧ (s0.link link).up ∧ udp = s0.geodePar K.ncpTcpPort ∧ h.version = 1 ∧ h.kind = 0 ∧ h.bodyLen = 0
              ∧ s0.checkOk h 0x0084 [] then s0.wakeUp 4 shorts else s0)

/-- GRANT_WAKE: in POWER_WAIT, G_u at 28.0 W or more for 1 s. -/
def execGrantWake (t : Tick) (shorts : List (Nat × Nat)) (s : State) : Out :=
  let s0 := s.at t
  match s0.power.geode, s0.power.grantSince with
  | some g, some f => .next (if s0.mode = .geode ∧ g.grant ∧ f + secondTicks ≤ s0.now then s0.wakeUp 5 shorts else s0)
  | _, _ => .next s0

/-- GEODE_LINK_TRY: the port being tried comes up, or after 10 s the other port is tried; tries begin from port A once the kept link has been down for 10 s (R380). -/
def execGeodeLinkTry (t : Tick) (p : Port) (up : Bool) (s : State) : Out :=
  let s0 := s.at t
  match s0.power.geode with
  | none => .next s0
  | some g0 =>
    let g : Geode := match g0.trying, g0.down with
      | none, some d => if d + 10 * secondTicks ≤ s0.now ∧ g0.deep = false then { g0 with trying := some (.a, d + 10 * secondTicks), kept := none, down := none } else g0
      | _, _ => g0
    match g.trying with
    | none => .next s0
    | some (q, since) =>
      if s0.mode ≠ .geode ∨ q ≠ p then .next s0
      else if up then
        let s1 := s0.setLink p { s0.link p with up := true, gigabit := true, since := s0.now }
        .next (s1.withPower { s1.power with geode := some { g with kept := some p, trying := none, down := none } })
      else if since + 10 * secondTicks ≤ s0.now then .next (s0.withPower { s0.power with geode := some { g with trying := some (p.other, s0.now) } })
      else .next s0

/-! ### Power failure and save (R384 to R387) -/

/-- The save is armed (R385): HOLD at 57 V, at least 300 µF measured, an erased slot ready. -/
def State.armed (s : State) : Bool :=
  decide (57000 ≤ s.roGet K.powerHoldVoltage) && decide (300 ≤ s.roGet K.powerHoldCapacitanceUf) && s.power.dirty.get (Port.ofIdx s.power.slot) == []

/-- Everything stops: nothing is driven, nothing measured, no session is open. -/
def State.shutDown (s : State) (was : Mode) : State :=
  let s1 := if was.working then (s.stopMeasuring).feStop else s
  (((s1.seedsOff).channelsOff (List.range 11)).closeSessions).memSave

/-- PFAIL: no source has been present for 5 µs, or PFAIL_N is held low from outside. SAVE where the save is armed; OFF otherwise, and from GEODE, whose own record stands (R387). -/
def execPfail (t : Tick) (external : Bool) (s : State) : Out :=
  let s0 := s.at t
  let s1 := s0.withPower { s0.power with held := s0.power.held || external }
  if s1.mode = .off ∨ s1.mode = .save then .next s1
  else if external = false ∧ s1.powered then .next s1
  else
    let s2 := s1.withPower { s1.power with driven := true }
    match if s2.mode = .geode then s2.power.geode else none with
    | some g =>
      let s3 := s2.withPower { s2.power with record := some (g.save, 0), geode := none }
      .next (s3.setMode .off Cause.pfail)
    | none =>
      if s2.armed then
        let s3 := (s2.setMode .save Cause.pfail).shutDown s2.mode
        .next (s3.withPower { s3.power with record := some ({ s3.saveRec with time := s2.stamp }, 1) })
      else
        let r := { s2.saveRec with events := [] }
        let s3 := (s2.setMode .off Cause.pfail).shutDown s2.mode
        .next (s3.withPower { s3.power with record := some (r, 1), stuck := false, recovery := false })

/-- SAVE_COMPLETE: the record is written and checked, or its writing failed; BOOT follows if a source is present, else OFF. -/
def execSaveComplete (t : Tick) (ok : Bool) (s : State) : Out :=
  let s0 := s.at t
  match s0.mode, s0.power.record with
  | .save, some (r, _) =>
    let s1 := if ok then (s0.recordWritten r).withPower { (s0.recordWritten r).power with record := some (r, 0) }
      else s0.withPower { s0.power with record := some ({ r with events := [] }, 2), dirty := s0.power.dirty.set (Port.ofIdx s0.power.slot) (slotBlocks s0.power.slot) }
    let s2 := s1.logEntry 2 0 1 r.time []
    .next (if s2.powered ∧ s2.power.held = false then s2.enterBoot Cause.saveDone true else s2.setMode .off Cause.saveDone)
  | _, _ => .next s0

/-- HOLD_CAPACITANCE_MEASURE: a capacitance outside 700 to 1500 µF raises EV_HOLD (R385). -/
def execHoldCapacitanceMeasure (t : Tick) (microfarad : Nat) (millivolt : Nat) (s : State) : Out :=
  let s0 := s.at t
  if s0.mode = .off then .next s0
  else
    let s1 := (s0.roSet K.powerHoldCapacitanceUf microfarad).roSet K.powerHoldVoltage millivolt
    .next (if microfarad < 700 ∨ 1500 < microfarad then s1.raiseSev Ev.hold 2 [u microfarad] else s1)

/-! ### Thermal limits (R388) -/

/-- THERMAL_THRESHOLD: the case has stood beyond a threshold for its persistence. EV_THERMAL carries 0 for WARN, 1 for FAULT. -/
def execThermalThreshold (t : Tick) (which : Thermal) (s : State) : Out :=
  let s0 := s.at t
  if s0.mode = .off ∨ s0.mode = .geode ∨ s0.mode = .save then .next s0
  else match which with
    | .warn => if s0.power.warned then .next s0 else .next ((s0.withPower { s0.power with warned := true }).raiseSev Ev.thermal 2 [u 0])
    | .warnClear => .next (s0.withPower { s0.power with warned := false })
    | .bedrock =>
      let s1 := s0.withPower { s0.power with hot := true }
      .next (if s1.mode = .running then s1.enterBedrock s1.causesNow else if s1.mode = .bedrock then s1.evalLevel else s1)
    | .bedrockClear =>
      let s1 := s0.withPower { s0.power with hot := false }
      .next (if s1.mode = .bedrock then s1.evalLevel else s1)
    | .fault => if s0.mode.working then .next ((s0.raiseSev Ev.thermal 3 [u 1]).enterFault Cause.thermal) else .next s0

/-! ### Alarms (R378, R379) -/

/-- 100 ms in units of 2⁻¹⁶ ns. -/
def alarmUnits : Int := secondUnits / 10

/-- π to 20 decimals (log entry 13). -/
def piRat : Rat := 314159265358979323846 / 100000000000000000000

/-- E of a zone in (rad/s)²; none for NO_DATA. -/
def State.zoneEnergy (s : State) (z : Nat) (x : ZoneSum) : Option Rat :=
  let p := Port.ofIdx (s.pG (K.alarmZonePort z))
  if s.hasFrames p = false ∨ x.words = 0 ∨ 2 * x.valid < x.words then none
  else
    let w : Rat := 2 * piRat / 4294967296 * (200000000 / (max 1 (s.traceInterval p) : Nat))
    some ((x.square : Rat) * w * w / (x.valid : Nat))

/-- One zone at the end of an interval: its state moves; the answer is its record and whether ALARM changed. -/
def State.zoneStep (s : State) (z : Nat) (start : Stamp) (x : ZoneSum) : State × List Byte :=
  let old := s.power.zones.getD z ⟨false, 0⟩
  let e := s.zoneEnergy z x
  let limit := f32D (s.pG (K.alarmZoneThreshold z))
  let new : Zone := match e with
    | none => { old with quiet := 0 }
    | some v =>
      if limit < v then ⟨true, 0⟩
      else if old.alarm ∧ 2 * v ≤ limit then (if 10 ≤ old.quiet + 1 then ⟨false, 0⟩ else ⟨true, old.quiet + 1⟩)
      else { old with quiet := 0 }
  let bits : Nat := match e with
    | some v => f32Round v
    | none => 0x7FC00000
  let s1 := s.withPower { s.power with zones := s.power.zones.set z new }
  let s2 := s1.roSet (K.alarmZoneState z) (if e = none then 2 else b2n new.alarm)
  let s3 := if new.alarm = old.alarm then s2 else s2.raiseSev Ev.alarm 2 [u z, u (b2n new.alarm), .f32 (BitVec.ofNat 32 bits), tsVal start]
  let flags := b2n new.alarm + 2 * b2n e.isNone + 4 * b2n (decide (new.alarm ≠ old.alarm)) + 8 * b2n (s.mode == .bedrock)
  (s3, le 4 bits ++ le 2 z ++ le 2 flags ++ le 4 x.valid)

/-- ALARM_INTERVAL: the oldest interval not yet evaluated has ended; every enabled zone is judged, and each ALARM stream sends one record for each. -/
def execAlarmInterval (t : Tick) (s : State) : Out :=
  let s0 := s.at t
  let n := s0.power.alarmNext
  if s0.mode.measuring = false ∨ s0.stamp < (n + 1) * alarmUnits then .next s0
  else
    let sums := ((s0.power.sums.find? (fun e => e.1 == n)).map (·.2)).getD []
    let zones := (List.range 64).filter (fun z => s0.pG (K.alarmZoneEnable z) == 1)
    let r := zones.foldl (fun (acc : State × List Byte) z =>
      let y := acc.1.zoneStep z (n * alarmUnits) (sums.getD z ⟨0, 0, 0⟩)
      (y.1, acc.2 ++ y.2)) (s0, [])
    let s1 := r.1.withPower { r.1.power with alarmNext := n + 1, sums := r.1.power.sums.filter (fun e => decide (n < e.1)) }
    let tile : Tile := { wholeTile 6 255 (n * alarmUnits) 20000000 n.toNat 0 1 0 zones.length 1 0x18 (s1.roGet K.sysEpoch) r.2 with
                         lastInput := (n + 1) * alarmUnits, thinned := s0.mode == .bedrock }
    .next (if zones = [] then s1 else (List.range 16).foldl (fun st sid => (st.loadDue sid (n * alarmUnits)).enqueue sid 6 [tile]) s1)

end Sys2Proof.Machine
end

