-- ==== Sys2Proof/Machine/Objects.lean ====
section
/-! DEFINITION. Reading parameters, and the commands on the draft set (R10 to R14, R323 to R326, R335). -/

namespace Sys2Proof.Machine

/-! ### Reading -/

/-- Read-only parameters that follow from the rest of the state; none for one that is stored. -/
def State.derivedRo (s : State) (k : Key) : Option Nat :=
  if k = K.sysModuleId then some s.moduleId.toNat
  else if k = K.sysDraftRev then some s.cfg.draftRev
  else if k = K.timebaseOffset then some (ofInt 64 (s.phi s.now))
  else if k = K.timebaseLaunchDelay .a then some (launchDelay .a)
  else if k = K.timebaseLaunchDelay .b then some (launchDelay .b)
  else if k = K.powerState then some s.mode.code
  else if k = K.powerDemandW then some (deciWatts s.demandMw)
  else if k = K.powerPresentFaults then some (min 15 s.presentFaults)
  else if k = K.powerHoldArmed then some (b2n s.armed)
  else if k = K.dtsGamma then some Config.gammaF32.toNat
  else if k = K.portDtsCoilPosition .a then some (Config.coilPosition 0).toNat
  else if k = K.portDtsCoilPosition .b then some (Config.coilPosition 1).toNat
  else if k = K.emitLedSupVoltage then some ledSup
  else if k = K.memMigrationProgress then some s.migrationProgress
  else if k = K.healthDroppedTraces then some ((s.roGet K.memP0DroppedTraces + s.roGet K.memP1DroppedTraces) % 4294967296)
  else if k.row = (K.hkChAge 0).row then some (min 4294967295 ((s.now - s.front.hkAt.getD k.i 0) / msTicks))
  else if k.row = (K.feChLinC 0 0 0).row ∧ 4 ≤ k.i ∧ k.i ≤ 6 then some (Config.feFactory k.i k.j k.k).toNat
  else if k.row = (K.basaltCoreTrace 0 0).row then some (((s.core k.i).ring.getD k.j 0).toNat)
  else none

/-- The value of a read-only parameter. -/
def State.readRo (s : State) (k : Key) : Nat := (s.derivedRo k).getD (s.roGet k)

/-- The value of any parameter (R12, R13): RO its state, WO 0, RW the live value or that of the draft. -/
def State.readParam (s : State) (draft : Bool) (k : Key) : Nat :=
  match k.access with
  | .ro => s.readRo k
  | .wo => 0
  | _ => if draft then s.cfg.draft.get k else s.cfg.live.get k

/-- A path as it may stand in a message: at most 64 bytes (R318, R323). -/
def pathFits (p : String) : Bool := decide (p.length ≤ 64)

/-- A path with its value. -/
def State.paramItem (s : State) (draft : Bool) (k : Key) : List Byte := str k.path ++ valBytes (paramVal k (s.readParam draft k))

/-- The keys a path of a read stands for: those under its star, or the one it names; none where it names none. -/
def readKeys (p : String) : Option (List Key) :=
  match starStem p with
  | some stem => some (keysUnder stem)
  | none => (keyOfPath p).map (fun k => [k])

/-- The first path that names nothing. -/
def badPath (ps : List String) : Option String := ps.find? (fun p => (readKeys p).isNone)

/-- CFG_GET. -/
def State.cfgGet (s : State) (draft : Bool) (cursor : Nat) (paths : List String) : Answer :=
  if paths.all pathFits = false then Answer.fail E.format
  else match badPath paths with
    | some p => .err E.path 0xFFFF p ""
    | none => page ((paths.flatMap (fun p => (readKeys p).getD [])).map (s.paramItem draft)) cursor

/-- CFG_GET: the live values, or those of the draft, of the named paths (R13, R323). -/
def execCfgGet (h : Hdr) (cursor : Nat) (paths : List String) (s : State) : Out :=
  request 0x0010 h (le 4 cursor ++ le 2 paths.length ++ paths.flatMap str) (fun st => (st, st.cfgGet h.draft cursor paths)) s

/-! ### Lists -/

/-- The code of a typed-value kind (R318). -/
def Kind.code : Kind → Nat
  | .u64 => 0
  | .s64 => 1
  | .f32 => 2
  | .ts96 => 3
  | .b128 => 4

/-- The code of an access code in CFG_LIST. -/
def Access.code : Access → Nat
  | .ro => 0
  | .rw => 1
  | .w1c => 2
  | .wo => 3

/-- The code of a swap class in CFG_LIST. -/
def Swap.code : Swap → Nat
  | .fixed => 0
  | .frame => 1
  | .block => 2
  | .integration => 3
  | .restart => 4

/-- One item of CFG_LIST (R324). -/
def listItem (k : Key) : List Byte :=
  let r := rowAt k.row
  str k.path ++ le 1 r.kind.code ++ le 1 r.width ++ le 1 k.access.code ++ le 1 k.swap.code ++ valBytes (paramVal k k.reset) ++ valBytes (paramVal k r.lo) ++
    valBytes (paramVal k r.hi)

/-- The keys a prefix of CFG_LIST stands for: those that begin with it, the star of ".*" left out. -/
def listKeys (stem : String) : List Key := keysUnder ((starStem stem).getD stem)

/-- CFG_LIST: kind, width, access, swap class, reset value and limits of every parameter under a prefix (R324). -/
def execCfgList (h : Hdr) (cursor : Nat) (stem : String) (s : State) : Out :=
  request 0x0015 h (le 4 cursor ++ str stem) (fun st => (st, if pathFits stem then page ((listKeys stem).map listItem) cursor else Answer.fail E.format)) s

/-- The keys of a set's differences from another in tree order. -/
def diffKeys (a b : PSet) : List Key := (treeOrder (a.diff b)).map (·.2)

/-- CFG_DIFF: paths whose draft differs from live, in tree order. -/
def execCfgDiff (h : Hdr) (cursor : Nat) (s : State) : Out :=
  request 0x0014 h (le 4 cursor) (fun st => (st, page ((diffKeys st.cfg.draft st.cfg.live).map (fun k => str k.path)) cursor)) s

/-! ### Setting the draft (R324 to R326) -/

/-- A typed value that is well formed on the wire: BYTES of at most 1024, a TS96 in range (R318, R272). -/
def Val.formed : Val → Bool
  | .bytes v => decide (v.length ≤ 1024)
  | .ts96 v => tsOk v.toNat
  | _ => true

/-- A value's kind is the parameter's. -/
def kindMatches (k : Kind) : Val → Bool
  | .u64 _ => k == .u64
  | .s64 _ => k == .s64
  | .f32 _ => k == .f32
  | .ts96 _ => k == .ts96
  | .b128 _ => k == .b128
  | .bytes _ => false

/-- A value as the parameter's bits, none where it lies outside width, minimum or maximum (R324). -/
def valBits (r : PRow) : Val → Option Nat
  | .u64 v => if r.lo ≤ v.toNat ∧ v.toNat ≤ r.hi then some v.toNat else none
  | .s64 v =>
    let x := v.toInt
    if asInt r.width r.lo ≤ x ∧ x ≤ asInt r.width r.hi then some (ofInt r.width x) else none
  | .f32 v =>
    match f32Val v.toNat with
    | some x => if f32D r.lo ≤ x ∧ x ≤ f32D r.hi then some v.toNat else none
    | none => none
  | .ts96 v => if r.lo ≤ v.toNat ∧ v.toNat ≤ r.hi then some v.toNat else none
  | .b128 v => if r.lo ≤ v.toNat ∧ v.toNat ≤ r.hi then some v.toNat else none
  | .bytes _ => none

/-- Check one entry: its result code where it fails, else its key and bits (R324). -/
def entryCheck (e : Entry) : Nat ⊕ (Key × Nat) :=
  match keyOfPath e.path with
  | none => .inl E.path
  | some k =>
    if k.access = .ro then .inl E.readonly
    else if kindMatches (rowAt k.row).kind e.val = false then .inl E.type_
    else match valBits (rowAt k.row) e.val with
      | none => .inl E.range
      | some v => .inr (k, v)

/-- Set entries in order; the first that fails decides, with its index and path. -/
def setEntries : Nat → List Entry → PSet → (Nat × Nat × String) ⊕ PSet
  | _, [], set => .inr set
  | n, e :: rest, set =>
    match entryCheck e with
    | .inl code => .inl (code, n, e.path)
    | .inr kv => setEntries (n + 1) rest (set.set kv.1 kv.2)

/-- The draft changes: its revision advances (R326). -/
def State.setDraft (s : State) (d : PSet) : State :=
  { s with cfg := { s.cfg with draft := d, draftRev := (s.cfg.draftRev + 1) % 4294967296 } }

/-- CFG_SET on the draft: all its entries or none. -/
def State.cfgSet (s : State) (entries : List Entry) : State × Answer :=
  if s.cfg.frozen then (s, Answer.fail E.state)
  else if entries = [] ∨ 256 < entries.length ∨ entries.all (fun e => pathFits e.path && Val.formed e.val) = false then (s, Answer.fail E.format)
  else match setEntries 0 entries s.cfg.draft with
    | .inl bad => (s, .err bad.1 bad.2.1 bad.2.2 "")
    | .inr d =>
      let s1 := s.setDraft d
      let s2 : State := { s1 with cfg := { s1.cfg with wroteRole := s1.cfg.wroteRole || entries.any (fun e => keyOfPath e.path == some K.schedLockRole) } }
      (s2, .ok (le 4 s2.cfg.draftRev) false)

/-- CFG_SET: sets values in the draft, atomically (R13, R324). -/
def execCfgSet (h : Hdr) (entries : List Entry) (s : State) : Out :=
  request 0x0011 h (le 2 entries.length ++ entries.flatMap (fun e => str e.path ++ valBytes e.val)) (fun st => st.cfgSet entries) s

/-- CFG_DISCARD: the draft is set equal to the live set (R326). -/
def State.cfgDiscard (s : State) : State × Answer :=
  if s.cfg.frozen then (s, Answer.fail E.state)
  else
    let s0 := s.setDraft s.cfg.live
    let s1 : State := { s0 with cfg := { s0.cfg with wroteRole := false } }
    (s1, .ok (le 4 s1.cfg.draftRev) false)

/-- CFG_DISCARD. -/
def execCfgDiscard (h : Hdr) (s : State) : Out := request 0x0013 h [] State.cfgDiscard s

/-! ### Flash -/

/-- CFG_SAVE: writes the live set to flash as the stored set; the response follows the flash work (R311, R329). -/
def execCfgSave (h : Hdr) (s : State) : Out := request 0x0016 h [] (fun st => (st, .later (.cfgSave st.cfg.live))) s

/-- CFG_ERASE: erases the stored set. -/
def execCfgErase (h : Hdr) (s : State) : Out := request 0x0017 h [] (fun st => (st, .later .cfgErase)) s

/-! ### Time -/

/-- TIME_SET (R278, R282): the TAI second of the next PPS edge and the UTC offset; E_STATE where PPS_IN is not present. -/
def State.timeSet (s : State) (seconds : BitVec 64) (utc : BitVec 16) : State × Answer :=
  if s.roGet K.timebasePpsPresent = 0 then (s, Answer.fail E.state)
  else ((s.withTime { s.time with pps := { s.time.pps with pendingSet := some seconds.toNat } }).roSet K.timebaseUtcOffset utc.toNat, Answer.done)

/-- TIME_SET. -/
def execTimeSet (h : Hdr) (seconds : BitVec 64) (utc : BitVec 16) (s : State) : Out :=
  request 0x0020 h (le 8 seconds.toNat ++ le 2 utc.toNat ++ le 2 h.pad) (fun st => st.timeSet seconds utc) s

/-- TDC_READ (R286, R427): records of an input's log from an index on. -/
def State.tdcRead (s : State) (input start limit : Nat) : Answer :=
  if 3 < input then Answer.fail E.format
  else
    let x := s.tdcIn input
    ringRead ((x.logNext + 4294967296 - x.log.length) % 4294967296) (x.logNext % 4294967296) (x.log.reverse.map TdcRecord.bytes) start limit

/-- TDC_READ. -/
def execTdcRead (h : Hdr) (input start limit : Nat) (s : State) : Out :=
  request 0x0021 h (le 1 input ++ le 3 h.pad ++ le 4 start ++ le 2 limit) (fun st => (st, st.tdcRead input start limit)) s

/-! ### Hello -/

/-- The version of the image that runs (R338): major, minor, patch as fw.image.x.version holds them. -/
def State.fwVersion (s : State) : Nat := (s.fw.image s.fw.running).version

/-- The response of HELLO. -/
def State.helloBody (s : State) : List Byte :=
  le 8 s.moduleId.toNat ++ le 4 s.fwVersion ++ le 1 s.fw.active.idx ++ le 1 0 ++ le 2 0 ++ le 4 (s.roGet K.sysBootCount) ++ le 4 65536 ++ le 4 s.cfg.draftRev

/-- HELLO: identity, versions and counters; a protocol other than 1 is malformed. -/
def execHello (h : Hdr) (protocol : Nat) (s : State) : Out :=
  request 0x0001 h (le 1 protocol ++ le 3 h.pad) (fun st => (st, if protocol = 1 then .ok st.helloBody false else Answer.fail E.format)) s

/-- PING: an empty answer. -/
def execPing (h : Hdr) (s : State) : Out := request 0x0002 h [] (fun st => (st, Answer.done)) s

/-- The commands open to hosts, with the least and the greatest length of their bodies (R335, R358, R389, R408). -/
def bodySizes : List (Nat × Nat × Nat) :=
  [(0x0001, 4, 4), (0x0002, 0, 0), (0x0010, 6, 65536), (0x0011, 2, 65536), (0x0012, 20, 20), (0x0013, 0, 0), (0x0014, 4, 4), (0x0015, 5, 69), (0x0016, 0, 0),
   (0x0017, 0, 0), (0x0020, 12, 12), (0x0021, 10, 10)] ++
  [(0x0030, 12, 65536), (0x0031, 4, 4), (0x0032, 12, 12), (0x0040, 16, 16), (0x0041, 8, 8), (0x0042, 24, 24), (0x0043, 4, 4), (0x0044, 4, 4), (0x0050, 32, 32),
   (0x0051, 6, 6), (0x0060, 4, 4), (0x0061, 4, 65536), (0x0062, 0, 0), (0x0063, 1, 1), (0x0064, 0, 0), (0x0070, 4, 4)] ++
  [(0x0080, 0, 0), (0x0081, 0, 0), (0x0082, 0, 0), (0x0083, 16, 16), (0x0084, 0, 0), (0x0085, 4, 4), (0x0090, 0, 0), (0x0091, 4, 4), (0x0092, 16, 1552),
   (0x0093, 16, 1040), (0x0094, 8, 8), (0x00A0, 8, 8), (0x00A1, 4, 4), (0x00A2, 0, 0), (0x00A3, 12, 12), (0x00A4, 1, 1), (0x00A5, 6, 6), (0x00A6, 0, 0)]

/-- What a request gets whose code and body spell no command: E_COMMAND for a code that names none or is closed to hosts, E_FORMAT for a body of a length the command has not. -/
def unknownAnswer (code : Nat) : Answer := Answer.fail (if bodySizes.any (fun e => e.1 == code) then E.format else E.command)

/-- A body that can be one of a command's. -/
def bodyFits (code length : Nat) : Bool := bodySizes.any (fun e => e.1 == code && decide (e.2.1 ≤ length) && decide (length ≤ e.2.2))

/-- A request whose code names no command, or whose body is none of its command's (R336); one that can be a command's comes as that command. -/
def execUnknownCommand (h : Hdr) (code : BitVec 16) (body : List Byte) (s : State) : Out :=
  if bodyFits code.toNat body.length then .next (s.at h.at_) else request code.toNat h body (fun st => (st, unknownAnswer code.toNat)) s

/-! ### Events (R333, R427) -/

/-- EVENT_SUBSCRIBE: the session's mask; the next event's sequence number. -/
def execEventSubscribe (h : Hdr) (mask : BitVec 256) (s : State) : Out :=
  request 0x0050 h (le 32 mask.toNat) (fun st => (st.setPair h.pair { st.pair h.pair with mask := mask }, .ok (le 4 (st.roGet K.ncpEventNext)) false)) s

/-- An event as EVENT_READ gives it. -/
def Event.item (e : Event) : List Byte := le 4 e.seq ++ le 4 e.epoch ++ noteBody e.code e.severity e.time e.args

/-- EVENT_READ from the ring. -/
def State.eventRead (s : State) (start limit : Nat) : Answer :=
  let next := s.roGet K.ncpEventNext
  ringRead ((next + 4294967296 - s.events.length) % 4294967296) next (s.events.reverse.map Event.item) start limit

/-- EVENT_READ. -/
def execEventRead (h : Hdr) (start limit : Nat) (s : State) : Out :=
  request 0x0051 h (le 4 start ++ le 2 limit) (fun st => (st, st.eventRead start limit)) s

end Sys2Proof.Machine
end

