-- ==== Sys2Proof/Machine/Checks.lean ====
section
/-! DEFINITION. The commit checks (R26, R28, R43, R69, R94, R104, R105, R141, R148, R158, R160, R179, R180, R209, R218, R245, R251, R365, R378). -/

namespace Sys2Proof.Machine

/-! ### Figures of a set -/

/-- The draft set as its checks see it: values, the module, and the points of each port. -/
structure Figures where
  set : PSet
  period : PerPort Nat
  count : PerPort Nat
  deriving DecidableEq, Repr

/-- The figures of a set on this module (R68, R105). -/
def State.figures (s : State) (set : PSet) : Figures where
  set := set
  period := ⟨s.checkPeriod set .a, s.checkPeriod set .b⟩
  count := ⟨s.resolveCount set .a, s.resolveCount set .b⟩

namespace Figures

/-- A value of the set. -/
def val (f : Figures) (k : Key) : Nat := f.set.get k
/-- The slot groups of a port's plan. -/
def groups (f : Figures) (p : Port) : Nat := groupsOf (f.val (K.portSlotPlan p))
/-- A port's trace rate in Hz (R26). -/
def rate (f : Figures) (p : Port) : Rat := (200000000 * f.groups p : Nat) / (max 1 (f.period.get p) : Nat)
/-- A port's live range. -/
def range (f : Figures) (p : Port) : Nat × Nat := (f.val (K.portPointsFirst p), f.count.get p)
/-- Traces of a port's decimation tile. -/
def tile (f : Figures) (p : Port) : Nat := 256 * 2 ^ f.val (K.portDecTile p)
/-- The enabled subscribers of a stream. -/
def subs (f : Figures) (n : Nat) : List Nat := (List.range 4).filter (fun m => f.val (K.streamSubEnable n m) == 1)
/-- A stream's port. -/
def streamPort (f : Figures) (n : Nat) : Port := Port.ofIdx (f.val (K.streamPort n))
/-- A stream is enabled with a kind. -/
def kindOn (f : Figures) (n kind : Nat) : Bool := enabledKind f.set n kind
/-- The chain of a stream. -/
def chain (f : Figures) (n : Nat) : List Stage := chainOf (f.val (K.streamDecPreset n)) (f.val (K.streamDecFactor n))
/-- How many points a STRAIN stream puts out. -/
def points (f : Figures) (n : Nat) : Nat := (outPoints f.set n (f.range (f.streamPort n))).length
/-- The front-end channels enabled. -/
def channels (f : Figures) : List Nat := (List.range 10).filter (fun c => f.val (K.feChEnable c) == 1)
/-- The alarm zones enabled. -/
def zones (f : Figures) : List Nat := (List.range 64).filter (fun z => f.val (K.alarmZoneEnable z) == 1)
/-- The instances enabled. -/
def insts (f : Figures) : List Nat := (List.range 8).filter (fun i => f.val (K.basaltInstEnable i) == 1)
/-- The conditions enabled. -/
def conds (f : Figures) : List Nat := (List.range 64).filter (fun n => f.val (K.trigCondEnable n) == 1)
/-- The instance that feeds a KERNEL stream. -/
def instOf (f : Figures) (n : Nat) : Option Nat := f.insts.find? (fun i => f.val (K.basaltInstStream i) == n)
/-- The port of an instance. -/
def instPort (f : Figures) (i : Nat) : Port := Port.ofIdx (f.val (K.basaltInstPort i))
/-- The bricks of an instance. -/
def bricks (f : Figures) (i : Nat) : Nat := bricksOf (instPoints f.set i (f.range (f.instPort i)))

end Figures

/-- The image an instance names under a set. -/
def State.imageFor (s : State) (f : Figures) (i : Nat) : ImageHeader := imageHeader (s.slot (f.val (K.basaltInstSlot i))).image

/-- Bytes of the datagrams of a block: 68 each, `extra` more in each, and the payload (R131). -/
def blockBytes (points tp width samples extra : Nat) : Nat := max 1 (ceilDiv points (max 1 tp)) * (68 + extra) + points * width * samples

/-- The datagram rate of one copy of a stream in bytes per second (R28, R135). -/
def State.streamRate (s : State) (f : Figures) (n : Nat) : Rat :=
  let p := f.streamPort n
  let tp := f.val (K.streamTilePoints n)
  let ts := max 1 (f.val (K.streamTileSamples n))
  let width := formatWidth (f.val (K.streamFormat n))
  match f.val (K.streamKind n) with
  | 0 => f.rate p / (max 1 (f.val (K.streamDecFactor n)) * ts : Nat) * (blockBytes (f.points n) tp width ts 0 : Nat)
  | 1 => (blockBytes (ceilDiv (f.count.get p) 64) tp 16 1 0 : Nat)
  | 2 => match f.instOf n with
    | none => 0
    | some i =>
      let h := s.imageFor f i
      f.rate (f.instPort i) / (f.tile (f.instPort i) : Nat) * (blockBytes (f.bricks i * h.perBrick) tp h.recBytes h.samples 0 : Nat)
  | 3 =>
    let live := dtsPoints (s.roGet (K.portFibreLength p))
    let first := f.val (K.streamPointsFirst n)
    let stride := max 1 (f.val (K.streamPointsStride n))
    let count := if f.val (K.streamPointsCount n) = 0 then (if first < live then ceilDiv (live - first) stride else 0) else f.val (K.streamPointsCount n)
    if f.val (K.portDtsEnable p) = 1 then ((blockBytes count tp width 1 32 : Nat) : Rat) / (max 1 (f.val (K.portDtsPeriod p)) : Nat) else 0
  | 4 =>
    let natural := scanTicks f.set f.channels
    let scan := if f.val K.feScanPeriodMs = 0 then natural else f.val K.feScanPeriodMs * msTicks
    (200000000 : Rat) / (max 1 scan * ts : Nat) * (68 + 16 * f.channels.length * ts : Nat)
  | 5 => (f.val K.captureSendMbit * 125000 : Nat)
  | _ => (10 * (68 + 12 * f.zones.length) : Nat)

/-- The largest UDP payload of a stream: 20 bytes less with an IPv6 subscriber (R135). -/
def Figures.room (f : Figures) (n : Nat) : Nat :=
  let ipv6 : Bool := (f.subs n).any (fun m => f.val (K.streamSubAddr n m) / 2 ^ 32 != 0xFFFF)
  (if f.val K.nspMtu = 1 then 8972 else 1472) - (if ipv6 then 20 else 0)

/-! ### Checks -/

/-- One commit check: its result code, whether the set fails it, and the fields that enter it (R327). -/
structure Check where
  code : Nat
  bad : Bool
  keys : List Key
  deriving DecidableEq, Repr

/-- The fields the frame period follows from. -/
def schedKeys (p : Port) : List Key := [K.portFrameMode p, K.portFramePeriod p, K.portSlotPlan p, K.portChirpDuration p]
/-- The fields a port's points and rate follow from. -/
def rangeKeys (p : Port) : List Key := [K.portEnable p, K.portPointsFirst p, K.portPointsCount p, K.portPointsPitch p] ++ schedKeys p
/-- The fields a stream's rate follows from. -/
def streamKeys (n : Nat) : List Key :=
  [K.streamEnable n, K.streamKind n, K.streamPort n, K.streamPointsFirst n, K.streamPointsCount n, K.streamPointsStride n, K.streamDecPreset n, K.streamDecFactor n,
   K.streamFormat n, K.streamTilePoints n, K.streamTileSamples n]
/-- Both ports' fields of a kind. -/
def bothKeys (f : Port → List Key) : List Key := f .a ++ f .b

/-- E_SEED: the named seed is not LOCKED (R43). -/
def State.seedCheck (s : State) (f : Figures) : List Check :=
  let sel := f.val K.opticalSeedSelect
  [⟨E.seed, sel == 1 && s.seedStatus .s0 != 2 || sel == 2 && s.seedStatus .s1 != 2, [K.opticalSeedSelect]⟩]

/-- E_SCHEDULE, in the order of R94's table, port A first (R69). The Master port row is read for a MASTER, the one role that sends that port's frames. -/
def State.scheduleChecks (s : State) (f : Figures) : List Check :=
  let fixed := fun (p : Port) => f.val (K.portFrameMode p) == 1
  let tf := fun (p : Port) => f.period.get p
  let tau := fun (p : Port) => f.val (K.portChirpDuration p)
  let role := f.val K.schedLockRole
  let bus := fun (p : Port) => f.val (K.portFrameAlign p) == 2
  let master := Port.ofIdx (f.val K.schedLockPort)
  let row := fun (bad : Port → Bool) (keys : Port → List Key) => ports.map (fun p => (⟨E.schedule, bad p, keys p⟩ : Check))
  row (fun p => fixed p && (decide (tf p < 8000) || decide (400000 < tf p) || tf p % 40 != 0)) (fun p => [K.portFrameMode p, K.portFramePeriod p]) ++
  row (fun p => fixed p && decide (tf p < f.groups p * (tau p + 600))) schedKeys ++
  row (fun p => decide (tau p < 100) || decide (1600 < tau p)) (fun p => [K.portChirpDuration p]) ++
  row (fun p => decide (210 < f.val (K.portLaunchPower p))) (fun p => [K.portLaunchPower p]) ++
  row (fun p => decide (tf p ≤ f.val (K.portFrameOffset p)) || f.val (K.portFrameOffset p) % 20 != 0) (fun p => K.portFrameOffset p :: schedKeys p) ++
  row (fun p => bus p && (role != 2 || !fixed p)) (fun p => [K.portFrameAlign p, K.portFrameMode p, K.schedLockRole]) ++
  [⟨E.schedule, role == 1 && bus master, [K.schedLockPort, K.schedLockRole, K.portFrameAlign master]⟩] ++
  row (fun p => role == 2 && bus p && (match s.opt.lock.lastWord with
    | some w => w.2 != tf p
    | none => false)) (fun p => [K.schedLockRole, K.portFrameAlign p, K.portFrameMode p, K.portFramePeriod p])

/-- E_POINTS (R104). -/
def pointChecks (f : Figures) : List Check :=
  ports.map (fun p =>
    let k := f.val (K.portPointsPitch p)
    let g := f.val (K.portGauge p)
    let n := f.count.get p
    let first := f.val (K.portPointsFirst p)
    ⟨E.points, decide (131072 < n) || decide (n < g + 1) || decide (k < 6) || decide (240 < k) || decide (g < 2) || decide (100 < g) ||
      decide ((f.period.get p - 4000) * 51047619 < (first + n - 1) * k * 4254000),
     [K.portPointsFirst p, K.portPointsCount p, K.portPointsPitch p, K.portGauge p] ++ schedKeys p⟩)

/-- The point-trace rate of a set (R26). -/
def Figures.pointRate (f : Figures) : Rat :=
  sumQ (ports.map (fun p => if f.val (K.portEnable p) = 1 then (f.count.get p : Rat) * f.rate p else 0))

/-- E_CEILING (R26). -/
def ceilingCheck (f : Figures) : List Check := [⟨E.ceiling, decide (1600000000 < f.pointRate), bothKeys rangeKeys⟩]

/-- The streams that send: enabled, with a subscriber. -/
def Figures.sending (f : Figures) : List Nat := (List.range 16).filter (fun n => f.val (K.streamEnable n) == 1 && f.subs n != [])

/-- E_LINK_RATE: every copy of every stream within 8.0 Gbit/s (R28, R135, R243). -/
def State.linkCheck (s : State) (f : Figures) : List Check :=
  let total := sumQ (f.sending.map (fun n => s.streamRate f n * ((f.subs n).length : Nat)))
  [⟨E.linkRate, decide (1000000000 < total),
    bothKeys rangeKeys ++ (List.range 16).flatMap (fun n => streamKeys n ++ (List.range 4).map (K.streamSubEnable n)) ++ [K.captureSendMbit]⟩]

/-- s of R129: bytes of state of an output point. -/
def Figures.stateBytes (f : Figures) (n : Nat) : Nat := 5 * tapsSum (f.chain n)
/-- C of R129: multiply-accumulates per input trace and output point. -/
def Figures.macs (f : Figures) (n : Nat) : Rat := sumQ ((f.chain n).map (fun x => (x.taps : Rat) / (x.ratio * x.m : Nat)))
/-- The STRAIN streams. -/
def Figures.strain (f : Figures) : List Nat := (List.range 16).filter (fun n => f.kindOn n 0)
/-- The longest window of a stream's subscribers in ms. -/
def Figures.longest (f : Figures) (n : Nat) : Nat := maxN ((f.subs n).map (fun m => f.val (K.streamSubWindowMs n m)))

/-- A range of points lies in a live range. -/
def within (first count : Nat) (live : Nat × Nat) : Bool := decide (live.1 ≤ first) && decide (first + count ≤ live.1 + live.2)

/-- The output points of a STRAIN stream lie in the live range (R141). -/
def Figures.pointsIn (f : Figures) (n : Nat) : Bool :=
  let live := f.range (f.streamPort n)
  let first := f.val (K.streamPointsFirst n)
  let count := f.val (K.streamPointsCount n)
  let stride := f.val (K.streamPointsStride n)
  within first 1 live && (count == 0 || within (first + (count - 1) * stride) 1 live) && decide (1 ≤ stride) && decide (stride ≤ 64)

/-- Bytes of a stream's largest tile (R141, R160, R179); KERNEL's has a check of its own, ALARM ignores the fields. -/
def Figures.tileBytes (f : Figures) (n : Nat) : Nat :=
  let tp := f.val (K.streamTilePoints n)
  let ts := f.val (K.streamTileSamples n)
  let width := formatWidth (f.val (K.streamFormat n))
  match f.val (K.streamKind n) with
  | 0 => 68 + tp * ts * width
  | 1 => 68 + tp * 16
  | 3 => 100 + tp * width
  | 4 => 68 + 16 * f.channels.length * ts
  | 5 => 68 + tp * ts * 4
  | _ => 0

/-- E_STREAM (R141, and the field rules of R160, R179 and R209). -/
def State.streamChecks (s : State) (f : Figures) : List Check :=
  let on := (List.range 16).filter (fun n => f.val (K.streamEnable n) == 1)
  let ftr := fun (n : Nat) => f.rate (f.streamPort n)
  let allKeys := bothKeys (fun p => K.portDecTile p :: rangeKeys p) ++ f.strain.flatMap streamKeys
  f.strain.map (fun n => ⟨E.stream, !factorOk (f.val (K.streamDecFactor n)), [K.streamDecFactor n, K.streamEnable n, K.streamKind n]⟩) ++
  f.strain.map (fun n => ⟨E.stream, decide (ftr n < (10 * f.val (K.streamDecFactor n) : Nat)) && f.val (K.streamDecPreset n) != 3,
    [K.streamDecFactor n, K.streamDecPreset n, K.streamPort n] ++ schedKeys (f.streamPort n)⟩) ++
  f.strain.map (fun n => ⟨E.stream, !f.pointsIn n,
    [K.streamPointsFirst n, K.streamPointsCount n, K.streamPointsStride n, K.streamPort n] ++ rangeKeys (f.streamPort n)⟩) ++
  on.map (fun n => ⟨E.stream, decide (f.room n < f.tileBytes n),
    [K.streamTilePoints n, K.streamTileSamples n, K.streamFormat n, K.streamKind n, K.nspMtu] ++ (List.range 4).flatMap (fun m => [K.streamSubAddr n m, K.streamSubEnable n m]) ++
      (List.range 10).map K.feChEnable⟩) ++
  [⟨E.stream, decide (800000000 < sumQ (f.strain.map (fun n => ((f.points n * 2 * f.stateBytes n : Nat) : Rat) * ftr n / (f.tile (f.streamPort n) : Nat)))), allKeys⟩,
   ⟨E.stream, decide (6 * 2 ^ 30 < sumN (ports.map (fun p => 2 * f.count.get p * f.tile p * 4 + 2 * f.tile p * 64)) +
      sumN (f.strain.map (fun n => f.points n * f.stateBytes n))), allKeys⟩,
   ⟨E.stream, decide (76800000000 < sumQ (f.strain.map (fun n => (f.points n : Rat) * ftr n * f.macs n))), allKeys⟩,
   ⟨E.stream, decide (2 ^ 30 < sumQ (f.sending.map (fun n => s.streamRate f n * (f.longest n : Nat) / 1000))),
    allKeys ++ (List.range 16).flatMap (fun n => streamKeys n ++ (List.range 4).flatMap (fun m => [K.streamSubEnable n m, K.streamSubWindowMs n m]))⟩] ++
  on.map (fun n => ⟨E.stream,
    (f.subs n).any (fun m => decide (f.val (K.streamSubWindowMs n m) < 10) || decide (60000 < f.val (K.streamSubWindowMs n m)) ||
      (f.subs n).any (fun k => k != m && f.val (K.streamSubAddr n k) == f.val (K.streamSubAddr n m) && f.val (K.streamSubUdp n k) == f.val (K.streamSubUdp n m))),
    (List.range 4).flatMap (fun m => [K.streamSubEnable n m, K.streamSubAddr n m, K.streamSubUdp n m, K.streamSubWindowMs n m])⟩) ++
  on.map (fun n =>
    let kind := f.val (K.streamKind n)
    let fmt := f.val (K.streamFormat n)
    ⟨E.stream, kind == 3 && (fmt == 1 || f.val (K.streamTileSamples n) != 1) || (kind == 2 || kind == 4) && fmt != 0,
     [K.streamKind n, K.streamFormat n, K.streamTileSamples n]⟩)

/-- E_DTS: frames of an integration (R148), and the second calibration point (R158). -/
def dtsChecks (f : Figures) : List Check :=
  ports.map (fun p => ⟨E.dts, f.val (K.portDtsEnable p) == 1 && decide (67108864 * f.period.get p < f.val (K.portDtsPeriod p) * 200000000),
    [K.portDtsEnable p, K.portDtsPeriod p] ++ schedKeys p⟩) ++
  ports.map (fun p =>
    let c := f.val (K.portDtsCal2Channel p)
    ⟨E.dts, c != 0 && (decide (zRel p (f.val (K.portDtsCal2Point p)) < 1000) || f.val (K.feChUnit (c - 1)) != 1),
     [K.portDtsCal2Channel p, K.portDtsCal2Point p, K.feChUnit (c - 1)]⟩)

/-- E_FRONT_END (R180). A test target is checked while the test is enabled. -/
def frontChecks (f : Figures) : List Check :=
  let own := [0, 1, 2, 3]
  let scan := scanTicks f.set f.channels
  let target := f.val K.feTestTarget
  own.map (fun c => ⟨E.frontEnd, f.val (K.feChEnable c) == 1 && f.val (K.feChReference c) == 2 && f.val (K.feChExcitation c) == 0,
    [K.feChEnable c, K.feChReference c, K.feChExcitation c]⟩) ++
  own.map (fun c =>
    let lvl := f.val (K.feChExcLevel c)
    ⟨E.frontEnd, f.val (K.feChExcitation c) == 1 && (decide (lvl < 100) || decide (1000 < lvl)) || f.val (K.feChExcitation c) == 2 && (decide (lvl < 1000) || decide (5000 < lvl)),
     [K.feChExcitation c, K.feChExcLevel c]⟩) ++
  own.map (fun c => ⟨E.frontEnd, decide (1048575 < f.val (K.feChSettle c)), [K.feChSettle c]⟩) ++
  [⟨E.frontEnd, f.val K.feScanPeriodMs != 0 && decide (f.val K.feScanPeriodMs * msTicks < scan),
    K.feScanPeriodMs :: (List.range 10).flatMap (fun c => [K.feChEnable c, K.feChSettle c, K.feChOsr c])⟩,
   ⟨E.frontEnd, f.val K.feTestEnable == 1 && f.val (K.feChEnable (if target = 0 then 9 else target - 1)) != 1,
    [K.feTestEnable, K.feTestTarget, K.feChEnable (if target = 0 then 9 else target - 1)]⟩]

/-- E_KERNEL (R218). -/
def State.kernelChecks (s : State) (f : Figures) : List Check :=
  let h := s.imageFor f
  let cores := fun (i : Nat) => f.val (K.basaltInstCores i)
  let ftr := fun (i : Nat) => f.rate (f.instPort i)
  let pts := fun (i : Nat) => instPoints f.set i (f.range (f.instPort i))
  let tdec := fun (i : Nat) => f.tile (f.instPort i)
  let healthy := min 32 (34 - s.basalt.outOf.length)
  let portOf := fun (i : Nat) => K.portDecTile (f.instPort i) :: rangeKeys (f.instPort i)
  let base := fun (i : Nat) => [K.basaltInstEnable i, K.basaltInstSlot i]
  let sizes := fun (i : Nat) => base i ++ [K.basaltInstPort i, K.basaltInstPointsFirst i, K.basaltInstPointsCount i, K.basaltInstCores i] ++ portOf i
  let row := fun (bad : Nat → Bool) (keys : Nat → List Key) => f.insts.map (fun i => (⟨E.kernel, bad i, keys i⟩ : Check))
  let all := f.insts.flatMap (fun i => K.basaltInstScratchMib i :: sizes i)
  row (fun i => (s.slot (f.val (K.basaltInstSlot i))).image == []) base ++
  row (fun i => decide (cores i < (h i).minCores) || decide ((h i).maxCores < cores i)) (fun i => K.basaltInstCores i :: base i) ++
  [⟨E.kernel, decide (healthy < sumN (f.insts.map cores)), (List.range 8).flatMap (fun i => [K.basaltInstEnable i, K.basaltInstCores i])⟩] ++
  row (fun i => f.val (K.streamKind (f.val (K.basaltInstStream i))) != 2 || f.insts.any (fun j => j != i && f.val (K.basaltInstStream j) == f.val (K.basaltInstStream i)))
    (fun i => [K.basaltInstEnable i, K.basaltInstStream i, K.streamKind (f.val (K.basaltInstStream i))]) ++
  row (fun i => !(within (f.val (K.basaltInstPointsFirst i)) (max 1 (pts i)) (f.range (f.instPort i)))) sizes ++
  row (fun i => decide (tdec i < (h i).samples)) sizes ++
  row (fun i => decide (1080000000 < (ceilDiv (f.bricks i) (max 1 (cores i)) * (h i).cost : Nat) * ftr i)) sizes ++
  [⟨E.kernel, decide (6400000000 < sumQ (f.insts.map (fun i => ((4 * pts i : Nat) : Rat) * ftr i))), all⟩,
   ⟨E.kernel, decide (500000000 < sumQ (f.insts.map (fun i =>
      ((f.bricks i * (h i).perBrick * (h i).recBytes * (h i).samples + cores i * (h i).persistBytes : Nat) : Rat) * ftr i / (tdec i : Nat)))), all⟩,
   ⟨E.kernel, decide (4 * 2 ^ 30 < sumN (f.insts.map (fun i => f.val (K.basaltInstScratchMib i) * 2 ^ 20 + 2 * cores i * (h i).persistBytes)) + 8 * 2 ^ 20), all⟩] ++
  row (fun i => decide (f.val (K.basaltInstScratchMib i) < (h i).scratchMib)) (fun i => K.basaltInstScratchMib i :: base i) ++
  row (fun i =>
    let n := f.val (K.basaltInstStream i)
    decide (f.room n < 68 + f.val (K.streamTilePoints n) * (h i).samples * (h i).recBytes))
    (fun i => let n := f.val (K.basaltInstStream i); [K.basaltInstStream i, K.streamTilePoints n, K.nspMtu] ++ base i)

/-- How many points a condition's source has. -/
def State.sourcePoints (s : State) (f : Figures) (n : Nat) : Nat :=
  let i := f.val (K.trigCondIndex n)
  match f.val (K.trigCondSource n) with
  | 0 => f.points i
  | 1 => f.bricks i * (s.imageFor f i).perBrick
  | _ => dtsPoints (s.roGet (K.portFibreLength (Port.ofIdx i)))

/-- Evaluations of a condition per second. -/
def State.evaluations (s : State) (f : Figures) (n : Nat) : Rat :=
  let i := f.val (K.trigCondIndex n)
  match f.val (K.trigCondSource n) with
  | 0 => f.rate (f.streamPort i) / (max 1 (f.val (K.streamDecFactor i)) : Nat)
  | 1 => f.rate (f.instPort i) * ((s.imageFor f i).samples : Nat) / (f.tile (f.instPort i) : Nat)
  | _ => 1 / ((max 1 (f.val (K.portDtsPeriod (Port.ofIdx i))) : Nat) : Rat)

/-- The profiles that some enabled condition captures under. -/
def Figures.profiles (f : Figures) : List Nat :=
  (List.range 8).filter (fun q => f.conds.any (fun n => f.val (K.trigCondCapture n) == 1 && f.val (K.trigCondProfile n) == q))

/-- Bytes per second the ring would take under a set, over its enabled ports (R222). -/
def Figures.ringLoad (f : Figures) : Rat :=
  sumQ (ports.map (fun p => if f.val (K.portEnable p) = 1 then f.rate p * (16 + recordBytes (f.count.get p) : Nat) else 0))

/-- Half the retention of the ring would be shorter than `ms`. -/
def Figures.tooLong (f : Figures) (ms : Nat) : Bool := decide ((f.val K.strataSizeGib * 2 ^ 30 * 1000 : Nat) < f.ringLoad * (2 * ms : Nat))

/-- E_TRIGGER (R245, R378). The profile rows hold for the profiles in use. -/
def State.triggerChecks (s : State) (f : Figures) : List Check :=
  let src := fun (n : Nat) => f.val (K.trigCondSource n)
  let idx := fun (n : Nat) => f.val (K.trigCondIndex n)
  let zoned := f.conds.filter (fun n => decide (src n ≤ 2))
  let base := fun (n : Nat) => [K.trigCondEnable n, K.trigCondSource n, K.trigCondIndex n]
  let row := fun (ns : List Nat) (bad : Nat → Bool) (keys : Nat → List Key) => ns.map (fun n => (⟨E.trigger, bad n, keys n⟩ : Check))
  row zoned (fun n => src n == 0 && !f.kindOn (idx n) 0 || src n == 1 && !(f.insts.contains (idx n)) ||
      src n == 2 && (decide (1 < idx n) || f.val (K.portDtsEnable (Port.ofIdx (idx n))) != 1))
    (fun n => base n ++ (if src n = 0 then [K.streamEnable (idx n), K.streamKind (idx n)] else if src n = 1 then [K.basaltInstEnable (idx n)]
      else [K.portDtsEnable (Port.ofIdx (idx n))])) ++
  row zoned (fun n => f.val (K.trigCondZoneCount n) == 0 || decide (s.sourcePoints f n < f.val (K.trigCondZoneFirst n) + f.val (K.trigCondZoneCount n)))
    (fun n => [K.trigCondZoneFirst n, K.trigCondZoneCount n] ++ base n) ++
  row zoned (fun n => f.val (K.trigCondCompare n) == 2 && decide (f32D (f.val (K.trigCondHi n)) < f32D (f.val (K.trigCondLo n))) ||
      decide (f.val (K.trigCondZoneCount n) < f.val (K.trigCondMinPoints n)))
    (fun n => [K.trigCondCompare n, K.trigCondHi n, K.trigCondLo n, K.trigCondMinPoints n, K.trigCondZoneCount n] ++ base n) ++
  row f.conds (fun n => src n == 4 && decide (1 ≤ f.val (K.trigCondPeriodMs n)) && decide (f.val (K.trigCondPeriodMs n) ≤ 9)) (fun n => K.trigCondPeriodMs n :: base n) ++
  [⟨E.trigger, decide (4800000000 < sumQ (zoned.map (fun n => (f.val (K.trigCondZoneCount n) : Rat) * s.evaluations f n))),
    (List.range 64).flatMap (fun n => K.trigCondZoneCount n :: base n)⟩] ++
  row f.profiles (fun q => ports.any (fun p => bitOf (f.val (K.trigProfilePorts q)) p.idx &&
      !(within (f.val (K.trigProfileFirst q p)) (max 1 (f.val (K.trigProfileCount q p))) (f.range p))))
    (fun q => K.trigProfilePorts q :: bothKeys (fun p => [K.trigProfileFirst q p, K.trigProfileCount q p] ++ rangeKeys p)) ++
  row f.profiles (fun q => f.tooLong (f.val (K.trigProfilePreMs q)) || decide (600000 < f.val (K.trigProfilePreMs q) + f.val (K.trigProfilePostMs q)))
    (fun q => [K.trigProfilePreMs q, K.trigProfilePostMs q, K.strataSizeGib] ++ bothKeys rangeKeys) ++
  row f.conds (fun n => f.val (K.trigCondCapture n) == 1 && f.val K.strataSizeGib == 0) (fun n => [K.trigCondEnable n, K.trigCondCapture n, K.strataSizeGib]) ++
  [⟨E.trigger, decide (52 < f.val K.strataSizeGib + f.val K.captureStoreGib), [K.strataSizeGib, K.captureStoreGib]⟩] ++
  row (List.range 8) (fun q => decide (f.val (K.trigProfileAutoStream q) < 16) && f.val (K.streamKind (f.val (K.trigProfileAutoStream q))) != 5)
    (fun q => [K.trigProfileAutoStream q, K.streamKind (f.val (K.trigProfileAutoStream q))]) ++
  row f.zones (fun z => !(within (f.val (K.alarmZoneFirst z)) (f.val (K.alarmZoneCount z)) (f.range (Port.ofIdx (f.val (K.alarmZonePort z))))))
    (fun z => [K.alarmZoneEnable z, K.alarmZonePort z, K.alarmZoneFirst z, K.alarmZoneCount z] ++ rangeKeys (Port.ofIdx (f.val (K.alarmZonePort z))))

/-- E_MEMORY: the store shrinks under a held capture or reservation (R251). Where captures lie is not stated: free where they fit. -/
def State.memoryCheck (s : State) (f : Figures) : List Check :=
  let new := f.val K.captureStoreGib
  let held := sumN (s.trig.captures.map (·.reserved))
  [⟨E.memory, decide (new < s.cfg.live.get K.captureStoreGib) && s.trig.captures != [] && (decide (new * 2 ^ 30 < held) || s.freeVal 1 == 1), [K.captureStoreGib]⟩]

/-- E_POWER (R365). -/
def State.powerCheck (s : State) (f : Figures) : List Check :=
  [⟨E.power, !(s.covers (s.commitDemand f.set f.count.get)),
    bothKeys (fun p => K.portDtsEnable p :: rangeKeys p) ++ (List.range 8).flatMap (fun i => [K.basaltInstEnable i, K.basaltInstCores i])⟩]

/-- Every commit check, in the order of the result codes (R327, R336). -/
def State.commitChecks (s : State) (f : Figures) : List Check :=
  s.seedCheck f ++ s.scheduleChecks f ++ pointChecks f ++ ceilingCheck f ++ s.linkCheck f ++ s.streamChecks f ++ dtsChecks f ++ frontChecks f ++ s.kernelChecks f ++
    s.triggerChecks f ++ s.memoryCheck f ++ s.powerCheck f

/-- A failed check as a refusal: its code, and the first two changed fields in tree order that enter it (R327). -/
def Check.refusal (c : Check) (changed : List Key) : Answer :=
  let hit := changed.filter (fun k => c.keys.contains k)
  .err c.code 0xFFFF ((hit.head?.map Key.path).getD "") ((hit.tail.head?.map Key.path).getD "")

end Sys2Proof.Machine
end

