-- ==== Sys2Proof/Machine/Commit.lean ====
section
/-! DEFINITION. Commits: validation, acceptance, and what comes with F (R29 to R33, R83, R325 to R331). -/

namespace Sys2Proof.Machine

/-! ### Validation (R326 to R328) -/

/-- 200 µs and 86 400 s in units of 2⁻¹⁶ ns. -/
def commitLead : Int := 40000 * tickUnits
def commitHorizon : Int := 86400 * secondUnits

/-- A named time is well formed, at least 200 µs and at most 86 400 s ahead (R328). -/
def State.namedOk (s : State) (x : TS96) : Bool :=
  let v := stampOfBits (TS96bits x)
  tsOk (TS96bits x) && decide (s.stamp + commitLead ≤ v) && decide (v ≤ s.stamp + commitHorizon)

/-- Commits whose F has not passed on some port (R328). -/
def State.openCommits (s : State) : Nat := s.cfg.commits.length

/-- Validate the draft in the order of R327: state (a self-test refuses it too, R404), revision, named time, room for a commit, then the checks in the order of their codes. None where it passes. -/
def State.validate (s : State) (rev : BitVec 32) (named : Option TS96) : Option Answer :=
  let changed := diffKeys s.cfg.draft s.cfg.live
  if (s.mode ≠ .ready ∧ s.mode ≠ .running) ∨ s.health.selftest.running then some (Answer.fail E.state)
  else if s.cfg.draft.get K.emitNeighbourTest = 1 ∧ s.mode ≠ .ready then some (.err E.state 0xFFFF K.emitNeighbourTest.path "")
  else if rev ≠ 0 ∧ rev.toNat ≠ s.cfg.draftRev then some (Answer.fail E.draftChanged)
  else if (named.map s.namedOk).getD true = false then some (Answer.fail E.time)
  else if 4 ≤ s.openCommits then some (Answer.fail E.busy)
  else ((s.commitChecks (s.figures s.cfg.draft)).find? (fun c => c.bad)).map (fun c => c.refusal changed)

/-- Validation of a set that gives the capture store less than it has draws a free value (R251). -/
def State.validated (s : State) : State :=
  if s.cfg.draft.get K.captureStoreGib < s.cfg.live.get K.captureStoreGib ∧ s.trig.captures ≠ [] then s.drawn else s

/-! ### Acceptance (R325, R329, R330) -/

/-- The first frame start of a port at or after a tick; the tick itself where the port has no frames, or none is placed yet (R30). -/
def State.startFrom (s : State) (p : Port) (t : Tick) : Tick :=
  match (s.frame p).next with
  | none => t
  | some n => if t ≤ n then n else n + ceilDiv (t - n) (max 1 (s.period p)) * s.period p

/-- F on a port of a commit that may act from a tick on. -/
def State.boundaryF (s : State) (p : Port) (t : Tick) : Tick := if s.hasFrames p then s.startFrom p t else t

/-- F of fields that belong to no port (R83). -/
def State.boundaryG (s : State) (t : Tick) : Tick :=
  if s.hasFrames .a then s.boundaryF .a t else if s.hasFrames .b then s.boundaryF .b t else t

/-- The keys of actions a set asks for. -/
def woActions (set : PSet) : List (Key × Nat) := set.entries.filter (fun e => e.1.access == .wo)
/-- A set with its actions reverted. -/
def woCleared (set : PSet) : PSet := ⟨set.entries.filter (fun e => e.1.access != .wo)⟩

/-- The classes that changed keys belong to (R335): FRAME, BLOCK, INTEGRATION, RESTART. -/
def classMask (ks : List Key) : Nat :=
  let has := fun (c : Swap) => b2n (ks.any (fun k => k.swap == c))
  has .frame + 2 * has .block + 4 * has .integration + 8 * has .restart

/-- The epoch after one (R329). -/
def nextEpoch (e : Nat) : Nat := if e = 4294967295 then 1 else e + 1

/-- Slots that the old set named and the new one does not wait for release (R331). -/
def State.slotsLeaving (s : State) (old new : PSet) : State :=
  (List.range 8).foldl (fun st k =>
    if slotNamed old k && !slotNamed new k && (st.slot k).image != [] then st.setSlot k { st.slot k with releasing := true }
    else if slotNamed new k then st.setSlot k { st.slot k with releasing := false } else st) s

/-- Accept the draft as a commit: the next epoch, the live set, the boundaries F, EV_COMMIT; the draft keeps the set with its actions reverted. -/
def State.acceptCommit (s : State) (named : Option TS96) (client request : Nat) (ens : Option (BitVec 64 × Nat)) : State × Commit :=
  let draft := s.cfg.draft
  let acts := woActions draft
  let set := woCleared draft
  let at_ := named.map (fun x => stampOfBits (TS96bits x))
  let lead := s.now + 40000
  let t := max lead ((at_.map s.tickOfStamp).getD 0)
  let epoch := nextEpoch (s.roGet K.sysEpoch)
  let c : Commit :=
    { epoch := epoch, set := set, actions := acts, minTick := lead, named := at_, fA := s.boundaryF .a t, fB := s.boundaryF .b t, fG := s.boundaryG t,
      passedA := false, passedB := false, passedG := false, counts := ⟨s.resolveCount set .a, s.resolveCount set .b⟩,
      powers := ⟨powerFor set .a (s.checkPeriod set .a), powerFor set .b (s.checkPeriod set .b)⟩, wroteRole := s.cfg.wroteRole, ens := ens }
  let rev := if acts = [] then s.cfg.draftRev else (s.cfg.draftRev + 1) % 4294967296
  let s1 : State := { s with cfg := { s.cfg with draft := set, live := set, draftRev := rev, commits := s.cfg.commits ++ [c], wroteRole := false } }
  let s2 := (s1.roSet K.sysEpoch epoch).bump K.ncpCommits 1
  let s3 := (s2.slotsLeaving s.cfg.live set).basaltSettle
  ((s3.raise Ev.commit [u epoch, u client, u request, tsVal (at_.getD 0), tsVal (s3.stampAt c.fA), tsVal (s3.stampAt c.fB)]).ensRefresh, c)

/-- The response of an accepted commit. -/
def State.commitBody (s : State) (c : Commit) (changed : List Key) : List Byte :=
  le 4 c.epoch ++ tsBytes s.stamp ++ tsBytes (s.stampAt c.fA) ++ tsBytes (s.stampAt c.fB) ++ le 4 (classMask changed)

/-- CFG_COMMIT on the draft. -/
def State.cfgCommit (s : State) (h : Hdr) (rev : BitVec 32) (mode : Nat) (named : TS96) : State × Answer :=
  if 1 < mode then (s, Answer.fail E.format)
  else
    let at_ : Option TS96 := if mode = 1 then some named else none
    let refusal : Option Answer := if s.cfg.frozen then some (Answer.fail E.state) else s.validate rev at_
    match refusal with
    | some a => ((if s.cfg.frozen then s else s.validated).bump K.ncpCommitsRefused 1, a)
    | none =>
      let changed := s.cfg.draft.diff s.cfg.live
      let r := s.validated.acceptCommit at_ h.client.toNat h.request.toNat none
      (r.1, .ok (r.1.commitBody r.2 changed) false)

/-- CFG_COMMIT: validates the whole draft and, where it passes, allocates the next epoch and schedules its swap points (R29, R30, R325 to R330). -/
def execCfgCommit (h : Hdr) (rev : BitVec 32) (mode : Nat) (named : TS96) (s : State) : Out :=
  request 0x0012 h (le 4 rev.toNat ++ le 1 mode ++ le 3 h.pad ++ ts96Bytes named) (fun st => st.cfgCommit h rev mode named) s

/-! ### F (R29 to R32, R83, R223, R331) -/

/-- The fields whose F begins a new Strata run (R223). -/
def strataFields (p : Port) : List Key := [K.portPointsFirst p, K.portPointsPitch p, K.portSlotPlan p]

/-- Commits that have passed on both ports and for the fields of no port are done. -/
def State.dropPassed (s : State) : State :=
  { s with cfg := { s.cfg with commits := s.cfg.commits.filter (fun c => !(c.passedA && c.passedB && c.passedG)) } }

/-- One epoch is newer than another: it follows it by less than half of the numbers there are (R32, R329). -/
def epochNewer (new old : Nat) : Bool := decide (0 < (new + 4294967296 - old) % 4294967296) && decide ((new + 4294967296 - old) % 4294967296 < 2147483648)

/-- The swap pulse of F on a port: the active bank loads a commit's values; on a port without frames its INTEGRATION-class values are live from F too (R29 to R31). Re-discovery apart, what follows on the port follows. -/
def State.loadPort (s : State) (p : Port) (c : Commit) : State :=
  let old := (s.cfg.act p).set
  let oldCount := s.roGet (K.portPointsCountLive p)
  let b : Bank := ⟨c.epoch, c.set⟩
  let idle : Bool := !(s.hasFrames p)
  let cfg1 : Cfg := { s.cfg with past := s.cfg.past.set p (((s.stamp, c.set) :: s.cfg.past.get p).take 64) }
  let cfg2 : Cfg := match p with
    | .a => { cfg1 with actA := b, histA := (b :: cfg1.histA).take 64, intA := if idle then b else cfg1.intA }
    | .b => { cfg1 with actB := b, histB := (b :: cfg1.histB).take 64, intB := if idle then b else cfg1.intB }
  let s1 : State := State.roSet { s with cfg := cfg2 } (K.portPointsCountLive p) (c.counts.get p)
  let s2 := ({ s1 with opt := { s1.opt with fAt := s1.opt.fAt.set p (s1.startTick p) } } : State).portAtF p old (oldCount != c.counts.get p)
  let s3 := if changed old c.set (strataFields p) || oldCount != c.counts.get p then s2.runDue p else s2
  ((s3.streamsAtF (some p) b).strataRetention).basaltAtF

/-- A committed re-discovery at F (R31, R53, R60, R64): a BOUND or EMITTING port discovers at once, or waits for the other port; in APR it waits for the end of the hold; a discovery in progress serves
it. Where both ports reach F in one tick, port A goes first. -/
def State.rediscoverAtF (s : State) (p : Port) : State :=
  let st := s.pState p
  if st = 2 ∨ st = 3 then (if (p == .b && s.aRestarts) = false then s.discover p else s.setPortSt p { s.portSt p with rediscover := true })
  else if st = 4 then s.setPortSt p { s.portSt p with rediscover := true }
  else s

/-- F on a port: the newest commit due loads, unless a newer one is in force already; then a committed re-discovery (R29, R31, R32). -/
def State.commitPort (s : State) (p : Port) : State :=
  let due := s.cfg.commits.filter (fun c => !(c.passed p) && s.mayAct c)
  match due.getLast? with
  | none => s
  | some c =>
    let again : Bool := due.any (fun x => x.actions.any (fun e => e.1 == K.portRediscover p))
    let s1 : State := { s with cfg := { s.cfg with commits := s.cfg.commits.map (fun x => if due.contains x then x.pass p else x) } }
    let s2 := if epochNewer c.epoch (s.cfg.act p).epoch then s1.loadPort p c else s1
    (if again then s2.rediscoverAtF p else s2).dropPassed

/-- Actions of fields that belong to no port, due at F (R43, R92, R280, R302). -/
def State.actionDue (s : State) (e : Key × Nat) : State :=
  if e.1 = K.opticalSeedSelect then { s with opt := { s.opt with select := e.2, selectAt := s.startTick (if s.hasFrames .a then .a else .b) } }
  else if e.1 = K.schedLockRealign then
    let free : Bool := s.roGet K.schedLockState == 4 || s.roGet K.schedLockState == 5
    { s with opt := { s.opt with realignDue := ⟨free && s.onBus .a && s.hasFrames .a, free && s.onBus .b && s.hasFrames .b⟩ } }
  else if e.1 = K.timebaseStep then { s with opt := { s.opt with stepDue := true } }
  else if e.1 = K.emitNeighbourTest then { s with drive := { s.drive with testDue := true } }
  else s

/-- The swap pulse of the fields that belong to no port, and what follows it (R29, R83). -/
def State.loadGlobal (s : State) (c : Commit) (wrote : Bool) : State :=
  let old := s.cfg.actG.set
  let b : Bank := ⟨c.epoch, c.set⟩
  let s1 : State := { s with cfg := { s.cfg with actG := b, pastG := ((s.stamp, c.set) :: s.cfg.pastG).take 64 } }
  let s2 := ((s1.lockAtF old wrote).timeFieldsAtF (c.set.diff old)).streamsAtF none b
  (((s2.strataAtF old).triggerAtF old).publishRegions.regrant).ensAtF old

/-- F of the fields that belong to no port (R83): the newest commit due loads, unless a newer one is in force already; then its actions. -/
def State.commitGlobal (s : State) : State :=
  let due := s.cfg.commits.filter (fun c => !c.passedG && s.mayAct c)
  match due.getLast? with
  | none => s
  | some c =>
    let wrote : Bool := due.any (·.wroteRole)
    let s1 : State := { s with cfg := { s.cfg with commits := s.cfg.commits.map (fun x => if due.contains x then { x with passedG := true } else x) } }
    let s2 := if epochNewer c.epoch s.cfg.actG.epoch then s1.loadGlobal c wrote else s1.lockAtF s.cfg.actG.set wrote
    ((due.flatMap (·.actions)).foldl State.actionDue s2).dropPassed

/-- The swap pulse of a port's frame start: its own fields, and those of no port where it is the port R83 names. -/
def State.commitAtStrobe (s : State) (p : Port) : State :=
  let own := s.commitPort p
  if p = .a || !(s.hasFrames .a) then own.commitGlobal else own

/-- COMMIT_F_TICK: F where there are no frames: of a port (R30), or of the fields of no port while neither has frames (R83). -/
def execCommitFTick (t : Tick) (port : Option Port) (s : State) : Out :=
  let s0 := s.at t
  match port with
  | some p => .next (if s0.hasFrames p then s0 else s0.commitPort p)
  | none => .next (if s0.hasFrames .a || s0.hasFrames .b then s0 else s0.commitGlobal)

end Sys2Proof.Machine
end

