-- ==== Sys2Proof/Machine/Loads.lean ====
section
/-! DEFINITION. Commands on kernel slots and captures (R213, R214, R230, R237 to R243, R332, R335). -/

namespace Sys2Proof.Machine

/-! ### Kernel slots (R213, R214) -/

/-- A slot is named by an enabled instance in the live set or the draft (R214). -/
def State.slotTaken (s : State) (k : Nat) : Bool := slotNamed s.cfg.live k || slotNamed s.cfg.draft k

/-- Persistent slots other than one, with their lengths: those in flash and those being written. -/
def State.persistOthers (s : State) (k : Nat) : List (Nat × Nat) :=
  ((s.basalt.stored.map (fun e => (e.1, e.2.length))) ++ s.jobs.filterMap (fun j => match j.work with
    | .kernelPersist n bytes _ => some (n, bytes)
    | _ => none)).filter (fun e => e.1 != k)

/-- Another persistent image of a length fits: at most four slots and 4 MiB in all. -/
def State.persistFits (s : State) (k bytes : Nat) : Bool :=
  let others := s.persistOthers k
  decide (others.length + 1 ≤ 4) && decide (sumN (others.map (·.2)) + bytes ≤ 4194304)

/-- Replace a slot's image and publish it. -/
def State.putImage (s : State) (k : Nat) (im : List Byte) (loading : Option (BitVec 64 × Nat × Bool × List Byte)) : State :=
  (s.setSlot k { (s.slot k) with image := im, loading := loading }).publishImage k

/-- A chunk of a load that is in order: bytes join, and the last chunk runs the loader's checks (R187, R213). -/
def State.loadChunk (s : State) (client : BitVec 64) (k flags imageBytes : Nat) (got data : List Byte) : State × Answer :=
  let all := got ++ data
  let persistent := bitOf flags 0
  if imageBytes < all.length then (s, Answer.fail E.format)
  else if persistent && !(s.persistFits k imageBytes) then (s, Answer.fail E.persist)
  else if bitOf flags 1 = false then (s.putImage k [] (some (client, imageBytes, persistent, all)), .ok (le 4 all.length) false)
  else if all.length = imageBytes ∧ imageOk all then
    (s.putImage k all none, if persistent then .later (.kernelPersist k all.length (imageCheck all)) else .ok (le 4 all.length ++ le 4 (imageCheck all)) false)
  else (s.putImage k [] none, Answer.fail E.image)

/-- KERNEL_LOAD on a slot (R214, R332, R335): chunks in order from offset 0, each from the client of the first; another offset abandons the load. -/
def State.kernelLoad (s : State) (client : BitVec 64) (k flags offset imageBytes : Nat) (data : List Byte) : State × Answer :=
  if 8 ≤ k then (s, Answer.fail E.notFound)
  else if s.slotTaken k then (s, Answer.fail E.inUse)
  else if (s.slot k).releasing || s.slotInUse k then (s, Answer.fail E.releasing)
  else if 1048576 < imageBytes then (s, Answer.fail E.image)
  else if offset = 0 then s.loadChunk client k flags imageBytes [] data
  else match (s.slot k).loading with
    | none => (s, Answer.fail E.format)
    | some (c, n, _, got) =>
      if c ≠ client then (s, Answer.fail E.format)
      else if offset ≠ got.length then (s.setSlot k { (s.slot k) with loading := none }, Answer.fail E.format)
      else if n ≠ imageBytes then (s, Answer.fail E.format)
      else s.loadChunk client k flags imageBytes got data

/-- KERNEL_LOAD. -/
def execKernelLoad (h : Hdr) (slot flags offset imageBytes : Nat) (data : List Byte) (s : State) : Out :=
  request 0x0030 h (le 1 slot ++ le 1 flags ++ le 2 h.pad ++ le 4 offset ++ le 4 imageBytes ++ data)
    (fun st => st.kernelLoad h.client slot flags offset imageBytes data) s

/-- KERNEL_UNLOAD on a slot (R214): the slot is empty, in flash too. -/
def State.kernelUnload (s : State) (k : Nat) : State × Answer :=
  if 8 ≤ k then (s, Answer.fail E.notFound)
  else if s.slotTaken k then (s, Answer.fail E.inUse)
  else if (s.slot k).releasing || s.slotInUse k then (s, Answer.fail E.releasing)
  else
    let s1 : State := { s with basalt := { s.basalt with stored := s.basalt.stored.filter (fun e => e.1 != k) } }
    (s1.putImage k [] none, Answer.done)

/-- KERNEL_UNLOAD. -/
def execKernelUnload (h : Hdr) (slot : Nat) (s : State) : Out := request 0x0031 h (le 1 slot ++ le 3 h.pad) (fun st => st.kernelUnload slot) s

/-! ### Snapshots (R215) -/

/-- Byte `i` of a number in little-endian order. -/
def byteOf (v i : Nat) : Byte := BitVec.ofNat 8 (v / 256 ^ i)

/-- Byte `i` of a table of numbers of `w` bytes each. -/
def byteIn (l : List Nat) (w i : Nat) : Byte := byteOf (l.getD (i / w) 0) (i % w)

/-- Byte `i` of a snapshot's data: data memory (bytes of a free value where it had no defined content, R182), V, ACC, S, A, control registers. -/
def BSnap.byteAt (x : BSnap) (i : Nat) : Byte :=
  if i < 262144 then
    (match x.undef with
    | some n => byteOf (Config.freeBits n) i
    | none => (memBytes x.mem i 1).headD 0)
  else if i < 266240 then byteIn (x.v.map (·.toNat)) 64 (i - 262144)
  else if i < 267776 then byteIn (x.acc.map (·.toNat)) 192 (i - 266240)
  else if i < 267904 then byteIn (x.s.map (·.toNat)) 4 (i - 267776)
  else if i < 267936 then byteIn (x.a.map (·.toNat)) 4 (i - 267904)
  else byteIn x.ke 4 (i - 267936)

/-- Bytes of a whole snapshot (R335). -/
def snapshotBytes : Nat := 268256

/-- KERNEL_SNAPSHOT: a stretch of a core's newest snapshot. -/
def State.kernelSnapshot (s : State) (c offset length : Nat) : Answer :=
  if 34 ≤ c then Answer.fail E.notFound
  else match (s.core c).snap with
    | none => Answer.fail E.notFound
    | some x =>
      if snapshotBytes < offset then Answer.fail E.format
      else
        let n := min (min length 65516) (snapshotBytes - offset)
        .ok (tsBytes x.taken ++ le 1 x.cause ++ le 1 x.logical ++ le 2 x.pc ++ le 4 snapshotBytes ++ (List.range n).map (fun i => x.byteAt (offset + i))) false

/-- KERNEL_SNAPSHOT. -/
def execKernelSnapshot (h : Hdr) (core offset length : Nat) (s : State) : Out :=
  request 0x0032 h (le 1 core ++ le 3 h.pad ++ le 4 offset ++ le 4 length) (fun st => (st, st.kernelSnapshot core offset length)) s

/-! ### Captures (R237 to R243) -/

/-- A stream of the live set that carries captures. -/
def State.captureStream (s : State) (sid : Nat) : Bool :=
  (s.stream sid).par (K.streamEnable sid) == 1 && (s.stream sid).par (K.streamKind sid) == 5

/-- A capture at an instant: refused where its pre-trigger part lies before the run, or the store has no room (R230, R237, R239). The answer is its number. -/
def State.captureFor (s : State) (trig : Stamp) (prof : Nat) : State × (Nat ⊕ Nat) :=
  if s.prefillShort prof trig then (s, .inl E.prefill)
  else match s.openCapture prof trig 0 true none 0 with
    | (s1, none) => (s1, .inl E.captureRefused)
    | (s1, some n) => (s1, .inr n)

/-- CAPTURE_AT. -/
def State.captureAt (s : State) (trigger : TS96) (prof : Nat) : State × Answer :=
  if tsOk (TS96bits trigger) = false ∨ 7 < prof then (s, Answer.fail E.format)
  else match s.captureFor (stampOfBits (TS96bits trigger)) prof with
    | (s1, .inl code) => (s1, Answer.fail code)
    | (s1, .inr n) => (s1, .ok (le 4 n) false)

/-- CAPTURE_AT: a capture at an absolute time under a profile; on pair 7 it is the request of an ensemble's coordinator (R239, R357). -/
def execCaptureAt (h : Hdr) (trigger : TS96) (profile : Nat) (s : State) : Out :=
  let body := ts96Bytes trigger ++ le 1 profile ++ le 3 h.pad
  if h.pair = 7 then .next (s.servePeer 0x0040 h body (fun st => st.captureAt trigger profile))
  else request 0x0040 h body (fun st => st.captureAt trigger profile) s

/-- A capture ready for a use: found, not waiting for release, COMPLETE; else the code (R332). -/
def State.usable? (s : State) (n : Nat) : Nat ⊕ Capture :=
  match s.capture n with
  | none => .inl E.notFound
  | some c => if c.releasing then .inl E.releasing else if c.complete = false then .inl E.notReady else .inr c

/-- CAPTURE_SEND: the image goes out on a CAPTURE stream (R243). -/
def State.captureSend (s : State) (n sid : Nat) : State × Answer :=
  match s.usable? n with
  | .inl code => (s, Answer.fail code)
  | .inr _ =>
    if 15 < sid then (s, Answer.fail E.format)
    else if s.captureStream sid = false then (s, Answer.fail E.state)
    else (s.sendCapture n sid, Answer.done)

/-- CAPTURE_SEND. -/
def execCaptureSend (h : Hdr) (capture stream : Nat) (s : State) : Out :=
  request 0x0041 h (le 4 capture ++ le 1 stream ++ le 3 h.pad) (fun st => st.captureSend capture stream) s

/-- The parameters of a derivation lie within R240: a port of the capture, a range inside its range, and every code defined. -/
def deriveFits (r : DeriveReq) (c : Capture) : Bool :=
  decide (r.port ≤ 1) && decide (r.mode ≤ 2) && decide (r.format ≤ 2) && decide (2 ≤ r.gauge) && decide (r.gauge ≤ 100) && decide (r.preset ≤ 3) && decide (r.form ≤ 2) &&
  decide (r.stream ≤ 15) && decide (1 ≤ r.count) && (if r.mode = 0 then decide (r.factor = 1) else decide (r.factor = 1) || factorOk r.factor) &&
  (match c.ranges.get (Port.ofIdx r.port) with
   | none => false
   | some range => decide (range.1 ≤ r.first) && decide (r.first + r.count ≤ range.1 + range.2))

/-- CAPTURE_DERIVE: one derivation runs and up to 8 wait (R242); the answer is the place in the queue. -/
def State.captureDerive (s : State) (r : DeriveReq) : State × Answer :=
  match s.usable? r.capture with
  | .inl code => (s, Answer.fail code)
  | .inr c =>
    if deriveFits r c = false then (s, Answer.fail E.format)
    else if s.captureStream r.stream = false then (s, Answer.fail E.state)
    else if 9 ≤ s.trig.derives.length then (s, Answer.fail E.queueFull)
    else
      let place := s.trig.derives.length
      let s1 : State := { s with trig := { s.trig with derives := s.trig.derives ++ [r] } }
      (s1.modCapture r.capture (fun x => { x with derives := x.derives + 1 }), .ok (le 1 place) false)

/-- The body of CAPTURE_DERIVE. -/
def deriveBytes (r : DeriveReq) (pad : Nat) : List Byte :=
  le 4 r.capture ++ le 1 r.port ++ le 1 r.mode ++ le 1 r.format ++ le 1 r.gauge ++ le 4 r.first ++ le 4 r.count ++ le 1 r.preset ++ le 1 r.form ++ le 2 r.factor ++
  le 1 r.stream ++ le 3 pad

/-- CAPTURE_DERIVE. -/
def execCaptureDerive (h : Hdr) (req : DeriveReq) (s : State) : Out := request 0x0042 h (deriveBytes req h.pad) (fun st => st.captureDerive req) s

/-- CAPTURE_RELEASE: now, or deferred to the end of its last use (R238, R331). -/
def State.captureRelease (s : State) (n : Nat) : State × Answer :=
  match s.capture n with
  | none => (s, Answer.fail E.notFound)
  | some c => (s.releaseCapture n, .ok (le 1 (if c.uses = 0 then 0 else 1)) false)

/-- CAPTURE_RELEASE. -/
def execCaptureRelease (h : Hdr) (capture : Nat) (s : State) : Out := request 0x0043 h (le 4 capture) (fun st => st.captureRelease capture) s

/-- An entry of CAPTURE_LIST. -/
def Capture.item (c : Capture) : List Byte := le 4 c.number ++ le 2 c.flags ++ le 2 c.uses ++ le 8 c.bytes ++ tsBytes c.trig

/-- CAPTURE_LIST. -/
def execCaptureList (h : Hdr) (cursor : Nat) (s : State) : Out :=
  request 0x0044 h (le 4 cursor) (fun st => (st, page (st.trig.captures.map Capture.item) cursor)) s

end Sys2Proof.Machine
end

