-- ==== Sys2Proof/Machine/Ensemble.lean ====
section
/-! DEFINITION. Ensembles: peers and their messages, the ensemble commit, time agreement, ensemble captures (chapter 14). -/

namespace Sys2Proof.Machine

/-! ### Finding peers (R342, R343) -/

/-- DNSSD_PEER_FOUND: a peer found by browsing is asked for its member table. -/
def execDnssdPeerFound (t : Tick) (id : BitVec 64) (_addr : BitVec 128) (s : State) : Out :=
  let s0 := s.at t
  .next (if s0.peersServed ∧ id ≠ s0.moduleId then s0.contact id else s0)

/-- Admit a module of the ensemble, ABSENT until its heartbeat is judged; the 129th is told and left out (R341). -/
def State.enlist (s : State) (h : Heartbeat) : State :=
  if 127 ≤ s.ens.members.length then s.raise Ev.ensMember [.u64 h.id, u 5, u 5]
  else
    let m : Member := { id := h.id, hb := some h, heard := s.now, heardAt := s.stamp, absent := none, status := 5, checks := [], capture := 0xFFFFFFFF, result := 0 }
    (s.withEns { s.ens with members := insertMember m s.ens.members }).ensRefresh

/-- A member is out of the table. -/
def State.dropMember (s : State) (id : BitVec 64) : State :=
  (s.withEns { s.ens with members := s.ens.members.filter (fun m => !(m.id == id)) }).ensRefresh

/-- HEARTBEAT: a failed check is discarded; a module of the ensemble is a member, one that carries another ID has left; tables are exchanged where their digests differ (R341 to R345). -/
def execHeartbeat (t : Tick) (m : Heartbeat) (s : State) : Out :=
  let s0 := s.at t
  if s0.peersServed = false ∨ m.checkOk = false ∨ m.id = s0.moduleId then .next s0
  else if m.ensId.toNat ≠ s0.ensId then .next (if (s0.member m.id).isSome then s0.dropMember m.id else s0)
  else
    let s1 := match s0.member m.id with
      | none => s0.enlist m
      | some x => (s0.setMember { x with hb := some m, heard := s0.now, heardAt := s0.stamp, absent := none }).ensRefresh
    .next (if (s1.member m.id).isSome ∧ m.tableDigest ≠ Config.tableDigest s1.tableIds then s1.sendTable m.id else s1)

/-- HEARTBEAT_SEND: every 1 s to each member, on each network port whose link is up, and to the seed addresses (R342 to R344). -/
def execHeartbeatSend (t : Tick) (s : State) : Out :=
  let s0 := s.at t
  if s0.peersServed = false ∨ s0.now < s0.ens.hbAt + secondTicks then .next s0
  else
    let s1 := s0.withEns { s0.ens with hbAt := s0.now }
    let s2 := s1.ens.members.foldl (fun st m => st.beat st.ensId m.id) s1
    let seeds := (List.range 16).filter (fun j => s2.pG (K.ensSeedAddr j) != 0)
    .next (seeds.foldl (fun st j => st.linksUp.foldl (fun st2 p =>
      st2.emit (.datagram p (st2.pG K.ensPeerPort) (BitVec.ofNat 128 (st2.pG (K.ensSeedAddr j))) (st2.pG K.ensPeerPort) (st2.peerMessage st2.ensId 0xF0 st2.heartbeatBody))) st) s2)

/-- TABLE: every module it lists that is unknown is contacted; a sender that lacks a member is shown the table (R342). -/
def execTable (t : Tick) (from_ : BitVec 64) (members : List (BitVec 64)) (s : State) : Out :=
  let s0 := s.at t
  if s0.peersServed = false ∨ from_ = s0.moduleId then .next s0
  else
    let s1 := (s0.heardFrom from_).useConn from_
    let unknown := members.filter (fun id => decide (id ≠ s1.moduleId) && (s1.member id).isNone)
    let s2 := unknown.foldl State.contact s1
    .next (if s2.tableIds.any (fun id => !(members.contains id)) then s2.sendTable from_ else s2)

/-- PEER_CONNECTION_IDLE: a connection unused for 60 s is closed (R343). -/
def execPeerConnectionIdle (t : Tick) (peer : BitVec 64) (s : State) : Out :=
  let s0 := s.at t
  if s0.ens.conns.any (fun e => e.1 == peer && decide (e.2 + 60 * secondTicks ≤ s0.now)) then
    .next ((s0.withEns { s0.ens with conns := s0.ens.conns.filter (fun e => !(e.1 == peer)) }).emit (.closed 7))
  else .next s0

/-! ### Losing members (R344) -/

/-- MEMBER_LOST: nothing heard for ens.lost_s. -/
def execMemberLost (t : Tick) (id : BitVec 64) (s : State) : Out :=
  let s0 := s.at t
  match s0.member id with
  | none => .next s0
  | some m =>
    .next (if s0.peersServed ∧ m.absent = none ∧ m.heard + s0.pG K.ensLostS * secondTicks ≤ s0.now then
      (s0.setMember { m with absent := some s0.now }).ensRefresh else s0)

/-- MEMBER_FORGET: ABSENT for ens.forget_s. -/
def execMemberForget (t : Tick) (id : BitVec 64) (s : State) : Out :=
  let s0 := s.at t
  match (s0.member id).bind (·.absent) with
  | some a => .next (if a + s0.pG K.ensForgetS * secondTicks ≤ s0.now then s0.dropMember id else s0)
  | none => .next s0

/-- ENS_FORGET: an ABSENT member leaves the table at once. -/
def execEnsForget (h : Hdr) (member : BitVec 64) (s : State) : Out :=
  request 0x0094 h (le 8 member.toNat) (fun st =>
    match st.member member with
    | none => (st, Answer.fail (if member = st.moduleId then E.state else E.notFound))
    | some m => if m.absent.isSome then (st.dropMember member, Answer.done) else (st, Answer.fail E.state)) s

/-! ### Reading the ensemble (R358) -/

/-- ENS_STATUS. -/
def execEnsStatus (h : Hdr) (s : State) : Out :=
  request 0x0090 h [] (fun st =>
    (st, .ok (le 8 st.ensId ++ le 4 (st.roGet K.ensEpoch) ++ le 1 (st.roGet K.ensStatus) ++ le 1 (st.roGet K.ensMajor) ++ le 2 (st.roGet K.ensMembers) ++
      le 4 (st.roGet K.ensTxnLast) ++ le 1 (st.roGet K.ensTxnState) ++ le 1 (st.roGet K.ensTimeState) ++ le 2 (st.roGet K.ensTimeNear) ++
      le 4 (st.roGet K.ensTimeDeviation)) false)) s

/-- The `i`-th free value from now. -/
def State.freeAt (s : State) (i w : Nat) : Nat := Config.freeBits (s.fresh + i) % 2 ^ w

/-- The row of another member; its time state and deviation reach the module by no message the spec names, so they are free values (log entry 2). -/
def State.memberRow (s : State) (i : Nat) (m : Member) : List Byte :=
  let hb := m.hb
  let f := fun (g : Heartbeat → Nat) => (hb.map g).getD 0
  le 8 m.id.toNat ++ le 1 m.status ++ le 1 (f (·.fwMajor)) ++ le 1 (f (·.fwMinor)) ++ le 1 (f (·.busGroup)) ++ le 1 (f (·.state)) ++ le 1 (s.freeAt (2 * i) 8) ++
  le 2 m.result ++ le 4 (f (·.epoch)) ++ le 4 (f (·.ensEpoch)) ++ le 4 (s.freeAt (2 * i + 1) 32) ++ le 4 m.capture ++ tsBytes m.heardAt

/-- The module's own row. -/
def State.ownRow (s : State) : List Byte :=
  le 8 s.moduleId.toNat ++ le 1 (s.roGet K.ensStatus) ++ le 1 s.ownMajor ++ le 1 s.ownMinor ++ le 1 (s.pG K.ensBusGroup) ++ le 1 s.mode.code ++
  le 1 (s.roGet K.ensTimeState) ++ le 2 s.ens.lastResult ++ le 4 (s.roGet K.sysEpoch) ++ le 4 (s.roGet K.ensEpoch) ++
  le 4 (ofInt 32 (roundDiv (s.roInt K.ensTimeDeviation) 1000)) ++ le 4 s.ens.lastCapture ++ tsBytes s.stamp

/-- ENS_MEMBERS: the rows in ascending order of module ID, the module's own among them. -/
def execEnsMembers (h : Hdr) (cursor : Nat) (s : State) : Out :=
  request 0x0091 h (le 4 cursor) (fun st =>
    let rows := if st.ensId = 0 then [] else st.tableIds.zipIdx.map (fun e => match st.member e.1 with
      | some m => st.memberRow e.2 m
      | none => st.ownRow)
    ({ st with fresh := st.fresh + 2 * rows.length }, page rows cursor)) s

/-! ### Votes (R349, R354) -/

/-- The planned period of a draft: of the master port, or of the BUS ports of a FOLLOWER; 0 where it plans none, all ones where its BUS ports differ. -/
def State.plannedPeriod (s : State) : Nat :=
  let d := s.cfg.draft
  let role := d.get K.schedLockRole
  if role = 1 then s.checkPeriod d (Port.ofIdx (d.get K.schedLockPort))
  else if role = 2 then
    match (ports.filter (fun p => decide (d.get (K.portFrameAlign p) = 2) && decide (d.get (K.portEnable p) = 1))).map (s.checkPeriod d) with
    | [] => 0
    | [x] => x
    | x :: y :: _ => if x = y then x else 4294967295
  else 0

/-- The vote of this module with a result. -/
def State.voteWith (s : State) (txn result : Nat) : VoteMsg :=
  { member := s.moduleId, txn := txn, result := result, digest := sharedDigest s.cfg.draft, ensEpoch := s.roGet K.ensEpoch,
    busGroup := s.cfg.draft.get K.ensBusGroup, role := s.cfg.draft.get K.schedLockRole, period := s.plannedPeriod, checkOk := true }

/-- The body of a VOTE: its fields in the order of R343, with the error body of a refusal. -/
def voteBody (v : VoteMsg) (err : List Byte) : List Byte :=
  le 4 v.txn ++ le 2 v.result ++ err ++ le 8 v.digest.toNat ++ le 4 v.ensEpoch ++ le 1 v.busGroup ++ le 1 v.role ++ le 4 v.period

/-- Judge a PREPARE: ens.major, the validation of R327 as for mode AT at T, T against D, and another transaction; none for YES (R346, R349). -/
def State.judgePrepare (s : State) (named : TS96) (deadline : Stamp) (rev major : Nat) : Option Answer :=
  if major ≠ s.roGet K.ensMajor then some (Answer.fail E.ensemble)
  else match s.validate (BitVec.ofNat 32 rev) (some named) with
    | some a => some a
    | none =>
      if stampOfBits (TS96bits named) < deadline + secondUnits / 2 then some (Answer.fail E.time)
      else if s.ens.prepared.isSome then some (Answer.fail E.busy)
      else none

/-- The code and error body of a judgement: 0 and none for YES. -/
def voteResult : Option Answer → Nat × List Byte
  | none => (0, [])
  | some (.err code index p q) => (code, errorBody index p q)
  | some _ => (E.state, errorBody 0xFFFF "" "")

/-- Take part in a transaction: the vote, and for YES the draft is frozen (R349). -/
def State.joinTxn (s : State) (coordinator : BitVec 64) (txn : Nat) (named : TS96) (deadline : Stamp) (rev major : Nat) : State × VoteMsg × List Byte :=
  let r := voteResult (s.judgePrepare named deadline rev major)
  let s1 := if major = s.roGet K.ensMajor then s.validated else s
  let v := s.voteWith txn r.1
  let s2 := s1.withEns { s1.ens with voted := (coordinator, txn, v) :: s1.ens.voted }
  if r.1 ≠ 0 then (s2, v, r.2)
  else
    let s3 : State := { s2 with cfg := { s2.cfg with frozen := true }, ens := { s2.ens with prepared := some ⟨coordinator, txn, named, rev, false⟩ } }
    ((s3.roSet K.ensTxnLast txn).roSet K.ensTxnState 1, v, [])

/-- PREPARE: a repeated one of the same transaction receives the same vote (R343, R349). -/
def execPrepare (t : Tick) (m : Prepare) (s : State) : Out :=
  let s0 := s.at t
  if s0.peersServed = false ∨ m.checkOk = false ∨ (s0.member m.coordinator).isNone then .next s0
  else
    let s1 := s0.heardFrom m.coordinator
    match s1.ens.voted.find? (fun e => e.1 == m.coordinator && e.2.1 == m.txn) with
    | some e => .next (s1.sendPeer m.coordinator 0xF4 (voteBody e.2.2 (if e.2.2.result = 0 then [] else errorBody 0xFFFF "" "")))
    | none =>
      let r := s1.joinTxn m.coordinator m.txn m.named (stampOfBits (TS96bits m.deadline)) m.draftRev m.major
      .next (r.1.sendPeer m.coordinator 0xF4 (voteBody r.2.1 r.2.2))

/-! ### Closing a transaction on this module (R351, R352) -/

/-- Keep an outcome: 1 COMMIT, 0 ABORT. -/
def State.keepOutcome (s : State) (coordinator : BitVec 64) (txn outcome : Nat) : State :=
  s.withEns { s.ens with closed := (coordinator, txn, outcome, s.now) :: s.ens.closed.filter (fun e => !(e.1 == coordinator && e.2.1 == txn)) }

/-- The transaction is open here no longer: the draft is free. -/
def State.unfreeze (s : State) (state : Nat) : State :=
  State.roSet { s with cfg := { s.cfg with frozen := false }, ens := { s.ens with prepared := none } } K.ensTxnState state

/-- Execute the frozen draft as a CFG_COMMIT in mode AT at T, under the ensemble epoch; where validation fails the module does not advance (R351). -/
def State.applyTxn (s : State) (p : Prepared) (ensEpoch : Nat) : State :=
  let s0 := s.unfreeze 3
  match s0.validate 0 (some p.named) with
  | some _ => s0.ensRefresh
  | none =>
    let s1 := s0.validated
    let digest := sharedDigest s1.cfg.draft
    let s2 := (s1.withEns { s1.ens with newest := some (ensEpoch, digest) }).roSet K.ensEpoch ensEpoch
    let r := s2.acceptCommit (some p.named) p.coordinator.toNat p.txn (some (p.coordinator, p.txn))
    (r.1.raise Ev.ensCommit [.u64 p.coordinator, u p.txn, u ensEpoch, u (r.1.roGet K.sysEpoch)]).roSet K.ensTxnState 2

/-- An outcome reaches this module, which has the transaction prepared. -/
def State.closeTxn (s : State) (p : Prepared) (commit : Bool) (ensEpoch : Nat) : State :=
  let s1 := s.keepOutcome p.coordinator p.txn (b2n commit)
  if commit then s1.applyTxn p ensEpoch else s1.unfreeze 3

/-- The transaction prepared, where it is the one named. -/
def State.preparedFor (s : State) (coordinator : BitVec 64) (txn : Nat) : Option Prepared :=
  s.ens.prepared.filter (fun p => p.coordinator == coordinator && p.txn == txn)

/-! ### Deciding (R350, R354) -/

/-- The bus-group check over the YES votes: in every bus group exactly one MASTER, and each FOLLOWER's BUS ports at its period. -/
def busCheck (yes : List VoteMsg) : Bool :=
  let groups := ((yes.map (·.busGroup)).filter (fun g => g != 0)).eraseDups
  groups.all (fun g =>
    let vs := yes.filter (fun v => v.busGroup == g)
    match vs.filter (fun v => v.role == 1) with
    | [m] => vs.all (fun v => v.role != 2 || v.period == 0 || v.period == m.period)
    | _ => false)

/-- The votes of a transaction's participants, in ascending order of module ID. -/
def Coord.inOrder (c : Coord) : List VoteMsg :=
  let ids := c.parts.foldl (fun acc e => insertId e.1 acc) []
  ids.filterMap (fun id => c.votes.find? (fun v => v.member == id))

/-- Participants that have not voted. -/
def Coord.missing (c : Coord) : List (BitVec 64) := (c.parts.map (·.1)).filter (fun id => !(c.votes.any (fun v => v.member == id)))

/-- COMMIT or not: every participant voted YES, or under AVAILABLE did not vote; one digest; the bus-group check passes. -/
def Coord.commits (c : Coord) : Bool :=
  (c.missing.isEmpty || c.available) && c.votes.all (fun v => v.result == 0) &&
  c.votes.all (fun v => v.digest == ((c.votes.head?.map (·.digest)).getD 0)) && busCheck c.votes

/-- The coordinator decides: DECIDE to every participant, excluded ones included, which receive ABORT; EV_ENS_DECIDED; then its own part (R350). -/
def State.decideTxn (s : State) (c : Coord) : State :=
  let commit := c.commits
  let epoch := if commit then 1 + maxN (c.votes.map (·.ensEpoch)) else 0
  let out := c.excluded ++ (if c.available then c.missing else [])
  let body := fun (yes : Bool) => le 4 c.txn ++ le 1 (b2n yes) ++ le 4 (if yes then epoch else 0)
  let s1 := (s.withEns { s.ens with coord := none }).keepOutcome s.moduleId c.txn (b2n commit)
  let told := ((c.parts.map (·.1)) ++ c.excluded).filter (fun id => decide (id ≠ s1.moduleId))
  let s2 := told.foldl (fun st id => st.sendPeer id 0xF5 (body (commit && !(out.contains id)))) s1
  let refused := c.inOrder.find? (fun v => v.result != 0)
  let s3 := s2.raise Ev.ensDecided [u c.txn, u (b2n commit), u epoch, u (if commit then c.votes.length else 0), u out.length,
    .u64 ((refused.map (·.member)).getD 0), u ((refused.map (·.result)).getD 0)]
  let s4 := if commit then
      s3.withEns { s3.ens with masters := ((c.votes.filter (fun v => v.role == 1 && v.busGroup != 0)).map (fun v => (v.busGroup, v.member))) ++
                                          s3.ens.masters.filter (fun e => !(c.votes.any (fun v => v.busGroup == e.1))) }
    else s3
  match s4.preparedFor s4.moduleId c.txn with
  | some p => s4.closeTxn p commit epoch
  | none => if s4.roGet K.ensTxnLast = c.txn then s4.roSet K.ensTxnState 3 else s4

/-- Decide where every vote has arrived. -/
def State.decideIfAll (s : State) : State :=
  match s.ens.coord with
  | some c => if c.missing.isEmpty then s.decideTxn c else s
  | none => s

/-- VOTE: the coordinator records a participant's first vote, an OBSERVER's is ignored (R346, R350). -/
def execVote (t : Tick) (m : VoteMsg) (s : State) : Out :=
  let s0 := s.at t
  if s0.peersServed = false ∨ m.checkOk = false then .next s0
  else
    let s1 := s0.heardFrom m.member
    match s1.ens.coord with
    | none => .next s1
    | some c =>
      let observer : Bool := ((s1.member m.member).map (fun x => x.status == 2)).getD true
      if c.txn = m.txn ∧ c.missing.contains m.member ∧ observer = false then
        .next (s1.withEns { s1.ens with coord := some { c with votes := c.votes ++ [m] } }).decideIfAll
      else .next s1

/-- PREPARE_DEADLINE: at D the coordinator decides with the votes it has (R350). -/
def execPrepareDeadline (t : Tick) (s : State) : Out :=
  let s0 := s.at t
  match s0.ens.coord with
  | some c => .next (if c.deadline ≤ s0.stamp then s0.decideTxn c else s0)
  | none => .next s0

/-- DECIDE: a participant executes its frozen draft or is free again; one without the transaction is not touched (R343, R351). -/
def execDecide (t : Tick) (coordinator : BitVec 64) (txn : Nat) (commit : Bool) (ensEpoch : Nat) (s : State) : Out :=
  let s0 := s.at t
  if s0.peersServed = false then .next s0
  else
    let s1 := s0.heardFrom coordinator
    match s1.preparedFor coordinator txn with
    | some p => .next (s1.closeTxn p commit ensEpoch)
    | none => .next s1

/-! ### ENS_COMMIT (R348) -/

/-- A status that takes part: IN_SYNC or LAGGING. -/
def takesPart (v : Nat) : Bool := v == 0 || v == 1

/-- The status of a member, the module's own included. -/
def State.statusById (s : State) (id : BitVec 64) : Option Nat :=
  if id = s.moduleId then some (s.roGet K.ensStatus) else (s.member id).map (·.status)

/-- Why a listed set of modules can make no ensemble request: no ensemble, a module that is not a member, an own major other than ens.major (R346, R348, R357). -/
def State.ensRefused (s : State) (ids : List (BitVec 64)) : Bool :=
  decide (s.ensId = 0) || decide (s.ownMajor ≠ s.roGet K.ensMajor) || ids.any (fun id => (s.statusById id).isNone)

/-- Open a transaction: PREPARE to every participant, and the module's own vote in the same way (R348, R349). -/
def State.openTxn (s : State) (named : TS96) (available : Bool) (parts : List (BitVec 64 × Nat)) (excluded : List (BitVec 64)) : State × Nat :=
  let txn := (s.ens.count + 1) % 4294967296
  let deadline := s.stamp + s.pG K.ensPrepareMs * (secondUnits / 1000)
  let major := s.roGet K.ensMajor
  let s1 := (s.withEns { s.ens with count := txn }).roSet K.ensTxnLast txn
  let s2 := (parts.filter (fun e => decide (e.1 ≠ s.moduleId))).foldl (fun st e =>
    st.sendPeer e.1 0xF3 (le 8 st.moduleId.toNat ++ le 4 txn ++ ts96Bytes named ++ tsBytes deadline ++ le 4 e.2 ++ le 1 major)) s1
  let ownRev := ((parts.find? (fun e => e.1 == s.moduleId)).map (·.2)).getD 0
  let r := s2.joinTxn s.moduleId txn named deadline ownRev major
  let c : Coord := { txn := txn, named := named, deadline := deadline, available := available, parts := parts, excluded := excluded, votes := [r.2.1] }
  ((r.1.withEns { r.1.ens with coord := some c }).decideIfAll, txn)

/-- ENS_COMMIT on this module. -/
def State.ensCommit (s : State) (named : TS96) (policy : Nat) (members : List (BitVec 64 × Nat)) : State × Answer :=
  let ids := members.map (·.1)
  if 1 < policy ∨ 128 < members.length then (s, Answer.fail E.format)
  else if s.ensRefused ids || s.ens.coord.isSome ||
      (policy == 0 && s.tableIds.any (fun id => let v := (s.statusById id).getD 0; v != 2 && !takesPart v)) then (s, Answer.fail E.ensemble)
  else if s.namedOk named = false then (s, Answer.fail E.time)
  else
    let asked := if ids = [] then s.tableIds else ids
    let takes := fun (id : BitVec 64) => decide (id = s.moduleId) || takesPart ((s.statusById id).getD 5)
    let revOf := fun (id : BitVec 64) => ((members.find? (fun e => e.1 == id)).map (·.2)).getD 0
    let own := if asked.contains s.moduleId then asked else s.moduleId :: asked
    let parts := (own.eraseDups.filter takes).map (fun id => (id, revOf id))
    let excluded := own.eraseDups.filter (fun id => !(takes id))
    let r := s.openTxn named (policy == 1) parts excluded
    (r.1, .ok (le 4 r.2) false)

/-- ENS_COMMIT: every member's draft at one named time (R348). -/
def execEnsCommit (h : Hdr) (named : TS96) (policy : Nat) (members : List (BitVec 64 × Nat)) (s : State) : Out :=
  request 0x0092 h (ts96Bytes named ++ le 1 policy ++ le 1 members.length ++ le 2 h.pad ++ members.flatMap (fun e => le 8 e.1.toNat ++ le 4 e.2))
    (fun st => st.ensCommit named policy members) s

/-! ### Outcomes asked for (R352) -/

/-- What this module knows of a transaction: 0 COMMIT, 1 ABORT, 2 PREPARED, 3 UNKNOWN; outcomes are kept 24 h. -/
def State.outcomeOf (s : State) (coordinator : BitVec 64) (txn : Nat) : Nat :=
  match s.ens.closed.find? (fun e => e.1 == coordinator && e.2.1 == txn && decide (s.now ≤ e.2.2.2 + 86400 * secondTicks)) with
  | some e => if e.2.2.1 = 1 then 0 else 1
  | none =>
    if (s.preparedFor coordinator txn).isSome || (coordinator == s.moduleId && (s.ens.coord.map (·.txn)) == some txn) then 2 else 3

/-- OUTCOME: a query is answered; an answer that is COMMIT or ABORT closes the transaction it was asked for. The answer carries no ensemble epoch, so it is a free value (log entry 2). -/
def execOutcome (t : Tick) (coordinator : BitVec 64) (txn : Nat) (from_ : BitVec 64) (answer : Option Nat) (s : State) : Out :=
  let s0 := s.at t
  if s0.peersServed = false then .next s0
  else
    let s1 := s0.heardFrom from_
    match answer with
    | none => .next (s1.sendPeer from_ 0xF6 (le 4 txn ++ le 1 (s1.outcomeOf coordinator txn)))
    | some a =>
      match s1.preparedFor coordinator txn with
      | some p =>
        if p.asked = false ∨ 2 ≤ a then .next s1
        else if a = 0 then .next (s1.drawn.closeTxn p true (s1.freeVal 32))
        else .next (s1.closeTxn p false 0)
      | none => .next s1

/-- The instant a prepared transaction takes effect. -/
def Prepared.instant (p : Prepared) : Stamp := stampOfBits (TS96bits p.named)

/-- OUTCOME_QUERY: no DECIDE by T − 250 ms: the coordinator and every other member are asked (R352). -/
def execOutcomeQuery (t : Tick) (s : State) : Out :=
  let s0 := s.at t
  match s0.ens.prepared with
  | some p =>
    if p.asked = false ∧ p.instant - secondUnits / 4 ≤ s0.stamp then
      let s1 := s0.withEns { s0.ens with prepared := some { p with asked := true } }
      let rest := (s1.ens.members.map (·.id)).filter (fun id => !(id == p.coordinator))
      .next ((p.coordinator :: rest).foldl (fun st id => st.sendPeer id 0xF6 (le 4 p.txn)) s1)
    else .next s0
  | none => .next s0

/-- IN_DOUBT_TIMEOUT: no answer by T − 100 ms: aborted, IN_DOUBT (R352). -/
def execInDoubtTimeout (t : Tick) (s : State) : Out :=
  let s0 := s.at t
  match s0.ens.prepared with
  | some p =>
    if p.instant - secondUnits / 10 ≤ s0.stamp then
      .next ((s0.unfreeze 4).raiseSev Ev.ensInDoubt 2 [.u64 p.coordinator, u p.txn])
    else .next s0
  | none => .next s0

/-! ### Time agreement (R355, R356) -/

/-- TIMECHECK: the exchange of four stamps gives an offset and a round trip; the last 8 are kept (R283, R355). -/
def execTimecheck (t : Tick) (id : BitVec 64) (t1 t2 t3 t4 : Stamp) (s : State) : Out :=
  let s0 := s.at t
  match s0.member id with
  | none => .next s0
  | some _ =>
    if s0.peersServed = false then .next s0
    else
      let s1 := s0.heardFrom id
      match s1.member id with
      | none => .next s1
      | some m => .next (s1.setMember { m with checks := ((((t2 - t1) - (t4 - t3)) / 2, (t4 - t1) - (t3 - t2)) :: m.checks).take 8 })

/-- TIMECHECK_SEND: every 1 s to each member, on the first network port whose link is up (R343, R355). -/
def execTimecheckSend (t : Tick) (s : State) : Out :=
  let s0 := s.at t
  if s0.peersServed = false ∨ s0.now < s0.ens.checkAt + secondTicks then .next s0
  else
    let s1 := s0.withEns { s0.ens with checkAt := s0.now }
    match s1.linksUp with
    | [] => .next s1
    | p :: _ => .next (s1.ens.members.foldl (fun st m => st.emit (.peer (some p) m.id 0xF1 (st.peerMessage st.ensId 0xF1 (tsBytes st.stamp)))) s1)

/-- Insert in ascending order. -/
def insertInt (x : Int) : List Int → List Int
  | [] => [x]
  | y :: ys => if x ≤ y then x :: y :: ys else y :: insertInt x ys

/-- The median: the middle value, or the mean of the two in the middle. -/
def median (xs : List Int) : Int :=
  let ys := xs.foldl (fun acc x => insertInt x acc) []
  let n := ys.length
  if n = 0 then 0 else if n % 2 = 1 then ys.getD (n / 2) 0 else (ys.getD (n / 2 - 1) 0 + ys.getD (n / 2) 0) / 2

/-- A near peer: checked, not ABSENT, its median round trip within ens.time.max_rtt_us and its time quality not FREE (R355). -/
def State.near (s : State) (m : Member) : Bool :=
  m.here && decide (m.checks ≠ []) && decide (median (m.checks.map (·.2)) ≤ (s.pG K.ensTimeMaxRttUs : Int) * 65536000) && ((m.hb.map (fun h => h.quality != 3)).getD false)

/-- Set ens.time.state; a change is told, and SUSPECT judges the module's time (R282, R356). -/
def State.setTimeState (s : State) (v : Nat) (dev : Int) (n : Nat) : State :=
  if s.roGet K.ensTimeState = v then s
  else
    let s1 : State := { s.roSet K.ensTimeState v with time := { s.time with ensSuspect := decide (v = 2) } }
    (s1.raiseSev Ev.ensTime (if v = 2 then 2 else 1) [u v, sv dev, u n]).judgeTime

/-- ENS_TIME_EVALUATION: once per second the deviation is the negative of the median of 0 and the near peers' offsets, with at least 2 of them; 3 evaluations above 1 µs make
the module SUSPECT, 10 at or below 0.8 µs clear it (R355, R356). -/
def execEnsTimeEvaluation (t : Tick) (s : State) : Out :=
  let s0 := s.at t
  if s0.peersServed = false ∨ s0.now < s0.ens.evalAt + secondTicks then .next s0
  else
    let peers := s0.ens.members.filter s0.near
    let n := peers.length
    let s1 := (s0.withEns { s0.ens with evalAt := s0.now }).roSet K.ensTimeNear n
    if n < 2 then .next ((s1.withEns { s1.ens with over_ := 0, under := 0 }).setTimeState 0 (s1.roInt K.ensTimeDeviation) n)
    else
      let dev := -(median (0 :: peers.map (fun m => median (m.checks.map (·.1)))))
      let ps := clampInt (-2147483648) 2147483647 (roundDiv (dev * 1000) 65536)
      let big : Bool := decide (65536000 < dev.natAbs)
      let small : Bool := decide (10 * dev.natAbs ≤ 8 * 65536000)
      let o := if big then s1.ens.over_ + 1 else 0
      let k := if small then s1.ens.under + 1 else 0
      let s2 := (s1.withEns { s1.ens with over_ := o, under := k }).roSetInt K.ensTimeDeviation ps
      let was := s2.roGet K.ensTimeState
      let now := if was = 2 then (if 10 ≤ k then 1 else 2) else if 3 ≤ o then 2 else 1
      .next (s2.setTimeState now ps n)

/-! ### Ensemble captures (R357) -/

/-- A member's capture number and result. -/
def State.setCaptureRow (s : State) (id : BitVec 64) (result capture : Nat) : State :=
  if id = s.moduleId then s.withEns { s.ens with lastResult := result, lastCapture := capture }
  else match s.member id with
    | some m => s.setMember { m with result := result, capture := capture }
    | none => s

/-- Report an ensemble capture: the number made and the number refused; a member that has not answered shows E_BUSY and counts as refused. -/
def State.captureReport (s : State) (c : EnsCap) : State :=
  let silent := c.asked.filter (fun id => !(c.answers.any (fun a => a.1 == id)))
  let s1 := silent.foldl (fun st id => st.setCaptureRow id E.busy 0xFFFFFFFF) s
  let made := (c.answers.filter (fun a => a.2.1 == 0)).length
  (s1.withEns { s1.ens with caps := s1.ens.caps.filter (fun x => !(x.txn == c.txn)) }).raise Ev.ensCapture [u c.txn, u made, u (c.asked.length - made)]

/-- An answer of a member to an ensemble capture; the last one reports it. -/
def State.captureAnswer (s : State) (id : BitVec 64) (txn result capture : Nat) : State :=
  match s.ens.caps.find? (fun c => c.txn == txn) with
  | none => s
  | some c =>
    if c.asked.contains id = false ∨ c.answers.any (fun a => a.1 == id) then s
    else
      let cap := if result = 0 then capture else 0xFFFFFFFF
      let c1 := { c with answers := c.answers ++ [(id, result, cap)] }
      let s0 := s.setCaptureRow id result cap
      let s1 := s0.withEns { s0.ens with caps := s0.ens.caps.map (fun x => if x.txn = txn then c1 else x) }
      if c1.answers.length = c1.asked.length then s1.captureReport c1 else s1

/-- ENS_CAPTURE_ANSWER: a member's answer to its CAPTURE_AT. -/
def execEnsCaptureAnswer (t : Tick) (id : BitVec 64) (txn : Nat) (result : Nat) (capture : Nat) (s : State) : Out :=
  let s0 := s.at t
  .next (if s0.peersServed then (s0.heardFrom id).captureAnswer id txn result capture else s0)

/-- ENS_CAPTURE_TIMEOUT: ens.prepare_ms after sending, what has not answered is E_BUSY (R357). -/
def execEnsCaptureTimeout (t : Tick) (s : State) : Out :=
  let s0 := s.at t
  .next ((s0.ens.caps.filter (fun c => decide (c.since + s0.pG K.ensPrepareMs * msTicks ≤ s0.now))).foldl State.captureReport s0)

/-- ENS_CAPTURE_AT on this module: CAPTURE_AT to every module asked, its own done at once; an OBSERVER receives none and shows E_ENSEMBLE. -/
def State.ensCaptureAt (s : State) (trigger : TS96) (prof : Nat) (members : List (BitVec 64)) : State × Answer :=
  if tsOk (TS96bits trigger) = false ∨ 7 < prof ∨ 128 < members.length then (s, Answer.fail E.format)
  else if s.ensRefused members then (s, Answer.fail E.ensemble)
  else
    let status := fun (id : BitVec 64) => (s.statusById id).getD 5
    let asked := if members = [] then s.tableIds.filter (fun id => status id != 2 && status id != 5) else members.eraseDups
    let txn := (s.ens.count + 1) % 4294967296
    let s1 := (s.withEns { s.ens with count := txn, caps := s.ens.caps ++ [⟨txn, s.now, asked, []⟩] }).roSet K.ensTxnLast txn
    let s2 := (asked.filter (fun id => decide (id ≠ s.moduleId) && status id != 2)).foldl (fun st id =>
      st.sendPeer id 0x40 (ts96Bytes trigger ++ le 1 prof ++ le 3 0)) s1
    let s3 := (asked.filter (fun id => decide (id ≠ s.moduleId) && status id == 2)).foldl (fun st id => st.captureAnswer id txn E.ensemble 0) s2
    if asked.contains s.moduleId then
      match s3.captureFor (stampOfBits (TS96bits trigger)) prof with
      | (s4, .inl code) => (s4.captureAnswer s.moduleId txn code 0, .ok (le 4 txn) false)
      | (s4, .inr n) => (s4.captureAnswer s.moduleId txn 0 n, .ok (le 4 txn) false)
    else (s3, .ok (le 4 txn) false)

/-- ENS_CAPTURE_AT (R357). -/
def execEnsCaptureAt (h : Hdr) (trigger : TS96) (profile : Nat) (members : List (BitVec 64)) (s : State) : Out :=
  request 0x0093 h (ts96Bytes trigger ++ le 1 profile ++ le 1 members.length ++ le 2 h.pad ++ members.flatMap (fun id => le 8 id.toNat))
    (fun st => st.ensCaptureAt trigger profile members) s

end Sys2Proof.Machine
end

