-- ==== Sys2Proof/Machine/Crypto.lean ====
section
/-! DEFINITION. SHA-384 (FIPS 180-4) and ECDSA over P-384 (FIPS 186-5), as R338 names them. -/

namespace Sys2Proof.Machine

/-! ### SHA-384

FIPS 180-4 takes the constants from the roots of primes, and so does this file: they are computed, not listed. -/

/-- The whole part of the k-th root of a number, bit by bit from 2^(bits - 1) down. -/
def rootOf (k n : Nat) : Nat → Nat → Nat
  | 0, r => r
  | bits + 1, r => rootOf k n bits (if (r + 2 ^ bits) ^ k ≤ n then r + 2 ^ bits else r)

/-- The first 64 bits of the fraction of the k-th root of a number below 2^32. -/
def rootFraction (k n : Nat) : Nat := rootOf k (n * 2 ^ (64 * k)) 96 0 % 2 ^ 64

/-- The 80 primes below 410, each of which the primes up to 19 suffice to tell. -/
def shaPrimes : List Nat := (List.range 410).filter (fun n => decide (2 ≤ n) && [2, 3, 5, 7, 11, 13, 17, 19].all (fun d => n % d != 0 || n == d))

/-- The round constants: cube roots of the primes. -/
def shaConstants : List Nat := shaPrimes.map (rootFraction 3)

/-- The state before the first block: square roots of the 9th to 16th primes. -/
def shaStart : List Nat := ((shaPrimes.drop 8).take 8).map (rootFraction 2)

/-- A 64-bit word turned right by each of some distances, the results added bit by bit modulo 2. -/
def turned (w : Nat) (by_ : List Nat) : Nat := by_.foldl (fun x n => Nat.xor x (w / 2 ^ n + w * 2 ^ (64 - n) % 2 ^ 64)) 0

/-- A word from three by a rule on their bits: the first chooses between the others. -/
def bitChoice (x y z : Nat) : Nat := Nat.xor z (Nat.land x (Nat.xor y z))

/-- A word from three by the majority of their bits. -/
def bitMajority (x y z : Nat) : Nat := Nat.lor (Nat.land x y) (Nat.land z (Nat.lor x y))

/-- The word of the schedule that the last 16 give, which stand newest first. -/
def nextWord (w : List Nat) : Nat :=
  let early := w.getD 14 0
  let late := w.getD 1 0
  (w.getD 15 0 + w.getD 6 0 + Nat.xor (turned early [1, 8]) (early / 2 ^ 7) + Nat.xor (turned late [19, 61]) (late / 2 ^ 6)) % 2 ^ 64

/-- A round: the chain of eight words moves on by one, with a new word at its head and a changed one in its middle. -/
def chainStep (chain : List Nat) (input : Nat) : List Nat :=
  let word := fun (i : Nat) => chain.getD i 0
  let mixed := word 7 + input + turned (word 4) [14, 18, 41] + bitChoice (word 4) (word 5) (word 6)
  let head := (mixed + turned (word 0) [28, 34, 39] + bitMajority (word 0) (word 1) (word 2)) % 2 ^ 64
  head :: (chain.take 3 ++ ((word 3 + mixed) % 2 ^ 64 :: (chain.drop 4).take 3))

/-- The rounds of a block: the schedule's next word is formed as the rounds use it up. -/
def chainRounds : List Nat → List Nat → List Nat → List Nat
  | [], _, chain => chain
  | k :: ks, w, chain => chainRounds ks ((nextWord w :: w).take 16) (chainStep chain ((k + w.getD 15 0) % 2 ^ 64))

/-- A number from bytes, the most significant first. -/
def ofBe (bs : List Byte) : Nat := bs.foldl (fun n b => 256 * n + b.toNat) 0

/-- A block of 128 bytes goes into the state. -/
def shaBlock (state : List Nat) (block : List Byte) : List Nat :=
  let words := ((List.range 16).map (fun i => ofBe (slice block (8 * i) 8))).reverse
  List.zipWith (fun a b => (a + b) % 2 ^ 64) state (chainRounds shaConstants words state)

/-- A message filled up to whole blocks: a one bit, zeros, and its length in bits over the last 16 bytes. -/
def shaFilled (m : List Byte) : List Byte :=
  let zeros := (239 - m.length % 128) % 128
  m ++ (0x80 :: List.replicate zeros 0) ++ (le 16 (8 * m.length)).reverse

/-- SHA-384 as a number of 384 bits. -/
def sha384 (m : List Byte) : Nat :=
  let filled := shaFilled m
  let last := (List.range (filled.length / 128)).foldl (fun h i => shaBlock h (slice filled (128 * i) 128)) shaStart
  (last.take 6).foldl (fun n w => 2 ^ 64 * n + w) 0

/-! ### P-384 -/

namespace P384
/-- The prime of the field. -/
def p : Nat := 2 ^ 384 - 2 ^ 128 - 2 ^ 96 + 2 ^ 32 - 1
/-- The order of the base point. -/
def n : Nat := 0xffffffffffffffffffffffffffffffffffffffffffffffffc7634d81f4372ddf581a0db248b0a77aecec196accc52973
/-- The base point. -/
def gx : Nat := 0xaa87ca22be8b05378eb1c71ef320ad746e1d3b628ba79b9859f741e082542a385502f25dbf55296c3a545e3872760ab7
/-- Second coordinate of the base point. -/
def gy : Nat := 0x3617de4a96262c6f5d9e98bf9292dc29f8f41dbd289a147ce9da3113b5f0b8c00a60b1ce1d7e819d7a431d7c90ea0e5f

/-- A power modulo m; `fuel` bounds the bits of the exponent. -/
def pow (m : Nat) : Nat → Nat → Nat → Nat
  | 0, _, _ => 1 % m
  | f + 1, b, e => (if e % 2 = 1 then b else 1) * pow m f (b * b % m) (e / 2) % m

/-- An inverse modulo a prime. -/
def inv (m a : Nat) : Nat := pow m 384 (a % m) (m - 2)

/-- The difference modulo the field's prime. -/
def sub (a b : Nat) : Nat := (a + p - b % p) % p

/-- The sum of two points; none is the point at infinity. The curve's a is -3. -/
def add (x y : Option (Nat × Nat)) : Option (Nat × Nat) :=
  match x, y with
  | none, q => q
  | q, none => q
  | some (x1, y1), some (x2, y2) =>
    if x1 = x2 ∧ (y1 + y2) % p = 0 then none
    else
      let l := if x1 = x2 then (3 * x1 * x1 + p - 3) * inv p (2 * y1) % p else sub y2 y1 * inv p (sub x2 x1) % p
      let x3 := sub (sub (l * l % p) x1) x2
      some (x3, sub (l * sub x1 x3 % p) y1)

/-- A multiple of a point. -/
def mul : Nat → Nat → Option (Nat × Nat) → Option (Nat × Nat)
  | 0, _, _ => none
  | f + 1, k, q => add (if k % 2 = 1 then q else none) (mul f (k / 2) (add q q))

/-- An ECDSA signature (r, s) over a digest verifies under a key. -/
def verify (digest r s : Nat) (key : Nat × Nat) : Bool :=
  if r = 0 ∨ n ≤ r ∨ s = 0 ∨ n ≤ s then false
  else
    let w := inv n s
    match add (mul 384 (digest * w % n) (some (gx, gy))) (mul 384 (r * w % n) (some key)) with
    | none => false
    | some q => decide (q.1 % n = r)
end P384

end Sys2Proof.Machine
end

