-- ==== Sys2Proof/Machine/Firmware.lean ====
section
/-! DEFINITION. The firmware update and work that completes in the background (R311, R337 to R339). -/

namespace Sys2Proof.Machine

/-! ### Images (R338, R339) -/

/-- The image an update writes: the one that is not active. -/
def Fw.target (x : Fw) : Port := x.active.other

/-- An image changes, and EV_FW_STATE tells its new state (R337). -/
def State.imageNow (s : State) (p : Port) (x : FwImage) : State := (s.setImage p x).raise Ev.fwState [u p.idx, u x.state.code]

/-- The update belongs to another client. -/
def State.fwForeign (s : State) (c : BitVec 64) : Bool :=
  match s.fw.owner with
  | none => false
  | some o => o != c

/-- A signature check waits to complete. -/
def State.finishing (s : State) : Bool := s.jobs.any (fun j => j.work == .fwFinish)

/-- The header of an image has the fixed values of R338. -/
def fwHeaderOk (im : List Byte) : Bool :=
  decide (slice im 0 4 = ascii "CBFW") && decide (fieldLe im 4 2 = 1) && decide (fieldLe im 6 2 = 0) && decide (fieldLe im 16 4 = im.length) &&
  decide (256 ≤ im.length) && decide (fieldLe im 20 1 ≤ 3) && decide (fieldLe im 21 1 < 16) && decide (fieldLe im 22 10 = 0) && decide (fieldLe im 80 80 = 0)

/-- Digest and signature of an image hold, under a key that is neither revoked nor revoked by the image itself (R338). -/
def State.fwGenuine (s : State) (im : List Byte) : Bool :=
  let key := fieldLe im 20 1
  fwHeaderOk im && !(bitOf s.fw.revoked key) && !(bitOf (fieldLe im 21 1) key) &&
  decide (sha384 (im.drop 256) = ofBe (slice im 32 48)) &&
  P384.verify (sha384 (slice im 0 160)) (ofBe (slice im 160 48)) (ofBe (slice im 208 48)) (Config.otpKeyX key, Config.otpKeyY key)

/-- The code an image is refused with; none for one that is accepted. -/
def State.fwVerdict (s : State) (im : List Byte) : Option Nat :=
  if s.fwGenuine im = false then some E.fwSignature
  else if fieldLe im 12 4 < s.fw.minSecurity then some E.fwRollback
  else none

/-! ### Commands (R337, R339) -/

/-- FW_BEGIN: the inactive image is erased and waits for its bytes; a second one of the owner starts again. -/
def State.fwBegin (s : State) (client : BitVec 64) (bytes : Nat) : State × Answer :=
  let p := s.fw.target
  if s.fwForeign client then (s, Answer.fail E.inUse)
  else if 50331648 < bytes then (s, Answer.fail E.format)
  else if s.fw.trial ∨ s.finishing then (s, Answer.fail E.fwSequence)
  else if s.fw.running = p ∧ s.power.recovery = false then (s, Answer.fail E.fwActive)
  else
    let s1 := s.imageNow p ⟨.writing, 0, 0, 0, [], false⟩
    let s2 : State := { s1 with fw := { s1.fw with owner := some client, expected := bytes, received := 0 },
                                jobs := s1.jobs.map (fun j => match j.work with
                                  | .fwWrite n _ => { j with work := .fwWrite n [] }
                                  | _ => j) }
    (s2, .ok (le 1 p.idx) false)

/-- FW_BEGIN. -/
def execFwBegin (h : Hdr) (imageBytes : Nat) (s : State) : Out := request 0x0060 h (le 4 imageBytes) (fun st => st.fwBegin h.client imageBytes) s

/-- FW_WRITE: chunks in order from offset 0; the answer follows the flash work. -/
def State.fwWrite (s : State) (client : BitVec 64) (offset : Nat) (data : List Byte) : State × Answer :=
  if s.fwForeign client then (s, Answer.fail E.inUse)
  else if s.fw.owner = none ∨ (s.fw.image s.fw.target).state ≠ .writing ∨ s.finishing then (s, Answer.fail E.fwSequence)
  else if offset ≠ s.fw.received ∨ s.fw.expected < offset + data.length then (s, Answer.fail E.format)
  else
    let n := offset + data.length
    ({ s with fw := { s.fw with received := n } }, .later (.fwWrite n data))

/-- FW_WRITE. -/
def execFwWrite (h : Hdr) (offset : Nat) (data : List Byte) (s : State) : Out :=
  request 0x0061 h (le 4 offset ++ data) (fun st => st.fwWrite h.client offset data) s

/-- FW_FINISH: once every byte has arrived, the image is verified in the background. -/
def State.fwFinish (s : State) (client : BitVec 64) : State × Answer :=
  if s.fwForeign client then (s, Answer.fail E.inUse)
  else if s.fw.owner = none ∨ (s.fw.image s.fw.target).state ≠ .writing ∨ s.finishing ∨ s.fw.received ≠ s.fw.expected then (s, Answer.fail E.fwSequence)
  else (s, .later .fwFinish)

/-- FW_FINISH. -/
def execFwFinish (h : Hdr) (s : State) : Out := request 0x0062 h [] (fun st => st.fwFinish h.client) s

/-- FW_ACTIVATE: a VALID inactive image is marked TRIAL for the next BOOT, and the update ends. -/
def State.fwActivate (s : State) (client : BitVec 64) (image : Nat) : State × Answer :=
  let p := Port.ofIdx image
  if s.fwForeign client then (s, Answer.fail E.inUse)
  else if 1 < image then (s, Answer.fail E.notFound)
  else if s.fw.active = p then (s, Answer.fail E.fwActive)
  else if (s.fw.image p).state ≠ .valid then (s, Answer.fail E.fwSequence)
  else
    let s1 : State := { s with fw := { s.fw with owner := none } }
    (s1.imageNow p { s1.fw.image p with state := .trial }, Answer.done)

/-- FW_ACTIVATE. -/
def execFwActivate (h : Hdr) (image : Nat) (s : State) : Out := request 0x0063 h (le 1 image) (fun st => st.fwActivate h.client image) s

/-- FW_CONFIRM: the trial image that runs becomes ACTIVE, the previous one VALID; the security level rises and keys are revoked (R339). -/
def State.fwConfirm (s : State) (client : BitVec 64) : State × Answer :=
  if s.fwForeign client then (s, Answer.fail E.inUse)
  else if s.fw.trial = false then (s, Answer.fail E.fwSequence)
  else
    let p := s.fw.running
    let x := s.fw.image p
    let level := max s.fw.minSecurity x.security
    let revoked := Nat.lor s.fw.revoked x.revoke
    let s1 : State := { s with fw := { s.fw with trial := false, trialDeadline := none, minSecurity := level, revoked := revoked, active := p } }
    let s2 := ((s1.roSet K.fwActive p.idx).roSet K.fwMinSecurity level).roSet K.fwKeysRevoked revoked
    let s3 := s2.imageNow p { x with state := .active }
    (s3.imageNow p.other { s3.fw.image p.other with state := .valid }, Answer.done)

/-- FW_CONFIRM. -/
def execFwConfirm (h : Hdr) (s : State) : Out := request 0x0064 h [] (fun st => st.fwConfirm h.client) s

/-! ### Work in the background (R311) -/

/-- The image written is verified: VALID with its version, or INVALID with the code of the failure, which ends the update. -/
def State.fwVerify (s : State) (flashOk : Bool) : State × Nat × List Byte :=
  let p := s.fw.target
  let x := s.fw.image p
  let verdict : Option Nat := if flashOk = false then some E.fwFlash else s.fwVerdict x.content
  match verdict with
  | some code =>
    let s1 : State := { s with fw := { s.fw with owner := none } }
    (s1.imageNow p { x with state := .invalid }, code, errorBody 0xFFFF "" "")
  | none =>
    (s.imageNow p { x with state := .valid, version := fieldLe x.content 8 4, security := fieldLe x.content 12 4, revoke := fieldLe x.content 21 1 },
     E.ok, slice x.content 8 4 ++ slice x.content 12 4)

/-- What a job does when its flash work ends: its effect, its result and its body. Flash that failed leaves what it held. -/
def State.jobDone (s : State) (work : JobWork) (flashOk : Bool) : State × Nat × List Byte :=
  let failed : State × Nat × List Byte := (s, E.fwFlash, errorBody 0xFFFF "" "")
  match work with
  | .cfgSave set => if flashOk then ({ s with cfg := { s.cfg with stored := some set }, power := { s.power with storedBad := false } }, E.ok, []) else failed
  | .cfgErase => if flashOk then ({ s with cfg := { s.cfg with stored := none }, power := { s.power with storedBad := false } }, E.ok, []) else failed
  | .fwWrite bytes data =>
    if flashOk then
      let p := s.fw.target
      let x := s.fw.image p
      (if x.state = .writing then s.setImage p { x with content := x.content ++ data } else s, E.ok, le 4 bytes)
    else failed
  | .fwFinish => s.fwVerify flashOk
  | .kernelPersist k bytes check =>
    if flashOk then
      let im := (s.slot k).image
      let others := s.basalt.stored.filter (fun e => e.1 != k)
      let s1 : State := if im.length = bytes ∧ imageCheck im = check then { s with basalt := { s.basalt with stored := others ++ [(k, im)] } } else s
      (s1.publishImage k, E.ok, le 4 bytes ++ le 4 check)
    else failed

/-- BACKGROUND_COMMAND_COMPLETE: the oldest job's flash or signature work ends, and its request is answered. -/
def execBackgroundCommandComplete (t : Tick) (flashOk : Bool) (s : State) : Out :=
  let s0 := s.at t
  match s0.jobs with
  | [] => .next s0
  | j :: _ =>
    let r := s0.jobDone j.work flashOk
    .next (r.1.answerJob j r.2.1 r.2.2)

end Sys2Proof.Machine
end

