-- ==== Sys2Proof/Machine/Transport.lean ====
section
/-! DEFINITION. Sessions and transports, the I²C target, and the network links (R139, R309 to R315, R377, R380, R419). -/

namespace Sys2Proof.Machine

/-! ### Sessions (R309, R312, R313) -/

/-- A session opens on a pair: EV_SESSION tells. -/
def State.openSession (s : State) (n : Nat) (link : Port) : State :=
  let s1 := s.setPair n { Session.closed with open_ := true, link := link, lastAt := s.now }
  (s1.roSet K.ncpSessions (s1.sess.filter (·.open_)).length).raise Ev.session [u n, u 0, u 1]

/-- The first TCP pair that is free. -/
def State.freePair (s : State) : Option Nat := [1, 2, 3, 4, 5, 6].find? (fun n => !(s.pair n).open_)

/-- TCP_CONNECT: a connection takes a free pair; a seventh is closed at once (shown as pair 7); where NCP is not served it is refused. -/
def execTcpConnect (t : Tick) (link : Port) (s : State) : Out :=
  let s0 := s.at t
  if s0.servedOn 1 = false ∨ (s0.link link).up = false then .next s0
  else match s0.freePair with
    | some n => .next (s0.openSession n link)
    | none => .next (s0.emit (.closed 7))

/-- A TCP pair. -/
def tcpPair (n : Nat) : Bool := decide (1 ≤ n) && decide (n ≤ 6)

/-- TCP_CLOSE: the peer closes a connection; its session ends. -/
def execTcpClose (t : Tick) (pair : Nat) (s : State) : Out :=
  let s0 := s.at t
  .next (if tcpPair pair then s0.closeSession pair else s0)

/-- SESSION_IDLE_TIMEOUT: a TCP session idle for ncp.idle_timeout_s ends; 0 sets no limit, and the SPI session has none. -/
def execSessionIdleTimeout (t : Tick) (pair : Nat) (s : State) : Out :=
  let s0 := s.at t
  let limit := s0.pG K.ncpIdleTimeoutS
  .next (if tcpPair pair ∧ (s0.pair pair).open_ ∧ limit ≠ 0 ∧ (s0.pair pair).lastAt + limit * secondTicks ≤ s0.now then s0.closeSession pair else s0)

/-- NCP_FRAMING_LOSS: a header with a wrong magic or a body_len above 65 536 closes its connection. -/
def execNcpFramingLoss (t : Tick) (pair : Nat) (magic : BitVec 16) (bodyLen : Nat) (s : State) : Out :=
  let s0 := s.at t
  .next (if tcpPair pair ∧ (magic ≠ 0x434E ∨ 65536 < bodyLen) then s0.closeSession pair else s0)

/-! ### The SPI service port (R315) -/

/-- The SPI session begins with the first transaction where NCP is served. -/
def State.spiTouch (s : State) : State :=
  if s.servedOn 0 then
    let s1 := if (s.pair 0).open_ then s else s.openSession 0 .a
    s1.setPair 0 { s1.pair 0 with lastAt := s1.now }
  else s

/-- Take a message out of the outbound mailbox, and let the next ones in. -/
def State.spiTook (s : State) : State := (s.setPair 0 { s.pair 0 with outbox := (s.pair 0).outbox.drop 1 }).pump 0

/-- The bytes of the next outbound message. -/
def State.spiNext (s : State) : Option (List Byte) := (s.pair 0).outbox.head?.map (fun m => m.bytes s.moduleId 0)

/-- The status word: length of the next outbound message, room, lost, served. -/
def State.spiWord (s : State) : Nat :=
  ((s.spiNext.map List.length).getD 0) % 2 ^ 24 + 2 ^ 24 * b2n (decide (s.spi.inbox.length < 8)) + 2 ^ 25 * b2n s.spi.lost + 2 ^ 26 * b2n (s.servedOn 0)

/-- SPI_STATUS: the word is returned, and bit 25 clears. In OFF nothing answers. -/
def execSpiStatus (t : Tick) (s : State) : Out :=
  let s0 := s.at t
  if s0.mode = .off then .next s0
  else
    let s1 := s0.spiTouch
    let s2 := s1.emit (.spiData (le 4 s1.spiWord))
    .next { s2 with spi := { s2.spi with lost := false } }

/-- SPI_WRITE: one message enters the inbound mailbox; a full mailbox discards it. Where NCP is not served it is not taken. -/
def execSpiWrite (t : Tick) (msg : List Byte) (s : State) : Out :=
  let s0 := s.at t
  if s0.servedOn 0 = false then .next s0
  else
    let s1 := s0.spiTouch
    .next (if s1.spi.inbox.length < 8 then { s1 with spi := { s1.spi with inbox := s1.spi.inbox ++ [msg] } } else { s1 with spi := { s1.spi with lost := true } })

/-- SPI_READ: the next outbound message, cut or padded with zeros to the length read; it leaves the mailbox when read whole. -/
def execSpiRead (t : Tick) (length : Nat) (s : State) : Out :=
  let s0 := s.at t
  if s0.mode = .off then .next s0
  else
    let s1 := s0.spiTouch
    let m := s1.spiNext.getD []
    let s2 := s1.emit (.spiData (m.take length ++ List.replicate (length - m.length) 0))
    .next (if s1.spiNext.isSome ∧ m.length = length then s2.spiTook else s2)

/-! ### The I²C target (R419) -/

/-- Input power in 0.1 W from the reading of the input bus. -/
def State.inputPower (s : State) : Nat :=
  match f32Val (s.roGet (K.hkChValue 4)) with
  | some x => (clampInt 0 65535 (roundRat (x * 10))).toNat
  | none => 65535

/-- The 128 bits of the status block. -/
def State.i2cBlock (s : State) : Nat :=
  s.moduleId.toNat + 2 ^ 64 * s.mode.code + 2 ^ 72 * (s.roGet K.powerLevel % 4) + 2 ^ 76 * (min 15 s.presentFaults) + 2 ^ 80 * b2n s.armed +
  2 ^ 81 * (s.roGet K.timebaseSuspect % 2) + 2 ^ 82 * b2n (s.power.zones.any (·.alarm)) + 2 ^ 83 * b2n s.power.stale + 2 ^ 84 * b2n s.mode.served +
  2 ^ 85 * (s.power.bootFail % 8) + 2 ^ 96 * ofInt 16 (clampInt (-32768) 32767 s.caseCenti) + 2 ^ 112 * s.inputPower

/-- The target answers in every state but OFF and SAVE. -/
def Mode.answersI2c : Mode → Bool
  | .off => false
  | .save => false
  | _ => true

/-- I2C_POINTER_WRITE: a single byte up to 0x0F sets the read pointer; anything else is not acknowledged. -/
def execI2cPointerWrite (t : Tick) (data : List Byte) (s : State) : Out :=
  let s0 := s.at t
  match data with
  | [b] => .next (if s0.mode.answersI2c ∧ b.toNat ≤ 15 then s0.withPower { s0.power with i2c := { s0.power.i2c with pointer := b.toNat } } else s0)
  | _ => .next s0

/-- I2C_READ: the block is latched at START and returned from the pointer onward, wrapping at 0x0F; the pointer stays. -/
def execI2cRead (t : Tick) (length : Nat) (s : State) : Out :=
  let s0 := s.at t
  if s0.mode.answersI2c = false then .next s0
  else
    let block := le 16 s0.i2cBlock
    let at_ := s0.power.i2c.pointer
    let s1 := s0.withPower { s0.power with i2c := ⟨at_, block⟩ }
    .next (s1.emit (.i2cData ((List.range length).map (fun i => block.getD ((at_ + i) % 16) 0))))

/-! ### Network links (R139, R377, R380) -/

/-- What a link under test does is known when its test ends (R407). -/
def State.testedLink (s : State) (link : Port) (up : Bool) : State :=
  { s with health := { s.health with linkTests := s.health.linkTests.map (fun o => o.map (fun x =>
      match x.until_, x.port with
      | some _, some (p, _) => if p = link then { x with port := some (p, up) } else x
      | _, _ => x)) } }

/-- A link test holds a network port. -/
def State.linkHeld (s : State) (link : Port) : Bool :=
  s.health.linkTests.any (fun o => match o with
    | some x => x.until_.isSome && (x.port.map (·.1)) == some link
    | none => false)

/-- NETWORK_LINK_LOSS: AUTO subscribers move; the kept link of GEODE is watched for 10 s. -/
def execNetworkLinkLoss (t : Tick) (link : Port) (s : State) : Out :=
  let s0 := s.at t
  match s0.power.geode with
  | some g =>
    if g.kept = some link ∧ (s0.link link).up then
      let s1 := s0.setLink link { s0.link link with up := false, since := s0.now }
      .next (s1.withPower { s1.power with geode := some { g with down := some s1.now } })
    else .next s0
  | none => .next ((s0.linkDown link).testedLink link false)

/-- The next port renegotiates once the one before is up (R377). -/
def State.relinkNext (s : State) (link : Port) : State :=
  match s.power.relink with
  | x :: rest =>
    if x ≠ link then s
    else
      let s1 := s.withPower { s.power with relink := rest }
      match rest with
      | y :: _ => s1.linkDown y
      | [] => s1
  | [] => s

/-- NETWORK_LINK_UP: a link comes up, at 1000BASE-T in BEDROCK and GEODE; AUTO subscribers whose link is down move to it. -/
def execNetworkLinkUp (t : Tick) (link : Port) (gigabit : Bool) (s : State) : Out :=
  let s0 := s.at t
  let fresh := fun (g : Bool) => s0.setLink link { s0.link link with up := true, gigabit := g, since := s0.now }
  if (s0.link link).up ∨ s0.mode = .off ∨ s0.mode = .save then .next s0
  else if s0.linkHeld link then .next (s0.testedLink link true)
  else match s0.power.geode with
    | some g =>
      if g.kept = some link ∧ g.deep = false then
        let s1 := fresh true
        .next (s1.withPower { s1.power with geode := some { g with down := none } })
      else .next s0
    | none =>
      let s1 := (fresh (gigabit || s0.mode == .bedrock)).moveTo link
      .next (s1.relinkNext link)

/-- An address is the module's own on a port, as far as its configuration says: a STATIC IPv4 address; addresses the network assigns are the network's to know. -/
def State.ownAddress (s : State) (p : Port) (ipv6 : Bool) (addr : BitVec 128) : Bool :=
  ipv6 || s.geodePar (K.netAddrMode p) == 0 || decide (addr.toNat = s.geodePar (K.netIpv4 p))

/-- ARP_NEIGHBOUR_SOLICITATION: on the kept link in GEODE the module answers for its addresses (R380). -/
def execArpNeighbourSolicitation (t : Tick) (link : Port) (ipv6 : Bool) (addr : BitVec 128) (s : State) : Out :=
  let s0 := s.at t
  match s0.power.geode with
  | none => .next s0
  | some g =>
    .next (if s0.mode = .geode ∧ g.deep = false ∧ g.kept = some link ∧ (s0.link link).up ∧ s0.ownAddress link ipv6 addr then
      s0.emit (.linkAnswer link (b2n ipv6)) else s0)

end Sys2Proof.Machine
end

