-- ==== Sys2Proof/Machine/Health.lean ====
section
/-! DEFINITION. Health: wavelength calibration, flash, telemetry, log, self-test, link tests, the life account (chapter 16). -/

namespace Sys2Proof.Machine

/-- Change the health record. -/
def State.withHealth (s : State) (h : Health) : State := { s with health := h }

/-- One hour in ticks. -/
def hourTicks : Nat := 3600 * secondTicks

/-! ### Wavelength and flash (R394, R397) -/

/-- WAVELENGTH_CALIBRATION: every 24 h and 1 h after each switchover the seed is measured against the cell; above 1.0 GHz EV_WAVELENGTH is raised (R392, R394). -/
def execWavelengthCalibration (t : Tick) (errorKhz : Int) (s : State) : Out :=
  let s0 := s.at t
  if s0.mode.working ∧ s0.health.wavelengthDue ≤ s0.now then
    let s1 := ((s0.withHealth { s0.health with wavelengthDue := s0.now + 24 * hourTicks }).roSetInt K.healthWavelengthErrorMhz errorKhz).bgDone 2
    .next (if 1000000 < errorKhz.natAbs then s1.raise Ev.wavelength [sv errorKhz] else s1)
  else .next s0

/-- The erase count of a block. -/
def Health.eraseCountOf (h : Health) (block : Nat) : Nat := ((h.erases.find? (fun e => e.1 == block)).map (·.2)).getD 0

/-- FLASH_BLOCK_ERASE: at most 4 blocks in one second; the erase is counted, a block that fails is replaced, wear is told; an erased block of a save slot is ready for its record
(R386, R392, R397). -/
def execFlashBlockErase (t : Tick) (block : Nat) (ok : Bool) (s : State) : Out :=
  let s0 := s.at t
  let h := s0.health
  let sec := s0.now / secondTicks
  let used := if h.eraseSecond = sec then h.eraseCount else 0
  if s0.mode.working = false ∨ 2048 ≤ block ∨ 4 ≤ used then .next s0
  else
    let n := h.eraseCountOf block + 1
    let spares := s0.roGet K.healthFlashSpareBlocks
    let left := if ok then spares else spares - 1
    let worn : Bool := decide (n = 80000) || (decide (8 ≤ spares) && decide (left < 8))
    let s1 := s0.withHealth { h with erases := (block, n) :: h.erases.filter (fun e => !(e.1 == block)), eraseSecond := sec, eraseCount := used + 1,
                                     moved := if ok ∨ h.moved.contains block then h.moved else block :: h.moved, wear := h.wear || worn }
    let s2 := ((s1.roMax K.healthFlashEraseMax n).roSet K.healthFlashSpareBlocks left).bgDone 4
    let q := s2.power
    let s3 := s2.withPower { q with dirty := ⟨(q.dirty.get .a).filter (fun b => !(b == block)), (q.dirty.get .b).filter (fun b => !(b == block))⟩ }
    .next (if worn then s3.raiseSev Ev.flashWear 2 [u (s3.roGet K.healthFlashEraseMax), u left] else s3)

/-! ### Telemetry (R398) -/

/-- The record of this minute. -/
def State.telRecord (s : State) : TelRecord where
  hk := (List.range 16).map (fun c => BitVec.ofNat 32 (s.roGet (K.hkChValue c)))
  demand := deciWatts s.demandMw
  usable := s.roGet K.powerUsableW
  uncertainty := s.roGet K.timebaseUncertainty
  loads := (List.range 8).map (fun i => s.roGet (K.basaltInstLoad i))
  rate := ((s.figures s.cfg.live).pointRate).floor.toNat

/-- A record in 256 bytes: housekeeping values, demand, usable power, uncertainty, loads, rate, zeros (DESIGN CHOICE: R398 gives the contents, not their places). -/
def telBytes (r : TelRecord) : List Byte :=
  let b := r.hk.flatMap (fun v => le 4 v.toNat) ++ le 2 r.demand ++ le 2 r.usable ++ le 4 r.uncertainty ++ r.loads.flatMap (fun v => le 2 v) ++ le 4 r.rate
  b ++ List.replicate (256 - b.length) 0

/-- What the hourly means and extremes are taken of, now. -/
def State.hourSample (s : State) : HourSample :=
  ⟨s.caseCenti, s.inputPower, s.roGet (K.emitChCurrent 0), s.roGet (K.emitChCurrent 1)⟩

/-- TELEMETRY_RECORD: once a minute one record to the DRAM ring of 10 080 (R398). -/
def execTelemetryRecord (t : Tick) (s : State) : Out :=
  let s0 := s.at t
  if s0.mode.working ∧ s0.health.telAt + 60 * secondTicks ≤ s0.now then
    let h := s0.health
    .next ((s0.withHealth { h with telemetry := (s0.telRecord :: h.telemetry).take 10080, telNext := (h.telNext + 1) % 4294967296, telAt := s0.now,
                                   hour := s0.hourSample :: h.hour }).bgDone 5)
  else .next s0

/-- Mean, lowest and highest of a quantity as three 16-bit words. -/
def meanMinMax (xs : List Int) : List Byte :=
  let one := fun (x : Int) => le 2 (ofInt 16 x)
  one (roundDiv (sumZ xs) (max 1 xs.length)) ++ one (xs.foldl min (xs.headD 0)) ++ one (xs.foldl max (xs.headD 0))

/-- TELEMETRY_HOURLY: once an hour one TELEMETRY entry in the log: means and extremes of case temperature, input power and seed currents (R398). -/
def execTelemetryHourly (t : Tick) (s : State) : Out :=
  let s0 := s.at t
  if s0.mode.working ∧ s0.health.hourAt + hourTicks ≤ s0.now then
    let xs := if s0.health.hour = [] then [s0.hourSample] else s0.health.hour
    let body := meanMinMax (xs.map (·.case)) ++ meanMinMax (xs.map (fun x => (x.power : Int))) ++ meanMinMax (xs.map (fun x => (x.seed0 : Int))) ++
      meanMinMax (xs.map (fun x => (x.seed1 : Int)))
    .next (((s0.withHealth { s0.health with hour := [], hourAt := s0.now }).logEntry 3 0 1 s0.stamp [.bytes body]).bgDone 5)
  else .next s0

/-! ### The life account (R409) -/

/-- The bin of a case temperature in 0.01 °C: 12 bins of 10 °C from −20 °C. -/
def tempBin (c : Int) : Nat := min 11 ((c + 2000) / 1000).toNat

/-- Spare cores left. -/
def State.spareCoresLeft (s : State) : Nat := ((List.range 34).filter (fun c => (s.core c).role == 1)).length

/-- The items at their warning point, a bit per row of R409. -/
def State.lifeWarnings (s : State) : Nat :=
  2 * b2n s.health.pumpAged +
  4 * b2n ([0, 1].any (fun c => decide (13 * 4096 ≤ 10 * s.roGet (K.emitChAgeing c)))) +
  8 * b2n (decide (s.roGet K.memSpareState ≠ 0)) +
  16 * b2n (decide (s.spareCoresLeft ≤ 1)) +
  32 * b2n s.health.wear +
  64 * b2n (decide (160000 ≤ (s.roInt K.timebaseOcxoEfc).natAbs)) +
  128 * b2n (decide (1000 ≤ s.health.hotHours))

/-- LIFE_ACCOUNT: once an hour, hours, temperature bins and EFC range are accounted; EV_LIFE for every item newly at its warning point (R392, R409). -/
def execLifeAccount (t : Tick) (s : State) : Out :=
  let s0 := s.at t
  let n := (s0.now - s0.health.lifeAt) / hourTicks
  if s0.mode.working ∧ 1 ≤ n then
    let c := s0.caseCenti
    let h := s0.health
    let s1 := s0.withHealth { h with lifeAt := h.lifeAt + n * hourTicks, hotHours := h.hotHours + (if 8500 < c then n else 0) }
    let s2 := ((s1.bump K.healthLifeHours n).bump (K.healthLifeTempBin (tempBin c)) n).roSet K.healthLifeEfcUsed
      (min 65535 ((s1.roInt K.timebaseOcxoEfc).natAbs * 65536 / 200000))
    let old := s2.roGet K.healthLifeWarnings
    let now := Nat.lor old s2.lifeWarnings
    let fresh := (List.range 8).filter (fun i => bitOf now i && !(bitOf old i))
    .next ((fresh.foldl (fun st i => st.raiseSev Ev.life 2 [u i]) (s2.roSet K.healthLifeWarnings now)).bgDone 6)
  else .next s0

/-- LIFE_READ: health.life.* in table order, each in the bytes of its width. -/
def execLifeRead (h : Hdr) (s : State) : Out :=
  request 0x00A6 h [] (fun st =>
    (st, .ok (le 4 (st.roGet K.healthLifeHours) ++ (List.range 12).flatMap (fun i => le 4 (st.roGet (K.healthLifeTempBin i))) ++
      le 2 (st.roGet K.healthLifeEfcUsed) ++ le 1 (st.roGet K.healthLifeWarnings)) false)) s

/-! ### Reading the log and telemetry (R401, R408, R427) -/

/-- The arguments of an entry: a u32 count for SUPPRESSED, else typed values, cut at 28 bytes. -/
def logArgs (e : LogEntry) : List Byte :=
  let b := match e.kind, e.args with
    | 4, [.u64 v] => le 4 v.toNat
    | _, xs => xs.flatMap valBytes
  b.take 28 ++ List.replicate (28 - b.length) 0

/-- An entry in 64 bytes (R401). -/
def logBytes (e : LogEntry) : List Byte :=
  let b := le 2 e.kind ++ le 2 e.code ++ le 4 e.seq ++ tsBytes e.time ++ le 4 e.bootCount ++ le 4 e.epoch ++ le 1 e.severity ++
    le 1 (takeFit 28 (e.args.map valBytes)).length ++ le 2 0 ++ logArgs e
  b ++ le 4 (crc32c b).toNat

/-- LOG_READ: entries of the log ring from a sequence on, 1 to 256 (R401, R408). -/
def execLogRead (h : Hdr) (start : Nat) (limit : Nat) (s : State) : Out :=
  request 0x00A0 h (le 4 start ++ le 2 limit ++ le 2 h.pad) (fun st =>
    if limit = 0 ∨ 256 < limit then (st, Answer.fail E.format)
    else
      let next := st.roGet K.healthLogNext
      (st, ringRead ((next + 4294967296 - st.health.log.length) % 4294967296) next (st.health.log.reverse.map logBytes) start limit)) s

/-- TELEMETRY_READ: records of the DRAM ring, 1 to 240 (R398, R408). -/
def execTelemetryRead (h : Hdr) (start : Nat) (limit : Nat) (s : State) : Out :=
  request 0x00A5 h (le 4 start ++ le 2 limit) (fun st =>
    if limit = 0 ∨ 240 < limit then (st, Answer.fail E.format)
    else
      let next := st.health.telNext
      (st, ringRead ((next + 4294967296 - st.health.telemetry.length) % 4294967296) next (st.health.telemetry.reverse.map telBytes) start limit)) s

/-! ### Self-test (R403, R404) -/

/-- The module's state has a test (R403). -/
def State.testAllowed (s : State) (i : Nat) : Bool :=
  if i = 3 then s.mode == .ready || s.mode == .running
  else if i = 1 then s.mode == .ready && s.pState .a == 0 && s.pState .b == 0
  else s.mode == .ready

/-- A test's part is already OPEN, SHORT, FAULTY or RETIRED (R404). -/
def State.testSkipped (s : State) (i : Nat) : Bool :=
  let dead := fun (c : Nat) => s.chStatus c == 3 || s.chStatus c == 4
  if i = 1 then dead (seedIdx s.activeSeed) || s.seedStatus s.activeSeed == 4
  else if i = 2 then (List.range 11).any (fun c => s.chInUse c && dead c)
  else if i = 3 then s.spareRank.isNone
  else if i = 5 then decide (s.spareCoresLeft = 0)
  else false

/-- How long a test takes in ticks (R403). -/
def testTicks (i : Nat) : Nat :=
  match i with
  | 0 => 2 * secondTicks
  | 1 => 6 * secondTicks
  | 2 => 20000
  | 3 => spareTestTicks
  | 4 => 10 * secondTicks
  | _ => 50 * msTicks

/-- The tests of a mask, in ascending order. -/
def testsOf (mask : Nat) : List Nat := (List.range 6).filter (fun i => bitOf mask i)

/-- SELFTEST: refused with E_STATE where a test is outside its states, or tests run (R403, R404); the spare rank's test starts at once. -/
def State.selftestStart (s : State) (mask : Nat) : State × Answer :=
  if 64 ≤ mask then (s, Answer.fail E.format)
  else if s.health.selftest.running ∨ (testsOf mask).any (fun i => !(s.testAllowed i)) then (s, Answer.fail E.state)
  else
    let skipped := sumN (((testsOf mask).filter s.testSkipped).map (2 ^ ·))
    let x : SelfTest := ⟨mask, 0, skipped, true, s.now, none, List.replicate 6 0⟩
    let s1 := (s.withHealth { s.health with selftest := x }).roSet K.healthSelftestState 1
    let s2 := match bitOf mask 3, s1.spareRank with
      | true, some r =>
        if s1.mem.spareTest = none then
          (s1.withMem { s1.mem with spareTest := some s1.now, spareLast := s1.now }).setRank r { s1.rank r with selfRefresh := false }
        else s1
      | _, _ => s1
    (s2, Answer.done)

/-- SELFTEST. -/
def execSelftest (h : Hdr) (mask : Nat) (s : State) : Out :=
  request 0x00A1 h (le 1 mask ++ le 3 h.pad) (fun st => st.selftestStart mask) s

/-- The light of the OPTICAL_COIL test (R44, R403): on each port in turn one slot for each of the eight gain steps, at APR probe level. When in the port's 3 s each leaves is not stated:
fresh values (log entry 54). -/
def State.coilLaunches (s : State) (from_ : Tick) : State :=
  (List.range 16).foldl (fun (st : State) j =>
    (st.emit (.pulse (if j < 8 then .a else .b) 3 (st.stampAt (from_ + j / 8 * (3 * secondTicks) + st.freeVal 32 % (3 * secondTicks))) probeLight)).drawn) s

/-- SELFTEST_COMPLETE: the tests end and EV_SELFTEST carries the mask run and the mask failed; the EMITTER test has proofed each channel in use (R403, R404). -/
def execSelftestComplete (t : Tick) (failed : Nat) (details : List Nat) (s : State) : Out :=
  let s0 := s.at t
  let x := s0.health.selftest
  let ran := (testsOf x.mask).filter (fun i => !(bitOf x.skipped i))
  if x.running ∧ x.since + sumN (ran.map testTicks) ≤ s0.now then
    let bad := sumN ((ran.filter (bitOf failed)).map (2 ^ ·))
    let y : SelfTest := { x with failed := bad, running := false, completed := some s0.stamp, details := (List.range 6).map (fun i => if ran.contains i then details.getD i 0 else 0) }
    let lit := if ran.contains 1 then s0.coilLaunches x.coilFrom else s0
    let s1 := (lit.withHealth { lit.health with selftest := y }).roSet K.healthSelftestState (if bad = 0 then 2 else 3)
    let s2 := if ran.contains 2 then ((List.range 11).filter s1.chInUse).foldl (fun st c => st.bump (K.emitChProofs c) 1) s1 else s1
    .next (s2.raiseSev Ev.selftest (if bad = 0 then 1 else 2) [u x.mask, u bad])
  else .next s0

/-- SELFTEST_RESULT (R408). -/
def execSelftestResult (h : Hdr) (s : State) : Out :=
  request 0x00A2 h [] (fun st =>
    let x := st.health.selftest
    (st, .ok (le 1 x.mask ++ le 1 x.failed ++ le 1 x.skipped ++ le 1 (b2n x.running) ++ tsBytes (x.completed.getD 0) ++
      (List.range 6).flatMap (fun i => le 4 (x.details.getD i 0))) false)) s

/-! ### Link tests (R405 to R407) -/

/-- The running or last test of a link. -/
def State.linkTest (s : State) (l : Nat) : Option LinkTest := s.health.linkTests.getD l none

/-- A link is under test. -/
def State.linkTesting (s : State) (l : Nat) : Bool := ((s.linkTest l).map (·.until_.isSome)).getD false

/-- Which network port has the named peer as its partner: the network's to know, so a free value (log entry 2). -/
def State.partnerPort (s : State) : Option Port :=
  match s.freeVal 2 with
  | 0 => none
  | 1 => some .a
  | _ => some .b

/-- A link's test begins; a network port tested with a peer carries nothing else meanwhile (R407). -/
def State.linkTestStart (s : State) (l pattern seconds : Nat) (p : Option Port) : State :=
  let x : LinkTest := { pattern := pattern, until_ := some (s.now + seconds * secondTicks), port := p.map (fun q => (q, (s.link q).up)), bits := 0, errors := 0 }
  let s1 := s.withHealth { s.health with linkTests := s.health.linkTests.set l (some x) }
  match p with
  | some q => s1.linkDown q
  | none => s1

/-- LINK_TEST: in READY for every link, in RUNNING only for a network port whose partner is the peer named (R407). -/
def State.linkTestAsk (s : State) (l pattern seconds : Nat) (peer : BitVec 64) : State × Answer :=
  if 10 ≤ l ∨ 4 ≤ pattern ∨ seconds = 0 ∨ 3600 < seconds then (s, Answer.fail E.format)
  else if s.linkTesting l then (s, Answer.fail E.state)
  else if s.mode = .ready then
    if l = 0 ∧ peer ≠ 0 then (s.drawn.linkTestStart l pattern seconds s.partnerPort, Answer.done) else (s.linkTestStart l pattern seconds none, Answer.done)
  else if s.mode = .running ∧ l = 0 ∧ peer ≠ 0 then
    match s.partnerPort with
    | some p => (s.drawn.linkTestStart l pattern seconds (some p), Answer.done)
    | none => (s.drawn, Answer.fail E.state)
  else (s, Answer.fail E.state)

/-- LINK_TEST. -/
def execLinkTest (h : Hdr) (link : Nat) (pattern : Nat) (seconds : Nat) (peer : BitVec 64) (s : State) : Out :=
  request 0x00A3 h (le 1 link ++ le 1 pattern ++ le 2 seconds ++ le 8 peer.toNat) (fun st => st.linkTestAsk link pattern seconds peer) s

/-- LINK_TEST_END: the time of a link's test is over; its result is kept, and its network port carries output again. -/
def execLinkTestEnd (t : Tick) (link : Nat) (bits : Nat) (errors : Nat) (s : State) : Out :=
  let s0 := s.at t
  match s0.linkTest link with
  | none => .next s0
  | some x =>
    match x.until_ with
    | none => .next s0
    | some e =>
      if e ≤ s0.now then
        let s1 := s0.withHealth { s0.health with linkTests := s0.health.linkTests.set link (some { x with until_ := none, bits := bits, errors := errors }) }
        match x.port with
        | some (p, true) => .next ((s1.setLink p { s1.link p with up := true, since := s1.now }).moveTo p)
        | _ => .next s1
      else .next s0

/-- LINK_RESULT: bits, errors and the bound 3 / bits (R407); over no bits the bound has no value and is free. -/
def execLinkResult (h : Hdr) (link : Nat) (s : State) : Out :=
  request 0x00A4 h (le 1 link) (fun st =>
    if 10 ≤ link then (st, Answer.fail E.format)
    else match st.linkTest link with
      | none => (st, Answer.fail E.state)
      | some x =>
        if x.until_.isSome then (st, Answer.fail E.state)
        else if x.bits = 0 then (st.drawn, .ok (le 8 0 ++ le 8 x.errors ++ le 4 (st.freeVal 32)) false)
        else (st, .ok (le 8 x.bits ++ le 8 x.errors ++ le 4 (f32Round (mkRat 3 x.bits))) false)) s

/-- LINK_ERROR_CHECK: each second in RUNNING a link's online errors are counted, and told above 10 (R405, R406). -/
def execLinkErrorCheck (t : Tick) (link : Nat) (errors : Nat) (s : State) : Out :=
  let s0 := s.at t
  if s0.mode = .running ∧ link < 10 ∧ s0.health.linkAt.getD link 0 + secondTicks ≤ s0.now then
    let s1 := (s0.withHealth { s0.health with linkAt := s0.health.linkAt.set link s0.now }).bump (K.healthLinkErrors link) errors
    .next (if 10 < errors then s1.raise Ev.linkErrors [u link, u errors] else s1)
  else .next s0

end Sys2Proof.Machine
end

