-- ==== Sys2Proof/Machine/Seeds.lean ====
section
/-! DEFINITION. Commands of the optical section that change the module's state: seed faults and locks, and the end of discovery (R36 to R43, R54, R57). -/

namespace Sys2Proof.Machine

/-! ### Seeds -/

/-- The active seed faults: switchover where the standby is LOCKED, else the module has no light source and enters FAULT (R38, R42). -/
def State.activeFault (s : State) (d : Seed) : State :=
  let s1 := (s.setSeedStatus d 3).setSeed d { SeedSt.idle with ref := some s.now }
  if s.seedStatus (otherSeed d) = 2 then s1.planSwitch (otherSeed d) true else s1.enterFault Cause.noSeed

/-- A seed is declared faulted; every criterion acts alike (R37). The standby's fault during a switch interval leads to FAULT too (R42). -/
def State.seedFaulted (s : State) (sd : Seed) : State :=
  let st := s.seedStatus sd
  if s.mode.working = false then s
  else if st = 3 then (if (s.seed sd).trying then s.relockFailed sd else s)
  else if st ≠ 1 ∧ st ≠ 2 then s
  else if sd = s.activeSeed then s.activeFault sd
  else
    let s1 := s.standbyFault sd
    if s.opt.switch.isSome then s1.enterFault Cause.noSeed else s1.undoDone 2

/-- SEED_FAULT: a criterion of R37 has held for its persistence. -/
def execSeedFault (t : Tick) (sd : Seed) (_why : SeedCriterion) (s : State) : Out := .next ((s.at t).seedFaulted sd)

/-- The seeds whose drive channel has turned OPEN, SHORT or NEIGHBOUR since a state fault, the active one first (R37, R303). -/
def State.drivesFaulted (s : State) (before : State) : State :=
  let bad := fun (d : Seed) => s.chBad (seedIdx d) && !(before.chBad (seedIdx d))
  let one := fun (st : State) (d : Seed) => if bad d then st.seedFaulted d else st
  one (one s s.activeSeed) (otherSeed s.activeSeed)

/-- DRIVE_MEASUREMENT: a channel is measured (R299, R300); a seed channel declared OPEN, SHORT or NEIGHBOUR is a seed fault (R37, R303). -/
def execDriveMeasurement (t : Tick) (ch : Nat) (current : Nat) (pinMv : Nat) (neighbour : Option (Nat × Nat)) (s : State) : Out :=
  let s0 := s.at t
  .next ((s0.driveMeasured ch current pinMv neighbour).drivesFaulted s0)

/-- NEIGHBOUR_TEST: at the F of a commit that asks for it, in READY: the seeds go off for it and then relock under R36, unless it finds them shorted (R302, R303). -/
def execNeighbourTest (t : Tick) (shorts : List (Nat × Nat)) (s : State) : Out :=
  let s0 := s.at t
  if s0.drive.testDue ∧ s0.mode = .ready then
    let s1 : State := { s0 with drive := { s0.drive with testDue := false } }
    let s2 := s1.neighbourTest shorts
    let again := fun (st : State) (d : Seed) => if st.seedStatus d = 1 ∨ st.seedStatus d = 2 then (st.setSeedStatus d 1).setSeed d SeedSt.idle else st
    .next ((again (again s2 .s0) .s1).drivesFaulted s1)
  else .next s0

/-- SEED_LOCKED: 1 s after its lock is established a seed is LOCKED; a relocked one is restored (R36, R41). -/
def execSeedLocked (t : Tick) (sd : Seed) (s : State) : Out :=
  let s0 := s.at t
  let x := s0.seed sd
  match x.lockAt with
  | none => .next s0
  | some l =>
    if s0.mode.working = false ∨ s0.now < l + secondTicks then .next s0
    else if s0.seedStatus sd = 1 then
      let s1 := (s0.setSeedStatus sd 2).setSeed sd SeedSt.idle
      .next (if sd = s1.activeSeed then s1 else s1.undoDone 2)
    else if s0.seedStatus sd = 3 ∧ x.trying then
      .next (((s0.setSeedStatus sd 2).setSeed sd SeedSt.idle).raise Ev.seedRestored [u (seedIdx sd)])
    else .next s0

/-! ### The profile phase -/

/-- 256 frames at the period that follows from the ranging (R54): the one R58 sets once this discovery is done. -/
def State.profileTicks (s : State) (p : Port) (r : Ranging) : Nat := 256 * s.profilePeriod p (rangedTrip r)

/-- DISCOVERY_PROFILE_END: the record is published and the port enters BOUND (R57, R58). -/
def execDiscoveryProfileEnd (t : Tick) (p : Port) (profile winPeaks : List Nat) (s : State) : Out :=
  let s0 := s.at t
  match (s0.portSt p).found with
  | none => .next s0
  | some r => if s0.phaseOver p .profile (s0.profileTicks p r) then .next (s0.discoveryDone p profile winPeaks) else .next s0

end Sys2Proof.Machine
end

