-- ==== Sys2Proof/Machine/StateCmds.lean ====
section
/-! DEFINITION. RESET and the state commands (R335, R372, R375, R380, R382, R389). -/

namespace Sys2Proof.Machine

/-- A request arrives, is new, well formed and served, so that it is executed. -/
def State.executes (s : State) (code : Nat) (h : Hdr) (body : List Byte) : Bool :=
  (s.serveNcp code h body (fun st => (st.drawn, Answer.done))).fresh != s.fresh

/-- RESET: the answer goes out, then the module passes through BOOT (R335, R372). -/
def execReset (h : Hdr) (s : State) : Out :=
  let body := le 1 0 ++ le 3 h.pad
  let s1 := s.serveNcp 0x0070 h body (fun st => (st, Answer.done))
  .next (if s.executes 0x0070 h body then s1.enterBoot Cause.reset false else s1)

/-! ### STATE_GET -/

/-- The body of STATE_GET (R389); 0xFF where no port is kept. -/
def State.stateBody (s : State) : List Byte :=
  le 1 s.mode.code ++ le 1 (s.roGet K.powerLevel) ++ le 1 (s.roGet K.powerBedrockCauses) ++ le 1 ((s.opt.kept.map Port.idx).getD 255) ++ le 1 s.presentFaults ++
  le 1 (s.roGet K.powerShedSteps) ++ le 2 0 ++ le 4 (f32Round ((s.usable : Rat) / 10)) ++ le 4 (f32Round (s.demandMw / 1000)) ++
  le 4 (f32Round ((s.caseCenti : Rat) / 100)) ++ tsBytes s.modeSince

/-- STATE_GET. -/
def execStateGet (h : Hdr) (s : State) : Out := request 0x0080 h [] (fun st => (st, .ok st.stateBody false)) s

/-! ### RUN and STOP -/

/-- RUN: a run is requested; the conditions of R375 decide when it begins. Refused while a self-test runs (R404). -/
def State.runCmd (s : State) : State × Answer :=
  if s.mode.working ∧ s.health.selftest.running = false then (s.withPower { s.power with runAsked := true }, Answer.done) else (s, Answer.fail E.state)

/-- RUN. -/
def execRun (h : Hdr) (s : State) : Out := request 0x0081 h [] State.runCmd s

/-- Measurement stops and READY follows; from BEDROCK the front end and the standby seed run again and the links return to 10GBASE-T. -/
def State.toReady (s : State) : State :=
  let s1 := (s.setMode .ready Cause.stop).stopMeasuring
  let s2 : State := if s.mode = .bedrock then (((s1.seedOn s1.standby).relinkStart).streamsRestart).feStart else s1
  s2.evalLevel

/-- STOP: the run request is withdrawn; RUNNING and BEDROCK go to READY (R369, R375). -/
def State.stopCmd (s : State) : State × Answer :=
  if s.mode.working then
    let s1 := s.withPower { s.power with runAsked := false }
    (if s.mode.measuring then s1.toReady else s1, Answer.done)
  else (s, Answer.fail E.state)

/-- STOP. -/
def execStop (h : Hdr) (s : State) : Out := request 0x0082 h [] State.stopCmd s

/-! ### GEODE -/

/-- What GEODE_ENTER answers: E_STATE outside READY, RUNNING and BEDROCK and while a self-test runs (R404), E_FORMAT for a mask of 0 or a TIMER that lies not in the future. -/
def State.geodeAnswer (s : State) (deep mask : Nat) (wake : TS96) : Answer :=
  let w := TS96bits wake
  if s.mode.working = false ∨ s.health.selftest.running then Answer.fail E.state
  else if 1 < deep ∨ mask % 32 = 0 ∨ tsOk w = false then Answer.fail E.format
  else if bitOf mask 3 ∧ stampOfBits w ≤ s.stamp then Answer.fail E.format
  else Answer.done

/-- The body of GEODE_ENTER. -/
def geodeBody (deep mask : Nat) (wake : TS96) (pad : Nat) : List Byte := le 1 deep ++ le 1 mask ++ le 2 pad ++ ts96Bytes wake

/-- GEODE_ENTER: the answer goes out, then GEODE is entered (R380). -/
def execGeodeEnter (h : Hdr) (deep mask : Nat) (wake : TS96) (s : State) : Out :=
  let body := geodeBody deep mask wake h.pad
  let s1 := s.serveNcp 0x0083 h body (fun st => (st, st.geodeAnswer deep mask wake))
  let taken : Bool := s.executes 0x0083 h body && decide ((s.at h.at_).geodeAnswer deep mask wake = Answer.done)
  .next (if taken then s1.enterGeode (deep == 1) mask (stampOfBits (TS96bits wake)) false Cause.geodeEnter else s1)

/-- WAKE on a served module: no effect. -/
def execWake (h : Hdr) (s : State) : Out := request 0x0084 h [] (fun st => (st, Answer.done)) s

/-! ### BEDROCK_FORCE -/

/-- BEDROCK is forced: entered from RUNNING; in BEDROCK the cause joins the others (R376). -/
def State.bedrockForceCmd (s : State) : State × Answer :=
  let s1 := s.withPower { s.power with forced := true }
  match s.mode with
  | .running => (s1.enterBedrock s1.causesNow, Answer.done)
  | .bedrock => (s1.evalLevel, Answer.done)
  | _ => (s, Answer.fail E.state)

/-- BEDROCK_FORCE with 1. -/
def execBedrockForce (h : Hdr) (s : State) : Out := request 0x0085 h (le 1 1 ++ le 3 h.pad) State.bedrockForceCmd s

/-- The force is released: its cause clears. -/
def State.bedrockReleaseCmd (s : State) : State × Answer :=
  let s1 := s.withPower { s.power with forced := false }
  match s.mode with
  | .running => (s1, Answer.done)
  | .bedrock => (s1.evalLevel, Answer.done)
  | _ => (s, Answer.fail E.state)

/-- BEDROCK_FORCE with 0. -/
def execBedrockRelease (h : Hdr) (s : State) : Out := request 0x0085 h (le 1 0 ++ le 3 h.pad) State.bedrockReleaseCmd s

end Sys2Proof.Machine
end

