-- ==== Sys2Proof/Machine/Strobe.lean ====
section
/-! DEFINITION. FRAME_STROBE: what happens in the tick of a frame start (R81). -/

namespace Sys2Proof.Machine

/-- What the frame that ends brings: gain windows, frame counts, Raman accumulators, and the launch monitor's readings (R47, R98, R147, R405). Nothing ends at the first start. -/
def State.frameEnd (s : State) (p : Port) (obs : FrameObs) : State :=
  if (s.frame p).groupNext = 0 || (s.frame p).gap then s
  else
    let f := s.frame p
    let s1 := s.dtsFold p obs (s.thinned p || !obs.ramanLinkOk)
    let c := s1.coh p
    let seen := (List.range 64).map (windowSeen c.adc f.last (s.roGet (K.portFramePeriodLive p)))
    let s2 := s1.setCoh p { c with gains := gainFrame c.gains (seen.map (·.1)) (seen.map (·.2)), frames := c.frames + 1, combineFrames := c.combineFrames + 1,
                                   iqFrames := c.iqFrames + 1 }
    let s3 : State := (List.range 8).foldl (fun (st : State) (n : Nat) => st.roSetInt (K.portLaunchSlotPeak p n) (obs.peaks.getD n 0)) s2
    s3.roSet (K.portLaunchAverage p) obs.average

/-- Receiver terms, skews and stage-7 weights of a finished run apply from this strobe (R97, R108). -/
def State.iqStrobe (s : State) (p : Port) : State :=
  let s1 := match (s.coh p).iqPending with
    | some (x, y, sk) =>
      (List.range 4).foldl (fun (st : State) (n : Nat) => st.roSetInt (K.portIqSkew p n) (sk.getD n 0)) (s.setCoh p { s.coh p with iqX := x, iqY := y, iqPending := none })
    | none => s
  match (s1.coh p).weightsNext with
  | some ws => s1.applyWeights p ws
  | none => s1

/-- The Raman channels at a frame start: integration boundary or one more frame; a turn whose port stopped taking part passes; the undo of step 1 completes with a dark
frame (R84, R147, R150, R151, R368). -/
def State.ramanStrobe (s : State) (p : Port) : State :=
  let s1 := (s.dtsStrobe p (decide ((s.frame p).groupNext = 0)) (s.period p)).dtsCheck
  let darkNow : Bool := match (s1.dts p).cur with
    | some x => x.dark && decide (x.frames = 1)
    | none => false
  if darkNow then s1.undoDone 1 else s1

/-- The actions of the strobe tick, in the order of R81, once the frame that ended is accounted for: a switch interval that ends here, the swap pulse where it is F, APR entry, the
latches (in APR the boosters take ALT, the least the probe needs, whatever the clamp did before: R63, R295), then the new frame with group 0 and the DTS pulse. A swap that moves the frame grid leaves the start to a later strobe (R72). -/
def State.strobe (s : State) (p : Port) : State :=
  let s1 := ((s.switchIfDue).iqStrobe p).commitAtStrobe p
  if s1.hasFrames p = false then s1
  else
    let s2 := match (s1.portSt p).declared with
      | some cause => s1.enterApr p cause
      | none => s1
    let inApr : Bool := s2.pState p == 4
    let s2 := if inApr then s2.setClamp p false else s2
    let own := (strobeChannels p (s2.hasFrames .a) p).filter (fun c => decide (2 ≤ c) && decide (c ≤ 7))
    let s3 := (s2.latchAll (strobeChannels p (s2.hasFrames .a) s2.opt.dts.turn) own inApr (!inApr)).gainStrobe p
    match (s3.frame p).next with
    | some n =>
      if n ≤ s3.now then
        let s4 := if p = s3.shedPort then s3.undoDone 4 else s3
        ((s4.ramanStrobe p).frameBegin p n).noteGains p n (s4.period p)
      else s3
    | none => s3

/-- FRAME_STROBE: one tick wide, at each frame start of a port (R81). It stands for the frame start `next`; before that tick it is none. -/
def execFrameStrobe (t : Tick) (p : Port) (obs : FrameObs) (s : State) : Out :=
  let s0 := s.at t
  match (s0.frame p).next with
  | some n => .next (if s0.hasFrames p = true ∧ n ≤ s0.now then (State.frameEnd (s0.takeAdc p obs.samples) p obs).strobe p else s0)
  | none => .next s0

end Sys2Proof.Machine
end

