-- ==== Sys2Proof/Machine/Trace.lean ====
section
/-! DEFINITION. Traces as they are written: field words, strain words, decimation tiles; alarm sums; the links' budget (chapters 04, 05; R61, R139, R221, R261, R378). -/

namespace Sys2Proof.Machine

/-! ### Field words (R95 to R112, R117) -/

/-- The set of an epoch on a port (R33). -/
def State.traceSet (s : State) (p : Port) (epoch : Nat) : PSet := ((s.histBank p epoch).map (·.set)).getD (s.cfg.act p).set

/-- The geometry of a launch's trace. -/
def State.traceGeo (s : State) (p : Port) (l : Launch) : Geo :=
  let set := l.set
  { first := l.first, count := l.count, pitch := set.get (K.portPointsPitch p), gauge := set.get (K.portGauge p), length := s.roGet (K.portFibreLength p),
    depth := set.get (K.portQualityFadeDepth p) }

/-- L_field in ticks under a set (R96). -/
def fieldDelay (set : PSet) (p : Port) : Nat := set.get (K.portChirpDuration p) + 2600

/-- When the start of the return from a trace's last point arrives, in ticks from the launch: 2.1 µs of internal round trip, then i × k fibre samples of 1/12 tick (R35, R96, R103). -/
def lastArrival (first count pitch : Nat) : Nat := 420 + ceilDiv ((first + count - 1) * pitch) 12

/-- L_strain in ticks under a set (R96). -/
def strainDelay (set : PSet) (p : Port) : Nat := fieldDelay set p + 200 + ceilDiv (ceilDiv (set.get (K.portGauge p)) 2 * set.get (K.portPointsPitch p)) 12

/-- Strata takes the traces of this moment (R19, R221). -/
def State.strataOn (s : State) : Bool := s.mode == .running && s.pG K.strataSizeGib != 0

/-- A trace dropped at a full FIFO: counted, and told with its launch time (R261). -/
def State.traceDropped (s : State) (k : Key) (p : Port) (launch : Stamp) (epoch : Nat) : State :=
  (s.bump k 1).raiseFull Ev.memOverflow 3 s.stamp [u p.idx, tsVal launch] epoch

/-- A commit due at the strobe that ends a launch's frame changes a window by FIXED gain (R98, R117). -/
def State.gainComing (s : State) (p : Port) : Bool :=
  s.cfg.commits.any (fun c => !(c.passed p) && decide (s.now < c.f p) && decide (some (c.f p) = (s.frame p).next) && c.set.get (K.portRxGainMode p) == 1 &&
    (List.range 64).any (fun w => decide (s.roGet (K.portRxGain p w) ≠ c.set.get (K.portRxGainFixed p))))

/-- The oldest launch's trace is formed: stages 1 to 5 over what the converters delivered, header, field words to Strata, strain words for the corner turn, windows judged. -/
def State.fieldTrace (s0 : State) (p : Port) (l : Launch) (rest : List Launch) (obs : TraceObs) : State :=
  let s := s0.measureNoise p l
  let geo := s.traceGeo p l
  let c := (s.coh p).beginSecond l
  let gainNow : Bool := (c.gainPending != [] || s.gainComing p) && decide (l.frame = s.roGet (K.portFrameCount p))
  let r := formTrace c geo p l (if l.dark then [] else s.stageFive p l) obs.monitorOk (l.set.get (K.portCombineMode p) == 1) gainNow
  let off := l.set.get (K.portFrameOffset p)
  let tr : StrainTrace := { header := r.header, index := gridIndex l.stamp l.delta off, delta := l.delta, offset := off, words := r.strain }
  let s1 := (s.setFrame p { s.frame p with inflight := rest }).setCoh p { r.coh.markSecond r.header with strain := r.coh.strain ++ [tr] }
  let s2 := (s1.bump (K.portTraceCount p) 1).bump (K.portRxClipCount p) (b2n r.header.saturated)
  let drop : Bool := obs.fifoFull && s2.strataOn
  let s3 := if drop then s2.traceDropped K.memP0DroppedTraces p l.stamp l.epoch else s2
  let s4 := s3.strataTrace p r.header r.fields drop
  if l.dark then s4 else s4.judgeWindows p geo l.slots r.power obs.newLast obs.newLoss l.epoch

/-- Continuity is lost in a discovery: nothing scatters from 50 m on (R53, R54). -/
def continuityLost (x : Option Nat) : Bool :=
  match x with
  | some v => decide (v < 5000)
  | none => false

/-- TRACE_FIELD_WORDS: the trace of the oldest launch is complete, L_field after its return. A discovery's own traces serve discovery alone: in ramp and ranging they
check continuity. -/
def execTraceFieldWords (t : Tick) (p : Port) (obs : TraceObs) (s : State) : Out :=
  let s0 := s.at t
  match (s0.portSt p).phase with
  | some (ph, _) => .next (if s0.pState p = 1 ∧ (ph = .ramp ∨ ph = .ranging) ∧ continuityLost obs.newLast then s0.enterApr p 3 else s0)
  | none =>
    match (s0.frame p).inflight with
    | [] => .next s0
    | l :: rest =>
      if s0.power.clocks.dsp = false ∨ l.tick ≠ obs.launch ∨ s0.now < l.tick + lastArrival l.first l.count (l.set.get (K.portPointsPitch p)) + fieldDelay l.set p then .next s0
      else .next (((s0.takeAdc p obs.samples).takeMonitor obs.monitor).fieldTrace p l rest obs)

/-! ### Strain words (R113 to R116, R129, R378) -/

/-- T_dec of a trace. -/
def State.tileOf (s : State) (p : Port) (tr : StrainTrace) : Nat := 256 * 2 ^ (s.traceSet p tr.header.epoch).get (K.portDecTile p)

/-- A trace belongs to a tile that is not ready: of its number, on its grid. -/
def CornerTile.takes (y : CornerTile) (tdec : Nat) (tr : StrainTrace) : Bool :=
  !y.ready && y.tdec == tdec && y.k == tr.index / tdec && y.delta == tr.delta && y.offset == tr.offset

/-- A trace goes on in the newest tile of the buffer. -/
def State.cornerJoins (s : State) (p : Port) (tr : StrainTrace) : Bool := ((s.coh p).corner.getLast?.map (·.takes (s.tileOf p tr) tr)).getD false

/-- The buffer holds two tiles: a trace that begins one waits until the oldest is processed (R129). In BEDROCK nothing is, and the oldest makes room. -/
def State.cornerRoom (s : State) (p : Port) (tr : StrainTrace) : Bool := s.cornerJoins p tr || decide ((s.coh p).corner.length < 2) || s.mode == .bedrock

/-- The newest tile of a port is ready: for the chain and for Basalt (R129). -/
def State.tileReady (s : State) (p : Port) : State :=
  let c := s.coh p
  match c.corner.getLast? with
  | none => s
  | some y =>
    if y.ready then s
    else
      let s1 := s.setCoh p { c with corner := c.corner.dropLast ++ [{ y with ready := true }] }
      { s1 with basalt := { s1.basalt with ready := s1.basalt.ready.set p (some ⟨y.k, y.tdec, s1.now, y.traces⟩) } }

/-- A trace enters the newest tile, or begins one. -/
def State.cornerPut (s : State) (p : Port) (tr : StrainTrace) : State :=
  let c := s.coh p
  let tdec := s.tileOf p tr
  let tiles := match c.corner.getLast? with
    | some y => if y.takes tdec tr then c.corner.dropLast ++ [{ y with traces := y.traces ++ [tr] }] else c.corner ++ [⟨tr.index / tdec, tdec, tr.delta, tr.offset, false, [tr]⟩]
    | none => [⟨tr.index / tdec, tdec, tr.delta, tr.offset, false, [tr]⟩]
  s.setCoh p { c with corner := if s.mode = .bedrock then tiles.drop (tiles.length - 2) else tiles, trail := ((tr.index, tr.delta, tr.header.launch) :: c.trail).take 160000 }

/-- A trace enters the corner-turn buffer. The last trace of a tile makes it ready, and so does a trace of another tile after it; in BEDROCK nothing is made ready (R377). -/
def State.cornerTake (s : State) (p : Port) (tr : StrainTrace) : State :=
  if s.mode = .bedrock then s.cornerPut p tr
  else
    let s1 := (if s.cornerJoins p tr then s else s.tileReady p).cornerPut p tr
    if (tr.index + 1) % s.tileOf p tr = 0 then s1.tileReady p else s1

/-- TRACE_STRAIN_WORDS: a trace's strain words reach the corner-turn buffer, L_strain after its return, in launch order, BEDROCK included (R19); a trace P1 has no room for is missing (R261). -/
def execTraceStrainWords (t : Tick) (p : Port) (fifoFull : Bool) (s : State) : Out :=
  let s0 := s.at t
  let c := s0.coh p
  match c.strain with
  | [] => .next s0
  | tr :: rest =>
    if s0.power.clocks.dsp = false ∨ s0.now < tr.header.launchTick + lastArrival tr.header.first tr.header.count tr.header.pitch + strainDelay (s0.traceSet p tr.header.epoch) p then .next s0
    else
      let s1 := s0.setCoh p { c with strain := rest }
      if fifoFull then .next (s1.traceDropped K.memP1DroppedTraces p tr.header.launch tr.header.epoch)
      else .next (if s0.cornerRoom p tr then (s1.alarmTake p tr).cornerTake p tr else s0)

/-! ### The links' budget (R139) -/

/-- A stream's demand in bytes per second for one copy, with the values it works under. -/
def State.demandOf (s : State) (n : Nat) : Rat := s.streamRate (s.figures (s.stream n).bank.set) n

/-- Copies of a stream that go out on a link. -/
def State.copiesOn (s : State) (n : Nat) (l : Port) : Nat :=
  let x := s.stream n
  ((x.activeSubs n).filter (fun m => (x.linksOf n m).contains l)).length

/-- Streams in service. -/
def State.inService (s : State) : List Nat := (List.range 16).filter (fun n => (s.stream n).par (K.streamEnable n) == 1)

/-- The streams whose blocks leave in the present state: in READY the kinds that it serves, REF and CAPTURE. -/
def State.demanding (s : State) : List Nat :=
  s.inService.filter (fun n => s.mode == .running || (s.stream n).par (K.streamKind n) == 4 || (s.stream n).par (K.streamKind n) == 5)

/-- The demand of the streams that are not suspended on a link. -/
def State.linkDemand (s : State) (l : Port) : Rat :=
  sumQ ((s.demanding.filter (fun n => (s.stream n).suspendedAt.isNone)).map (fun n => s.demandOf n * (s.copiesOn n l : Nat)))

/-- 90 % of a link's negotiated rate in bytes per second. -/
def State.linkRoom (s : State) (l : Port) : Rat := (90 * (s.link l).rate10ms : Nat)

/-- Order of suspension: the lowest priority first, among equals the highest number; ALARM streams never. -/
def State.suspendNext (s : State) (l : Port) : Option Nat :=
  (s.demanding.filter (fun n => (s.stream n).suspendedAt.isNone && (s.stream n).par (K.streamKind n) != 6 && s.copiesOn n l != 0)).foldl (fun best n =>
    match best with
    | none => some n
    | some b => if (s.stream n).par (K.streamPriority n) ≤ (s.stream b).par (K.streamPriority b) then some n else best) none

/-- Suspend streams until the demand of a link fits: tiles not yet sent are sent no more. -/
def State.suspendMore (l : Port) : Nat → State → State
  | 0, s => s
  | f + 1, s =>
    if s.linkDemand l ≤ s.linkRoom l then s
    else match s.suspendNext l with
      | none => s
      | some n =>
        let s1 := s.setStream n { s.stream n with suspendedAt := some s.now, suspendedSent := s.now, queue := [] }
        suspendMore l f ((s1.streamPublish n).raise Ev.streamSuspended [u n])

/-- The stream that resumes next: highest priority first, among equals the lowest number. -/
def State.resumeNext (s : State) : Option Nat :=
  (s.demanding.filter (fun n => (s.stream n).suspendedAt.isSome)).foldl (fun best n =>
    match best with
    | none => some n
    | some b => if (s.stream b).par (K.streamPriority b) < (s.stream n).par (K.streamPriority n) then some n else best) none

/-- A suspended stream's demand fits beside that of the running ones on every link that is up. -/
def State.wouldFit (s : State) (n : Nat) : Bool :=
  ports.all (fun l => !(s.link l).up || decide (s.linkDemand l + s.demandOf n * (s.copiesOn n l : Nat) ≤ s.linkRoom l))

/-- Note since when the next stream to resume fits. -/
def State.watchFits (s : State) : State :=
  let fits : Bool := match s.resumeNext with
    | some n => s.wouldFit n
    | none => false
  { s with sig := { s.sig with fitsSince := if fits then (match s.sig.fitsSince with
    | some t => some t
    | none => some s.now) else none } }

/-- At a block boundary in READY and RUNNING: streams are suspended where a link is overfull, A judged before B (log entry 66), or one resumes after 10 s in which it fitted; its first tile carries gap. -/
def State.linkBudget (s : State) : State :=
  if s.mode ≠ .running ∧ s.mode ≠ .ready then s
  else
    let s1 := ports.foldl (fun st l => if (st.link l).up then State.suspendMore l 16 st else st) s
    let s2 := s1.watchFits
    match s2.resumeNext, s2.sig.fitsSince with
    | some n, some f =>
      if f + 10 * secondTicks ≤ s2.now then
        let s3 := (s2.setStream n { s2.stream n with suspendedAt := none, gap := true }).streamPublish n
        let s4 := s3.raise Ev.streamResumed [u n]
        ({ s4 with sig := { s4.sig with fitsSince := none } } : State).watchFits
      else s2
    | _, _ => s2

/-- NSP_TILE_SEND: the oldest tile of the stream whose turn it is leaves. The first tile of a block stands at a block boundary: links are judged there, and AUTO
subscribers return to their preferred link. FAULT sends control datagrams only (R371). -/
def execNspTileSend (t : Tick) (stream : Nat) (s : State) : Out :=
  let s0 := s.at t
  if s0.tileTurn stream && s0.mode != .fault && (s0.stream stream).suspended == false then
    let first : Bool := ((s0.stream stream).queue.head?.map (fun x => x.index == 0)).getD false
    let s1 := if first then (s0.autoReturn stream).linkBudget else s0
    .next (if (s1.stream stream).suspended = false then s1.sendTile stream else s1)
  else .next s0

/-- The samples the last decimation tile formed make room for those of the next. -/
def State.dropEvals (s : State) (p : Port) : State :=
  (List.range 16).foldl (fun st n => if (st.stream n).par (K.streamPort n) = p.idx then st.setStream n { st.stream n with evals := [] } else st) s

/-- DECIMATION_TILE_PROCESSED: the oldest ready tile of a port passes every chain of the port; blocks that close are a boundary (R129, R139). -/
def execDecimationTileProcessed (t : Tick) (p : Port) (s : State) : Out :=
  let s0 := s.at t
  let c := s0.coh p
  match c.corner with
  | [] => .next s0
  | y :: rest =>
    if y.ready = false ∨ s0.power.clocks.fabric = false then .next s0
    else
      let r := ((s0.setCoh p { c with corner := rest }).dropEvals p).streamTraces p y.traces
      .next (if r.2 then r.1.linkBudget else r.1)

end Sys2Proof.Machine
end

