-- ==== Sys2Proof/Machine/Dispatch.lean ====
section
/-! DEFINITION. One arm per command: the call of its meaning. -/

namespace Sys2Proof.Machine

def exec (i : Instr) (s : State) : Host.Outcome State Fault Refusal :=
  match i with
  | .cfgCommit h rev mode named => Sys2Proof.Machine.execCfgCommit h rev mode named s
  | .commitFTick t port => Sys2Proof.Machine.execCommitFTick t port s
  | .hello h protocol => Sys2Proof.Machine.execHello h protocol s
  | .ping h => Sys2Proof.Machine.execPing h s
  | .cfgGet h cursor paths => Sys2Proof.Machine.execCfgGet h cursor paths s
  | .cfgSet h entries => Sys2Proof.Machine.execCfgSet h entries s
  | .cfgDiscard h => Sys2Proof.Machine.execCfgDiscard h s
  | .cfgDiff h cursor => Sys2Proof.Machine.execCfgDiff h cursor s
  | .cfgList h cursor stem => Sys2Proof.Machine.execCfgList h cursor stem s
  | .cfgSave h => Sys2Proof.Machine.execCfgSave h s
  | .cfgErase h => Sys2Proof.Machine.execCfgErase h s
  | .timeSet h seconds utc => Sys2Proof.Machine.execTimeSet h seconds utc s
  | .tdcRead h input start limit => Sys2Proof.Machine.execTdcRead h input start limit s
  | .kernelLoad h slot flags offset imageBytes data => Sys2Proof.Machine.execKernelLoad h slot flags offset imageBytes data s
  | .kernelUnload h slot => Sys2Proof.Machine.execKernelUnload h slot s
  | .kernelSnapshot h core offset length => Sys2Proof.Machine.execKernelSnapshot h core offset length s
  | .captureAt h trigger profile => Sys2Proof.Machine.execCaptureAt h trigger profile s
  | .captureSend h capture stream => Sys2Proof.Machine.execCaptureSend h capture stream s
  | .captureDerive h req => Sys2Proof.Machine.execCaptureDerive h req s
  | .captureRelease h capture => Sys2Proof.Machine.execCaptureRelease h capture s
  | .captureList h cursor => Sys2Proof.Machine.execCaptureList h cursor s
  | .eventSubscribe h mask => Sys2Proof.Machine.execEventSubscribe h mask s
  | .eventRead h start limit => Sys2Proof.Machine.execEventRead h start limit s
  | .fwBegin h imageBytes => Sys2Proof.Machine.execFwBegin h imageBytes s
  | .fwWrite h offset data => Sys2Proof.Machine.execFwWrite h offset data s
  | .fwFinish h => Sys2Proof.Machine.execFwFinish h s
  | .fwActivate h image => Sys2Proof.Machine.execFwActivate h image s
  | .fwConfirm h => Sys2Proof.Machine.execFwConfirm h s
  | .reset h => Sys2Proof.Machine.execReset h s
  | .stateGet h => Sys2Proof.Machine.execStateGet h s
  | .run h => Sys2Proof.Machine.execRun h s
  | .stop h => Sys2Proof.Machine.execStop h s
  | .geodeEnter h deep mask wake => Sys2Proof.Machine.execGeodeEnter h deep mask wake s
  | .wake h => Sys2Proof.Machine.execWake h s
  | .bedrockForce h => Sys2Proof.Machine.execBedrockForce h s
  | .bedrockRelease h => Sys2Proof.Machine.execBedrockRelease h s
  | .ensStatus h => Sys2Proof.Machine.execEnsStatus h s
  | .ensMembers h cursor => Sys2Proof.Machine.execEnsMembers h cursor s
  | .ensCommit h named policy members => Sys2Proof.Machine.execEnsCommit h named policy members s
  | .ensCaptureAt h trigger profile members => Sys2Proof.Machine.execEnsCaptureAt h trigger profile members s
  | .ensForget h member => Sys2Proof.Machine.execEnsForget h member s
  | .logRead h start limit => Sys2Proof.Machine.execLogRead h start limit s
  | .selftest h mask => Sys2Proof.Machine.execSelftest h mask s
  | .selftestResult h => Sys2Proof.Machine.execSelftestResult h s
  | .linkTest h link pattern seconds peer => Sys2Proof.Machine.execLinkTest h link pattern seconds peer s
  | .linkResult h link => Sys2Proof.Machine.execLinkResult h link s
  | .telemetryRead h start limit => Sys2Proof.Machine.execTelemetryRead h start limit s
  | .lifeRead h => Sys2Proof.Machine.execLifeRead h s
  | .unknownCommand h code body => Sys2Proof.Machine.execUnknownCommand h code body s
  | .backgroundCommandComplete t flashOk => Sys2Proof.Machine.execBackgroundCommandComplete t flashOk s
  | .portRediscover t p => Sys2Proof.Machine.execPortRediscover t p s
  | .seedSelect t => Sys2Proof.Machine.execSeedSelect t s
  | .schedLockRealign t p => Sys2Proof.Machine.execSchedLockRealign t p s
  | .timebaseStep t => Sys2Proof.Machine.execTimebaseStep t s
  | .neighbourTest t shorts => Sys2Proof.Machine.execNeighbourTest t shorts s
  | .tcpConnect t link => Sys2Proof.Machine.execTcpConnect t link s
  | .tcpClose t pair => Sys2Proof.Machine.execTcpClose t pair s
  | .sessionIdleTimeout t pair => Sys2Proof.Machine.execSessionIdleTimeout t pair s
  | .ncpFramingLoss t pair magic bodyLen => Sys2Proof.Machine.execNcpFramingLoss t pair magic bodyLen s
  | .spiStatus t => Sys2Proof.Machine.execSpiStatus t s
  | .spiWrite t msg => Sys2Proof.Machine.execSpiWrite t msg s
  | .spiRead t length => Sys2Proof.Machine.execSpiRead t length s
  | .i2cPointerWrite t data => Sys2Proof.Machine.execI2cPointerWrite t data s
  | .i2cRead t length => Sys2Proof.Machine.execI2cRead t length s
  | .frameStrobe t p obs => Sys2Proof.Machine.execFrameStrobe t p obs s
  | .groupLaunch t p g => Sys2Proof.Machine.execGroupLaunch t p g s
  | .thinnedLaunch t p => Sys2Proof.Machine.execThinnedLaunch t p s
  | .internalStrobe t => Sys2Proof.Machine.execInternalStrobe t s
  | .proofWindow t p opens shorts => Sys2Proof.Machine.execProofWindow t p opens shorts s
  | .dtsSwitchSettled t => Sys2Proof.Machine.execDtsSwitchSettled t s
  | .patternStep t src step => Sys2Proof.Machine.execPatternStep t src step s
  | .syncWordReceive t word => Sys2Proof.Machine.execSyncWordReceive t word s
  | .lockWordMissing t => Sys2Proof.Machine.execLockWordMissing t s
  | .lockAcquireTimeout t p => Sys2Proof.Machine.execLockAcquireTimeout t p s
  | .syncCollision t => Sys2Proof.Machine.execSyncCollision t s
  | .seedFault t sd why => Sys2Proof.Machine.execSeedFault t sd why s
  | .seedSwitchover t => Sys2Proof.Machine.execSeedSwitchover t s
  | .seedLockAcquired t sd => Sys2Proof.Machine.execSeedLockAcquired t sd s
  | .seedLocked t sd => Sys2Proof.Machine.execSeedLocked t sd s
  | .seedRelockAttempt t sd ok => Sys2Proof.Machine.execSeedRelockAttempt t sd ok s
  | .launchClamp t p => Sys2Proof.Machine.execLaunchClamp t p s
  | .noFibreProbe t p found => Sys2Proof.Machine.execNoFibreProbe t p found s
  | .discoveryContinuityEnd t p found => Sys2Proof.Machine.execDiscoveryContinuityEnd t p found s
  | .discoveryRampEnd t p => Sys2Proof.Machine.execDiscoveryRampEnd t p s
  | .discoveryRangingEnd t p r => Sys2Proof.Machine.execDiscoveryRangingEnd t p r s
  | .discoveryProfileEnd t p profile winPeaks => Sys2Proof.Machine.execDiscoveryProfileEnd t p profile winPeaks s
  | .aprHoldExpiry t p found => Sys2Proof.Machine.execAprHoldExpiry t p found s
  | .traceFieldWords t p obs => Sys2Proof.Machine.execTraceFieldWords t p obs s
  | .traceStrainWords t p fifoFull => Sys2Proof.Machine.execTraceStrainWords t p fifoFull s
  | .gainRunEvaluation t p => Sys2Proof.Machine.execGainRunEvaluation t p s
  | .iqTermUpdate t p x y => Sys2Proof.Machine.execIqTermUpdate t p x y s
  | .combineWeightRecompute t p noiseless => Sys2Proof.Machine.execCombineWeightRecompute t p noiseless s
  | .qualitySummary t p => Sys2Proof.Machine.execQualitySummary t p s
  | .decimationTileProcessed t p => Sys2Proof.Machine.execDecimationTileProcessed t p s
  | .nspTileSend t stream => Sys2Proof.Machine.execNspTileSend t stream s
  | .retxTileRelease t stream => Sys2Proof.Machine.execRetxTileRelease t stream s
  | .nack t stream n => Sys2Proof.Machine.execNack t stream n s
  | .retransmissionSend t link => Sys2Proof.Machine.execRetransmissionSend t link s
  | .idle t stream sub => Sys2Proof.Machine.execIdle t stream sub s
  | .suspended t stream => Sys2Proof.Machine.execSuspended t stream s
  | .networkLinkLoss t link => Sys2Proof.Machine.execNetworkLinkLoss t link s
  | .networkLinkUp t link gigabit => Sys2Proof.Machine.execNetworkLinkUp t link gigabit s
  | .darkFrameSecondHalf t p offset16 meanCode16 => Sys2Proof.Machine.execDarkFrameSecondHalf t p offset16 meanCode16 s
  | .dtsResultPublish t p number => Sys2Proof.Machine.execDtsResultPublish t p number s
  | .dtsFeedbackCheck t p => Sys2Proof.Machine.execDtsFeedbackCheck t p s
  | .feScanStart t => Sys2Proof.Machine.execFeScanStart t s
  | .feSlotStart t ch => Sys2Proof.Machine.execFeSlotStart t ch s
  | .feWindowEnd t ch obs => Sys2Proof.Machine.execFeWindowEnd t ch obs s
  | .feResultPublish t ch broken => Sys2Proof.Machine.execFeResultPublish t ch broken s
  | .feComplianceTrip t ch trip => Sys2Proof.Machine.execFeComplianceTrip t ch trip s
  | .hkBurst t readings => Sys2Proof.Machine.execHkBurst t readings s
  | .basaltTileEntry t inst => Sys2Proof.Machine.execBasaltTileEntry t inst s
  | .interruptEntry core => Sys2Proof.Machine.execInterruptEntry core s
  | .keTimerExpiry core => Sys2Proof.Machine.execKeTimerExpiry core s
  | .deadlineWarn core => Sys2Proof.Machine.execDeadlineWarn core s
  | .dmaComplete core ch => Sys2Proof.Machine.execDmaComplete core ch s
  | .kernelDeadline t core => Sys2Proof.Machine.execKernelDeadline t core s
  | .coreHardwareFault t core cause => Sys2Proof.Machine.execCoreHardwareFault t core cause s
  | .spareCoreLoaded t core => Sys2Proof.Machine.execSpareCoreLoaded t core s
  | .nop core close => Sys2Proof.Machine.execNop core close s
  | .rotDecrement core => Sys2Proof.Machine.execRotDecrement core s
  | .vld o => Sys2Proof.Machine.execVld o s
  | .vldb o => Sys2Proof.Machine.execVldb o s
  | .vld2 o => Sys2Proof.Machine.execVld2 o s
  | .vldst o => Sys2Proof.Machine.execVldst o s
  | .vst o => Sys2Proof.Machine.execVst o s
  | .vstm o => Sys2Proof.Machine.execVstm o s
  | .sld o => Sys2Proof.Machine.execSld o s
  | .sst o => Sys2Proof.Machine.execSst o s
  | .aaddi o => Sys2Proof.Machine.execAaddi o s
  | .amov o an => Sys2Proof.Machine.execAmov o an s
  | .aget o an => Sys2Proof.Machine.execAget o an s
  | .sadd o => Sys2Proof.Machine.execSadd o s
  | .ssub o => Sys2Proof.Machine.execSsub o s
  | .saddi o => Sys2Proof.Machine.execSaddi o s
  | .sand o => Sys2Proof.Machine.execSand o s
  | .sor o => Sys2Proof.Machine.execSor o s
  | .sxor o => Sys2Proof.Machine.execSxor o s
  | .sshl o => Sys2Proof.Machine.execSshl o s
  | .sshr o => Sys2Proof.Machine.execSshr o s
  | .sshra o => Sys2Proof.Machine.execSshra o s
  | .smovi o => Sys2Proof.Machine.execSmovi o s
  | .smovih o => Sys2Proof.Machine.execSmovih o s
  | .smul o => Sys2Proof.Machine.execSmul o s
  | .brickIn o => Sys2Proof.Machine.execBrickIn o s
  | .scratchIn o => Sys2Proof.Machine.execScratchIn o s
  | .scratchOut o => Sys2Proof.Machine.execScratchOut o s
  | .output o => Sys2Proof.Machine.execOutput o s
  | .waitd o => Sys2Proof.Machine.execWaitd o s
  | .vmac o => Sys2Proof.Machine.execVmac o s
  | .vmsu o => Sys2Proof.Machine.execVmsu o s
  | .vmul o => Sys2Proof.Machine.execVmul o s
  | .vmacs o => Sys2Proof.Machine.execVmacs o s
  | .vsqa o => Sys2Proof.Machine.execVsqa o s
  | .vmulq o vd => Sys2Proof.Machine.execVmulq o vd s
  | .accclr o => Sys2Proof.Machine.execAccclr o s
  | .accrd16 o => Sys2Proof.Machine.execAccrd16 o s
  | .accrd32 o => Sys2Proof.Machine.execAccrd32 o s
  | .accsv o => Sys2Proof.Machine.execAccsv o s
  | .accld o => Sys2Proof.Machine.execAccld o s
  | .vadd o => Sys2Proof.Machine.execVadd o s
  | .vsub o => Sys2Proof.Machine.execVsub o s
  | .vadds o => Sys2Proof.Machine.execVadds o s
  | .vsubs o => Sys2Proof.Machine.execVsubs o s
  | .vabs o => Sys2Proof.Machine.execVabs o s
  | .vmax o => Sys2Proof.Machine.execVmax o s
  | .vmin o => Sys2Proof.Machine.execVmin o s
  | .vand o => Sys2Proof.Machine.execVand o s
  | .vor o => Sys2Proof.Machine.execVor o s
  | .vxor o => Sys2Proof.Machine.execVxor o s
  | .vshl o => Sys2Proof.Machine.execVshl o s
  | .vshra o => Sys2Proof.Machine.execVshra o s
  | .vshrl o => Sys2Proof.Machine.execVshrl o s
  | .vmov o => Sys2Proof.Machine.execVmov o s
  | .vbcast o => Sys2Proof.Machine.execVbcast o s
  | .vcmpeq o => Sys2Proof.Machine.execVcmpeq o s
  | .vcmpgt o => Sys2Proof.Machine.execVcmpgt o s
  | .vcmpge o => Sys2Proof.Machine.execVcmpge o s
  | .vsel o => Sys2Proof.Machine.execVsel o s
  | .vext o => Sys2Proof.Machine.execVext o s
  | .vins o => Sys2Proof.Machine.execVins o s
  | .vperm o => Sys2Proof.Machine.execVperm o s
  | .vredadd o => Sys2Proof.Machine.execVredadd o s
  | .vredmax o => Sys2Proof.Machine.execVredmax o s
  | .br o => Sys2Proof.Machine.execBr o s
  | .brz o => Sys2Proof.Machine.execBrz o s
  | .brnz o => Sys2Proof.Machine.execBrnz o s
  | .bri o => Sys2Proof.Machine.execBri o s
  | .call o => Sys2Proof.Machine.execCall o s
  | .reti o => Sys2Proof.Machine.execReti o s
  | .loopa o => Sys2Proof.Machine.execLoopa o s
  | .loopb o => Sys2Proof.Machine.execLoopb o s
  | .mfc o => Sys2Proof.Machine.execMfc o s
  | .mtc o => Sys2Proof.Machine.execMtc o s
  | .dint o => Sys2Proof.Machine.execDint o s
  | .eint o => Sys2Proof.Machine.execEint o s
  | .tend o t => Sys2Proof.Machine.execTend o t s
  | .trace o => Sys2Proof.Machine.execTrace o s
  | .crcv o => Sys2Proof.Machine.execCrcv o s
  | .crcs o => Sys2Proof.Machine.execCrcs o s
  | .crcseed o => Sys2Proof.Machine.execCrcseed o s
  | .crcfin o => Sys2Proof.Machine.execCrcfin o s
  | .triggerEvaluation t cond which => Sys2Proof.Machine.execTriggerEvaluation t cond which s
  | .evtOutPulseEnd t j => Sys2Proof.Machine.execEvtOutPulseEnd t j s
  | .timeConditionInstant t cond => Sys2Proof.Machine.execTimeConditionInstant t cond s
  | .triggerGroupNotify t => Sys2Proof.Machine.execTriggerGroupNotify t s
  | .captureRecordCopy t capture => Sys2Proof.Machine.execCaptureRecordCopy t capture s
  | .captureComplete t capture => Sys2Proof.Machine.execCaptureComplete t capture s
  | .captureRetainExpiry t capture => Sys2Proof.Machine.execCaptureRetainExpiry t capture s
  | .captureSendComplete t capture => Sys2Proof.Machine.execCaptureSendComplete t capture s
  | .captureDeriveComplete t => Sys2Proof.Machine.execCaptureDeriveComplete t s
  | .dramBurstBoundary clock arrivals ecc => Sys2Proof.Machine.execDramBurstBoundary clock arrivals ecc s
  | .refreshInterval clock rank => Sys2Proof.Machine.execRefreshInterval clock rank s
  | .refreshRatePoll t rank doubled => Sys2Proof.Machine.execRefreshRatePoll t rank doubled s
  | .rowIdleClose clock rank bank => Sys2Proof.Machine.execRowIdleClose clock rank bank s
  | .qosMeterWindow t => Sys2Proof.Machine.execQosMeterWindow t s
  | .requestUrgencyAge clock port => Sys2Proof.Machine.execRequestUrgencyAge clock port s
  | .patrolScrubRead t ecc => Sys2Proof.Machine.execPatrolScrubRead t ecc s
  | .eccWriteBack t address => Sys2Proof.Machine.execEccWriteBack t address s
  | .migrationSpareVerified t ok full => Sys2Proof.Machine.execMigrationSpareVerified t ok full s
  | .migrationComplete t => Sys2Proof.Machine.execMigrationComplete t s
  | .wckDqTracking t rank moves => Sys2Proof.Machine.execWckDqTracking t rank moves s
  | .trackingStep t rank => Sys2Proof.Machine.execTrackingStep t rank s
  | .spareRankTest t => Sys2Proof.Machine.execSpareRankTest t s
  | .spareRankTestEnd t failing => Sys2Proof.Machine.execSpareRankTestEnd t failing s
  | .refInputPresent t inp => Sys2Proof.Machine.execRefInputPresent t inp s
  | .refInputLost t inp => Sys2Proof.Machine.execRefInputLost t inp s
  | .freqGateEnd t inp devE15 => Sys2Proof.Machine.execFreqGateEnd t inp devE15 s
  | .ppsInEdge t sub residual => Sys2Proof.Machine.execPpsInEdge t sub residual s
  | .ppsInTimeout t => Sys2Proof.Machine.execPpsInTimeout t s
  | .timeSteerUpdate t freqErrE15 => Sys2Proof.Machine.execTimeSteerUpdate t freqErrE15 s
  | .ocxoAgeingStep t => Sys2Proof.Machine.execOcxoAgeingStep t s
  | .ptpAnnounce t p a => Sys2Proof.Machine.execPtpAnnounce t p a s
  | .ptpAnnounceTimeout t p => Sys2Proof.Machine.execPtpAnnounceTimeout t p s
  | .ptpSync t p master seq twoStep t1 rx => Sys2Proof.Machine.execPtpSync t p master seq twoStep t1 rx s
  | .ptpFollowUp t p master seq t1 => Sys2Proof.Machine.execPtpFollowUp t p master seq t1 s
  | .ptpDelayReqSend t p tx => Sys2Proof.Machine.execPtpDelayReqSend t p tx s
  | .ptpDelayResp t p master seq t4 => Sys2Proof.Machine.execPtpDelayResp t p master seq t4 s
  | .ptpPdelayResp t p seq t2 t3 t4 => Sys2Proof.Machine.execPtpPdelayResp t p seq t2 t3 t4 s
  | .ptpUnsupportedMessage t p kind => Sys2Proof.Machine.execPtpUnsupportedMessage t p kind s
  | .tdcEdge t input rising subPs => Sys2Proof.Machine.execTdcEdge t input rising subPs s
  | .tdcStampDrain t input => Sys2Proof.Machine.execTdcStampDrain t input s
  | .tdcGateFit t input => Sys2Proof.Machine.execTdcGateFit t input s
  | .ppsOutEdge t => Sys2Proof.Machine.execPpsOutEdge t s
  | .ppsOutFall t => Sys2Proof.Machine.execPpsOutFall t s
  | .chainLoadComplete t headers words checks readback => Sys2Proof.Machine.execChainLoadComplete t headers words checks readback s
  | .driveMeasurement t ch current pinMv neighbour => Sys2Proof.Machine.execDriveMeasurement t ch current pinMv neighbour s
  | .failoverRampComplete t p => Sys2Proof.Machine.execFailoverRampComplete t p s
  | .pumpAgeingRecord t ch current predicted => Sys2Proof.Machine.execPumpAgeingRecord t ch current predicted s
  | .ledBlink t x => Sys2Proof.Machine.execLedBlink t x s
  | .dnssdPeerFound t id addr => Sys2Proof.Machine.execDnssdPeerFound t id addr s
  | .heartbeat t m => Sys2Proof.Machine.execHeartbeat t m s
  | .heartbeatSend t => Sys2Proof.Machine.execHeartbeatSend t s
  | .timecheck t id t1 t2 t3 t4 => Sys2Proof.Machine.execTimecheck t id t1 t2 t3 t4 s
  | .timecheckSend t => Sys2Proof.Machine.execTimecheckSend t s
  | .table t from_ members => Sys2Proof.Machine.execTable t from_ members s
  | .prepare t m => Sys2Proof.Machine.execPrepare t m s
  | .vote t m => Sys2Proof.Machine.execVote t m s
  | .decide t coordinator txn commit ensEpoch => Sys2Proof.Machine.execDecide t coordinator txn commit ensEpoch s
  | .outcome t coordinator txn from_ answer => Sys2Proof.Machine.execOutcome t coordinator txn from_ answer s
  | .prepareDeadline t => Sys2Proof.Machine.execPrepareDeadline t s
  | .outcomeQuery t => Sys2Proof.Machine.execOutcomeQuery t s
  | .inDoubtTimeout t => Sys2Proof.Machine.execInDoubtTimeout t s
  | .memberLost t id => Sys2Proof.Machine.execMemberLost t id s
  | .memberForget t id => Sys2Proof.Machine.execMemberForget t id s
  | .ensTimeEvaluation t => Sys2Proof.Machine.execEnsTimeEvaluation t s
  | .ensCaptureTimeout t => Sys2Proof.Machine.execEnsCaptureTimeout t s
  | .sourceLoss t src => Sys2Proof.Machine.execSourceLoss t src s
  | .sourcePresent t src => Sys2Proof.Machine.execSourcePresent t src s
  | .poeClassification t p cls => Sys2Proof.Machine.execPoeClassification t p cls s
  | .lldpPowerAllocation t p alloc => Sys2Proof.Machine.execLldpPowerAllocation t p alloc s
  | .mpsPulse t => Sys2Proof.Machine.execMpsPulse t s
  | .levelEvaluation t => Sys2Proof.Machine.execLevelEvaluation t s
  | .shedUndo t => Sys2Proof.Machine.execShedUndo t s
  | .bedrockExit t => Sys2Proof.Machine.execBedrockExit t s
  | .bootComplete t obs => Sys2Proof.Machine.execBootComplete t obs s
  | .readyToRunning t => Sys2Proof.Machine.execReadyToRunning t s
  | .alarmInterval t => Sys2Proof.Machine.execAlarmInterval t s
  | .wakeInput t shorts => Sys2Proof.Machine.execWakeInput t shorts s
  | .comparatorWake t x mv beyondUs shorts => Sys2Proof.Machine.execComparatorWake t x mv beyondUs shorts s
  | .wakeTimer t shorts => Sys2Proof.Machine.execWakeTimer t shorts s
  | .wakeDatagram t h udp link shorts => Sys2Proof.Machine.execWakeDatagram t h udp link shorts s
  | .grantWake t shorts => Sys2Proof.Machine.execGrantWake t shorts s
  | .geodeLinkTry t p up => Sys2Proof.Machine.execGeodeLinkTry t p up s
  | .pfail t external => Sys2Proof.Machine.execPfail t external s
  | .saveComplete t ok => Sys2Proof.Machine.execSaveComplete t ok s
  | .holdCapacitanceMeasure t microfarad millivolt => Sys2Proof.Machine.execHoldCapacitanceMeasure t microfarad millivolt s
  | .thermalThreshold t which => Sys2Proof.Machine.execThermalThreshold t which s
  | .faultRetry t => Sys2Proof.Machine.execFaultRetry t s
  | .resetN t => Sys2Proof.Machine.execResetN t s
  | .lockstepMismatch t => Sys2Proof.Machine.execLockstepMismatch t s
  | .fwTrialTimeout t => Sys2Proof.Machine.execFwTrialTimeout t s
  | .wavelengthCalibration t errorKhz => Sys2Proof.Machine.execWavelengthCalibration t errorKhz s
  | .flashBlockErase t block ok => Sys2Proof.Machine.execFlashBlockErase t block ok s
  | .telemetryRecord t => Sys2Proof.Machine.execTelemetryRecord t s
  | .telemetryHourly t => Sys2Proof.Machine.execTelemetryHourly t s
  | .lifeAccount t => Sys2Proof.Machine.execLifeAccount t s
  | .selftestComplete t failed details => Sys2Proof.Machine.execSelftestComplete t failed details s
  | .linkTestEnd t link bits errors => Sys2Proof.Machine.execLinkTestEnd t link bits errors s
  | .linkErrorCheck t link errors => Sys2Proof.Machine.execLinkErrorCheck t link errors s
  | .pfailNRelease t => Sys2Proof.Machine.execPfailNRelease t s
  | .peerConnectionIdle t peer => Sys2Proof.Machine.execPeerConnectionIdle t peer s
  | .ensCaptureAnswer t id txn result capture => Sys2Proof.Machine.execEnsCaptureAnswer t id txn result capture s
  | .arpNeighbourSolicitation t link ipv6 addr => Sys2Proof.Machine.execArpNeighbourSolicitation t link ipv6 addr s

end Sys2Proof.Machine
end

