-- ==== Sys2Proof/Safety.lean ====
section
/-! DEFINITION. What always holds of the block: facts that every command keeps, in the words the claims use. -/

namespace Sys2Proof.Machine

/-- A set of parameter values in its one form: keys rise strictly, no entry repeats the parameter's reset value, every value fits the width its row gives it (R11). -/
def PSet.wf (p : PSet) : Prop :=
  p.entries.Pairwise (fun a b => a.1 < b.1) ∧ ∀ e ∈ p.entries, e.2 ≠ e.1.reset ∧ e.2 < 2 ^ (rowAt e.1.row).width

/-- The read-only parameters are in their one form. -/
def State.registersOk (s : State) : Prop := s.ro.wf

/-- The rings hold no more than the spec gives them room for: 65 536 events (R333), 16 MiB of log entries of 64 bytes (R396, R401). -/
def State.ringsOk (s : State) : Prop := s.events.length ≤ 65536 ∧ s.health.log.length ≤ 262144

/-- The duplicate cache holds at most 16 clients (R321). -/
def State.cacheOk (s : State) : Prop := s.dup.length ≤ 16

/-- A port is kept in BEDROCK and in no other state (R377). -/
def State.keptOk (s : State) : Prop := s.opt.kept.isSome = true ↔ s.mode = .bedrock

/-- What every step keeps. -/
structure State.Inv (s : State) : Prop where
  registers : s.registersOk
  rings : s.ringsOk
  cache : s.cacheOk
  kept : s.keptOk

/-! ### Requests, in the words the claims use (R309 to R322) -/

/-- The module once a request has come in on its session, before anything is executed. -/
def State.comeIn (s : State) (h : Hdr) : State := (s.at h.at_).sessionUse h

/-- A request number that is not in the duplicate cache and not older than its window (R319, R320). -/
def State.newNumber (s : State) (h : Hdr) : Prop :=
  match s.dupClient h.client with
  | none => True
  | some d => (inWindow d.newest h.request = true ∧ d.entries.find? (fun e => e.request == h.request) = none) ∨
      (inWindow d.newest h.request = false ∧ newerReq h.request d.newest = true)

/-- A request that is executed: it reaches an open session of a served state, its check value holds, its client is not 0, its number is new, its session has room for
its answer, it is a request of version 1 whose length is its body's, and in recovery its command is one that recovery serves. -/
def State.admits (s : State) (code : Nat) (h : Hdr) (body : List Byte) : Prop :=
  (s.at h.at_).reaches h code body = true ∧ (s.comeIn h).checkOk h code body = true ∧ h.client ≠ 0 ∧ (s.comeIn h).newNumber h ∧
  ((s.comeIn h).pair h.pair).waiting < 8 ∧ h.version = 1 ∧ h.kind = 0 ∧ h.bodyLen = body.length ∧ ((s.comeIn h).mode = .boot → recoveryServes code = true)

/-- A request executed and answered OK: the duplicate cache keeps the response, the session sends it in its turn. -/
def State.answered (s : State) (code : Nat) (h : Hdr) (body : List Byte) (more : Bool) : State :=
  let r := s.respond code h E.ok more body
  (s.remember h (some r) 0).hold h.pair (.ready r false)

/-- A request executed and answered with an error. -/
def State.failed (s : State) (code : Nat) (h : Hdr) (result index : Nat) (path path2 : String) : State :=
  let r := s.respond code h result false (errorBody index path path2)
  (s.remember h (some r) 0).hold h.pair (.ready r false)

/-- A request whose work goes on in the background: it takes its place in the queue of work and in its session's order. -/
def State.deferred (s : State) (code : Nat) (h : Hdr) (work : JobWork) : State :=
  let id := s.nextJob + 1
  (({ s with jobs := s.jobs ++ [⟨id, code, h.client, h.request, work⟩], nextJob := id } : State).remember h none id).hold h.pair (.job id false)

/-- The request of the service protocol that a command is: its code, its header and its body (R335); none for what comes about otherwise, for a capture asked for by a
peer (pair 7), and for a body that a command of its own spells. -/
def asRequest : Instr → Option (Nat × Hdr × List Byte)
  | .cfgCommit h rev mode named => some (0x0012, h, le 4 rev.toNat ++ le 1 mode ++ le 3 h.pad ++ ts96Bytes named)
  | .hello h protocol => some (0x0001, h, le 1 protocol ++ le 3 h.pad)
  | .ping h => some (0x0002, h, [])
  | .cfgGet h cursor paths => some (0x0010, h, le 4 cursor ++ le 2 paths.length ++ paths.flatMap str)
  | .cfgSet h entries => some (0x0011, h, le 2 entries.length ++ entries.flatMap (fun e => str e.path ++ valBytes e.val))
  | .cfgDiscard h => some (0x0013, h, [])
  | .cfgDiff h cursor => some (0x0014, h, le 4 cursor)
  | .cfgList h cursor stem => some (0x0015, h, le 4 cursor ++ str stem)
  | .cfgSave h => some (0x0016, h, [])
  | .cfgErase h => some (0x0017, h, [])
  | .timeSet h seconds utc => some (0x0020, h, le 8 seconds.toNat ++ le 2 utc.toNat ++ le 2 h.pad)
  | .tdcRead h input start limit => some (0x0021, h, le 1 input ++ le 3 h.pad ++ le 4 start ++ le 2 limit)
  | .kernelLoad h slot flags offset imageBytes data => some (0x0030, h, le 1 slot ++ le 1 flags ++ le 2 h.pad ++ le 4 offset ++ le 4 imageBytes ++ data)
  | .kernelUnload h slot => some (0x0031, h, le 1 slot ++ le 3 h.pad)
  | .kernelSnapshot h core offset length => some (0x0032, h, le 1 core ++ le 3 h.pad ++ le 4 offset ++ le 4 length)
  | .captureAt h trigger profile => if h.pair = 7 then none else some (0x0040, h, ts96Bytes trigger ++ le 1 profile ++ le 3 h.pad)
  | .captureSend h capture stream => some (0x0041, h, le 4 capture ++ le 1 stream ++ le 3 h.pad)
  | .captureDerive h req => some (0x0042, h, deriveBytes req h.pad)
  | .captureRelease h capture => some (0x0043, h, le 4 capture)
  | .captureList h cursor => some (0x0044, h, le 4 cursor)
  | .eventSubscribe h mask => some (0x0050, h, le 32 mask.toNat)
  | .eventRead h start limit => some (0x0051, h, le 4 start ++ le 2 limit)
  | .fwBegin h imageBytes => some (0x0060, h, le 4 imageBytes)
  | .fwWrite h offset data => some (0x0061, h, le 4 offset ++ data)
  | .fwFinish h => some (0x0062, h, [])
  | .fwActivate h image => some (0x0063, h, le 1 image)
  | .fwConfirm h => some (0x0064, h, [])
  | .stateGet h => some (0x0080, h, [])
  | .run h => some (0x0081, h, [])
  | .stop h => some (0x0082, h, [])
  | .wake h => some (0x0084, h, [])
  | .bedrockForce h => some (0x0085, h, le 1 1 ++ le 3 h.pad)
  | .bedrockRelease h => some (0x0085, h, le 1 0 ++ le 3 h.pad)
  | .ensStatus h => some (0x0090, h, [])
  | .ensMembers h cursor => some (0x0091, h, le 4 cursor)
  | .ensCommit h named policy members => some (0x0092, h, ts96Bytes named ++ le 1 policy ++ le 1 members.length ++ le 2 h.pad ++ members.flatMap (fun e => le 8 e.1.toNat ++ le 4 e.2))
  | .ensCaptureAt h trigger profile members => some (0x0093, h, ts96Bytes trigger ++ le 1 profile ++ le 1 members.length ++ le 2 h.pad ++ members.flatMap (fun id => le 8 id.toNat))
  | .ensForget h member => some (0x0094, h, le 8 member.toNat)
  | .logRead h start limit => some (0x00A0, h, le 4 start ++ le 2 limit ++ le 2 h.pad)
  | .selftest h mask => some (0x00A1, h, le 1 mask ++ le 3 h.pad)
  | .selftestResult h => some (0x00A2, h, [])
  | .linkTest h link pattern seconds peer => some (0x00A3, h, le 1 link ++ le 1 pattern ++ le 2 seconds ++ le 8 peer.toNat)
  | .linkResult h link => some (0x00A4, h, le 1 link)
  | .telemetryRead h start limit => some (0x00A5, h, le 4 start ++ le 2 limit)
  | .lifeRead h => some (0x00A6, h, [])
  | .unknownCommand h code body => if bodyFits code.toNat body.length then none else some (code.toNat, h, body)
  | .reset h => some (0x0070, h, le 1 0 ++ le 3 h.pad)
  | .geodeEnter h deep mask wake => some (0x0083, h, geodeBody deep mask wake h.pad)
  | _ => none

/-- A Basalt operation whose address mode or rounding code is reserved (R193, R194). -/
def reserved : Instr → Bool
  | .vld o => modeReserved o.mode
  | .vldb o => modeReserved o.mode
  | .vld2 o => modeReserved o.mode
  | .vldst o => modeReserved o.mode
  | .vst o => modeReserved o.mode
  | .vstm o => modeReserved o.mode
  | .sld o => modeReserved o.mode
  | .sst o => modeReserved o.mode
  | .accrd16 o => decide (o.round = 3)
  | .accrd32 o => decide (o.round = 3)
  | _ => false

/-! ### Operations of a Basalt core, in the words the claims use (R184 to R205) -/

/-- A core can issue an operation: it runs and its bundle lies in the image (R184, R215). -/
def State.canIssue (s : State) (c : Nat) : Prop := s.coreIssues c = true ∧ (s.core c).pc < (s.coreHeader c).bundles

/-- The core with its bundle open. -/
def State.opened (s : State) (c : Nat) : State := if (s.core c).open_ then s else s.setCore c { (s.core c) with open_ := true, noInt := false }

/-- What follows an operation: where it is its bundle's last and the core still runs, the bundle closes. -/
def State.ended (s : State) (c : Nat) (close : Bool) : State := if close && s.coreIssues c then s.closeBundle c else s

/-- A core does something to itself in a bundle. -/
def State.coreDoes (s : State) (c : Nat) (close : Bool) (f : BCore → BCore) : State :=
  ((s.opened c).setCore c (f ((s.opened c).core c))).ended c close

/-- The same with a value the spec leaves open. -/
def State.coreDraws (s : State) (c : Nat) (close : Bool) (f : Nat → BCore → BCore) : State :=
  (((s.opened c).setCore c (f (Config.freeBits s.fresh) ((s.opened c).core c))).drawn).ended c close

end Sys2Proof.Machine
end

