-- ==== Sys2Proof/Certificates/Slice0/Obligations.lean ====
section
/-! DEFINITION. What is claimed of the block: its whole-machine rules first, then what each command does, family by family. -/

section
open Sys2Proof Sys2Proof.Machine

/-- A step takes the front command: with `c` at the front of the queue it is `exec c` on the state with the queue's rest; with an empty queue the block idles, which is the model's
own choice (log entry 15). -/
def Obligations.StepTakesTheFront : Prop :=
  (∀ (s : State) (c : Instr) (rest : List Instr), s.pending = c :: rest → step s = exec c { s with pending := rest }) ∧
  (∀ s : State, s.pending = [] → step s = .next s)

/-- What reset leaves: BOOT under way, no command waiting, no event, no cached request, no background work, every session closed, no configuration stored and none live, and the
event sequence at 0 (R11, R321, R329, R333, R369). That BOOT is under way at reset is the model's reading (log entry 5). -/
def Obligations.ResetLeavesNothingConfigured : Prop :=
  let s := State.reset
  s.mode = .boot ∧ s.pending = [] ∧ s.events = [] ∧ s.dup = [] ∧ s.jobs = [] ∧ s.cfg.stored = none ∧ s.cfg.draft = s.cfg.live ∧ s.roGet K.ncpEventNext = 0 ∧
    (∀ x ∈ s.sess, x.open_ = false) ∧ (∀ k : Key, s.pG k = k.reset)

/-- What always holds of the block holds right after reset (R11, R321, R333, R377, R401). -/
def Obligations.ResetMeetsTheInvariant : Prop := State.reset.Inv

/-- Every step, whatever command is at the front, keeps what always holds: the registers in their one form and within their widths, the event and log rings within their room, at
most 16 clients in the duplicate cache, a port kept in BEDROCK and in no other state (R11, R321, R333, R377, R401). -/
def Obligations.StepKeepsTheInvariant : Prop :=
  ∀ s t : State, s.Inv → step s = .next t → t.Inv

/-- A step takes one command from the queue and no command puts one in: the queue after a step is the rest of the queue before it; and no command changes the module ID (R3). -/
def Obligations.StepsKeepTheQueueAndTheModuleId : Prop :=
  (∀ s t : State, step s = .next t → t.pending = s.pending.drop 1) ∧
  (∀ (c : Instr) (s t : State), exec c s = .next t → t.moduleId = s.moduleId)

/-- Every command runs in every state: none is refused, and none stops but a Basalt operation with a reserved address mode or rounding code, to which the spec gives no effect
(R187, R193, R194). The model's readings it rests on: log entry 53. -/
def Obligations.NoCommandIsRefused : Prop :=
  ∀ (c : Instr) (s : State), (reserved c = false → ∃ t, exec c s = .next t ∧ t.pending = s.pending) ∧ (reserved c = true → exec c s = .fault .reservedEncoding)

/-- The check value of a message (R317): CRC-32C over the module ID, 0xFF, the request number and the message's bytes, a HELLO request's over a module ID of zeros; a request whose
check value does not hold is answered E_CHECK, is counted, is not executed and is not cached, whatever it asks for; every message the module sends ends with its own check
value, over the module's ID. -/
def Obligations.FailedChecksExecuteNothing : Prop :=
  (∀ (c : Instr) (s : State) (code : Nat) (h : Hdr) (body : List Byte), asRequest c = some (code, h, body) → (s.at h.at_).reaches h code body = true →
    h.check ≠ crc32c (le 8 (if code = 1 then 0 else (s.comeIn h).moduleId.toNat) ++ le 1 0xFF ++ le 4 h.request.toNat ++ (hdrBytes h code ++ body)) →
    let t := ((s.comeIn h).bump K.ncpCheckErrors 1).refuse code h E.check
    exec c s = .next t ∧ t.dup = s.dup ∧ t.cfg = s.cfg ∧ t.jobs = s.jobs) ∧
  (∀ (id : BitVec 64) (pair : Nat) (m : OutMsg),
    let number := match m with
      | .resp r _ => r.request.toNat
      | .note e => e.seq
      | .lost _ _ first _ => first
    ∃ bytes, m.bytes id pair = bytes ++ le 4 (crc32c (le 8 id.toNat ++ le 1 0xFF ++ le 4 number ++ bytes)).toNat)

/-- The duplicate cache (R320, R322): a request of a client in the cache whose number was executed is answered again with the response kept, marked duplicate, or E_REUSED where
its check value differs, or waits with the one still executing; one older than the window is answered E_STALE; none of these executes anything. -/
def Obligations.RepeatedRequestsAreNotExecuted : Prop :=
  ∀ (c : Instr) (s : State) (code : Nat) (h : Hdr) (body : List Byte) (d : DupClient), asRequest c = some (code, h, body) → (s.at h.at_).reaches h code body = true →
    let a := s.comeIn h
    let b := a.touchClient h.client
    a.checkOk h code body = true → h.client ≠ 0 → a.dupClient h.client = some d →
    (∀ e r, inWindow d.newest h.request = true → d.entries.find? (fun x => x.request == h.request) = some e → e.check = h.check → e.resp = some r →
      exec c s = .next (b.hold h.pair (.ready r true))) ∧
    (∀ e, inWindow d.newest h.request = true → d.entries.find? (fun x => x.request == h.request) = some e → e.check = h.check → e.resp = none →
      exec c s = .next (b.hold h.pair (.job e.job true))) ∧
    (∀ e, inWindow d.newest h.request = true → d.entries.find? (fun x => x.request == h.request) = some e → e.check ≠ h.check →
      exec c s = .next (b.refuse code h E.reused)) ∧
    (inWindow d.newest h.request = false → newerReq h.request d.newest = false → exec c s = .next (b.refuse code h E.stale))

/-- What answering a request touches: the sessions, the duplicate cache with its published count, and the messages sent; the configuration, the products, the stores, the events
and every other published value stay (R311, R320, R321). -/
def Obligations.AnswersTouchOnlyTheirSession : Prop :=
  ∀ (s : State) (code : Nat) (h : Hdr) (body : List Byte) (more : Bool),
    let t := s.answered code h body more
    t.cfg = s.cfg ∧ t.fw = s.fw ∧ t.jobs = s.jobs ∧ t.events = s.events ∧ t.time = s.time ∧ t.health = s.health ∧ t.opt = s.opt ∧ t.sig = s.sig ∧ t.drive = s.drive ∧
    t.raman = s.raman ∧ t.front = s.front ∧ t.basalt = s.basalt ∧ t.trig = s.trig ∧ t.mem = s.mem ∧ t.power = s.power ∧ t.ens = s.ens ∧ t.mode = s.mode ∧ t.now = s.now ∧
    t.pending = s.pending ∧ t.moduleId = s.moduleId ∧ t.fresh = s.fresh ∧ (∀ k : Key, k ≠ K.ncpClients → t.roGet k = s.roGet k) ∧
    (∀ n, n ≠ h.pair → t.pair n = s.pair n)

/-- Raising an event (R33, R333): it takes the next sequence number, under the live epoch, and stands first in the ring of 65 536; the sequence advances by one; nothing but
sessions, the log and their counts is touched beside it. -/
def Obligations.EventsAreNumberedInOrder : Prop :=
  ∀ (s : State) (code : Nat) (args : List Val),
    let t := s.raise code args
    let e : Event := { seq := s.roGet K.ncpEventNext, code := code, severity := sevDefault code, time := s.stamp, args := args, epoch := s.roGet K.sysEpoch }
    t.events = (e :: s.events).take 65536 ∧ t.roGet K.ncpEventNext = (s.roGet K.ncpEventNext + 1) % 4294967296 ∧
    t.cfg = s.cfg ∧ t.dup = s.dup ∧ t.jobs = s.jobs ∧ t.basalt = s.basalt ∧ t.trig = s.trig ∧ t.mem = s.mem ∧ t.power = s.power ∧ t.ens = s.ens ∧ t.mode = s.mode ∧
    t.pending = s.pending

/-- Results that land together (R196): of two results for one register in one cycle the higher slot's is kept and KE_STATUS.WCOLL set; results that land in different cycles are
kept in the order in which they land. -/
def Obligations.ResultsThatLandTogether : Prop :=
  ∀ (x : BCore) (d : BDest) (lowSlot highSlot v1 v2 due1 due2 n : Nat), (∃ r, d = .v r ∨ d = .s r ∨ d = .a r) → x.stores = [] →
    let first : BWrite := ⟨due1, lowSlot, d, v1⟩
    let second : BWrite := ⟨due2, highSlot, d, v2⟩
    let empty : BCore := { x with writes := [] }
    (lowSlot < highSlot → due1 ≤ x.bundle → due2 ≤ x.bundle → (x.writes = [first, second] ∨ x.writes = [second, first]) →
      (x.land n).1 = (empty.statusBit 2 true).place d v2) ∧
    (due1 ≤ x.bundle → x.bundle < due2 → (x.writes = [first, second] ∨ x.writes = [second, first]) →
      (x.land n).1 = ({ x with writes := [second] } : BCore).place d v1 ∧
      (({ ((x.land n).1) with bundle := due2 } : BCore).land n).1 = (({ empty with bundle := due2 } : BCore).place d v1).place d v2)

/-- Latency (R195): a result of latency L issued in bundle N is not seen by bundles N + 1 to N + L − 1, which see the previous value, and is seen by bundle N + L. -/
def Obligations.ResultsLandAfterTheirLatency : Prop :=
  ∀ (x : BCore) (slot latency r v n : Nat), x.writes = [] → x.stores = [] → r < x.s.length →
    let y := x.write slot latency (.s r) v
    (∀ k < latency, ((({ y with bundle := x.bundle + k } : BCore).land n).1).s = x.s) ∧
    ((({ y with bundle := x.bundle + latency } : BCore).land n).1).sreg r = BitVec.ofNat 32 v ∧
    (∀ q ≠ r, ((({ y with bundle := x.bundle + latency } : BCore).land n).1).sreg q = x.sreg q)

/-- A core's data memory (R190, R192): a byte written is read back, every other byte stays, and two memories in their canonical form that read the same everywhere are the same.
The model's readings it rests on: log entry 39. -/
def Obligations.DataMemoryReadsBack : Prop :=
  (∀ (m : List Host.Cell) (n : Nat) (b : Byte), Memory.wf m = true → memRead (memWrite m n b) n = b ∧ ∀ k, k ≠ n → memRead (memWrite m n b) k = memRead m k) ∧
  (∀ m m' : List Host.Cell, Memory.wf m = true → Memory.wf m' = true → (∀ n, memRead m n = memRead m' n) → m = m')

/-- An operation inside an open bundle stays in its core (R184, R188): nothing of the module but that core changes. The model's readings it rests on: log entry 11. -/
def Obligations.OpenBundlesStayInTheirCore : Prop :=
  ∀ (s : State) (c : Nat) (f : BCore → BCore), let t := s.coreDoes c false f
    (∀ k, k ≠ c → t.core k = s.core k) ∧ t.basalt.insts = s.basalt.insts ∧ t.basalt.slots = s.basalt.slots ∧ t.ro = s.ro ∧ t.cfg = s.cfg ∧ t.mem = s.mem ∧ t.trig = s.trig ∧
    t.events = s.events ∧ t.sess = s.sess ∧ t.dup = s.dup ∧ t.power = s.power ∧ t.time = s.time ∧ t.opt = s.opt ∧ t.sig = s.sig ∧ t.out = s.out ∧ t.fresh = s.fresh ∧
    t.now = s.now ∧ t.mode = s.mode

/-- TS96 times (R272): 96 bits that spell a well-formed time name an instant, and that instant's bits are those 96 bits again. -/
def Obligations.Ts96TimesRoundTrip : Prop :=
  ∀ v : Nat, v < 2 ^ 96 → tsOk v = true → tsBits (stampOfBits v) = v

/-- The scalar operations (R194, R195): on a core that can issue, each puts one result in flight for its scalar register, one bundle later, SMUL's two bundles later, and changes
nothing else of the module; its bundle closes with its last operation. The model's readings it rests on: log entries 11, 38. -/
def Obligations.ScalarOpsWriteTheirResult : Prop :=
  ∀ (s : State) (o : OpS), s.canIssue o.core →
    let does := fun (latency : Nat) (v : BCore → Nat) =>
      Host.Outcome.next (s.coreDoes o.core o.close (fun x => x.write (if o.slot2 then 2 else 0) latency (.s o.sd.toNat) (v x)))
    let a := fun (x : BCore) => x.sreg o.sa.toNat
    let b := fun (x : BCore) => x.sreg o.sb.toNat
    exec (.sadd o) s = does 1 (fun x => (a x + b x).toNat) ∧
    exec (.ssub o) s = does 1 (fun x => (a x - b x).toNat) ∧
    exec (.saddi o) s = does 1 (fun x => (a x + o.imm.signExtend 32).toNat) ∧
    exec (.sand o) s = does 1 (fun x => (a x &&& b x).toNat) ∧
    exec (.sor o) s = does 1 (fun x => (a x ||| b x).toNat) ∧
    exec (.sxor o) s = does 1 (fun x => (a x ^^^ b x).toNat) ∧
    exec (.sshl o) s = does 1 (fun x => (a x <<< (b x).toNat).toNat) ∧
    exec (.sshr o) s = does 1 (fun x => (a x >>> (b x).toNat).toNat) ∧
    exec (.sshra o) s = does 1 (fun x => ((a x).sshiftRight (b x).toNat).toNat) ∧
    exec (.smovi o) s = does 1 (fun _ => o.imm.toNat) ∧
    exec (.smovih o) s = does 1 (fun x => (x.sreg o.sd.toNat).toNat % 65536 + 65536 * o.imm.toNat) ∧
    exec (.smul o) s = does 2 (fun x => (a x * b x).toNat)

/-- The lane-wise vector operations of slot 2 (R194, R195): one result in flight for the vector register that `rotbase` gives at issue, one bundle later (VPERM two), made lane by
lane from both operands; the saturating ones set KE_STATUS.SAT with it where a lane saturated. The other vector operations of slot 2 (R194, R195): compares leave a lane mask
in a scalar register, VSEL picks lanes by one, VEXT and VINS move one lane, VPERM permutes, the reductions leave a scalar; VABS of the most negative lane, and a VEXT or VINS
of a lane that does not exist, leave a value the spec does not state, every other lane as stated. The model's readings it rests on: log entries 11, 37, 38. -/
def Obligations.VectorOpsWriteTheirLanes : Prop :=
  (∀ (s : State) (o : OpV), s.canIssue o.core →
    let w := laneW o.w
    let lands := fun (latency v : Nat) (x : BCore) => x.write 2 latency (.v (physReg x.rotbase o.d.toNat)) v
    let lanes := fun (f : Nat → Nat → Nat) =>
      Host.Outcome.next (s.coreDoes o.core o.close (fun x => lands 1 (ofLanes w (((x.lanes o.w o.a.toNat).zip (x.laneB o)).map (fun e => f e.1 e.2))) x))
    let signedLanes := fun (f : Int → Int → Int) => lanes (fun a b => bitsOf w (f (signed w a) (signed w b)))
    let sats := fun (f : Int → Int → Int) =>
      Host.Outcome.next (s.coreDoes o.core o.close (fun x =>
        let rs := ((x.lanes o.w o.a.toNat).zip (x.laneB o)).map (fun e => satFlag w (f (signed w e.1) (signed w e.2)))
        let y := lands 1 (ofLanes w (rs.map (fun r => bitsOf w r.1))) x
        if rs.any (·.2) then y.write 2 1 (.flag 3) 1 else y))
    exec (.vadd o) s = signedLanes (fun a b => a + b) ∧
    exec (.vsub o) s = signedLanes (fun a b => a - b) ∧
    exec (.vmax o) s = signedLanes (fun a b => max a b) ∧
    exec (.vmin o) s = signedLanes (fun a b => min a b) ∧
    exec (.vadds o) s = sats (fun a b => a + b) ∧
    exec (.vsubs o) s = sats (fun a b => a - b) ∧
    exec (.vand o) s = lanes Nat.land ∧
    exec (.vor o) s = lanes Nat.lor ∧
    exec (.vxor o) s = lanes Nat.xor ∧
    exec (.vshl o) s = lanes (fun a b => if w ≤ b then 0 else a * 2 ^ b % 2 ^ w) ∧
    exec (.vshra o) s = lanes (fun a b => bitsOf w (signed w a / (2 : Int) ^ min b 64)) ∧
    exec (.vshrl o) s = lanes (fun a b => a / 2 ^ min b 64) ∧
    exec (.vmov o) s = lanes (fun a _ => a)) ∧
  (∀ (s : State) (o : OpV), s.canIssue o.core →
    let w := laneW o.w
    let does := fun (f : BCore → BCore) => Host.Outcome.next (s.coreDoes o.core o.close f)
    let draws := fun (f : Nat → BCore → BCore) => Host.Outcome.next (s.coreDraws o.core o.close f)
    let vec := fun (latency v : Nat) (x : BCore) => x.write 2 latency (.v (physReg x.rotbase o.d.toNat)) v
    let scal := fun (latency v : Nat) (x : BCore) => x.write 2 latency (.s (o.d.toNat % 32)) v
    let mask := fun (f : Int → Int → Bool) => does (fun x =>
      scal 1 (ofLanes 1 (((x.lanes o.w o.a.toNat).zip (x.laneB o)).map (fun e => b2n (f (signed w e.1) (signed w e.2))))) x)
    exec (.vcmpeq o) s = mask (fun a b => a == b) ∧
    exec (.vcmpgt o) s = mask (fun a b => decide (b < a)) ∧
    exec (.vcmpge o) s = mask (fun a b => decide (b ≤ a)) ∧
    exec (.vsel o) s = does (fun x => vec 1 (ofLanes w ((List.range (laneN o.w)).map (fun l =>
      if bitOf (x.sreg (o.imm.toNat % 32)).toNat l then (x.lanes o.w o.a.toNat).getD l 0 else (x.lanes o.w o.b.toNat).getD l 0))) x) ∧
    exec (.vbcast o) s = does (fun x => vec 1 (ofLanes w (List.replicate (laneN o.w) (x.sreg (o.a.toNat % 32)).toNat)) x) ∧
    (o.imm.toNat < laneN o.w → exec (.vext o) s = does (fun x => scal 1 (bitsOf 32 (signed w ((x.lanes o.w o.a.toNat).getD o.imm.toNat 0))) x)) ∧
    (laneN o.w ≤ o.imm.toNat → exec (.vext o) s = draws (fun free x => scal 1 (free % 2 ^ 32) x)) ∧
    (o.imm.toNat < laneN o.w →
      exec (.vins o) s = does (fun x => vec 1 (ofLanes w ((x.lanes o.w o.d.toNat).set o.imm.toNat ((x.sreg (o.a.toNat % 32)).toNat % 2 ^ w))) x)) ∧
    (laneN o.w ≤ o.imm.toNat → exec (.vins o) s = draws (fun free x => vec 1 (free % 2 ^ 512) x)) ∧
    exec (.vperm o) s = does (fun x => vec 2 (ofLanes w ((x.laneB o).map (fun i => (x.lanes o.w o.a.toNat).getD (i % laneN o.w) 0))) x) ∧
    exec (.vredadd o) s = does (fun x => scal 3 (bitsOf 32 (sumZ ((x.lanes o.w o.a.toNat).map (signed w)))) x) ∧
    exec (.vredmax o) s = does (fun x => scal 3 (bitsOf 32 (maxLane ((x.lanes o.w o.a.toNat).map (signed w)))) x) ∧
    exec (.vabs o) s = draws (fun free x => vec 1 (ofLanes w ((List.range (x.lanes o.w o.a.toNat).length).map (fun l =>
      let v := (x.lanes o.w o.a.toNat).getD l 0
      if v = 2 ^ (w - 1) then free / 2 ^ (w * l) % 2 ^ w else bitsOf w ((signed w v).natAbs : Int)))) x))

/-- The multiply-accumulate operations of slot 1 (R194, R195, R197): the accumulator takes its new lanes at issue, wrapping to 48 bits; reads of it land in a vector register four
bundles later, saturated with KE_STATUS.SAT; a part that does not exist leaves a value the spec does not state, and the reserved rounding code stops the run. The model's
readings it rests on: log entries 11, 37, 38. -/
def Obligations.MacOpsUpdateTheirAccumulator : Prop :=
  ∀ (s : State) (o : OpX) (vd : BitVec 6), s.canIssue o.core →
    let does := fun (f : BCore → BCore) => Host.Outcome.next (s.coreDoes o.core o.close f)
    let draws := fun (f : Nat → BCore → BCore) => Host.Outcome.next (s.coreDraws o.core o.close f)
    let acc := fun (x : BCore) (ls : List Int) => x.setAcc o.acc.toNat (accOf ls)
    let lanes3 := fun (f : Int → Int → Int → Int) => does (fun x =>
      acc x (((x.accLanes o.acc.toNat).zip ((x.lanes16 o.va.toNat).zip (x.lanes16 o.vb.toNat))).map (fun e => f e.1 e.2.1 e.2.2)))
    let vec := fun (v : Nat) (x : BCore) => x.write 1 4 (.v (physReg x.rotbase o.va.toNat)) v
    exec (.vmac o) s = lanes3 (fun c a b => c + a * b) ∧
    exec (.vmsu o) s = lanes3 (fun c a b => c - a * b) ∧
    exec (.vmul o) s = lanes3 (fun _ a b => a * b) ∧
    exec (.vsqa o) s = lanes3 (fun c a _ => c + a * a) ∧
    exec (.vmacs o) s = does (fun x => acc x (((x.accLanes o.acc.toNat).zip (x.lanes16 o.va.toNat)).map (fun e =>
      e.1 + e.2 * signed 16 ((x.sreg o.sx.toNat).toNat % 65536)))) ∧
    exec (.accclr o) s = does (fun x => x.setAcc o.acc.toNat 0) ∧
    exec (.vmulq o vd) s = does (fun x => satResult x 16 vd.toNat (((x.lanes16 o.va.toNat).zip (x.lanes16 o.vb.toNat)).map (fun e => (e.1 * e.2 + 16384) / 32768))) ∧
    (o.round ≠ 3 → exec (.accrd16 o) s = does (fun x => satResult x 16 o.va.toNat ((x.accLanes o.acc.toNat).map (shiftRound o.round.toNat o.shift.toNat)))) ∧
    (o.round ≠ 3 → o.part.toNat < 2 → exec (.accrd32 o) s = does (fun x =>
      satResult x 32 o.va.toNat ((((x.accLanes o.acc.toNat).drop (16 * o.part.toNat)).take 16).map (shiftRound o.round.toNat o.shift.toNat)))) ∧
    (o.round ≠ 3 → 2 ≤ o.part.toNat → exec (.accrd32 o) s = draws (fun free x => vec (free % 2 ^ 512) x)) ∧
    (o.round = 3 → exec (.accrd16 o) s = .fault .reservedEncoding ∧ exec (.accrd32 o) s = .fault .reservedEncoding) ∧
    (o.part.toNat < 3 → exec (.accsv o) s = does (fun x =>
      vec (ofLanes 16 ((lanesOf 48 32 (x.accreg o.acc.toNat).toNat).map (fun l => l / 2 ^ (16 * o.part.toNat) % 65536))) x)) ∧
    (o.part = 3 → exec (.accsv o) s = draws (fun free x => vec (free % 2 ^ 512) x)) ∧
    (o.part.toNat < 3 → exec (.accld o) s = does (fun x => x.setAcc o.acc.toNat (BitVec.ofNat 1536 (ofLanes 48
      (((lanesOf 48 32 (x.accreg o.acc.toNat).toNat).zip (x.lanes false o.va.toNat)).map (fun e => putPart o.part.toNat e.1 e.2)))))) ∧
    (o.part = 3 → exec (.accld o) s = draws (fun free x => x.setAcc o.acc.toNat (BitVec.ofNat 1536 free)))

/-- The loads and stores of a core (R190, R191, R192, R193, R194, R195): with an address the access check passes, a load puts what memory reads there in flight for its register,
three bundles later, a store's bytes become visible two bundles later at exactly the address its address register, mode and increment give, and the address register is
updated; an address the check fails faults the core with the cause it gives; a reserved address mode stops the run. The two-address operations of a core (R191, R193): VLD2
loads two vectors, VLDST loads one and stores one, the load seeing memory as it was; both address registers are updated, one alone where both addresses name it; the core
remembers that its bundle made both accesses, for the conflicts of R191; a failed check of either address faults the core, the first one's cause first. The model's readings it
rests on: log entries 11, 37, 38, 39. -/
def Obligations.LoadsAndStoresReachTheirAddress : Prop :=
  (∀ (s : State) (o : OpM), s.canIssue o.core →
    let st := s.opened o.core
    let x := st.core o.core
    let at_ := fun (inc : Int) => x.addrOf o.an.toNat o.mode.toNat inc
    let ends := fun (y : State) => Host.Outcome.next (y.ended o.core o.close)
    let moved := fun (y : State) (inc : Int) => y.updateAddr o.core o.an.toNat o.mode.toNat inc (some (incReg o))
    let loads := fun (c : Instr) (size : Nat) (place : Nat → BCore → BCore) =>
      (modeReserved o.mode = true → exec c s = .fault .reservedEncoding) ∧
      (modeReserved o.mode = false → accessFault (at_ (inc24 o)) size false = none →
        exec c s = ends (moved (st.loadTo o.core (at_ (inc24 o)) size place) (inc24 o))) ∧
      (∀ k, modeReserved o.mode = false → accessFault (at_ (inc24 o)) size false = some k → exec c s = ends (st.coreFault o.core k))
    let stores := fun (c : Instr) (size : Nat) (inc : Int) (cells : List Host.Cell) =>
      (modeReserved o.mode = true → exec c s = .fault .reservedEncoding) ∧
      (modeReserved o.mode = false → accessFault (at_ inc) size true = none →
        exec c s = ends (moved (st.setCore o.core { x with stores := x.stores ++ [⟨x.bundle + 2, cells⟩] }) inc)) ∧
      (∀ k, modeReserved o.mode = false → accessFault (at_ inc) size true = some k → exec c s = ends (st.coreFault o.core k))
    loads (.vld o) 64 (fun v y => y.write 0 3 (.v (physReg y.rotbase o.reg.toNat)) v) ∧
    loads (.vldb o) 2 (fun v y => y.write 0 3 (.v (physReg y.rotbase o.reg.toNat)) (ofLanes 16 (List.replicate 32 v))) ∧
    loads (.sld o) 4 (fun v y => y.write 0 3 (.s (o.reg.toNat % 32)) v) ∧
    stores (.vst o) 64 (inc24 o) (cellsFrom (at_ (inc24 o)) (le 64 (x.vreg o.reg.toNat).toNat)) ∧
    stores (.vstm o) 64 (inc19 o) (maskedCells (x.sreg (incReg o)).toNat (at_ (inc19 o)) (x.lanes false o.reg.toNat)) ∧
    stores (.sst o) 4 (inc24 o) (cellsFrom (at_ (inc24 o)) (le 4 (x.sreg (o.reg.toNat % 32)).toNat))) ∧
  (∀ (s : State) (o : OpM2), s.canIssue o.core →
    let st := s.opened o.core
    let x := st.core o.core
    let a := x.addrOf o.an.toNat o.mode.toNat (inc15 o)
    let b := x.addrOf o.am.toNat o.mode.toNat (inc15 o)
    let ends := fun (y : State) => Host.Outcome.next (y.ended o.core o.close)
    let moved := fun (y : State) =>
      let z := y.updateAddr o.core o.an.toNat o.mode.toNat (inc15 o) none
      if o.am = o.an then z else z.updateAddr o.core o.am.toNat o.mode.toNat (inc15 o) none
    let vec := fun (r : Nat) => toV 0 3 r
    let two := (st.setCore o.core { x with both := true }).loadTo o.core a 64 (vec o.vd.toNat)
    (modeReserved o.mode = true → exec (.vld2 o) s = .fault .reservedEncoding ∧ exec (.vldst o) s = .fault .reservedEncoding) ∧
    (modeReserved o.mode = false → accessFault a 64 false = none → accessFault b 64 false = none →
      exec (.vld2 o) s = ends (moved (two.loadTo o.core b 64 (vec ((o.vd.toNat + 1) % 64))))) ∧
    (modeReserved o.mode = false → accessFault a 64 false = none → accessFault b 64 true = none →
      exec (.vldst o) s = ends (moved (two.setCore o.core
        ((two.core o.core).store (cellsFrom b (le 64 (x.vreg o.vs.toNat).toNat)))))) ∧
    (∀ k, modeReserved o.mode = false → accessFault a 64 false = some k →
      exec (.vld2 o) s = ends (st.coreFault o.core k) ∧ exec (.vldst o) s = ends (st.coreFault o.core k)) ∧
    (∀ k, modeReserved o.mode = false → accessFault a 64 false = none → accessFault b 64 false = some k → exec (.vld2 o) s = ends (st.coreFault o.core k)) ∧
    (∀ k, modeReserved o.mode = false → accessFault a 64 false = none → accessFault b 64 true = some k → exec (.vldst o) s = ends (st.coreFault o.core k)))

/-- Address registers and transfers (R194, R206, R207, R208, R209): AADDI, AMOV and AGET put one result in flight; a transfer operation whose descriptor is well formed, of its
kind and fits, on an idle channel, makes the channel busy with it; a busy channel or a bad descriptor faults the core with cause 4; WAITD waits for the channels it names. The
model's readings it rests on: log entries 11, 38. -/
def Obligations.TransfersStartOnAnIdleChannel : Prop :=
  (∀ (s : State) (o : OpM), s.canIssue o.core →
    exec (.aaddi o) s = .next (s.coreDoes o.core o.close (fun x => x.write 0 1 (.a o.an.toNat) (bitsOf 32 ((x.areg o.an.toNat).toNat + inc24 o))))) ∧
  (∀ (s : State) (o : OpS) (an : BitVec 3), s.canIssue o.core →
    exec (.amov o an) s = .next (s.coreDoes o.core o.close (fun x => x.write 0 1 (.a an.toNat) (x.sreg o.sa.toNat).toNat)) ∧
    exec (.aget o an) s = .next (s.coreDoes o.core o.close (fun x => x.write 0 1 (.s o.sd.toNat) (x.areg an.toNat).toNat)) ∧
    exec (.waitd o) s = .next (s.coreDoes o.core o.close (fun x => { x with wait := some (o.imm.toNat % 16) }))) ∧
  (∀ (s : State) (o : OpS), s.canIssue o.core →
    let st := s.opened o.core
    let x := st.core o.core
    let ch := o.imm.toNat % 4
    let r := st.loadBytes o.core (x.sreg o.sa.toNat).toNat 32
    let d := descriptorOf r.1
    let good : Prop := x.dma.getD ch none = none ∧ descriptorForm r.1 = true ∧ st.descriptorFits o.core d = true
    let starts := Host.Outcome.next ((r.2.setCore o.core { (r.2.core o.core) with dma := x.dma.set ch (some d) }).ended o.core o.close)
    let faults := Host.Outcome.next ((r.2.coreFault o.core 4).ended o.core o.close)
    accessFault (x.sreg o.sa.toNat).toNat 32 false = none →
    (good → d.op = 0 → exec (.brickIn o) s = starts) ∧ (good → d.op = 1 → exec (.scratchIn o) s = starts) ∧
    (good → d.op = 2 → exec (.scratchOut o) s = starts) ∧ (good → d.op = 3 → exec (.output o) s = starts) ∧
    (¬ good → exec (.brickIn o) s = faults ∧ exec (.scratchIn o) s = faults ∧ exec (.scratchOut o) s = faults ∧ exec (.output o) s = faults))

/-- The control operations of a core (R184, R185, R189, R194, R198, R199, R204, R205, R211, R212, R220): what each does to its core at issue. Control registers and check units
(R205, R211, R212): MFC reads a register as it stands, MTC lands two bundles later, the check units are fed, seeded and finished in issue order; MFC of an index without a
register leaves a value the spec does not state. The model's readings it rests on: log entries 11, 37, 38. -/
def Obligations.ControlOpsSteerTheirCore : Prop :=
  ((∀ (s : State) (c : Nat) (close : Bool), s.canIssue c →
    exec (.nop c close) s = .next (s.coreDoes c close id) ∧
    exec (.rotDecrement c) s = .next (s.coreDoes c false (fun x => { x with rot := true }))) ∧
  (∀ (s : State) (o : OpC), s.canIssue o.core →
    let does := fun (f : BCore → BCore) => Host.Outcome.next (s.coreDoes o.core o.close f)
    let there := fun (x : BCore) => x.relative (wrapS 13 o.off.toNat)
    let reg := fun (x : BCore) => x.sreg o.s.toNat
    let loop := fun (base : Nat) => does (fun x =>
      { ((x.write 2 1 (.mtc base) (reg x).toNat).write 2 1 (.mtc (base + 1)) o.top.toNat).write 2 1 (.mtc (base + 2)) o.end_.toNat with
        noInt := true, skip := if (reg x).toNat = 0 then some o.end_.toNat else x.skip })
    exec (.br o) s = does (fun x => { x with branch := some (some (there x)) }) ∧
    exec (.brz o) s = does (fun x => { x with branch := some (if reg x = 0 then some (there x) else none) }) ∧
    exec (.brnz o) s = does (fun x => { x with branch := some (if reg x = 0 then none else some (there x)) }) ∧
    exec (.bri o) s = does (fun x => { x with branch := some (some ((reg x).toNat % 4096)) }) ∧
    exec (.call o) s = does (fun x => ({ x with branch := some (some (there x)) } : BCore).write 2 1 (.s 31) (x.pc + 3)) ∧
    exec (.reti o) s = does (fun x => ({ x with branch := some (some (x.keAt 4)) } : BCore).write 2 1 (.ke 1) (x.keAt 5 % 16)) ∧
    exec (.loopa o) s = loop 8 ∧ exec (.loopb o) s = loop 11 ∧
    exec (.dint o) s = does (fun x => x.write 2 1 (.unflag 0) 0) ∧
    exec (.eint o) s = does (fun x => x.write 2 1 (.flag 0) 1) ∧
    exec (.trace o) s = does (fun x => { x with ring := ringPush x.ring (BitVec.ofNat 96 ((reg x).toNat + 2 ^ 32 * (x.pc % 4096) + 2 ^ 64 * x.keAt 0x38)) })) ∧
  (∀ (s : State) (o : OpC) (t : Tick), (s.at t).canIssue o.core →
    exec (.tend o t) s = .next ((s.at t).coreDoes o.core o.close (fun x => { x with tend := true })))) ∧
  (∀ (s : State) (o : OpC), s.canIssue o.core →
    let does := fun (f : BCore → BCore) => Host.Outcome.next (s.coreDoes o.core o.close f)
    let reg := fun (x : BCore) => (x.sreg o.s.toNat).toNat
    let u := o.unit.toNat
    let fed := fun (x : BCore) (start : Nat) (bytes : List Byte) => x.setCrc u (crcFeed (x.keAt (0x40 + u)) start bytes)
    (∀ v, (s.core o.core).mfcRead o.core o.ke.toNat = some v → exec (.mfc o) s = does (fun x => x.write 2 1 (.s o.s.toNat) v)) ∧
    ((s.core o.core).mfcRead o.core o.ke.toNat = none →
      exec (.mfc o) s = .next (s.coreDraws o.core o.close (fun free x => x.write 2 1 (.s o.s.toNat) (free % 2 ^ 32)))) ∧
    (o.ke.toNat < 0x44 ∨ 0x4B < o.ke.toNat →
      exec (.mtc o) s = does (fun x => ({ x with noInt := true } : BCore).write 2 2 (.mtc o.ke.toNat) (reg x))) ∧
    (0x44 ≤ o.ke.toNat → o.ke.toNat ≤ 0x47 → exec (.mtc o) s = does (fun x =>
      ({ x with noInt := true } : BCore).setCrc (o.ke.toNat - 0x44) (x.crcAt (o.ke.toNat - 0x44) / 2 ^ 32 * 2 ^ 32 + reg x))) ∧
    (0x48 ≤ o.ke.toNat → o.ke.toNat ≤ 0x4B → exec (.mtc o) s = does (fun x =>
      ({ x with noInt := true } : BCore).setCrc (o.ke.toNat - 0x48) (x.crcAt (o.ke.toNat - 0x48) % 2 ^ 32 + 2 ^ 32 * reg x))) ∧
    exec (.crcv o) s = does (fun x => fed x (x.crcAt u) (le 64 (x.vreg o.v.toNat).toNat)) ∧
    exec (.crcs o) s = does (fun x => fed x (x.crcAt u) (le (o.k.toNat + 1) (reg x))) ∧
    exec (.crcseed o) s = does (fun x => fed x (2 ^ 64 - 1) (le 8 s.moduleId.toNat ++ le 1 (reg x) ++ le 4 (x.sreg o.sb.toNat).toNat)) ∧
    exec (.crcfin o) s = does (fun x =>
      x.write 2 1 (.s o.s.toNat) (crcFinish (x.keAt (0x40 + u)) (x.keAt (0x44 + u) + 2 ^ 32 * x.keAt (0x48 + u)) % 2 ^ 32)))

/-- What happens to a core while it runs (R184, R201, R205, R206, R209): an instance whose last tile is closed enters its port's ready tile; an interruptible core with a pending
enabled source enters its handler; its timer and its deadline warning make their source pending; a transfer done takes place, frees its channel, sets its done bit and, where
asked, the interrupt, and a core frozen for its channels goes on once they are idle. The model's readings it rests on: log entries 21, 37, 38. -/
def Obligations.CoresFollowTheirEvents : Prop :=
  (∀ (s : State) (t : Tick) (i : Nat) (p : Port) (r : BReady) (b : Bank),
    (s.at t).mode = .running → (∀ y, ((s.at t).inst i).tile = some y → y.closed = true) → (s.at t).tileFor i p = some (r, b) →
    (p = .b → (s.at t).tileFor i .a = none) → exec (.basaltTileEntry t i) s = .next ((s.at t).enterTile i p r b)) ∧
  (∀ (s : State) (c : Nat), s.coreInside c = true → (s.core c).tending = false → (s.core c).interruptible = true → (s.core c).interruptDue = true →
    let s1 := if (s.core c).frozen then s.thaw c else s
    exec (.interruptEntry c) s = .next (s1.withCore c ((s1.core c).enterHandler s1.fresh))) ∧
  (∀ (s : State) (c : Nat), s.coreInside c = true → (s.core c).keAt 7 ≠ 0 → exec (.keTimerExpiry c) s = .next (s.setCore c (((s.core c).keSet 7 0).pend 1))) ∧
  (∀ (s : State) (c : Nat), s.coreInside c = true →
    let warn := (s.inst ((s.core c).inst.getD 0)).par (K.basaltInstDeadlineWarn ((s.core c).inst.getD 0))
    warn ≠ 0 → exec (.deadlineWarn c) s = .next (s.setCore c (((s.core c).keSet 0x35 (min ((s.core c).keAt 0x35) (warn - 1))).pend 2))) ∧
  (∀ (s : State) (c ch : Nat) (d : BDma), (s.core c).dma.getD ch none = some d →
    let s1 := s.transfer c d
    let y : BCore := { (s1.core c) with dma := (s.core c).dma.set ch none }
    let y1 := y.keSet 0x29 (Nat.lor (y.keAt 0x29) (2 ^ ch))
    let s2 := s1.setCore c (if d.irq then y1.keSet 3 (Nat.lor (y1.keAt 3) 1) else y1)
    let z := s2.core c
    (z.frozen = false → (z.tending = false ∨ z.dmaBusy ≠ 0) → exec (.dmaComplete c ch) s = .next s2) ∧
    (z.frozen = true → Nat.land z.dmaBusy (z.wait.getD 0) ≠ 0 → exec (.dmaComplete c ch) s = .next s2) ∧
    (z.frozen = true → Nat.land z.dmaBusy (z.wait.getD 0) = 0 → exec (.dmaComplete c ch) s =
      .next ((s2.thaw c).withCore c (({ ((s2.thaw c).core c) with frozen := false } : BCore).issued (s2.thaw c).fresh))) ∧
    (z.frozen = false → z.tending = true → z.dmaBusy = 0 → exec (.dmaComplete c ch) s = .next ((s2.thaw c).finishTend c)))

/-- Cores that fail and are replaced (R215, R216, R217): a core still inside its entry at the deadline faults with cause 5, and the block is sent when none runs; a core with a
hardware fault is stopped and retired, and a free spare takes its logical number and instance, or the instance is degraded; a spare loaded is ACTIVE with that number and
raises EV_CORE_REPLACED. The model's readings it rests on: log entry 21. -/
def Obligations.CoresFailAndAreReplaced : Prop :=
  (∀ (s : State) (t : Tick) (c i : Nat) (y : BTile), ((s.at t).core c).inst = some i → ((s.at t).inst i).tile = some y → y.closed = false → y.deadline ≤ (s.at t).now →
    (s.at t).coreInside c = true → ((s.at t).core c).tending = false →
    let s1 := ((s.at t).setCore c (((s.at t).core c).keSet 0x35 0)).coreFault c 5
    exec (.kernelDeadline t c) s = .next (if s1.noneRuns i then (s1.closeTile i).basaltSettle else s1)) ∧
  (∀ (s : State) (t : Tick) (c cause : Nat), (s.at t).mode = .running → ((s.at t).core c).role ≠ 2 → 8 ≤ cause → cause ≤ 10 →
    let x := (s.at t).core c
    let s1 := (s.at t).coreStop c cause
    let s2 := (s1.setCore c { (s1.core c) with role := 2 }).publishCore c
    let s3 : State := { s2 with basalt := { s2.basalt with retired := c :: s2.basalt.retired, outOf := c :: s2.basalt.outOf } }
    (x.role = 1 → exec (.coreHardwareFault t c cause) s = .next s3) ∧
    (∀ sp, x.role ≠ 1 → s3.freeSpare = some sp →
      exec (.coreHardwareFault t c cause) s = .next (s3.setCore sp { (s3.core sp) with takes := some (x.logical, x.inst.getD 15) })) ∧
    (∀ i, x.role ≠ 1 → s3.freeSpare = none → x.inst = some i → exec (.coreHardwareFault t c cause) s =
      .next (((s3.setInst i { (s3.inst i) with lost := x.logical :: (s3.inst i).lost }).publishInst i).raise Ev.kernelDegraded [u i, u x.logical]))) ∧
  (∀ (s : State) (t : Tick) (c l i : Nat), (s.at t).mode = .running → ((s.at t).core c).role = 1 → ((s.at t).core c).takes = some (l, i) →
    ∃ y : BCore, y.role = 0 ∧ y.logical = l ∧ y.inst = (if i < 8 then some i else none) ∧ y.run = .gated ∧ y.takes = none ∧
      exec (.spareCoreLoaded t c) s = .next ((((s.at t).setCore c y).publishCore c).raise Ev.coreReplaced [u i, u c, u l]))

/-- Reads of the service protocol (R213, R285, R310, R333, R335, R389): an admitted HELLO, PING, WAKE outside GEODE, STATE_GET, CFG_GET, CFG_DIFF, CFG_LIST, TDC_READ, EVENT_READ
and CAPTURE_LIST changes nothing but what every request changes, and is answered with the body its chapter gives; an error it meets is answered in its place. The model's
readings it rests on: log entries 19, 31. -/
def Obligations.ReadsAnswerAndChangeNothing : Prop :=
  ∀ (s : State) (h : Hdr),
    let a := s.comeIn h
    let reads := fun (c : Instr) (code : Nat) (body : List Byte) (answer : Answer) =>
      s.admits code h body →
      (∀ b more, answer = .ok b more → exec c s = .next (a.answered code h b more)) ∧
      (∀ r i p q, answer = .err r i p q → r ≠ E.busy → exec c s = .next (a.failed code h r i p q))
    (∀ protocol, reads (.hello h protocol) 0x0001 (le 1 protocol ++ le 3 h.pad) (if protocol = 1 then .ok a.helloBody false else Answer.fail E.format)) ∧
    reads (.ping h) 0x0002 [] (.ok [] false) ∧
    reads (.wake h) 0x0084 [] (.ok [] false) ∧
    reads (.stateGet h) 0x0080 [] (.ok a.stateBody false) ∧
    (∀ cursor paths, reads (.cfgGet h cursor paths) 0x0010 (le 4 cursor ++ le 2 paths.length ++ paths.flatMap str) (a.cfgGet h.draft cursor paths)) ∧
    (∀ cursor, reads (.cfgDiff h cursor) 0x0014 (le 4 cursor) (page ((diffKeys a.cfg.draft a.cfg.live).map (fun k => str k.path)) cursor)) ∧
    (∀ cursor stem, reads (.cfgList h cursor stem) 0x0015 (le 4 cursor ++ str stem)
      (if pathFits stem then page ((listKeys stem).map listItem) cursor else Answer.fail E.format)) ∧
    (∀ input start limit, reads (.tdcRead h input start limit) 0x0021 (le 1 input ++ le 3 h.pad ++ le 4 start ++ le 2 limit) (a.tdcRead input start limit)) ∧
    (∀ start limit, reads (.eventRead h start limit) 0x0051 (le 4 start ++ le 2 limit) (a.eventRead start limit)) ∧
    (∀ cursor, reads (.captureList h cursor) 0x0044 (le 4 cursor) (page (a.trig.captures.map Capture.item) cursor))

/-- More reads (R220, R335, R358, R401, R404, R407, R408, R409): KERNEL_SNAPSHOT, ENS_STATUS, ENS_MEMBERS, LOG_READ, SELFTEST_RESULT, LINK_RESULT, TELEMETRY_READ, LIFE_READ;
ENS_MEMBERS and an unbounded LINK_RESULT draw values the spec leaves open. The model's readings it rests on: log entries 19, 31, 48, 49. -/
def Obligations.StatusReadsAnswer : Prop :=
  ∀ (s : State) (h : Hdr),
    let a := s.comeIn h
    let reads := fun (c : Instr) (code : Nat) (body : List Byte) (answer : Answer) =>
      s.admits code h body →
      (∀ b more, answer = .ok b more → exec c s = .next (a.answered code h b more)) ∧
      (∀ r i p q, answer = .err r i p q → r ≠ E.busy → exec c s = .next (a.failed code h r i p q))
    (∀ core offset length, reads (.kernelSnapshot h core offset length) 0x0032 (le 1 core ++ le 3 h.pad ++ le 4 offset ++ le 4 length)
      (a.kernelSnapshot core offset length)) ∧
    reads (.ensStatus h) 0x0090 [] (.ok (le 8 a.ensId ++ le 4 (a.roGet K.ensEpoch) ++ le 1 (a.roGet K.ensStatus) ++ le 1 (a.roGet K.ensMajor) ++
      le 2 (a.roGet K.ensMembers) ++ le 4 (a.roGet K.ensTxnLast) ++ le 1 (a.roGet K.ensTxnState) ++ le 1 (a.roGet K.ensTimeState) ++ le 2 (a.roGet K.ensTimeNear) ++
      le 4 (a.roGet K.ensTimeDeviation)) false) ∧
    (∀ cursor b more, s.admits 0x0091 h (le 4 cursor) →
      let rows := if a.ensId = 0 then [] else a.tableIds.zipIdx.map (fun e => match a.member e.1 with
        | some m => a.memberRow e.2 m
        | none => a.ownRow)
      page rows cursor = .ok b more →
        exec (.ensMembers h cursor) s = .next (({ a with fresh := a.fresh + 2 * rows.length } : State).answered 0x0091 h b more)) ∧
    (∀ start limit, reads (.logRead h start limit) 0x00A0 (le 4 start ++ le 2 limit ++ le 2 h.pad)
      (if limit = 0 ∨ 256 < limit then Answer.fail E.format
       else ringRead ((a.roGet K.healthLogNext + 4294967296 - a.health.log.length) % 4294967296) (a.roGet K.healthLogNext) (a.health.log.reverse.map logBytes) start limit)) ∧
    reads (.selftestResult h) 0x00A2 [] (.ok (le 1 a.health.selftest.mask ++ le 1 a.health.selftest.failed ++ le 1 a.health.selftest.skipped ++
      le 1 (b2n a.health.selftest.running) ++ tsBytes (a.health.selftest.completed.getD 0) ++
      (List.range 6).flatMap (fun i => le 4 (a.health.selftest.details.getD i 0))) false) ∧
    (∀ link x, s.admits 0x00A4 h (le 1 link) → link < 10 → a.linkTest link = some x → x.until_ = none → x.bits ≠ 0 →
      exec (.linkResult h link) s = .next (a.answered 0x00A4 h (le 8 x.bits ++ le 8 x.errors ++ le 4 (f32Round (mkRat 3 x.bits))) false)) ∧
    (∀ link x, s.admits 0x00A4 h (le 1 link) → link < 10 → a.linkTest link = some x → x.until_ = none → x.bits = 0 →
      exec (.linkResult h link) s = .next (a.drawn.answered 0x00A4 h (le 8 0 ++ le 8 x.errors ++ le 4 (a.freeVal 32)) false)) ∧
    (∀ start limit, reads (.telemetryRead h start limit) 0x00A5 (le 4 start ++ le 2 limit)
      (if limit = 0 ∨ 240 < limit then Answer.fail E.format
       else ringRead ((a.health.telNext + 4294967296 - a.health.telemetry.length) % 4294967296) a.health.telNext (a.health.telemetry.reverse.map telBytes) start limit)) ∧
    reads (.lifeRead h) 0x00A6 [] (.ok (le 4 (a.roGet K.healthLifeHours) ++ (List.range 12).flatMap (fun i => le 4 (a.roGet (K.healthLifeTempBin i))) ++
      le 2 (a.roGet K.healthLifeEfcUsed) ++ le 1 (a.roGet K.healthLifeWarnings)) false)

/-- Changes of the configuration (R278, R324, R327, R333, R335): CFG_SET stores every entry in the draft or none, CFG_DISCARD makes the draft the live set, each with a new draft
revision, and the draft remembers whether it has been given sched.lock.role; CFG_COMMIT makes a valid draft the live set under the next epoch and queues its swap; a refused
one is counted; CFG_SAVE and CFG_ERASE go on in the background; TIME_SET needs a PPS, EVENT_SUBSCRIBE sets its session's mask. The model's readings it rests on: log entries
28, 29, 31. -/
def Obligations.ConfigurationRequestsActOnTheDraft : Prop :=
  ∀ (s : State) (h : Hdr),
    let a := s.comeIn h
    let wrote := fun (role : Bool) (y : State) => ({ y with cfg := { y.cfg with wroteRole := role } } : State)
    (∀ entries d, s.admits 0x0011 h (le 2 entries.length ++ entries.flatMap (fun e => str e.path ++ valBytes e.val)) → a.cfg.frozen = false →
      entries ≠ [] → entries.length ≤ 256 → entries.all (fun e => pathFits e.path && Val.formed e.val) = true → setEntries 0 entries a.cfg.draft = .inr d →
      exec (.cfgSet h entries) s = .next ((wrote (a.cfg.wroteRole || entries.any (fun e => keyOfPath e.path == some K.schedLockRole)) (a.setDraft d)).answered 0x0011 h (le 4 ((a.cfg.draftRev + 1) % 4294967296)) false)) ∧
    (∀ entries i code path, s.admits 0x0011 h (le 2 entries.length ++ entries.flatMap (fun e => str e.path ++ valBytes e.val)) → a.cfg.frozen = false →
      entries ≠ [] → entries.length ≤ 256 → entries.all (fun e => pathFits e.path && Val.formed e.val) = true →
      setEntries 0 entries a.cfg.draft = .inl (code, i, path) → code ≠ E.busy →
      exec (.cfgSet h entries) s = .next (a.failed 0x0011 h code i path "")) ∧
    (s.admits 0x0013 h [] → a.cfg.frozen = false →
      exec (.cfgDiscard h) s = .next ((wrote false (a.setDraft a.cfg.live)).answered 0x0013 h (le 4 ((a.cfg.draftRev + 1) % 4294967296)) false)) ∧
    (∀ rev mode named, s.admits 0x0012 h (le 4 rev.toNat ++ le 1 mode ++ le 3 h.pad ++ ts96Bytes named) → mode ≤ 1 → a.cfg.frozen = false →
      let at_ : Option TS96 := if mode = 1 then some named else none
      let r := a.validated.acceptCommit at_ h.client.toNat h.request.toNat none
      a.validate rev at_ = none →
        exec (.cfgCommit h rev mode named) s = .next (r.1.answered 0x0012 h (r.1.commitBody r.2 (a.cfg.draft.diff a.cfg.live)) false)) ∧
    (∀ rev mode named result i p q, s.admits 0x0012 h (le 4 rev.toNat ++ le 1 mode ++ le 3 h.pad ++ ts96Bytes named) → mode ≤ 1 → a.cfg.frozen = false →
      a.validate rev (if mode = 1 then some named else none) = some (.err result i p q) → result ≠ E.busy →
        exec (.cfgCommit h rev mode named) s = .next ((a.validated.bump K.ncpCommitsRefused 1).failed 0x0012 h result i p q)) ∧
    (s.admits 0x0016 h [] → exec (.cfgSave h) s = .next (a.deferred 0x0016 h (.cfgSave a.cfg.live))) ∧
    (s.admits 0x0017 h [] → exec (.cfgErase h) s = .next (a.deferred 0x0017 h .cfgErase)) ∧
    (∀ seconds utc, s.admits 0x0020 h (le 8 seconds.toNat ++ le 2 utc.toNat ++ le 2 h.pad) → a.roGet K.timebasePpsPresent ≠ 0 →
      exec (.timeSet h seconds utc) s = .next (((a.withTime { a.time with pps := { a.time.pps with pendingSet := some seconds.toNat } }).roSet K.timebaseUtcOffset
        utc.toNat).answered 0x0020 h [] false)) ∧
    (∀ seconds utc, s.admits 0x0020 h (le 8 seconds.toNat ++ le 2 utc.toNat ++ le 2 h.pad) → a.roGet K.timebasePpsPresent = 0 →
      exec (.timeSet h seconds utc) s = .next (a.failed 0x0020 h E.state 0xFFFF "" "")) ∧
    (∀ mask, s.admits 0x0050 h (le 32 mask.toNat) →
      exec (.eventSubscribe h mask) s = .next ((a.setPair h.pair { a.pair h.pair with mask := mask }).answered 0x0050 h (le 4 (a.roGet K.ncpEventNext)) false))

/-- Kernel images and captures (R214, R238, R239, R240, R243): an admitted KERNEL_LOAD of a free slot takes its chunk, KERNEL_UNLOAD empties a free slot and its flash copy;
CAPTURE_AT opens a capture at a time the ring still holds, CAPTURE_SEND queues one on a capture stream, CAPTURE_DERIVE queues a derivation, CAPTURE_RELEASE frees a capture or
marks it where something still uses it. The model's readings it rests on: log entries 31, 45. -/
def Obligations.LoadsAndCapturesTakeEffect : Prop :=
  ∀ (s : State) (h : Hdr),
    let a := s.comeIn h
    let loads := fun (k flags offset imageBytes : Nat) (data : List Byte) => le 1 k ++ le 1 flags ++ le 2 h.pad ++ le 4 offset ++ le 4 imageBytes ++ data
    let free := fun (k : Nat) => k < 8 ∧ a.slotTaken k = false ∧ ((a.slot k).releasing || a.slotInUse k) = false
    (∀ k flags imageBytes data, s.admits 0x0030 h (loads k flags 0 imageBytes data) → free k → imageBytes ≤ 1048576 → data.length ≤ imageBytes →
      (bitOf flags 0 && !(a.persistFits k imageBytes)) = false → bitOf flags 1 = false →
      exec (.kernelLoad h k flags 0 imageBytes data) s =
        .next ((a.putImage k [] (some (h.client, imageBytes, bitOf flags 0, data))).answered 0x0030 h (le 4 data.length) false)) ∧
    (∀ k flags offset imageBytes persistent got data, s.admits 0x0030 h (loads k flags offset imageBytes data) → free k → imageBytes ≤ 1048576 → offset ≠ 0 →
      (a.slot k).loading = some (h.client, imageBytes, persistent, got) → offset = got.length → (got ++ data).length = imageBytes → bitOf flags 0 = false → bitOf flags 1 = true →
      imageOk (got ++ data) = true →
      exec (.kernelLoad h k flags offset imageBytes data) s =
        .next ((a.putImage k (got ++ data) none).answered 0x0030 h (le 4 (got ++ data).length ++ le 4 (imageCheck (got ++ data))) false)) ∧
    (∀ k, s.admits 0x0031 h (le 1 k ++ le 3 h.pad) → free k →
      exec (.kernelUnload h k) s = .next ((({ a with basalt := { a.basalt with stored := a.basalt.stored.filter (fun e => e.1 != k) } } : State).putImage k [] none).answered
        0x0031 h [] false)) ∧
    (∀ trigger profile t n, h.pair ≠ 7 → s.admits 0x0040 h (ts96Bytes trigger ++ le 1 profile ++ le 3 h.pad) → tsOk (TS96bits trigger) = true → profile ≤ 7 →
      a.prefillShort profile (stampOfBits (TS96bits trigger)) = false → a.openCapture profile (stampOfBits (TS96bits trigger)) 0 true none 0 = (t, some n) →
      exec (.captureAt h trigger profile) s = .next (t.answered 0x0040 h (le 4 n) false)) ∧
    (∀ n sid c, s.admits 0x0041 h (le 4 n ++ le 1 sid ++ le 3 h.pad) → a.usable? n = .inr c → sid ≤ 15 → a.captureStream sid = true →
      exec (.captureSend h n sid) s = .next ((a.sendCapture n sid).answered 0x0041 h [] false)) ∧
    (∀ r c, s.admits 0x0042 h (deriveBytes r h.pad) → a.usable? r.capture = .inr c → deriveFits r c = true → a.captureStream r.stream = true → a.trig.derives.length < 9 →
      exec (.captureDerive h r) s = .next ((({ a with trig := { a.trig with derives := a.trig.derives ++ [r] } } : State).modCapture r.capture
        (fun x => { x with derives := x.derives + 1 })).answered 0x0042 h (le 1 a.trig.derives.length) false)) ∧
    (∀ n c, s.admits 0x0043 h (le 4 n) → a.capture n = some c →
      exec (.captureRelease h n) s = .next ((a.releaseCapture n).answered 0x0043 h (le 1 (if c.uses = 0 then 0 else 1)) false))

/-- The firmware update (R337, R338, R339): FW_BEGIN erases the image that does not run and takes ownership, FW_WRITE takes the next chunk and FW_FINISH the whole image to the
background, FW_ACTIVATE marks a VALID inactive image TRIAL and ends the update, FW_CONFIRM makes the trial image ACTIVE, raises the security level and revokes keys; every one
of them is refused with E_IN_USE while another client owns the update. The model's readings it rests on: log entry 46. -/
def Obligations.FirmwareUpdatesActOnTheInactiveImage : Prop :=
  ∀ (s : State) (h : Hdr),
    let a := s.comeIn h
    let mine := a.fwForeign h.client = false
    let p := a.fw.target
    let refused := fun (c : Instr) (code : Nat) (body : List Byte) =>
      s.admits code h body → a.fwForeign h.client = true → exec c s = .next (a.failed code h E.inUse 0xFFFF "" "")
    (∀ bytes, s.admits 0x0060 h (le 4 bytes) → mine → bytes ≤ 50331648 → a.fw.trial = false → a.finishing = false → (a.fw.running ≠ p ∨ a.power.recovery = true) →
      let b := a.imageNow p ⟨.writing, 0, 0, 0, [], false⟩
      exec (.fwBegin h bytes) s = .next (({ b with fw := { b.fw with owner := some h.client, expected := bytes, received := 0 },
                                                   jobs := b.jobs.map (fun j => match j.work with
                                                     | .fwWrite n _ => { j with work := .fwWrite n [] }
                                                     | _ => j) } : State).answered 0x0060 h (le 1 p.idx) false)) ∧
    (∀ offset data, s.admits 0x0061 h (le 4 offset ++ data) → mine → a.fw.owner = some h.client → (a.fw.image p).state = .writing → a.finishing = false →
      offset = a.fw.received → offset + data.length ≤ a.fw.expected →
      exec (.fwWrite h offset data) s = .next (({ a with fw := { a.fw with received := offset + data.length } } : State).deferred 0x0061 h
        (.fwWrite (offset + data.length) data))) ∧
    (s.admits 0x0062 h [] → mine → a.fw.owner = some h.client → (a.fw.image p).state = .writing → a.finishing = false → a.fw.received = a.fw.expected →
      exec (.fwFinish h) s = .next (a.deferred 0x0062 h .fwFinish)) ∧
    (∀ image, s.admits 0x0063 h (le 1 image) → mine → image ≤ 1 → a.fw.active ≠ Port.ofIdx image → (a.fw.image (Port.ofIdx image)).state = .valid →
      exec (.fwActivate h image) s = .next ((({ a with fw := { a.fw with owner := none } } : State).imageNow (Port.ofIdx image)
        { a.fw.image (Port.ofIdx image) with state := .trial }).answered 0x0063 h [] false)) ∧
    (s.admits 0x0064 h [] → mine → a.fw.trial = true →
      ∃ b : State, exec (.fwConfirm h) s = .next (b.answered 0x0064 h [] false) ∧ b.fw.trial = false ∧ b.fw.active = a.fw.running ∧
        b.fw.minSecurity = max a.fw.minSecurity (a.fw.image a.fw.running).security ∧ b.fw.revoked = Nat.lor a.fw.revoked (a.fw.image a.fw.running).revoke ∧
        (b.fw.image a.fw.running).state = .active ∧ (b.fw.image a.fw.running.other).state = .valid) ∧
    (∀ bytes, refused (.fwBegin h bytes) 0x0060 (le 4 bytes)) ∧
    (∀ offset data, refused (.fwWrite h offset data) 0x0061 (le 4 offset ++ data)) ∧
    refused (.fwFinish h) 0x0062 [] ∧ (∀ image, refused (.fwActivate h image) 0x0063 (le 1 image)) ∧ refused (.fwConfirm h) 0x0064 []

/-- Work in the background (R311, R337, R338): BACKGROUND_COMMAND_COMPLETE ends the oldest job and answers its request: a saved set is stored, a chunk joins its image, a genuine
image that is new enough becomes VALID with its version and security level and any other INVALID; where the flash work failed the answer is E_FW_FLASH and what flash held
stays. The model's readings it rests on: log entries 45, 46. -/
def Obligations.BackgroundWorkEndsWithItsAnswer : Prop :=
  ∀ (s : State) (t : Tick) (flashOk : Bool),
    let a := s.at t
    (s.jobs = [] → exec (.backgroundCommandComplete t flashOk) s = .next a) ∧
    (∀ j js, s.jobs = j :: js →
      let ends := fun (b : State) (result : Nat) (body : List Byte) => exec (.backgroundCommandComplete t flashOk) s = .next (b.answerJob j result body)
      let x := a.fw.image a.fw.target
      (∀ set, j.work = .cfgSave set → flashOk = true →
        ends { a with cfg := { a.cfg with stored := some set }, power := { a.power with storedBad := false } } E.ok []) ∧
      (j.work = .cfgErase → flashOk = true → ends { a with cfg := { a.cfg with stored := none }, power := { a.power with storedBad := false } } E.ok []) ∧
      (∀ n data, j.work = .fwWrite n data → flashOk = true → x.state = .writing → ends (a.setImage a.fw.target { x with content := x.content ++ data }) E.ok (le 4 n)) ∧
      (j.work = .fwFinish → flashOk = true →
        let invalid := ({ a with fw := { a.fw with owner := none } } : State).imageNow a.fw.target { x with state := .invalid }
        exec (.backgroundCommandComplete t flashOk) s = .next
          (if a.fwGenuine x.content = false then invalid.answerJob j E.fwSignature (errorBody 0xFFFF "" "")
           else if fieldLe x.content 12 4 < a.fw.minSecurity then invalid.answerJob j E.fwRollback (errorBody 0xFFFF "" "")
           else (a.imageNow a.fw.target { x with state := .valid, version := fieldLe x.content 8 4, security := fieldLe x.content 12 4,
                                                 revoke := fieldLe x.content 21 1 }).answerJob j E.ok (slice x.content 8 4 ++ slice x.content 12 4))) ∧
      (∀ k n check, j.work = .kernelPersist k n check → flashOk = true → (a.slot k).image.length = n → imageCheck (a.slot k).image = check →
        ends (({ a with basalt := { a.basalt with stored := a.basalt.stored.filter (fun e => e.1 != k) ++ [(k, (a.slot k).image)] } } : State).publishImage k)
          E.ok (le 4 n ++ le 4 check)) ∧
      (j.work ≠ .fwFinish → flashOk = false → ends a E.fwFlash (errorBody 0xFFFF "" "")))

/-- State commands (R335, R369, R375, R376, R380): RESET answers and then enters BOOT; RUN asks for a run; STOP withdraws it and ends measuring; GEODE_ENTER answers and then
enters GEODE; BEDROCK_FORCE enters BEDROCK from RUNNING and sets its cause in BEDROCK, and its release clears it; outside the states they name they are refused with E_STATE.
The model's readings it rests on: log entries 32, 47. -/
def Obligations.StateCommandsMoveTheModule : Prop :=
  ∀ (s : State) (h : Hdr),
    let a := s.comeIn h
    let force := le 1 1 ++ le 3 h.pad
    let release := le 1 0 ++ le 3 h.pad
    (s.admits 0x0070 h (le 1 0 ++ le 3 h.pad) → exec (.reset h) s = .next ((a.answered 0x0070 h [] false).enterBoot Cause.reset false)) ∧
    (s.admits 0x0081 h [] → a.mode.working = true → a.health.selftest.running = false →
      exec (.run h) s = .next ((a.withPower { a.power with runAsked := true }).answered 0x0081 h [] false)) ∧
    (s.admits 0x0082 h [] → a.mode.working = true →
      let b := a.withPower { a.power with runAsked := false }
      exec (.stop h) s = .next ((if a.mode.measuring then b.toReady else b).answered 0x0082 h [] false)) ∧
    (∀ deep mask wake, s.admits 0x0083 h (geodeBody deep mask wake h.pad) → a.mode.working = true → a.health.selftest.running = false → deep ≤ 1 → mask % 32 ≠ 0 →
      tsOk (TS96bits wake) = true → (bitOf mask 3 = true → a.stamp < stampOfBits (TS96bits wake)) →
      exec (.geodeEnter h deep mask wake) s =
        .next ((a.answered 0x0083 h [] false).enterGeode (deep == 1) mask (stampOfBits (TS96bits wake)) false Cause.geodeEnter)) ∧
    (s.admits 0x0085 h force → a.mode = .running →
      let b := a.withPower { a.power with forced := true }
      exec (.bedrockForce h) s = .next ((b.enterBedrock b.causesNow).answered 0x0085 h [] false)) ∧
    (s.admits 0x0085 h force → a.mode = .bedrock → exec (.bedrockForce h) s = .next ((a.withPower { a.power with forced := true }).evalLevel.answered 0x0085 h [] false)) ∧
    (s.admits 0x0085 h release → a.mode = .running → exec (.bedrockRelease h) s = .next ((a.withPower { a.power with forced := false }).answered 0x0085 h [] false)) ∧
    (s.admits 0x0085 h release → a.mode = .bedrock → exec (.bedrockRelease h) s = .next ((a.withPower { a.power with forced := false }).evalLevel.answered 0x0085 h [] false)) ∧
    (s.admits 0x0081 h [] → a.mode.working = false → exec (.run h) s = .next (a.failed 0x0081 h E.state 0xFFFF "" "")) ∧
    (s.admits 0x0082 h [] → a.mode.working = false → exec (.stop h) s = .next (a.failed 0x0082 h E.state 0xFFFF "" "")) ∧
    (s.admits 0x0085 h force → a.mode.measuring = false → exec (.bedrockForce h) s = .next (a.failed 0x0085 h E.state 0xFFFF "" "")) ∧
    (s.admits 0x0085 h release → a.mode.measuring = false → exec (.bedrockRelease h) s = .next (a.failed 0x0085 h E.state 0xFFFF "" ""))

/-- Tests on request, ensemble requests and the rest of the service protocol (R336, R344, R348, R357, R404, R407). SELFTEST in the states of every test it names, with no test
running, starts them; LINK_TEST starts a link's test in READY, and in RUNNING that of link 0 to its partner, where it has one; ENS_FORGET drops an absent member; ENS_COMMIT
opens a transaction for the members asked that take part, this module among them, and excludes the others; ENS_CAPTURE_AT asks every other module asked that is no OBSERVER,
notes E_ENSEMBLE for an OBSERVER, and captures on this module where it is asked; a command code that is not in the table answers E_COMMAND, and a body that its row does not
fit E_FORMAT. The model's readings it rests on: log entries 31, 48, 49, 50, 54. -/
def Obligations.TestsAndEnsembleRequests : Prop :=
  ∀ (s : State) (h : Hdr),
    let a := s.comeIn h
    (∀ mask, s.admits 0x00A1 h (le 1 mask ++ le 3 h.pad) → mask < 64 → a.health.selftest.running = false → (∀ i ∈ testsOf mask, a.testAllowed i = true) →
      let runs : SelfTest := ⟨mask, 0, sumN (((testsOf mask).filter a.testSkipped).map (2 ^ ·)), true, a.now, none, List.replicate 6 0⟩
      let b := (a.withHealth { a.health with selftest := runs }).roSet K.healthSelftestState 1
      (bitOf mask 3 = false ∨ b.spareRank = none ∨ b.mem.spareTest.isSome = true → exec (.selftest h mask) s = .next (b.answered 0x00A1 h [] false)) ∧
      (∀ r, bitOf mask 3 = true → b.spareRank = some r → b.mem.spareTest = none → exec (.selftest h mask) s = .next
        (((b.withMem { b.mem with spareTest := some b.now, spareLast := b.now }).setRank r { b.rank r with selfRefresh := false }).answered 0x00A1 h [] false))) ∧
    (∀ mask i, s.admits 0x00A1 h (le 1 mask ++ le 3 h.pad) → mask < 64 → i ∈ testsOf mask → a.testAllowed i = false →
      exec (.selftest h mask) s = .next (a.failed 0x00A1 h E.state 0xFFFF "" "")) ∧
    (∀ link pattern seconds peer, s.admits 0x00A3 h (le 1 link ++ le 1 pattern ++ le 2 seconds ++ le 8 peer.toNat) → link < 10 → pattern < 4 → 1 ≤ seconds → seconds ≤ 3600 →
      a.linkTesting link = false →
      let runs := exec (.linkTest h link pattern seconds peer) s
      (a.mode = .ready → (link ≠ 0 ∨ peer = 0) → runs = .next ((a.linkTestStart link pattern seconds none).answered 0x00A3 h [] false)) ∧
      (a.mode = .ready → link = 0 → peer ≠ 0 → runs = .next ((a.drawn.linkTestStart link pattern seconds a.partnerPort).answered 0x00A3 h [] false)) ∧
      (a.mode = .running → link = 0 → peer ≠ 0 → runs = .next (match a.partnerPort with
        | some p => (a.drawn.linkTestStart link pattern seconds (some p)).answered 0x00A3 h [] false
        | none => a.drawn.failed 0x00A3 h E.state 0xFFFF "" ""))) ∧
    (∀ id m, s.admits 0x0094 h (le 8 id.toNat) → a.member id = some m → m.absent.isSome = true →
      exec (.ensForget h id) s = .next ((a.dropMember id).answered 0x0094 h [] false)) ∧
    (∀ id m, s.admits 0x0094 h (le 8 id.toNat) → a.member id = some m → m.absent = none → exec (.ensForget h id) s = .next (a.failed 0x0094 h E.state 0xFFFF "" "")) ∧
    (∀ named policy members, s.admits 0x0092 h (ts96Bytes named ++ le 1 policy ++ le 1 members.length ++ le 2 h.pad ++ members.flatMap (fun e => le 8 e.1.toNat ++ le 4 e.2)) →
      policy ≤ 1 → members.length ≤ 128 → a.ensRefused (members.map (·.1)) = false → a.ens.coord = none →
      (policy = 1 ∨ ∀ id ∈ a.tableIds, (a.statusById id).getD 0 = 2 ∨ takesPart ((a.statusById id).getD 0) = true) → a.namedOk named = true →
      let asked := if members = [] then a.tableIds else members.map (·.1)
      let all := (if asked.contains a.moduleId then asked else a.moduleId :: asked).eraseDups
      let takes := fun (id : BitVec 64) => decide (id = a.moduleId) || takesPart ((a.statusById id).getD 5)
      let revision := fun (id : BitVec 64) => ((members.find? (fun e => e.1 == id)).map (·.2)).getD 0
      let r := a.openTxn named (policy == 1) ((all.filter takes).map (fun id => (id, revision id))) (all.filter (fun id => !takes id))
      exec (.ensCommit h named policy members) s = .next (r.1.answered 0x0092 h (le 4 r.2) false)) ∧
    (∀ trigger profile members, s.admits 0x0093 h (ts96Bytes trigger ++ le 1 profile ++ le 1 members.length ++ le 2 h.pad ++ members.flatMap (fun id => le 8 id.toNat)) →
      tsOk (TS96bits trigger) = true → profile ≤ 7 → members.length ≤ 128 → a.ensRefused members = false →
      let status := fun (id : BitVec 64) => (a.statusById id).getD 5
      let asked := if members = [] then a.tableIds.filter (fun id => status id != 2 && status id != 5) else members.eraseDups
      let txn := (a.ens.count + 1) % 4294967296
      let b := (a.withEns { a.ens with count := txn, caps := a.ens.caps ++ [⟨txn, a.now, asked, []⟩] }).roSet K.ensTxnLast txn
      let sent := (asked.filter (fun id => decide (id ≠ a.moduleId) && status id != 2)).foldl
        (fun (y : State) id => y.sendPeer id 0x40 (ts96Bytes trigger ++ le 1 profile ++ le 3 0)) b
      let noted := (asked.filter (fun id => decide (id ≠ a.moduleId) && status id == 2)).foldl (fun (y : State) id => y.captureAnswer id txn E.ensemble 0) sent
      let own := noted.captureFor (stampOfBits (TS96bits trigger)) profile
      let answers := fun (y : State) => exec (.ensCaptureAt h trigger profile members) s = .next (y.answered 0x0093 h (le 4 txn) false)
      (asked.contains a.moduleId = false → answers noted) ∧
      (∀ code, asked.contains a.moduleId = true → own.2 = .inl code → answers (own.1.captureAnswer a.moduleId txn code 0)) ∧
      (∀ n, asked.contains a.moduleId = true → own.2 = .inr n → answers (own.1.captureAnswer a.moduleId txn 0 n))) ∧
    (∀ (code : BitVec 16) body, s.admits code.toNat h body → (∀ e ∈ bodySizes, e.1 ≠ code.toNat) →
      exec (.unknownCommand h code body) s = .next (a.failed code.toNat h E.command 0xFFFF "" "")) ∧
    (∀ (code : BitVec 16) body e, s.admits code.toNat h body → e ∈ bodySizes → e.1 = code.toNat → bodyFits code.toNat body.length = false →
      exec (.unknownCommand h code body) s = .next (a.failed code.toNat h E.format 0xFFFF "" ""))

/-- Membership of an ensemble (R342, R343, R344): a peer found is contacted; a heartbeat of the ensemble refreshes or admits its sender, one of another ensemble drops it, and one
whose table digest differs brings the table; heartbeats go out every second; a table brings contact with each unknown member; an idle connection closes after 60 s; a member
unheard for `ens.lost_s` is ABSENT, and after `ens.forget_s` forgotten. The model's readings it rests on: log entries 20, 21, 50. -/
def Obligations.MembersComeAndGo : Prop :=
  ∀ (s : State) (t : Tick),
    let a := s.at t
    (∀ id addr, a.peersServed = true → id ≠ a.moduleId → exec (.dnssdPeerFound t id addr) s = .next (a.contact id)) ∧
    (∀ id addr, a.peersServed = false ∨ id = a.moduleId → exec (.dnssdPeerFound t id addr) s = .next a) ∧
    (∀ m : Heartbeat, a.peersServed = true → m.checkOk = true → m.id ≠ a.moduleId → m.ensId.toNat = a.ensId →
      let b := match a.member m.id with
        | none => a.enlist m
        | some x => (a.setMember { x with hb := some m, heard := a.now, heardAt := a.stamp, absent := none }).ensRefresh
      exec (.heartbeat t m) s = .next (if (b.member m.id).isSome = true ∧ m.tableDigest ≠ Config.tableDigest b.tableIds then b.sendTable m.id else b)) ∧
    (∀ m : Heartbeat, a.peersServed = true → m.checkOk = true → m.id ≠ a.moduleId → m.ensId.toNat ≠ a.ensId →
      exec (.heartbeat t m) s = .next (if (a.member m.id).isSome = true then a.dropMember m.id else a)) ∧
    (∀ m : Heartbeat, m.checkOk = false → exec (.heartbeat t m) s = .next a) ∧
    (a.peersServed = true → a.ens.hbAt + secondTicks ≤ a.now →
      let b := a.ens.members.foldl (fun st m => st.beat st.ensId m.id) (a.withEns { a.ens with hbAt := a.now })
      exec (.heartbeatSend t) s = .next (((List.range 16).filter (fun j => b.pG (K.ensSeedAddr j) != 0)).foldl (fun st j => st.linksUp.foldl (fun st2 p =>
        st2.emit (.datagram p (st2.pG K.ensPeerPort) (BitVec.ofNat 128 (st2.pG (K.ensSeedAddr j))) (st2.pG K.ensPeerPort) (st2.peerMessage st2.ensId 0xF0 st2.heartbeatBody))) st) b)) ∧
    (a.now < a.ens.hbAt + secondTicks → exec (.heartbeatSend t) s = .next a) ∧
    (∀ id members, a.peersServed = true → id ≠ a.moduleId →
      let b := (a.heardFrom id).useConn id
      let c := (members.filter (fun x => decide (x ≠ b.moduleId) && (b.member x).isNone)).foldl State.contact b
      exec (.table t id members) s = .next (if ∃ x ∈ c.tableIds, x ∉ members then c.sendTable id else c)) ∧
    (∀ peer used, (peer, used) ∈ a.ens.conns → used + 60 * secondTicks ≤ a.now →
      exec (.peerConnectionIdle t peer) s = .next ((a.withEns { a.ens with conns := a.ens.conns.filter (fun e => !(e.1 == peer)) }).emit (.closed 7))) ∧
    (∀ id m, a.peersServed = true → a.member id = some m → m.absent = none → m.heard + a.pG K.ensLostS * secondTicks ≤ a.now →
      exec (.memberLost t id) s = .next (a.setMember { m with absent := some a.now }).ensRefresh) ∧
    (∀ id m, a.member id = some m → a.now < m.heard + a.pG K.ensLostS * secondTicks → exec (.memberLost t id) s = .next a) ∧
    (∀ id m gone, a.member id = some m → m.absent = some gone → gone + a.pG K.ensForgetS * secondTicks ≤ a.now →
      exec (.memberForget t id) s = .next (a.dropMember id)) ∧
    (∀ id m gone, a.member id = some m → m.absent = some gone → a.now < gone + a.pG K.ensForgetS * secondTicks → exec (.memberForget t id) s = .next a)

/-- Transactions of an ensemble (R343, R349, R350, R351, R352): PREPARE of a member is judged once and answered with its vote; a vote joins the transaction it is for, which is
decided when every participant has voted and at its deadline; DECIDE closes the prepared transaction; one in doubt asks for its outcome 250 ms before its instant and aborts
100 ms before it where none was learnt. The model's readings it rests on: log entries 21, 49, 50. -/
def Obligations.TransactionsRunTheirCourse : Prop :=
  ∀ (s : State) (t : Tick),
    let a := s.at t
    (∀ (m : Prepare) (x : Member), a.peersServed = true → m.checkOk = true → a.member m.coordinator = some x →
      let b := a.heardFrom m.coordinator
      let r := b.joinTxn m.coordinator m.txn m.named (stampOfBits (TS96bits m.deadline)) m.draftRev m.major
      b.ens.voted.find? (fun e => e.1 == m.coordinator && e.2.1 == m.txn) = none →
        exec (.prepare t m) s = .next (r.1.sendPeer m.coordinator 0xF4 (voteBody r.2.1 r.2.2))) ∧
    (∀ (m : Prepare) (x : Member) e, a.peersServed = true → m.checkOk = true → a.member m.coordinator = some x →
      let b := a.heardFrom m.coordinator
      b.ens.voted.find? (fun e => e.1 == m.coordinator && e.2.1 == m.txn) = some e →
        exec (.prepare t m) s = .next (b.sendPeer m.coordinator 0xF4 (voteBody e.2.2 (if e.2.2.result = 0 then [] else errorBody 0xFFFF "" "")))) ∧
    (∀ m : Prepare, a.peersServed = true → a.member m.coordinator = none → exec (.prepare t m) s = .next a) ∧
    (∀ (m : VoteMsg) c x, a.peersServed = true → m.checkOk = true →
      let b := a.heardFrom m.member
      b.ens.coord = some c → c.txn = m.txn → m.member ∈ c.missing → b.member m.member = some x → x.status ≠ 2 →
        exec (.vote t m) s = .next (b.withEns { b.ens with coord := some { c with votes := c.votes ++ [m] } }).decideIfAll) ∧
    (∀ m : VoteMsg, a.peersServed = true → m.checkOk = true → (a.heardFrom m.member).ens.coord = none → exec (.vote t m) s = .next (a.heardFrom m.member)) ∧
    (∀ c, a.ens.coord = some c → c.deadline ≤ a.stamp → exec (.prepareDeadline t) s = .next (a.decideTxn c)) ∧
    (∀ c, a.ens.coord = some c → a.stamp < c.deadline → exec (.prepareDeadline t) s = .next a) ∧
    (∀ id txn commit epoch p, a.peersServed = true → (a.heardFrom id).preparedFor id txn = some p →
      exec (.decide t id txn commit epoch) s = .next ((a.heardFrom id).closeTxn p commit epoch)) ∧
    (∀ coordinator txn id, a.peersServed = true →
      let b := a.heardFrom id
      exec (.outcome t coordinator txn id none) s = .next (b.sendPeer id 0xF6 (le 4 txn ++ le 1 (b.outcomeOf coordinator txn)))) ∧
    (∀ coordinator txn id p, a.peersServed = true →
      let b := a.heardFrom id
      b.preparedFor coordinator txn = some p → p.asked = true →
        exec (.outcome t coordinator txn id (some 0)) s = .next (b.drawn.closeTxn p true (b.freeVal 32)) ∧
        exec (.outcome t coordinator txn id (some 1)) s = .next (b.closeTxn p false 0)) ∧
    (∀ p, a.ens.prepared = some p → p.asked = false → p.instant - secondUnits / 4 ≤ a.stamp →
      exec (.outcomeQuery t) s = .next ((p.coordinator :: (a.ens.members.map (·.id)).filter (fun id => !(id == p.coordinator))).foldl
        (fun b id => b.sendPeer id 0xF6 (le 4 p.txn)) (a.withEns { a.ens with prepared := some { p with asked := true } }))) ∧
    (∀ p, a.ens.prepared = some p → p.instant - secondUnits / 10 ≤ a.stamp →
      exec (.inDoubtTimeout t) s = .next ((a.unfreeze 4).raiseSev Ev.ensInDoubt 2 [.u64 p.coordinator, u p.txn])) ∧
    (∀ p, a.ens.prepared = some p → a.stamp < p.instant - secondUnits / 10 → exec (.inDoubtTimeout t) s = .next a)

/-- Time and captures of an ensemble (R355, R356, R357): a time check adds its offset and delay to its peer's last eight; checks go out every second on the first link that is up;
the evaluation each second counts the peers that are near, publishes the deviation of this clock from their median, and turns SUSPECT after three deviations over 1 µs in a
row, back after ten within 0.8 µs; a capture's answers gather until all are in or its time is over. The model's readings it rests on: log entries 21, 50. -/
def Obligations.EnsembleTimeAndCaptures : Prop :=
  ∀ (s : State) (t : Tick),
    let a := s.at t
    (∀ id t1 t2 t3 t4 x m, a.peersServed = true → a.member id = some x → (a.heardFrom id).member id = some m →
      exec (.timecheck t id t1 t2 t3 t4) s = .next ((a.heardFrom id).setMember { m with checks := ((((t2 - t1) - (t4 - t3)) / 2, (t4 - t1) - (t3 - t2)) :: m.checks).take 8 })) ∧
    (∀ p ps, a.peersServed = true → a.ens.checkAt + secondTicks ≤ a.now → a.linksUp = p :: ps →
      exec (.timecheckSend t) s = .next (a.ens.members.foldl (fun b m => b.emit (.peer (some p) m.id 0xF1 (b.peerMessage b.ensId 0xF1 (tsBytes b.stamp))))
        (a.withEns { a.ens with checkAt := a.now }))) ∧
    (a.peersServed = true → a.ens.checkAt + secondTicks ≤ a.now → a.linksUp = [] → exec (.timecheckSend t) s = .next (a.withEns { a.ens with checkAt := a.now })) ∧
    (a.peersServed = true → a.ens.evalAt + secondTicks ≤ a.now →
      let peers := a.ens.members.filter a.near
      let n := peers.length
      let b := (a.withEns { a.ens with evalAt := a.now }).roSet K.ensTimeNear n
      let dev := -(median (0 :: peers.map (fun m => median (m.checks.map (·.1)))))
      let ps := clampInt (-2147483648) 2147483647 (roundDiv (dev * 1000) 65536)
      let above := if 65536000 < dev.natAbs then b.ens.over_ + 1 else 0
      let within := if 10 * dev.natAbs ≤ 8 * 65536000 then b.ens.under + 1 else 0
      let c := (b.withEns { b.ens with over_ := above, under := within }).roSetInt K.ensTimeDeviation ps
      let state := if c.roGet K.ensTimeState = 2 then (if 10 ≤ within then 1 else 2) else if 3 ≤ above then 2 else 1
      (n < 2 → exec (.ensTimeEvaluation t) s = .next ((b.withEns { b.ens with over_ := 0, under := 0 }).setTimeState 0 (b.roInt K.ensTimeDeviation) n)) ∧
      (2 ≤ n → exec (.ensTimeEvaluation t) s = .next (c.setTimeState state ps n))) ∧
    (∀ id txn result capture, a.peersServed = true → exec (.ensCaptureAnswer t id txn result capture) s = .next ((a.heardFrom id).captureAnswer id txn result capture)) ∧
    exec (.ensCaptureTimeout t) s = .next ((a.ens.caps.filter (fun c => decide (c.since + a.pG K.ensPrepareMs * msTicks ≤ a.now))).foldl State.captureReport a) ∧
    (a.peersServed = false → exec (.timecheckSend t) s = .next a ∧ exec (.ensTimeEvaluation t) s = .next a ∧
      ∀ id txn result capture, exec (.ensCaptureAnswer t id txn result capture) s = .next a)

/-- The log, the life account and the flash (R394, R397, R398, R409): FLASH_BLOCK_ERASE counts the erase and, where it failed, a spare block, four a second at most; a telemetry
record every 60 s, an hourly entry of the log every hour with the mean, least and greatest of what the records sampled; LIFE_ACCOUNT adds the whole hours since the last
account to the life hours and to the bin of the case temperature; WAVELENGTH_ CALIBRATION publishes the error once in 24 h and tells one over 1 GHz. Before their time they do
nothing. The model's readings it rests on: log entries 21, 48. -/
def Obligations.HealthRecordsAreKept : Prop :=
  ∀ (s : State) (t : Tick),
    let a := s.at t
    let x := a.health
    let sec := a.now / secondTicks
    let used := if x.eraseSecond = sec then x.eraseCount else 0
    (∀ block (ok : Bool), a.mode.working = true → block < 2048 → used < 4 →
      let n := x.eraseCountOf block + 1
      let spares := a.roGet K.healthFlashSpareBlocks
      let left := if ok then spares else spares - 1
      let worn : Bool := decide (n = 80000) || (decide (8 ≤ spares) && decide (left < 8))
      let b := (((a.withHealth { x with erases := (block, n) :: x.erases.filter (fun e => !(e.1 == block)), eraseSecond := sec, eraseCount := used + 1,
                                        moved := if ok ∨ x.moved.contains block then x.moved else block :: x.moved, wear := x.wear || worn }).roMax
        K.healthFlashEraseMax n).roSet K.healthFlashSpareBlocks left).bgDone 4
      let c := b.withPower { b.power with dirty := ⟨(b.power.dirty.get .a).filter (fun e => !(e == block)), (b.power.dirty.get .b).filter (fun e => !(e == block))⟩ }
      exec (.flashBlockErase t block ok) s = .next (if worn then c.raiseSev Ev.flashWear 2 [u (c.roGet K.healthFlashEraseMax), u left] else c)) ∧
    (∀ block (ok : Bool), a.mode.working = false ∨ 2048 ≤ block ∨ 4 ≤ used → exec (.flashBlockErase t block ok) s = .next a) ∧
    (a.mode.working = true → x.telAt + 60 * secondTicks ≤ a.now →
      exec (.telemetryRecord t) s = .next ((a.withHealth { x with telemetry := (a.telRecord :: x.telemetry).take 10080, telNext := (x.telNext + 1) % 4294967296, telAt := a.now,
                                                                  hour := a.hourSample :: x.hour }).bgDone 5)) ∧
    (a.now < x.telAt + 60 * secondTicks → exec (.telemetryRecord t) s = .next a) ∧
    (a.mode.working = true → x.hourAt + hourTicks ≤ a.now →
      let xs := if x.hour = [] then [a.hourSample] else x.hour
      let body := meanMinMax (xs.map (·.case)) ++ meanMinMax (xs.map (fun y => (y.power : Int))) ++ meanMinMax (xs.map (fun y => (y.seed0 : Int))) ++
        meanMinMax (xs.map (fun y => (y.seed1 : Int)))
      exec (.telemetryHourly t) s = .next (((a.withHealth { x with hour := [], hourAt := a.now }).logEntry 3 0 1 a.stamp [.bytes body]).bgDone 5)) ∧
    (a.now < x.hourAt + hourTicks → exec (.telemetryHourly t) s = .next a) ∧
    (∀ n, a.mode.working = true → n = (a.now - x.lifeAt) / hourTicks → 1 ≤ n →
      let b := a.withHealth { x with lifeAt := x.lifeAt + n * hourTicks, hotHours := x.hotHours + (if 8500 < a.caseCenti then n else 0) }
      let c := ((b.bump K.healthLifeHours n).bump (K.healthLifeTempBin (tempBin a.caseCenti)) n).roSet K.healthLifeEfcUsed
        (min 65535 ((b.roInt K.timebaseOcxoEfc).natAbs * 65536 / 200000))
      let old := c.roGet K.healthLifeWarnings
      let now := Nat.lor old c.lifeWarnings
      exec (.lifeAccount t) s = .next ((((List.range 8).filter (fun i => bitOf now i && !(bitOf old i))).foldl (fun st i => st.raiseSev Ev.life 2 [u i])
        (c.roSet K.healthLifeWarnings now)).bgDone 6)) ∧
    (a.now < x.lifeAt + hourTicks → exec (.lifeAccount t) s = .next a) ∧
    (∀ khz, a.mode.working = true → x.wavelengthDue ≤ a.now →
      let b := ((a.withHealth { x with wavelengthDue := a.now + 24 * hourTicks }).roSetInt K.healthWavelengthErrorMhz khz).bgDone 2
      exec (.wavelengthCalibration t khz) s = .next (if 1000000 < khz.natAbs then b.raise Ev.wavelength [sv khz] else b)) ∧
    (∀ khz, a.now < x.wavelengthDue → exec (.wavelengthCalibration t khz) s = .next a)

/-- Tests of the module and its links (R404, R406, R407): SELFTEST_COMPLETE publishes which tests failed once the time its tests take is over, with the probes the coil test has
launched and a proof of each channel in use where the emitter's test ran; LINK_TEST_END leaves a test's counts, and a network port that was up before it is up again;
LINK_ERROR_CHECK adds a link's errors once a second in RUNNING and tells more than ten. The model's readings it rests on: log entries 21, 48, 54. -/
def Obligations.TestsEndWithTheirResults : Prop :=
  ∀ (s : State) (t : Tick),
    let a := s.at t
    let x := a.health.selftest
    let ran := (testsOf x.mask).filter (fun i => !(bitOf x.skipped i))
    (∀ failed details, x.running = true → x.since + sumN (ran.map testTicks) ≤ a.now →
      let bad := sumN ((ran.filter (bitOf failed)).map (2 ^ ·))
      let b := if ran.contains 1 then a.coilLaunches x.coilFrom else a
      let c := (b.withHealth { b.health with selftest := { x with failed := bad, running := false, completed := some a.stamp,
                                                                  details := (List.range 6).map (fun i => if ran.contains i then details.getD i 0 else 0) } }).roSet
        K.healthSelftestState (if bad = 0 then 2 else 3)
      let d := if ran.contains 2 then ((List.range 11).filter c.chInUse).foldl (fun y ch => y.bump (K.emitChProofs ch) 1) c else c
      exec (.selftestComplete t failed details) s = .next (d.raiseSev Ev.selftest (if bad = 0 then 1 else 2) [u x.mask, u bad])) ∧
    (∀ failed details, x.running = false ∨ a.now < x.since + sumN (ran.map testTicks) → exec (.selftestComplete t failed details) s = .next a) ∧
    (∀ link bits errors y e, a.linkTest link = some y → y.until_ = some e → e ≤ a.now → (∀ p, y.port ≠ some (p, true)) →
      exec (.linkTestEnd t link bits errors) s = .next
        (a.withHealth { a.health with linkTests := a.health.linkTests.set link (some { y with until_ := none, bits := bits, errors := errors }) })) ∧
    (∀ link bits errors y e p, a.linkTest link = some y → y.until_ = some e → e ≤ a.now → y.port = some (p, true) →
      let b := a.withHealth { a.health with linkTests := a.health.linkTests.set link (some { y with until_ := none, bits := bits, errors := errors }) }
      exec (.linkTestEnd t link bits errors) s = .next ((b.setLink p { b.link p with up := true, since := b.now }).moveTo p)) ∧
    (∀ link bits errors y e, a.linkTest link = some y → y.until_ = some e → a.now < e → exec (.linkTestEnd t link bits errors) s = .next a) ∧
    (∀ link errors, a.mode = .running → link < 10 → a.health.linkAt.getD link 0 + secondTicks ≤ a.now →
      let b := (a.withHealth { a.health with linkAt := a.health.linkAt.set link a.now }).bump (K.healthLinkErrors link) errors
      exec (.linkErrorCheck t link errors) s = .next (if 10 < errors then b.raise Ev.linkErrors [u link, u errors] else b)) ∧
    (∀ link errors, a.mode ≠ .running ∨ 10 ≤ link ∨ a.now < a.health.linkAt.getD link 0 + secondTicks → exec (.linkErrorCheck t link errors) s = .next a)

/-- Strobes and launches (R30, R74, R81, R82, R87, R295): a frame's strobe ends the frame before it and starts the next at its scheduled tick; each further group of a slotted
frame and each thinned launch goes at its own tick; with no frames the internal strobe latches the shared channels every 10 ms; a pattern step moves its strobe source's
channels. Before their ticks they do nothing. COMMIT_F_TICK: for a port without frames the port's swaps take effect at the named tick, and for the fields of no port while
neither port has frames; where frames run, their frame starts are F instead, and the command does nothing. The model's readings it rests on: log entries 21, 22, 27, 28, 54. -/
def Obligations.StrobesFollowTheirSchedule : Prop :=
  (∀ (s : State) (t : Tick),
    let a := s.at t
    (∀ p obs n, (a.frame p).next = some n → a.hasFrames p = true → n ≤ a.now → exec (.frameStrobe t p obs) s = .next (((a.takeAdc p obs.samples).frameEnd p obs).strobe p)) ∧
    (∀ p obs n, (a.frame p).next = some n → a.now < n → exec (.frameStrobe t p obs) s = .next a) ∧
    (∀ p obs, (a.frame p).next = none ∨ a.hasFrames p = false → exec (.frameStrobe t p obs) s = .next a) ∧
    (∀ p g, let groups := groupsOf (a.pP p (K.portSlotPlan p))
      a.hasFrames p = true → a.thinned p = false → (a.frame p).gap = false → 0 < g → g < groups → (a.frame p).groupNext = g → (a.frame p).last + g * (a.period p / groups) ≤ a.now →
        exec (.groupLaunch t p g) s = .next (a.launchNext p g)) ∧
    (∀ p g, let groups := groupsOf (a.pP p (K.portSlotPlan p))
      a.hasFrames p = false ∨ a.thinned p = true ∨ (a.frame p).gap = true ∨ g = 0 ∨ groups ≤ g ∨ (a.frame p).groupNext ≠ g ∨ a.now < (a.frame p).last + g * (a.period p / groups) →
        exec (.groupLaunch t p g) s = .next a) ∧
    (∀ p, let f := a.frame p
      let due := f.origin + f.thinNext * thinStep (a.period p)
      let b := a.launchGroup p due 0 (f.thinNext % 8) [f.thinNext % 8] true
      a.hasFrames p = true → a.thinned p = true → f.next.isSome = true → f.gap = false → due ≤ a.now →
        exec (.thinnedLaunch t p) s = .next (b.setFrame p { b.frame p with thinNext := f.thinNext + 1 })) ∧
    (∀ p, a.thinned p = false ∨ (a.frame p).gap = true ∨ a.now < (a.frame p).origin + (a.frame p).thinNext * thinStep (a.period p) → exec (.thinnedLaunch t p) s = .next a) ∧
    (a.hasFrames .a = false → a.hasFrames .b = false → a.opt.internalNext ≤ a.now →
      exec (.internalStrobe t) s = .next (({ a with opt := { a.opt with internalNext := a.now + 200000 } } : State).latchAll [0, 1, 9, 10] [] false false)) ∧
    (a.hasFrames .a = true ∨ a.hasFrames .b = true ∨ a.now < a.opt.internalNext → exec (.internalStrobe t) s = .next a) ∧
    (∀ src step, step < 32 → a.lastStrobe src + a.stepStart src step ≤ a.now →
      exec (.patternStep t src step) s = .next ((a.sourceChannels src).foldl (fun st c => st.setChan c { st.chan c with step := step }) a)) ∧
    (∀ src step, 32 ≤ step ∨ a.now < a.lastStrobe src + a.stepStart src step → exec (.patternStep t src step) s = .next a)) ∧
  (∀ (s : State) (t : Tick),
    let a := s.at t
    (∀ p, a.hasFrames p = false → exec (.commitFTick t (some p)) s = .next (a.commitPort p)) ∧
    (∀ p, a.hasFrames p = true → exec (.commitFTick t (some p)) s = .next a) ∧
    (a.hasFrames .a = false → a.hasFrames .b = false → exec (.commitFTick t none) s = .next a.commitGlobal) ∧
    (a.hasFrames .a = true ∨ a.hasFrames .b = true → exec (.commitFTick t none) s = .next a))

/-- The emitter's proof, the DTS switch and the neighbour test (R84, R85, R302): PROOF_WINDOW proves the due channels of the strobe to come within 25 µs, or every due one with no
frames; DTS_SWITCH_SETTLED frees the switch once its move is over; NEIGHBOUR_TEST runs when it is due in READY and lets seeds that are OFF or LOCKED lock anew. The model's
readings it rests on: log entries 21, 27, 51. -/
def Obligations.ProofsAndTestsOfTheEmitter : Prop :=
  ∀ (s : State) (t : Tick),
    let a := s.at t
    (∀ p opens shorts n, (a.frame p).next = some n → n ≤ a.now + 500 →
      exec (.proofWindow t (some p) opens shorts) s =
        .next (a.proofs (strobeChannels p (a.hasFrames .a) a.opt.dts.turn) opens shorts)) ∧
    (∀ p opens shorts n, (a.frame p).next = some n → a.now + 500 < n → exec (.proofWindow t (some p) opens shorts) s = .next a) ∧
    (∀ opens shorts, a.hasFrames .a = false → a.hasFrames .b = false → a.opt.internalNext ≤ a.now + 500 →
      exec (.proofWindow t none opens shorts) s = .next (a.proofs (List.range 11) opens shorts)) ∧
    (∀ opens shorts, a.hasFrames .a = true ∨ a.hasFrames .b = true ∨ a.now + 500 < a.opt.internalNext → exec (.proofWindow t none opens shorts) s = .next a) ∧
    (∀ m, a.opt.dts.moving = some m → m ≤ a.now →
      exec (.dtsSwitchSettled t) s = .next { a with opt := { a.opt with dts := { a.opt.dts with moving := none, settledAt := m } } }) ∧
    (∀ m, a.opt.dts.moving = some m → a.now < m → exec (.dtsSwitchSettled t) s = .next a) ∧
    (∀ shorts, a.drive.testDue = true → a.mode = .ready →
      let b : State := { a with drive := { a.drive with testDue := false } }
      let c := b.neighbourTest shorts
      let again := fun (st : State) (d : Seed) => if st.seedStatus d = 1 ∨ st.seedStatus d = 2 then (st.setSeedStatus d 1).setSeed d SeedSt.idle else st
      exec (.neighbourTest t shorts) s = .next ((again (again c .s0) .s1).drivesFaulted b)) ∧
    (∀ shorts, a.drive.testDue = false ∨ a.mode ≠ .ready → exec (.neighbourTest t shorts) s = .next a)

/-- The bus that locks frames of several modules, and changes at a strobe (R64, R90, R92, R93, R280): a follower takes each sync word whose check holds, counts the others, goes to
PERIOD where its period differs; missed words, three of them, end the lock; acquisition gives up after 1 s; a collision stops a source; a re-alignment asked for places the
next start on the source's grid; a counter step acts when due, once; a rediscovery begins when due, port B's after port A's. The model's readings it rests on: log entries 21,
25, 26, 57, 58, 59. -/
def Obligations.TheBusLocksAndRealigns : Prop :=
  ∀ (s : State) (t : Tick),
    let a := s.at t
    let l := a.opt.lock
    (∀ word, a.pG K.schedLockRole = 2 → syncOk word.toNat = true → (a.busPorts.all (fun p => a.pP p (K.portFramePeriod p) == syncPeriod word.toNat)) = true →
      exec (.syncWordReceive t word) s = .next (a.syncMatch t (syncPeriod word.toNat))) ∧
    (∀ word, a.pG K.schedLockRole = 2 → syncOk word.toNat = true → (a.busPorts.all (fun p => a.pP p (K.portFramePeriod p) == syncPeriod word.toNat)) = false →
      let b := a.withLock { l with lastWord := some (t, syncPeriod word.toNat), predicted := t + syncPeriod word.toNat, missed := 0 }
      exec (.syncWordReceive t word) s = .next ((b.busStart (b.nextMultiple (b.now + 40000) 20)).setLock 5)) ∧
    (∀ word, a.pG K.schedLockRole = 2 → syncOk word.toNat = false → exec (.syncWordReceive t word) s = .next (a.bump K.schedLockWordErrors 1)) ∧
    (∀ word, a.pG K.schedLockRole ≠ 2 → exec (.syncWordReceive t word) s = .next a) ∧
    (∀ w period, l.lastWord = some (w, period) → (a.roGet K.schedLockState = 2 ∨ a.roGet K.schedLockState = 3) → l.predicted + 1280 ≤ a.now →
      let b := a.withLock { l with missed := l.missed + 1, predicted := l.predicted + period }
      exec (.lockWordMissing t) s = .next (if a.roGet K.schedLockState = 2 ∧ 3 ≤ l.missed + 1 then b.setLock 3 else b)) ∧
    (a.now < l.predicted + 1280 → exec (.lockWordMissing t) s = .next a) ∧
    (∀ p since, l.acquireSince = some since → a.roGet K.schedLockState = 1 → since + secondTicks ≤ a.now → a.hasFrames p = true →
      let b := a.busStart (a.nextMultiple (a.now + 40000) 20)
      exec (.lockAcquireTimeout t p) s = .next ((b.withLock { b.opt.lock with acquireSince := none }).setLock 4)) ∧
    (∀ p since, l.acquireSince = some since → a.now < since + secondTicks → exec (.lockAcquireTimeout t p) s = .next a) ∧
    (a.pG K.schedLockRole = 1 → exec (.syncCollision t) s = .next (((a.withLock { l with collision := true }).driveClk).setLock 6)) ∧
    (a.pG K.schedLockRole ≠ 1 → exec (.syncCollision t) s = .next a) ∧
    (∀ p, a.opt.realignDue.get p = true →
      let here := a.pP p (K.portFramePeriod p)
      let b : State := { a with opt := { a.opt with realignDue := a.opt.realignDue.set p false } }
      (∀ w n, l.lastWord = some (w, here) → (a.frame p).next = some n → a.onBus p = true → 0 < here → a.now ≤ w + here + 1280 →
        let base := w + a.pG K.schedLockDelay
        exec (.schedLockRealign t p) s = .next ((b.regridTo p (if n ≤ base then base else base + ceilDiv (n - base) here * here)).setLock 2)) ∧
      (l.lastWord = none ∨ a.onBus p = false ∨ (∃ w period, l.lastWord = some (w, period) ∧ (period ≠ here ∨ w + period + 1280 < a.now)) →
        exec (.schedLockRealign t p) s = .next b)) ∧
    (∀ p, a.opt.realignDue.get p = false → exec (.schedLockRealign t p) s = .next a) ∧
    (a.opt.stepDue = true →
      let b : State := { a with opt := { a.opt with stepDue := false } }
      exec (.timebaseStep t) s = .next (((b.stepCounter b.stepSize).roSet K.timebaseStepPending 0).eachPort (fun st p =>
        if st.hasFrames p = true ∧ st.pP p (K.portFrameAlign p) = 1 then
          let c := st.regridTo p (st.gridNext p st.now)
          c.setFrame p { c.frame p with gap := true } else st))) ∧
    (a.opt.stepDue = false → exec (.timebaseStep t) s = .next a) ∧
    (∀ p, (a.portSt p).rediscover = true → (a.pState p = 2 ∨ a.pState p = 3) →
      exec (.portRediscover t p) s = .next (if p = .b ∧ a.aRestarts = true then a else a.discover p)) ∧
    (∀ p, (a.portSt p).rediscover = true → a.pState p = 4 → exec (.portRediscover t p) s = .next a) ∧
    (∀ p, (a.portSt p).rediscover = true → a.pState p ≠ 2 → a.pState p ≠ 3 → a.pState p ≠ 4 →
      exec (.portRediscover t p) s = .next (a.setPortSt p { a.portSt p with rediscover := false })) ∧
    (∀ p, (a.portSt p).rediscover = false → exec (.portRediscover t p) s = .next a)

/-- The seeds (R36, R37, R38, R41, R43): SEED_SELECT takes the seed asked for where it is LOCKED and tells a fault where it is not; an attempt to relock a faulty seed counts; a
lock acquired starts the seed's settling, and after it SEED_LOCKED makes it LOCKED; a fault's criterion counts against its seed; a switch waiting for its frame boundary takes
place there. The model's readings it rests on: log entries 21, 28, 47, 51. -/
def Obligations.SeedsLockFailAndSwitch : Prop :=
  ∀ (s : State) (t : Tick),
    let a := s.at t
    (∀ d : Seed, a.opt.select = seedIdx d + 1 →
      let b : State := { a with opt := { a.opt with select := 0 } }
      (d = a.activeSeed → exec (.seedSelect t) s = .next b) ∧
      (d ≠ a.activeSeed → a.seedStatus d ≠ 2 → exec (.seedSelect t) s = .next (b.raise Ev.seedFault [u (seedIdx d)])) ∧
      (d ≠ a.activeSeed → a.seedStatus d = 2 → exec (.seedSelect t) s = .next (b.switchSeed ⟨a.opt.selectAt, d, false, none⟩))) ∧
    (a.opt.select = 0 → exec (.seedSelect t) s = .next a) ∧
    exec (.seedSwitchover t) s = .next a.switchIfDue ∧
    (∀ d r ok, (a.seed d).ref = some r → a.seedStatus d = 3 → a.mayRelock d = true → (a.seed d).trying = false → (a.seed d).attempts < 3 →
      relockDue r (a.seed d).attempts ≤ a.now → ((a.seed d).attempts = 0 ∨ (a.seed d).lastAttempt + 60 * secondTicks ≤ a.now) →
      let b := a.setSeed d { a.seed d with attempts := (a.seed d).attempts + 1, lastAttempt := a.now, trying := ok, lockAt := none }
      exec (.seedRelockAttempt t d ok) s = .next (if ok then b else b.relockFailed d)) ∧
    (∀ d ok, (a.seed d).ref = none → exec (.seedRelockAttempt t d ok) s = .next a) ∧
    (∀ d, a.mode.working = true → (a.seedStatus d = 1 ∨ (a.seedStatus d = 3 ∧ (a.seed d).trying = true)) →
      exec (.seedLockAcquired t d) s = .next (a.setSeed d { a.seed d with lockAt := some a.now })) ∧
    (∀ d, a.mode.working = false → exec (.seedLockAcquired t d) s = .next a) ∧
    (∀ d l, (a.seed d).lockAt = some l → a.mode.working = true → l + secondTicks ≤ a.now → a.seedStatus d = 1 →
      let b := (a.setSeedStatus d 2).setSeed d SeedSt.idle
      exec (.seedLocked t d) s = .next (if d = b.activeSeed then b else b.undoDone 2)) ∧
    (∀ d l, (a.seed d).lockAt = some l → a.mode.working = true → l + secondTicks ≤ a.now → a.seedStatus d = 3 → (a.seed d).trying = true →
      exec (.seedLocked t d) s = .next (((a.setSeedStatus d 2).setSeed d SeedSt.idle).raise Ev.seedRestored [u (seedIdx d)])) ∧
    (∀ d l, (a.seed d).lockAt = some l → a.now < l + secondTicks → exec (.seedLocked t d) s = .next a) ∧
    (∀ d why, a.mode.working = true → (a.seedStatus d = 1 ∨ a.seedStatus d = 2) → d = a.activeSeed → exec (.seedFault t d why) s = .next (a.activeFault d)) ∧
    (∀ d why, a.mode.working = true → (a.seedStatus d = 1 ∨ a.seedStatus d = 2) → d ≠ a.activeSeed →
      exec (.seedFault t d why) s = .next (if a.opt.switch.isSome = true then (a.standbyFault d).enterFault Cause.noSeed else (a.standbyFault d).undoDone 2)) ∧
    (∀ d why, a.mode.working = true → a.seedStatus d = 3 → exec (.seedFault t d why) s = .next (if (a.seed d).trying = true then a.relockFailed d else a)) ∧
    (∀ d why, a.mode.working = false → exec (.seedFault t d why) s = .next a)

/-- Finding the fibre, and APR (R47, R53, R54, R55, R57, R64): a probe a second while NO FIBRE begins a discovery where it finds a fibre; continuity, ramp, ranging and profile
follow one another, each after its time; a looped fibre holds the other port; the launch clamp brings APR from discovery and from normal operation; APR is left after its hold.
Before their time they do nothing. The model's readings it rests on: log entries 21, 26, 55, 56. -/
def Obligations.DiscoveryRunsThroughItsPhases : Prop :=
  ∀ (s : State) (t : Tick) (p : Port),
    let a := s.at t
    let x := a.portSt p
    (∀ found, a.pState p = 0 → a.mayLaunch p = true → (∀ last, x.probeAt = some last → last + secondTicks ≤ a.now) →
      let b := (a.setPortSt p { x with probeAt := some a.now }).emit (.pulse p 3 a.stamp probeLight)
      exec (.noFibreProbe t p found) s = .next (if found = true ∧ b.pState p.other ≠ 1 ∧ b.afterA p = false then b.discover p else b)) ∧
    (∀ found, a.pState p ≠ 0 ∨ a.mayLaunch p = false ∨ (∃ last, x.probeAt = some last ∧ a.now < last + secondTicks) → exec (.noFibreProbe t p found) s = .next a) ∧
    (a.phaseOver p .continuity 2000000 = true →
      exec (.discoveryContinuityEnd t p true) s = .next (a.toPhase p .ramp) ∧
      exec (.discoveryContinuityEnd t p false) s = .next ((a.setPortSt p { x with fibreFound := false }).noFibre p)) ∧
    (a.phaseOver p .ramp 32000000 = true → exec (.discoveryRampEnd t p) s = .next (a.toPhase p .ranging)) ∧
    (∀ r : Ranging, a.phaseOver p .ranging 409600000 = true →
      let b := (a.setPortSt p { x with found := some (a.rangedOn p r) }).toPhase p .profile
      let c := b.raise Ev.fibreLooped [u p.idx, u p.other.idx]
      let d := c.setPortSt p.other { c.portSt p.other with looped := true }
      exec (.discoveryRangingEnd t p r) s = .next (if (r.loopSeen && !x.looped) = true then (d.channelsOff [preOf p.other]).publishHold p.other else b)) ∧
    (∀ r profile winPeaks, x.found = some r → a.phaseOver p .profile (a.profileTicks p r) = true →
      exec (.discoveryProfileEnd t p profile winPeaks) s = .next (a.discoveryDone p profile winPeaks)) ∧
    (a.phaseOver p .continuity 2000000 = false → ∀ found, exec (.discoveryContinuityEnd t p found) s = .next a) ∧
    (a.phaseOver p .ramp 32000000 = false → exec (.discoveryRampEnd t p) s = .next a) ∧
    (a.phaseOver p .ranging 409600000 = false → ∀ r, exec (.discoveryRangingEnd t p r) s = .next a) ∧
    (∀ r, x.found = some r → a.phaseOver p .profile (a.profileTicks p r) = false → ∀ profile winPeaks, exec (.discoveryProfileEnd t p profile winPeaks) s = .next a) ∧
    ((a.pState p = 1 ∨ a.pState p = 3) → exec (.launchClamp t p) s = .next ((a.setClamp p true).enterApr p 2)) ∧
    (a.pState p ≠ 1 → a.pState p ≠ 3 → exec (.launchClamp t p) s = .next a) ∧
    (a.pState p = 4 → x.aprSince + a.pP p (K.portAprHoldS p) * secondTicks ≤ a.now → a.mayLaunch p = true →
      exec (.aprHoldExpiry t p false) s = .next (a.leaveApr p false) ∧
      exec (.aprHoldExpiry t p true) s =
        .next (if (a.pP p (K.portResume p) = 0 ∨ x.rediscover = true) ∧ a.pState p.other ≠ 1 ∧ a.afterA p = false then a.leaveApr p true else a)) ∧
    (∀ found, a.pState p ≠ 4 ∨ a.now < x.aprSince + a.pP p (K.portAprHoldS p) * secondTicks ∨ a.mayLaunch p = false → exec (.aprHoldExpiry t p found) s = .next a)

/-- From a launch to its tiles (R110, R115, R129, R130): the field words of the oldest launch in flight make its trace once the last point's return and L_field are over, and lost
continuity in discovery brings APR; the strain words, L_strain after that return, take the oldest trace to the alarms and to the corner-turn buffer where it has room, or drop
it where P1 is full; the oldest ready tile goes through the chains to the streams; the stream whose tile is the oldest sends it. The model's readings it rests on: log entries
9, 21, 22, 35, 60, 61, 62, 66. -/
def Obligations.TracesBecomeTiles : Prop :=
  ∀ (s : State) (t : Tick) (p : Port),
    let a := s.at t
    let c := a.coh p
    (∀ (obs : TraceObs) ph since, (a.portSt p).phase = some (ph, since) →
      exec (.traceFieldWords t p obs) s =
        .next (if a.pState p = 1 ∧ (ph = .ramp ∨ ph = .ranging) ∧ continuityLost obs.newLast = true then a.enterApr p 3 else a)) ∧
    (∀ (obs : TraceObs) l rest, (a.portSt p).phase = none → (a.frame p).inflight = l :: rest →
      let due := l.tick + lastArrival l.first l.count (l.set.get (K.portPointsPitch p)) + fieldDelay l.set p
      (a.power.clocks.dsp = true → l.tick = obs.launch → due ≤ a.now →
        exec (.traceFieldWords t p obs) s = .next (((a.takeAdc p obs.samples).takeMonitor obs.monitor).fieldTrace p l rest obs)) ∧
      (a.power.clocks.dsp = false ∨ l.tick ≠ obs.launch ∨ a.now < due → exec (.traceFieldWords t p obs) s = .next a)) ∧
    (∀ obs, (a.portSt p).phase = none → (a.frame p).inflight = [] → exec (.traceFieldWords t p obs) s = .next a) ∧
    (∀ tr rest, c.strain = tr :: rest →
      let due := tr.header.launchTick + lastArrival tr.header.first tr.header.count tr.header.pitch + strainDelay (a.traceSet p tr.header.epoch) p
      let b := a.setCoh p { c with strain := rest }
      (a.power.clocks.dsp = true → due ≤ a.now →
        exec (.traceStrainWords t p true) s = .next (b.traceDropped K.memP1DroppedTraces p tr.header.launch tr.header.epoch) ∧
        exec (.traceStrainWords t p false) s = .next (if a.cornerRoom p tr = true then (b.alarmTake p tr).cornerTake p tr else a)) ∧
      (∀ full, a.power.clocks.dsp = false ∨ a.now < due → exec (.traceStrainWords t p full) s = .next a)) ∧
    (∀ full, c.strain = [] → exec (.traceStrainWords t p full) s = .next a) ∧
    (∀ y rest, c.corner = y :: rest → y.ready = true → a.power.clocks.fabric = true →
      let r := ((a.setCoh p { c with corner := rest }).dropEvals p).streamTraces p y.traces
      exec (.decimationTileProcessed t p) s = .next (if r.2 = true then r.1.linkBudget else r.1)) ∧
    (c.corner = [] ∨ (∃ y rest, c.corner = y :: rest ∧ (y.ready = false ∨ a.power.clocks.fabric = false)) → exec (.decimationTileProcessed t p) s = .next a) ∧
    (∀ sid, a.tileTurn sid = true → a.mode ≠ .fault → (a.stream sid).suspended = false →
      let first : Bool := ((a.stream sid).queue.head?.map (fun x => x.index == 0)).getD false
      let b := if first then (a.autoReturn sid).linkBudget else a
      exec (.nspTileSend t sid) s = .next (if (b.stream sid).suspended = false then b.sendTile sid else b)) ∧
    (∀ sid, a.tileTurn sid = false ∨ a.mode = .fault ∨ (a.stream sid).suspended = true → exec (.nspTileSend t sid) s = .next a)

/-- Gains, I and Q terms, weights and quality of a port (R97, R98, R108, R118): every 256 frames the gains are judged and the weights computed anew, every 16 384 frames the I and
Q terms, with the published image rejection and the skew; they apply from the next strobe; a second that is over and whose traces are formed closes, and closed parts publish
their summaries. The model's readings it rests on: log entries 13, 22, 36, 60, 63. -/
def Obligations.CoherentTermsAreUpdated : Prop :=
  ∀ (s : State) (t : Tick) (p : Port),
    let a := s.at t
    let c := a.coh p
    (256 ≤ c.frames → a.hasFrames p = true → a.pP p (K.portRxGainMode p) = 1 →
      exec (.gainRunEvaluation t p) s = .next (a.setCoh p { c with frames := 0, gains := List.replicate 64 ⟨0, 0, 0⟩ })) ∧
    (256 ≤ c.frames → a.hasFrames p = true → a.pP p (K.portRxGainMode p) ≠ 1 →
      let r := (List.range 64).map (fun w => gainEvaluate (c.gains.getD w ⟨0, 0, 0⟩) (a.roGet (K.portRxGain p w)))
      let steps := ((List.range 64).filter (fun w => decide ((r.getD w (⟨0, 0, 0⟩, 0)).2 ≠ a.roGet (K.portRxGain p w)))).map (fun w => (w, (r.getD w (⟨0, 0, 0⟩, 0)).2))
      exec (.gainRunEvaluation t p) s = .next (a.setCoh p { c with frames := 0, gains := r.map (·.1), gainPending := steps })) ∧
    (c.frames < 256 ∨ a.hasFrames p = false → exec (.gainRunEvaluation t p) s = .next a) ∧
    (∀ x y : IqStats, 16384 ≤ c.iqFrames →
      let moves := x.skew.take 2 ++ y.skew.take 2
      let skew := (List.range 4).map (fun n => clampInt (-15) 15 (a.roInt (K.portIqSkew p n) + moves.getD n 0))
      exec (.iqTermUpdate t p x y) s = .next ((a.setCoh p { c with iqFrames := 0, iqPending := some (c.iqX.update x, c.iqY.update y, skew) }).roSet
        (K.portIqImageRejection p) (imageRejection x y))) ∧
    (∀ x y, c.iqFrames < 16384 → exec (.iqTermUpdate t p x y) s = .next a) ∧
    (∀ noiseless, 256 ≤ c.combineFrames → a.pP p (K.portCombineMode p) = 0 → exec (.combineWeightRecompute t p noiseless) s =
      .next (a.setCoh p { c with combineFrames := 0, weightsNext := some (c.segs.map (fun x => weightsOf ((List.range 8).map x.slotMean) c.noise noiseless)) })) ∧
    (∀ noiseless, 256 ≤ c.combineFrames → a.pP p (K.portCombineMode p) ≠ 0 → exec (.combineWeightRecompute t p noiseless) s =
      .next (a.setCoh p { c with combineFrames := 0, weightsNext := some (c.segs.map (fun _ => List.replicate 8 65536)) })) ∧
    (∀ noiseless, c.combineFrames < 256 → exec (.combineWeightRecompute t p noiseless) s = .next a) ∧
    (let ends : Bool := decide (c.secondStart / secondUnits < a.stamp / secondUnits) &&
       (a.frame p).inflight.all (fun l => decide (c.secondStart / secondUnits < l.stamp / secondUnits))
     let c1 := if ends = true then c.closeSecond else c
     exec (.qualitySummary t p) s = .next (c1.closed.foldl (fun (st : State) e =>
       ((List.range e.segs.length).foldl (fun (st2 : State) k => st2.setSummary p k (e.segs.getD k ⟨0, 0, 0, 0, 0, 0⟩)) st).qualityBlock p e)
       (a.setCoh p { c1 with closed := [] })).settleAll)

/-- Retransmission and the idle streams (R136, R137, R138): a NACK that holds asks for the tiles still kept and tells which are gone; a link with no tile of its own to send sends
the oldest tile asked for, within its share, to the address it was first sent to, or tells that it is gone; tiles kept long enough are released; IDLE goes to a subscriber that
has been sent nothing for 100 ms, SUSPENDED each second while its stream is suspended. The model's readings it rests on: log entries 21, 34, 35, 64, 65. -/
def Obligations.LostTilesAreSentAgain : Prop :=
  ∀ (s : State) (t : Tick) (sid : Nat),
    let a := s.at t
    let x := a.stream sid
    (∀ n : Nack, a.nackOk sid n = true →
      let seqs := (rangeSeqs n.ranges).filter (fun q => !(newer q (a.lastSeq sid)))
      let kept := seqs.filter (fun q => x.held.any (fun h => h.seq == q))
      let lost := seqs.filter (fun q => !(x.held.any (fun h => h.seq == q)))
      let asks := fun (reqs : List RetxReq) => exec (.nack t sid n) s = .next ((a.setStream sid { x with retx := x.retx ++ reqs }).gone sid n.subscriber lost)
      (∀ d, (x.dests sid).find? (fun y => y.sub == n.subscriber) = some d → asks (kept.map (fun q => ⟨d, q, n.link, a.now⟩))) ∧
      ((x.dests sid).find? (fun y => y.sub == n.subscriber) = none → asks [])) ∧
    (∀ n : Nack, a.nackOk sid n = false → exec (.nack t sid n) s = .next (a.bump (K.streamNackRejected sid) 1)) ∧
    (∀ link r h, (a.link link).up = true → a.firstWaiting link = false → a.oldestRetx link = some (sid, r) → x.held.find? (fun h => h.seq == r.seq) = some h →
      let l := a.link link
      let used := if l.shareAt + 2000000 ≤ a.now then 0 else l.share
      let shareAt := if l.shareAt + 2000000 ≤ a.now then a.now else l.shareAt
      let b := (a.setStream sid { x with retx := x.retx.erase r }).setLink link { l with share := used + h.bytes.length, shareAt := shareAt }
      let c := b.setStream sid { b.stream sid with held := (b.stream sid).held.map (fun y => if y.seq = r.seq then y.sentOn r.dest link a.now else y) }
      (100 * (used + h.bytes.length) ≤ l.rate10ms * x.par K.nspRetxShare →
        exec (.retransmissionSend t link) s = .next ((c.sendDest sid h.bytes r.dest [link]).bump (K.streamNackServed sid) 1)) ∧
      (l.rate10ms * x.par K.nspRetxShare < 100 * (used + h.bytes.length) → exec (.retransmissionSend t link) s = .next a)) ∧
    (∀ link r, (a.link link).up = true → a.firstWaiting link = false → a.oldestRetx link = some (sid, r) → x.held.find? (fun h => h.seq == r.seq) = none →
      let b := a.setStream sid { x with retx := x.retx.erase r }
      exec (.retransmissionSend t link) s = .next (if b.asks sid r = true then b.gone sid r.dest.sub [r.seq] else b)) ∧
    (∀ link, (a.link link).up = false ∨ a.firstWaiting link = true ∨ a.oldestRetx link = none → exec (.retransmissionSend t link) s = .next a) ∧
    (let done := x.held.filter (fun h => decide (h.sentAt + h.keep ≤ a.now))
     let lost := x.retx.filter (fun r => done.any (fun h => h.seq == r.seq))
     let b := a.setStream sid { x with held := x.held.filter (fun h => !decide (h.sentAt + h.keep ≤ a.now)), retx := x.retx.filter (fun r => !(done.any (fun h => h.seq == r.seq))) }
     exec (.retxTileRelease t sid) s =
       .next (((List.range 4).foldl (fun (st : State) m => st.gone sid m ((lost.filter (fun r => r.dest.sub == m && st.asks sid r)).map (·.seq))) b).confirmLeaving sid)) ∧
    (∀ sub, x.par (K.streamEnable sid) = 1 → x.suspended = false → sub ∈ x.activeSubs sid → sentLongAgo (x.subs.getD sub SubSt.idle) a.now = true → a.mode.served = true →
      exec (.idle t sid sub) s = .next (a.control sid sub 0 [])) ∧
    (∀ sub, sentLongAgo (x.subs.getD sub SubSt.idle) a.now = false ∨ x.par (K.streamEnable sid) ≠ 1 ∨ x.suspended = true → exec (.idle t sid sub) s = .next a) ∧
    (x.suspended = true → x.suspendedSent + secondTicks ≤ a.now →
      exec (.suspended t sid) s = .next ((x.activeSubs sid).foldl (fun st m => st.control sid m 2 []) (a.setStream sid { x with suspendedSent := a.now }))) ∧
    (x.suspended = false ∨ a.now < x.suspendedSent + secondTicks → exec (.suspended t sid) s = .next a)

/-- Connections and the serial ports (R309, R312, R313, R315, R419): a connection on a served link takes a free pair or is closed; it closes when its client closes it, when its
framing is lost and when nothing has come for its time-out; SPI holds up to eight requests, gives its status word and the bytes of the oldest answer; the I²C block is read
from its pointer on. The model's readings it rests on: log entries 21, 32, 33. -/
def Obligations.ConnectionsAndSerialPorts : Prop :=
  ∀ (s : State) (t : Tick),
    let a := s.at t
    (∀ link n, a.servedOn 1 = true → (a.link link).up = true → a.freePair = some n → exec (.tcpConnect t link) s = .next (a.openSession n link)) ∧
    (∀ link, a.servedOn 1 = true → (a.link link).up = true → a.freePair = none → exec (.tcpConnect t link) s = .next (a.emit (.closed 7))) ∧
    (∀ link, a.servedOn 1 = false ∨ (a.link link).up = false → exec (.tcpConnect t link) s = .next a) ∧
    (∀ pair, exec (.tcpClose t pair) s = .next (if tcpPair pair = true then a.closeSession pair else a)) ∧
    (∀ pair, tcpPair pair = true → (a.pair pair).open_ = true → a.pG K.ncpIdleTimeoutS ≠ 0 → (a.pair pair).lastAt + a.pG K.ncpIdleTimeoutS * secondTicks ≤ a.now →
      exec (.sessionIdleTimeout t pair) s = .next (a.closeSession pair)) ∧
    (∀ pair, a.pG K.ncpIdleTimeoutS = 0 ∨ a.now < (a.pair pair).lastAt + a.pG K.ncpIdleTimeoutS * secondTicks → exec (.sessionIdleTimeout t pair) s = .next a) ∧
    (∀ pair (magic : BitVec 16) n, tcpPair pair = true → (magic ≠ 0x434E ∨ 65536 < n) → exec (.ncpFramingLoss t pair magic n) s = .next (a.closeSession pair)) ∧
    (∀ pair n, n ≤ 65536 → exec (.ncpFramingLoss t pair 0x434E n) s = .next a) ∧
    (a.mode ≠ .off →
      let b := a.spiTouch.emit (.spiData (le 4 a.spiTouch.spiWord))
      exec (.spiStatus t) s = .next { b with spi := { b.spi with lost := false } }) ∧
    (∀ msg, a.servedOn 0 = true →
      let b := a.spiTouch
      exec (.spiWrite t msg) s = .next (if b.spi.inbox.length < 8 then { b with spi := { b.spi with inbox := b.spi.inbox ++ [msg] } }
        else { b with spi := { b.spi with lost := true } })) ∧
    (∀ msg, a.servedOn 0 = false → exec (.spiWrite t msg) s = .next a) ∧
    (∀ length, a.mode ≠ .off →
      let b := a.spiTouch
      let m := b.spiNext.getD []
      let c := b.emit (.spiData (m.take length ++ List.replicate (length - m.length) 0))
      exec (.spiRead t length) s = .next (if b.spiNext.isSome = true ∧ m.length = length then c.spiTook else c)) ∧
    (a.mode = .off → exec (.spiStatus t) s = .next a ∧ ∀ length, exec (.spiRead t length) s = .next a) ∧
    (∀ b : Byte, a.mode.answersI2c = true → b.toNat ≤ 15 →
      exec (.i2cPointerWrite t [b]) s = .next (a.withPower { a.power with i2c := { a.power.i2c with pointer := b.toNat } })) ∧
    (∀ data, a.mode.answersI2c = false ∨ data.length ≠ 1 → exec (.i2cPointerWrite t data) s = .next a) ∧
    (∀ length, a.mode.answersI2c = true →
      exec (.i2cRead t length) s = .next ((a.withPower { a.power with i2c := ⟨a.power.i2c.pointer, le 16 a.i2cBlock⟩ }).emit
        (.i2cData ((List.range length).map (fun i => (le 16 a.i2cBlock).getD ((a.power.i2c.pointer + i) % 16) 0))))) ∧
    (∀ length, a.mode.answersI2c = false → exec (.i2cRead t length) s = .next a)

/-- The network links (R139, R380): a link lost outside GEODE goes down and what was on it with it; in GEODE the kept link's loss is kept for its next try; a link that comes up
outside GEODE is taken, at 1000BASE-T in BEDROCK; in shallow GEODE the kept link answers for the module's own address and nothing else. The model's readings it rests on: log
entries 21, 33, 43, 66. -/
def Obligations.NetworkLinksComeAndGo : Prop :=
  ∀ (s : State) (t : Tick) (link : Port),
    let a := s.at t
    let l := a.link link
    (a.power.geode = none → exec (.networkLinkLoss t link) s = .next ((a.linkDown link).testedLink link false)) ∧
    (∀ g, a.power.geode = some g → g.kept = some link → l.up = true →
      let b := a.setLink link { l with up := false, since := a.now }
      exec (.networkLinkLoss t link) s = .next (b.withPower { b.power with geode := some { g with down := some b.now } })) ∧
    (∀ g, a.power.geode = some g → g.kept ≠ some link ∨ l.up = false → exec (.networkLinkLoss t link) s = .next a) ∧
    (∀ gigabit, l.up = false → a.mode ≠ .off → a.mode ≠ .save → a.linkHeld link = false → a.power.geode = none →
      exec (.networkLinkUp t link gigabit) s =
        .next (((a.setLink link { l with up := true, gigabit := gigabit || a.mode == .bedrock, since := a.now }).moveTo link).relinkNext link)) ∧
    (∀ gigabit, l.up = false → a.mode ≠ .off → a.mode ≠ .save → a.linkHeld link = true → exec (.networkLinkUp t link gigabit) s = .next (a.testedLink link true)) ∧
    (∀ gigabit g, l.up = false → a.mode ≠ .off → a.mode ≠ .save → a.linkHeld link = false → a.power.geode = some g → g.kept = some link → g.deep = false →
      let b := a.setLink link { l with up := true, gigabit := true, since := a.now }
      exec (.networkLinkUp t link gigabit) s = .next (b.withPower { b.power with geode := some { g with down := none } })) ∧
    (∀ gigabit, l.up = true ∨ a.mode = .off ∨ a.mode = .save → exec (.networkLinkUp t link gigabit) s = .next a) ∧
    (∀ ipv6 addr g, a.power.geode = some g → a.mode = .geode → g.deep = false → g.kept = some link → l.up = true → a.ownAddress link ipv6 addr = true →
      exec (.arpNeighbourSolicitation t link ipv6 addr) s = .next (a.emit (.linkAnswer link (b2n ipv6)))) ∧
    (∀ ipv6 addr, a.power.geode = none ∨ a.mode ≠ .geode ∨ a.ownAddress link ipv6 addr = false → exec (.arpNeighbourSolicitation t link ipv6 addr) s = .next a)

/-- The Raman receiver (R145, R153, R159): the second half of a dark frame publishes both bands' offsets and checks their paths where the test DAC is free, and the integration
keeps its own offsets and fault; the check each second moves each band's step; an integration that ended is published as the port's flags, coil temperature, Δα and coverage
and goes to the streams, port B's after port A's where both ended at one instant; a result takes its own coil term where the coil sensor's mean is valid, else one held for up
to 10 results. The model's readings it rests on: log entries 13, 21, 22, 27. -/
def Obligations.RamanResultsArePublished : Prop :=
  (∀ (s : State) (t : Tick) (p : Port),
    let a := s.at t
    let d := a.dts p
    (∀ x (offset mean : List Nat), d.cur = some x → x.dark = true →
      let want : Bool := a.pI p (K.portDtsPathcheck p) == 1
      let check : Bool := want && !a.raman.dacFe
      let b : State := if check then { a with raman := { a.raman with dacRaman := max a.raman.dacRaman (a.now + a.roGet (K.portFramePeriodLive p) / 2) } } else a
      let ra := b.darkBand p 0 (offset.getD 0 0) (mean.getD 0 0) check x.bank.epoch
      let rs := ra.1.darkBand p 1 (offset.getD 1 0) (mean.getD 1 0) check x.bank.epoch
      exec (.darkFrameSecondHalf t p offset mean) s =
        .next (rs.1.setDts p { rs.1.dts p with faultAs := ra.2, faultS := rs.2,
                                               cur := some { x with pathSkipped := want && !check, fault := ra.2 || rs.2, offAs := offset.getD 0 0, offS := offset.getD 1 0 } })) ∧
    (∀ offset mean, d.cur = none ∨ (∃ x, d.cur = some x ∧ x.dark = false) → exec (.darkFrameSecondHalf t p offset mean) s = .next a) ∧
    (∀ x, d.cur = some x → x.nextCheck ≤ a.now →
      let ra := bandCheck x.bandAs (a.roGet (K.portDtsBandOffset p 0)) (a.pI p (K.portDtsBandFeedbackMode p 0) == 0) d.stepAs a.now
      let rs := bandCheck x.bandS (a.roGet (K.portDtsBandOffset p 1)) (a.pI p (K.portDtsBandFeedbackMode p 1) == 0) d.stepS a.now
      exec (.dtsFeedbackCheck t p) s = .next (a.setDts p { d with cur := some { x with bandAs := ra.1, bandS := rs.1, nextCheck := x.nextCheck + secondTicks },
                                                                  stepAs := ra.2, stepS := rs.2 })) ∧
    (d.cur = none ∨ (∃ x, d.cur = some x ∧ a.now < x.nextCheck) → exec (.dtsFeedbackCheck t p) s = .next a) ∧
    (∀ x rest, d.done = x :: rest → a.mode.working = true → (p = .b → ∀ y ∈ (a.dts .a).done, y.endAt ≠ x.endAt) →
      let r := x.result d p a.fresh
      let live := a.roGet (K.portDtsPointsLive p)
      let temps := (List.range live).map (fun j => ofLe (pointBytes 2 p r.h r.term r.dalpha live (a.fresh + 2) j))
      let b := a.setDts p { d with done := rest, heldTerm := if r.own.isSome = true then r.own else d.heldTerm, heldRuns := r.runs, last := some (x.endAt, r.term.isNone, temps) }
      let c := (((b.roSet (K.portDtsLastFlags p) r.flags).roSet (K.portDtsLastCoilTemperature p) r.coil).roSet (K.portDtsLastDalpha p) r.dalphaF).roSet
        (K.portDtsLastCoverage p) (if x.frames = 0 then 0 else min 65535 (x.used * 65536 / x.frames))
      let e := c.dtsBlocks p x r
      exec (.dtsResultPublish t p x.number) s = .next ((({ e with fresh := e.fresh + 131074 } : State).coilCheck p r.own x.bank.epoch).settleAll)) ∧
    (∀ number, d.done = [] ∨ a.mode.working = false ∨ (∀ x ∈ d.done, x.number ≠ number) → exec (.dtsResultPublish t p number) s = .next a)) ∧
  (∀ (x : Integ) (d : DtsPort) (p : Port) (n : Nat),
    let r := x.result d p n
    (∀ c, x.coil.mean = some c → r.coil = f32Round c ∧
      (0 < x.used → r.own = some (coilTermOf p x.response c n) ∧ r.term = r.own ∧ r.runs = 0)) ∧
    (x.coil.mean = none → r.coil = 0x7FC00000 ∧ r.own = none ∧
      (0 < x.used → d.heldTerm.isSome = true → d.heldRuns < 10 → r.term = d.heldTerm ∧ r.runs = d.heldRuns + 1) ∧
      (d.heldTerm = none ∨ 10 ≤ d.heldRuns → r.term = none)) ∧
    (x.used = 0 → r.own = none ∧ r.term = none))

/-- The front end's scan (R164, R166): a scan starts when it is due, with its channels in order and its period; each slot takes its channel's settings, and begins its filter anew
where they changed; a window's end makes its conversion. Before their time they do nothing. The model's readings it rests on: log entries 12, 21, 67. -/
def Obligations.TheFrontEndScans : Prop :=
  ∀ (s : State) (t : Tick),
    let a := s.at t
    let f := a.front
    (a.feRuns = true → f.scanning = false → f.nextScan ≤ a.now →
      let on := a.feEnabled
      let b := if on ≠ f.enabled then a.refCloseAll else a
      let ms := b.pG K.feScanPeriodMs
      let chans := (List.range 10).map (fun n => if on.contains n then b.feCh n
        else { b.feCh n with scanned := false, excited := false, tripOpen := false, tripShort := false })
      let c := b.withFront { b.front with chans := chans, order := on, enabled := on, scanning := true, scanStart := b.now, scanStamp := b.stamp, scan := [],
                                          scanUnsettled := false, period := ms }
      exec (.feScanStart t) s = .next (c.roSet K.feScanPeriodLive (if ms = 0 then scanTicks c.cfg.actG.set on else ms * msTicks))) ∧
    (a.feRuns = false ∨ f.scanning = true ∨ a.now < f.nextScan → exec (.feScanStart t) s = .next a) ∧
    (∀ ch rest, ch < 10 → a.feRuns = true → f.scanning = true → f.order = ch :: rest → f.slot = none → f.chans.length = 10 →
      ∃ b sl, exec (.feSlotStart t ch) s = .next b ∧ b.front.slot = some sl ∧ sl.ch = ch ∧ sl.start = a.now ∧ sl.conv = none ∧
        sl.testing = (a.testTarget ch && !decide (a.now < a.raman.dacRaman)) ∧ b.front.order = rest ∧
        (b.feCh ch).set = a.cfg.actG.set ∧ (b.feCh ch).epoch = a.cfg.actG.epoch ∧ (∀ other < 10, other ≠ ch → b.feCh other = a.feCh other) ∧
        ((a.feCh ch).scanned = false ∨ (∃ k ∈ filterFields ch, (a.feCh ch).set.get k ≠ a.cfg.actG.set.get k) → (b.feCh ch).hist = [] ∧ (b.feCh ch).outputs = 0)) ∧
    (∀ ch, a.feRuns = false ∨ f.scanning = false ∨ f.order.head? ≠ some ch ∨ f.slot.isSome = true → exec (.feSlotStart t ch) s = .next a) ∧
    (∀ ch obs sl, f.slot = some sl → sl.ch = ch → sl.conv = none →
      let x := a.feCh ch
      let g := x.par (K.feChGain ch)
      sl.start + x.par (K.feChSettle ch) + windowTicks (x.par (K.feChOsr ch)) ≤ a.now →
        let conv : FeConv := { raw := rawOf obs.num (max 1 obs.den) g, overrange := overRange obs.num (max 1 obs.den) g || obs.fullScale,
                               refFault := refOutside (x.par (K.feChReference ch)) obs.refLow obs.refHigh, parityOk := obs.parityOk, end_ := a.stamp, endTick := a.now }
        exec (.feWindowEnd t ch obs) s = .next (a.withFront { f with slot := some { sl with conv := some conv } })) ∧
    (∀ ch obs sl, f.slot = some sl → a.now < sl.start + (a.feCh ch).par (K.feChSettle ch) + windowTicks ((a.feCh ch).par (K.feChOsr ch)) →
      exec (.feWindowEnd t ch obs) s = .next a)

/-- The front end's results and the housekeeping (R172, R176, R178): a result is the filtered code with its flags, or no number where a lead is open, a current source short, the
reference faulty or a test runs, and a last slot ends the scan; a compliance trip marks its channel; HK_BURST publishes the readings that are due. The model's readings it
rests on: log entries 4, 12, 13, 67, 68. -/
def Obligations.FrontEndResultsAndHousekeeping : Prop :=
  ∀ (s : State) (t : Tick),
    let a := s.at t
    (∀ ch broken sl cv, a.front.slot = some sl → sl.conv = some cv → sl.ch = ch → cv.endTick + 10000 ≤ a.now →
      exec (.feResultPublish t ch broken) s = .next (a.fePublish ch sl cv (a.feResult ch sl cv broken)).feScanEnd) ∧
    (∀ ch broken sl cv,
      let x := a.feCh ch
      let r := a.feResult ch sl cv broken
      let test := sl.testing && decide (ch ≤ 3)
      let noNumber := r.isOpen || r.short || cv.refFault || test
      let counts := !noNumber && !cv.overrange && cv.parityOk
      r.lines = (if ch ≤ 3 ∧ x.par (K.feChLeadCheck ch) = 1 ∧ x.excited = true then broken / 2 % 16 * 2 else 0) + b2n x.tripOpen ∧
      (r.isOpen = true ↔ r.lines ≠ 0) ∧ r.short = x.tripShort ∧ r.chan.tripOpen = false ∧ r.chan.tripShort = false ∧ r.chan.set = x.set ∧ r.chan.accepted = counts ∧
      (noNumber = true → r.value = 0x7FC00000 ∧ r.word = resultWord (-8388608) r.isOpen r.unsettled sl.refSettling cv.overrange cv.refFault test a.blockT.2 r.short) ∧
      (noNumber = false → cv.overrange = true → r.word = resultWord cv.raw false r.unsettled sl.refSettling true false false a.blockT.2 false) ∧
      (counts = true → x.accepted = true →
        let kept := (cv.raw :: x.hist).take (filterM (x.par (K.feChFilter ch)))
        r.chan.hist = kept ∧ r.word = resultWord (filterOut kept) false r.unsettled sl.refSettling false false false a.blockT.2 false ∧
        r.value = linearise x.set ch (f32Round (mkRat (filterOut kept) (2 ^ (23 + x.par (K.feChGain ch))))) a.blockT.1)) ∧
    (∀ ch broken, a.front.slot = none ∨ (∃ sl, a.front.slot = some sl ∧ sl.conv = none) → exec (.feResultPublish t ch broken) s = .next a) ∧
    (∀ ch, ch < 4 → a.feRuns = true → (a.feCh ch).excited = true →
      let x := a.feCh ch
      ((x.par (K.feChExcitation ch) = 1) → exec (.feComplianceTrip t ch .excHigh) s = .next (a.setFeCh ch { x with tripOpen := true })) ∧
      ((x.par (K.feChExcitation ch) = 2) → exec (.feComplianceTrip t ch .currentLow) s = .next (a.setFeCh ch { x with tripOpen := true }) ∧
        exec (.feComplianceTrip t ch .currentLimit) s = .next (a.setFeCh ch { x with tripShort := true })) ∧
      (x.par (K.feChExcitation ch) = 0 → ∀ trip, exec (.feComplianceTrip t ch trip) s = .next a)) ∧
    (∀ ch trip, a.feRuns = false ∨ (a.feCh ch).excited = false ∨ 4 ≤ ch → exec (.feComplianceTrip t ch trip) s = .next a) ∧
    (∀ readings, a.mode ≠ .off → a.mode ≠ .geode →
      let b := readings.foldl (fun (st : State) r => if st.hkDue r.channel = true then st.hkRead r else st) a
      exec (.hkBurst t readings) s = .next (if (readings.any (fun r => r.channel == 9 || r.channel == 10)) = true then
        (b.roSet K.powerCaseC (f32Round (mkRat b.caseCenti 100))).coilFlags else b)) ∧
    (∀ readings, a.mode = .off ∨ a.mode = .geode → exec (.hkBurst t readings) s = .next a)

/-- Triggers and captures (R224, R227, R231, R232, R234, R235, R238, R242, R243): in RUNNING a condition is judged on its source; a TIME condition fires at its instants; an output
pulse ends at its time; firings of one group are told when the merge time is over; a capture takes its records one by one, completes when its window is over, is released when
its retention ends, and its sendings and derivations end. The model's readings it rests on: log entries 21, 40, 45. -/
def Obligations.TriggersFireAndCapturesFill : Prop :=
  ∀ (s : State) (t : Tick),
    let a := s.at t
    (∀ cond which, a.mode = .running →
      (a.pG (K.trigCondSource cond) = 0 → exec (.triggerEvaluation t cond which) s = .next (a.evalStrain cond which)) ∧
      (a.pG (K.trigCondSource cond) = 1 → exec (.triggerEvaluation t cond which) s = .next (a.evalKernel cond which)) ∧
      (a.pG (K.trigCondSource cond) = 2 → exec (.triggerEvaluation t cond which) s = .next (a.evalDts cond)) ∧
      (a.pG (K.trigCondSource cond) = 3 → exec (.triggerEvaluation t cond which) s = .next (a.evalEvent cond which))) ∧
    (∀ cond which, a.mode ≠ .running → exec (.triggerEvaluation t cond which) s = .next a) ∧
    (∀ cond x, a.mode = .running → a.pG (K.trigCondEnable cond) ≠ 0 → a.pG (K.trigCondSource cond) = 4 →
      nextInstant (stampOfBits (a.pG (K.trigCondTime cond))) (a.cond cond).since (a.pG (K.trigCondPeriodMs cond)) = some x → x ≤ a.stamp →
      let set := a.condSet none x
      exec (.timeConditionInstant t cond) s = .next ((a.setCond cond { a.cond cond with since := x + 1 }).fire set cond (x + condOffset set cond))) ∧
    (∀ cond, a.mode ≠ .running ∨ a.pG (K.trigCondEnable cond) = 0 ∨ a.pG (K.trigCondSource cond) ≠ 4 → exec (.timeConditionInstant t cond) s = .next a) ∧
    (∀ j e, a.trig.pulses.getD j none = some e → e ≤ a.now →
      exec (.evtOutPulseEnd t j) s = .next (({ a with trig := { a.trig with pulses := a.trig.pulses.set j none } } : State).emit (.evtOut j false))) ∧
    (∀ j e, a.trig.pulses.getD j none = some e → a.now < e → exec (.evtOutPulseEnd t j) s = .next a) ∧
    (let due := fun (g : Group) => decide (g.since + a.pG K.trigMergeMs * msTicks ≤ a.now)
     exec (.triggerGroupNotify t) s =
       .next ((a.trig.groups.filter due).foldl State.notifyGroup { a with trig := { a.trig with groups := a.trig.groups.filter (fun g => !due g) } })) ∧
    (∀ n c, a.capture n = some c → c.complete = false →
      (∀ r, a.nextRecord c = some r → exec (.captureRecordCopy t n) s = .next (a.modCapture n (fun x => x.copy r))) ∧
      (a.windowDone c = true → exec (.captureComplete t n) s = .next (a.completeCapture n)) ∧
      (a.windowDone c = false → exec (.captureComplete t n) s = .next a) ∧
      exec (.captureRetainExpiry t n) s = .next a) ∧
    (∀ n c, a.capture n = some c → c.complete = true →
      let retain := a.pG K.captureRetainS
      exec (.captureRecordCopy t n) s = .next a ∧ exec (.captureComplete t n) s = .next a ∧
      (retain ≠ 0 → c.completedAt + retain * secondTicks ≤ a.now → exec (.captureRetainExpiry t n) s = .next (a.releaseCapture n)) ∧
      (retain = 0 ∨ a.now < c.completedAt + retain * secondTicks → exec (.captureRetainExpiry t n) s = .next a)) ∧
    (∀ n c sid, a.capture n = some c → c.sends.find? (fun x => !((a.stream x).queue.any (fun y => y.kind == 5 && y.format == 0x14 && y.block == n))) = some sid →
      exec (.captureSendComplete t n) s = .next ((a.modCapture n (fun x => { x with sends := x.sends.erase sid })).useEnded n)) ∧
    (∀ r rest, a.trig.derives = r :: rest →
      let b := a.enqueue r.stream 5 (a.deriveTiles r)
      exec (.captureDeriveComplete t) s = .next (((({ b with trig := { b.trig with derives := rest } } : State).modCapture r.capture
        (fun x => { x with derives := x.derives - 1 })).useEnded r.capture)))

/-- The memory's traffic (R253, R254, R255, R256, R257): at a burst boundary the arrivals queue and age, a run goes on while its port has more within its cap, then a refresh that
must not wait, an easy refresh beside, and the request chosen next; a rank's debt of refreshes rises at each interval; the poll doubles its rate; a row idle for 64 clocks
closes; the meters start anew every 10 µs. While the DRAM domain is stopped they do nothing (R24). The model's readings it rests on: log entries 17, 21, 41. -/
def Obligations.TheMemoryServesItsPorts : Prop :=
  ∀ (s : State) (clock : Nat),
    let a := s.at (clockTick clock)
    (s.power.clocks.dram = true →
    (∀ arrivals ecc,
      let b := (List.range 7).foldl (fun st p => st.ageRequests p clock) (arrivals.foldl State.arrive a.memSecond)
      let c := b.withMem { b.mem with run := none }
      let d := (List.range 5).foldl (fun st r => st.easyRefresh r clock) c
      (∀ r q, b.mem.run = some r → b.candidate clock r.port = some q → r.bytes + q.req.bytes ≤ runCap r.port →
        exec (.dramBurstBoundary clock arrivals ecc) s = .next (b.serve r.port clock ecc)) ∧
      (b.mem.run = none ∨ (∃ r, b.mem.run = some r ∧ ∀ q, b.candidate clock r.port = some q → runCap r.port < r.bytes + q.req.bytes) →
        (∀ k, c.forcedDue clock = some k → exec (.dramBurstBoundary clock arrivals ecc) s = .next (c.forceRefresh k clock)) ∧
        (∀ p, c.forcedDue clock = none → d.choose clock = some p → exec (.dramBurstBoundary clock arrivals ecc) s = .next (d.serve p clock ecc)) ∧
        (c.forcedDue clock = none → d.choose clock = none → exec (.dramBurstBoundary clock arrivals ecc) s = .next d))) ∧
    (∀ rank, a.refreshed rank = true →
      let y := ({ a.rank rank with debt := (a.rank rank).debt + 1 } : MemRank).judgeDebt
      let b := a.setRank rank y
      exec (.refreshInterval clock rank) s =
        .next (if b.roInt (K.memRankRefreshDebtMax rank) < y.debt then b.roSetInt (K.memRankRefreshDebtMax rank) (min 15 y.debt) else b)) ∧
    (∀ rank, a.refreshed rank = false → exec (.refreshInterval clock rank) s = .next a) ∧
    (∀ rank t doubled, exec (.refreshRatePoll t rank doubled) s =
      .next (if (s.at t).refreshed rank = true then (s.at t).roSet (K.memRankRefreshRate rank) (b2n doubled) else s.at t)) ∧
    (∀ rank bank, let x := a.rank rank
      let y := x.bank bank
      let wanted := fun (q : MemReq) => (placeOf q.req.address).bank = bank ∧ y.row = some (placeOf q.req.address).row ∧ rank ∈ a.servers q.req.address q.req.write
      (y.row.isSome = true → y.lastUse + 64 ≤ clock → (∀ p ∈ a.mem.ports, ∀ q ∈ p.fifo, ¬ wanted q) →
        exec (.rowIdleClose clock rank bank) s = .next (a.setRank rank { x with banks := x.banks.set bank { y with row := none } })) ∧
      (y.row = none ∨ clock < y.lastUse + 64 ∨ (∃ p ∈ a.mem.ports, ∃ q ∈ p.fifo, wanted q) → exec (.rowIdleClose clock rank bank) s = .next a)) ∧
    (∀ t, (s.at t).mem.meterAt + 2000 ≤ (s.at t).now → exec (.qosMeterWindow t) s =
      .next ((s.at t).withMem { (s.at t).mem with meterAt := (s.at t).now, ports := (s.at t).mem.ports.map (fun x => { x with meter := 0 }) })) ∧
    (∀ t, (s.at t).now < (s.at t).mem.meterAt + 2000 → exec (.qosMeterWindow t) s = .next (s.at t)) ∧
    (∀ port, port ≠ 0 → exec (.requestUrgencyAge clock port) s = .next (a.ageRequests port clock)) ∧
    exec (.requestUrgencyAge clock 0) s = .next a) ∧
    (s.power.clocks.dram = false →
      (∀ arrivals ecc, exec (.dramBurstBoundary clock arrivals ecc) s = .next a) ∧ (∀ rank, exec (.refreshInterval clock rank) s = .next a) ∧
      (∀ t rank doubled, exec (.refreshRatePoll t rank doubled) s = .next (s.at t)) ∧ (∀ rank bank, exec (.rowIdleClose clock rank bank) s = .next a) ∧
      (∀ t, exec (.qosMeterWindow t) s = .next (s.at t)) ∧ ∀ port, exec (.requestUrgencyAge clock port) s = .next a)

/-- The memory's care of itself (R263, R264, R265, R266, R267): the patrol reads its next burst when due and counts its passes; a write-back leaves its address to be checked
again; a migration's spare is verified and, its copy done, takes its rank's place; the lanes' tracking moves each lane by one step at most; the spare rank is tested once a day
and tells a faulty device. While the DRAM domain is stopped they do nothing (R24). The model's readings it rests on: log entries 18, 21, 41, 42. -/
def Obligations.TheMemoryCaresForItself : Prop :=
  ∀ (s : State) (t : Tick),
    let a := s.at t
    (a.power.clocks.dram = true →
    (∀ ecc, a.mode.working = true → a.mem.migration = none → a.mem.patrolAt + 64000 ≤ a.now →
      let pos := a.roGet K.memScrubPosition
      let b := (a.withMem { a.mem with patrolAt := a.now }).bump (K.memPortBytes 6) 256
      let c := (b.readBurst 6 pos ((b.servers pos false).headD 0) ecc).roSet K.memScrubPosition (pos + 256)
      exec (.patrolScrubRead t ecc) s = .next (if pos + 256 = 2 ^ 36 then (c.bump K.memScrubPassCount 1).bgDone 0 else c)) ∧
    (∀ ecc, a.mode.working = false ∨ a.mem.migration.isSome = true ∨ a.now < a.mem.patrolAt + 64000 → exec (.patrolScrubRead t ecc) s = .next a) ∧
    (∀ address, (∃ e ∈ a.mem.writeBacks, e.1 = address) →
      let rest := a.mem.writeBacks.filter (fun e => !(e.1 == address))
      exec (.eccWriteBack t address) s = .next ((a.withMem { a.mem with writeBacks := rest, recheck := address :: a.mem.recheck }).bump (K.memPortBytes 6) 256)) ∧
    (∀ address, (∀ e ∈ a.mem.writeBacks, e.1 ≠ address) → exec (.eccWriteBack t address) s = .next a) ∧
    (∀ ok full g, a.mem.migration = some g → g.verified = false →
      let b := a.trainRank g.new full ok
      (∀ h, b.mem.migration = some h →
        exec (.migrationSpareVerified t ok full) s = .next (b.withMem { b.mem with migration := some { h with verified := true, since := some b.now } })) ∧
      (b.mem.migration = none → exec (.migrationSpareVerified t ok full) s = .next b)) ∧
    (∀ g, a.mem.migration = some g → g.verified = true → g.elapsed a.now = copyTicks → clockTick (a.rank g.old).burstEnd ≤ a.now →
      let b := a.withMem { a.mem with table := a.mem.table.set g.logical g.new, migration := none, retired := g.old :: a.mem.retired }
      exec (.migrationComplete t) s =
        .next (((b.setRank g.old { b.rank g.old with selfRefresh := true }).publishRanks).raise Ev.memMigrationDone [u g.old, u g.new, u g.logical])) ∧
    (∀ g, a.mem.migration = some g → g.verified = false ∨ g.elapsed a.now ≠ copyTicks → exec (.migrationComplete t) s = .next a) ∧
    (∀ rank moves, a.refreshed rank = true → (a.rank rank).tracked + 20000000 ≤ a.now →
      exec (.wckDqTracking t rank moves) s = .next (a.setRank rank { a.rank rank with tracked := a.now, steps := (moves.take 162).map (clampInt (-1) 1) })) ∧
    (∀ rank moves, a.refreshed rank = false ∨ a.now < (a.rank rank).tracked + 20000000 → exec (.wckDqTracking t rank moves) s = .next a) ∧
    (∀ rank, let x := a.rank rank
      let moved := (List.range x.lanes.length).map (fun i => x.lanes.getD i 0 + x.steps.getD i 0)
      x.steps ≠ [] → a.forcedDue (4 * a.now) ≠ some rank → x.burstEnd ≤ 4 * a.now →
        exec (.trackingStep t rank) s = .next (a.setRank rank { x with lanes := moved, steps := [], banks := x.banks.map (fun b => { b with busy := max b.busy (4 * a.now + 16) }) })) ∧
    (∀ rank, (a.rank rank).steps = [] ∨ 4 * a.now < (a.rank rank).burstEnd → exec (.trackingStep t rank) s = .next a) ∧
    (∀ r, a.spareRank = some r → a.mode.working = true → a.mem.spareTest = none → a.mem.spareLast + 86400 * secondTicks ≤ a.now →
      exec (.spareRankTest t) s = .next ((a.withMem { a.mem with spareTest := some a.now, spareLast := a.now }).setRank r { a.rank r with selfRefresh := false })) ∧
    (∀ r, a.spareRank = some r → a.mem.spareTest.isSome = true ∨ a.now < a.mem.spareLast + 86400 * secondTicks → exec (.spareRankTest t) s = .next a) ∧
    (∀ r since, a.spareRank = some r → a.mem.spareTest = some since → since + spareTestTicks ≤ a.now →
      let b := ((a.withMem { a.mem with spareTest := none }).setRank r { a.rank r with selfRefresh := true }).bgDone 1
      exec (.spareRankTestEnd t none) s = .next b ∧ ∀ d, exec (.spareRankTestEnd t (some d)) s = .next (b.deviceFaulty r d)) ∧
    (∀ r since failing, a.spareRank = some r → a.mem.spareTest = some since → a.now < since + spareTestTicks → exec (.spareRankTestEnd t failing) s = .next a)) ∧
    (a.power.clocks.dram = false →
      (∀ ecc, exec (.patrolScrubRead t ecc) s = .next a) ∧ (∀ address, exec (.eccWriteBack t address) s = .next a) ∧
      (∀ ok full, exec (.migrationSpareVerified t ok full) s = .next a) ∧ exec (.migrationComplete t) s = .next a ∧
      (∀ rank moves, exec (.wckDqTracking t rank moves) s = .next a) ∧ (∀ rank, exec (.trackingStep t rank) s = .next a) ∧ exec (.spareRankTest t) s = .next a ∧
      ∀ failing, exec (.spareRankTestEnd t failing) s = .next a)

/-- The frequency and the seconds (R275, R277, R279, R288): a frequency input that appears or goes is told and judged anew, its gate counts against its tolerance; PPS edges in
their window are measured while the TDC's clock runs, three of them make the input present, a late one ends it; the steering runs once a second; in holdover the oscillator's
ageing is made up step by step; PPS_OUT rises at whole seconds and falls 100 ms later. The model's readings it rests on: log entries 13, 21, 24. -/
def Obligations.FrequencyAndSecondsAreTracked : Prop :=
  ∀ (s : State) (t : Tick),
    let a := s.at t
    (∀ inp, exec (.refInputPresent t inp) s = .next ((a.roSet (freqPresent inp) 1).setFreqIn inp FreqIn.none)) ∧
    (∀ inp, exec (.refInputLost t inp) s = .next (((a.roSet (freqPresent inp) 0).setFreqIn inp FreqIn.none).selectFreq)) ∧
    (∀ inp (dev : Int), a.roGet (freqPresent inp) ≠ 0 →
      let r := gateEnd (a.freqIn inp) (decide (dev.natAbs ≤ 100000000))
      let code := match inp with
        | .ref10m => 1
        | .ensClk => 2
      let b := if r.2 then (a.setFreqIn inp r.1).raise Ev.refOutOfTol [u code, sv dev] else a.setFreqIn inp r.1
      exec (.freqGateEnd t inp dev) s = .next b.selectFreq) ∧
    (∀ inp dev, a.roGet (freqPresent inp) = 0 → exec (.freqGateEnd t inp dev) s = .next a) ∧
    (∀ sub residual, a.power.clocks.tdc = false → exec (.ppsInEdge t sub residual) s = .next a) ∧
    (∀ sub residual last, a.power.clocks.tdc = true → a.roGet K.timebasePpsPresent = 1 → a.time.pps.lastEdge = some last →
      let edge := t * 5000 + sub
      let b := a.withTime { a.time with pps := { a.time.pps with lastEdge := some edge } }
      (last + 999999000000 ≤ edge → edge ≤ last + 1000001000000 →
        exec (.ppsInEdge t sub residual) s = .next (b.ppsMeasure (a.counter t * tickUnits + ((sub * 65536 / 1000 : Nat) : Int)) residual)) ∧
      (edge < last + 999999000000 ∨ last + 1000001000000 < edge → exec (.ppsInEdge t sub residual) s = .next a)) ∧
    (∀ sub residual, a.power.clocks.tdc = true → a.roGet K.timebasePpsPresent ≠ 1 →
      let edge := t * 5000 + sub
      let n := match a.time.pps.lastEdge with
        | some last => if last + 999999000000 ≤ edge ∧ edge ≤ last + 1000001000000 then a.time.pps.accepted + 1 else 1
        | none => 1
      let b := a.withTime { a.time with pps := { a.time.pps with lastEdge := some edge, accepted := n } }
      exec (.ppsInEdge t sub residual) s =
        .next (if 3 ≤ n then (b.roSet K.timebasePpsPresent 1).ppsMeasure (a.counter t * tickUnits + ((sub * 65536 / 1000 : Nat) : Int)) residual else b)) ∧
    (∀ last, a.time.pps.lastEdge = some last → a.roGet K.timebasePpsPresent = 1 → last + 1000001000000 ≤ a.now * 5000 →
      exec (.ppsInTimeout t) s = .next (((a.roSet K.timebasePpsPresent 0).withTime
        { a.time with pps := { a.time.pps with accepted := 0, lastEdge := none, label := none, source := .unknown } }).selectTime)) ∧
    (∀ last, a.time.pps.lastEdge = some last → a.now * 5000 < last + 1000001000000 → exec (.ppsInTimeout t) s = .next a) ∧
    (∀ dev, exec (.timeSteerUpdate t dev) s = .next (a.timeSteer dev)) ∧
    (let rate := a.roInt K.timebaseOcxoAgeing
     let due := a.roGet K.timebaseTimeActive = 4 ∧ 10 * 86400 * secondTicks ≤ rate.natAbs * (a.now - a.time.ageAt)
     (due → exec (.ocxoAgeingStep t) s = .next ((a.withTime { a.time with ageAt := a.now }).roSetInt K.timebaseOcxoEfc
       (clampInt (-200000) 200000 (a.roInt K.timebaseOcxoEfc - (if rate < 0 then -1 else 1))))) ∧
     (¬ due → exec (.ocxoAgeingStep t) s = .next a)) ∧
    (a.pG K.timebasePpsOutEnable = 1 → a.mode ≠ .off → a.mode ≠ .save → a.mode ≠ .geode → a.roGet K.timebaseQuality ≠ 3 → a.atWholeSecond t = true →
      (∀ last, a.time.ppsLast = some last → last + 32768000000000 ≤ a.stampAt t) → a.time.ppsOut = false →
      exec (.ppsOutEdge t) s = .next ((a.withTime { a.time with ppsOut := true, ppsStart := t, ppsLast := some (a.stampAt t) }).emit (.ppsEdge true))) ∧
    (a.pG K.timebasePpsOutEnable ≠ 1 ∨ a.roGet K.timebaseQuality = 3 ∨ a.atWholeSecond t = false ∨ a.mode = .geode → exec (.ppsOutEdge t) s = .next a) ∧
    (a.time.ppsOut = true → a.time.ppsStart + 20000000 ≤ a.now → exec (.ppsOutFall t) s = .next ((a.withTime { a.time with ppsOut := false }).emit (.ppsEdge false))) ∧
    (a.time.ppsOut = false ∨ a.now < a.time.ppsStart + 20000000 → exec (.ppsOutFall t) s = .next a)

/-- PTP (R283, R284): announces of the domain name the masters and lapse after three intervals; a sync or its follow-up of the best master gives the first pair of times, the delay
request and its response, or the peer delay response, the path delay; other messages have no effect. The model's readings it rests on: log entries 21, 24. -/
def Obligations.PtpMeasuresItsMaster : Prop :=
  ∀ (s : State) (t : Tick) (p : Port),
    let a := s.at t
    let x := a.time.ptp p
    (∀ m : Announce, a.ptpOn p = true → m.domain = a.pG K.timebasePtpDomain →
      exec (.ptpAnnounce t p m) s = .next ((a.setPtp p { x with masters := ⟨m, a.now⟩ :: x.masters.filter (fun y => y.data.identity ≠ m.identity) }).ptpRefresh p)) ∧
    (∀ m : Announce, a.ptpOn p = false ∨ m.domain ≠ a.pG K.timebasePtpDomain → exec (.ptpAnnounce t p m) s = .next a) ∧
    (let kept := x.masters.filter (fun m => decide (a.now < m.heard + 3 * announceTicks m.data.intervalLog))
     let same : Bool := (bestOf kept).map (·.identity) == (bestOf x.masters).map (·.identity)
     exec (.ptpAnnounceTimeout t p) s = .next ((a.setPtp p (if same then { x with masters := kept }
       else { x with masters := kept, syncSeq := none, t1t2 := none, pathDelay := none, phi := none, residuals := [] })).ptpRefresh p)) ∧
    (∀ master seq t1 rx, a.fromMaster p master = true →
      exec (.ptpSync t p master seq true t1 rx) s = .next (a.setPtp p { x with syncSeq := some (seq, rx) }) ∧
      exec (.ptpSync t p master seq false t1 rx) s = .next ((a.setPtp p { x with syncSeq := none, t1t2 := some (t1, rx) }).ptpMeasure p)) ∧
    (∀ master seq twoStep t1 rx, a.fromMaster p master = false → exec (.ptpSync t p master seq twoStep t1 rx) s = .next a) ∧
    (∀ master seq rx t1, x.syncSeq = some (seq, rx) → a.fromMaster p master = true →
      exec (.ptpFollowUp t p master seq t1) s = .next ((a.setPtp p { x with syncSeq := none, t1t2 := some (t1, rx) }).ptpMeasure p)) ∧
    (∀ master seq t1, x.syncSeq = none ∨ a.fromMaster p master = false → exec (.ptpFollowUp t p master seq t1) s = .next a) ∧
    (∀ tx m, a.ptpOn p = true → a.bestMaster p = some m →
      let n := (x.reqSeq + 1) % 65536
      exec (.ptpDelayReqSend t p tx) s = .next ((a.setPtp p { x with reqSeq := n, reqTx := some tx }).emit
        (.ptp p (if a.pG K.timebasePtpDelayMech = 0 then 1 else 2) (le 2 n)))) ∧
    (∀ tx, a.ptpOn p = false ∨ a.bestMaster p = none → exec (.ptpDelayReqSend t p tx) s = .next a) ∧
    (∀ master t1 t2 t3 t4, x.reqTx = some t3 → x.t1t2 = some (t1, t2) → a.fromMaster p master = true → a.pG K.timebasePtpDelayMech = 0 →
      exec (.ptpDelayResp t p master x.reqSeq t4) s = .next ((a.setPtp p { x with reqTx := none, pathDelay := some (((t2 - t3) + (t4 - t1)) / 2) }).ptpMeasure p)) ∧
    (∀ master seq t4, x.reqSeq ≠ seq ∨ a.fromMaster p master = false ∨ a.pG K.timebasePtpDelayMech ≠ 0 → exec (.ptpDelayResp t p master seq t4) s = .next a) ∧
    (∀ t1 t2 t3 t4, x.reqTx = some t1 → a.ptpOn p = true → a.pG K.timebasePtpDelayMech = 1 →
      exec (.ptpPdelayResp t p x.reqSeq t2 t3 t4) s = .next ((a.setPtp p { x with reqTx := none, pathDelay := some (((t4 - t1) - (t3 - t2)) / 2) }).ptpMeasure p)) ∧
    (∀ seq t2 t3 t4, x.reqSeq ≠ seq ∨ a.ptpOn p = false ∨ a.pG K.timebasePtpDelayMech ≠ 1 → exec (.ptpPdelayResp t p seq t2 t3 t4) s = .next a) ∧
    (∀ kind, exec (.ptpUnsupportedMessage t p kind) s = .next a)

/-- The time inputs (R285, R286, R287): an edge an input takes is stamped, to 3 ps, unless it comes within 4 ns of the last, which is counted; the outputs' dividers pass one edge
in ten thousand; stamps go to their reader; a gate's end fits frequency and phase to its stamps, and gives no frequency of fewer than three. The model's readings it rests on:
log entries 21, 24. -/
def Obligations.EdgesAreStampedAndFitted : Prop :=
  ∀ (s : State) (t : Tick) (input : Nat),
    let a := s.at t
    let x := a.tdcIn input
    (∀ rising sub, a.tdcTakes input rising = true → 5 ≤ input → x.divider + 1 < 10000 →
      exec (.tdcEdge t input rising sub) s = .next (a.setTdc input { x with divider := x.divider + 1 })) ∧
    (∀ rising sub, a.tdcTakes input rising = true → (input < 5 ∨ 10000 ≤ x.divider + 1) →
      let edge := t * 5000 + sub / 3 * 3
      let b := a.setTdc input { x with divider := 0 }
      ((∃ last, x.lastEdge = some last ∧ edge < last + 4000) → exec (.tdcEdge t input rising sub) s = .next (b.bump (K.tdcInMissed input) 1)) ∧
      ((∀ last, x.lastEdge = some last → last + 4000 ≤ edge) →
        exec (.tdcEdge t input rising sub) s = .next (b.tdcStamp input rising edge (b.stampAt t + ((sub / 3 * 3 * 65536 / 1000 : Nat) : Int))))) ∧
    (∀ rising sub, a.tdcTakes input rising = false → exec (.tdcEdge t input rising sub) s = .next a) ∧
    exec (.tdcStampDrain t input) s = .next (a.tdcDrain input).1 ∧
    (let nom := a.tdcNominal input
     let b := (a.setTdc input { x with gate := [], gateStart := a.now }).roSet (K.tdcInStamps input) x.gate.length
     (input ≤ 6 → nom ≠ 0 → x.gateStart + a.tdcGate input ≤ a.now → (x.gate.length < 3 ∨ (tdcFit x.gate nom).2.1 = 0) →
       exec (.tdcGateFit t input) s = .next (b.roSet (K.tdcInFreq input) 0x80000000)) ∧
     (input ≤ 6 → nom ≠ 0 → x.gateStart + a.tdcGate input ≤ a.now → 3 ≤ x.gate.length → (tdcFit x.gate nom).2.1 ≠ 0 →
       let first := (tdcFit x.gate nom).1
       let period := (tdcFit x.gate nom).2.1
       let centre : Rat := ((a.stampAt x.gateStart + a.stampAt a.now : Int) : Rat) / 2
       let residuals := (x.gate.zip (tdcFit x.gate nom).2.2).map (fun e => (roundRat ((((e.1 : Int) : Rat) - first - period * (e.2 : Rat)) * 1000 / 65536)).natAbs)
       exec (.tdcGateFit t input) s =
         .next (((b.roSetInt (K.tdcInFreq input) (roundRat (((((nom * 65536 : Nat) : Rat) / 1000) / period - 1) * 1000000000000))).roSet
           (K.tdcInPhase input) (tsBits (roundRat (first + period * (roundRat ((centre - first) / period) : Rat))))).roSet (K.tdcInResidual input) (rms residuals))) ∧
     (6 < input ∨ nom = 0 ∨ a.now < x.gateStart + a.tdcGate input → exec (.tdcGateFit t input) s = .next a))

/-- The emitter drive: a load of the chain takes what the sequencer shifted, counts its errors and tells them when they repeat; a measurement publishes current, voltage and
headroom and declares a channel OPEN or SHORT when two in a row say so, which faults a seed whose drive channel it is (R296, R300, R304, R306, R307); a failover's ramp ends;
the hourly record counts hours and charge and tells a booster near its end; an indicator string blinks at half its period. The model's readings it rests on: log entries 4, 21,
51. -/
def Obligations.TheEmitterDrivesAndMeasures : Prop :=
  ∀ (s : State) (t : Tick),
    let a := s.at t
    (∀ headers words checks readback,
      let r := loadStages a.drive.channels headers words checks
      let errors := r.2 + b2n (decide (a.drive.chain ≠ []) && decide (readback.flatten ≠ a.drive.chain))
      let b : State := { a with drive := { a.drive with channels := r.1, chain := chainWords headers words checks, repeating := decide (errors ≠ 0) && !a.drive.repeating } }
      let c := (b.bump K.emitChainErrors errors).emit (.chainLoad (chainWords headers words checks))
      exec (.chainLoadComplete t headers words checks readback) s =
        .next (if errors ≠ 0 ∧ a.drive.repeating = true then c.raise Ev.emitChain [u errors] else c).retarget) ∧
    (∀ ch current mv neighbour, ch < 11 → a.chSetting ch ≠ 0 → a.chBad ch = false →
      let vf := if 9 ≤ ch then ledSup - mv else mv
      let b := ((a.roSet (K.emitChCurrent ch) current).roSet (K.emitChVoltage ch) vf).roSetInt (K.emitChHeadroom ch) (if ch ≤ 7 then a.headroom mv current else 0)
      let x := b.chan ch
      let set := a.chSetting ch
      let partly := fun (c : State) => if (c.partialShort ch mv && !b.isShort ch mv && c.chStatus ch != 6) = true then (c.setChStatus ch 6).raise Ev.ledFault [u ch] else c
      let beside := fun (c : State) => match neighbour with
        | some (y, m) => if ((neighbourPairs.contains (ch, y) || neighbourPairs.contains (y, ch)) && c.chSetting y == 0 && !(c.chBad y) &&
            decide (((mv : Int) - m).natAbs ≤ 50)) = true then c.declareNeighbour (min ch y) (max ch y) else c
        | none => c
      let between : Bool := decide (set ≤ current * 1000) && decide (current * 1000 < 9 * set)
      let supply := fun (c : State) => if ch ≤ 7 then c.emvStep (between && !b.isShort ch mv) else c
      let ends := fun (c : State) => exec (.driveMeasurement t ch current mv neighbour) s = .next ((supply (beside (partly c))).drivesFaulted a)
      let low := current * 1000 < set ∧ (8 ≤ ch ∨ b.chNeed ch ≤ b.emvNow)
      (b.isShort ch mv = true → ends (if x.verdict = .short then b.declare ch 4 else b.setChan ch { x with verdict := .short })) ∧
      (b.isShort ch mv = false → low → ends (if x.verdict = .open_ then b.declare ch 3 else b.setChan ch { x with verdict := .open_ })) ∧
      (b.isShort ch mv = false → 9 * set ≤ current * 1000 → current * 1000 ≤ 11 * set →
        ends ((b.setChan ch { x with fit := ((current, vf) :: x.fit).take 16 }).verified ch)) ∧
      (b.isShort ch mv = false → ¬ low → (current * 1000 < 9 * set ∨ 11 * set < current * 1000) → ends (b.setChan ch { x with verdict := .none }))) ∧
    (∀ ch current mv neighbour, 11 ≤ ch ∨ a.chSetting ch = 0 ∨ a.chBad ch = true → exec (.driveMeasurement t ch current mv neighbour) s = .next a) ∧
    (∀ p, let ramping := match p with
        | .a => a.drive.rampA
        | .b => a.drive.rampB
      let d := match p with
        | .a => { a.drive with rampA := false }
        | .b => { a.drive with rampB := false }
      (ramping = true → exec (.failoverRampComplete t p) s = .next ({ a with drive := d } : State).retarget) ∧
      (ramping = false → exec (.failoverRampComplete t p) s = .next a)) ∧
    (∀ ch current predicted, ch < 9 →
      let factory := Config.factoryCurrent ch
      let x := a.chan ch
      let b := (a.roSet (K.emitChAgeing ch) (if factory = 0 then 4096 else current * 4096 / factory)).bump (K.emitChHours ch) 1
      let c := (b.bump (K.emitChCharge ch) ((x.chargeRest + current) / 100)).setChan ch { x with chargeRest := (x.chargeRest + current) % 100 }
      (isBooster ch = true → 800 ≤ predicted →
        exec (.pumpAgeingRecord t ch current predicted) s = .next (({ c with health := { c.health with pumpAged := true } } : State).raise Ev.pumpAgeing [u ch, u predicted])) ∧
      (isBooster ch = false ∨ predicted < 800 → exec (.pumpAgeingRecord t ch current predicted) s = .next c)) ∧
    (∀ ch current predicted, 9 ≤ ch → exec (.pumpAgeingRecord t ch current predicted) s = .next a) ∧
    (∀ x, let half := a.pG (K.ledBlinkMs x) * msTicks / 2
      let last := match x with
        | .a => a.drive.blinkAtA
        | .b => a.drive.blinkAtB
      let lit := match x with
        | .a => a.drive.blinkA
        | .b => a.drive.blinkB
      let d := match x with
        | .a => { a.drive with blinkA := !lit, blinkAtA := a.now }
        | .b => { a.drive with blinkB := !lit, blinkAtB := a.now }
      let b : State := { a with drive := d }
      (half ≠ 0 → last + half ≤ a.now → a.mayDrive (9 + x.idx) = true → a.pG (K.ledCount x) ≠ 0 →
        exec (.ledBlink t x) s = .next (b.setChan (9 + x.idx) { b.chan (9 + x.idx) with shadow := List.replicate 32 (b.ledWord x (!lit)), shadowValid := true })) ∧
      (half = 0 ∨ a.now < last + half ∨ a.mayDrive (9 + x.idx) = false ∨ a.pG (K.ledCount x) = 0 → exec (.ledBlink t x) s = .next a))

/-- Sources, grants and levels (R361, R362, R363, R366, R368): a source that is lost or comes is published, told and the grant taken anew; in OFF a source that comes brings BOOT,
unless PFAIL_N is held; a class or an allocation changes the grant; the keep-alive pulse goes to each powered port every 250 ms; the level is judged every 10 ms; a shed step
is undone after 10 s of room. The model's readings it rests on: log entries 21, 43. -/
def Obligations.SourcesGrantsAndLevels : Prop :=
  ∀ (s : State) (t : Tick),
    let a := s.at t
    let q := a.power
    (∀ p : Port, let src : Source := match p with
        | .a => .a
        | .b => .b
      a.present src = true →
      let b := a.roSet (srcKey src) 0
      let c := (b.roSet (K.powerClass p) 0).withPower { b.power with lldp := b.power.lldp.set p none }
      exec (.sourceLoss t src) s = .next ((if c.mode = .off then c else c.raise Ev.source [u (srcCode src), u 0]).regrant).evalLevel) ∧
    (a.present .vaux = true →
      let b := a.roSet (srcKey .vaux) 0
      exec (.sourceLoss t .vaux) s = .next ((if b.mode = .off then b else b.raise Ev.source [u (srcCode .vaux), u 0]).regrant).evalLevel) ∧
    (∀ src, a.present src = false → exec (.sourceLoss t src) s = .next a) ∧
    (∀ src, a.present src = false → a.mode ≠ .off →
      exec (.sourcePresent t src) s = .next (((a.roSet (srcKey src) 1).raise Ev.source [u (srcCode src), u 1]).regrant).evalLevel) ∧
    (∀ src, a.present src = false → a.mode = .off →
      let b := (a.roSet (srcKey src) 1).regrant
      exec (.sourcePresent t src) s = .next (if b.power.held = true then b else b.powerOn)) ∧
    (∀ src, a.present src = true → exec (.sourcePresent t src) s = .next a) ∧
    (∀ p cls, exec (.poeClassification t p cls) s = .next ((a.roSet (K.powerClass p) cls).regrant).evalLevel) ∧
    (∀ p alloc, a.mode ≠ .off → exec (.lldpPowerAllocation t p alloc) s = .next ((a.withPower { q with lldp := q.lldp.set p (some alloc) }).regrant).evalLevel) ∧
    (∀ p alloc, a.mode = .off → exec (.lldpPowerAllocation t p alloc) s = .next a) ∧
    (a.mode ≠ .off → q.mpsAt + 250 * msTicks ≤ a.now →
      let b := a.withPower { q with mpsAt := a.now }
      let c := if b.present .a = true then b.emit (.mps .a) else b
      exec (.mpsPulse t) s = .next (if c.present .b = true then c.emit (.mps .b) else c)) ∧
    (a.mode = .off ∨ a.now < q.mpsAt + 250 * msTicks → exec (.mpsPulse t) s = .next a) ∧
    (q.levelAt + 10 * msTicks ≤ a.now → exec (.levelEvaluation t) s = .next a.evalLevel) ∧
    (a.now < q.levelAt + 10 * msTicks → exec (.levelEvaluation t) s = .next a) ∧
    (∀ since, q.fitSince = some since → a.mode = .running → a.lastStep ≠ 0 → q.undoing = none → since + 10 * secondTicks ≤ a.now →
      exec (.shedUndo t) s = .next (a.undoStep a.lastStep)) ∧
    (q.fitSince = none ∨ a.mode ≠ .running ∨ a.lastStep = 0 → exec (.shedUndo t) s = .next a)

/-- Between READY, RUNNING and BEDROCK, and the alarms (R375, R376, R378, R388): READY passes to RUNNING when a run is asked for, a seed is LOCKED, the case is not too cold and
the power suffices; BEDROCK is left for RUNNING when every cause has been clear for its time; heat is told, forces BEDROCK and at its limit FAULT; each alarm interval judges
the enabled zones and sends its tile. The model's readings it rests on: log entries 21, 40, 43. -/
def Obligations.RunningBedrockAndTheAlarms : Prop :=
  ∀ (s : State) (t : Tick),
    let a := s.at t
    let ready := a.mode = .ready ∧ a.power.runAsked = true ∧ (a.seedStatus .s0 = 2 ∨ a.seedStatus .s1 = 2) ∧ -2000 ≤ a.caseCenti ∧ a.roGet K.powerLevel ≤ 1 ∧
      a.health.selftest.running = false
    (ready → exec (.readyToRunning t) s = .next (a.enterRunning Cause.run).evalLevel) ∧
    (¬ ready → exec (.readyToRunning t) s = .next a) ∧
    (∀ since, a.power.clearSince = some since → a.mode = .bedrock → a.bedrockCauses = 0 → since + a.pG K.powerBedrockExitS * secondTicks ≤ a.now →
      exec (.bedrockExit t) s = .next (a.enterRunning Cause.bedrockExit).evalLevel) ∧
    (a.power.clearSince = none ∨ a.mode ≠ .bedrock ∨ a.bedrockCauses ≠ 0 → exec (.bedrockExit t) s = .next a) ∧
    (a.mode ≠ .off → a.mode ≠ .geode → a.mode ≠ .save →
      let hot := a.withPower { a.power with hot := true }
      let cool := a.withPower { a.power with hot := false }
      (a.power.warned = false → exec (.thermalThreshold t .warn) s = .next ((a.withPower { a.power with warned := true }).raiseSev Ev.thermal 2 [u 0])) ∧
      (a.power.warned = true → exec (.thermalThreshold t .warn) s = .next a) ∧
      exec (.thermalThreshold t .warnClear) s = .next (a.withPower { a.power with warned := false }) ∧
      exec (.thermalThreshold t .bedrock) s = .next (if a.mode = .running then hot.enterBedrock hot.causesNow else if a.mode = .bedrock then hot.evalLevel else hot) ∧
      exec (.thermalThreshold t .bedrockClear) s = .next (if a.mode = .bedrock then cool.evalLevel else cool) ∧
      exec (.thermalThreshold t .fault) s = .next (if a.mode.working = true then (a.raiseSev Ev.thermal 3 [u 1]).enterFault Cause.thermal else a)) ∧
    (∀ which, a.mode = .off ∨ a.mode = .geode ∨ a.mode = .save → exec (.thermalThreshold t which) s = .next a) ∧
    (let n := a.power.alarmNext
     let zones := (List.range 64).filter (fun z => a.pG (K.alarmZoneEnable z) == 1)
     let sums := ((a.power.sums.find? (fun e => e.1 == n)).map (·.2)).getD []
     let r := zones.foldl (fun (acc : State × List Byte) z => ((acc.1.zoneStep z (n * alarmUnits) (sums.getD z ⟨0, 0, 0⟩)).1,
       acc.2 ++ (acc.1.zoneStep z (n * alarmUnits) (sums.getD z ⟨0, 0, 0⟩)).2)) (a, [])
     let b := r.1.withPower { r.1.power with alarmNext := n + 1, sums := r.1.power.sums.filter (fun e => decide (n < e.1)) }
     let tile : Tile := { wholeTile 6 255 (n * alarmUnits) 20000000 n.toNat 0 1 0 zones.length 1 0x18 (b.roGet K.sysEpoch) r.2 with
       lastInput := (n + 1) * alarmUnits, thinned := a.mode == .bedrock }
     (a.mode.measuring = true → (n + 1) * alarmUnits ≤ a.stamp →
       exec (.alarmInterval t) s = .next (if zones = [] then b else (List.range 16).foldl (fun st sid => (st.loadDue sid (n * alarmUnits)).enqueue sid 6 [tile]) b)) ∧
     (a.mode.measuring = false ∨ a.stamp < (n + 1) * alarmUnits → exec (.alarmInterval t) s = .next a))

/-- BOOT, faults and the save (R339, R369, R371, R373, R384, R385, R386, R426): BOOT ends as its steps say; FAULT is retried after its time, three times a day at most; RESET_N and
a lockstep mismatch bring BOOT; a trial image not confirmed in time is left; power failing brings SAVE where the hold-up is armed, else OFF, and after SAVE comes BOOT where
power has returned; the hold-up's measurement is published and told outside its limits. The model's readings it rests on: log entries 21, 44. -/
def Obligations.BootFaultAndSave : Prop :=
  ∀ (s : State) (t : Tick),
    let a := s.at t
    let q := a.power
    (∀ obs : BootObs, a.mode = .boot → q.stuck = false → q.recovery = false →
      let b := a.roSet K.sysBootCount (max 1 (a.roGet K.sysBootCount))
      exec (.bootComplete t obs) s = .next (if obs.lockstepOk then b.bootSteps obs else b.lockstepFailed)) ∧
    (∀ obs, a.mode ≠ .boot ∨ q.stuck = true ∨ q.recovery = true → exec (.bootComplete t obs) s = .next a) ∧
    (let recent := q.retries.filter (fun r => decide (a.now < r + 86400 * secondTicks))
     let wait := a.pG K.powerFaultRetryS
     let due := a.mode = .fault ∧ wait ≠ 0 ∧ q.faultAt + wait * secondTicks ≤ a.now ∧ recent.length < 3 ∧ (q.thermal = false ∨ a.caseCenti ≤ 7000)
     (due → exec (.faultRetry t) s = .next ((a.withPower { q with retries := a.now :: recent }).enterBoot Cause.retry false)) ∧
     (¬ due → exec (.faultRetry t) s = .next a)) ∧
    (a.mode ≠ .off → a.mode ≠ .save → exec (.resetN t) s = .next (a.enterBoot Cause.resetN false)) ∧
    (a.mode = .off ∨ a.mode = .save → exec (.resetN t) s = .next a) ∧
    (a.mode ≠ .off → a.mode ≠ .save → q.stuck = false → exec (.lockstepMismatch t) s = .next (a.enterBoot Cause.lockstep false)) ∧
    (a.mode = .off ∨ a.mode = .save ∨ q.stuck = true → exec (.lockstepMismatch t) s = .next a) ∧
    (∀ d, a.fw.trialDeadline = some d → a.fw.trial = true → d ≤ a.now → a.mode ≠ .off → a.mode ≠ .save → exec (.fwTrialTimeout t) s = .next (a.enterBoot Cause.trial false)) ∧
    (a.fw.trialDeadline = none ∨ a.fw.trial = false → exec (.fwTrialTimeout t) s = .next a) ∧
    (∀ external, let b := a.withPower { q with held := q.held || external }
      let c := b.withPower { b.power with driven := true }
      (b.mode = .off ∨ b.mode = .save ∨ (external = false ∧ b.powered = true) → exec (.pfail t external) s = .next b) ∧
      (∀ g, b.mode = .geode → (external = true ∨ b.powered = false) → c.power.geode = some g →
        exec (.pfail t external) s = .next ((c.withPower { c.power with record := some (g.save, 0), geode := none }).setMode .off Cause.pfail)) ∧
      (b.mode ≠ .off → b.mode ≠ .save → b.mode ≠ .geode → (external = true ∨ b.powered = false) → c.armed = true →
        let d := (c.setMode .save Cause.pfail).shutDown c.mode
        exec (.pfail t external) s = .next (d.withPower { d.power with record := some ({ d.saveRec with time := c.stamp }, 1) })) ∧
      (b.mode ≠ .off → b.mode ≠ .save → b.mode ≠ .geode → (external = true ∨ b.powered = false) → c.armed = false →
        let d := (c.setMode .off Cause.pfail).shutDown c.mode
        exec (.pfail t external) s = .next (d.withPower { d.power with record := some ({ c.saveRec with events := [] }, 1), stuck := false, recovery := false }))) ∧
    (∀ r n, a.mode = .save → q.record = some (r, n) →
      let good := (a.recordWritten r).withPower { (a.recordWritten r).power with record := some (r, 0) }
      let bad := a.withPower { q with record := some ({ r with events := [] }, 2), dirty := q.dirty.set (Port.ofIdx q.slot) (slotBlocks q.slot) }
      let ends := fun (b : State) => if b.powered = true ∧ b.power.held = false then b.enterBoot Cause.saveDone true else b.setMode .off Cause.saveDone
      exec (.saveComplete t true) s = .next (ends (good.logEntry 2 0 1 r.time [])) ∧
      exec (.saveComplete t false) s = .next (ends (bad.logEntry 2 0 1 r.time []))) ∧
    (∀ ok, a.mode ≠ .save → exec (.saveComplete t ok) s = .next a) ∧
    (q.held = true →
      let b := a.withPower { q with held := false }
      exec (.pfailNRelease t) s = .next (if b.mode = .off ∧ b.powered = true then b.powerOn else b)) ∧
    (q.held = false → exec (.pfailNRelease t) s = .next a) ∧
    (∀ uf mv, a.mode ≠ .off →
      let b := (a.roSet K.powerHoldCapacitanceUf uf).roSet K.powerHoldVoltage mv
      exec (.holdCapacitanceMeasure t uf mv) s = .next (if uf < 700 ∨ 1500 < uf then b.raiseSev Ev.hold 2 [u uf] else b)) ∧
    (∀ uf mv, a.mode = .off → exec (.holdCapacitanceMeasure t uf mv) s = .next a)

/-- Waking from GEODE (R380, R382): WAKE_N, a comparator beyond its threshold for its time, the timer, a datagram WAKE on the kept link, and a grant that has sufficed for a second
wake the module where its mask asks for them; a shallow GEODE that keeps no link tries one after the other for 10 s each. The model's readings it rests on: log entries 21, 44. -/
def Obligations.GeodeWakesOnItsSources : Prop :=
  ∀ (s : State) (t : Tick) (shorts : List (Nat × Nat)),
    let a := s.at t
    exec (.wakeInput t shorts) s = .next (if a.wakes 0 = true then a.wakeUp 0 shorts else a) ∧
    (∀ x mv us, let limit := a.geodePar (K.powerCmpThresholdMv x)
      let beyond := if a.geodePar (K.powerCmpPolarity x) = 0 then limit < mv else mv < limit
      (a.wakes (1 + x.idx) = true → beyond → a.geodePar (K.powerCmpPersistUs x) ≤ us → exec (.comparatorWake t x mv us shorts) s = .next (a.wakeUp (1 + x.idx) shorts)) ∧
      (a.wakes (1 + x.idx) = false ∨ ¬ beyond ∨ us < a.geodePar (K.powerCmpPersistUs x) → exec (.comparatorWake t x mv us shorts) s = .next a)) ∧
    (∀ g, a.power.geode = some g →
      (a.wakes 3 = true → g.wake ≤ a.stamp → exec (.wakeTimer t shorts) s = .next (a.wakeUp 3 shorts)) ∧
      (a.wakes 3 = false ∨ a.stamp < g.wake → exec (.wakeTimer t shorts) s = .next a) ∧
      (∀ h udp link, a.wakes 4 = true → g.deep = false → g.kept = some link → (a.link link).up = true → udp = a.geodePar K.ncpTcpPort → h.version = 1 → h.kind = 0 →
        h.bodyLen = 0 → a.checkOk h 0x0084 [] = true → exec (.wakeDatagram t h udp link shorts) s = .next (a.wakeUp 4 shorts)) ∧
      (∀ h udp link, a.wakes 4 = false ∨ g.kept ≠ some link ∨ udp ≠ a.geodePar K.ncpTcpPort ∨ a.checkOk h 0x0084 [] = false →
        exec (.wakeDatagram t h udp link shorts) s = .next a) ∧
      (∀ since, a.power.grantSince = some since → a.mode = .geode → g.grant = true → since + secondTicks ≤ a.now → exec (.grantWake t shorts) s = .next (a.wakeUp 5 shorts)) ∧
      (∀ since, a.power.grantSince = some since → g.grant = false ∨ a.now < since + secondTicks → exec (.grantWake t shorts) s = .next a) ∧
      (∀ p since, g.trying = some (p, since) → a.mode = .geode →
        let b := a.setLink p { a.link p with up := true, gigabit := true, since := a.now }
        exec (.geodeLinkTry t p true) s = .next (b.withPower { b.power with geode := some { g with kept := some p, trying := none, down := none } }) ∧
        (since + 10 * secondTicks ≤ a.now → exec (.geodeLinkTry t p false) s = .next (a.withPower { a.power with geode := some { g with trying := some (p.other, a.now) } })) ∧
        (a.now < since + 10 * secondTicks → exec (.geodeLinkTry t p false) s = .next a))) ∧
    (a.power.geode = none → exec (.wakeTimer t shorts) s = .next a ∧ exec (.grantWake t shorts) s = .next a ∧
      (∀ h udp link, exec (.wakeDatagram t h udp link shorts) s = .next a) ∧ ∀ p up, exec (.geodeLinkTry t p up) s = .next a)

end
end

