-- ==== Sys2Proof/Laws/Dispatch.lean ====
section
/-! SUPPORT. Which meaning each command has: one equation per arm of exec, so that no proof unfolds exec itself. -/

namespace Sys2Proof.Machine

@[simp] theorem exec_cfgCommit (h : Hdr) (rev : BitVec 32) (mode : Nat) (named : TS96) (s : State) :
    exec (.cfgCommit h rev mode named) s = execCfgCommit h rev mode named s := rfl
@[simp] theorem exec_commitFTick (t : Tick) (port : Option Port) (s : State) : exec (.commitFTick t port) s = execCommitFTick t port s := rfl
@[simp] theorem exec_hello (h : Hdr) (protocol : Nat) (s : State) : exec (.hello h protocol) s = execHello h protocol s := rfl
@[simp] theorem exec_ping (h : Hdr) (s : State) : exec (.ping h) s = execPing h s := rfl
@[simp] theorem exec_cfgGet (h : Hdr) (cursor : Nat) (paths : List String) (s : State) : exec (.cfgGet h cursor paths) s = execCfgGet h cursor paths s := rfl
@[simp] theorem exec_cfgSet (h : Hdr) (entries : List Entry) (s : State) : exec (.cfgSet h entries) s = execCfgSet h entries s := rfl
@[simp] theorem exec_cfgDiscard (h : Hdr) (s : State) : exec (.cfgDiscard h) s = execCfgDiscard h s := rfl
@[simp] theorem exec_cfgDiff (h : Hdr) (cursor : Nat) (s : State) : exec (.cfgDiff h cursor) s = execCfgDiff h cursor s := rfl
@[simp] theorem exec_cfgList (h : Hdr) (cursor : Nat) (stem : String) (s : State) : exec (.cfgList h cursor stem) s = execCfgList h cursor stem s := rfl
@[simp] theorem exec_cfgSave (h : Hdr) (s : State) : exec (.cfgSave h) s = execCfgSave h s := rfl
@[simp] theorem exec_cfgErase (h : Hdr) (s : State) : exec (.cfgErase h) s = execCfgErase h s := rfl
@[simp] theorem exec_timeSet (h : Hdr) (seconds : BitVec 64) (utc : BitVec 16) (s : State) : exec (.timeSet h seconds utc) s = execTimeSet h seconds utc s := rfl
@[simp] theorem exec_tdcRead (h : Hdr) (input : Nat) (start : Nat) (limit : Nat) (s : State) :
    exec (.tdcRead h input start limit) s = execTdcRead h input start limit s := rfl
@[simp] theorem exec_kernelLoad (h : Hdr) (slot : Nat) (flags : Nat) (offset : Nat) (imageBytes : Nat) (data : List Byte) (s : State) :
    exec (.kernelLoad h slot flags offset imageBytes data) s = execKernelLoad h slot flags offset imageBytes data s := rfl
@[simp] theorem exec_kernelUnload (h : Hdr) (slot : Nat) (s : State) : exec (.kernelUnload h slot) s = execKernelUnload h slot s := rfl
@[simp] theorem exec_kernelSnapshot (h : Hdr) (core : Nat) (offset : Nat) (length : Nat) (s : State) :
    exec (.kernelSnapshot h core offset length) s = execKernelSnapshot h core offset length s := rfl
@[simp] theorem exec_captureAt (h : Hdr) (trigger : TS96) (profile : Nat) (s : State) : exec (.captureAt h trigger profile) s = execCaptureAt h trigger profile s := rfl
@[simp] theorem exec_captureSend (h : Hdr) (capture : Nat) (stream : Nat) (s : State) : exec (.captureSend h capture stream) s = execCaptureSend h capture stream s := rfl
@[simp] theorem exec_captureDerive (h : Hdr) (req : DeriveReq) (s : State) : exec (.captureDerive h req) s = execCaptureDerive h req s := rfl
@[simp] theorem exec_captureRelease (h : Hdr) (capture : Nat) (s : State) : exec (.captureRelease h capture) s = execCaptureRelease h capture s := rfl
@[simp] theorem exec_captureList (h : Hdr) (cursor : Nat) (s : State) : exec (.captureList h cursor) s = execCaptureList h cursor s := rfl
@[simp] theorem exec_eventSubscribe (h : Hdr) (mask : BitVec 256) (s : State) : exec (.eventSubscribe h mask) s = execEventSubscribe h mask s := rfl
@[simp] theorem exec_eventRead (h : Hdr) (start : Nat) (limit : Nat) (s : State) : exec (.eventRead h start limit) s = execEventRead h start limit s := rfl
@[simp] theorem exec_fwBegin (h : Hdr) (imageBytes : Nat) (s : State) : exec (.fwBegin h imageBytes) s = execFwBegin h imageBytes s := rfl
@[simp] theorem exec_fwWrite (h : Hdr) (offset : Nat) (data : List Byte) (s : State) : exec (.fwWrite h offset data) s = execFwWrite h offset data s := rfl
@[simp] theorem exec_fwFinish (h : Hdr) (s : State) : exec (.fwFinish h) s = execFwFinish h s := rfl
@[simp] theorem exec_fwActivate (h : Hdr) (image : Nat) (s : State) : exec (.fwActivate h image) s = execFwActivate h image s := rfl
@[simp] theorem exec_fwConfirm (h : Hdr) (s : State) : exec (.fwConfirm h) s = execFwConfirm h s := rfl
@[simp] theorem exec_reset (h : Hdr) (s : State) : exec (.reset h) s = execReset h s := rfl
@[simp] theorem exec_stateGet (h : Hdr) (s : State) : exec (.stateGet h) s = execStateGet h s := rfl
@[simp] theorem exec_run (h : Hdr) (s : State) : exec (.run h) s = execRun h s := rfl
@[simp] theorem exec_stop (h : Hdr) (s : State) : exec (.stop h) s = execStop h s := rfl
@[simp] theorem exec_geodeEnter (h : Hdr) (deep : Nat) (mask : Nat) (wake : TS96) (s : State) :
    exec (.geodeEnter h deep mask wake) s = execGeodeEnter h deep mask wake s := rfl
@[simp] theorem exec_wake (h : Hdr) (s : State) : exec (.wake h) s = execWake h s := rfl
@[simp] theorem exec_bedrockForce (h : Hdr) (s : State) : exec (.bedrockForce h) s = execBedrockForce h s := rfl
@[simp] theorem exec_bedrockRelease (h : Hdr) (s : State) : exec (.bedrockRelease h) s = execBedrockRelease h s := rfl
@[simp] theorem exec_ensStatus (h : Hdr) (s : State) : exec (.ensStatus h) s = execEnsStatus h s := rfl
@[simp] theorem exec_ensMembers (h : Hdr) (cursor : Nat) (s : State) : exec (.ensMembers h cursor) s = execEnsMembers h cursor s := rfl
@[simp] theorem exec_ensCommit (h : Hdr) (named : TS96) (policy : Nat) (members : List (BitVec 64 × Nat)) (s : State) :
    exec (.ensCommit h named policy members) s = execEnsCommit h named policy members s := rfl
@[simp] theorem exec_ensCaptureAt (h : Hdr) (trigger : TS96) (profile : Nat) (members : List (BitVec 64)) (s : State) :
    exec (.ensCaptureAt h trigger profile members) s = execEnsCaptureAt h trigger profile members s := rfl
@[simp] theorem exec_ensForget (h : Hdr) (member : BitVec 64) (s : State) : exec (.ensForget h member) s = execEnsForget h member s := rfl
@[simp] theorem exec_logRead (h : Hdr) (start : Nat) (limit : Nat) (s : State) : exec (.logRead h start limit) s = execLogRead h start limit s := rfl
@[simp] theorem exec_selftest (h : Hdr) (mask : Nat) (s : State) : exec (.selftest h mask) s = execSelftest h mask s := rfl
@[simp] theorem exec_selftestResult (h : Hdr) (s : State) : exec (.selftestResult h) s = execSelftestResult h s := rfl
@[simp] theorem exec_linkTest (h : Hdr) (link : Nat) (pattern : Nat) (seconds : Nat) (peer : BitVec 64) (s : State) :
    exec (.linkTest h link pattern seconds peer) s = execLinkTest h link pattern seconds peer s := rfl
@[simp] theorem exec_linkResult (h : Hdr) (link : Nat) (s : State) : exec (.linkResult h link) s = execLinkResult h link s := rfl
@[simp] theorem exec_telemetryRead (h : Hdr) (start : Nat) (limit : Nat) (s : State) : exec (.telemetryRead h start limit) s = execTelemetryRead h start limit s := rfl
@[simp] theorem exec_lifeRead (h : Hdr) (s : State) : exec (.lifeRead h) s = execLifeRead h s := rfl
@[simp] theorem exec_unknownCommand (h : Hdr) (code : BitVec 16) (body : List Byte) (s : State) :
    exec (.unknownCommand h code body) s = execUnknownCommand h code body s := rfl
@[simp] theorem exec_backgroundCommandComplete (t : Tick) (flashOk : Bool) (s : State) :
    exec (.backgroundCommandComplete t flashOk) s = execBackgroundCommandComplete t flashOk s := rfl
@[simp] theorem exec_portRediscover (t : Tick) (p : Port) (s : State) : exec (.portRediscover t p) s = execPortRediscover t p s := rfl
@[simp] theorem exec_seedSelect (t : Tick) (s : State) : exec (.seedSelect t) s = execSeedSelect t s := rfl
@[simp] theorem exec_schedLockRealign (t : Tick) (p : Port) (s : State) : exec (.schedLockRealign t p) s = execSchedLockRealign t p s := rfl
@[simp] theorem exec_timebaseStep (t : Tick) (s : State) : exec (.timebaseStep t) s = execTimebaseStep t s := rfl
@[simp] theorem exec_neighbourTest (t : Tick) (shorts : List (Nat × Nat)) (s : State) : exec (.neighbourTest t shorts) s = execNeighbourTest t shorts s := rfl
@[simp] theorem exec_tcpConnect (t : Tick) (link : Port) (s : State) : exec (.tcpConnect t link) s = execTcpConnect t link s := rfl
@[simp] theorem exec_tcpClose (t : Tick) (pair : Nat) (s : State) : exec (.tcpClose t pair) s = execTcpClose t pair s := rfl
@[simp] theorem exec_sessionIdleTimeout (t : Tick) (pair : Nat) (s : State) : exec (.sessionIdleTimeout t pair) s = execSessionIdleTimeout t pair s := rfl
@[simp] theorem exec_ncpFramingLoss (t : Tick) (pair : Nat) (magic : BitVec 16) (bodyLen : Nat) (s : State) :
    exec (.ncpFramingLoss t pair magic bodyLen) s = execNcpFramingLoss t pair magic bodyLen s := rfl
@[simp] theorem exec_spiStatus (t : Tick) (s : State) : exec (.spiStatus t) s = execSpiStatus t s := rfl
@[simp] theorem exec_spiWrite (t : Tick) (msg : List Byte) (s : State) : exec (.spiWrite t msg) s = execSpiWrite t msg s := rfl
@[simp] theorem exec_spiRead (t : Tick) (length : Nat) (s : State) : exec (.spiRead t length) s = execSpiRead t length s := rfl
@[simp] theorem exec_i2cPointerWrite (t : Tick) (data : List Byte) (s : State) : exec (.i2cPointerWrite t data) s = execI2cPointerWrite t data s := rfl
@[simp] theorem exec_i2cRead (t : Tick) (length : Nat) (s : State) : exec (.i2cRead t length) s = execI2cRead t length s := rfl
@[simp] theorem exec_frameStrobe (t : Tick) (p : Port) (obs : FrameObs) (s : State) : exec (.frameStrobe t p obs) s = execFrameStrobe t p obs s := rfl
@[simp] theorem exec_groupLaunch (t : Tick) (p : Port) (g : Nat) (s : State) : exec (.groupLaunch t p g) s = execGroupLaunch t p g s := rfl
@[simp] theorem exec_thinnedLaunch (t : Tick) (p : Port) (s : State) : exec (.thinnedLaunch t p) s = execThinnedLaunch t p s := rfl
@[simp] theorem exec_internalStrobe (t : Tick) (s : State) : exec (.internalStrobe t) s = execInternalStrobe t s := rfl
@[simp] theorem exec_proofWindow (t : Tick) (p : Option Port) (opens shorts : List Nat) (s : State) :
    exec (.proofWindow t p opens shorts) s = execProofWindow t p opens shorts s := rfl
@[simp] theorem exec_dtsSwitchSettled (t : Tick) (s : State) : exec (.dtsSwitchSettled t) s = execDtsSwitchSettled t s := rfl
@[simp] theorem exec_patternStep (t : Tick) (src : StrobeSource) (step : Nat) (s : State) : exec (.patternStep t src step) s = execPatternStep t src step s := rfl
@[simp] theorem exec_syncWordReceive (t : Tick) (word : BitVec 64) (s : State) : exec (.syncWordReceive t word) s = execSyncWordReceive t word s := rfl
@[simp] theorem exec_lockWordMissing (t : Tick) (s : State) : exec (.lockWordMissing t) s = execLockWordMissing t s := rfl
@[simp] theorem exec_lockAcquireTimeout (t : Tick) (p : Port) (s : State) : exec (.lockAcquireTimeout t p) s = execLockAcquireTimeout t p s := rfl
@[simp] theorem exec_syncCollision (t : Tick) (s : State) : exec (.syncCollision t) s = execSyncCollision t s := rfl
@[simp] theorem exec_seedFault (t : Tick) (sd : Seed) (why : SeedCriterion) (s : State) : exec (.seedFault t sd why) s = execSeedFault t sd why s := rfl
@[simp] theorem exec_seedSwitchover (t : Tick) (s : State) : exec (.seedSwitchover t) s = execSeedSwitchover t s := rfl
@[simp] theorem exec_seedLockAcquired (t : Tick) (sd : Seed) (s : State) : exec (.seedLockAcquired t sd) s = execSeedLockAcquired t sd s := rfl
@[simp] theorem exec_seedLocked (t : Tick) (sd : Seed) (s : State) : exec (.seedLocked t sd) s = execSeedLocked t sd s := rfl
@[simp] theorem exec_seedRelockAttempt (t : Tick) (sd : Seed) (ok : Bool) (s : State) : exec (.seedRelockAttempt t sd ok) s = execSeedRelockAttempt t sd ok s := rfl
@[simp] theorem exec_launchClamp (t : Tick) (p : Port) (s : State) : exec (.launchClamp t p) s = execLaunchClamp t p s := rfl
@[simp] theorem exec_noFibreProbe (t : Tick) (p : Port) (found : Bool) (s : State) : exec (.noFibreProbe t p found) s = execNoFibreProbe t p found s := rfl
@[simp] theorem exec_discoveryContinuityEnd (t : Tick) (p : Port) (found : Bool) (s : State) :
    exec (.discoveryContinuityEnd t p found) s = execDiscoveryContinuityEnd t p found s := rfl
@[simp] theorem exec_discoveryRampEnd (t : Tick) (p : Port) (s : State) : exec (.discoveryRampEnd t p) s = execDiscoveryRampEnd t p s := rfl
@[simp] theorem exec_discoveryRangingEnd (t : Tick) (p : Port) (r : Ranging) (s : State) : exec (.discoveryRangingEnd t p r) s = execDiscoveryRangingEnd t p r s := rfl
@[simp] theorem exec_discoveryProfileEnd (t : Tick) (p : Port) (profile : List Nat) (winSteps : List Nat) (s : State) :
    exec (.discoveryProfileEnd t p profile winSteps) s = execDiscoveryProfileEnd t p profile winSteps s := rfl
@[simp] theorem exec_aprHoldExpiry (t : Tick) (p : Port) (found : Bool) (s : State) : exec (.aprHoldExpiry t p found) s = execAprHoldExpiry t p found s := rfl
@[simp] theorem exec_traceFieldWords (t : Tick) (p : Port) (obs : TraceObs) (s : State) : exec (.traceFieldWords t p obs) s = execTraceFieldWords t p obs s := rfl
@[simp] theorem exec_traceStrainWords (t : Tick) (p : Port) (fifoFull : Bool) (s : State) :
    exec (.traceStrainWords t p fifoFull) s = execTraceStrainWords t p fifoFull s := rfl
@[simp] theorem exec_gainRunEvaluation (t : Tick) (p : Port) (s : State) : exec (.gainRunEvaluation t p) s = execGainRunEvaluation t p s := rfl
@[simp] theorem exec_iqTermUpdate (t : Tick) (p : Port) (x y : IqStats) (s : State) : exec (.iqTermUpdate t p x y) s = execIqTermUpdate t p x y s := rfl
@[simp] theorem exec_combineWeightRecompute (t : Tick) (p : Port) (noiseless : List Nat) (s : State) : exec (.combineWeightRecompute t p noiseless) s = execCombineWeightRecompute t p noiseless s := rfl
@[simp] theorem exec_qualitySummary (t : Tick) (p : Port) (s : State) : exec (.qualitySummary t p) s = execQualitySummary t p s := rfl
@[simp] theorem exec_decimationTileProcessed (t : Tick) (p : Port) (s : State) : exec (.decimationTileProcessed t p) s = execDecimationTileProcessed t p s := rfl
@[simp] theorem exec_nspTileSend (t : Tick) (stream : Nat) (s : State) : exec (.nspTileSend t stream) s = execNspTileSend t stream s := rfl
@[simp] theorem exec_retxTileRelease (t : Tick) (stream : Nat) (s : State) : exec (.retxTileRelease t stream) s = execRetxTileRelease t stream s := rfl
@[simp] theorem exec_nack (t : Tick) (stream : Nat) (n : Nack) (s : State) : exec (.nack t stream n) s = execNack t stream n s := rfl
@[simp] theorem exec_retransmissionSend (t : Tick) (link : Port) (s : State) : exec (.retransmissionSend t link) s = execRetransmissionSend t link s := rfl
@[simp] theorem exec_idle (t : Tick) (stream : Nat) (sub : Nat) (s : State) : exec (.idle t stream sub) s = execIdle t stream sub s := rfl
@[simp] theorem exec_suspended (t : Tick) (stream : Nat) (s : State) : exec (.suspended t stream) s = execSuspended t stream s := rfl
@[simp] theorem exec_networkLinkLoss (t : Tick) (link : Port) (s : State) : exec (.networkLinkLoss t link) s = execNetworkLinkLoss t link s := rfl
@[simp] theorem exec_networkLinkUp (t : Tick) (link : Port) (gigabit : Bool) (s : State) :
    exec (.networkLinkUp t link gigabit) s = execNetworkLinkUp t link gigabit s := rfl
@[simp] theorem exec_darkFrameSecondHalf (t : Tick) (p : Port) (offset16 : List Nat) (meanCode16 : List Nat) (s : State) :
    exec (.darkFrameSecondHalf t p offset16 meanCode16) s = execDarkFrameSecondHalf t p offset16 meanCode16 s := rfl
@[simp] theorem exec_dtsResultPublish (t : Tick) (p : Port) (number : Nat) (s : State) : exec (.dtsResultPublish t p number) s = execDtsResultPublish t p number s := rfl
@[simp] theorem exec_dtsFeedbackCheck (t : Tick) (p : Port) (s : State) : exec (.dtsFeedbackCheck t p) s = execDtsFeedbackCheck t p s := rfl
@[simp] theorem exec_feScanStart (t : Tick) (s : State) : exec (.feScanStart t) s = execFeScanStart t s := rfl
@[simp] theorem exec_feSlotStart (t : Tick) (ch : Nat) (s : State) : exec (.feSlotStart t ch) s = execFeSlotStart t ch s := rfl
@[simp] theorem exec_feWindowEnd (t : Tick) (ch : Nat) (obs : FeObs) (s : State) : exec (.feWindowEnd t ch obs) s = execFeWindowEnd t ch obs s := rfl
@[simp] theorem exec_feResultPublish (t : Tick) (ch : Nat) (broken : Nat) (s : State) : exec (.feResultPublish t ch broken) s = execFeResultPublish t ch broken s := rfl
@[simp] theorem exec_feComplianceTrip (t : Tick) (ch : Nat) (trip : Trip) (s : State) : exec (.feComplianceTrip t ch trip) s = execFeComplianceTrip t ch trip s := rfl
@[simp] theorem exec_hkBurst (t : Tick) (readings : List HkReading) (s : State) : exec (.hkBurst t readings) s = execHkBurst t readings s := rfl
@[simp] theorem exec_basaltTileEntry (t : Tick) (inst : Nat) (s : State) : exec (.basaltTileEntry t inst) s = execBasaltTileEntry t inst s := rfl
@[simp] theorem exec_interruptEntry (core : Nat) (s : State) : exec (.interruptEntry core) s = execInterruptEntry core s := rfl
@[simp] theorem exec_keTimerExpiry (core : Nat) (s : State) : exec (.keTimerExpiry core) s = execKeTimerExpiry core s := rfl
@[simp] theorem exec_deadlineWarn (core : Nat) (s : State) : exec (.deadlineWarn core) s = execDeadlineWarn core s := rfl
@[simp] theorem exec_dmaComplete (core : Nat) (ch : Nat) (s : State) : exec (.dmaComplete core ch) s = execDmaComplete core ch s := rfl
@[simp] theorem exec_kernelDeadline (t : Tick) (core : Nat) (s : State) : exec (.kernelDeadline t core) s = execKernelDeadline t core s := rfl
@[simp] theorem exec_coreHardwareFault (t : Tick) (core : Nat) (cause : Nat) (s : State) :
    exec (.coreHardwareFault t core cause) s = execCoreHardwareFault t core cause s := rfl
@[simp] theorem exec_spareCoreLoaded (t : Tick) (core : Nat) (s : State) : exec (.spareCoreLoaded t core) s = execSpareCoreLoaded t core s := rfl
@[simp] theorem exec_nop (core : Nat) (close : Bool) (s : State) : exec (.nop core close) s = execNop core close s := rfl
@[simp] theorem exec_rotDecrement (core : Nat) (s : State) : exec (.rotDecrement core) s = execRotDecrement core s := rfl
@[simp] theorem exec_vld (o : OpM) (s : State) : exec (.vld o) s = execVld o s := rfl
@[simp] theorem exec_vldb (o : OpM) (s : State) : exec (.vldb o) s = execVldb o s := rfl
@[simp] theorem exec_vld2 (o : OpM2) (s : State) : exec (.vld2 o) s = execVld2 o s := rfl
@[simp] theorem exec_vldst (o : OpM2) (s : State) : exec (.vldst o) s = execVldst o s := rfl
@[simp] theorem exec_vst (o : OpM) (s : State) : exec (.vst o) s = execVst o s := rfl
@[simp] theorem exec_vstm (o : OpM) (s : State) : exec (.vstm o) s = execVstm o s := rfl
@[simp] theorem exec_sld (o : OpM) (s : State) : exec (.sld o) s = execSld o s := rfl
@[simp] theorem exec_sst (o : OpM) (s : State) : exec (.sst o) s = execSst o s := rfl
@[simp] theorem exec_aaddi (o : OpM) (s : State) : exec (.aaddi o) s = execAaddi o s := rfl
@[simp] theorem exec_amov (o : OpS) (an : BitVec 3) (s : State) : exec (.amov o an) s = execAmov o an s := rfl
@[simp] theorem exec_aget (o : OpS) (an : BitVec 3) (s : State) : exec (.aget o an) s = execAget o an s := rfl
@[simp] theorem exec_sadd (o : OpS) (s : State) : exec (.sadd o) s = execSadd o s := rfl
@[simp] theorem exec_ssub (o : OpS) (s : State) : exec (.ssub o) s = execSsub o s := rfl
@[simp] theorem exec_saddi (o : OpS) (s : State) : exec (.saddi o) s = execSaddi o s := rfl
@[simp] theorem exec_sand (o : OpS) (s : State) : exec (.sand o) s = execSand o s := rfl
@[simp] theorem exec_sor (o : OpS) (s : State) : exec (.sor o) s = execSor o s := rfl
@[simp] theorem exec_sxor (o : OpS) (s : State) : exec (.sxor o) s = execSxor o s := rfl
@[simp] theorem exec_sshl (o : OpS) (s : State) : exec (.sshl o) s = execSshl o s := rfl
@[simp] theorem exec_sshr (o : OpS) (s : State) : exec (.sshr o) s = execSshr o s := rfl
@[simp] theorem exec_sshra (o : OpS) (s : State) : exec (.sshra o) s = execSshra o s := rfl
@[simp] theorem exec_smovi (o : OpS) (s : State) : exec (.smovi o) s = execSmovi o s := rfl
@[simp] theorem exec_smovih (o : OpS) (s : State) : exec (.smovih o) s = execSmovih o s := rfl
@[simp] theorem exec_smul (o : OpS) (s : State) : exec (.smul o) s = execSmul o s := rfl
@[simp] theorem exec_brickIn (o : OpS) (s : State) : exec (.brickIn o) s = execBrickIn o s := rfl
@[simp] theorem exec_scratchIn (o : OpS) (s : State) : exec (.scratchIn o) s = execScratchIn o s := rfl
@[simp] theorem exec_scratchOut (o : OpS) (s : State) : exec (.scratchOut o) s = execScratchOut o s := rfl
@[simp] theorem exec_output (o : OpS) (s : State) : exec (.output o) s = execOutput o s := rfl
@[simp] theorem exec_waitd (o : OpS) (s : State) : exec (.waitd o) s = execWaitd o s := rfl
@[simp] theorem exec_vmac (o : OpX) (s : State) : exec (.vmac o) s = execVmac o s := rfl
@[simp] theorem exec_vmsu (o : OpX) (s : State) : exec (.vmsu o) s = execVmsu o s := rfl
@[simp] theorem exec_vmul (o : OpX) (s : State) : exec (.vmul o) s = execVmul o s := rfl
@[simp] theorem exec_vmacs (o : OpX) (s : State) : exec (.vmacs o) s = execVmacs o s := rfl
@[simp] theorem exec_vsqa (o : OpX) (s : State) : exec (.vsqa o) s = execVsqa o s := rfl
@[simp] theorem exec_vmulq (o : OpX) (vd : BitVec 6) (s : State) : exec (.vmulq o vd) s = execVmulq o vd s := rfl
@[simp] theorem exec_accclr (o : OpX) (s : State) : exec (.accclr o) s = execAccclr o s := rfl
@[simp] theorem exec_accrd16 (o : OpX) (s : State) : exec (.accrd16 o) s = execAccrd16 o s := rfl
@[simp] theorem exec_accrd32 (o : OpX) (s : State) : exec (.accrd32 o) s = execAccrd32 o s := rfl
@[simp] theorem exec_accsv (o : OpX) (s : State) : exec (.accsv o) s = execAccsv o s := rfl
@[simp] theorem exec_accld (o : OpX) (s : State) : exec (.accld o) s = execAccld o s := rfl
@[simp] theorem exec_vadd (o : OpV) (s : State) : exec (.vadd o) s = execVadd o s := rfl
@[simp] theorem exec_vsub (o : OpV) (s : State) : exec (.vsub o) s = execVsub o s := rfl
@[simp] theorem exec_vadds (o : OpV) (s : State) : exec (.vadds o) s = execVadds o s := rfl
@[simp] theorem exec_vsubs (o : OpV) (s : State) : exec (.vsubs o) s = execVsubs o s := rfl
@[simp] theorem exec_vabs (o : OpV) (s : State) : exec (.vabs o) s = execVabs o s := rfl
@[simp] theorem exec_vmax (o : OpV) (s : State) : exec (.vmax o) s = execVmax o s := rfl
@[simp] theorem exec_vmin (o : OpV) (s : State) : exec (.vmin o) s = execVmin o s := rfl
@[simp] theorem exec_vand (o : OpV) (s : State) : exec (.vand o) s = execVand o s := rfl
@[simp] theorem exec_vor (o : OpV) (s : State) : exec (.vor o) s = execVor o s := rfl
@[simp] theorem exec_vxor (o : OpV) (s : State) : exec (.vxor o) s = execVxor o s := rfl
@[simp] theorem exec_vshl (o : OpV) (s : State) : exec (.vshl o) s = execVshl o s := rfl
@[simp] theorem exec_vshra (o : OpV) (s : State) : exec (.vshra o) s = execVshra o s := rfl
@[simp] theorem exec_vshrl (o : OpV) (s : State) : exec (.vshrl o) s = execVshrl o s := rfl
@[simp] theorem exec_vmov (o : OpV) (s : State) : exec (.vmov o) s = execVmov o s := rfl
@[simp] theorem exec_vbcast (o : OpV) (s : State) : exec (.vbcast o) s = execVbcast o s := rfl
@[simp] theorem exec_vcmpeq (o : OpV) (s : State) : exec (.vcmpeq o) s = execVcmpeq o s := rfl
@[simp] theorem exec_vcmpgt (o : OpV) (s : State) : exec (.vcmpgt o) s = execVcmpgt o s := rfl
@[simp] theorem exec_vcmpge (o : OpV) (s : State) : exec (.vcmpge o) s = execVcmpge o s := rfl
@[simp] theorem exec_vsel (o : OpV) (s : State) : exec (.vsel o) s = execVsel o s := rfl
@[simp] theorem exec_vext (o : OpV) (s : State) : exec (.vext o) s = execVext o s := rfl
@[simp] theorem exec_vins (o : OpV) (s : State) : exec (.vins o) s = execVins o s := rfl
@[simp] theorem exec_vperm (o : OpV) (s : State) : exec (.vperm o) s = execVperm o s := rfl
@[simp] theorem exec_vredadd (o : OpV) (s : State) : exec (.vredadd o) s = execVredadd o s := rfl
@[simp] theorem exec_vredmax (o : OpV) (s : State) : exec (.vredmax o) s = execVredmax o s := rfl
@[simp] theorem exec_br (o : OpC) (s : State) : exec (.br o) s = execBr o s := rfl
@[simp] theorem exec_brz (o : OpC) (s : State) : exec (.brz o) s = execBrz o s := rfl
@[simp] theorem exec_brnz (o : OpC) (s : State) : exec (.brnz o) s = execBrnz o s := rfl
@[simp] theorem exec_bri (o : OpC) (s : State) : exec (.bri o) s = execBri o s := rfl
@[simp] theorem exec_call (o : OpC) (s : State) : exec (.call o) s = execCall o s := rfl
@[simp] theorem exec_reti (o : OpC) (s : State) : exec (.reti o) s = execReti o s := rfl
@[simp] theorem exec_loopa (o : OpC) (s : State) : exec (.loopa o) s = execLoopa o s := rfl
@[simp] theorem exec_loopb (o : OpC) (s : State) : exec (.loopb o) s = execLoopb o s := rfl
@[simp] theorem exec_mfc (o : OpC) (s : State) : exec (.mfc o) s = execMfc o s := rfl
@[simp] theorem exec_mtc (o : OpC) (s : State) : exec (.mtc o) s = execMtc o s := rfl
@[simp] theorem exec_dint (o : OpC) (s : State) : exec (.dint o) s = execDint o s := rfl
@[simp] theorem exec_eint (o : OpC) (s : State) : exec (.eint o) s = execEint o s := rfl
@[simp] theorem exec_tend (o : OpC) (t : Tick) (s : State) : exec (.tend o t) s = execTend o t s := rfl
@[simp] theorem exec_trace (o : OpC) (s : State) : exec (.trace o) s = execTrace o s := rfl
@[simp] theorem exec_crcv (o : OpC) (s : State) : exec (.crcv o) s = execCrcv o s := rfl
@[simp] theorem exec_crcs (o : OpC) (s : State) : exec (.crcs o) s = execCrcs o s := rfl
@[simp] theorem exec_crcseed (o : OpC) (s : State) : exec (.crcseed o) s = execCrcseed o s := rfl
@[simp] theorem exec_crcfin (o : OpC) (s : State) : exec (.crcfin o) s = execCrcfin o s := rfl
@[simp] theorem exec_triggerEvaluation (t : Tick) (cond : Nat) (which : Nat) (s : State) :
    exec (.triggerEvaluation t cond which) s = execTriggerEvaluation t cond which s := rfl
@[simp] theorem exec_evtOutPulseEnd (t : Tick) (j : Nat) (s : State) : exec (.evtOutPulseEnd t j) s = execEvtOutPulseEnd t j s := rfl
@[simp] theorem exec_timeConditionInstant (t : Tick) (cond : Nat) (s : State) : exec (.timeConditionInstant t cond) s = execTimeConditionInstant t cond s := rfl
@[simp] theorem exec_triggerGroupNotify (t : Tick) (s : State) : exec (.triggerGroupNotify t) s = execTriggerGroupNotify t s := rfl
@[simp] theorem exec_captureRecordCopy (t : Tick) (capture : Nat) (s : State) : exec (.captureRecordCopy t capture) s = execCaptureRecordCopy t capture s := rfl
@[simp] theorem exec_captureComplete (t : Tick) (capture : Nat) (s : State) : exec (.captureComplete t capture) s = execCaptureComplete t capture s := rfl
@[simp] theorem exec_captureRetainExpiry (t : Tick) (capture : Nat) (s : State) : exec (.captureRetainExpiry t capture) s = execCaptureRetainExpiry t capture s := rfl
@[simp] theorem exec_captureSendComplete (t : Tick) (capture : Nat) (s : State) : exec (.captureSendComplete t capture) s = execCaptureSendComplete t capture s := rfl
@[simp] theorem exec_captureDeriveComplete (t : Tick) (s : State) : exec (.captureDeriveComplete t) s = execCaptureDeriveComplete t s := rfl
@[simp] theorem exec_dramBurstBoundary (clock : Nat) (arrivals : List DramReq) (ecc : EccObs) (s : State) :
    exec (.dramBurstBoundary clock arrivals ecc) s = execDramBurstBoundary clock arrivals ecc s := rfl
@[simp] theorem exec_refreshInterval (clock : Nat) (rank : Nat) (s : State) : exec (.refreshInterval clock rank) s = execRefreshInterval clock rank s := rfl
@[simp] theorem exec_refreshRatePoll (t : Tick) (rank : Nat) (doubled : Bool) (s : State) :
    exec (.refreshRatePoll t rank doubled) s = execRefreshRatePoll t rank doubled s := rfl
@[simp] theorem exec_rowIdleClose (clock : Nat) (rank : Nat) (bank : Nat) (s : State) : exec (.rowIdleClose clock rank bank) s = execRowIdleClose clock rank bank s := rfl
@[simp] theorem exec_qosMeterWindow (t : Tick) (s : State) : exec (.qosMeterWindow t) s = execQosMeterWindow t s := rfl
@[simp] theorem exec_requestUrgencyAge (clock : Nat) (port : Nat) (s : State) : exec (.requestUrgencyAge clock port) s = execRequestUrgencyAge clock port s := rfl
@[simp] theorem exec_patrolScrubRead (t : Tick) (ecc : EccObs) (s : State) : exec (.patrolScrubRead t ecc) s = execPatrolScrubRead t ecc s := rfl
@[simp] theorem exec_eccWriteBack (t : Tick) (address : Nat) (s : State) : exec (.eccWriteBack t address) s = execEccWriteBack t address s := rfl
@[simp] theorem exec_migrationSpareVerified (t : Tick) (ok : Bool) (full : Bool) (s : State) :
    exec (.migrationSpareVerified t ok full) s = execMigrationSpareVerified t ok full s := rfl
@[simp] theorem exec_migrationComplete (t : Tick) (s : State) : exec (.migrationComplete t) s = execMigrationComplete t s := rfl
@[simp] theorem exec_wckDqTracking (t : Tick) (rank : Nat) (moves : List Int) (s : State) : exec (.wckDqTracking t rank moves) s = execWckDqTracking t rank moves s := rfl
@[simp] theorem exec_trackingStep (t : Tick) (rank : Nat) (s : State) : exec (.trackingStep t rank) s = execTrackingStep t rank s := rfl
@[simp] theorem exec_spareRankTest (t : Tick) (s : State) : exec (.spareRankTest t) s = execSpareRankTest t s := rfl
@[simp] theorem exec_spareRankTestEnd (t : Tick) (failing : Option Nat) (s : State) : exec (.spareRankTestEnd t failing) s = execSpareRankTestEnd t failing s := rfl
@[simp] theorem exec_refInputPresent (t : Tick) (inp : FreqInput) (s : State) : exec (.refInputPresent t inp) s = execRefInputPresent t inp s := rfl
@[simp] theorem exec_refInputLost (t : Tick) (inp : FreqInput) (s : State) : exec (.refInputLost t inp) s = execRefInputLost t inp s := rfl
@[simp] theorem exec_freqGateEnd (t : Tick) (inp : FreqInput) (devE15 : Int) (s : State) : exec (.freqGateEnd t inp devE15) s = execFreqGateEnd t inp devE15 s := rfl
@[simp] theorem exec_ppsInEdge (t : Tick) (sub : Nat) (residual : Nat) (s : State) : exec (.ppsInEdge t sub residual) s = execPpsInEdge t sub residual s := rfl
@[simp] theorem exec_ppsInTimeout (t : Tick) (s : State) : exec (.ppsInTimeout t) s = execPpsInTimeout t s := rfl
@[simp] theorem exec_timeSteerUpdate (t : Tick) (freqErrE15 : Int) (s : State) : exec (.timeSteerUpdate t freqErrE15) s = execTimeSteerUpdate t freqErrE15 s := rfl
@[simp] theorem exec_ocxoAgeingStep (t : Tick) (s : State) : exec (.ocxoAgeingStep t) s = execOcxoAgeingStep t s := rfl
@[simp] theorem exec_ptpAnnounce (t : Tick) (p : Port) (a : Announce) (s : State) : exec (.ptpAnnounce t p a) s = execPtpAnnounce t p a s := rfl
@[simp] theorem exec_ptpAnnounceTimeout (t : Tick) (p : Port) (s : State) : exec (.ptpAnnounceTimeout t p) s = execPtpAnnounceTimeout t p s := rfl
@[simp] theorem exec_ptpSync (t : Tick) (p : Port) (master : BitVec 64) (seq : Nat) (twoStep : Bool) (t1 : Stamp) (rx : Stamp) (s : State) :
    exec (.ptpSync t p master seq twoStep t1 rx) s = execPtpSync t p master seq twoStep t1 rx s := rfl
@[simp] theorem exec_ptpFollowUp (t : Tick) (p : Port) (master : BitVec 64) (seq : Nat) (t1 : Stamp) (s : State) :
    exec (.ptpFollowUp t p master seq t1) s = execPtpFollowUp t p master seq t1 s := rfl
@[simp] theorem exec_ptpDelayReqSend (t : Tick) (p : Port) (tx : Stamp) (s : State) : exec (.ptpDelayReqSend t p tx) s = execPtpDelayReqSend t p tx s := rfl
@[simp] theorem exec_ptpDelayResp (t : Tick) (p : Port) (master : BitVec 64) (seq : Nat) (t4 : Stamp) (s : State) :
    exec (.ptpDelayResp t p master seq t4) s = execPtpDelayResp t p master seq t4 s := rfl
@[simp] theorem exec_ptpPdelayResp (t : Tick) (p : Port) (seq : Nat) (t2 t3 t4 : Stamp) (s : State) :
    exec (.ptpPdelayResp t p seq t2 t3 t4) s = execPtpPdelayResp t p seq t2 t3 t4 s := rfl
@[simp] theorem exec_ptpUnsupportedMessage (t : Tick) (p : Port) (kind : PtpUnsupported) (s : State) :
    exec (.ptpUnsupportedMessage t p kind) s = execPtpUnsupportedMessage t p kind s := rfl
@[simp] theorem exec_tdcEdge (t : Tick) (input : Nat) (rising : Bool) (subPs : Nat) (s : State) :
    exec (.tdcEdge t input rising subPs) s = execTdcEdge t input rising subPs s := rfl
@[simp] theorem exec_tdcStampDrain (t : Tick) (input : Nat) (s : State) : exec (.tdcStampDrain t input) s = execTdcStampDrain t input s := rfl
@[simp] theorem exec_tdcGateFit (t : Tick) (input : Nat) (s : State) : exec (.tdcGateFit t input) s = execTdcGateFit t input s := rfl
@[simp] theorem exec_ppsOutEdge (t : Tick) (s : State) : exec (.ppsOutEdge t) s = execPpsOutEdge t s := rfl
@[simp] theorem exec_ppsOutFall (t : Tick) (s : State) : exec (.ppsOutFall t) s = execPpsOutFall t s := rfl
@[simp] theorem exec_chainLoadComplete (t : Tick) (headers : List (BitVec 16)) (words : List (List (BitVec 16))) (checks : List (BitVec 16)) (readback : List (List (BitVec 16))) (s : State) :
    exec (.chainLoadComplete t headers words checks readback) s = execChainLoadComplete t headers words checks readback s := rfl
@[simp] theorem exec_driveMeasurement (t : Tick) (ch : Nat) (current : Nat) (pinMv : Nat) (neighbour : Option (Nat × Nat)) (s : State) :
    exec (.driveMeasurement t ch current pinMv neighbour) s = execDriveMeasurement t ch current pinMv neighbour s := rfl
@[simp] theorem exec_failoverRampComplete (t : Tick) (p : Port) (s : State) : exec (.failoverRampComplete t p) s = execFailoverRampComplete t p s := rfl
@[simp] theorem exec_pumpAgeingRecord (t : Tick) (ch : Nat) (current : Nat) (predicted : Nat) (s : State) :
    exec (.pumpAgeingRecord t ch current predicted) s = execPumpAgeingRecord t ch current predicted s := rfl
@[simp] theorem exec_ledBlink (t : Tick) (x : Port) (s : State) : exec (.ledBlink t x) s = execLedBlink t x s := rfl
@[simp] theorem exec_dnssdPeerFound (t : Tick) (id : BitVec 64) (addr : BitVec 128) (s : State) :
    exec (.dnssdPeerFound t id addr) s = execDnssdPeerFound t id addr s := rfl
@[simp] theorem exec_heartbeat (t : Tick) (m : Heartbeat) (s : State) : exec (.heartbeat t m) s = execHeartbeat t m s := rfl
@[simp] theorem exec_heartbeatSend (t : Tick) (s : State) : exec (.heartbeatSend t) s = execHeartbeatSend t s := rfl
@[simp] theorem exec_timecheck (t : Tick) (id : BitVec 64) (t1 t2 t3 t4 : Stamp) (s : State) :
    exec (.timecheck t id t1 t2 t3 t4) s = execTimecheck t id t1 t2 t3 t4 s := rfl
@[simp] theorem exec_timecheckSend (t : Tick) (s : State) : exec (.timecheckSend t) s = execTimecheckSend t s := rfl
@[simp] theorem exec_table (t : Tick) (from_ : BitVec 64) (members : List (BitVec 64)) (s : State) : exec (.table t from_ members) s = execTable t from_ members s := rfl
@[simp] theorem exec_prepare (t : Tick) (m : Prepare) (s : State) : exec (.prepare t m) s = execPrepare t m s := rfl
@[simp] theorem exec_vote (t : Tick) (m : VoteMsg) (s : State) : exec (.vote t m) s = execVote t m s := rfl
@[simp] theorem exec_decide (t : Tick) (coordinator : BitVec 64) (txn : Nat) (commit : Bool) (ensEpoch : Nat) (s : State) :
    exec (.decide t coordinator txn commit ensEpoch) s = execDecide t coordinator txn commit ensEpoch s := rfl
@[simp] theorem exec_outcome (t : Tick) (coordinator : BitVec 64) (txn : Nat) (from_ : BitVec 64) (answer : Option Nat) (s : State) :
    exec (.outcome t coordinator txn from_ answer) s = execOutcome t coordinator txn from_ answer s := rfl
@[simp] theorem exec_prepareDeadline (t : Tick) (s : State) : exec (.prepareDeadline t) s = execPrepareDeadline t s := rfl
@[simp] theorem exec_outcomeQuery (t : Tick) (s : State) : exec (.outcomeQuery t) s = execOutcomeQuery t s := rfl
@[simp] theorem exec_inDoubtTimeout (t : Tick) (s : State) : exec (.inDoubtTimeout t) s = execInDoubtTimeout t s := rfl
@[simp] theorem exec_memberLost (t : Tick) (id : BitVec 64) (s : State) : exec (.memberLost t id) s = execMemberLost t id s := rfl
@[simp] theorem exec_memberForget (t : Tick) (id : BitVec 64) (s : State) : exec (.memberForget t id) s = execMemberForget t id s := rfl
@[simp] theorem exec_ensTimeEvaluation (t : Tick) (s : State) : exec (.ensTimeEvaluation t) s = execEnsTimeEvaluation t s := rfl
@[simp] theorem exec_ensCaptureTimeout (t : Tick) (s : State) : exec (.ensCaptureTimeout t) s = execEnsCaptureTimeout t s := rfl
@[simp] theorem exec_sourceLoss (t : Tick) (src : Source) (s : State) : exec (.sourceLoss t src) s = execSourceLoss t src s := rfl
@[simp] theorem exec_sourcePresent (t : Tick) (src : Source) (s : State) : exec (.sourcePresent t src) s = execSourcePresent t src s := rfl
@[simp] theorem exec_poeClassification (t : Tick) (p : Port) (cls : Nat) (s : State) : exec (.poeClassification t p cls) s = execPoeClassification t p cls s := rfl
@[simp] theorem exec_lldpPowerAllocation (t : Tick) (p : Port) (alloc : Nat) (s : State) :
    exec (.lldpPowerAllocation t p alloc) s = execLldpPowerAllocation t p alloc s := rfl
@[simp] theorem exec_mpsPulse (t : Tick) (s : State) : exec (.mpsPulse t) s = execMpsPulse t s := rfl
@[simp] theorem exec_levelEvaluation (t : Tick) (s : State) : exec (.levelEvaluation t) s = execLevelEvaluation t s := rfl
@[simp] theorem exec_shedUndo (t : Tick) (s : State) : exec (.shedUndo t) s = execShedUndo t s := rfl
@[simp] theorem exec_bedrockExit (t : Tick) (s : State) : exec (.bedrockExit t) s = execBedrockExit t s := rfl
@[simp] theorem exec_bootComplete (t : Tick) (obs : BootObs) (s : State) : exec (.bootComplete t obs) s = execBootComplete t obs s := rfl
@[simp] theorem exec_readyToRunning (t : Tick) (s : State) : exec (.readyToRunning t) s = execReadyToRunning t s := rfl
@[simp] theorem exec_alarmInterval (t : Tick) (s : State) : exec (.alarmInterval t) s = execAlarmInterval t s := rfl
@[simp] theorem exec_wakeInput (t : Tick) (shorts : List (Nat × Nat)) (s : State) : exec (.wakeInput t shorts) s = execWakeInput t shorts s := rfl
@[simp] theorem exec_comparatorWake (t : Tick) (x : Port) (mv : Nat) (beyondUs : Nat) (shorts : List (Nat × Nat)) (s : State) :
    exec (.comparatorWake t x mv beyondUs shorts) s = execComparatorWake t x mv beyondUs shorts s := rfl
@[simp] theorem exec_wakeTimer (t : Tick) (shorts : List (Nat × Nat)) (s : State) : exec (.wakeTimer t shorts) s = execWakeTimer t shorts s := rfl
@[simp] theorem exec_wakeDatagram (t : Tick) (h : Hdr) (udp : Nat) (link : Port) (shorts : List (Nat × Nat)) (s : State) :
    exec (.wakeDatagram t h udp link shorts) s = execWakeDatagram t h udp link shorts s := rfl
@[simp] theorem exec_grantWake (t : Tick) (shorts : List (Nat × Nat)) (s : State) : exec (.grantWake t shorts) s = execGrantWake t shorts s := rfl
@[simp] theorem exec_geodeLinkTry (t : Tick) (p : Port) (up : Bool) (s : State) : exec (.geodeLinkTry t p up) s = execGeodeLinkTry t p up s := rfl
@[simp] theorem exec_pfail (t : Tick) (external : Bool) (s : State) : exec (.pfail t external) s = execPfail t external s := rfl
@[simp] theorem exec_saveComplete (t : Tick) (ok : Bool) (s : State) : exec (.saveComplete t ok) s = execSaveComplete t ok s := rfl
@[simp] theorem exec_holdCapacitanceMeasure (t : Tick) (microfarad : Nat) (millivolt : Nat) (s : State) :
    exec (.holdCapacitanceMeasure t microfarad millivolt) s = execHoldCapacitanceMeasure t microfarad millivolt s := rfl
@[simp] theorem exec_thermalThreshold (t : Tick) (which : Thermal) (s : State) : exec (.thermalThreshold t which) s = execThermalThreshold t which s := rfl
@[simp] theorem exec_faultRetry (t : Tick) (s : State) : exec (.faultRetry t) s = execFaultRetry t s := rfl
@[simp] theorem exec_resetN (t : Tick) (s : State) : exec (.resetN t) s = execResetN t s := rfl
@[simp] theorem exec_lockstepMismatch (t : Tick) (s : State) : exec (.lockstepMismatch t) s = execLockstepMismatch t s := rfl
@[simp] theorem exec_fwTrialTimeout (t : Tick) (s : State) : exec (.fwTrialTimeout t) s = execFwTrialTimeout t s := rfl
@[simp] theorem exec_wavelengthCalibration (t : Tick) (errorKhz : Int) (s : State) :
    exec (.wavelengthCalibration t errorKhz) s = execWavelengthCalibration t errorKhz s := rfl
@[simp] theorem exec_flashBlockErase (t : Tick) (block : Nat) (ok : Bool) (s : State) : exec (.flashBlockErase t block ok) s = execFlashBlockErase t block ok s := rfl
@[simp] theorem exec_telemetryRecord (t : Tick) (s : State) : exec (.telemetryRecord t) s = execTelemetryRecord t s := rfl
@[simp] theorem exec_telemetryHourly (t : Tick) (s : State) : exec (.telemetryHourly t) s = execTelemetryHourly t s := rfl
@[simp] theorem exec_lifeAccount (t : Tick) (s : State) : exec (.lifeAccount t) s = execLifeAccount t s := rfl
@[simp] theorem exec_selftestComplete (t : Tick) (failed : Nat) (details : List Nat) (s : State) :
    exec (.selftestComplete t failed details) s = execSelftestComplete t failed details s := rfl
@[simp] theorem exec_linkTestEnd (t : Tick) (link : Nat) (bits : Nat) (errors : Nat) (s : State) :
    exec (.linkTestEnd t link bits errors) s = execLinkTestEnd t link bits errors s := rfl
@[simp] theorem exec_linkErrorCheck (t : Tick) (link : Nat) (errors : Nat) (s : State) :
    exec (.linkErrorCheck t link errors) s = execLinkErrorCheck t link errors s := rfl
@[simp] theorem exec_pfailNRelease (t : Tick) (s : State) : exec (.pfailNRelease t) s = execPfailNRelease t s := rfl
@[simp] theorem exec_peerConnectionIdle (t : Tick) (peer : BitVec 64) (s : State) : exec (.peerConnectionIdle t peer) s = execPeerConnectionIdle t peer s := rfl
@[simp] theorem exec_ensCaptureAnswer (t : Tick) (id : BitVec 64) (txn : Nat) (result : Nat) (capture : Nat) (s : State) :
    exec (.ensCaptureAnswer t id txn result capture) s = execEnsCaptureAnswer t id txn result capture s := rfl
@[simp] theorem exec_arpNeighbourSolicitation (t : Tick) (link : Port) (ipv6 : Bool) (addr : BitVec 128) (s : State) :
    exec (.arpNeighbourSolicitation t link ipv6 addr) s = execArpNeighbourSolicitation t link ipv6 addr s := rfl

end Sys2Proof.Machine
end

