-- ==== Sys2Proof/Laws/Keeps.lean ====
section
/-! SUPPORT. What every operation keeps: the queue, the module ID, the form of the read-only parameters, the room of the rings and of the duplicate cache; and, of the operations that
do not change the module state, that state and the kept port. -/

namespace Sys2Proof.Machine

/-- What every operation keeps, whatever it does. -/
structure State.Keeps (s t : State) : Prop where
  fixed : (t.pending, t.moduleId) = (s.pending, s.moduleId)
  registers : s.registersOk → t.registersOk
  rings : s.ringsOk → t.ringsOk
  cache : s.cacheOk → t.cacheOk

/-- What an operation keeps that leaves the module state and the kept port as they are. -/
structure State.Quiet (s t : State) : Prop where
  keeps : s.Keeps t
  mode : t.mode = s.mode
  kept : t.opt.kept = s.opt.kept

/-- What an operation keeps that may change the module state. -/
structure State.Moves (s t : State) : Prop where
  keeps : s.Keeps t
  kept : s.keptOk → t.keptOk

theorem State.Keeps.refl (s : State) : s.Keeps s := ⟨rfl, id, id, id⟩

theorem State.Keeps.trans {s x t : State} (h : s.Keeps x) (k : x.Keeps t) : s.Keeps t :=
  ⟨k.fixed.trans h.fixed, fun r => k.registers (h.registers r), fun r => k.rings (h.rings r), fun r => k.cache (h.cache r)⟩

theorem State.Keeps.pending {s t : State} (h : s.Keeps t) : t.pending = s.pending := congrArg Prod.fst h.fixed

theorem State.Keeps.moduleId {s t : State} (h : s.Keeps t) : t.moduleId = s.moduleId := congrArg Prod.snd h.fixed

theorem State.Quiet.refl (s : State) : s.Quiet s := ⟨State.Keeps.refl s, rfl, rfl⟩

theorem State.Quiet.trans {s x t : State} (h : s.Quiet x) (k : x.Quiet t) : s.Quiet t :=
  ⟨h.keeps.trans k.keeps, k.mode.trans h.mode, k.kept.trans h.kept⟩

theorem State.Quiet.moves {s t : State} (h : s.Quiet t) : s.Moves t :=
  ⟨h.keeps, fun k => by unfold State.keptOk at *; rw [h.kept, h.mode]; exact k⟩

theorem State.Quiet.of_fst {s t : State} {β : Type} {p : State × β} {b : β} (e : p = (t, b)) (h : s.Quiet p.1) : s.Quiet t := by
  rw [e] at h; exact h

theorem State.Moves.refl (s : State) : s.Moves s := (State.Quiet.refl s).moves

theorem State.Moves.trans {s x t : State} (h : s.Moves x) (k : x.Moves t) : s.Moves t := ⟨h.keeps.trans k.keeps, fun r => k.kept (h.kept r)⟩

theorem State.Moves.quiet {s x t : State} (h : s.Moves x) (k : x.Quiet t) : s.Moves t := h.trans k.moves

/-- A change of other fields is quiet. -/
theorem State.Quiet.other {s x : State} (h : s.Quiet x) {pending fresh out now moduleId mode modeSince ro cfg fw sess spi dup requests jobs nextJob events time health opt sig
    drive raman front basalt trig mem power ens}
    (h1 : (pending, moduleId) = (x.pending, x.moduleId)) (h2 : ro = x.ro) (h3 : events = x.events) (h4 : health.log = x.health.log) (h5 : dup = x.dup) (h6 : mode = x.mode)
    (h7 : opt.kept = x.opt.kept) :
    s.Quiet ⟨pending, fresh, out, now, moduleId, mode, modeSince, ro, cfg, fw, sess, spi, dup, requests, jobs, nextJob, events, time, health, opt, sig, drive, raman, front,
      basalt, trig, mem, power, ens⟩ := by
  subst h2 h3 h5 h6
  refine h.trans ⟨⟨h1, id, fun r => ⟨r.1, ?_⟩, id⟩, rfl, h7⟩
  show health.log.length ≤ 262144
  rw [h4]; exact r.2

/-- A change of other fields keeps what is kept. -/
theorem State.Moves.other {s x : State} (h : s.Moves x) {pending fresh out now moduleId mode modeSince ro cfg fw sess spi dup requests jobs nextJob events time health opt sig
    drive raman front basalt trig mem power ens}
    (h1 : (pending, moduleId) = (x.pending, x.moduleId)) (h2 : ro = x.ro) (h3 : events = x.events) (h4 : health.log = x.health.log) (h5 : dup = x.dup) (h6 : mode = x.mode)
    (h7 : opt.kept = x.opt.kept) :
    s.Moves ⟨pending, fresh, out, now, moduleId, mode, modeSince, ro, cfg, fw, sess, spi, dup, requests, jobs, nextJob, events, time, health, opt, sig, drive, raman, front,
      basalt, trig, mem, power, ens⟩ := h.quiet ((State.Quiet.refl x).other h1 h2 h3 h4 h5 h6 h7)

theorem State.Quiet.foldl {α : Type} {s x : State} {f : State → α → State} {l : List α} (hf : ∀ (y : State) a, y.Quiet (f y a)) (h : s.Quiet x) :
    s.Quiet (l.foldl f x) := by
  induction l generalizing x with
  | nil => exact h
  | cons a l ih => exact ih (h.trans (hf x a))

theorem State.Moves.foldl {α : Type} {s x : State} {f : State → α → State} {l : List α} (hf : ∀ (y : State) a, y.Moves (f y a)) (h : s.Moves x) :
    s.Moves (l.foldl f x) := by
  induction l generalizing x with
  | nil => exact h
  | cons a l ih => exact ih (h.trans (hf x a))

theorem State.Quiet.foldlPair {α β : Type} {s : State} {f : State × β → α → State × β} {l : List α} {x : State × β} (hf : ∀ (y : State × β) a, y.1.Quiet (f y a).1)
    (h : s.Quiet x.1) : s.Quiet (l.foldl f x).1 := by
  induction l generalizing x with
  | nil => exact h
  | cons a l ih => exact ih (h.trans (hf x a))

theorem State.Quiet.eachPort {s x : State} {f : State → Port → State} (hf : ∀ (y : State) p, y.Quiet (f y p)) (h : s.Quiet x) : s.Quiet (x.eachPort f) :=
  (h.trans (hf x .a)).trans (hf _ .b)

theorem State.Moves.eachPort {s x : State} {f : State → Port → State} (hf : ∀ (y : State) p, y.Moves (f y p)) (h : s.Moves x) : s.Moves (x.eachPort f) :=
  (h.trans (hf x .a)).trans (hf _ .b)

/-- What a meaning keeps that leaves the module state and the kept port as they are. -/
def State.QuietOut (s : State) (o : Out) : Prop := ∀ t, o = .next t → s.Quiet t

/-- What a meaning keeps that may change the module state. -/
def State.MovesOut (s : State) (o : Out) : Prop := ∀ t, o = .next t → s.Moves t

theorem State.QuietOut.next {s x : State} (h : s.Quiet x) : s.QuietOut (.next x) := fun _ e => Host.Outcome.next.inj e ▸ h

theorem State.QuietOut.fault {s : State} {f : Fault} : s.QuietOut (.fault f) := fun _ e => nomatch e

theorem State.MovesOut.next {s x : State} (h : s.Moves x) : s.MovesOut (.next x) := fun _ e => Host.Outcome.next.inj e ▸ h

theorem State.QuietOut.moves {s : State} {o : Out} (h : s.QuietOut o) : s.MovesOut o := fun t e => (h t e).moves

theorem State.QuietOut.after {s x : State} {o : Out} (h : s.Quiet x) (k : x.QuietOut o) : s.QuietOut o := fun t e => h.trans (k t e)

theorem State.MovesOut.after {s x : State} {o : Out} (h : s.Moves x) (k : x.MovesOut o) : s.MovesOut o := fun t e => h.trans (k t e)

/-! ### The set of read-only parameters -/

theorem findKey_insert_mem {k : Key} {v : Nat} {l : List (Key × Nat)} {e : Key × Nat} (h : e ∈ insertKey k v l) : e = (k, v) ∨ e ∈ l := by
  induction l with
  | nil => simpa [insertKey] using h
  | cons x l ih =>
    obtain ⟨k', v'⟩ := x
    simp only [insertKey] at h
    split at h
    · simpa using h
    · split at h
      · rcases List.mem_cons.1 h with h | h
        · exact .inl h
        · exact .inr (List.mem_cons_of_mem _ h)
      · rcases List.mem_cons.1 h with h | h
        · exact .inr (h ▸ List.mem_cons_self)
        · rcases ih h with h | h
          · exact .inl h
          · exact .inr (List.mem_cons_of_mem _ h)

theorem insertKey_rises {k : Key} {v : Nat} {l : List (Key × Nat)} (h : l.Pairwise (fun a b => a.1 < b.1)) :
    (insertKey k v l).Pairwise (fun a b => a.1 < b.1) := by
  induction l with
  | nil => simp [insertKey]
  | cons x l ih =>
    obtain ⟨k', v'⟩ := x
    obtain ⟨h1, h2⟩ := List.pairwise_cons.1 h
    simp only [insertKey]
    split
    · rename_i hlt
      refine List.pairwise_cons.2 ⟨fun e he => ?_, h⟩
      rcases List.mem_cons.1 he with rfl | he
      · exact hlt
      · exact Nat.lt_trans hlt (h1 e he)
    · split
      · rename_i _ heq
        subst heq
        exact List.pairwise_cons.2 ⟨h1, h2⟩
      · rename_i hn hne
        refine List.pairwise_cons.2 ⟨fun e he => ?_, ih h2⟩
        rcases findKey_insert_mem he with rfl | he
        · exact Nat.lt_of_le_of_ne (Nat.le_of_not_lt hn) (Ne.symm hne)
        · exact h1 e he

theorem eraseKey_sublist (k : Key) (l : List (Key × Nat)) : (eraseKey k l).Sublist l := by
  induction l with
  | nil => exact List.Sublist.refl _
  | cons x l ih =>
    obtain ⟨k', v'⟩ := x
    simp only [eraseKey]
    split
    · exact ih.cons _
    · exact ih.cons_cons _

/-- Setting a parameter to a value of its width keeps the form. -/
theorem PSet.set_wf {p : PSet} {k : Key} {v : Nat} (h : p.wf) (hv : v < 2 ^ (rowAt k.row).width) : (p.set k v).wf := by
  unfold PSet.set
  split
  · exact ⟨h.1.sublist (eraseKey_sublist k _), fun e he => h.2 e ((eraseKey_sublist k _).subset he)⟩
  · refine ⟨insertKey_rises h.1, fun e he => ?_⟩
    rcases findKey_insert_mem he with rfl | he
    · exact ⟨by assumption, hv⟩
    · exact h.2 e he

theorem State.Quiet.setRo {s x : State} {k : Key} {v : Nat} (hv : v < 2 ^ (rowAt k.row).width) (h : s.Quiet x) : s.Quiet { x with ro := x.ro.set k v } :=
  h.trans ⟨⟨rfl, fun r => PSet.set_wf r hv, id, id⟩, rfl, rfl⟩

theorem State.roSet_quiet {s x : State} {k : Key} {v : Nat} (h : s.Quiet x) : s.Quiet (x.roSet k v) :=
  State.Quiet.setRo (Nat.mod_lt _ (by positivity)) h

theorem State.roSetInt_quiet {s x : State} {k : Key} {v : Int} (h : s.Quiet x) : s.Quiet (x.roSetInt k v) := by
  refine State.Quiet.setRo ?_ h
  unfold ofInt
  have hp : (0 : Int) < 2 ^ (rowAt k.row).width := by positivity
  have h1 := Int.emod_lt_of_pos v hp
  have h0 := Int.emod_nonneg v hp.ne'
  zify
  rw [Int.toNat_of_nonneg h0]
  exact h1

theorem State.bump_quiet {s x : State} {k : Key} {n : Nat} (h : s.Quiet x) : s.Quiet (x.bump k n) := State.roSet_quiet h

theorem State.bumpSat_quiet {s x : State} {k : Key} {n : Nat} (h : s.Quiet x) : s.Quiet (x.bumpSat k n) := by
  refine State.Quiet.setRo ?_ h
  have : 0 < 2 ^ (rowAt k.row).width := by positivity
  omega

theorem State.roMax_quiet {s x : State} {k : Key} {n : Nat} (h : s.Quiet x) : s.Quiet (x.roMax k n) := by
  refine State.Quiet.setRo ?_ h
  have : 0 < 2 ^ (rowAt k.row).width := by positivity
  omega

/-! ### Rings -/

theorem State.logPush_quiet {s x : State} {kind code severity : Nat} {time : Stamp} {args : List Val} (h : s.Quiet x) :
    s.Quiet (x.logPush kind code severity time args) := by
  refine h.trans (State.bump_quiet ⟨⟨rfl, id, fun r => ⟨r.1, ?_⟩, id⟩, rfl, rfl⟩)
  show (List.take logCapacity _).length ≤ 262144
  exact List.length_take_le _ _

end Sys2Proof.Machine
end

