-- ==== Sys2Proof/Laws/KeepsOps.lean ====
section
/-! SUPPORT. What the operations of Machine/Ops.lean keep. -/

set_option linter.unusedTactic false
set_option linter.unreachableTactic false
set_option linter.unusedVariables false

namespace Sys2Proof.Machine

theorem State.at_quiet {s0 : State} {s : State} {t : Tick} (hq : s0.Quiet s) :
    s0.Quiet (State.at s t) := by
  unfold State.at
  repeat' first | with_reducible assumption | split | with_reducible refine State.Quiet.of_fst (by assumption) ?_ | fail_if_no_progress with_reducible refine State.Quiet.other ?_ rfl rfl rfl rfl rfl rfl rfl

theorem State.drawn_quiet {s0 : State} {s : State} (hq : s0.Quiet s) :
    s0.Quiet (State.drawn s) := by
  unfold State.drawn
  repeat' first | with_reducible assumption | split | with_reducible refine State.Quiet.of_fst (by assumption) ?_ | fail_if_no_progress with_reducible refine State.Quiet.other ?_ rfl rfl rfl rfl rfl rfl rfl

theorem State.emit_quiet {s0 : State} {s : State} {o : Output} (hq : s0.Quiet s) :
    s0.Quiet (State.emit s o) := by
  unfold State.emit
  repeat' first | with_reducible assumption | split | with_reducible refine State.Quiet.of_fst (by assumption) ?_ | fail_if_no_progress with_reducible refine State.Quiet.other ?_ rfl rfl rfl rfl rfl rfl rfl

theorem State.logEntry_quiet {s0 : State} {s : State} {kind code severity : Nat} {time : Stamp} {args : List Val} (hq : s0.Quiet s) :
    s0.Quiet (State.logEntry s kind code severity time args) := by
  unfold State.logEntry
  try extract_lets y1 y2 y3 y4 y5 y6
  try
    have k3 : s0.Quiet y3 := by
      dsimp only [y3]
      repeat' first | with_reducible assumption | split | with_reducible refine State.Quiet.of_fst (by assumption) ?_ | fail_if_no_progress with_reducible refine State.Quiet.other ?_ rfl rfl rfl rfl rfl rfl rfl
    clear_value y3
  try
    have k5 : s0.Quiet y5 := by
      dsimp only [y5]
      repeat' first | with_reducible assumption | with_reducible apply State.logPush_quiet | split | with_reducible refine State.Quiet.of_fst (by assumption) ?_ | fail_if_no_progress with_reducible refine State.Quiet.other ?_ rfl rfl rfl rfl rfl rfl rfl
    clear_value y5
  repeat' first | with_reducible assumption | with_reducible apply State.logPush_quiet | with_reducible apply State.bump_quiet | split | with_reducible refine State.Quiet.of_fst (by assumption) ?_ | fail_if_no_progress with_reducible refine State.Quiet.other ?_ rfl rfl rfl rfl rfl rfl rfl

theorem State.setPair_quiet {s0 : State} {s : State} {n : Nat} {x : Session} (hq : s0.Quiet s) :
    s0.Quiet (State.setPair s n x) := by
  unfold State.setPair
  repeat' first | with_reducible assumption | split | with_reducible refine State.Quiet.of_fst (by assumption) ?_ | fail_if_no_progress with_reducible refine State.Quiet.other ?_ rfl rfl rfl rfl rfl rfl rfl

theorem State.pump_quiet {s0 : State} {s : State} {n : Nat} (hq : s0.Quiet s) :
    s0.Quiet (State.pump s n) := by
  unfold State.pump
  try extract_lets y1 y2 y3
  try
    have k3 : s0.Quiet y3 := by
      dsimp only [y3]
      repeat' first | with_reducible assumption | with_reducible apply State.setPair_quiet | split | with_reducible refine State.Quiet.of_fst (by assumption) ?_
    clear_value y3
  repeat' first | with_reducible assumption | with_reducible apply State.setPair_quiet | split | with_reducible refine State.Quiet.of_fst (by assumption) ?_ | fail_if_no_progress with_reducible refine State.Quiet.other ?_ rfl rfl rfl rfl rfl rfl rfl

theorem State.notify_quiet {s0 : State} {s : State} {e : Event} {n : Nat} (hq : s0.Quiet s) :
    s0.Quiet (State.notify s e n) := by
  unfold State.notify
  try extract_lets y1 y2 y3 y4
  try
    have k3 : s0.Quiet y3 := by
      dsimp only [y3]
      repeat' first | with_reducible assumption | with_reducible apply State.setPair_quiet | split | with_reducible refine State.Quiet.of_fst (by assumption) ?_
    clear_value y3
  try
    have k4 : s0.Quiet y4 := by
      dsimp only [y4]
      repeat' first | with_reducible assumption | with_reducible apply State.bump_quiet | split | with_reducible refine State.Quiet.of_fst (by assumption) ?_
    clear_value y4
  repeat' first | with_reducible assumption | with_reducible apply State.pump_quiet | split | with_reducible refine State.Quiet.of_fst (by assumption) ?_

theorem State.raiseFull_quiet {s0 s : State} {code severity : Nat} {time : Stamp} {args : List Val} {epoch : Nat} (h : s0.Quiet s) :
    s0.Quiet (s.raiseFull code severity time args epoch) := by
  unfold State.raiseFull
  extract_lets e s1 s2
  have k1 : s0.Quiet s1 := by
    dsimp only [s1]
    apply State.bump_quiet
    refine h.trans ⟨⟨rfl, id, fun r => ⟨?_, r.2⟩, id⟩, rfl, rfl⟩
    exact List.length_take_le _ _
  clear_value s1
  have k2 : s0.Quiet s2 := by
    dsimp only [s2]
    split
    · exact State.logEntry_quiet k1
    · exact k1
  clear_value s2
  exact State.Quiet.foldl (fun y a => State.notify_quiet (State.Quiet.refl y)) k2

theorem State.raiseSev_quiet {s0 : State} {s : State} {code severity : Nat} {args : List Val} (hq : s0.Quiet s) :
    s0.Quiet (State.raiseSev s code severity args) := by
  unfold State.raiseSev
  repeat' first | with_reducible assumption | with_reducible apply State.raiseFull_quiet | split | with_reducible refine State.Quiet.of_fst (by assumption) ?_

theorem State.raise_quiet {s0 : State} {s : State} {code : Nat} {args : List Val} (hq : s0.Quiet s) :
    s0.Quiet (State.raise s code args) := by
  unfold State.raise
  repeat' first | with_reducible assumption | with_reducible apply State.raiseSev_quiet | split | with_reducible refine State.Quiet.of_fst (by assumption) ?_

end Sys2Proof.Machine
end

