-- ==== Sys2Proof/Laws/KeepsStreams.lean ====
section
/-! SUPPORT. What the operations of Machine/Streams.lean keep. -/

set_option linter.unusedTactic false
set_option linter.unreachableTactic false
set_option linter.unusedVariables false

namespace Sys2Proof.Machine

theorem State.setStream_quiet {s0 : State} {s : State} {n : Nat} {x : StreamSt} (hq : s0.Quiet s) :
    s0.Quiet (State.setStream s n x) := by
  unfold State.setStream
  try extract_lets y1
  repeat' first | with_reducible assumption | split | with_reducible refine State.Quiet.of_fst (by assumption) ?_ | fail_if_no_progress with_reducible refine State.Quiet.other ?_ rfl rfl rfl rfl rfl rfl rfl

theorem State.setCoh_quiet {s0 : State} {s : State} {p : Port} {x : CohPort} (hq : s0.Quiet s) :
    s0.Quiet (State.setCoh s p x) := by
  unfold State.setCoh
  try extract_lets y1
  repeat' first | with_reducible assumption | split | with_reducible refine State.Quiet.of_fst (by assumption) ?_ | fail_if_no_progress with_reducible refine State.Quiet.other ?_ rfl rfl rfl rfl rfl rfl rfl | dsimp only

theorem State.setLink_quiet {s0 : State} {s : State} {p : Port} {x : LinkSt} (hq : s0.Quiet s) :
    s0.Quiet (State.setLink s p x) := by
  unfold State.setLink
  try extract_lets y1
  repeat' first | with_reducible assumption | split | with_reducible refine State.Quiet.of_fst (by assumption) ?_ | fail_if_no_progress with_reducible refine State.Quiet.other ?_ rfl rfl rfl rfl rfl rfl rfl | dsimp only

theorem State.streamPublish_quiet {s0 : State} {s : State} {sid : Nat} (hq : s0.Quiet s) :
    s0.Quiet (State.streamPublish s sid) := by
  unfold State.streamPublish
  try extract_lets y1 y2 y3 y4
  try
    have k3 : s0.Quiet y3 := by
      dsimp only [y3]
      repeat' first | with_reducible assumption | with_reducible apply State.roSet_quiet | with_reducible apply State.Quiet.foldl | with_reducible apply State.Quiet.eachPort | with_reducible exact State.Quiet.refl _ | with_reducible intro _ _ | split | with_reducible refine State.Quiet.of_fst (by assumption) ?_ | fail_if_no_progress with_reducible refine State.Quiet.other ?_ rfl rfl rfl rfl rfl rfl rfl | dsimp only
    clear_value y3
  repeat' first | with_reducible assumption | with_reducible apply State.roSet_quiet | with_reducible apply State.Quiet.foldl | with_reducible apply State.Quiet.eachPort | with_reducible exact State.Quiet.refl _ | with_reducible intro _ _ | split | with_reducible refine State.Quiet.of_fst (by assumption) ?_ | fail_if_no_progress with_reducible refine State.Quiet.other ?_ rfl rfl rfl rfl rfl rfl rfl | dsimp only

theorem State.confirmLeaving_quiet {s0 : State} {s : State} {sid : Nat} (hq : s0.Quiet s) :
    s0.Quiet (State.confirmLeaving s sid) := by
  unfold State.confirmLeaving
  repeat' first | with_reducible assumption | with_reducible apply State.raise_quiet | with_reducible apply State.setStream_quiet | with_reducible apply State.Quiet.foldl | with_reducible exact State.Quiet.refl _ | with_reducible intro _ _ | split | with_reducible refine State.Quiet.of_fst (by assumption) ?_ | dsimp only

theorem State.streamSwap_quiet {s0 : State} {s : State} {sid : Nat} {b : Bank} (hq : s0.Quiet s) :
    s0.Quiet (State.streamSwap s sid b) := by
  unfold State.streamSwap
  extract_lets y1 y2 y3 y4 y5 y6 y7 y8 y9 y10 y11 y12 y13
  try clear_value y1
  try clear_value y2
  try clear_value y3
  try clear_value y4
  try clear_value y5
  try clear_value y6
  first
    | (have k7 : s0.Quiet y7 := by (dsimp only [y7]; repeat' first | with_reducible assumption | with_reducible apply State.setStream_quiet | with_reducible apply State.streamPublish_quiet | with_reducible apply State.Quiet.foldl | with_reducible apply State.Quiet.eachPort | with_reducible exact State.Quiet.refl _ | with_reducible intro _ _ | split | with_reducible refine State.Quiet.of_fst (by assumption) ?_ | fail_if_no_progress with_reducible refine State.Quiet.other ?_ rfl rfl rfl rfl rfl rfl rfl | dsimp only)
       clear_value y7)
    | clear_value y7
    | skip
  first
    | (have k8 : s0.Quiet y8 := by (dsimp only [y8]; repeat' first | with_reducible assumption | with_reducible apply State.setStream_quiet | with_reducible apply State.streamPublish_quiet | with_reducible apply State.Quiet.foldl | with_reducible apply State.Quiet.eachPort | with_reducible exact State.Quiet.refl _ | with_reducible intro _ _ | split | with_reducible refine State.Quiet.of_fst (by assumption) ?_ | fail_if_no_progress with_reducible refine State.Quiet.other ?_ rfl rfl rfl rfl rfl rfl rfl | dsimp only)
       clear_value y8)
    | clear_value y8
    | skip
  first
    | (have k9 : s0.Quiet y9 := by (dsimp only [y9]; repeat' first | with_reducible assumption | with_reducible apply State.setStream_quiet | with_reducible apply State.streamPublish_quiet | with_reducible apply State.Quiet.foldl | with_reducible apply State.Quiet.eachPort | with_reducible exact State.Quiet.refl _ | with_reducible intro _ _ | split | with_reducible refine State.Quiet.of_fst (by assumption) ?_ | fail_if_no_progress with_reducible refine State.Quiet.other ?_ rfl rfl rfl rfl rfl rfl rfl | dsimp only)
       clear_value y9)
    | clear_value y9
    | skip
  first
    | (have k10 : s0.Quiet y10 := by (dsimp only [y10]; repeat' first | with_reducible assumption | with_reducible apply State.setStream_quiet | with_reducible apply State.streamPublish_quiet | with_reducible apply State.Quiet.foldl | with_reducible apply State.Quiet.eachPort | with_reducible exact State.Quiet.refl _ | with_reducible intro _ _ | split | with_reducible refine State.Quiet.of_fst (by assumption) ?_ | fail_if_no_progress with_reducible refine State.Quiet.other ?_ rfl rfl rfl rfl rfl rfl rfl | dsimp only)
       clear_value y10)
    | clear_value y10
    | skip
  repeat' first | with_reducible assumption | with_reducible apply State.setStream_quiet | with_reducible apply State.streamPublish_quiet | with_reducible apply State.Quiet.foldl | with_reducible apply State.Quiet.eachPort | with_reducible exact State.Quiet.refl _ | with_reducible intro _ _ | split | with_reducible refine State.Quiet.of_fst (by assumption) ?_ | fail_if_no_progress with_reducible refine State.Quiet.other ?_ rfl rfl rfl rfl rfl rfl rfl | dsimp only

theorem State.streamTrace_quiet {s0 : State} {s : State} {sid : Nat} {p : Port} {tr : StrainTrace} (hq : s0.Quiet s) :
    s0.Quiet (State.streamTrace s sid p tr).1 := by
  unfold State.streamTrace
  extract_lets y1 y2 y3 y4 y5 y6 y7 y8 y9 y10 y11 y12 y13 y14 y15 y16
  try clear_value y1
  try clear_value y2
  try clear_value y3
  try clear_value y4
  first
    | (have k5 : s0.Quiet y5 := by (dsimp only [y5]; repeat' first | with_reducible assumption | with_reducible apply State.setStream_quiet | with_reducible apply State.streamSwap_quiet | with_reducible apply State.Quiet.foldl | with_reducible apply State.Quiet.eachPort | with_reducible exact State.Quiet.refl _ | with_reducible intro _ _ | split | with_reducible refine State.Quiet.of_fst (by assumption) ?_ | fail_if_no_progress with_reducible refine State.Quiet.other ?_ rfl rfl rfl rfl rfl rfl rfl | dsimp only)
       clear_value y5)
    | (have k5 : s0.Quiet y5.1 := by (dsimp only [y5]; repeat' first | with_reducible assumption | with_reducible apply State.setStream_quiet | with_reducible apply State.streamSwap_quiet | with_reducible apply State.Quiet.foldl | with_reducible apply State.Quiet.eachPort | with_reducible exact State.Quiet.refl _ | with_reducible intro _ _ | split | with_reducible refine State.Quiet.of_fst (by assumption) ?_ | fail_if_no_progress with_reducible refine State.Quiet.other ?_ rfl rfl rfl rfl rfl rfl rfl | dsimp only)
       clear_value y5)
    | clear_value y5
    | skip
  first
    | (have k6 : s0.Quiet y6 := by (dsimp only [y6]; repeat' first | with_reducible assumption | with_reducible apply State.setStream_quiet | with_reducible apply State.streamSwap_quiet | with_reducible apply State.Quiet.foldl | with_reducible apply State.Quiet.eachPort | with_reducible exact State.Quiet.refl _ | with_reducible intro _ _ | split | with_reducible refine State.Quiet.of_fst (by assumption) ?_ | fail_if_no_progress with_reducible refine State.Quiet.other ?_ rfl rfl rfl rfl rfl rfl rfl | dsimp only)
       clear_value y6)
    | (have k6 : s0.Quiet y6.1 := by (dsimp only [y6]; repeat' first | with_reducible assumption | with_reducible apply State.setStream_quiet | with_reducible apply State.streamSwap_quiet | with_reducible apply State.Quiet.foldl | with_reducible apply State.Quiet.eachPort | with_reducible exact State.Quiet.refl _ | with_reducible intro _ _ | split | with_reducible refine State.Quiet.of_fst (by assumption) ?_ | fail_if_no_progress with_reducible refine State.Quiet.other ?_ rfl rfl rfl rfl rfl rfl rfl | dsimp only)
       clear_value y6)
    | clear_value y6
    | skip
  first
    | (have k7 : s0.Quiet y7 := by (dsimp only [y7]; repeat' first | with_reducible assumption | with_reducible apply State.setStream_quiet | with_reducible apply State.streamSwap_quiet | with_reducible apply State.Quiet.foldl | with_reducible apply State.Quiet.eachPort | with_reducible exact State.Quiet.refl _ | with_reducible intro _ _ | split | with_reducible refine State.Quiet.of_fst (by assumption) ?_ | fail_if_no_progress with_reducible refine State.Quiet.other ?_ rfl rfl rfl rfl rfl rfl rfl | dsimp only)
       clear_value y7)
    | (have k7 : s0.Quiet y7.1 := by (dsimp only [y7]; repeat' first | with_reducible assumption | with_reducible apply State.setStream_quiet | with_reducible apply State.streamSwap_quiet | with_reducible apply State.Quiet.foldl | with_reducible apply State.Quiet.eachPort | with_reducible exact State.Quiet.refl _ | with_reducible intro _ _ | split | with_reducible refine State.Quiet.of_fst (by assumption) ?_ | fail_if_no_progress with_reducible refine State.Quiet.other ?_ rfl rfl rfl rfl rfl rfl rfl | dsimp only)
       clear_value y7)
    | clear_value y7
    | skip
  first
    | (have k8 : s0.Quiet y8 := by (dsimp only [y8]; repeat' first | with_reducible assumption | with_reducible apply State.setStream_quiet | with_reducible apply State.streamSwap_quiet | with_reducible apply State.Quiet.foldl | with_reducible apply State.Quiet.eachPort | with_reducible exact State.Quiet.refl _ | with_reducible intro _ _ | split | with_reducible refine State.Quiet.of_fst (by assumption) ?_ | fail_if_no_progress with_reducible refine State.Quiet.other ?_ rfl rfl rfl rfl rfl rfl rfl | dsimp only)
       clear_value y8)
    | (have k8 : s0.Quiet y8.1 := by (dsimp only [y8]; repeat' first | with_reducible assumption | with_reducible apply State.setStream_quiet | with_reducible apply State.streamSwap_quiet | with_reducible apply State.Quiet.foldl | with_reducible apply State.Quiet.eachPort | with_reducible exact State.Quiet.refl _ | with_reducible intro _ _ | split | with_reducible refine State.Quiet.of_fst (by assumption) ?_ | fail_if_no_progress with_reducible refine State.Quiet.other ?_ rfl rfl rfl rfl rfl rfl rfl | dsimp only)
       clear_value y8)
    | clear_value y8
    | skip
  repeat' first | with_reducible assumption | with_reducible apply State.setStream_quiet | with_reducible apply State.streamSwap_quiet | with_reducible apply State.Quiet.foldl | with_reducible apply State.Quiet.eachPort | with_reducible exact State.Quiet.refl _ | with_reducible intro _ _ | split | with_reducible refine State.Quiet.of_fst (by assumption) ?_ | fail_if_no_progress with_reducible refine State.Quiet.other ?_ rfl rfl rfl rfl rfl rfl rfl | dsimp only

theorem State.streamTraces_quiet {s0 s : State} {p : Port} {trs : List StrainTrace} (h : s0.Quiet s) : s0.Quiet (s.streamTraces p trs).1 :=
  State.Quiet.foldlPair (fun _ _ => State.Quiet.foldlPair (fun _ _ => State.streamTrace_quiet (State.Quiet.refl _)) (State.Quiet.refl _)) h

theorem State.alarmTake_quiet {s0 : State} {s : State} {p : Port} {tr : StrainTrace} (hq : s0.Quiet s) :
    s0.Quiet (State.alarmTake s p tr) := by
  unfold State.alarmTake
  try extract_lets y1 y2
  repeat' first | with_reducible assumption | with_reducible apply State.Quiet.foldl | with_reducible apply State.Quiet.eachPort | with_reducible exact State.Quiet.refl _ | with_reducible intro _ _ | split | with_reducible refine State.Quiet.of_fst (by assumption) ?_ | fail_if_no_progress with_reducible refine State.Quiet.other ?_ rfl rfl rfl rfl rfl rfl rfl | dsimp only

theorem State.loadDue_quiet {s0 : State} {s : State} {sid : Nat} {first : Stamp} (hq : s0.Quiet s) :
    s0.Quiet (State.loadDue s sid first) := by
  unfold State.loadDue
  repeat' first | with_reducible assumption | with_reducible apply State.streamSwap_quiet | with_reducible apply State.Quiet.foldl | with_reducible apply State.Quiet.eachPort | with_reducible exact State.Quiet.refl _ | with_reducible intro _ _ | split | with_reducible refine State.Quiet.of_fst (by assumption) ?_ | fail_if_no_progress with_reducible refine State.Quiet.other ?_ rfl rfl rfl rfl rfl rfl rfl | dsimp only

theorem State.settle_quiet {s0 : State} {s : State} {sid : Nat} (hq : s0.Quiet s) :
    s0.Quiet (State.settle s sid) := by
  unfold State.settle
  repeat' first | with_reducible assumption | with_reducible apply State.streamSwap_quiet | with_reducible apply State.Quiet.foldl | with_reducible apply State.Quiet.eachPort | with_reducible exact State.Quiet.refl _ | with_reducible intro _ _ | split | with_reducible refine State.Quiet.of_fst (by assumption) ?_ | fail_if_no_progress with_reducible refine State.Quiet.other ?_ rfl rfl rfl rfl rfl rfl rfl | dsimp only

theorem State.settleAll_quiet {s0 : State} {s : State} (hq : s0.Quiet s) :
    s0.Quiet (State.settleAll s) := by
  unfold State.settleAll
  repeat' first | with_reducible assumption | with_reducible apply State.settle_quiet | with_reducible apply State.Quiet.foldl | with_reducible apply State.Quiet.eachPort | with_reducible exact State.Quiet.refl _ | with_reducible intro _ _ | split | with_reducible refine State.Quiet.of_fst (by assumption) ?_ | fail_if_no_progress with_reducible refine State.Quiet.other ?_ rfl rfl rfl rfl rfl rfl rfl | dsimp only

theorem State.closePort_quiet {s0 : State} {s : State} {p : Port} (hq : s0.Quiet s) :
    s0.Quiet (State.closePort s p) := by
  unfold State.closePort
  extract_lets y1 y2 y3 y4 y5 y6 y7 y8 y9 y10 y11 y12
  try clear_value y1
  first
    | (have k2 : s0.Quiet y2 := by (dsimp only [y2]; repeat' first | with_reducible assumption | with_reducible apply State.alarmTake_quiet | with_reducible apply State.setCoh_quiet | with_reducible apply State.streamTraces_quiet | with_reducible apply State.setStream_quiet | with_reducible apply State.settle_quiet | with_reducible apply State.Quiet.foldl | with_reducible apply State.Quiet.eachPort | with_reducible exact State.Quiet.refl _ | with_reducible intro _ _ | split | with_reducible refine State.Quiet.of_fst (by assumption) ?_ | fail_if_no_progress with_reducible refine State.Quiet.other ?_ rfl rfl rfl rfl rfl rfl rfl | dsimp only)
       clear_value y2)
    | (have k2 : s0.Quiet y2.1 := by (dsimp only [y2]; repeat' first | with_reducible assumption | with_reducible apply State.alarmTake_quiet | with_reducible apply State.setCoh_quiet | with_reducible apply State.streamTraces_quiet | with_reducible apply State.setStream_quiet | with_reducible apply State.settle_quiet | with_reducible apply State.Quiet.foldl | with_reducible apply State.Quiet.eachPort | with_reducible exact State.Quiet.refl _ | with_reducible intro _ _ | split | with_reducible refine State.Quiet.of_fst (by assumption) ?_ | fail_if_no_progress with_reducible refine State.Quiet.other ?_ rfl rfl rfl rfl rfl rfl rfl | dsimp only)
       clear_value y2)
    | clear_value y2
    | skip
  first
    | (have k3 : s0.Quiet y3 := by (dsimp only [y3]; repeat' first | with_reducible assumption | with_reducible apply State.alarmTake_quiet | with_reducible apply State.setCoh_quiet | with_reducible apply State.streamTraces_quiet | with_reducible apply State.setStream_quiet | with_reducible apply State.settle_quiet | with_reducible apply State.Quiet.foldl | with_reducible apply State.Quiet.eachPort | with_reducible exact State.Quiet.refl _ | with_reducible intro _ _ | split | with_reducible refine State.Quiet.of_fst (by assumption) ?_ | fail_if_no_progress with_reducible refine State.Quiet.other ?_ rfl rfl rfl rfl rfl rfl rfl | dsimp only)
       clear_value y3)
    | (have k3 : s0.Quiet y3.1 := by (dsimp only [y3]; repeat' first | with_reducible assumption | with_reducible apply State.alarmTake_quiet | with_reducible apply State.setCoh_quiet | with_reducible apply State.streamTraces_quiet | with_reducible apply State.setStream_quiet | with_reducible apply State.settle_quiet | with_reducible apply State.Quiet.foldl | with_reducible apply State.Quiet.eachPort | with_reducible exact State.Quiet.refl _ | with_reducible intro _ _ | split | with_reducible refine State.Quiet.of_fst (by assumption) ?_ | fail_if_no_progress with_reducible refine State.Quiet.other ?_ rfl rfl rfl rfl rfl rfl rfl | dsimp only)
       clear_value y3)
    | clear_value y3
    | skip
  first
    | (have k4 : s0.Quiet y4 := by (dsimp only [y4]; repeat' first | with_reducible assumption | with_reducible apply State.alarmTake_quiet | with_reducible apply State.setCoh_quiet | with_reducible apply State.streamTraces_quiet | with_reducible apply State.setStream_quiet | with_reducible apply State.settle_quiet | with_reducible apply State.Quiet.foldl | with_reducible apply State.Quiet.eachPort | with_reducible exact State.Quiet.refl _ | with_reducible intro _ _ | split | with_reducible refine State.Quiet.of_fst (by assumption) ?_ | fail_if_no_progress with_reducible refine State.Quiet.other ?_ rfl rfl rfl rfl rfl rfl rfl | dsimp only)
       clear_value y4)
    | (have k4 : s0.Quiet y4.1 := by (dsimp only [y4]; repeat' first | with_reducible assumption | with_reducible apply State.alarmTake_quiet | with_reducible apply State.setCoh_quiet | with_reducible apply State.streamTraces_quiet | with_reducible apply State.setStream_quiet | with_reducible apply State.settle_quiet | with_reducible apply State.Quiet.foldl | with_reducible apply State.Quiet.eachPort | with_reducible exact State.Quiet.refl _ | with_reducible intro _ _ | split | with_reducible refine State.Quiet.of_fst (by assumption) ?_ | fail_if_no_progress with_reducible refine State.Quiet.other ?_ rfl rfl rfl rfl rfl rfl rfl | dsimp only)
       clear_value y4)
    | clear_value y4
    | skip
  first
    | (have k5 : s0.Quiet y5 := by (dsimp only [y5]; repeat' first | with_reducible assumption | with_reducible apply State.alarmTake_quiet | with_reducible apply State.setCoh_quiet | with_reducible apply State.streamTraces_quiet | with_reducible apply State.setStream_quiet | with_reducible apply State.settle_quiet | with_reducible apply State.Quiet.foldl | with_reducible apply State.Quiet.eachPort | with_reducible exact State.Quiet.refl _ | with_reducible intro _ _ | split | with_reducible refine State.Quiet.of_fst (by assumption) ?_ | fail_if_no_progress with_reducible refine State.Quiet.other ?_ rfl rfl rfl rfl rfl rfl rfl | dsimp only)
       clear_value y5)
    | (have k5 : s0.Quiet y5.1 := by (dsimp only [y5]; repeat' first | with_reducible assumption | with_reducible apply State.alarmTake_quiet | with_reducible apply State.setCoh_quiet | with_reducible apply State.streamTraces_quiet | with_reducible apply State.setStream_quiet | with_reducible apply State.settle_quiet | with_reducible apply State.Quiet.foldl | with_reducible apply State.Quiet.eachPort | with_reducible exact State.Quiet.refl _ | with_reducible intro _ _ | split | with_reducible refine State.Quiet.of_fst (by assumption) ?_ | fail_if_no_progress with_reducible refine State.Quiet.other ?_ rfl rfl rfl rfl rfl rfl rfl | dsimp only)
       clear_value y5)
    | clear_value y5
    | skip
  first
    | (have k6 : s0.Quiet y6 := by (dsimp only [y6]; repeat' first | with_reducible assumption | with_reducible apply State.alarmTake_quiet | with_reducible apply State.setCoh_quiet | with_reducible apply State.streamTraces_quiet | with_reducible apply State.setStream_quiet | with_reducible apply State.settle_quiet | with_reducible apply State.Quiet.foldl | with_reducible apply State.Quiet.eachPort | with_reducible exact State.Quiet.refl _ | with_reducible intro _ _ | split | with_reducible refine State.Quiet.of_fst (by assumption) ?_ | fail_if_no_progress with_reducible refine State.Quiet.other ?_ rfl rfl rfl rfl rfl rfl rfl | dsimp only)
       clear_value y6)
    | (have k6 : s0.Quiet y6.1 := by (dsimp only [y6]; repeat' first | with_reducible assumption | with_reducible apply State.alarmTake_quiet | with_reducible apply State.setCoh_quiet | with_reducible apply State.streamTraces_quiet | with_reducible apply State.setStream_quiet | with_reducible apply State.settle_quiet | with_reducible apply State.Quiet.foldl | with_reducible apply State.Quiet.eachPort | with_reducible exact State.Quiet.refl _ | with_reducible intro _ _ | split | with_reducible refine State.Quiet.of_fst (by assumption) ?_ | fail_if_no_progress with_reducible refine State.Quiet.other ?_ rfl rfl rfl rfl rfl rfl rfl | dsimp only)
       clear_value y6)
    | clear_value y6
    | skip
  first
    | (have k7 : s0.Quiet y7 := by (dsimp only [y7]; repeat' first | with_reducible assumption | with_reducible apply State.alarmTake_quiet | with_reducible apply State.setCoh_quiet | with_reducible apply State.streamTraces_quiet | with_reducible apply State.setStream_quiet | with_reducible apply State.settle_quiet | with_reducible apply State.Quiet.foldl | with_reducible apply State.Quiet.eachPort | with_reducible exact State.Quiet.refl _ | with_reducible intro _ _ | split | with_reducible refine State.Quiet.of_fst (by assumption) ?_ | fail_if_no_progress with_reducible refine State.Quiet.other ?_ rfl rfl rfl rfl rfl rfl rfl | dsimp only)
       clear_value y7)
    | (have k7 : s0.Quiet y7.1 := by (dsimp only [y7]; repeat' first | with_reducible assumption | with_reducible apply State.alarmTake_quiet | with_reducible apply State.setCoh_quiet | with_reducible apply State.streamTraces_quiet | with_reducible apply State.setStream_quiet | with_reducible apply State.settle_quiet | with_reducible apply State.Quiet.foldl | with_reducible apply State.Quiet.eachPort | with_reducible exact State.Quiet.refl _ | with_reducible intro _ _ | split | with_reducible refine State.Quiet.of_fst (by assumption) ?_ | fail_if_no_progress with_reducible refine State.Quiet.other ?_ rfl rfl rfl rfl rfl rfl rfl | dsimp only)
       clear_value y7)
    | clear_value y7
    | skip
  first
    | (have k8 : s0.Quiet y8 := by (dsimp only [y8]; repeat' first | with_reducible assumption | with_reducible apply State.alarmTake_quiet | with_reducible apply State.setCoh_quiet | with_reducible apply State.streamTraces_quiet | with_reducible apply State.setStream_quiet | with_reducible apply State.settle_quiet | with_reducible apply State.Quiet.foldl | with_reducible apply State.Quiet.eachPort | with_reducible exact State.Quiet.refl _ | with_reducible intro _ _ | split | with_reducible refine State.Quiet.of_fst (by assumption) ?_ | fail_if_no_progress with_reducible refine State.Quiet.other ?_ rfl rfl rfl rfl rfl rfl rfl | dsimp only)
       clear_value y8)
    | (have k8 : s0.Quiet y8.1 := by (dsimp only [y8]; repeat' first | with_reducible assumption | with_reducible apply State.alarmTake_quiet | with_reducible apply State.setCoh_quiet | with_reducible apply State.streamTraces_quiet | with_reducible apply State.setStream_quiet | with_reducible apply State.settle_quiet | with_reducible apply State.Quiet.foldl | with_reducible apply State.Quiet.eachPort | with_reducible exact State.Quiet.refl _ | with_reducible intro _ _ | split | with_reducible refine State.Quiet.of_fst (by assumption) ?_ | fail_if_no_progress with_reducible refine State.Quiet.other ?_ rfl rfl rfl rfl rfl rfl rfl | dsimp only)
       clear_value y8)
    | clear_value y8
    | skip
  repeat' first | with_reducible assumption | with_reducible apply State.alarmTake_quiet | with_reducible apply State.setCoh_quiet | with_reducible apply State.streamTraces_quiet | with_reducible apply State.setStream_quiet | with_reducible apply State.settle_quiet | with_reducible apply State.Quiet.foldl | with_reducible apply State.Quiet.eachPort | with_reducible exact State.Quiet.refl _ | with_reducible intro _ _ | split | with_reducible refine State.Quiet.of_fst (by assumption) ?_ | fail_if_no_progress with_reducible refine State.Quiet.other ?_ rfl rfl rfl rfl rfl rfl rfl | dsimp only

theorem State.streamsRestart_quiet {s0 : State} {s : State} (hq : s0.Quiet s) :
    s0.Quiet (State.streamsRestart s) := by
  unfold State.streamsRestart
  try extract_lets y1 y2
  try
    have k1 : s0.Quiet y1 := by
      dsimp only [y1]
      repeat' first | with_reducible assumption | with_reducible apply State.setCoh_quiet | with_reducible apply State.setStream_quiet | with_reducible apply State.settle_quiet | with_reducible apply State.streamPublish_quiet | with_reducible apply State.Quiet.foldl | with_reducible apply State.Quiet.eachPort | with_reducible exact State.Quiet.refl _ | with_reducible intro _ _ | split | with_reducible refine State.Quiet.of_fst (by assumption) ?_ | fail_if_no_progress with_reducible refine State.Quiet.other ?_ rfl rfl rfl rfl rfl rfl rfl | dsimp only
    clear_value y1
  repeat' first | with_reducible assumption | with_reducible apply State.setCoh_quiet | with_reducible apply State.setStream_quiet | with_reducible apply State.settle_quiet | with_reducible apply State.streamPublish_quiet | with_reducible apply State.Quiet.foldl | with_reducible apply State.Quiet.eachPort | with_reducible exact State.Quiet.refl _ | with_reducible intro _ _ | split | with_reducible refine State.Quiet.of_fst (by assumption) ?_ | fail_if_no_progress with_reducible refine State.Quiet.other ?_ rfl rfl rfl rfl rfl rfl rfl | dsimp only

theorem State.streamsAtF_quiet {s0 : State} {s : State} {at_ : Option Port} {b : Bank} (hq : s0.Quiet s) :
    s0.Quiet (State.streamsAtF s at_ b) := by
  unfold State.streamsAtF
  repeat' first | with_reducible assumption | with_reducible apply State.setStream_quiet | with_reducible apply State.streamSwap_quiet | with_reducible apply State.Quiet.foldl | with_reducible apply State.Quiet.eachPort | with_reducible exact State.Quiet.refl _ | with_reducible intro _ _ | split | with_reducible refine State.Quiet.of_fst (by assumption) ?_ | fail_if_no_progress with_reducible refine State.Quiet.other ?_ rfl rfl rfl rfl rfl rfl rfl | dsimp only

theorem State.streamsApply_quiet {s0 : State} {s : State} {b : Bank} (hq : s0.Quiet s) :
    s0.Quiet (State.streamsApply s b) := by
  unfold State.streamsApply
  repeat' first | with_reducible assumption | with_reducible apply State.setStream_quiet | with_reducible apply State.streamSwap_quiet | with_reducible apply State.Quiet.foldl | with_reducible apply State.Quiet.eachPort | with_reducible exact State.Quiet.refl _ | with_reducible intro _ _ | split | with_reducible refine State.Quiet.of_fst (by assumption) ?_ | fail_if_no_progress with_reducible refine State.Quiet.other ?_ rfl rfl rfl rfl rfl rfl rfl | dsimp only

theorem State.sendTo_quiet {s0 : State} {s : State} {sid m : Nat} {links : List Port} {bytes : List Byte} (hq : s0.Quiet s) :
    s0.Quiet (State.sendTo s sid m links bytes) := by
  unfold State.sendTo
  try extract_lets y1 y2
  repeat' first | with_reducible assumption | with_reducible apply State.emit_quiet | with_reducible apply State.Quiet.foldl | with_reducible apply State.Quiet.eachPort | with_reducible exact State.Quiet.refl _ | with_reducible intro _ _ | split | with_reducible refine State.Quiet.of_fst (by assumption) ?_ | fail_if_no_progress with_reducible refine State.Quiet.other ?_ rfl rfl rfl rfl rfl rfl rfl | dsimp only

theorem State.touchSub_quiet {s0 : State} {s : State} {sid m : Nat} (hq : s0.Quiet s) :
    s0.Quiet (State.touchSub s sid m) := by
  unfold State.touchSub
  try extract_lets y1 y2
  repeat' first | with_reducible assumption | with_reducible apply State.setStream_quiet | split | with_reducible refine State.Quiet.of_fst (by assumption) ?_

theorem State.control_quiet {s0 : State} {s : State} {sid m subtype : Nat} {payload : List Byte} (hq : s0.Quiet s) :
    s0.Quiet (State.control s sid m subtype payload) := by
  unfold State.control
  repeat' first | with_reducible assumption | with_reducible apply State.sendTo_quiet | with_reducible apply State.touchSub_quiet | split | with_reducible refine State.Quiet.of_fst (by assumption) ?_

theorem State.sendDest_quiet {s0 : State} {s : State} {sid : Nat} {bytes : List Byte} {d : Dest} {links : List Port} (hq : s0.Quiet s) :
    s0.Quiet (State.sendDest s sid bytes d links) := by
  unfold State.sendDest
  try extract_lets y1 y2
  try
    have k1 : s0.Quiet y1 := by
      dsimp only [y1]
      repeat' first | with_reducible assumption | with_reducible apply State.emit_quiet | with_reducible apply State.touchSub_quiet | with_reducible apply State.Quiet.foldl | with_reducible apply State.Quiet.eachPort | with_reducible exact State.Quiet.refl _ | with_reducible intro _ _ | split | with_reducible refine State.Quiet.of_fst (by assumption) ?_ | fail_if_no_progress with_reducible refine State.Quiet.other ?_ rfl rfl rfl rfl rfl rfl rfl | dsimp only
    clear_value y1
  repeat' first | with_reducible assumption | with_reducible apply State.emit_quiet | with_reducible apply State.touchSub_quiet | with_reducible apply State.Quiet.foldl | with_reducible apply State.Quiet.eachPort | with_reducible exact State.Quiet.refl _ | with_reducible intro _ _ | split | with_reducible refine State.Quiet.of_fst (by assumption) ?_ | fail_if_no_progress with_reducible refine State.Quiet.other ?_ rfl rfl rfl rfl rfl rfl rfl | dsimp only

theorem State.sendTile_quiet {s0 : State} {s : State} {sid : Nat} (hq : s0.Quiet s) :
    s0.Quiet (State.sendTile s sid) := by
  unfold State.sendTile
  try extract_lets y1 y2
  repeat' first | with_reducible assumption | with_reducible apply State.setStream_quiet | with_reducible apply State.sendDest_quiet | with_reducible apply State.bump_quiet | with_reducible apply State.Quiet.foldl | with_reducible apply State.Quiet.eachPort | with_reducible exact State.Quiet.refl _ | with_reducible intro _ _ | split | with_reducible refine State.Quiet.of_fst (by assumption) ?_ | fail_if_no_progress with_reducible refine State.Quiet.other ?_ rfl rfl rfl rfl rfl rfl rfl | dsimp only

theorem State.gone_quiet {s0 : State} {s : State} {sid m : Nat} {seqs : List Nat} (hq : s0.Quiet s) :
    s0.Quiet (State.gone s sid m seqs) := by
  unfold State.gone
  repeat' first | with_reducible assumption | with_reducible apply State.control_quiet | with_reducible apply State.bump_quiet | with_reducible apply State.Quiet.foldl | with_reducible apply State.Quiet.eachPort | with_reducible exact State.Quiet.refl _ | with_reducible intro _ _ | split | with_reducible refine State.Quiet.of_fst (by assumption) ?_ | fail_if_no_progress with_reducible refine State.Quiet.other ?_ rfl rfl rfl rfl rfl rfl rfl | dsimp only

theorem execRetxTileRelease_quiet {s0 : State} {t : Tick} {stream : Nat} {s : State} (hq : s0.Quiet s) :
    s0.QuietOut (execRetxTileRelease t stream s) := by
  unfold execRetxTileRelease
  try extract_lets y1 y2 y3 y4 y5 y6 y7 y8
  try
    have k1 : s0.Quiet y1 := by
      dsimp only [y1]
      repeat' first | with_reducible assumption | with_reducible apply State.QuietOut.next | with_reducible exact State.QuietOut.fault | with_reducible apply State.at_quiet | with_reducible apply State.setStream_quiet | with_reducible apply State.gone_quiet | with_reducible apply State.confirmLeaving_quiet | with_reducible apply State.Quiet.foldl | with_reducible apply State.Quiet.eachPort | with_reducible exact State.Quiet.refl _ | with_reducible intro _ _ | split | with_reducible refine State.Quiet.of_fst (by assumption) ?_ | fail_if_no_progress with_reducible refine State.Quiet.other ?_ rfl rfl rfl rfl rfl rfl rfl | dsimp only
    clear_value y1
  try
    have k6 : s0.Quiet y6 := by
      dsimp only [y6]
      repeat' first | with_reducible assumption | with_reducible apply State.QuietOut.next | with_reducible exact State.QuietOut.fault | with_reducible apply State.at_quiet | with_reducible apply State.setStream_quiet | with_reducible apply State.gone_quiet | with_reducible apply State.confirmLeaving_quiet | with_reducible apply State.Quiet.foldl | with_reducible apply State.Quiet.eachPort | with_reducible exact State.Quiet.refl _ | with_reducible intro _ _ | split | with_reducible refine State.Quiet.of_fst (by assumption) ?_ | fail_if_no_progress with_reducible refine State.Quiet.other ?_ rfl rfl rfl rfl rfl rfl rfl | dsimp only
    clear_value y6
  try
    have k7 : s0.Quiet y7 := by
      dsimp only [y7]
      repeat' first | with_reducible assumption | with_reducible apply State.QuietOut.next | with_reducible exact State.QuietOut.fault | with_reducible apply State.at_quiet | with_reducible apply State.setStream_quiet | with_reducible apply State.gone_quiet | with_reducible apply State.confirmLeaving_quiet | with_reducible apply State.Quiet.foldl | with_reducible apply State.Quiet.eachPort | with_reducible exact State.Quiet.refl _ | with_reducible intro _ _ | split | with_reducible refine State.Quiet.of_fst (by assumption) ?_ | fail_if_no_progress with_reducible refine State.Quiet.other ?_ rfl rfl rfl rfl rfl rfl rfl | dsimp only
    clear_value y7
  repeat' first | with_reducible assumption | with_reducible apply State.QuietOut.next | with_reducible exact State.QuietOut.fault | with_reducible apply State.at_quiet | with_reducible apply State.setStream_quiet | with_reducible apply State.gone_quiet | with_reducible apply State.confirmLeaving_quiet | with_reducible apply State.Quiet.foldl | with_reducible apply State.Quiet.eachPort | with_reducible exact State.Quiet.refl _ | with_reducible intro _ _ | split | with_reducible refine State.Quiet.of_fst (by assumption) ?_ | fail_if_no_progress with_reducible refine State.Quiet.other ?_ rfl rfl rfl rfl rfl rfl rfl | dsimp only

theorem execNack_quiet {s0 : State} {t : Tick} {stream : Nat} {n : Nack} {s : State} (hq : s0.Quiet s) :
    s0.QuietOut (execNack t stream n s) := by
  unfold execNack
  try extract_lets y1 y2
  try
    have k1 : s0.Quiet y1 := by
      dsimp only [y1]
      repeat' first | with_reducible assumption | with_reducible apply State.QuietOut.next | with_reducible exact State.QuietOut.fault | with_reducible apply State.at_quiet | with_reducible apply State.bump_quiet | with_reducible apply State.setStream_quiet | with_reducible apply State.gone_quiet | with_reducible apply State.Quiet.foldl | with_reducible apply State.Quiet.eachPort | with_reducible exact State.Quiet.refl _ | with_reducible intro _ _ | split | with_reducible refine State.Quiet.of_fst (by assumption) ?_ | fail_if_no_progress with_reducible refine State.Quiet.other ?_ rfl rfl rfl rfl rfl rfl rfl | dsimp only
    clear_value y1
  repeat' first | with_reducible assumption | with_reducible apply State.QuietOut.next | with_reducible exact State.QuietOut.fault | with_reducible apply State.at_quiet | with_reducible apply State.bump_quiet | with_reducible apply State.setStream_quiet | with_reducible apply State.gone_quiet | with_reducible apply State.Quiet.foldl | with_reducible apply State.Quiet.eachPort | with_reducible exact State.Quiet.refl _ | with_reducible intro _ _ | split | with_reducible refine State.Quiet.of_fst (by assumption) ?_ | fail_if_no_progress with_reducible refine State.Quiet.other ?_ rfl rfl rfl rfl rfl rfl rfl | dsimp only

theorem execRetransmissionSend_quiet {s0 : State} {t : Tick} {link : Port} {s : State} (hq : s0.Quiet s) :
    s0.QuietOut (execRetransmissionSend t link s) := by
  unfold execRetransmissionSend
  try extract_lets y1 y2 y3
  try
    have k1 : s0.Quiet y1 := by
      dsimp only [y1]
      repeat' first | with_reducible assumption | with_reducible apply State.QuietOut.next | with_reducible exact State.QuietOut.fault | with_reducible apply State.at_quiet | with_reducible apply State.setStream_quiet | with_reducible apply State.gone_quiet | with_reducible apply State.setLink_quiet | with_reducible apply State.sendDest_quiet | with_reducible apply State.bump_quiet | with_reducible apply State.Quiet.foldl | with_reducible apply State.Quiet.eachPort | with_reducible exact State.Quiet.refl _ | with_reducible intro _ _ | split | with_reducible refine State.Quiet.of_fst (by assumption) ?_ | fail_if_no_progress with_reducible refine State.Quiet.other ?_ rfl rfl rfl rfl rfl rfl rfl | dsimp only
    clear_value y1
  repeat' first | with_reducible assumption | with_reducible apply State.QuietOut.next | with_reducible exact State.QuietOut.fault | with_reducible apply State.at_quiet | with_reducible apply State.setStream_quiet | with_reducible apply State.gone_quiet | with_reducible apply State.setLink_quiet | with_reducible apply State.sendDest_quiet | with_reducible apply State.bump_quiet | with_reducible apply State.Quiet.foldl | with_reducible apply State.Quiet.eachPort | with_reducible exact State.Quiet.refl _ | with_reducible intro _ _ | split | with_reducible refine State.Quiet.of_fst (by assumption) ?_ | fail_if_no_progress with_reducible refine State.Quiet.other ?_ rfl rfl rfl rfl rfl rfl rfl | dsimp only

theorem execIdle_quiet {s0 : State} {t : Tick} {stream : Nat} {sub : Nat} {s : State} (hq : s0.Quiet s) :
    s0.QuietOut (execIdle t stream sub s) := by
  unfold execIdle
  try extract_lets y1 y2 y3
  try
    have k1 : s0.Quiet y1 := by
      dsimp only [y1]
      repeat' first | with_reducible assumption | with_reducible apply State.QuietOut.next | with_reducible exact State.QuietOut.fault | with_reducible apply State.at_quiet | with_reducible apply State.control_quiet | with_reducible apply State.Quiet.foldl | with_reducible apply State.Quiet.eachPort | with_reducible exact State.Quiet.refl _ | with_reducible intro _ _ | split | with_reducible refine State.Quiet.of_fst (by assumption) ?_ | fail_if_no_progress with_reducible refine State.Quiet.other ?_ rfl rfl rfl rfl rfl rfl rfl | dsimp only
    clear_value y1
  repeat' first | with_reducible assumption | with_reducible apply State.QuietOut.next | with_reducible exact State.QuietOut.fault | with_reducible apply State.at_quiet | with_reducible apply State.control_quiet | with_reducible apply State.Quiet.foldl | with_reducible apply State.Quiet.eachPort | with_reducible exact State.Quiet.refl _ | with_reducible intro _ _ | split | with_reducible refine State.Quiet.of_fst (by assumption) ?_ | fail_if_no_progress with_reducible refine State.Quiet.other ?_ rfl rfl rfl rfl rfl rfl rfl | dsimp only

theorem execSuspended_quiet {s0 : State} {t : Tick} {stream : Nat} {s : State} (hq : s0.Quiet s) :
    s0.QuietOut (execSuspended t stream s) := by
  unfold execSuspended
  try extract_lets y1 y2 y3
  try
    have k1 : s0.Quiet y1 := by
      dsimp only [y1]
      repeat' first | with_reducible assumption | with_reducible apply State.QuietOut.next | with_reducible exact State.QuietOut.fault | with_reducible apply State.at_quiet | with_reducible apply State.setStream_quiet | with_reducible apply State.control_quiet | with_reducible apply State.Quiet.foldl | with_reducible apply State.Quiet.eachPort | with_reducible exact State.Quiet.refl _ | with_reducible intro _ _ | split | with_reducible refine State.Quiet.of_fst (by assumption) ?_ | fail_if_no_progress with_reducible refine State.Quiet.other ?_ rfl rfl rfl rfl rfl rfl rfl | dsimp only
    clear_value y1
  repeat' first | with_reducible assumption | with_reducible apply State.QuietOut.next | with_reducible exact State.QuietOut.fault | with_reducible apply State.at_quiet | with_reducible apply State.setStream_quiet | with_reducible apply State.control_quiet | with_reducible apply State.Quiet.foldl | with_reducible apply State.Quiet.eachPort | with_reducible exact State.Quiet.refl _ | with_reducible intro _ _ | split | with_reducible refine State.Quiet.of_fst (by assumption) ?_ | fail_if_no_progress with_reducible refine State.Quiet.other ?_ rfl rfl rfl rfl rfl rfl rfl | dsimp only

theorem State.moveFrom_quiet {s0 : State} {s : State} {l : Port} (hq : s0.Quiet s) :
    s0.Quiet (State.moveFrom s l) := by
  unfold State.moveFrom
  repeat' first | with_reducible assumption | with_reducible apply State.setStream_quiet | with_reducible apply State.sendDest_quiet | with_reducible apply State.Quiet.foldl | with_reducible apply State.Quiet.eachPort | with_reducible exact State.Quiet.refl _ | with_reducible intro _ _ | split | with_reducible refine State.Quiet.of_fst (by assumption) ?_ | fail_if_no_progress with_reducible refine State.Quiet.other ?_ rfl rfl rfl rfl rfl rfl rfl | dsimp only

theorem State.moveTo_quiet {s0 : State} {s : State} {l : Port} (hq : s0.Quiet s) :
    s0.Quiet (State.moveTo s l) := by
  unfold State.moveTo
  repeat' first | with_reducible assumption | with_reducible apply State.setStream_quiet | with_reducible apply State.Quiet.foldl | with_reducible exact State.Quiet.refl _ | with_reducible intro _ _ | split | with_reducible refine State.Quiet.of_fst (by assumption) ?_ | dsimp only

theorem State.autoReturn_quiet {s0 : State} {s : State} {sid : Nat} (hq : s0.Quiet s) :
    s0.Quiet (State.autoReturn s sid) := by
  unfold State.autoReturn
  try extract_lets y1
  repeat' first | with_reducible assumption | with_reducible apply State.setStream_quiet | split | with_reducible refine State.Quiet.of_fst (by assumption) ?_ | dsimp only

theorem State.enqueue_quiet {s0 : State} {s : State} {sid kind : Nat} {tiles : List Tile} (hq : s0.Quiet s) :
    s0.Quiet (State.enqueue s sid kind tiles) := by
  unfold State.enqueue
  try extract_lets y1 y2
  repeat' first | with_reducible assumption | with_reducible apply State.setStream_quiet | with_reducible apply State.Quiet.foldl | with_reducible apply State.Quiet.eachPort | with_reducible exact State.Quiet.refl _ | with_reducible intro _ _ | split | with_reducible refine State.Quiet.of_fst (by assumption) ?_ | fail_if_no_progress with_reducible refine State.Quiet.other ?_ rfl rfl rfl rfl rfl rfl rfl | dsimp only

end Sys2Proof.Machine
end

