-- ==== Sys2Proof/Laws/KeepsBasaltCore.lean ====
section
/-! SUPPORT. What the operations of Machine/BasaltCore.lean keep. -/

set_option linter.unusedTactic false
set_option linter.unreachableTactic false
set_option linter.unusedVariables false

namespace Sys2Proof.Machine

theorem State.setCore_quiet {s0 : State} {s : State} {c : Nat} {x : BCore} (hq : s0.Quiet s) :
    s0.Quiet (State.setCore s c x) := by
  unfold State.setCore
  try extract_lets y1
  repeat' first | with_reducible assumption | split | with_reducible refine State.Quiet.of_fst (by assumption) ?_ | fail_if_no_progress with_reducible refine State.Quiet.other ?_ rfl rfl rfl rfl rfl rfl rfl

theorem State.setInst_quiet {s0 : State} {s : State} {i : Nat} {x : BInst} (hq : s0.Quiet s) :
    s0.Quiet (State.setInst s i x) := by
  unfold State.setInst
  try extract_lets y1
  repeat' first | with_reducible assumption | split | with_reducible refine State.Quiet.of_fst (by assumption) ?_ | fail_if_no_progress with_reducible refine State.Quiet.other ?_ rfl rfl rfl rfl rfl rfl rfl

theorem State.setSlot_quiet {s0 : State} {s : State} {k : Nat} {x : BSlot} (hq : s0.Quiet s) :
    s0.Quiet (State.setSlot s k x) := by
  unfold State.setSlot
  try extract_lets y1
  repeat' first | with_reducible assumption | split | with_reducible refine State.Quiet.of_fst (by assumption) ?_ | fail_if_no_progress with_reducible refine State.Quiet.other ?_ rfl rfl rfl rfl rfl rfl rfl

theorem State.withCore_quiet {s0 : State} {s : State} {c : Nat} {r : BCore × Nat} (hq : s0.Quiet s) :
    s0.Quiet (State.withCore s c r) := by
  unfold State.withCore
  repeat' first | with_reducible assumption | with_reducible apply State.setCore_quiet | split | with_reducible refine State.Quiet.of_fst (by assumption) ?_ | fail_if_no_progress with_reducible refine State.Quiet.other ?_ rfl rfl rfl rfl rfl rfl rfl

theorem State.publishInst_quiet {s0 : State} {s : State} {i : Nat} (hq : s0.Quiet s) :
    s0.Quiet (State.publishInst s i) := by
  unfold State.publishInst
  repeat' first | with_reducible assumption | with_reducible apply State.roSet_quiet | split | with_reducible refine State.Quiet.of_fst (by assumption) ?_

theorem State.instFault_quiet {s0 : State} {s : State} {i : Nat} (hq : s0.Quiet s) :
    s0.Quiet (State.instFault s i) := by
  unfold State.instFault
  try extract_lets y1 y2 y3 y4
  try
    have k3 : s0.Quiet y3 := by
      dsimp only [y3]
      repeat' first | with_reducible assumption | with_reducible apply State.setInst_quiet | with_reducible apply State.bump_quiet | split | with_reducible refine State.Quiet.of_fst (by assumption) ?_
    clear_value y3
  repeat' first | with_reducible assumption | with_reducible apply State.setInst_quiet | with_reducible apply State.publishInst_quiet | with_reducible apply State.raise_quiet | split | with_reducible refine State.Quiet.of_fst (by assumption) ?_

theorem State.coreGap_quiet {s0 : State} {s : State} {i logical : Nat} (hq : s0.Quiet s) :
    s0.Quiet (State.coreGap s i logical) := by
  unfold State.coreGap
  try extract_lets y1 y2
  repeat' first | with_reducible assumption | with_reducible apply State.setInst_quiet | with_reducible apply State.Quiet.foldl | with_reducible apply State.Quiet.eachPort | with_reducible exact State.Quiet.refl _ | with_reducible intro _ _ | split | with_reducible refine State.Quiet.of_fst (by assumption) ?_ | fail_if_no_progress with_reducible refine State.Quiet.other ?_ rfl rfl rfl rfl rfl rfl rfl | dsimp only

theorem State.coreStop_quiet {s0 : State} {s : State} {c cause : Nat} (hq : s0.Quiet s) :
    s0.Quiet (State.coreStop s c cause) := by
  unfold State.coreStop
  extract_lets y1 y2 y3 y4 y5 y6 y7 y8 y9 y10 y11
  try clear_value y1
  try clear_value y2
  first
    | (have k3 : s0.Quiet y3 := by (dsimp only [y3]; repeat' first | with_reducible assumption | with_reducible apply State.setCore_quiet | with_reducible apply State.roSet_quiet | with_reducible apply State.coreGap_quiet | with_reducible apply State.raise_quiet | with_reducible apply State.Quiet.foldl | with_reducible apply State.Quiet.eachPort | with_reducible exact State.Quiet.refl _ | with_reducible intro _ _ | split | with_reducible refine State.Quiet.of_fst (by assumption) ?_ | fail_if_no_progress with_reducible refine State.Quiet.other ?_ rfl rfl rfl rfl rfl rfl rfl | dsimp only)
       clear_value y3)
    | clear_value y3
    | skip
  first
    | (have k4 : s0.Quiet y4 := by (dsimp only [y4]; repeat' first | with_reducible assumption | with_reducible apply State.setCore_quiet | with_reducible apply State.roSet_quiet | with_reducible apply State.coreGap_quiet | with_reducible apply State.raise_quiet | with_reducible apply State.Quiet.foldl | with_reducible apply State.Quiet.eachPort | with_reducible exact State.Quiet.refl _ | with_reducible intro _ _ | split | with_reducible refine State.Quiet.of_fst (by assumption) ?_ | fail_if_no_progress with_reducible refine State.Quiet.other ?_ rfl rfl rfl rfl rfl rfl rfl | dsimp only)
       clear_value y4)
    | clear_value y4
    | skip
  first
    | (have k5 : s0.Quiet y5 := by (dsimp only [y5]; repeat' first | with_reducible assumption | with_reducible apply State.setCore_quiet | with_reducible apply State.roSet_quiet | with_reducible apply State.coreGap_quiet | with_reducible apply State.raise_quiet | with_reducible apply State.Quiet.foldl | with_reducible apply State.Quiet.eachPort | with_reducible exact State.Quiet.refl _ | with_reducible intro _ _ | split | with_reducible refine State.Quiet.of_fst (by assumption) ?_ | fail_if_no_progress with_reducible refine State.Quiet.other ?_ rfl rfl rfl rfl rfl rfl rfl | dsimp only)
       clear_value y5)
    | clear_value y5
    | skip
  first
    | (have k6 : s0.Quiet y6 := by (dsimp only [y6]; repeat' first | with_reducible assumption | with_reducible apply State.setCore_quiet | with_reducible apply State.roSet_quiet | with_reducible apply State.coreGap_quiet | with_reducible apply State.raise_quiet | with_reducible apply State.Quiet.foldl | with_reducible apply State.Quiet.eachPort | with_reducible exact State.Quiet.refl _ | with_reducible intro _ _ | split | with_reducible refine State.Quiet.of_fst (by assumption) ?_ | fail_if_no_progress with_reducible refine State.Quiet.other ?_ rfl rfl rfl rfl rfl rfl rfl | dsimp only)
       clear_value y6)
    | clear_value y6
    | skip
  first
    | (have k7 : s0.Quiet y7 := by (dsimp only [y7]; repeat' first | with_reducible assumption | with_reducible apply State.setCore_quiet | with_reducible apply State.roSet_quiet | with_reducible apply State.coreGap_quiet | with_reducible apply State.raise_quiet | with_reducible apply State.Quiet.foldl | with_reducible apply State.Quiet.eachPort | with_reducible exact State.Quiet.refl _ | with_reducible intro _ _ | split | with_reducible refine State.Quiet.of_fst (by assumption) ?_ | fail_if_no_progress with_reducible refine State.Quiet.other ?_ rfl rfl rfl rfl rfl rfl rfl | dsimp only)
       clear_value y7)
    | clear_value y7
    | skip
  first
    | (have k8 : s0.Quiet y8 := by (dsimp only [y8]; repeat' first | with_reducible assumption | with_reducible apply State.setCore_quiet | with_reducible apply State.roSet_quiet | with_reducible apply State.coreGap_quiet | with_reducible apply State.raise_quiet | with_reducible apply State.Quiet.foldl | with_reducible apply State.Quiet.eachPort | with_reducible exact State.Quiet.refl _ | with_reducible intro _ _ | split | with_reducible refine State.Quiet.of_fst (by assumption) ?_ | fail_if_no_progress with_reducible refine State.Quiet.other ?_ rfl rfl rfl rfl rfl rfl rfl | dsimp only)
       clear_value y8)
    | clear_value y8
    | skip
  repeat' first | with_reducible assumption | with_reducible apply State.setCore_quiet | with_reducible apply State.roSet_quiet | with_reducible apply State.coreGap_quiet | with_reducible apply State.raise_quiet | with_reducible apply State.Quiet.foldl | with_reducible apply State.Quiet.eachPort | with_reducible exact State.Quiet.refl _ | with_reducible intro _ _ | split | with_reducible refine State.Quiet.of_fst (by assumption) ?_ | fail_if_no_progress with_reducible refine State.Quiet.other ?_ rfl rfl rfl rfl rfl rfl rfl | dsimp only

theorem State.coreFault_quiet {s0 : State} {s : State} {c cause : Nat} (hq : s0.Quiet s) :
    s0.Quiet (State.coreFault s c cause) := by
  unfold State.coreFault
  repeat' first | with_reducible assumption | with_reducible apply State.coreStop_quiet | with_reducible apply State.instFault_quiet | split | with_reducible refine State.Quiet.of_fst (by assumption) ?_

theorem State.closeTile_quiet {s0 : State} {s : State} {i : Nat} (hq : s0.Quiet s) :
    s0.Quiet (State.closeTile s i) := by
  unfold State.closeTile
  try extract_lets y1 y2
  repeat' first | with_reducible assumption | with_reducible apply State.loadDue_quiet | with_reducible apply State.enqueue_quiet | with_reducible apply State.setInst_quiet | with_reducible apply State.settle_quiet | with_reducible apply State.Quiet.foldl | with_reducible apply State.Quiet.eachPort | with_reducible exact State.Quiet.refl _ | with_reducible intro _ _ | split | with_reducible refine State.Quiet.of_fst (by assumption) ?_ | fail_if_no_progress with_reducible refine State.Quiet.other ?_ rfl rfl rfl rfl rfl rfl rfl | dsimp only

theorem State.publishCore_quiet {s0 : State} {s : State} {c : Nat} (hq : s0.Quiet s) :
    s0.Quiet (State.publishCore s c) := by
  unfold State.publishCore
  try extract_lets y1
  repeat' first | with_reducible assumption | with_reducible apply State.roSet_quiet | split | with_reducible refine State.Quiet.of_fst (by assumption) ?_

theorem State.freeCore_quiet {s0 : State} {s : State} {c : Nat} (hq : s0.Quiet s) :
    s0.Quiet (State.freeCore s c) := by
  unfold State.freeCore
  try extract_lets y1
  repeat' first | with_reducible assumption | with_reducible apply State.setCore_quiet | with_reducible apply State.publishCore_quiet | split | with_reducible refine State.Quiet.of_fst (by assumption) ?_ | fail_if_no_progress with_reducible refine State.Quiet.other ?_ rfl rfl rfl rfl rfl rfl rfl

theorem State.instOff_quiet {s0 : State} {s : State} {i : Nat} (hq : s0.Quiet s) :
    s0.Quiet (State.instOff s i) := by
  unfold State.instOff
  try extract_lets y1 y2
  try
    have k1 : s0.Quiet y1 := by
      dsimp only [y1]
      repeat' first | with_reducible assumption | with_reducible apply State.freeCore_quiet | with_reducible apply State.Quiet.foldl | with_reducible exact State.Quiet.refl _ | with_reducible intro _ _ | split | with_reducible refine State.Quiet.of_fst (by assumption) ?_
    clear_value y1
  repeat' first | with_reducible assumption | with_reducible apply State.setInst_quiet | with_reducible apply State.publishInst_quiet | split | with_reducible refine State.Quiet.of_fst (by assumption) ?_

theorem State.publishSlot_quiet {s0 : State} {s : State} {k : Nat} (hq : s0.Quiet s) :
    s0.Quiet (State.publishSlot s k) := by
  unfold State.publishSlot
  repeat' first | with_reducible assumption | with_reducible apply State.roSet_quiet | split | with_reducible refine State.Quiet.of_fst (by assumption) ?_

theorem State.basaltSettle_quiet {s0 : State} {s : State} (hq : s0.Quiet s) :
    s0.Quiet (State.basaltSettle s) := by
  unfold State.basaltSettle
  try extract_lets y1
  try
    have k1 : s0.Quiet y1 := by
      dsimp only [y1]
      repeat' first | with_reducible assumption | with_reducible apply State.instOff_quiet | with_reducible apply State.Quiet.foldl | with_reducible exact State.Quiet.refl _ | with_reducible intro _ _ | split | with_reducible refine State.Quiet.of_fst (by assumption) ?_ | fail_if_no_progress with_reducible refine State.Quiet.other ?_ rfl rfl rfl rfl rfl rfl rfl
    clear_value y1
  repeat' first | with_reducible assumption | with_reducible apply State.setSlot_quiet | with_reducible apply State.raise_quiet | with_reducible apply State.publishSlot_quiet | with_reducible apply State.Quiet.foldl | with_reducible exact State.Quiet.refl _ | with_reducible intro _ _ | split | with_reducible refine State.Quiet.of_fst (by assumption) ?_ | dsimp only

theorem State.enterCore_quiet {s0 : State} {s : State} {c i : Nat} {t : BTile} {init : Bool} (hq : s0.Quiet s) :
    s0.Quiet (State.enterCore s c i t init) := by
  unfold State.enterCore
  extract_lets y1 y2 y3 y4 y5 y6 y7 y8 y9 y10 y11 y12 y13 y14
  try clear_value y1
  try clear_value y2
  try clear_value y3
  try clear_value y4
  try clear_value y5
  try clear_value y6
  try clear_value y7
  first
    | (have k8 : s0.Quiet y8 := by (dsimp only [y8]; repeat' first | with_reducible assumption | with_reducible apply State.setInst_quiet | with_reducible apply State.setCore_quiet | with_reducible apply State.Quiet.foldl | with_reducible apply State.Quiet.eachPort | with_reducible exact State.Quiet.refl _ | with_reducible intro _ _ | split | with_reducible refine State.Quiet.of_fst (by assumption) ?_ | fail_if_no_progress with_reducible refine State.Quiet.other ?_ rfl rfl rfl rfl rfl rfl rfl | dsimp only)
       clear_value y8)
    | (have k8 : s0.Quiet y8.1 := by (dsimp only [y8]; repeat' first | with_reducible assumption | with_reducible apply State.setInst_quiet | with_reducible apply State.setCore_quiet | with_reducible apply State.Quiet.foldl | with_reducible apply State.Quiet.eachPort | with_reducible exact State.Quiet.refl _ | with_reducible intro _ _ | split | with_reducible refine State.Quiet.of_fst (by assumption) ?_ | fail_if_no_progress with_reducible refine State.Quiet.other ?_ rfl rfl rfl rfl rfl rfl rfl | dsimp only)
       clear_value y8)
    | clear_value y8
    | skip
  first
    | (have k9 : s0.Quiet y9 := by (dsimp only [y9]; repeat' first | with_reducible assumption | with_reducible apply State.setInst_quiet | with_reducible apply State.setCore_quiet | with_reducible apply State.Quiet.foldl | with_reducible apply State.Quiet.eachPort | with_reducible exact State.Quiet.refl _ | with_reducible intro _ _ | split | with_reducible refine State.Quiet.of_fst (by assumption) ?_ | fail_if_no_progress with_reducible refine State.Quiet.other ?_ rfl rfl rfl rfl rfl rfl rfl | dsimp only)
       clear_value y9)
    | (have k9 : s0.Quiet y9.1 := by (dsimp only [y9]; repeat' first | with_reducible assumption | with_reducible apply State.setInst_quiet | with_reducible apply State.setCore_quiet | with_reducible apply State.Quiet.foldl | with_reducible apply State.Quiet.eachPort | with_reducible exact State.Quiet.refl _ | with_reducible intro _ _ | split | with_reducible refine State.Quiet.of_fst (by assumption) ?_ | fail_if_no_progress with_reducible refine State.Quiet.other ?_ rfl rfl rfl rfl rfl rfl rfl | dsimp only)
       clear_value y9)
    | clear_value y9
    | skip
  first
    | (have k10 : s0.Quiet y10 := by (dsimp only [y10]; repeat' first | with_reducible assumption | with_reducible apply State.setInst_quiet | with_reducible apply State.setCore_quiet | with_reducible apply State.Quiet.foldl | with_reducible apply State.Quiet.eachPort | with_reducible exact State.Quiet.refl _ | with_reducible intro _ _ | split | with_reducible refine State.Quiet.of_fst (by assumption) ?_ | fail_if_no_progress with_reducible refine State.Quiet.other ?_ rfl rfl rfl rfl rfl rfl rfl | dsimp only)
       clear_value y10)
    | (have k10 : s0.Quiet y10.1 := by (dsimp only [y10]; repeat' first | with_reducible assumption | with_reducible apply State.setInst_quiet | with_reducible apply State.setCore_quiet | with_reducible apply State.Quiet.foldl | with_reducible apply State.Quiet.eachPort | with_reducible exact State.Quiet.refl _ | with_reducible intro _ _ | split | with_reducible refine State.Quiet.of_fst (by assumption) ?_ | fail_if_no_progress with_reducible refine State.Quiet.other ?_ rfl rfl rfl rfl rfl rfl rfl | dsimp only)
       clear_value y10)
    | clear_value y10
    | skip
  first
    | (have k11 : s0.Quiet y11 := by (dsimp only [y11]; repeat' first | with_reducible assumption | with_reducible apply State.setInst_quiet | with_reducible apply State.setCore_quiet | with_reducible apply State.Quiet.foldl | with_reducible apply State.Quiet.eachPort | with_reducible exact State.Quiet.refl _ | with_reducible intro _ _ | split | with_reducible refine State.Quiet.of_fst (by assumption) ?_ | fail_if_no_progress with_reducible refine State.Quiet.other ?_ rfl rfl rfl rfl rfl rfl rfl | dsimp only)
       clear_value y11)
    | (have k11 : s0.Quiet y11.1 := by (dsimp only [y11]; repeat' first | with_reducible assumption | with_reducible apply State.setInst_quiet | with_reducible apply State.setCore_quiet | with_reducible apply State.Quiet.foldl | with_reducible apply State.Quiet.eachPort | with_reducible exact State.Quiet.refl _ | with_reducible intro _ _ | split | with_reducible refine State.Quiet.of_fst (by assumption) ?_ | fail_if_no_progress with_reducible refine State.Quiet.other ?_ rfl rfl rfl rfl rfl rfl rfl | dsimp only)
       clear_value y11)
    | clear_value y11
    | skip
  repeat' first | with_reducible assumption | with_reducible apply State.setInst_quiet | with_reducible apply State.setCore_quiet | with_reducible apply State.Quiet.foldl | with_reducible apply State.Quiet.eachPort | with_reducible exact State.Quiet.refl _ | with_reducible intro _ _ | split | with_reducible refine State.Quiet.of_fst (by assumption) ?_ | fail_if_no_progress with_reducible refine State.Quiet.other ?_ rfl rfl rfl rfl rfl rfl rfl | dsimp only

theorem State.finishTend_quiet {s0 : State} {s : State} {c : Nat} (hq : s0.Quiet s) :
    s0.Quiet (State.finishTend s c) := by
  unfold State.finishTend
  try extract_lets y1 y2 y3 y4 y5 y6 y7 y8 y9
  repeat' first | with_reducible assumption | with_reducible apply State.setCore_quiet | with_reducible apply State.enterCore_quiet | with_reducible apply State.setInst_quiet | with_reducible apply State.roMax_quiet | with_reducible apply State.roSet_quiet | with_reducible apply State.closeTile_quiet | with_reducible apply State.basaltSettle_quiet | split | with_reducible refine State.Quiet.of_fst (by assumption) ?_ | fail_if_no_progress with_reducible refine State.Quiet.other ?_ rfl rfl rfl rfl rfl rfl rfl | dsimp only

theorem State.contend_quiet {s0 : State} {s : State} {c : Nat} (hq : s0.Quiet s) :
    s0.Quiet (State.contend s c) := by
  unfold State.contend
  try extract_lets y1 y2
  repeat' first | with_reducible assumption | with_reducible apply State.drawn_quiet | with_reducible apply State.setCore_quiet | with_reducible apply State.Quiet.foldl | with_reducible apply State.Quiet.eachPort | with_reducible exact State.Quiet.refl _ | with_reducible intro _ _ | split | with_reducible refine State.Quiet.of_fst (by assumption) ?_ | fail_if_no_progress with_reducible refine State.Quiet.other ?_ rfl rfl rfl rfl rfl rfl rfl | dsimp only

theorem State.closeBundle_quiet {s0 : State} {s : State} {c : Nat} (hq : s0.Quiet s) :
    s0.Quiet (State.closeBundle s c) := by
  unfold State.closeBundle
  try extract_lets y1 y2
  repeat' first | with_reducible assumption | with_reducible apply State.setCore_quiet | with_reducible apply State.withCore_quiet | with_reducible apply State.contend_quiet | with_reducible apply State.finishTend_quiet | with_reducible apply State.Quiet.foldl | with_reducible apply State.Quiet.eachPort | with_reducible exact State.Quiet.refl _ | with_reducible intro _ _ | split | with_reducible refine State.Quiet.of_fst (by assumption) ?_ | fail_if_no_progress with_reducible refine State.Quiet.other ?_ rfl rfl rfl rfl rfl rfl rfl | dsimp only

theorem State.issue_quiet {s0 s : State} {c : Nat} {close : Bool} {body : State → State} (hb : ∀ y : State, y.Quiet (body y)) (h : s0.Quiet s) :
    s0.Quiet (s.issue c close body) := by
  unfold State.issue
  extract_lets x s1
  have k1 : s0.Quiet s1 := by
    refine State.Quiet.trans ?_ (hb _)
    split
    · exact h
    · exact State.setCore_quiet h
  clear_value s1
  repeat' first | with_reducible assumption | with_reducible apply State.coreFault_quiet | with_reducible apply State.closeBundle_quiet | split

theorem State.issueCore_quiet {s0 s : State} {c : Nat} {close : Bool} {f : BCore → BCore} (h : s0.Quiet s) : s0.Quiet (s.issueCore c close f) :=
  State.issue_quiet (fun y => State.setCore_quiet (State.Quiet.refl y)) h

theorem State.issueFree_quiet {s0 s : State} {c : Nat} {close : Bool} {f : Nat → BCore → BCore} (h : s0.Quiet s) : s0.Quiet (s.issueFree c close f) :=
  State.issue_quiet (fun y => State.drawn_quiet (State.setCore_quiet (State.Quiet.refl y))) h

end Sys2Proof.Machine
end

