-- ==== Sys2Proof/Laws/KeepsEmitter.lean ====
section
/-! SUPPORT. What the operations of Machine/Emitter.lean keep. -/

set_option linter.unusedTactic false
set_option linter.unreachableTactic false
set_option linter.unusedVariables false

namespace Sys2Proof.Machine

theorem State.setChan_quiet {s0 : State} {s : State} {c : Nat} {x : Channel} (hq : s0.Quiet s) :
    s0.Quiet (State.setChan s c x) := by
  unfold State.setChan
  try extract_lets y1
  repeat' first | with_reducible assumption | split | with_reducible refine State.Quiet.of_fst (by assumption) ?_ | fail_if_no_progress with_reducible refine State.Quiet.other ?_ rfl rfl rfl rfl rfl rfl rfl

theorem State.setChStatus_quiet {s0 : State} {s : State} {c v : Nat} (hq : s0.Quiet s) :
    s0.Quiet (State.setChStatus s c v) := by
  unfold State.setChStatus
  repeat' first | with_reducible assumption | with_reducible apply State.roSet_quiet | split | with_reducible refine State.Quiet.of_fst (by assumption) ?_

theorem State.latchAll_quiet {s0 : State} {s : State} {cs : List Nat} {own : List Nat} {enterApr leaveApr : Bool} (hq : s0.Quiet s) :
    s0.Quiet (State.latchAll s cs own enterApr leaveApr) := by
  unfold State.latchAll
  repeat' first | with_reducible assumption | with_reducible apply State.setChan_quiet | with_reducible apply State.Quiet.foldl | with_reducible exact State.Quiet.refl _ | with_reducible intro _ _ | split | with_reducible refine State.Quiet.of_fst (by assumption) ?_ | dsimp only

theorem State.setClamp_quiet {s0 : State} {s : State} {p : Port} {v : Bool} (hq : s0.Quiet s) :
    s0.Quiet (State.setClamp s p v) := by
  unfold State.setClamp
  try extract_lets y1
  repeat' first | with_reducible assumption | split | with_reducible refine State.Quiet.of_fst (by assumption) ?_ | fail_if_no_progress with_reducible refine State.Quiet.other ?_ rfl rfl rfl rfl rfl rfl rfl | dsimp only

theorem State.setEmvTarget_quiet {s0 : State} {s : State} {target : Nat} (hq : s0.Quiet s) :
    s0.Quiet (State.setEmvTarget s target) := by
  unfold State.setEmvTarget
  try extract_lets y1 y2
  try
    have k1 : s0.Quiet y1 := by
      dsimp only [y1]
      repeat' first | with_reducible assumption | with_reducible apply State.roSet_quiet | split | with_reducible refine State.Quiet.of_fst (by assumption) ?_
    clear_value y1
  repeat' first | with_reducible assumption | with_reducible apply State.roSet_quiet | split | with_reducible refine State.Quiet.of_fst (by assumption) ?_ | fail_if_no_progress with_reducible refine State.Quiet.other ?_ rfl rfl rfl rfl rfl rfl rfl

theorem State.retarget_quiet {s0 : State} {s : State} (hq : s0.Quiet s) :
    s0.Quiet (State.retarget s) := by
  unfold State.retarget
  repeat' first | with_reducible assumption | with_reducible apply State.setEmvTarget_quiet | split | with_reducible refine State.Quiet.of_fst (by assumption) ?_

theorem State.emitterFault_quiet {s0 : State} {s : State} {c verdict : Nat} (hq : s0.Quiet s) :
    s0.Quiet (State.emitterFault s c verdict) := by
  unfold State.emitterFault
  repeat' first | with_reducible assumption | with_reducible apply State.setChStatus_quiet | with_reducible apply State.raise_quiet | split | with_reducible refine State.Quiet.of_fst (by assumption) ?_

theorem State.failover_quiet {s0 : State} {s : State} {c : Nat} (hq : s0.Quiet s) :
    s0.Quiet (State.failover s c) := by
  unfold State.failover
  try extract_lets y1 y2 y3 y4 y5 y6 y7 y8
  try
    have k4 : s0.Quiet y4 := by
      dsimp only [y4]
      repeat' first | with_reducible assumption | with_reducible apply State.setChan_quiet | with_reducible apply State.raise_quiet | with_reducible apply State.retarget_quiet | with_reducible apply State.Quiet.foldl | with_reducible apply State.Quiet.eachPort | with_reducible exact State.Quiet.refl _ | with_reducible intro _ _ | split | with_reducible refine State.Quiet.of_fst (by assumption) ?_ | fail_if_no_progress with_reducible refine State.Quiet.other ?_ rfl rfl rfl rfl rfl rfl rfl
    clear_value y4
  try
    have k6 : s0.Quiet y6 := by
      dsimp only [y6]
      repeat' first | with_reducible assumption | with_reducible apply State.setChan_quiet | with_reducible apply State.raise_quiet | with_reducible apply State.retarget_quiet | with_reducible apply State.Quiet.foldl | with_reducible apply State.Quiet.eachPort | with_reducible exact State.Quiet.refl _ | with_reducible intro _ _ | split | with_reducible refine State.Quiet.of_fst (by assumption) ?_ | fail_if_no_progress with_reducible refine State.Quiet.other ?_ rfl rfl rfl rfl rfl rfl rfl
    clear_value y6
  try
    have k7 : s0.Quiet y7 := by
      dsimp only [y7]
      repeat' first | with_reducible assumption | with_reducible apply State.setChan_quiet | with_reducible apply State.raise_quiet | with_reducible apply State.retarget_quiet | with_reducible apply State.Quiet.foldl | with_reducible apply State.Quiet.eachPort | with_reducible exact State.Quiet.refl _ | with_reducible intro _ _ | split | with_reducible refine State.Quiet.of_fst (by assumption) ?_ | fail_if_no_progress with_reducible refine State.Quiet.other ?_ rfl rfl rfl rfl rfl rfl rfl
    clear_value y7
  try
    have k8 : s0.Quiet y8 := by
      dsimp only [y8]
      repeat' first | with_reducible assumption | with_reducible apply State.setChan_quiet | with_reducible apply State.raise_quiet | with_reducible apply State.retarget_quiet | with_reducible apply State.Quiet.foldl | with_reducible apply State.Quiet.eachPort | with_reducible exact State.Quiet.refl _ | with_reducible intro _ _ | split | with_reducible refine State.Quiet.of_fst (by assumption) ?_ | fail_if_no_progress with_reducible refine State.Quiet.other ?_ rfl rfl rfl rfl rfl rfl rfl
    clear_value y8
  repeat' first | with_reducible assumption | with_reducible apply State.setChan_quiet | with_reducible apply State.raise_quiet | with_reducible apply State.retarget_quiet | with_reducible apply State.Quiet.foldl | with_reducible apply State.Quiet.eachPort | with_reducible exact State.Quiet.refl _ | with_reducible intro _ _ | split | with_reducible refine State.Quiet.of_fst (by assumption) ?_ | fail_if_no_progress with_reducible refine State.Quiet.other ?_ rfl rfl rfl rfl rfl rfl rfl | dsimp only

theorem State.declare_quiet {s0 : State} {s : State} {c verdict : Nat} (hq : s0.Quiet s) :
    s0.Quiet (State.declare s c verdict) := by
  unfold State.declare
  try extract_lets y1
  try
    have k1 : s0.Quiet y1 := by
      dsimp only [y1]
      repeat' first | with_reducible assumption | with_reducible apply State.emitterFault_quiet | split | with_reducible refine State.Quiet.of_fst (by assumption) ?_
    clear_value y1
  repeat' first | with_reducible assumption | with_reducible apply State.failover_quiet | split | with_reducible refine State.Quiet.of_fst (by assumption) ?_

theorem State.declareNeighbour_quiet {s0 : State} {s : State} {x y : Nat} (hq : s0.Quiet s) :
    s0.Quiet (State.declareNeighbour s x y) := by
  unfold State.declareNeighbour
  try extract_lets y1 y2 y3 y4
  try
    have k1 : s0.Quiet y1 := by
      dsimp only [y1]
      repeat' first | with_reducible assumption | with_reducible apply State.emitterFault_quiet | split | with_reducible refine State.Quiet.of_fst (by assumption) ?_
    clear_value y1
  repeat' first | with_reducible assumption | with_reducible apply State.setChan_quiet | split | with_reducible refine State.Quiet.of_fst (by assumption) ?_

theorem execChainLoadComplete_quiet {s0 : State} {t : Tick} {headers : List (BitVec 16)} {words : List (List (BitVec 16))} {checks : List (BitVec 16)} {readback : List (List (BitVec 16))} {s : State} (hq : s0.Quiet s) :
    s0.QuietOut (execChainLoadComplete t headers words checks readback s) := by
  unfold execChainLoadComplete
  try extract_lets y1 y2 y3 y4 y5 y6 y7 y8
  try
    have k1 : s0.Quiet y1 := by
      dsimp only [y1]
      repeat' first | with_reducible assumption | with_reducible apply State.at_quiet | with_reducible apply State.bump_quiet | with_reducible apply State.emit_quiet | with_reducible apply State.raise_quiet | with_reducible apply State.retarget_quiet | with_reducible apply State.Quiet.foldl | with_reducible apply State.Quiet.eachPort | with_reducible exact State.Quiet.refl _ | with_reducible intro _ _ | split | with_reducible refine State.Quiet.of_fst (by assumption) ?_ | fail_if_no_progress with_reducible refine State.Quiet.other ?_ rfl rfl rfl rfl rfl rfl rfl
    clear_value y1
  try
    have k6 : s0.Quiet y6 := by
      dsimp only [y6]
      repeat' first | with_reducible assumption | with_reducible apply State.at_quiet | with_reducible apply State.bump_quiet | with_reducible apply State.emit_quiet | with_reducible apply State.raise_quiet | with_reducible apply State.retarget_quiet | with_reducible apply State.Quiet.foldl | with_reducible apply State.Quiet.eachPort | with_reducible exact State.Quiet.refl _ | with_reducible intro _ _ | split | with_reducible refine State.Quiet.of_fst (by assumption) ?_ | fail_if_no_progress with_reducible refine State.Quiet.other ?_ rfl rfl rfl rfl rfl rfl rfl
    clear_value y6
  try
    have k7 : s0.Quiet y7 := by
      dsimp only [y7]
      repeat' first | with_reducible assumption | with_reducible apply State.at_quiet | with_reducible apply State.bump_quiet | with_reducible apply State.emit_quiet | with_reducible apply State.raise_quiet | with_reducible apply State.retarget_quiet | with_reducible apply State.Quiet.foldl | with_reducible apply State.Quiet.eachPort | with_reducible exact State.Quiet.refl _ | with_reducible intro _ _ | split | with_reducible refine State.Quiet.of_fst (by assumption) ?_ | fail_if_no_progress with_reducible refine State.Quiet.other ?_ rfl rfl rfl rfl rfl rfl rfl
    clear_value y7
  try
    have k8 : s0.Quiet y8 := by
      dsimp only [y8]
      repeat' first | with_reducible assumption | with_reducible apply State.at_quiet | with_reducible apply State.bump_quiet | with_reducible apply State.emit_quiet | with_reducible apply State.raise_quiet | with_reducible apply State.retarget_quiet | with_reducible apply State.Quiet.foldl | with_reducible apply State.Quiet.eachPort | with_reducible exact State.Quiet.refl _ | with_reducible intro _ _ | split | with_reducible refine State.Quiet.of_fst (by assumption) ?_ | fail_if_no_progress with_reducible refine State.Quiet.other ?_ rfl rfl rfl rfl rfl rfl rfl
    clear_value y8
  repeat' first | with_reducible assumption | with_reducible apply State.QuietOut.next | with_reducible exact State.QuietOut.fault | with_reducible apply State.at_quiet | with_reducible apply State.bump_quiet | with_reducible apply State.emit_quiet | with_reducible apply State.raise_quiet | with_reducible apply State.retarget_quiet | with_reducible apply State.Quiet.foldl | with_reducible apply State.Quiet.eachPort | with_reducible exact State.Quiet.refl _ | with_reducible intro _ _ | split | with_reducible refine State.Quiet.of_fst (by assumption) ?_ | fail_if_no_progress with_reducible refine State.Quiet.other ?_ rfl rfl rfl rfl rfl rfl rfl | dsimp only

theorem State.emvStep_quiet {s0 : State} {s : State} {headroomEvent : Bool} (hq : s0.Quiet s) :
    s0.Quiet (State.emvStep s headroomEvent) := by
  unfold State.emvStep
  try extract_lets y1 y2 y3 y4
  try
    have k1 : s0.Quiet y1 := by
      dsimp only [y1]
      repeat' first | with_reducible assumption | with_reducible apply State.bump_quiet | with_reducible apply State.raise_quiet | split | with_reducible refine State.Quiet.of_fst (by assumption) ?_
    clear_value y1
  repeat' first | with_reducible assumption | with_reducible apply State.bump_quiet | with_reducible apply State.raise_quiet | with_reducible apply State.setEmvTarget_quiet | split | with_reducible refine State.Quiet.of_fst (by assumption) ?_ | fail_if_no_progress with_reducible refine State.Quiet.other ?_ rfl rfl rfl rfl rfl rfl rfl | dsimp only

theorem State.verified_quiet {s0 : State} {s : State} {c : Nat} (hq : s0.Quiet s) :
    s0.Quiet (State.verified s c) := by
  unfold State.verified
  try extract_lets y1 y2 y3
  try
    have k2 : s0.Quiet y2 := by
      dsimp only [y2]
      repeat' first | with_reducible assumption | with_reducible apply State.setChan_quiet | split | with_reducible refine State.Quiet.of_fst (by assumption) ?_
    clear_value y2
  try
    have k3 : s0.Quiet y3 := by
      dsimp only [y3]
      repeat' first | with_reducible assumption | with_reducible apply State.roSet_quiet | split | with_reducible refine State.Quiet.of_fst (by assumption) ?_
    clear_value y3
  repeat' first | with_reducible assumption | with_reducible apply State.setChStatus_quiet | split | with_reducible refine State.Quiet.of_fst (by assumption) ?_

theorem State.driveMeasured_quiet {b0 : State} {s0 : State} {ch : Nat} {current : Nat} {pinMv : Nat} {neighbour : Option (Nat × Nat)} (hq : b0.Quiet s0) :
    b0.Quiet (State.driveMeasured s0 ch current pinMv neighbour) := by
  unfold State.driveMeasured
  extract_lets y1 y2 y3 y4 y5 y6 y7 y8 y9 y10 y11 y12 y13 y14 y15 y16 y17 y18 y19
  try clear_value y1
  try clear_value y2
  try clear_value y3
  first
    | (have k4 : b0.Quiet y4 := by (dsimp only [y4]; repeat' first | with_reducible assumption | with_reducible apply State.roSet_quiet | with_reducible apply State.roSetInt_quiet | with_reducible apply State.declare_quiet | with_reducible apply State.setChan_quiet | with_reducible apply State.verified_quiet | with_reducible apply State.setChStatus_quiet | with_reducible apply State.raise_quiet | with_reducible apply State.declareNeighbour_quiet | with_reducible apply State.emvStep_quiet | with_reducible apply State.Quiet.foldl | with_reducible apply State.Quiet.eachPort | with_reducible exact State.Quiet.refl _ | with_reducible intro _ _ | split | with_reducible refine State.Quiet.of_fst (by assumption) ?_ | fail_if_no_progress with_reducible refine State.Quiet.other ?_ rfl rfl rfl rfl rfl rfl rfl | dsimp only)
       clear_value y4)
    | clear_value y4
    | skip
  first
    | (have k5 : b0.Quiet y5 := by (dsimp only [y5]; repeat' first | with_reducible assumption | with_reducible apply State.roSet_quiet | with_reducible apply State.roSetInt_quiet | with_reducible apply State.declare_quiet | with_reducible apply State.setChan_quiet | with_reducible apply State.verified_quiet | with_reducible apply State.setChStatus_quiet | with_reducible apply State.raise_quiet | with_reducible apply State.declareNeighbour_quiet | with_reducible apply State.emvStep_quiet | with_reducible apply State.Quiet.foldl | with_reducible apply State.Quiet.eachPort | with_reducible exact State.Quiet.refl _ | with_reducible intro _ _ | split | with_reducible refine State.Quiet.of_fst (by assumption) ?_ | fail_if_no_progress with_reducible refine State.Quiet.other ?_ rfl rfl rfl rfl rfl rfl rfl | dsimp only)
       clear_value y5)
    | clear_value y5
    | skip
  first
    | (have k6 : b0.Quiet y6 := by (dsimp only [y6]; repeat' first | with_reducible assumption | with_reducible apply State.roSet_quiet | with_reducible apply State.roSetInt_quiet | with_reducible apply State.declare_quiet | with_reducible apply State.setChan_quiet | with_reducible apply State.verified_quiet | with_reducible apply State.setChStatus_quiet | with_reducible apply State.raise_quiet | with_reducible apply State.declareNeighbour_quiet | with_reducible apply State.emvStep_quiet | with_reducible apply State.Quiet.foldl | with_reducible apply State.Quiet.eachPort | with_reducible exact State.Quiet.refl _ | with_reducible intro _ _ | split | with_reducible refine State.Quiet.of_fst (by assumption) ?_ | fail_if_no_progress with_reducible refine State.Quiet.other ?_ rfl rfl rfl rfl rfl rfl rfl | dsimp only)
       clear_value y6)
    | clear_value y6
    | skip
  first
    | (have k7 : b0.Quiet y7 := by (dsimp only [y7]; repeat' first | with_reducible assumption | with_reducible apply State.roSet_quiet | with_reducible apply State.roSetInt_quiet | with_reducible apply State.declare_quiet | with_reducible apply State.setChan_quiet | with_reducible apply State.verified_quiet | with_reducible apply State.setChStatus_quiet | with_reducible apply State.raise_quiet | with_reducible apply State.declareNeighbour_quiet | with_reducible apply State.emvStep_quiet | with_reducible apply State.Quiet.foldl | with_reducible apply State.Quiet.eachPort | with_reducible exact State.Quiet.refl _ | with_reducible intro _ _ | split | with_reducible refine State.Quiet.of_fst (by assumption) ?_ | fail_if_no_progress with_reducible refine State.Quiet.other ?_ rfl rfl rfl rfl rfl rfl rfl | dsimp only)
       clear_value y7)
    | clear_value y7
    | skip
  first
    | (have k8 : b0.Quiet y8 := by (dsimp only [y8]; repeat' first | with_reducible assumption | with_reducible apply State.roSet_quiet | with_reducible apply State.roSetInt_quiet | with_reducible apply State.declare_quiet | with_reducible apply State.setChan_quiet | with_reducible apply State.verified_quiet | with_reducible apply State.setChStatus_quiet | with_reducible apply State.raise_quiet | with_reducible apply State.declareNeighbour_quiet | with_reducible apply State.emvStep_quiet | with_reducible apply State.Quiet.foldl | with_reducible apply State.Quiet.eachPort | with_reducible exact State.Quiet.refl _ | with_reducible intro _ _ | split | with_reducible refine State.Quiet.of_fst (by assumption) ?_ | fail_if_no_progress with_reducible refine State.Quiet.other ?_ rfl rfl rfl rfl rfl rfl rfl | dsimp only)
       clear_value y8)
    | clear_value y8
    | skip
  first
    | (have k9 : b0.Quiet y9 := by (dsimp only [y9]; repeat' first | with_reducible assumption | with_reducible apply State.roSet_quiet | with_reducible apply State.roSetInt_quiet | with_reducible apply State.declare_quiet | with_reducible apply State.setChan_quiet | with_reducible apply State.verified_quiet | with_reducible apply State.setChStatus_quiet | with_reducible apply State.raise_quiet | with_reducible apply State.declareNeighbour_quiet | with_reducible apply State.emvStep_quiet | with_reducible apply State.Quiet.foldl | with_reducible apply State.Quiet.eachPort | with_reducible exact State.Quiet.refl _ | with_reducible intro _ _ | split | with_reducible refine State.Quiet.of_fst (by assumption) ?_ | fail_if_no_progress with_reducible refine State.Quiet.other ?_ rfl rfl rfl rfl rfl rfl rfl | dsimp only)
       clear_value y9)
    | clear_value y9
    | skip
  first
    | (have k10 : b0.Quiet y10 := by (dsimp only [y10]; repeat' first | with_reducible assumption | with_reducible apply State.roSet_quiet | with_reducible apply State.roSetInt_quiet | with_reducible apply State.declare_quiet | with_reducible apply State.setChan_quiet | with_reducible apply State.verified_quiet | with_reducible apply State.setChStatus_quiet | with_reducible apply State.raise_quiet | with_reducible apply State.declareNeighbour_quiet | with_reducible apply State.emvStep_quiet | with_reducible apply State.Quiet.foldl | with_reducible apply State.Quiet.eachPort | with_reducible exact State.Quiet.refl _ | with_reducible intro _ _ | split | with_reducible refine State.Quiet.of_fst (by assumption) ?_ | fail_if_no_progress with_reducible refine State.Quiet.other ?_ rfl rfl rfl rfl rfl rfl rfl | dsimp only)
       clear_value y10)
    | clear_value y10
    | skip
  first
    | (have k11 : b0.Quiet y11 := by (dsimp only [y11]; repeat' first | with_reducible assumption | with_reducible apply State.roSet_quiet | with_reducible apply State.roSetInt_quiet | with_reducible apply State.declare_quiet | with_reducible apply State.setChan_quiet | with_reducible apply State.verified_quiet | with_reducible apply State.setChStatus_quiet | with_reducible apply State.raise_quiet | with_reducible apply State.declareNeighbour_quiet | with_reducible apply State.emvStep_quiet | with_reducible apply State.Quiet.foldl | with_reducible apply State.Quiet.eachPort | with_reducible exact State.Quiet.refl _ | with_reducible intro _ _ | split | with_reducible refine State.Quiet.of_fst (by assumption) ?_ | fail_if_no_progress with_reducible refine State.Quiet.other ?_ rfl rfl rfl rfl rfl rfl rfl | dsimp only)
       clear_value y11)
    | clear_value y11
    | skip
  first
    | (have k12 : b0.Quiet y12 := by (dsimp only [y12]; repeat' first | with_reducible assumption | with_reducible apply State.roSet_quiet | with_reducible apply State.roSetInt_quiet | with_reducible apply State.declare_quiet | with_reducible apply State.setChan_quiet | with_reducible apply State.verified_quiet | with_reducible apply State.setChStatus_quiet | with_reducible apply State.raise_quiet | with_reducible apply State.declareNeighbour_quiet | with_reducible apply State.emvStep_quiet | with_reducible apply State.Quiet.foldl | with_reducible apply State.Quiet.eachPort | with_reducible exact State.Quiet.refl _ | with_reducible intro _ _ | split | with_reducible refine State.Quiet.of_fst (by assumption) ?_ | fail_if_no_progress with_reducible refine State.Quiet.other ?_ rfl rfl rfl rfl rfl rfl rfl | dsimp only)
       clear_value y12)
    | clear_value y12
    | skip
  first
    | (have k13 : b0.Quiet y13 := by (dsimp only [y13]; repeat' first | with_reducible assumption | with_reducible apply State.roSet_quiet | with_reducible apply State.roSetInt_quiet | with_reducible apply State.declare_quiet | with_reducible apply State.setChan_quiet | with_reducible apply State.verified_quiet | with_reducible apply State.setChStatus_quiet | with_reducible apply State.raise_quiet | with_reducible apply State.declareNeighbour_quiet | with_reducible apply State.emvStep_quiet | with_reducible apply State.Quiet.foldl | with_reducible apply State.Quiet.eachPort | with_reducible exact State.Quiet.refl _ | with_reducible intro _ _ | split | with_reducible refine State.Quiet.of_fst (by assumption) ?_ | fail_if_no_progress with_reducible refine State.Quiet.other ?_ rfl rfl rfl rfl rfl rfl rfl | dsimp only)
       clear_value y13)
    | clear_value y13
    | skip
  first
    | (have k14 : b0.Quiet y14 := by (dsimp only [y14]; repeat' first | with_reducible assumption | with_reducible apply State.roSet_quiet | with_reducible apply State.roSetInt_quiet | with_reducible apply State.declare_quiet | with_reducible apply State.setChan_quiet | with_reducible apply State.verified_quiet | with_reducible apply State.setChStatus_quiet | with_reducible apply State.raise_quiet | with_reducible apply State.declareNeighbour_quiet | with_reducible apply State.emvStep_quiet | with_reducible apply State.Quiet.foldl | with_reducible apply State.Quiet.eachPort | with_reducible exact State.Quiet.refl _ | with_reducible intro _ _ | split | with_reducible refine State.Quiet.of_fst (by assumption) ?_ | fail_if_no_progress with_reducible refine State.Quiet.other ?_ rfl rfl rfl rfl rfl rfl rfl | dsimp only)
       clear_value y14)
    | clear_value y14
    | skip
  first
    | (have k15 : b0.Quiet y15 := by (dsimp only [y15]; repeat' first | with_reducible assumption | with_reducible apply State.roSet_quiet | with_reducible apply State.roSetInt_quiet | with_reducible apply State.declare_quiet | with_reducible apply State.setChan_quiet | with_reducible apply State.verified_quiet | with_reducible apply State.setChStatus_quiet | with_reducible apply State.raise_quiet | with_reducible apply State.declareNeighbour_quiet | with_reducible apply State.emvStep_quiet | with_reducible apply State.Quiet.foldl | with_reducible apply State.Quiet.eachPort | with_reducible exact State.Quiet.refl _ | with_reducible intro _ _ | split | with_reducible refine State.Quiet.of_fst (by assumption) ?_ | fail_if_no_progress with_reducible refine State.Quiet.other ?_ rfl rfl rfl rfl rfl rfl rfl | dsimp only)
       clear_value y15)
    | clear_value y15
    | skip
  first
    | (have k16 : b0.Quiet y16 := by (dsimp only [y16]; repeat' first | with_reducible assumption | with_reducible apply State.roSet_quiet | with_reducible apply State.roSetInt_quiet | with_reducible apply State.declare_quiet | with_reducible apply State.setChan_quiet | with_reducible apply State.verified_quiet | with_reducible apply State.setChStatus_quiet | with_reducible apply State.raise_quiet | with_reducible apply State.declareNeighbour_quiet | with_reducible apply State.emvStep_quiet | with_reducible apply State.Quiet.foldl | with_reducible apply State.Quiet.eachPort | with_reducible exact State.Quiet.refl _ | with_reducible intro _ _ | split | with_reducible refine State.Quiet.of_fst (by assumption) ?_ | fail_if_no_progress with_reducible refine State.Quiet.other ?_ rfl rfl rfl rfl rfl rfl rfl | dsimp only)
       clear_value y16)
    | clear_value y16
    | skip
  repeat' first | with_reducible assumption | with_reducible apply State.roSet_quiet | with_reducible apply State.roSetInt_quiet | with_reducible apply State.declare_quiet | with_reducible apply State.setChan_quiet | with_reducible apply State.verified_quiet | with_reducible apply State.setChStatus_quiet | with_reducible apply State.raise_quiet | with_reducible apply State.declareNeighbour_quiet | with_reducible apply State.emvStep_quiet | with_reducible apply State.Quiet.foldl | with_reducible apply State.Quiet.eachPort | with_reducible exact State.Quiet.refl _ | with_reducible intro _ _ | split | with_reducible refine State.Quiet.of_fst (by assumption) ?_ | fail_if_no_progress with_reducible refine State.Quiet.other ?_ rfl rfl rfl rfl rfl rfl rfl | dsimp only

theorem execFailoverRampComplete_quiet {s0 : State} {t : Tick} {p : Port} {s : State} (hq : s0.Quiet s) :
    s0.QuietOut (execFailoverRampComplete t p s) := by
  unfold execFailoverRampComplete
  try extract_lets y1 y2 y3
  try
    have k1 : s0.Quiet y1 := by
      dsimp only [y1]
      repeat' first | with_reducible assumption | with_reducible apply State.at_quiet | split | with_reducible refine State.Quiet.of_fst (by assumption) ?_
    clear_value y1
  repeat' first | with_reducible assumption | with_reducible apply State.QuietOut.next | with_reducible exact State.QuietOut.fault | with_reducible apply State.at_quiet | with_reducible apply State.retarget_quiet | split | with_reducible refine State.Quiet.of_fst (by assumption) ?_ | fail_if_no_progress with_reducible refine State.Quiet.other ?_ rfl rfl rfl rfl rfl rfl rfl | dsimp only

theorem State.retest_quiet {s0 : State} {s : State} {shorts : List (Nat × Nat)} (hq : s0.Quiet s) :
    s0.Quiet (State.retest s shorts) := by
  unfold State.retest
  repeat' first | with_reducible assumption | with_reducible apply State.setChStatus_quiet | with_reducible apply State.setChan_quiet | with_reducible apply State.Quiet.foldl | with_reducible apply State.Quiet.eachPort | with_reducible exact State.Quiet.refl _ | with_reducible intro _ _ | split | with_reducible refine State.Quiet.of_fst (by assumption) ?_ | fail_if_no_progress with_reducible refine State.Quiet.other ?_ rfl rfl rfl rfl rfl rfl rfl | dsimp only

theorem State.neighbourTest_quiet {s0 : State} {s : State} {shorts : List (Nat × Nat)} (hq : s0.Quiet s) :
    s0.Quiet (State.neighbourTest s shorts) := by
  unfold State.neighbourTest
  repeat' first | with_reducible assumption | with_reducible apply State.declareNeighbour_quiet | with_reducible apply State.Quiet.foldl | with_reducible exact State.Quiet.refl _ | with_reducible intro _ _ | split | with_reducible refine State.Quiet.of_fst (by assumption) ?_ | dsimp only

theorem execPumpAgeingRecord_quiet {s0 : State} {t : Tick} {ch : Nat} {current : Nat} {predicted : Nat} {s : State} (hq : s0.Quiet s) :
    s0.QuietOut (execPumpAgeingRecord t ch current predicted s) := by
  unfold execPumpAgeingRecord
  try extract_lets y1 y2 y3 y4 y5 y6 y7 y8
  try
    have k1 : s0.Quiet y1 := by
      dsimp only [y1]
      repeat' first | with_reducible assumption | with_reducible apply State.at_quiet | with_reducible apply State.roSet_quiet | with_reducible apply State.bump_quiet | with_reducible apply State.setChan_quiet | with_reducible apply State.raise_quiet | with_reducible apply State.Quiet.foldl | with_reducible apply State.Quiet.eachPort | with_reducible exact State.Quiet.refl _ | with_reducible intro _ _ | split | with_reducible refine State.Quiet.of_fst (by assumption) ?_ | fail_if_no_progress with_reducible refine State.Quiet.other ?_ rfl rfl rfl rfl rfl rfl rfl
    clear_value y1
  try
    have k5 : s0.Quiet y5 := by
      dsimp only [y5]
      repeat' first | with_reducible assumption | with_reducible apply State.at_quiet | with_reducible apply State.roSet_quiet | with_reducible apply State.bump_quiet | with_reducible apply State.setChan_quiet | with_reducible apply State.raise_quiet | with_reducible apply State.Quiet.foldl | with_reducible apply State.Quiet.eachPort | with_reducible exact State.Quiet.refl _ | with_reducible intro _ _ | split | with_reducible refine State.Quiet.of_fst (by assumption) ?_ | fail_if_no_progress with_reducible refine State.Quiet.other ?_ rfl rfl rfl rfl rfl rfl rfl
    clear_value y5
  try
    have k6 : s0.Quiet y6 := by
      dsimp only [y6]
      repeat' first | with_reducible assumption | with_reducible apply State.at_quiet | with_reducible apply State.roSet_quiet | with_reducible apply State.bump_quiet | with_reducible apply State.setChan_quiet | with_reducible apply State.raise_quiet | with_reducible apply State.Quiet.foldl | with_reducible apply State.Quiet.eachPort | with_reducible exact State.Quiet.refl _ | with_reducible intro _ _ | split | with_reducible refine State.Quiet.of_fst (by assumption) ?_ | fail_if_no_progress with_reducible refine State.Quiet.other ?_ rfl rfl rfl rfl rfl rfl rfl
    clear_value y6
  try
    have k8 : s0.Quiet y8 := by
      dsimp only [y8]
      repeat' first | with_reducible assumption | with_reducible apply State.at_quiet | with_reducible apply State.roSet_quiet | with_reducible apply State.bump_quiet | with_reducible apply State.setChan_quiet | with_reducible apply State.raise_quiet | with_reducible apply State.Quiet.foldl | with_reducible apply State.Quiet.eachPort | with_reducible exact State.Quiet.refl _ | with_reducible intro _ _ | split | with_reducible refine State.Quiet.of_fst (by assumption) ?_ | fail_if_no_progress with_reducible refine State.Quiet.other ?_ rfl rfl rfl rfl rfl rfl rfl
    clear_value y8
  repeat' first | with_reducible assumption | with_reducible apply State.QuietOut.next | with_reducible exact State.QuietOut.fault | with_reducible apply State.at_quiet | with_reducible apply State.roSet_quiet | with_reducible apply State.bump_quiet | with_reducible apply State.setChan_quiet | with_reducible apply State.raise_quiet | with_reducible apply State.Quiet.foldl | with_reducible apply State.Quiet.eachPort | with_reducible exact State.Quiet.refl _ | with_reducible intro _ _ | split | with_reducible refine State.Quiet.of_fst (by assumption) ?_ | fail_if_no_progress with_reducible refine State.Quiet.other ?_ rfl rfl rfl rfl rfl rfl rfl | dsimp only

theorem execLedBlink_quiet {s0 : State} {t : Tick} {x : Port} {s : State} (hq : s0.Quiet s) :
    s0.QuietOut (execLedBlink t x s) := by
  unfold execLedBlink
  try extract_lets y1 y2 y3 y4 y5 y6 y7 y8 y9
  try
    have k1 : s0.Quiet y1 := by
      dsimp only [y1]
      repeat' first | with_reducible assumption | with_reducible apply State.at_quiet | with_reducible apply State.setChan_quiet | with_reducible apply State.Quiet.foldl | with_reducible apply State.Quiet.eachPort | with_reducible exact State.Quiet.refl _ | with_reducible intro _ _ | split | with_reducible refine State.Quiet.of_fst (by assumption) ?_ | fail_if_no_progress with_reducible refine State.Quiet.other ?_ rfl rfl rfl rfl rfl rfl rfl
    clear_value y1
  try
    have k8 : s0.Quiet y8 := by
      dsimp only [y8]
      repeat' first | with_reducible assumption | with_reducible apply State.at_quiet | with_reducible apply State.setChan_quiet | with_reducible apply State.Quiet.foldl | with_reducible apply State.Quiet.eachPort | with_reducible exact State.Quiet.refl _ | with_reducible intro _ _ | split | with_reducible refine State.Quiet.of_fst (by assumption) ?_ | fail_if_no_progress with_reducible refine State.Quiet.other ?_ rfl rfl rfl rfl rfl rfl rfl
    clear_value y8
  repeat' first | with_reducible assumption | with_reducible apply State.QuietOut.next | with_reducible exact State.QuietOut.fault | with_reducible apply State.at_quiet | with_reducible apply State.setChan_quiet | with_reducible apply State.Quiet.foldl | with_reducible apply State.Quiet.eachPort | with_reducible exact State.Quiet.refl _ | with_reducible intro _ _ | split | with_reducible refine State.Quiet.of_fst (by assumption) ?_ | fail_if_no_progress with_reducible refine State.Quiet.other ?_ rfl rfl rfl rfl rfl rfl rfl | dsimp only

theorem State.channelsOff_quiet {s0 : State} {s : State} {cs : List Nat} (hq : s0.Quiet s) :
    s0.Quiet (State.channelsOff s cs) := by
  unfold State.channelsOff
  try extract_lets y1
  repeat' first | with_reducible assumption | with_reducible apply State.setChan_quiet | with_reducible apply State.setChStatus_quiet | with_reducible apply State.Quiet.foldl | with_reducible exact State.Quiet.refl _ | with_reducible intro _ _ | split | with_reducible refine State.Quiet.of_fst (by assumption) ?_ | dsimp only

end Sys2Proof.Machine
end

