-- ==== Sys2Proof/Laws/KeepsRaman.lean ====
section
/-! SUPPORT. What the operations of Machine/Raman.lean keep. -/

set_option linter.unusedTactic false
set_option linter.unreachableTactic false
set_option linter.unusedVariables false

namespace Sys2Proof.Machine

theorem State.setDts_quiet {s0 : State} {s : State} {p : Port} {x : DtsPort} (hq : s0.Quiet s) :
    s0.Quiet (State.setDts s p x) := by
  unfold State.setDts
  try extract_lets y1
  repeat' first | with_reducible assumption | split | with_reducible refine State.Quiet.of_fst (by assumption) ?_ | fail_if_no_progress with_reducible refine State.Quiet.other ?_ rfl rfl rfl rfl rfl rfl rfl | dsimp only

theorem State.dtsEnd_quiet {s0 : State} {s : State} {p : Port} {endAt : Stamp} {atGrid : Bool} (hq : s0.Quiet s) :
    s0.Quiet (State.dtsEnd s p endAt atGrid) := by
  unfold State.dtsEnd
  try extract_lets y1
  repeat' first | with_reducible assumption | with_reducible apply State.setDts_quiet | split | with_reducible refine State.Quiet.of_fst (by assumption) ?_ | dsimp only

theorem State.biasOff_quiet {s0 : State} {s : State} {p : Port} (hq : s0.Quiet s) :
    s0.Quiet (State.biasOff s p) := by
  unfold State.biasOff
  repeat' first | with_reducible assumption | with_reducible apply State.roSet_quiet | with_reducible apply State.Quiet.foldl | with_reducible apply State.Quiet.eachPort | with_reducible exact State.Quiet.refl _ | with_reducible intro _ _ | split | with_reducible refine State.Quiet.of_fst (by assumption) ?_ | fail_if_no_progress with_reducible refine State.Quiet.other ?_ rfl rfl rfl rfl rfl rfl rfl | dsimp only

theorem State.dtsCut_quiet {s0 : State} {s : State} {p : Port} (hq : s0.Quiet s) :
    s0.Quiet (State.dtsCut s p) := by
  unfold State.dtsCut
  try extract_lets y1 y2 y3
  repeat' first | with_reducible assumption | with_reducible apply State.dtsEnd_quiet | with_reducible apply State.setDts_quiet | with_reducible apply State.Quiet.foldl | with_reducible apply State.Quiet.eachPort | with_reducible exact State.Quiet.refl _ | with_reducible intro _ _ | split | with_reducible refine State.Quiet.of_fst (by assumption) ?_ | fail_if_no_progress with_reducible refine State.Quiet.other ?_ rfl rfl rfl rfl rfl rfl rfl | dsimp only

theorem State.dtsFibreEvent_quiet {s0 : State} {s : State} {p : Port} (hq : s0.Quiet s) :
    s0.Quiet (State.dtsFibreEvent s p) := by
  unfold State.dtsFibreEvent
  try extract_lets y1
  repeat' first | with_reducible assumption | with_reducible apply State.setDts_quiet | split | with_reducible refine State.Quiet.of_fst (by assumption) ?_ | dsimp only

theorem State.bandStart_quiet {s0 : State} {s : State} {p : Port} {b : Nat} {feedback : Nat} {therm : List (Nat × Tick)} (hq : s0.Quiet s) :
    s0.Quiet (State.bandStart s p b feedback therm).1 := by
  unfold State.bandStart
  extract_lets want s1 s2 limit
  have k1 : s0.Quiet s1 := State.roSet_quiet hq
  clear_value s1 limit want
  show s0.Quiet s2
  dsimp only [s2]
  repeat' first | with_reducible assumption | with_reducible apply State.roSet_quiet | split | fail_if_no_progress with_reducible refine State.Quiet.other ?_ rfl rfl rfl rfl rfl rfl rfl | with_reducible refine State.Quiet.of_fst (by assumption) ?_

theorem State.dtsBegin_quiet {s0 : State} {s : State} {p : Port} {fromGrid : Bool} {tf : Nat} (hq : s0.Quiet s) :
    s0.Quiet (State.dtsBegin s p fromGrid tf) := by
  unfold State.dtsBegin
  try extract_lets y1 y2 y3
  try
    have k1 : s0.Quiet y1 := by
      dsimp only [y1]
      repeat' first | with_reducible assumption | with_reducible apply State.setDts_quiet | with_reducible apply State.biasOff_quiet | with_reducible apply State.bandStart_quiet | with_reducible apply State.roSet_quiet | with_reducible apply State.Quiet.foldl | with_reducible apply State.Quiet.eachPort | with_reducible exact State.Quiet.refl _ | with_reducible intro _ _ | split | with_reducible refine State.Quiet.of_fst (by assumption) ?_ | fail_if_no_progress with_reducible refine State.Quiet.other ?_ rfl rfl rfl rfl rfl rfl rfl | dsimp only
    clear_value y1
  try
    have k2 : s0.Quiet y2 := by
      dsimp only [y2]
      repeat' first | with_reducible assumption | with_reducible apply State.setDts_quiet | with_reducible apply State.biasOff_quiet | with_reducible apply State.bandStart_quiet | with_reducible apply State.roSet_quiet | with_reducible apply State.Quiet.foldl | with_reducible apply State.Quiet.eachPort | with_reducible exact State.Quiet.refl _ | with_reducible intro _ _ | split | with_reducible refine State.Quiet.of_fst (by assumption) ?_ | fail_if_no_progress with_reducible refine State.Quiet.other ?_ rfl rfl rfl rfl rfl rfl rfl | dsimp only
    clear_value y2
  repeat' first | with_reducible assumption | with_reducible apply State.setDts_quiet | with_reducible apply State.biasOff_quiet | with_reducible apply State.bandStart_quiet | with_reducible apply State.roSet_quiet | with_reducible apply State.Quiet.foldl | with_reducible apply State.Quiet.eachPort | with_reducible exact State.Quiet.refl _ | with_reducible intro _ _ | split | with_reducible refine State.Quiet.of_fst (by assumption) ?_ | fail_if_no_progress with_reducible refine State.Quiet.other ?_ rfl rfl rfl rfl rfl rfl rfl | dsimp only

theorem State.dtsFold_quiet {s0 : State} {s : State} {p : Port} {obs : FrameObs} {thinned : Bool} (hq : s0.Quiet s) :
    s0.Quiet (State.dtsFold s p obs thinned) := by
  unfold State.dtsFold
  try extract_lets y1 y2
  repeat' first | with_reducible assumption | with_reducible apply State.setDts_quiet | with_reducible apply State.roSet_quiet | with_reducible apply State.Quiet.foldl | with_reducible apply State.Quiet.eachPort | with_reducible exact State.Quiet.refl _ | with_reducible intro _ _ | split | with_reducible refine State.Quiet.of_fst (by assumption) ?_ | fail_if_no_progress with_reducible refine State.Quiet.other ?_ rfl rfl rfl rfl rfl rfl rfl | dsimp only

theorem State.dtsStrobe_quiet {s0 : State} {s : State} {p : Port} {first : Bool} {tf : Nat} (hq : s0.Quiet s) :
    s0.Quiet (State.dtsStrobe s p first tf) := by
  unfold State.dtsStrobe
  try extract_lets y1 y2 y3 y4
  repeat' first | with_reducible assumption | with_reducible apply State.dtsEnd_quiet | with_reducible apply State.dtsBegin_quiet | with_reducible apply State.setDts_quiet | with_reducible apply State.Quiet.foldl | with_reducible apply State.Quiet.eachPort | with_reducible exact State.Quiet.refl _ | with_reducible intro _ _ | split | with_reducible refine State.Quiet.of_fst (by assumption) ?_ | fail_if_no_progress with_reducible refine State.Quiet.other ?_ rfl rfl rfl rfl rfl rfl rfl | dsimp only

theorem State.darkBand_quiet {s0 : State} {s : State} {p : Port} {b offset mean : Nat} {checked : Bool} {epoch : Nat} (hq : s0.Quiet s) :
    s0.Quiet (State.darkBand s p b offset mean checked epoch).1 := by
  unfold State.darkBand
  try extract_lets y1 y2 y3
  try
    have k1 : s0.Quiet y1 := by
      dsimp only [y1]
      repeat' first | with_reducible assumption | with_reducible apply State.roSet_quiet | with_reducible apply State.roSetInt_quiet | with_reducible apply State.raiseFull_quiet | with_reducible apply State.Quiet.foldl | with_reducible apply State.Quiet.eachPort | with_reducible exact State.Quiet.refl _ | with_reducible intro _ _ | split | with_reducible refine State.Quiet.of_fst (by assumption) ?_ | fail_if_no_progress with_reducible refine State.Quiet.other ?_ rfl rfl rfl rfl rfl rfl rfl | dsimp only
    clear_value y1
  repeat' first | with_reducible assumption | with_reducible apply State.roSet_quiet | with_reducible apply State.roSetInt_quiet | with_reducible apply State.raiseFull_quiet | with_reducible apply State.Quiet.foldl | with_reducible apply State.Quiet.eachPort | with_reducible exact State.Quiet.refl _ | with_reducible intro _ _ | split | with_reducible refine State.Quiet.of_fst (by assumption) ?_ | fail_if_no_progress with_reducible refine State.Quiet.other ?_ rfl rfl rfl rfl rfl rfl rfl | dsimp only

theorem execDarkFrameSecondHalf_quiet {s0 : State} {t : Tick} {p : Port} {offset16 : List Nat} {meanCode16 : List Nat} {s : State} (hq : s0.Quiet s) :
    s0.QuietOut (execDarkFrameSecondHalf t p offset16 meanCode16 s) := by
  unfold execDarkFrameSecondHalf
  extract_lets y1 y2 y3 y4 y5 y6 y7 y8 y9 y10 y11 y12 y13
  first
    | (have k1 : s0.Quiet y1 := by (dsimp only [y1]; repeat' first | with_reducible assumption | with_reducible apply State.QuietOut.next | with_reducible exact State.QuietOut.fault | with_reducible apply State.at_quiet | with_reducible apply State.darkBand_quiet | with_reducible apply State.setDts_quiet | with_reducible apply State.Quiet.foldl | with_reducible apply State.Quiet.eachPort | with_reducible exact State.Quiet.refl _ | with_reducible intro _ _ | split | with_reducible refine State.Quiet.of_fst (by assumption) ?_ | fail_if_no_progress with_reducible refine State.Quiet.other ?_ rfl rfl rfl rfl rfl rfl rfl | dsimp only)
       clear_value y1)
    | (have k1 : s0.Quiet y1.1 := by (dsimp only [y1]; repeat' first | with_reducible assumption | with_reducible apply State.QuietOut.next | with_reducible exact State.QuietOut.fault | with_reducible apply State.at_quiet | with_reducible apply State.darkBand_quiet | with_reducible apply State.setDts_quiet | with_reducible apply State.Quiet.foldl | with_reducible apply State.Quiet.eachPort | with_reducible exact State.Quiet.refl _ | with_reducible intro _ _ | split | with_reducible refine State.Quiet.of_fst (by assumption) ?_ | fail_if_no_progress with_reducible refine State.Quiet.other ?_ rfl rfl rfl rfl rfl rfl rfl | dsimp only)
       clear_value y1)
    | clear_value y1
    | skip
  first
    | (have k2 : s0.Quiet y2 := by (dsimp only [y2]; repeat' first | with_reducible assumption | with_reducible apply State.QuietOut.next | with_reducible exact State.QuietOut.fault | with_reducible apply State.at_quiet | with_reducible apply State.darkBand_quiet | with_reducible apply State.setDts_quiet | with_reducible apply State.Quiet.foldl | with_reducible apply State.Quiet.eachPort | with_reducible exact State.Quiet.refl _ | with_reducible intro _ _ | split | with_reducible refine State.Quiet.of_fst (by assumption) ?_ | fail_if_no_progress with_reducible refine State.Quiet.other ?_ rfl rfl rfl rfl rfl rfl rfl | dsimp only)
       clear_value y2)
    | (have k2 : s0.Quiet y2.1 := by (dsimp only [y2]; repeat' first | with_reducible assumption | with_reducible apply State.QuietOut.next | with_reducible exact State.QuietOut.fault | with_reducible apply State.at_quiet | with_reducible apply State.darkBand_quiet | with_reducible apply State.setDts_quiet | with_reducible apply State.Quiet.foldl | with_reducible apply State.Quiet.eachPort | with_reducible exact State.Quiet.refl _ | with_reducible intro _ _ | split | with_reducible refine State.Quiet.of_fst (by assumption) ?_ | fail_if_no_progress with_reducible refine State.Quiet.other ?_ rfl rfl rfl rfl rfl rfl rfl | dsimp only)
       clear_value y2)
    | clear_value y2
    | skip
  first
    | (have k3 : s0.Quiet y3 := by (dsimp only [y3]; repeat' first | with_reducible assumption | with_reducible apply State.QuietOut.next | with_reducible exact State.QuietOut.fault | with_reducible apply State.at_quiet | with_reducible apply State.darkBand_quiet | with_reducible apply State.setDts_quiet | with_reducible apply State.Quiet.foldl | with_reducible apply State.Quiet.eachPort | with_reducible exact State.Quiet.refl _ | with_reducible intro _ _ | split | with_reducible refine State.Quiet.of_fst (by assumption) ?_ | fail_if_no_progress with_reducible refine State.Quiet.other ?_ rfl rfl rfl rfl rfl rfl rfl | dsimp only)
       clear_value y3)
    | (have k3 : s0.Quiet y3.1 := by (dsimp only [y3]; repeat' first | with_reducible assumption | with_reducible apply State.QuietOut.next | with_reducible exact State.QuietOut.fault | with_reducible apply State.at_quiet | with_reducible apply State.darkBand_quiet | with_reducible apply State.setDts_quiet | with_reducible apply State.Quiet.foldl | with_reducible apply State.Quiet.eachPort | with_reducible exact State.Quiet.refl _ | with_reducible intro _ _ | split | with_reducible refine State.Quiet.of_fst (by assumption) ?_ | fail_if_no_progress with_reducible refine State.Quiet.other ?_ rfl rfl rfl rfl rfl rfl rfl | dsimp only)
       clear_value y3)
    | clear_value y3
    | skip
  first
    | (have k4 : s0.Quiet y4 := by (dsimp only [y4]; repeat' first | with_reducible assumption | with_reducible apply State.QuietOut.next | with_reducible exact State.QuietOut.fault | with_reducible apply State.at_quiet | with_reducible apply State.darkBand_quiet | with_reducible apply State.setDts_quiet | with_reducible apply State.Quiet.foldl | with_reducible apply State.Quiet.eachPort | with_reducible exact State.Quiet.refl _ | with_reducible intro _ _ | split | with_reducible refine State.Quiet.of_fst (by assumption) ?_ | fail_if_no_progress with_reducible refine State.Quiet.other ?_ rfl rfl rfl rfl rfl rfl rfl | dsimp only)
       clear_value y4)
    | (have k4 : s0.Quiet y4.1 := by (dsimp only [y4]; repeat' first | with_reducible assumption | with_reducible apply State.QuietOut.next | with_reducible exact State.QuietOut.fault | with_reducible apply State.at_quiet | with_reducible apply State.darkBand_quiet | with_reducible apply State.setDts_quiet | with_reducible apply State.Quiet.foldl | with_reducible apply State.Quiet.eachPort | with_reducible exact State.Quiet.refl _ | with_reducible intro _ _ | split | with_reducible refine State.Quiet.of_fst (by assumption) ?_ | fail_if_no_progress with_reducible refine State.Quiet.other ?_ rfl rfl rfl rfl rfl rfl rfl | dsimp only)
       clear_value y4)
    | clear_value y4
    | skip
  first
    | (have k5 : s0.Quiet y5 := by (dsimp only [y5]; repeat' first | with_reducible assumption | with_reducible apply State.QuietOut.next | with_reducible exact State.QuietOut.fault | with_reducible apply State.at_quiet | with_reducible apply State.darkBand_quiet | with_reducible apply State.setDts_quiet | with_reducible apply State.Quiet.foldl | with_reducible apply State.Quiet.eachPort | with_reducible exact State.Quiet.refl _ | with_reducible intro _ _ | split | with_reducible refine State.Quiet.of_fst (by assumption) ?_ | fail_if_no_progress with_reducible refine State.Quiet.other ?_ rfl rfl rfl rfl rfl rfl rfl | dsimp only)
       clear_value y5)
    | (have k5 : s0.Quiet y5.1 := by (dsimp only [y5]; repeat' first | with_reducible assumption | with_reducible apply State.QuietOut.next | with_reducible exact State.QuietOut.fault | with_reducible apply State.at_quiet | with_reducible apply State.darkBand_quiet | with_reducible apply State.setDts_quiet | with_reducible apply State.Quiet.foldl | with_reducible apply State.Quiet.eachPort | with_reducible exact State.Quiet.refl _ | with_reducible intro _ _ | split | with_reducible refine State.Quiet.of_fst (by assumption) ?_ | fail_if_no_progress with_reducible refine State.Quiet.other ?_ rfl rfl rfl rfl rfl rfl rfl | dsimp only)
       clear_value y5)
    | clear_value y5
    | skip
  first
    | (have k6 : s0.Quiet y6 := by (dsimp only [y6]; repeat' first | with_reducible assumption | with_reducible apply State.QuietOut.next | with_reducible exact State.QuietOut.fault | with_reducible apply State.at_quiet | with_reducible apply State.darkBand_quiet | with_reducible apply State.setDts_quiet | with_reducible apply State.Quiet.foldl | with_reducible apply State.Quiet.eachPort | with_reducible exact State.Quiet.refl _ | with_reducible intro _ _ | split | with_reducible refine State.Quiet.of_fst (by assumption) ?_ | fail_if_no_progress with_reducible refine State.Quiet.other ?_ rfl rfl rfl rfl rfl rfl rfl | dsimp only)
       clear_value y6)
    | (have k6 : s0.Quiet y6.1 := by (dsimp only [y6]; repeat' first | with_reducible assumption | with_reducible apply State.QuietOut.next | with_reducible exact State.QuietOut.fault | with_reducible apply State.at_quiet | with_reducible apply State.darkBand_quiet | with_reducible apply State.setDts_quiet | with_reducible apply State.Quiet.foldl | with_reducible apply State.Quiet.eachPort | with_reducible exact State.Quiet.refl _ | with_reducible intro _ _ | split | with_reducible refine State.Quiet.of_fst (by assumption) ?_ | fail_if_no_progress with_reducible refine State.Quiet.other ?_ rfl rfl rfl rfl rfl rfl rfl | dsimp only)
       clear_value y6)
    | clear_value y6
    | skip
  first
    | (have k7 : s0.Quiet y7 := by (dsimp only [y7]; repeat' first | with_reducible assumption | with_reducible apply State.QuietOut.next | with_reducible exact State.QuietOut.fault | with_reducible apply State.at_quiet | with_reducible apply State.darkBand_quiet | with_reducible apply State.setDts_quiet | with_reducible apply State.Quiet.foldl | with_reducible apply State.Quiet.eachPort | with_reducible exact State.Quiet.refl _ | with_reducible intro _ _ | split | with_reducible refine State.Quiet.of_fst (by assumption) ?_ | fail_if_no_progress with_reducible refine State.Quiet.other ?_ rfl rfl rfl rfl rfl rfl rfl | dsimp only)
       clear_value y7)
    | (have k7 : s0.Quiet y7.1 := by (dsimp only [y7]; repeat' first | with_reducible assumption | with_reducible apply State.QuietOut.next | with_reducible exact State.QuietOut.fault | with_reducible apply State.at_quiet | with_reducible apply State.darkBand_quiet | with_reducible apply State.setDts_quiet | with_reducible apply State.Quiet.foldl | with_reducible apply State.Quiet.eachPort | with_reducible exact State.Quiet.refl _ | with_reducible intro _ _ | split | with_reducible refine State.Quiet.of_fst (by assumption) ?_ | fail_if_no_progress with_reducible refine State.Quiet.other ?_ rfl rfl rfl rfl rfl rfl rfl | dsimp only)
       clear_value y7)
    | clear_value y7
    | skip
  repeat' first | with_reducible assumption | with_reducible apply State.QuietOut.next | with_reducible exact State.QuietOut.fault | with_reducible apply State.at_quiet | with_reducible apply State.darkBand_quiet | with_reducible apply State.setDts_quiet | with_reducible apply State.Quiet.foldl | with_reducible apply State.Quiet.eachPort | with_reducible exact State.Quiet.refl _ | with_reducible intro _ _ | split | with_reducible refine State.Quiet.of_fst (by assumption) ?_ | fail_if_no_progress with_reducible refine State.Quiet.other ?_ rfl rfl rfl rfl rfl rfl rfl | dsimp only

theorem execDtsFeedbackCheck_quiet {s0 : State} {t : Tick} {p : Port} {s : State} (hq : s0.Quiet s) :
    s0.QuietOut (execDtsFeedbackCheck t p s) := by
  unfold execDtsFeedbackCheck
  try extract_lets y1 y2 y3
  try
    have k1 : s0.Quiet y1 := by
      dsimp only [y1]
      repeat' first | with_reducible assumption | with_reducible apply State.QuietOut.next | with_reducible exact State.QuietOut.fault | with_reducible apply State.at_quiet | with_reducible apply State.setDts_quiet | with_reducible apply State.Quiet.foldl | with_reducible apply State.Quiet.eachPort | with_reducible exact State.Quiet.refl _ | with_reducible intro _ _ | split | with_reducible refine State.Quiet.of_fst (by assumption) ?_ | fail_if_no_progress with_reducible refine State.Quiet.other ?_ rfl rfl rfl rfl rfl rfl rfl | dsimp only
    clear_value y1
  repeat' first | with_reducible assumption | with_reducible apply State.QuietOut.next | with_reducible exact State.QuietOut.fault | with_reducible apply State.at_quiet | with_reducible apply State.setDts_quiet | with_reducible apply State.Quiet.foldl | with_reducible apply State.Quiet.eachPort | with_reducible exact State.Quiet.refl _ | with_reducible intro _ _ | split | with_reducible refine State.Quiet.of_fst (by assumption) ?_ | fail_if_no_progress with_reducible refine State.Quiet.other ?_ rfl rfl rfl rfl rfl rfl rfl | dsimp only

theorem State.dtsReading_quiet {s0 : State} {s : State} {ch : Nat} {v : Option Rat} (hq : s0.Quiet s) :
    s0.Quiet (State.dtsReading s ch v) := by
  unfold State.dtsReading
  try extract_lets y1 y2
  repeat' first | with_reducible assumption | with_reducible apply State.setDts_quiet | with_reducible apply State.Quiet.foldl | with_reducible apply State.Quiet.eachPort | with_reducible exact State.Quiet.refl _ | with_reducible intro _ _ | split | with_reducible refine State.Quiet.of_fst (by assumption) ?_ | fail_if_no_progress with_reducible refine State.Quiet.other ?_ rfl rfl rfl rfl rfl rfl rfl | dsimp only

theorem State.coilCheck_quiet {s0 : State} {s : State} {p : Port} {own : Option Int} {epoch : Nat} (hq : s0.Quiet s) :
    s0.Quiet (State.coilCheck s p own epoch) := by
  unfold State.coilCheck
  repeat' first | with_reducible assumption | with_reducible apply State.setDts_quiet | with_reducible apply State.roSet_quiet | with_reducible apply State.raiseFull_quiet | with_reducible apply State.Quiet.foldl | with_reducible apply State.Quiet.eachPort | with_reducible exact State.Quiet.refl _ | with_reducible intro _ _ | split | with_reducible refine State.Quiet.of_fst (by assumption) ?_ | fail_if_no_progress with_reducible refine State.Quiet.other ?_ rfl rfl rfl rfl rfl rfl rfl | dsimp only

theorem State.dtsBlocks_quiet {s0 : State} {s : State} {p : Port} {x : Integ} {r : DtsResult} (hq : s0.Quiet s) :
    s0.Quiet (State.dtsBlocks s p x r) := by
  unfold State.dtsBlocks
  repeat' first | with_reducible assumption | with_reducible apply State.loadDue_quiet | with_reducible apply State.enqueue_quiet | with_reducible apply State.Quiet.foldl | with_reducible apply State.Quiet.eachPort | with_reducible exact State.Quiet.refl _ | with_reducible intro _ _ | split | with_reducible refine State.Quiet.of_fst (by assumption) ?_ | fail_if_no_progress with_reducible refine State.Quiet.other ?_ rfl rfl rfl rfl rfl rfl rfl | dsimp only

theorem execDtsResultPublish_quiet {s0 : State} {t : Tick} {p : Port} {number : Nat} {s : State} (hq : s0.Quiet s) :
    s0.QuietOut (execDtsResultPublish t p number s) := by
  unfold execDtsResultPublish
  try extract_lets y1 y2 y3
  try
    have k1 : s0.Quiet y1 := by
      dsimp only [y1]
      repeat' first | with_reducible assumption | with_reducible apply State.QuietOut.next | with_reducible exact State.QuietOut.fault | with_reducible apply State.at_quiet | with_reducible apply State.setDts_quiet | with_reducible apply State.roSet_quiet | with_reducible apply State.dtsBlocks_quiet | with_reducible apply State.coilCheck_quiet | with_reducible apply State.settleAll_quiet | with_reducible apply State.Quiet.foldl | with_reducible apply State.Quiet.eachPort | with_reducible exact State.Quiet.refl _ | with_reducible intro _ _ | split | with_reducible refine State.Quiet.of_fst (by assumption) ?_ | fail_if_no_progress with_reducible refine State.Quiet.other ?_ rfl rfl rfl rfl rfl rfl rfl | dsimp only
    clear_value y1
  repeat' first | with_reducible assumption | with_reducible apply State.QuietOut.next | with_reducible exact State.QuietOut.fault | with_reducible apply State.at_quiet | with_reducible apply State.setDts_quiet | with_reducible apply State.roSet_quiet | with_reducible apply State.dtsBlocks_quiet | with_reducible apply State.coilCheck_quiet | with_reducible apply State.settleAll_quiet | with_reducible apply State.Quiet.foldl | with_reducible apply State.Quiet.eachPort | with_reducible exact State.Quiet.refl _ | with_reducible intro _ _ | split | with_reducible refine State.Quiet.of_fst (by assumption) ?_ | fail_if_no_progress with_reducible refine State.Quiet.other ?_ rfl rfl rfl rfl rfl rfl rfl | dsimp only

end Sys2Proof.Machine
end

