-- ==== Sys2Proof/Laws/KeepsTimeBase.lean ====
section
/-! SUPPORT. What the operations of Machine/TimeBase.lean keep. -/

set_option linter.unusedTactic false
set_option linter.unreachableTactic false
set_option linter.unusedVariables false

namespace Sys2Proof.Machine

theorem State.withTime_quiet {s0 : State} {s : State} {t : TimeBase} (hq : s0.Quiet s) :
    s0.Quiet (State.withTime s t) := by
  unfold State.withTime
  repeat' first | with_reducible assumption | split | with_reducible refine State.Quiet.of_fst (by assumption) ?_ | fail_if_no_progress with_reducible refine State.Quiet.other ?_ rfl rfl rfl rfl rfl rfl rfl

theorem State.setFreqIn_quiet {s0 : State} {s : State} {i : FreqInput} {x : FreqIn} (hq : s0.Quiet s) :
    s0.Quiet (State.setFreqIn s i x) := by
  unfold State.setFreqIn
  try extract_lets y1
  repeat' first | with_reducible assumption | with_reducible apply State.withTime_quiet | split | with_reducible refine State.Quiet.of_fst (by assumption) ?_ | dsimp only

theorem State.selectFreq_quiet {s0 : State} {s : State} (hq : s0.Quiet s) :
    s0.Quiet (State.selectFreq s) := by
  unfold State.selectFreq
  try extract_lets y1 y2
  repeat' first | with_reducible assumption | with_reducible apply State.roSet_quiet | with_reducible apply State.raise_quiet | split | with_reducible refine State.Quiet.of_fst (by assumption) ?_

theorem State.judgeTime_quiet {s0 : State} {s : State} (hq : s0.Quiet s) :
    s0.Quiet (State.judgeTime s) := by
  unfold State.judgeTime
  try extract_lets y1 y2 y3
  try
    have k1 : s0.Quiet y1 := by
      dsimp only [y1]
      repeat' first | with_reducible assumption | with_reducible apply State.roSet_quiet | split | with_reducible refine State.Quiet.of_fst (by assumption) ?_
    clear_value y1
  try
    have k2 : s0.Quiet y2 := by
      dsimp only [y2]
      repeat' first | with_reducible assumption | with_reducible apply State.roSet_quiet | split | with_reducible refine State.Quiet.of_fst (by assumption) ?_
    clear_value y2
  repeat' first | with_reducible assumption | with_reducible apply State.roSet_quiet | with_reducible apply State.raise_quiet | split | with_reducible refine State.Quiet.of_fst (by assumption) ?_

theorem State.setPtp_quiet {s0 : State} {s : State} {p : Port} {x : PtpPort} (hq : s0.Quiet s) :
    s0.Quiet (State.setPtp s p x) := by
  unfold State.setPtp
  try extract_lets y1
  repeat' first | with_reducible assumption | with_reducible apply State.withTime_quiet | split | with_reducible refine State.Quiet.of_fst (by assumption) ?_ | dsimp only

theorem State.ptpPublish_quiet {s0 : State} {s : State} {p : Port} (hq : s0.Quiet s) :
    s0.Quiet (State.ptpPublish s p) := by
  unfold State.ptpPublish
  try extract_lets y1 y2
  try
    have k1 : s0.Quiet y1 := by
      dsimp only [y1]
      repeat' first | with_reducible assumption | with_reducible apply State.roSet_quiet | split | with_reducible refine State.Quiet.of_fst (by assumption) ?_
    clear_value y1
  try
    have k2 : s0.Quiet y2 := by
      dsimp only [y2]
      repeat' first | with_reducible assumption | with_reducible apply State.roSet_quiet | split | with_reducible refine State.Quiet.of_fst (by assumption) ?_
    clear_value y2
  repeat' first | with_reducible assumption | with_reducible apply State.roSet_quiet | with_reducible apply State.roSetInt_quiet | split | with_reducible refine State.Quiet.of_fst (by assumption) ?_ | dsimp only

theorem State.selectTime_quiet {s0 : State} {s : State} (hq : s0.Quiet s) :
    s0.Quiet (State.selectTime s) := by
  unfold State.selectTime
  try extract_lets y1 y2 y3 y4 y5 y6 y7
  try
    have k7 : s0.Quiet y7 := by
      dsimp only [y7]
      repeat' first | with_reducible assumption | with_reducible apply State.withTime_quiet | split | with_reducible refine State.Quiet.of_fst (by assumption) ?_
    clear_value y7
  repeat' first | with_reducible assumption | with_reducible apply State.judgeTime_quiet | with_reducible apply State.roSet_quiet | with_reducible apply State.raise_quiet | split | with_reducible refine State.Quiet.of_fst (by assumption) ?_

theorem State.settlePhi_quiet {s0 : State} {s : State} (hq : s0.Quiet s) :
    s0.Quiet (State.settlePhi s) := by
  unfold State.settlePhi
  try extract_lets y1
  repeat' first | with_reducible assumption | with_reducible apply State.withTime_quiet | split | with_reducible refine State.Quiet.of_fst (by assumption) ?_

theorem State.measurePhi_quiet {s0 : State} {s : State} {p : Int} {t : Tick} (hq : s0.Quiet s) :
    s0.Quiet (State.measurePhi s p t) := by
  unfold State.measurePhi
  try extract_lets y1
  repeat' first | with_reducible assumption | with_reducible apply State.withTime_quiet | split | with_reducible refine State.Quiet.of_fst (by assumption) ?_

theorem State.stepCounter_quiet {s0 : State} {s : State} {n : Int} (hq : s0.Quiet s) :
    s0.Quiet (State.stepCounter s n) := by
  unfold State.stepCounter
  try extract_lets y1 y2
  try
    have k1 : s0.Quiet y1 := by
      dsimp only [y1]
      repeat' first | with_reducible assumption | with_reducible apply State.settlePhi_quiet | split | with_reducible refine State.Quiet.of_fst (by assumption) ?_
    clear_value y1
  repeat' first | with_reducible assumption | with_reducible apply State.withTime_quiet | with_reducible apply State.raise_quiet | split | with_reducible refine State.Quiet.of_fst (by assumption) ?_

theorem State.discipline_quiet {s0 : State} {s : State} {freqErr : Int} (hq : s0.Quiet s) :
    s0.Quiet (State.discipline s freqErr) := by
  unfold State.discipline
  try extract_lets y1 y2 y3 y4 y5 y6 y7
  try
    have k7 : s0.Quiet y7 := by
      dsimp only [y7]
      repeat' first | with_reducible assumption | with_reducible apply State.roSetInt_quiet | with_reducible apply State.withTime_quiet | split | with_reducible refine State.Quiet.of_fst (by assumption) ?_
    clear_value y7
  repeat' first | with_reducible assumption | with_reducible apply State.roSetInt_quiet | split | with_reducible refine State.Quiet.of_fst (by assumption) ?_

theorem State.steer_quiet {s0 : State} {s : State} {freqErr : Int} (hq : s0.Quiet s) :
    s0.Quiet (State.steer s freqErr) := by
  unfold State.steer
  try extract_lets y1 y2 y3 y4 y5
  try
    have k4 : s0.Quiet y4 := by
      dsimp only [y4]
      repeat' first | with_reducible assumption | with_reducible apply State.settlePhi_quiet | split | with_reducible refine State.Quiet.of_fst (by assumption) ?_
    clear_value y4
  repeat' first | with_reducible assumption | with_reducible apply State.withTime_quiet | with_reducible apply State.roSetInt_quiet | split | with_reducible refine State.Quiet.of_fst (by assumption) ?_

theorem State.timeSteer_quiet {s0 : State} {s : State} {freqErr : Int} (hq : s0.Quiet s) :
    s0.Quiet (State.timeSteer s freqErr) := by
  unfold State.timeSteer
  try extract_lets y1 y2 y3 y4 y5 y6 y7 y8
  try
    have k6 : s0.Quiet y6 := by
      dsimp only [y6]
      repeat' first | with_reducible assumption | with_reducible apply State.stepCounter_quiet | with_reducible apply State.roSet_quiet | with_reducible apply State.raise_quiet | split | with_reducible refine State.Quiet.of_fst (by assumption) ?_
    clear_value y6
  try
    have k8 : s0.Quiet y8 := by
      dsimp only [y8]
      repeat' first | with_reducible assumption | with_reducible apply State.withTime_quiet | split | with_reducible refine State.Quiet.of_fst (by assumption) ?_
    clear_value y8
  repeat' first | with_reducible assumption | with_reducible apply State.discipline_quiet | with_reducible apply State.steer_quiet | with_reducible apply State.judgeTime_quiet | split | with_reducible refine State.Quiet.of_fst (by assumption) ?_

theorem State.timeFieldsAtF_quiet {s0 : State} {s : State} {changed : List Key} (hq : s0.Quiet s) :
    s0.Quiet (State.timeFieldsAtF s changed) := by
  unfold State.timeFieldsAtF
  extract_lets tdc tb s1 s2
  have k1 : s0.Quiet s1 := State.withTime_quiet hq
  clear_value s1
  have k2 : s0.Quiet s2 := State.ptpPublish_quiet (State.ptpPublish_quiet k1)
  clear_value s2
  exact State.selectTime_quiet (State.selectFreq_quiet k2)

theorem execRefInputPresent_quiet {s0 : State} {t : Tick} {inp : FreqInput} {s : State} (hq : s0.Quiet s) :
    s0.QuietOut (execRefInputPresent t inp s) := by
  unfold execRefInputPresent
  try extract_lets y1
  try
    have k1 : s0.Quiet y1 := by
      dsimp only [y1]
      repeat' first | with_reducible assumption | with_reducible apply State.at_quiet | split | with_reducible refine State.Quiet.of_fst (by assumption) ?_
    clear_value y1
  repeat' first | with_reducible assumption | with_reducible apply State.QuietOut.next | with_reducible exact State.QuietOut.fault | with_reducible apply State.roSet_quiet | with_reducible apply State.setFreqIn_quiet | split | with_reducible refine State.Quiet.of_fst (by assumption) ?_

theorem execRefInputLost_quiet {s0 : State} {t : Tick} {inp : FreqInput} {s : State} (hq : s0.Quiet s) :
    s0.QuietOut (execRefInputLost t inp s) := by
  unfold execRefInputLost
  try extract_lets y1
  try
    have k1 : s0.Quiet y1 := by
      dsimp only [y1]
      repeat' first | with_reducible assumption | with_reducible apply State.at_quiet | split | with_reducible refine State.Quiet.of_fst (by assumption) ?_
    clear_value y1
  repeat' first | with_reducible assumption | with_reducible apply State.QuietOut.next | with_reducible exact State.QuietOut.fault | with_reducible apply State.roSet_quiet | with_reducible apply State.setFreqIn_quiet | with_reducible apply State.selectFreq_quiet | split | with_reducible refine State.Quiet.of_fst (by assumption) ?_

theorem execFreqGateEnd_quiet {s0 : State} {t : Tick} {inp : FreqInput} {devE15 : Int} {s : State} (hq : s0.Quiet s) :
    s0.QuietOut (execFreqGateEnd t inp devE15 s) := by
  unfold execFreqGateEnd
  try extract_lets y1 y2 y3 y4
  try
    have k1 : s0.Quiet y1 := by
      dsimp only [y1]
      repeat' first | with_reducible assumption | with_reducible apply State.at_quiet | split | with_reducible refine State.Quiet.of_fst (by assumption) ?_
    clear_value y1
  try
    have k3 : s0.Quiet y3 := by
      dsimp only [y3]
      repeat' first | with_reducible assumption | with_reducible apply State.setFreqIn_quiet | split | with_reducible refine State.Quiet.of_fst (by assumption) ?_
    clear_value y3
  try
    have k4 : s0.Quiet y4 := by
      dsimp only [y4]
      repeat' first | with_reducible assumption | with_reducible apply State.raise_quiet | split | with_reducible refine State.Quiet.of_fst (by assumption) ?_ | fail_if_no_progress with_reducible refine State.Quiet.other ?_ rfl rfl rfl rfl rfl rfl rfl
    clear_value y4
  repeat' first | with_reducible assumption | with_reducible apply State.QuietOut.next | with_reducible exact State.QuietOut.fault | with_reducible apply State.selectFreq_quiet | split | with_reducible refine State.Quiet.of_fst (by assumption) ?_

theorem State.ppsMeasure_quiet {s0 : State} {s : State} {c : Stamp} {residual : Nat} (hq : s0.Quiet s) :
    s0.Quiet (State.ppsMeasure s c residual) := by
  unfold State.ppsMeasure
  try extract_lets y1 y2 y3 y4 y5
  try
    have k5 : s0.Quiet y5 := by
      dsimp only [y5]
      repeat' first | with_reducible assumption | with_reducible apply State.withTime_quiet | with_reducible apply State.selectTime_quiet | split | with_reducible refine State.Quiet.of_fst (by assumption) ?_
    clear_value y5
  repeat' first | with_reducible assumption | with_reducible apply State.withTime_quiet | with_reducible apply State.selectTime_quiet | with_reducible apply State.measurePhi_quiet | with_reducible apply State.judgeTime_quiet | split | with_reducible refine State.Quiet.of_fst (by assumption) ?_ | dsimp only

theorem execPpsInEdge_quiet {s0 : State} {t : Tick} {sub : Nat} {residual : Nat} {s : State} (hq : s0.Quiet s) :
    s0.QuietOut (execPpsInEdge t sub residual s) := by
  unfold execPpsInEdge
  try extract_lets y1 y2 y3 y4 y5 y6
  try
    have k1 : s0.Quiet y1 := by
      dsimp only [y1]
      repeat' first | with_reducible assumption | with_reducible apply State.QuietOut.next | with_reducible exact State.QuietOut.fault | with_reducible apply State.at_quiet | with_reducible apply State.withTime_quiet | with_reducible apply State.ppsMeasure_quiet | with_reducible apply State.roSet_quiet | with_reducible apply State.Quiet.foldl | with_reducible apply State.Quiet.eachPort | with_reducible exact State.Quiet.refl _ | with_reducible intro _ _ | split | with_reducible refine State.Quiet.of_fst (by assumption) ?_ | fail_if_no_progress with_reducible refine State.Quiet.other ?_ rfl rfl rfl rfl rfl rfl rfl | dsimp only
    clear_value y1
  repeat' first | with_reducible assumption | with_reducible apply State.QuietOut.next | with_reducible exact State.QuietOut.fault | with_reducible apply State.at_quiet | with_reducible apply State.withTime_quiet | with_reducible apply State.ppsMeasure_quiet | with_reducible apply State.roSet_quiet | with_reducible apply State.Quiet.foldl | with_reducible apply State.Quiet.eachPort | with_reducible exact State.Quiet.refl _ | with_reducible intro _ _ | split | with_reducible refine State.Quiet.of_fst (by assumption) ?_ | fail_if_no_progress with_reducible refine State.Quiet.other ?_ rfl rfl rfl rfl rfl rfl rfl | dsimp only

theorem execPpsInTimeout_quiet {s0 : State} {t : Tick} {s : State} (hq : s0.Quiet s) :
    s0.QuietOut (execPpsInTimeout t s) := by
  unfold execPpsInTimeout
  try extract_lets y1 y2 y3
  try
    have k1 : s0.Quiet y1 := by
      dsimp only [y1]
      repeat' first | with_reducible assumption | with_reducible apply State.at_quiet | split | with_reducible refine State.Quiet.of_fst (by assumption) ?_
    clear_value y1
  repeat' first | with_reducible assumption | with_reducible apply State.QuietOut.next | with_reducible exact State.QuietOut.fault | with_reducible apply State.at_quiet | with_reducible apply State.roSet_quiet | with_reducible apply State.withTime_quiet | with_reducible apply State.selectTime_quiet | split | with_reducible refine State.Quiet.of_fst (by assumption) ?_ | dsimp only

theorem execTimeSteerUpdate_quiet {s0 : State} {t : Tick} {freqErrE15 : Int} {s : State} (hq : s0.Quiet s) :
    s0.QuietOut (execTimeSteerUpdate t freqErrE15 s) := by
  unfold execTimeSteerUpdate
  repeat' first | with_reducible assumption | with_reducible apply State.QuietOut.next | with_reducible exact State.QuietOut.fault | with_reducible apply State.at_quiet | with_reducible apply State.timeSteer_quiet | split | with_reducible refine State.Quiet.of_fst (by assumption) ?_

theorem execOcxoAgeingStep_quiet {s0 : State} {t : Tick} {s : State} (hq : s0.Quiet s) :
    s0.QuietOut (execOcxoAgeingStep t s) := by
  unfold execOcxoAgeingStep
  try extract_lets y1 y2 y3
  try
    have k1 : s0.Quiet y1 := by
      dsimp only [y1]
      repeat' first | with_reducible assumption | with_reducible apply State.at_quiet | split | with_reducible refine State.Quiet.of_fst (by assumption) ?_
    clear_value y1
  repeat' first | with_reducible assumption | with_reducible apply State.QuietOut.next | with_reducible exact State.QuietOut.fault | with_reducible apply State.withTime_quiet | with_reducible apply State.roSetInt_quiet | split | with_reducible refine State.Quiet.of_fst (by assumption) ?_

theorem State.ptpRefresh_quiet {s0 : State} {s : State} {p : Port} (hq : s0.Quiet s) :
    s0.Quiet (State.ptpRefresh s p) := by
  unfold State.ptpRefresh
  repeat' first | with_reducible assumption | with_reducible apply State.ptpPublish_quiet | with_reducible apply State.selectTime_quiet | split | with_reducible refine State.Quiet.of_fst (by assumption) ?_

theorem execPtpAnnounce_quiet {s0 : State} {t : Tick} {p : Port} {a : Announce} {s : State} (hq : s0.Quiet s) :
    s0.QuietOut (execPtpAnnounce t p a s) := by
  unfold execPtpAnnounce
  try extract_lets y1 y2 y3
  try
    have k1 : s0.Quiet y1 := by
      dsimp only [y1]
      repeat' first | with_reducible assumption | with_reducible apply State.at_quiet | split | with_reducible refine State.Quiet.of_fst (by assumption) ?_
    clear_value y1
  repeat' first | with_reducible assumption | with_reducible apply State.QuietOut.next | with_reducible exact State.QuietOut.fault | with_reducible apply State.setPtp_quiet | with_reducible apply State.ptpRefresh_quiet | split | with_reducible refine State.Quiet.of_fst (by assumption) ?_ | fail_if_no_progress with_reducible refine State.Quiet.other ?_ rfl rfl rfl rfl rfl rfl rfl

theorem execPtpAnnounceTimeout_quiet {s0 : State} {t : Tick} {p : Port} {s : State} (hq : s0.Quiet s) :
    s0.QuietOut (execPtpAnnounceTimeout t p s) := by
  unfold execPtpAnnounceTimeout
  try extract_lets y1 y2 y3 y4 y5
  try
    have k1 : s0.Quiet y1 := by
      dsimp only [y1]
      repeat' first | with_reducible assumption | with_reducible apply State.at_quiet | split | with_reducible refine State.Quiet.of_fst (by assumption) ?_
    clear_value y1
  repeat' first | with_reducible assumption | with_reducible apply State.QuietOut.next | with_reducible exact State.QuietOut.fault | with_reducible apply State.setPtp_quiet | with_reducible apply State.ptpRefresh_quiet | split | with_reducible refine State.Quiet.of_fst (by assumption) ?_ | fail_if_no_progress with_reducible refine State.Quiet.other ?_ rfl rfl rfl rfl rfl rfl rfl

theorem State.ptpMeasure_quiet {s0 : State} {s : State} {p : Port} (hq : s0.Quiet s) :
    s0.Quiet (State.ptpMeasure s p) := by
  unfold State.ptpMeasure
  try extract_lets y1
  repeat' first | with_reducible assumption | with_reducible apply State.setPtp_quiet | with_reducible apply State.ptpRefresh_quiet | with_reducible apply State.measurePhi_quiet | with_reducible apply State.judgeTime_quiet | split | with_reducible refine State.Quiet.of_fst (by assumption) ?_ | fail_if_no_progress with_reducible refine State.Quiet.other ?_ rfl rfl rfl rfl rfl rfl rfl | dsimp only

theorem execPtpSync_quiet {s0 : State} {t : Tick} {p : Port} {master : BitVec 64} {seq : Nat} {twoStep : Bool} {t1 : Stamp} {rx : Stamp} {s : State} (hq : s0.Quiet s) :
    s0.QuietOut (execPtpSync t p master seq twoStep t1 rx s) := by
  unfold execPtpSync
  try extract_lets y1 y2
  try
    have k1 : s0.Quiet y1 := by
      dsimp only [y1]
      repeat' first | with_reducible assumption | with_reducible apply State.at_quiet | split | with_reducible refine State.Quiet.of_fst (by assumption) ?_
    clear_value y1
  repeat' first | with_reducible assumption | with_reducible apply State.QuietOut.next | with_reducible exact State.QuietOut.fault | with_reducible apply State.setPtp_quiet | with_reducible apply State.ptpMeasure_quiet | split | with_reducible refine State.Quiet.of_fst (by assumption) ?_

theorem execPtpFollowUp_quiet {s0 : State} {t : Tick} {p : Port} {master : BitVec 64} {seq : Nat} {t1 : Stamp} {s : State} (hq : s0.Quiet s) :
    s0.QuietOut (execPtpFollowUp t p master seq t1 s) := by
  unfold execPtpFollowUp
  try extract_lets y1 y2
  try
    have k1 : s0.Quiet y1 := by
      dsimp only [y1]
      repeat' first | with_reducible assumption | with_reducible apply State.at_quiet | split | with_reducible refine State.Quiet.of_fst (by assumption) ?_
    clear_value y1
  repeat' first | with_reducible assumption | with_reducible apply State.QuietOut.next | with_reducible exact State.QuietOut.fault | with_reducible apply State.at_quiet | with_reducible apply State.setPtp_quiet | with_reducible apply State.ptpMeasure_quiet | split | with_reducible refine State.Quiet.of_fst (by assumption) ?_ | dsimp only

theorem execPtpDelayReqSend_quiet {s0 : State} {t : Tick} {p : Port} {tx : Stamp} {s : State} (hq : s0.Quiet s) :
    s0.QuietOut (execPtpDelayReqSend t p tx s) := by
  unfold execPtpDelayReqSend
  try extract_lets y1 y2 y3
  try
    have k1 : s0.Quiet y1 := by
      dsimp only [y1]
      repeat' first | with_reducible assumption | with_reducible apply State.at_quiet | split | with_reducible refine State.Quiet.of_fst (by assumption) ?_
    clear_value y1
  repeat' first | with_reducible assumption | with_reducible apply State.QuietOut.next | with_reducible exact State.QuietOut.fault | with_reducible apply State.setPtp_quiet | with_reducible apply State.emit_quiet | split | with_reducible refine State.Quiet.of_fst (by assumption) ?_

theorem execPtpDelayResp_quiet {s0 : State} {t : Tick} {p : Port} {master : BitVec 64} {seq : Nat} {t4 : Stamp} {s : State} (hq : s0.Quiet s) :
    s0.QuietOut (execPtpDelayResp t p master seq t4 s) := by
  unfold execPtpDelayResp
  try extract_lets y1 y2
  try
    have k1 : s0.Quiet y1 := by
      dsimp only [y1]
      repeat' first | with_reducible assumption | with_reducible apply State.at_quiet | split | with_reducible refine State.Quiet.of_fst (by assumption) ?_
    clear_value y1
  repeat' first | with_reducible assumption | with_reducible apply State.QuietOut.next | with_reducible exact State.QuietOut.fault | with_reducible apply State.at_quiet | with_reducible apply State.setPtp_quiet | with_reducible apply State.ptpMeasure_quiet | split | with_reducible refine State.Quiet.of_fst (by assumption) ?_ | dsimp only

theorem execPtpPdelayResp_quiet {s0 : State} {t : Tick} {p : Port} {seq : Nat} {t2 t3 t4 : Stamp} {s : State} (hq : s0.Quiet s) :
    s0.QuietOut (execPtpPdelayResp t p seq t2 t3 t4 s) := by
  unfold execPtpPdelayResp
  try extract_lets y1 y2
  try
    have k1 : s0.Quiet y1 := by
      dsimp only [y1]
      repeat' first | with_reducible assumption | with_reducible apply State.at_quiet | split | with_reducible refine State.Quiet.of_fst (by assumption) ?_
    clear_value y1
  repeat' first | with_reducible assumption | with_reducible apply State.QuietOut.next | with_reducible exact State.QuietOut.fault | with_reducible apply State.at_quiet | with_reducible apply State.setPtp_quiet | with_reducible apply State.ptpMeasure_quiet | split | with_reducible refine State.Quiet.of_fst (by assumption) ?_ | dsimp only

theorem execPtpUnsupportedMessage_quiet {s0 : State} {t : Tick} {_p : Port} {_kind : PtpUnsupported} {s : State} (hq : s0.Quiet s) :
    s0.QuietOut (execPtpUnsupportedMessage t _p _kind s) := by
  unfold execPtpUnsupportedMessage
  repeat' first | with_reducible assumption | with_reducible apply State.QuietOut.next | with_reducible exact State.QuietOut.fault | with_reducible apply State.at_quiet | split | with_reducible refine State.Quiet.of_fst (by assumption) ?_

theorem State.setTdc_quiet {s0 : State} {s : State} {k : Nat} {x : TdcIn} (hq : s0.Quiet s) :
    s0.Quiet (State.setTdc s k x) := by
  unfold State.setTdc
  try extract_lets y1
  repeat' first | with_reducible assumption | with_reducible apply State.withTime_quiet | split | with_reducible refine State.Quiet.of_fst (by assumption) ?_

theorem State.tdcStamp_quiet {s0 : State} {s : State} {k : Nat} {rising : Bool} {edge : Nat} {time : Stamp} (hq : s0.Quiet s) :
    s0.Quiet (State.tdcStamp s k rising edge time) := by
  unfold State.tdcStamp
  try extract_lets y1 y2 y3
  try
    have k2 : s0.Quiet y2 := by
      dsimp only [y2]
      repeat' first | with_reducible assumption | with_reducible apply State.setTdc_quiet | with_reducible apply State.bump_quiet | split | with_reducible refine State.Quiet.of_fst (by assumption) ?_
    clear_value y2
  repeat' first | with_reducible assumption | with_reducible apply State.raise_quiet | with_reducible apply State.setTdc_quiet | with_reducible apply State.roSet_quiet | split | with_reducible refine State.Quiet.of_fst (by assumption) ?_

theorem execTdcEdge_quiet {s0 : State} {t : Tick} {input : Nat} {rising : Bool} {subPs : Nat} {s : State} (hq : s0.Quiet s) :
    s0.QuietOut (execTdcEdge t input rising subPs s) := by
  unfold execTdcEdge
  try extract_lets y1 y2 y3 y4 y5
  try
    have k1 : s0.Quiet y1 := by
      dsimp only [y1]
      repeat' first | with_reducible assumption | with_reducible apply State.at_quiet | split | with_reducible refine State.Quiet.of_fst (by assumption) ?_
    clear_value y1
  try
    have k5 : s0.Quiet y5 := by
      dsimp only [y5]
      repeat' first | with_reducible assumption | with_reducible apply State.setTdc_quiet | split | with_reducible refine State.Quiet.of_fst (by assumption) ?_
    clear_value y5
  repeat' first | with_reducible assumption | with_reducible apply State.QuietOut.next | with_reducible exact State.QuietOut.fault | with_reducible apply State.setTdc_quiet | with_reducible apply State.bump_quiet | with_reducible apply State.tdcStamp_quiet | split | with_reducible refine State.Quiet.of_fst (by assumption) ?_

theorem State.tdcDrain_quiet {s0 : State} {s : State} {k : Nat} (hq : s0.Quiet s) :
    s0.Quiet (State.tdcDrain s k).1 := by
  unfold State.tdcDrain
  try extract_lets y1
  repeat' first | with_reducible assumption | with_reducible apply State.setTdc_quiet | split | with_reducible refine State.Quiet.of_fst (by assumption) ?_ | dsimp only

theorem execTdcStampDrain_quiet {s0 : State} {t : Tick} {input : Nat} {s : State} (hq : s0.Quiet s) :
    s0.QuietOut (execTdcStampDrain t input s) := by
  unfold execTdcStampDrain
  repeat' first | with_reducible assumption | with_reducible apply State.QuietOut.next | with_reducible exact State.QuietOut.fault | with_reducible apply State.at_quiet | with_reducible apply State.tdcDrain_quiet | split | with_reducible refine State.Quiet.of_fst (by assumption) ?_

theorem execTdcGateFit_quiet {s0 : State} {t : Tick} {input : Nat} {s : State} (hq : s0.Quiet s) :
    s0.QuietOut (execTdcGateFit t input s) := by
  unfold execTdcGateFit
  try extract_lets y1 y2 y3 y4 y5 y6 y7 y8 y9 y10 y11
  try
    have k1 : s0.Quiet y1 := by
      dsimp only [y1]
      repeat' first | with_reducible assumption | with_reducible apply State.at_quiet | split | with_reducible refine State.Quiet.of_fst (by assumption) ?_
    clear_value y1
  try
    have k4 : s0.Quiet y4 := by
      dsimp only [y4]
      repeat' first | with_reducible assumption | with_reducible apply State.setTdc_quiet | with_reducible apply State.roSet_quiet | split | with_reducible refine State.Quiet.of_fst (by assumption) ?_
    clear_value y4
  repeat' first | with_reducible assumption | with_reducible apply State.QuietOut.next | with_reducible exact State.QuietOut.fault | with_reducible apply State.roSet_quiet | with_reducible apply State.roSetInt_quiet | split | with_reducible refine State.Quiet.of_fst (by assumption) ?_

theorem execPpsOutEdge_quiet {s0 : State} {t : Tick} {s : State} (hq : s0.Quiet s) :
    s0.QuietOut (execPpsOutEdge t s) := by
  unfold execPpsOutEdge
  try extract_lets y1 y2 y3
  try
    have k1 : s0.Quiet y1 := by
      dsimp only [y1]
      repeat' first | with_reducible assumption | with_reducible apply State.at_quiet | split | with_reducible refine State.Quiet.of_fst (by assumption) ?_
    clear_value y1
  repeat' first | with_reducible assumption | with_reducible apply State.QuietOut.next | with_reducible exact State.QuietOut.fault | with_reducible apply State.withTime_quiet | with_reducible apply State.emit_quiet | split | with_reducible refine State.Quiet.of_fst (by assumption) ?_

theorem execPpsOutFall_quiet {s0 : State} {t : Tick} {s : State} (hq : s0.Quiet s) :
    s0.QuietOut (execPpsOutFall t s) := by
  unfold execPpsOutFall
  try extract_lets y1 y2
  try
    have k1 : s0.Quiet y1 := by
      dsimp only [y1]
      repeat' first | with_reducible assumption | with_reducible apply State.at_quiet | split | with_reducible refine State.Quiet.of_fst (by assumption) ?_
    clear_value y1
  repeat' first | with_reducible assumption | with_reducible apply State.QuietOut.next | with_reducible exact State.QuietOut.fault | with_reducible apply State.withTime_quiet | with_reducible apply State.emit_quiet | split | with_reducible refine State.Quiet.of_fst (by assumption) ?_

end Sys2Proof.Machine
end

