-- ==== Sys2Proof/Laws/KeepsOptical.lean ====
section
/-! SUPPORT. What the operations of Machine/Optical.lean keep. -/

set_option linter.unusedTactic false
set_option linter.unreachableTactic false
set_option linter.unusedVariables false

namespace Sys2Proof.Machine

theorem State.setPortSt_quiet {s0 : State} {s : State} {p : Port} {x : PortSt} (hq : s0.Quiet s) :
    s0.Quiet (State.setPortSt s p x) := by
  unfold State.setPortSt
  try extract_lets y1
  repeat' first | with_reducible assumption | split | with_reducible refine State.Quiet.of_fst (by assumption) ?_ | fail_if_no_progress with_reducible refine State.Quiet.other ?_ rfl rfl rfl rfl rfl rfl rfl | dsimp only

theorem State.setFrame_quiet {s0 : State} {s : State} {p : Port} {x : FrameSt} (hq : s0.Quiet s) :
    s0.Quiet (State.setFrame s p x) := by
  unfold State.setFrame
  try extract_lets y1
  repeat' first | with_reducible assumption | split | with_reducible refine State.Quiet.of_fst (by assumption) ?_ | fail_if_no_progress with_reducible refine State.Quiet.other ?_ rfl rfl rfl rfl rfl rfl rfl | dsimp only

theorem State.setSeed_quiet {s0 : State} {s : State} {d : Seed} {x : SeedSt} (hq : s0.Quiet s) :
    s0.Quiet (State.setSeed s d x) := by
  unfold State.setSeed
  try extract_lets y1
  repeat' first | with_reducible assumption | split | with_reducible refine State.Quiet.of_fst (by assumption) ?_ | fail_if_no_progress with_reducible refine State.Quiet.other ?_ rfl rfl rfl rfl rfl rfl rfl | dsimp only

theorem State.setSeedStatus_quiet {s0 : State} {s : State} {d : Seed} {v : Nat} (hq : s0.Quiet s) :
    s0.Quiet (State.setSeedStatus s d v) := by
  unfold State.setSeedStatus
  repeat' first | with_reducible assumption | with_reducible apply State.roSet_quiet | split | with_reducible refine State.Quiet.of_fst (by assumption) ?_

theorem State.publishPower_quiet {s0 : State} {s : State} {set : PSet} {p : Port} {period : Nat} (hq : s0.Quiet s) :
    s0.Quiet (State.publishPower s set p period) := by
  unfold State.publishPower
  repeat' first | with_reducible assumption | with_reducible apply State.roSet_quiet | with_reducible apply State.Quiet.foldl | with_reducible apply State.Quiet.eachPort | with_reducible exact State.Quiet.refl _ | with_reducible intro _ _ | split | with_reducible refine State.Quiet.of_fst (by assumption) ?_ | fail_if_no_progress with_reducible refine State.Quiet.other ?_ rfl rfl rfl rfl rfl rfl rfl | dsimp only

theorem State.rampStep_quiet {s0 : State} {s : State} {p : Port} {from_ : Tick} {step : Nat} {peak : Int} (hq : s0.Quiet s) :
    s0.Quiet (State.rampStep s p from_ step peak) := by
  unfold State.rampStep
  try extract_lets y1 y2
  repeat' first | with_reducible assumption | with_reducible apply State.emit_quiet | with_reducible apply State.Quiet.foldl | with_reducible apply State.Quiet.eachPort | with_reducible exact State.Quiet.refl _ | with_reducible intro _ _ | split | with_reducible refine State.Quiet.of_fst (by assumption) ?_ | fail_if_no_progress with_reducible refine State.Quiet.other ?_ rfl rfl rfl rfl rfl rfl rfl | dsimp only

theorem State.profileLight_quiet {s0 : State} {s : State} {p : Port} {from_ : Tick} {period : Nat} (hq : s0.Quiet s) :
    s0.Quiet (State.profileLight s p from_ period) := by
  unfold State.profileLight
  try extract_lets y1 y2 y3 y4
  repeat' first | with_reducible assumption | with_reducible apply State.emit_quiet | with_reducible apply State.Quiet.foldl | with_reducible apply State.Quiet.eachPort | with_reducible exact State.Quiet.refl _ | with_reducible intro _ _ | split | with_reducible refine State.Quiet.of_fst (by assumption) ?_ | fail_if_no_progress with_reducible refine State.Quiet.other ?_ rfl rfl rfl rfl rfl rfl rfl | dsimp only

theorem State.phaseLight_quiet {s0 : State} {s : State} {p : Port} (hq : s0.Quiet s) :
    s0.Quiet (State.phaseLight s p) := by
  unfold State.phaseLight
  repeat' first | with_reducible assumption | with_reducible apply State.emit_quiet | with_reducible apply State.rampStep_quiet | with_reducible apply State.profileLight_quiet | with_reducible apply State.Quiet.foldl | with_reducible apply State.Quiet.eachPort | with_reducible exact State.Quiet.refl _ | with_reducible intro _ _ | split | with_reducible refine State.Quiet.of_fst (by assumption) ?_ | fail_if_no_progress with_reducible refine State.Quiet.other ?_ rfl rfl rfl rfl rfl rfl rfl | dsimp only

theorem State.dtsMove_quiet {s0 : State} {s : State} {to_ : Port} {delay : Nat} (hq : s0.Quiet s) :
    s0.Quiet (State.dtsMove s to_ delay) := by
  unfold State.dtsMove
  try extract_lets y1 y2
  repeat' first | with_reducible assumption | split | with_reducible refine State.Quiet.of_fst (by assumption) ?_ | fail_if_no_progress with_reducible refine State.Quiet.other ?_ rfl rfl rfl rfl rfl rfl rfl

theorem State.dtsCheck_quiet {s0 : State} {s : State} (hq : s0.Quiet s) :
    s0.Quiet (State.dtsCheck s) := by
  unfold State.dtsCheck
  repeat' first | with_reducible assumption | with_reducible apply State.dtsMove_quiet | split | with_reducible refine State.Quiet.of_fst (by assumption) ?_

theorem State.pipelineResetAt_quiet {s0 : State} {s : State} {p : Port} {tick : Tick} (hq : s0.Quiet s) :
    s0.Quiet (State.pipelineResetAt s p tick) := by
  unfold State.pipelineResetAt
  try extract_lets y1 y2 y3 y4 y5 y6
  try
    have k4 : s0.Quiet y4 := by
      dsimp only [y4]
      repeat' first | with_reducible assumption | with_reducible apply State.setCoh_quiet | with_reducible apply State.setFrame_quiet | with_reducible apply State.roSet_quiet | with_reducible apply State.Quiet.foldl | with_reducible apply State.Quiet.eachPort | with_reducible exact State.Quiet.refl _ | with_reducible intro _ _ | split | with_reducible refine State.Quiet.of_fst (by assumption) ?_ | fail_if_no_progress with_reducible refine State.Quiet.other ?_ rfl rfl rfl rfl rfl rfl rfl | dsimp only
    clear_value y4
  try
    have k5 : s0.Quiet y5 := by
      dsimp only [y5]
      repeat' first | with_reducible assumption | with_reducible apply State.setCoh_quiet | with_reducible apply State.setFrame_quiet | with_reducible apply State.roSet_quiet | with_reducible apply State.Quiet.foldl | with_reducible apply State.Quiet.eachPort | with_reducible exact State.Quiet.refl _ | with_reducible intro _ _ | split | with_reducible refine State.Quiet.of_fst (by assumption) ?_ | fail_if_no_progress with_reducible refine State.Quiet.other ?_ rfl rfl rfl rfl rfl rfl rfl | dsimp only
    clear_value y5
  repeat' first | with_reducible assumption | with_reducible apply State.setCoh_quiet | with_reducible apply State.setFrame_quiet | with_reducible apply State.roSet_quiet | with_reducible apply State.Quiet.foldl | with_reducible apply State.Quiet.eachPort | with_reducible exact State.Quiet.refl _ | with_reducible intro _ _ | split | with_reducible refine State.Quiet.of_fst (by assumption) ?_ | fail_if_no_progress with_reducible refine State.Quiet.other ?_ rfl rfl rfl rfl rfl rfl rfl | dsimp only

theorem State.pipelineReset_quiet {s0 : State} {s : State} {p : Port} (hq : s0.Quiet s) :
    s0.Quiet (State.pipelineReset s p) := by
  unfold State.pipelineReset
  repeat' first | with_reducible assumption | with_reducible apply State.pipelineResetAt_quiet | with_reducible apply State.Quiet.foldl | with_reducible apply State.Quiet.eachPort | with_reducible exact State.Quiet.refl _ | with_reducible intro _ _ | split | with_reducible refine State.Quiet.of_fst (by assumption) ?_ | fail_if_no_progress with_reducible refine State.Quiet.other ?_ rfl rfl rfl rfl rfl rfl rfl | dsimp only

theorem State.setLock_quiet {s0 : State} {s : State} {v : Nat} (hq : s0.Quiet s) :
    s0.Quiet (State.setLock s v) := by
  unfold State.setLock
  repeat' first | with_reducible assumption | with_reducible apply State.roSet_quiet | with_reducible apply State.raise_quiet | split | with_reducible refine State.Quiet.of_fst (by assumption) ?_

theorem State.withLock_quiet {s0 : State} {s : State} {l : Lock} (hq : s0.Quiet s) :
    s0.Quiet (State.withLock s l) := by
  unfold State.withLock
  try extract_lets y1
  repeat' first | with_reducible assumption | split | with_reducible refine State.Quiet.of_fst (by assumption) ?_ | fail_if_no_progress with_reducible refine State.Quiet.other ?_ rfl rfl rfl rfl rfl rfl rfl

theorem State.framesStart_quiet {s0 : State} {s : State} {p : Port} (hq : s0.Quiet s) :
    s0.Quiet (State.framesStart s p) := by
  unfold State.framesStart
  try extract_lets y1 y2 y3 y4 y5
  try
    have k2 : s0.Quiet y2 := by
      dsimp only [y2]
      repeat' first | with_reducible assumption | with_reducible apply State.setCoh_quiet | with_reducible apply State.roSet_quiet | with_reducible apply State.setFrame_quiet | with_reducible apply State.withLock_quiet | with_reducible apply State.setLock_quiet | with_reducible apply State.Quiet.foldl | with_reducible apply State.Quiet.eachPort | with_reducible exact State.Quiet.refl _ | with_reducible intro _ _ | split | with_reducible refine State.Quiet.of_fst (by assumption) ?_ | fail_if_no_progress with_reducible refine State.Quiet.other ?_ rfl rfl rfl rfl rfl rfl rfl | dsimp only
    clear_value y2
  try
    have k3 : s0.Quiet y3 := by
      dsimp only [y3]
      repeat' first | with_reducible assumption | with_reducible apply State.setCoh_quiet | with_reducible apply State.roSet_quiet | with_reducible apply State.setFrame_quiet | with_reducible apply State.withLock_quiet | with_reducible apply State.setLock_quiet | with_reducible apply State.Quiet.foldl | with_reducible apply State.Quiet.eachPort | with_reducible exact State.Quiet.refl _ | with_reducible intro _ _ | split | with_reducible refine State.Quiet.of_fst (by assumption) ?_ | fail_if_no_progress with_reducible refine State.Quiet.other ?_ rfl rfl rfl rfl rfl rfl rfl | dsimp only
    clear_value y3
  try
    have k4 : s0.Quiet y4 := by
      dsimp only [y4]
      repeat' first | with_reducible assumption | with_reducible apply State.setCoh_quiet | with_reducible apply State.roSet_quiet | with_reducible apply State.setFrame_quiet | with_reducible apply State.withLock_quiet | with_reducible apply State.setLock_quiet | with_reducible apply State.Quiet.foldl | with_reducible apply State.Quiet.eachPort | with_reducible exact State.Quiet.refl _ | with_reducible intro _ _ | split | with_reducible refine State.Quiet.of_fst (by assumption) ?_ | fail_if_no_progress with_reducible refine State.Quiet.other ?_ rfl rfl rfl rfl rfl rfl rfl | dsimp only
    clear_value y4
  repeat' first | with_reducible assumption | with_reducible apply State.setCoh_quiet | with_reducible apply State.roSet_quiet | with_reducible apply State.setFrame_quiet | with_reducible apply State.withLock_quiet | with_reducible apply State.setLock_quiet | with_reducible apply State.Quiet.foldl | with_reducible apply State.Quiet.eachPort | with_reducible exact State.Quiet.refl _ | with_reducible intro _ _ | split | with_reducible refine State.Quiet.of_fst (by assumption) ?_ | fail_if_no_progress with_reducible refine State.Quiet.other ?_ rfl rfl rfl rfl rfl rfl rfl | dsimp only

theorem State.toBus_quiet {s0 : State} {s : State} {p : Port} (hq : s0.Quiet s) :
    s0.Quiet (State.toBus s p) := by
  unfold State.toBus
  try extract_lets y1 y2
  repeat' first | with_reducible assumption | with_reducible apply State.setFrame_quiet | with_reducible apply State.withLock_quiet | with_reducible apply State.setLock_quiet | with_reducible apply State.Quiet.foldl | with_reducible apply State.Quiet.eachPort | with_reducible exact State.Quiet.refl _ | with_reducible intro _ _ | split | with_reducible refine State.Quiet.of_fst (by assumption) ?_ | fail_if_no_progress with_reducible refine State.Quiet.other ?_ rfl rfl rfl rfl rfl rfl rfl | dsimp only

theorem State.regridTo_quiet {s0 : State} {s : State} {p : Port} {next : Tick} (hq : s0.Quiet s) :
    s0.Quiet (State.regridTo s p next) := by
  unfold State.regridTo
  try extract_lets y1 y2
  repeat' first | with_reducible assumption | with_reducible apply State.setFrame_quiet | with_reducible apply State.Quiet.foldl | with_reducible apply State.Quiet.eachPort | with_reducible exact State.Quiet.refl _ | with_reducible intro _ _ | split | with_reducible refine State.Quiet.of_fst (by assumption) ?_ | fail_if_no_progress with_reducible refine State.Quiet.other ?_ rfl rfl rfl rfl rfl rfl rfl | dsimp only

theorem State.firstAt_quiet {s0 : State} {s : State} {p : Port} {next : Tick} (hq : s0.Quiet s) :
    s0.Quiet (State.firstAt s p next) := by
  unfold State.firstAt
  repeat' first | with_reducible assumption | with_reducible apply State.setFrame_quiet | with_reducible apply State.Quiet.foldl | with_reducible apply State.Quiet.eachPort | with_reducible exact State.Quiet.refl _ | with_reducible intro _ _ | split | with_reducible refine State.Quiet.of_fst (by assumption) ?_ | fail_if_no_progress with_reducible refine State.Quiet.other ?_ rfl rfl rfl rfl rfl rfl rfl | dsimp only

theorem State.freeRun_quiet {s0 : State} {s : State} {p : Port} (hq : s0.Quiet s) :
    s0.Quiet (State.freeRun s p) := by
  unfold State.freeRun
  repeat' first | with_reducible assumption | with_reducible apply State.firstAt_quiet | with_reducible apply State.Quiet.foldl | with_reducible apply State.Quiet.eachPort | with_reducible exact State.Quiet.refl _ | with_reducible intro _ _ | split | with_reducible refine State.Quiet.of_fst (by assumption) ?_ | fail_if_no_progress with_reducible refine State.Quiet.other ?_ rfl rfl rfl rfl rfl rfl rfl | dsimp only

theorem State.framesStop_quiet {s0 : State} {s : State} {p : Port} (hq : s0.Quiet s) :
    s0.Quiet (State.framesStop s p) := by
  unfold State.framesStop
  try extract_lets y1 y2 y3
  try
    have k1 : s0.Quiet y1 := by
      dsimp only [y1]
      repeat' first | with_reducible assumption | with_reducible apply State.closePort_quiet | with_reducible apply State.dtsCut_quiet | with_reducible apply State.setFrame_quiet | with_reducible apply State.roSet_quiet | with_reducible apply State.setCoh_quiet | with_reducible apply State.Quiet.foldl | with_reducible apply State.Quiet.eachPort | with_reducible exact State.Quiet.refl _ | with_reducible intro _ _ | split | with_reducible refine State.Quiet.of_fst (by assumption) ?_ | fail_if_no_progress with_reducible refine State.Quiet.other ?_ rfl rfl rfl rfl rfl rfl rfl | dsimp only
    clear_value y1
  try
    have k2 : s0.Quiet y2 := by
      dsimp only [y2]
      repeat' first | with_reducible assumption | with_reducible apply State.closePort_quiet | with_reducible apply State.dtsCut_quiet | with_reducible apply State.setFrame_quiet | with_reducible apply State.roSet_quiet | with_reducible apply State.setCoh_quiet | with_reducible apply State.Quiet.foldl | with_reducible apply State.Quiet.eachPort | with_reducible exact State.Quiet.refl _ | with_reducible intro _ _ | split | with_reducible refine State.Quiet.of_fst (by assumption) ?_ | fail_if_no_progress with_reducible refine State.Quiet.other ?_ rfl rfl rfl rfl rfl rfl rfl | dsimp only
    clear_value y2
  repeat' first | with_reducible assumption | with_reducible apply State.closePort_quiet | with_reducible apply State.dtsCut_quiet | with_reducible apply State.setFrame_quiet | with_reducible apply State.roSet_quiet | with_reducible apply State.setCoh_quiet | with_reducible apply State.Quiet.foldl | with_reducible apply State.Quiet.eachPort | with_reducible exact State.Quiet.refl _ | with_reducible intro _ _ | split | with_reducible refine State.Quiet.of_fst (by assumption) ?_ | fail_if_no_progress with_reducible refine State.Quiet.other ?_ rfl rfl rfl rfl rfl rfl rfl | dsimp only

theorem State.enterPort_quiet {s0 : State} {s : State} {p : Port} {code : Nat} (hq : s0.Quiet s) :
    s0.Quiet (State.enterPort s p code) := by
  unfold State.enterPort
  extract_lets y1 y2 y3 y4 y5 y6 y7 y8 y9 y10 y11 y12 y13 y14
  try clear_value y1
  first
    | (have k2 : s0.Quiet y2 := by (dsimp only [y2]; repeat' first | with_reducible assumption | with_reducible apply State.phaseLight_quiet | with_reducible apply State.raise_quiet | with_reducible apply State.setClamp_quiet | with_reducible apply State.roSet_quiet | with_reducible apply State.framesStop_quiet | with_reducible apply State.framesStart_quiet | with_reducible apply State.pipelineReset_quiet | with_reducible apply State.setDts_quiet | with_reducible apply State.setPortSt_quiet | with_reducible apply State.dtsCheck_quiet | with_reducible apply State.Quiet.foldl | with_reducible apply State.Quiet.eachPort | with_reducible exact State.Quiet.refl _ | with_reducible intro _ _ | split | with_reducible refine State.Quiet.of_fst (by assumption) ?_ | fail_if_no_progress with_reducible refine State.Quiet.other ?_ rfl rfl rfl rfl rfl rfl rfl | dsimp only)
       clear_value y2)
    | clear_value y2
    | skip
  first
    | (have k3 : s0.Quiet y3 := by (dsimp only [y3]; repeat' first | with_reducible assumption | with_reducible apply State.phaseLight_quiet | with_reducible apply State.raise_quiet | with_reducible apply State.setClamp_quiet | with_reducible apply State.roSet_quiet | with_reducible apply State.framesStop_quiet | with_reducible apply State.framesStart_quiet | with_reducible apply State.pipelineReset_quiet | with_reducible apply State.setDts_quiet | with_reducible apply State.setPortSt_quiet | with_reducible apply State.dtsCheck_quiet | with_reducible apply State.Quiet.foldl | with_reducible apply State.Quiet.eachPort | with_reducible exact State.Quiet.refl _ | with_reducible intro _ _ | split | with_reducible refine State.Quiet.of_fst (by assumption) ?_ | fail_if_no_progress with_reducible refine State.Quiet.other ?_ rfl rfl rfl rfl rfl rfl rfl | dsimp only)
       clear_value y3)
    | clear_value y3
    | skip
  first
    | (have k4 : s0.Quiet y4 := by (dsimp only [y4]; repeat' first | with_reducible assumption | with_reducible apply State.phaseLight_quiet | with_reducible apply State.raise_quiet | with_reducible apply State.setClamp_quiet | with_reducible apply State.roSet_quiet | with_reducible apply State.framesStop_quiet | with_reducible apply State.framesStart_quiet | with_reducible apply State.pipelineReset_quiet | with_reducible apply State.setDts_quiet | with_reducible apply State.setPortSt_quiet | with_reducible apply State.dtsCheck_quiet | with_reducible apply State.Quiet.foldl | with_reducible apply State.Quiet.eachPort | with_reducible exact State.Quiet.refl _ | with_reducible intro _ _ | split | with_reducible refine State.Quiet.of_fst (by assumption) ?_ | fail_if_no_progress with_reducible refine State.Quiet.other ?_ rfl rfl rfl rfl rfl rfl rfl | dsimp only)
       clear_value y4)
    | clear_value y4
    | skip
  first
    | (have k5 : s0.Quiet y5 := by (dsimp only [y5]; repeat' first | with_reducible assumption | with_reducible apply State.phaseLight_quiet | with_reducible apply State.raise_quiet | with_reducible apply State.setClamp_quiet | with_reducible apply State.roSet_quiet | with_reducible apply State.framesStop_quiet | with_reducible apply State.framesStart_quiet | with_reducible apply State.pipelineReset_quiet | with_reducible apply State.setDts_quiet | with_reducible apply State.setPortSt_quiet | with_reducible apply State.dtsCheck_quiet | with_reducible apply State.Quiet.foldl | with_reducible apply State.Quiet.eachPort | with_reducible exact State.Quiet.refl _ | with_reducible intro _ _ | split | with_reducible refine State.Quiet.of_fst (by assumption) ?_ | fail_if_no_progress with_reducible refine State.Quiet.other ?_ rfl rfl rfl rfl rfl rfl rfl | dsimp only)
       clear_value y5)
    | clear_value y5
    | skip
  first
    | (have k6 : s0.Quiet y6 := by (dsimp only [y6]; repeat' first | with_reducible assumption | with_reducible apply State.phaseLight_quiet | with_reducible apply State.raise_quiet | with_reducible apply State.setClamp_quiet | with_reducible apply State.roSet_quiet | with_reducible apply State.framesStop_quiet | with_reducible apply State.framesStart_quiet | with_reducible apply State.pipelineReset_quiet | with_reducible apply State.setDts_quiet | with_reducible apply State.setPortSt_quiet | with_reducible apply State.dtsCheck_quiet | with_reducible apply State.Quiet.foldl | with_reducible apply State.Quiet.eachPort | with_reducible exact State.Quiet.refl _ | with_reducible intro _ _ | split | with_reducible refine State.Quiet.of_fst (by assumption) ?_ | fail_if_no_progress with_reducible refine State.Quiet.other ?_ rfl rfl rfl rfl rfl rfl rfl | dsimp only)
       clear_value y6)
    | clear_value y6
    | skip
  first
    | (have k7 : s0.Quiet y7 := by (dsimp only [y7]; repeat' first | with_reducible assumption | with_reducible apply State.phaseLight_quiet | with_reducible apply State.raise_quiet | with_reducible apply State.setClamp_quiet | with_reducible apply State.roSet_quiet | with_reducible apply State.framesStop_quiet | with_reducible apply State.framesStart_quiet | with_reducible apply State.pipelineReset_quiet | with_reducible apply State.setDts_quiet | with_reducible apply State.setPortSt_quiet | with_reducible apply State.dtsCheck_quiet | with_reducible apply State.Quiet.foldl | with_reducible apply State.Quiet.eachPort | with_reducible exact State.Quiet.refl _ | with_reducible intro _ _ | split | with_reducible refine State.Quiet.of_fst (by assumption) ?_ | fail_if_no_progress with_reducible refine State.Quiet.other ?_ rfl rfl rfl rfl rfl rfl rfl | dsimp only)
       clear_value y7)
    | clear_value y7
    | skip
  first
    | (have k8 : s0.Quiet y8 := by (dsimp only [y8]; repeat' first | with_reducible assumption | with_reducible apply State.phaseLight_quiet | with_reducible apply State.raise_quiet | with_reducible apply State.setClamp_quiet | with_reducible apply State.roSet_quiet | with_reducible apply State.framesStop_quiet | with_reducible apply State.framesStart_quiet | with_reducible apply State.pipelineReset_quiet | with_reducible apply State.setDts_quiet | with_reducible apply State.setPortSt_quiet | with_reducible apply State.dtsCheck_quiet | with_reducible apply State.Quiet.foldl | with_reducible apply State.Quiet.eachPort | with_reducible exact State.Quiet.refl _ | with_reducible intro _ _ | split | with_reducible refine State.Quiet.of_fst (by assumption) ?_ | fail_if_no_progress with_reducible refine State.Quiet.other ?_ rfl rfl rfl rfl rfl rfl rfl | dsimp only)
       clear_value y8)
    | clear_value y8
    | skip
  first
    | (have k9 : s0.Quiet y9 := by (dsimp only [y9]; repeat' first | with_reducible assumption | with_reducible apply State.phaseLight_quiet | with_reducible apply State.raise_quiet | with_reducible apply State.setClamp_quiet | with_reducible apply State.roSet_quiet | with_reducible apply State.framesStop_quiet | with_reducible apply State.framesStart_quiet | with_reducible apply State.pipelineReset_quiet | with_reducible apply State.setDts_quiet | with_reducible apply State.setPortSt_quiet | with_reducible apply State.dtsCheck_quiet | with_reducible apply State.Quiet.foldl | with_reducible apply State.Quiet.eachPort | with_reducible exact State.Quiet.refl _ | with_reducible intro _ _ | split | with_reducible refine State.Quiet.of_fst (by assumption) ?_ | fail_if_no_progress with_reducible refine State.Quiet.other ?_ rfl rfl rfl rfl rfl rfl rfl | dsimp only)
       clear_value y9)
    | clear_value y9
    | skip
  first
    | (have k10 : s0.Quiet y10 := by (dsimp only [y10]; repeat' first | with_reducible assumption | with_reducible apply State.phaseLight_quiet | with_reducible apply State.raise_quiet | with_reducible apply State.setClamp_quiet | with_reducible apply State.roSet_quiet | with_reducible apply State.framesStop_quiet | with_reducible apply State.framesStart_quiet | with_reducible apply State.pipelineReset_quiet | with_reducible apply State.setDts_quiet | with_reducible apply State.setPortSt_quiet | with_reducible apply State.dtsCheck_quiet | with_reducible apply State.Quiet.foldl | with_reducible apply State.Quiet.eachPort | with_reducible exact State.Quiet.refl _ | with_reducible intro _ _ | split | with_reducible refine State.Quiet.of_fst (by assumption) ?_ | fail_if_no_progress with_reducible refine State.Quiet.other ?_ rfl rfl rfl rfl rfl rfl rfl | dsimp only)
       clear_value y10)
    | clear_value y10
    | skip
  first
    | (have k11 : s0.Quiet y11 := by (dsimp only [y11]; repeat' first | with_reducible assumption | with_reducible apply State.phaseLight_quiet | with_reducible apply State.raise_quiet | with_reducible apply State.setClamp_quiet | with_reducible apply State.roSet_quiet | with_reducible apply State.framesStop_quiet | with_reducible apply State.framesStart_quiet | with_reducible apply State.pipelineReset_quiet | with_reducible apply State.setDts_quiet | with_reducible apply State.setPortSt_quiet | with_reducible apply State.dtsCheck_quiet | with_reducible apply State.Quiet.foldl | with_reducible apply State.Quiet.eachPort | with_reducible exact State.Quiet.refl _ | with_reducible intro _ _ | split | with_reducible refine State.Quiet.of_fst (by assumption) ?_ | fail_if_no_progress with_reducible refine State.Quiet.other ?_ rfl rfl rfl rfl rfl rfl rfl | dsimp only)
       clear_value y11)
    | clear_value y11
    | skip
  repeat' first | with_reducible assumption | with_reducible apply State.phaseLight_quiet | with_reducible apply State.raise_quiet | with_reducible apply State.setClamp_quiet | with_reducible apply State.roSet_quiet | with_reducible apply State.framesStop_quiet | with_reducible apply State.framesStart_quiet | with_reducible apply State.pipelineReset_quiet | with_reducible apply State.setDts_quiet | with_reducible apply State.setPortSt_quiet | with_reducible apply State.dtsCheck_quiet | with_reducible apply State.Quiet.foldl | with_reducible apply State.Quiet.eachPort | with_reducible exact State.Quiet.refl _ | with_reducible intro _ _ | split | with_reducible refine State.Quiet.of_fst (by assumption) ?_ | fail_if_no_progress with_reducible refine State.Quiet.other ?_ rfl rfl rfl rfl rfl rfl rfl | dsimp only

theorem State.publishHold_quiet {s0 : State} {s : State} {p : Port} (hq : s0.Quiet s) :
    s0.Quiet (State.publishHold s p) := by
  unfold State.publishHold
  try extract_lets y1 y2
  try
    have k2 : s0.Quiet y2 := by
      dsimp only [y2]
      repeat' first | with_reducible assumption | with_reducible apply State.roSet_quiet | split | with_reducible refine State.Quiet.of_fst (by assumption) ?_
    clear_value y2
  repeat' first | with_reducible assumption | with_reducible apply State.enterPort_quiet | split | with_reducible refine State.Quiet.of_fst (by assumption) ?_

theorem State.discover_quiet {s0 : State} {s : State} {p : Port} (hq : s0.Quiet s) :
    s0.Quiet (State.discover s p) := by
  unfold State.discover
  try extract_lets y1 y2
  try
    have k2 : s0.Quiet y2 := by
      dsimp only [y2]
      repeat' first | with_reducible assumption | with_reducible apply State.setPortSt_quiet | split | with_reducible refine State.Quiet.of_fst (by assumption) ?_
    clear_value y2
  repeat' first | with_reducible assumption | with_reducible apply State.setPortSt_quiet | with_reducible apply State.enterPort_quiet | split | with_reducible refine State.Quiet.of_fst (by assumption) ?_

theorem State.discoveryEnded_quiet {s0 : State} {s : State} {p : Port} (hq : s0.Quiet s) :
    s0.Quiet (State.discoveryEnded s p) := by
  unfold State.discoveryEnded
  try extract_lets y1
  repeat' first | with_reducible assumption | with_reducible apply State.discover_quiet | split | with_reducible refine State.Quiet.of_fst (by assumption) ?_

theorem State.noFibre_quiet {s0 : State} {s : State} {p : Port} (hq : s0.Quiet s) :
    s0.Quiet (State.noFibre s p) := by
  unfold State.noFibre
  try extract_lets y1 y2 y3 y4
  try
    have k3 : s0.Quiet y3 := by
      dsimp only [y3]
      repeat' first | with_reducible assumption | with_reducible apply State.setPortSt_quiet | split | with_reducible refine State.Quiet.of_fst (by assumption) ?_
    clear_value y3
  try
    have k4 : s0.Quiet y4 := by
      dsimp only [y4]
      repeat' first | with_reducible assumption | with_reducible apply State.enterPort_quiet | with_reducible apply State.publishHold_quiet | split | with_reducible refine State.Quiet.of_fst (by assumption) ?_
    clear_value y4
  repeat' first | with_reducible assumption | with_reducible apply State.discoveryEnded_quiet | split | with_reducible refine State.Quiet.of_fst (by assumption) ?_

theorem State.enterApr_quiet {s0 : State} {s : State} {p : Port} {cause : Nat} (hq : s0.Quiet s) :
    s0.Quiet (State.enterApr s p cause) := by
  unfold State.enterApr
  try extract_lets y1 y2 y3 y4 y5
  try
    have k2 : s0.Quiet y2 := by
      dsimp only [y2]
      repeat' first | with_reducible assumption | with_reducible apply State.enterPort_quiet | split | with_reducible refine State.Quiet.of_fst (by assumption) ?_
    clear_value y2
  try
    have k4 : s0.Quiet y4 := by
      dsimp only [y4]
      repeat' first | with_reducible assumption | with_reducible apply State.setPortSt_quiet | split | with_reducible refine State.Quiet.of_fst (by assumption) ?_
    clear_value y4
  try
    have k5 : s0.Quiet y5 := by
      dsimp only [y5]
      repeat' first | with_reducible assumption | with_reducible apply State.raise_quiet | split | with_reducible refine State.Quiet.of_fst (by assumption) ?_
    clear_value y5
  repeat' first | with_reducible assumption | with_reducible apply State.discoveryEnded_quiet | split | with_reducible refine State.Quiet.of_fst (by assumption) ?_

theorem State.leaveApr_quiet {s0 : State} {s : State} {p : Port} {fibre : Bool} (hq : s0.Quiet s) :
    s0.Quiet (State.leaveApr s p fibre) := by
  unfold State.leaveApr
  repeat' first | with_reducible assumption | with_reducible apply State.setPortSt_quiet | with_reducible apply State.discover_quiet | with_reducible apply State.publishHold_quiet | with_reducible apply State.noFibre_quiet | with_reducible apply State.Quiet.foldl | with_reducible apply State.Quiet.eachPort | with_reducible exact State.Quiet.refl _ | with_reducible intro _ _ | split | with_reducible refine State.Quiet.of_fst (by assumption) ?_ | fail_if_no_progress with_reducible refine State.Quiet.other ?_ rfl rfl rfl rfl rfl rfl rfl | dsimp only

theorem State.launchGroup_quiet {s0 : State} {s : State} {p : Port} {tick : Tick} {plan g : Nat} {slots : List Nat} {thin : Bool} (hq : s0.Quiet s) :
    s0.Quiet (State.launchGroup s p tick plan g slots thin) := by
  unfold State.launchGroup
  try extract_lets y1 y2 y3 y4 y5 y6 y7
  try
    have k6 : s0.Quiet y6 := by
      dsimp only [y6]
      repeat' first | with_reducible assumption | with_reducible apply State.setFrame_quiet | with_reducible apply State.emit_quiet | with_reducible apply State.Quiet.foldl | with_reducible apply State.Quiet.eachPort | with_reducible exact State.Quiet.refl _ | with_reducible intro _ _ | split | with_reducible refine State.Quiet.of_fst (by assumption) ?_ | fail_if_no_progress with_reducible refine State.Quiet.other ?_ rfl rfl rfl rfl rfl rfl rfl | dsimp only
    clear_value y6
  repeat' first | with_reducible assumption | with_reducible apply State.setFrame_quiet | with_reducible apply State.emit_quiet | with_reducible apply State.Quiet.foldl | with_reducible apply State.Quiet.eachPort | with_reducible exact State.Quiet.refl _ | with_reducible intro _ _ | split | with_reducible refine State.Quiet.of_fst (by assumption) ?_ | fail_if_no_progress with_reducible refine State.Quiet.other ?_ rfl rfl rfl rfl rfl rfl rfl | dsimp only

theorem State.launchNext_quiet {s0 : State} {s : State} {p : Port} {g : Nat} (hq : s0.Quiet s) :
    s0.Quiet (State.launchNext s p g) := by
  unfold State.launchNext
  try extract_lets y1 y2 y3 y4
  try
    have k3 : s0.Quiet y3 := by
      dsimp only [y3]
      repeat' first | with_reducible assumption | with_reducible apply State.launchGroup_quiet | split | with_reducible refine State.Quiet.of_fst (by assumption) ?_
    clear_value y3
  repeat' first | with_reducible assumption | with_reducible apply State.setFrame_quiet | split | with_reducible refine State.Quiet.of_fst (by assumption) ?_

theorem execGroupLaunch_quiet {s0 : State} {t : Tick} {p : Port} {g : Nat} {s : State} (hq : s0.Quiet s) :
    s0.QuietOut (execGroupLaunch t p g s) := by
  unfold execGroupLaunch
  try extract_lets y1 y2 y3 y4
  try
    have k1 : s0.Quiet y1 := by
      dsimp only [y1]
      repeat' first | with_reducible assumption | with_reducible apply State.QuietOut.next | with_reducible exact State.QuietOut.fault | with_reducible apply State.at_quiet | with_reducible apply State.launchNext_quiet | with_reducible apply State.Quiet.foldl | with_reducible apply State.Quiet.eachPort | with_reducible exact State.Quiet.refl _ | with_reducible intro _ _ | split | with_reducible refine State.Quiet.of_fst (by assumption) ?_ | fail_if_no_progress with_reducible refine State.Quiet.other ?_ rfl rfl rfl rfl rfl rfl rfl | dsimp only
    clear_value y1
  repeat' first | with_reducible assumption | with_reducible apply State.QuietOut.next | with_reducible exact State.QuietOut.fault | with_reducible apply State.at_quiet | with_reducible apply State.launchNext_quiet | with_reducible apply State.Quiet.foldl | with_reducible apply State.Quiet.eachPort | with_reducible exact State.Quiet.refl _ | with_reducible intro _ _ | split | with_reducible refine State.Quiet.of_fst (by assumption) ?_ | fail_if_no_progress with_reducible refine State.Quiet.other ?_ rfl rfl rfl rfl rfl rfl rfl | dsimp only

theorem execThinnedLaunch_quiet {s0 : State} {t : Tick} {p : Port} {s : State} (hq : s0.Quiet s) :
    s0.QuietOut (execThinnedLaunch t p s) := by
  unfold execThinnedLaunch
  try extract_lets y1 y2 y3 y4
  try
    have k1 : s0.Quiet y1 := by
      dsimp only [y1]
      repeat' first | with_reducible assumption | with_reducible apply State.QuietOut.next | with_reducible exact State.QuietOut.fault | with_reducible apply State.at_quiet | with_reducible apply State.launchGroup_quiet | with_reducible apply State.setFrame_quiet | with_reducible apply State.Quiet.foldl | with_reducible apply State.Quiet.eachPort | with_reducible exact State.Quiet.refl _ | with_reducible intro _ _ | split | with_reducible refine State.Quiet.of_fst (by assumption) ?_ | fail_if_no_progress with_reducible refine State.Quiet.other ?_ rfl rfl rfl rfl rfl rfl rfl | dsimp only
    clear_value y1
  repeat' first | with_reducible assumption | with_reducible apply State.QuietOut.next | with_reducible exact State.QuietOut.fault | with_reducible apply State.at_quiet | with_reducible apply State.launchGroup_quiet | with_reducible apply State.setFrame_quiet | with_reducible apply State.Quiet.foldl | with_reducible apply State.Quiet.eachPort | with_reducible exact State.Quiet.refl _ | with_reducible intro _ _ | split | with_reducible refine State.Quiet.of_fst (by assumption) ?_ | fail_if_no_progress with_reducible refine State.Quiet.other ?_ rfl rfl rfl rfl rfl rfl rfl | dsimp only

theorem State.switchSeed_quiet {s0 : State} {s : State} {w : Switch} (hq : s0.Quiet s) :
    s0.Quiet (State.switchSeed s w) := by
  unfold State.switchSeed
  try extract_lets y1 y2 y3 y4 y5 y6 y7 y8
  try
    have k3 : s0.Quiet y3 := by
      dsimp only [y3]
      repeat' first | with_reducible assumption | with_reducible apply State.setFrame_quiet | with_reducible apply State.roSet_quiet | with_reducible apply State.eachPort_quiet | with_reducible apply State.setSeedStatus_quiet | with_reducible apply State.setSeed_quiet | with_reducible apply State.bump_quiet | with_reducible apply State.raise_quiet | with_reducible apply State.pipelineResetAt_quiet | with_reducible apply State.phaseLight_quiet | with_reducible apply State.setPortSt_quiet | with_reducible apply State.Quiet.foldl | with_reducible apply State.Quiet.eachPort | with_reducible exact State.Quiet.refl _ | with_reducible intro _ _ | split | with_reducible refine State.Quiet.of_fst (by assumption) ?_ | fail_if_no_progress with_reducible refine State.Quiet.other ?_ rfl rfl rfl rfl rfl rfl rfl | dsimp only
    clear_value y3
  try
    have k4 : s0.Quiet y4 := by
      dsimp only [y4]
      repeat' first | with_reducible assumption | with_reducible apply State.setFrame_quiet | with_reducible apply State.roSet_quiet | with_reducible apply State.eachPort_quiet | with_reducible apply State.setSeedStatus_quiet | with_reducible apply State.setSeed_quiet | with_reducible apply State.bump_quiet | with_reducible apply State.raise_quiet | with_reducible apply State.pipelineResetAt_quiet | with_reducible apply State.phaseLight_quiet | with_reducible apply State.setPortSt_quiet | with_reducible apply State.Quiet.foldl | with_reducible apply State.Quiet.eachPort | with_reducible exact State.Quiet.refl _ | with_reducible intro _ _ | split | with_reducible refine State.Quiet.of_fst (by assumption) ?_ | fail_if_no_progress with_reducible refine State.Quiet.other ?_ rfl rfl rfl rfl rfl rfl rfl | dsimp only
    clear_value y4
  try
    have k5 : s0.Quiet y5 := by
      dsimp only [y5]
      repeat' first | with_reducible assumption | with_reducible apply State.setFrame_quiet | with_reducible apply State.roSet_quiet | with_reducible apply State.eachPort_quiet | with_reducible apply State.setSeedStatus_quiet | with_reducible apply State.setSeed_quiet | with_reducible apply State.bump_quiet | with_reducible apply State.raise_quiet | with_reducible apply State.pipelineResetAt_quiet | with_reducible apply State.phaseLight_quiet | with_reducible apply State.setPortSt_quiet | with_reducible apply State.Quiet.foldl | with_reducible apply State.Quiet.eachPort | with_reducible exact State.Quiet.refl _ | with_reducible intro _ _ | split | with_reducible refine State.Quiet.of_fst (by assumption) ?_ | fail_if_no_progress with_reducible refine State.Quiet.other ?_ rfl rfl rfl rfl rfl rfl rfl | dsimp only
    clear_value y5
  try
    have k6 : s0.Quiet y6 := by
      dsimp only [y6]
      repeat' first | with_reducible assumption | with_reducible apply State.setFrame_quiet | with_reducible apply State.roSet_quiet | with_reducible apply State.eachPort_quiet | with_reducible apply State.setSeedStatus_quiet | with_reducible apply State.setSeed_quiet | with_reducible apply State.bump_quiet | with_reducible apply State.raise_quiet | with_reducible apply State.pipelineResetAt_quiet | with_reducible apply State.phaseLight_quiet | with_reducible apply State.setPortSt_quiet | with_reducible apply State.Quiet.foldl | with_reducible apply State.Quiet.eachPort | with_reducible exact State.Quiet.refl _ | with_reducible intro _ _ | split | with_reducible refine State.Quiet.of_fst (by assumption) ?_ | fail_if_no_progress with_reducible refine State.Quiet.other ?_ rfl rfl rfl rfl rfl rfl rfl | dsimp only
    clear_value y6
  try
    have k7 : s0.Quiet y7 := by
      dsimp only [y7]
      repeat' first | with_reducible assumption | with_reducible apply State.setFrame_quiet | with_reducible apply State.roSet_quiet | with_reducible apply State.eachPort_quiet | with_reducible apply State.setSeedStatus_quiet | with_reducible apply State.setSeed_quiet | with_reducible apply State.bump_quiet | with_reducible apply State.raise_quiet | with_reducible apply State.pipelineResetAt_quiet | with_reducible apply State.phaseLight_quiet | with_reducible apply State.setPortSt_quiet | with_reducible apply State.Quiet.foldl | with_reducible apply State.Quiet.eachPort | with_reducible exact State.Quiet.refl _ | with_reducible intro _ _ | split | with_reducible refine State.Quiet.of_fst (by assumption) ?_ | fail_if_no_progress with_reducible refine State.Quiet.other ?_ rfl rfl rfl rfl rfl rfl rfl | dsimp only
    clear_value y7
  repeat' first | with_reducible assumption | with_reducible apply State.setFrame_quiet | with_reducible apply State.roSet_quiet | with_reducible apply State.eachPort_quiet | with_reducible apply State.setSeedStatus_quiet | with_reducible apply State.setSeed_quiet | with_reducible apply State.bump_quiet | with_reducible apply State.raise_quiet | with_reducible apply State.pipelineResetAt_quiet | with_reducible apply State.phaseLight_quiet | with_reducible apply State.setPortSt_quiet | with_reducible apply State.Quiet.foldl | with_reducible apply State.Quiet.eachPort | with_reducible exact State.Quiet.refl _ | with_reducible intro _ _ | split | with_reducible refine State.Quiet.of_fst (by assumption) ?_ | fail_if_no_progress with_reducible refine State.Quiet.other ?_ rfl rfl rfl rfl rfl rfl rfl | dsimp only

theorem State.switchIfDue_quiet {s0 : State} {s : State} (hq : s0.Quiet s) :
    s0.Quiet (State.switchIfDue s) := by
  unfold State.switchIfDue
  repeat' first | with_reducible assumption | with_reducible apply State.switchSeed_quiet | split | with_reducible refine State.Quiet.of_fst (by assumption) ?_ | dsimp only

theorem State.planSwitch_quiet {s0 : State} {s : State} {to_ : Seed} {fault : Bool} (hq : s0.Quiet s) :
    s0.Quiet (State.planSwitch s to_ fault) := by
  unfold State.planSwitch
  try extract_lets y1 y2 y3
  try
    have k3 : s0.Quiet y3 := by
      dsimp only [y3]
      repeat' first | with_reducible assumption | with_reducible apply State.switchIfDue_quiet | with_reducible apply State.Quiet.foldl | with_reducible apply State.Quiet.eachPort | with_reducible exact State.Quiet.refl _ | with_reducible intro _ _ | split | with_reducible refine State.Quiet.of_fst (by assumption) ?_ | fail_if_no_progress with_reducible refine State.Quiet.other ?_ rfl rfl rfl rfl rfl rfl rfl
    clear_value y3
  repeat' first | with_reducible assumption | with_reducible apply State.switchIfDue_quiet | with_reducible apply State.Quiet.foldl | with_reducible apply State.Quiet.eachPort | with_reducible exact State.Quiet.refl _ | with_reducible intro _ _ | split | with_reducible refine State.Quiet.of_fst (by assumption) ?_ | fail_if_no_progress with_reducible refine State.Quiet.other ?_ rfl rfl rfl rfl rfl rfl rfl | dsimp only

theorem execSeedSwitchover_quiet {s0 : State} {t : Tick} {s : State} (hq : s0.Quiet s) :
    s0.QuietOut (execSeedSwitchover t s) := by
  unfold execSeedSwitchover
  repeat' first | with_reducible assumption | with_reducible apply State.QuietOut.next | with_reducible exact State.QuietOut.fault | with_reducible apply State.at_quiet | with_reducible apply State.switchIfDue_quiet | split | with_reducible refine State.Quiet.of_fst (by assumption) ?_

theorem execSeedSelect_quiet {s0 : State} {t : Tick} {s : State} (hq : s0.Quiet s) :
    s0.QuietOut (execSeedSelect t s) := by
  unfold execSeedSelect
  try extract_lets y1 y2
  try
    have k1 : s0.Quiet y1 := by
      dsimp only [y1]
      repeat' first | with_reducible assumption | with_reducible apply State.QuietOut.next | with_reducible exact State.QuietOut.fault | with_reducible apply State.at_quiet | with_reducible apply State.raise_quiet | with_reducible apply State.switchSeed_quiet | with_reducible apply State.Quiet.foldl | with_reducible apply State.Quiet.eachPort | with_reducible exact State.Quiet.refl _ | with_reducible intro _ _ | split | with_reducible refine State.Quiet.of_fst (by assumption) ?_ | fail_if_no_progress with_reducible refine State.Quiet.other ?_ rfl rfl rfl rfl rfl rfl rfl | dsimp only
    clear_value y1
  repeat' first | with_reducible assumption | with_reducible apply State.QuietOut.next | with_reducible exact State.QuietOut.fault | with_reducible apply State.at_quiet | with_reducible apply State.raise_quiet | with_reducible apply State.switchSeed_quiet | with_reducible apply State.Quiet.foldl | with_reducible apply State.Quiet.eachPort | with_reducible exact State.Quiet.refl _ | with_reducible intro _ _ | split | with_reducible refine State.Quiet.of_fst (by assumption) ?_ | fail_if_no_progress with_reducible refine State.Quiet.other ?_ rfl rfl rfl rfl rfl rfl rfl | dsimp only

theorem State.relockFailed_quiet {s0 : State} {s : State} {d : Seed} (hq : s0.Quiet s) :
    s0.Quiet (State.relockFailed s d) := by
  unfold State.relockFailed
  try extract_lets y1 y2
  repeat' first | with_reducible assumption | with_reducible apply State.setSeed_quiet | with_reducible apply State.setSeedStatus_quiet | with_reducible apply State.raise_quiet | split | with_reducible refine State.Quiet.of_fst (by assumption) ?_

theorem execSeedRelockAttempt_quiet {s0 : State} {t : Tick} {d : Seed} {ok : Bool} {s : State} (hq : s0.Quiet s) :
    s0.QuietOut (execSeedRelockAttempt t d ok s) := by
  unfold execSeedRelockAttempt
  try extract_lets y1 y2 y3
  try
    have k1 : s0.Quiet y1 := by
      dsimp only [y1]
      repeat' first | with_reducible assumption | with_reducible apply State.at_quiet | split | with_reducible refine State.Quiet.of_fst (by assumption) ?_
    clear_value y1
  repeat' first | with_reducible assumption | with_reducible apply State.QuietOut.next | with_reducible exact State.QuietOut.fault | with_reducible apply State.at_quiet | with_reducible apply State.setSeed_quiet | with_reducible apply State.relockFailed_quiet | split | with_reducible refine State.Quiet.of_fst (by assumption) ?_ | dsimp only

theorem execSeedLockAcquired_quiet {s0 : State} {t : Tick} {d : Seed} {s : State} (hq : s0.Quiet s) :
    s0.QuietOut (execSeedLockAcquired t d s) := by
  unfold execSeedLockAcquired
  try extract_lets y1 y2
  try
    have k1 : s0.Quiet y1 := by
      dsimp only [y1]
      repeat' first | with_reducible assumption | with_reducible apply State.at_quiet | split | with_reducible refine State.Quiet.of_fst (by assumption) ?_
    clear_value y1
  repeat' first | with_reducible assumption | with_reducible apply State.QuietOut.next | with_reducible exact State.QuietOut.fault | with_reducible apply State.setSeed_quiet | split | with_reducible refine State.Quiet.of_fst (by assumption) ?_

theorem State.standbyFault_quiet {s0 : State} {s : State} {d : Seed} (hq : s0.Quiet s) :
    s0.Quiet (State.standbyFault s d) := by
  unfold State.standbyFault
  try extract_lets y1 y2
  try
    have k2 : s0.Quiet y2 := by
      dsimp only [y2]
      repeat' first | with_reducible assumption | with_reducible apply State.setSeedStatus_quiet | with_reducible apply State.setSeed_quiet | split | with_reducible refine State.Quiet.of_fst (by assumption) ?_
    clear_value y2
  repeat' first | with_reducible assumption | with_reducible apply State.relockFailed_quiet | with_reducible apply State.raise_quiet | split | with_reducible refine State.Quiet.of_fst (by assumption) ?_

theorem State.seedsOff_quiet {s0 : State} {s : State} (hq : s0.Quiet s) :
    s0.Quiet (State.seedsOff s) := by
  unfold State.seedsOff
  try extract_lets y1 y2 y3
  repeat' first | with_reducible assumption | with_reducible apply State.setSeedStatus_quiet | with_reducible apply State.setSeed_quiet | with_reducible apply State.Quiet.foldl | with_reducible apply State.Quiet.eachPort | with_reducible exact State.Quiet.refl _ | with_reducible intro _ _ | split | with_reducible refine State.Quiet.of_fst (by assumption) ?_ | fail_if_no_progress with_reducible refine State.Quiet.other ?_ rfl rfl rfl rfl rfl rfl rfl | dsimp only

theorem State.seedBad_quiet {s0 : State} {s : State} {d : Seed} (hq : s0.Quiet s) :
    s0.Quiet (State.seedBad s d) := by
  unfold State.seedBad
  repeat' first | with_reducible assumption | with_reducible apply State.setSeedStatus_quiet | with_reducible apply State.setSeed_quiet | with_reducible apply State.Quiet.foldl | with_reducible apply State.Quiet.eachPort | with_reducible exact State.Quiet.refl _ | with_reducible intro _ _ | split | with_reducible refine State.Quiet.of_fst (by assumption) ?_ | fail_if_no_progress with_reducible refine State.Quiet.other ?_ rfl rfl rfl rfl rfl rfl rfl | dsimp only

theorem State.seedOn_quiet {s0 : State} {s : State} {d : Seed} (hq : s0.Quiet s) :
    s0.Quiet (State.seedOn s d) := by
  unfold State.seedOn
  repeat' first | with_reducible assumption | with_reducible apply State.seedBad_quiet | with_reducible apply State.setSeedStatus_quiet | with_reducible apply State.setSeed_quiet | with_reducible apply State.Quiet.foldl | with_reducible apply State.Quiet.eachPort | with_reducible exact State.Quiet.refl _ | with_reducible intro _ _ | split | with_reducible refine State.Quiet.of_fst (by assumption) ?_ | fail_if_no_progress with_reducible refine State.Quiet.other ?_ rfl rfl rfl rfl rfl rfl rfl | dsimp only

theorem State.seedsStart_quiet {s0 : State} {s : State} {fromBoot : Bool} (hq : s0.Quiet s) :
    s0.Quiet (State.seedsStart s fromBoot) := by
  unfold State.seedsStart
  repeat' first | with_reducible assumption | with_reducible apply State.seedBad_quiet | with_reducible apply State.setSeed_quiet | with_reducible apply State.setSeedStatus_quiet | with_reducible apply State.roSet_quiet | with_reducible apply State.seedOn_quiet | with_reducible apply State.Quiet.foldl | with_reducible apply State.Quiet.eachPort | with_reducible exact State.Quiet.refl _ | with_reducible intro _ _ | split | with_reducible refine State.Quiet.of_fst (by assumption) ?_ | fail_if_no_progress with_reducible refine State.Quiet.other ?_ rfl rfl rfl rfl rfl rfl rfl | dsimp only

theorem State.publishDelays_quiet {s0 : State} {s : State} {p : Port} (hq : s0.Quiet s) :
    s0.Quiet (State.publishDelays s p) := by
  unfold State.publishDelays
  try extract_lets y1 y2 y3
  repeat' first | with_reducible assumption | with_reducible apply State.roSet_quiet | split | with_reducible refine State.Quiet.of_fst (by assumption) ?_

theorem State.portAtF_quiet {s0 : State} {s : State} {p : Port} {old : PSet} {recount : Bool} (hq : s0.Quiet s) :
    s0.Quiet (State.portAtF s p old recount) := by
  unfold State.portAtF
  extract_lets y1 y2 y3 y4 y5 y6 y7 y8 y9 y10 y11 y12 y13 y14 y15 y16 y17 y18 y19 y20 y21 y22
  try clear_value y1
  first
    | (have k2 : s0.Quiet y2 := by (dsimp only [y2]; repeat' first | with_reducible assumption | with_reducible apply State.noFibre_quiet | with_reducible apply State.setPortSt_quiet | with_reducible apply State.raise_quiet | with_reducible apply State.publishHold_quiet | with_reducible apply State.publishPower_quiet | with_reducible apply State.publishDelays_quiet | with_reducible apply State.roSet_quiet | with_reducible apply State.pipelineResetAt_quiet | with_reducible apply State.toBus_quiet | with_reducible apply State.setDts_quiet | with_reducible apply State.regridTo_quiet | with_reducible apply State.setFrame_quiet | with_reducible apply State.Quiet.foldl | with_reducible apply State.Quiet.eachPort | with_reducible exact State.Quiet.refl _ | with_reducible intro _ _ | split | with_reducible refine State.Quiet.of_fst (by assumption) ?_ | fail_if_no_progress with_reducible refine State.Quiet.other ?_ rfl rfl rfl rfl rfl rfl rfl | dsimp only)
       clear_value y2)
    | clear_value y2
    | skip
  first
    | (have k3 : s0.Quiet y3 := by (dsimp only [y3]; repeat' first | with_reducible assumption | with_reducible apply State.noFibre_quiet | with_reducible apply State.setPortSt_quiet | with_reducible apply State.raise_quiet | with_reducible apply State.publishHold_quiet | with_reducible apply State.publishPower_quiet | with_reducible apply State.publishDelays_quiet | with_reducible apply State.roSet_quiet | with_reducible apply State.pipelineResetAt_quiet | with_reducible apply State.toBus_quiet | with_reducible apply State.setDts_quiet | with_reducible apply State.regridTo_quiet | with_reducible apply State.setFrame_quiet | with_reducible apply State.Quiet.foldl | with_reducible apply State.Quiet.eachPort | with_reducible exact State.Quiet.refl _ | with_reducible intro _ _ | split | with_reducible refine State.Quiet.of_fst (by assumption) ?_ | fail_if_no_progress with_reducible refine State.Quiet.other ?_ rfl rfl rfl rfl rfl rfl rfl | dsimp only)
       clear_value y3)
    | clear_value y3
    | skip
  first
    | (have k4 : s0.Quiet y4 := by (dsimp only [y4]; repeat' first | with_reducible assumption | with_reducible apply State.noFibre_quiet | with_reducible apply State.setPortSt_quiet | with_reducible apply State.raise_quiet | with_reducible apply State.publishHold_quiet | with_reducible apply State.publishPower_quiet | with_reducible apply State.publishDelays_quiet | with_reducible apply State.roSet_quiet | with_reducible apply State.pipelineResetAt_quiet | with_reducible apply State.toBus_quiet | with_reducible apply State.setDts_quiet | with_reducible apply State.regridTo_quiet | with_reducible apply State.setFrame_quiet | with_reducible apply State.Quiet.foldl | with_reducible apply State.Quiet.eachPort | with_reducible exact State.Quiet.refl _ | with_reducible intro _ _ | split | with_reducible refine State.Quiet.of_fst (by assumption) ?_ | fail_if_no_progress with_reducible refine State.Quiet.other ?_ rfl rfl rfl rfl rfl rfl rfl | dsimp only)
       clear_value y4)
    | clear_value y4
    | skip
  first
    | (have k5 : s0.Quiet y5 := by (dsimp only [y5]; repeat' first | with_reducible assumption | with_reducible apply State.noFibre_quiet | with_reducible apply State.setPortSt_quiet | with_reducible apply State.raise_quiet | with_reducible apply State.publishHold_quiet | with_reducible apply State.publishPower_quiet | with_reducible apply State.publishDelays_quiet | with_reducible apply State.roSet_quiet | with_reducible apply State.pipelineResetAt_quiet | with_reducible apply State.toBus_quiet | with_reducible apply State.setDts_quiet | with_reducible apply State.regridTo_quiet | with_reducible apply State.setFrame_quiet | with_reducible apply State.Quiet.foldl | with_reducible apply State.Quiet.eachPort | with_reducible exact State.Quiet.refl _ | with_reducible intro _ _ | split | with_reducible refine State.Quiet.of_fst (by assumption) ?_ | fail_if_no_progress with_reducible refine State.Quiet.other ?_ rfl rfl rfl rfl rfl rfl rfl | dsimp only)
       clear_value y5)
    | clear_value y5
    | skip
  first
    | (have k6 : s0.Quiet y6 := by (dsimp only [y6]; repeat' first | with_reducible assumption | with_reducible apply State.noFibre_quiet | with_reducible apply State.setPortSt_quiet | with_reducible apply State.raise_quiet | with_reducible apply State.publishHold_quiet | with_reducible apply State.publishPower_quiet | with_reducible apply State.publishDelays_quiet | with_reducible apply State.roSet_quiet | with_reducible apply State.pipelineResetAt_quiet | with_reducible apply State.toBus_quiet | with_reducible apply State.setDts_quiet | with_reducible apply State.regridTo_quiet | with_reducible apply State.setFrame_quiet | with_reducible apply State.Quiet.foldl | with_reducible apply State.Quiet.eachPort | with_reducible exact State.Quiet.refl _ | with_reducible intro _ _ | split | with_reducible refine State.Quiet.of_fst (by assumption) ?_ | fail_if_no_progress with_reducible refine State.Quiet.other ?_ rfl rfl rfl rfl rfl rfl rfl | dsimp only)
       clear_value y6)
    | clear_value y6
    | skip
  first
    | (have k7 : s0.Quiet y7 := by (dsimp only [y7]; repeat' first | with_reducible assumption | with_reducible apply State.noFibre_quiet | with_reducible apply State.setPortSt_quiet | with_reducible apply State.raise_quiet | with_reducible apply State.publishHold_quiet | with_reducible apply State.publishPower_quiet | with_reducible apply State.publishDelays_quiet | with_reducible apply State.roSet_quiet | with_reducible apply State.pipelineResetAt_quiet | with_reducible apply State.toBus_quiet | with_reducible apply State.setDts_quiet | with_reducible apply State.regridTo_quiet | with_reducible apply State.setFrame_quiet | with_reducible apply State.Quiet.foldl | with_reducible apply State.Quiet.eachPort | with_reducible exact State.Quiet.refl _ | with_reducible intro _ _ | split | with_reducible refine State.Quiet.of_fst (by assumption) ?_ | fail_if_no_progress with_reducible refine State.Quiet.other ?_ rfl rfl rfl rfl rfl rfl rfl | dsimp only)
       clear_value y7)
    | clear_value y7
    | skip
  first
    | (have k8 : s0.Quiet y8 := by (dsimp only [y8]; repeat' first | with_reducible assumption | with_reducible apply State.noFibre_quiet | with_reducible apply State.setPortSt_quiet | with_reducible apply State.raise_quiet | with_reducible apply State.publishHold_quiet | with_reducible apply State.publishPower_quiet | with_reducible apply State.publishDelays_quiet | with_reducible apply State.roSet_quiet | with_reducible apply State.pipelineResetAt_quiet | with_reducible apply State.toBus_quiet | with_reducible apply State.setDts_quiet | with_reducible apply State.regridTo_quiet | with_reducible apply State.setFrame_quiet | with_reducible apply State.Quiet.foldl | with_reducible apply State.Quiet.eachPort | with_reducible exact State.Quiet.refl _ | with_reducible intro _ _ | split | with_reducible refine State.Quiet.of_fst (by assumption) ?_ | fail_if_no_progress with_reducible refine State.Quiet.other ?_ rfl rfl rfl rfl rfl rfl rfl | dsimp only)
       clear_value y8)
    | clear_value y8
    | skip
  first
    | (have k9 : s0.Quiet y9 := by (dsimp only [y9]; repeat' first | with_reducible assumption | with_reducible apply State.noFibre_quiet | with_reducible apply State.setPortSt_quiet | with_reducible apply State.raise_quiet | with_reducible apply State.publishHold_quiet | with_reducible apply State.publishPower_quiet | with_reducible apply State.publishDelays_quiet | with_reducible apply State.roSet_quiet | with_reducible apply State.pipelineResetAt_quiet | with_reducible apply State.toBus_quiet | with_reducible apply State.setDts_quiet | with_reducible apply State.regridTo_quiet | with_reducible apply State.setFrame_quiet | with_reducible apply State.Quiet.foldl | with_reducible apply State.Quiet.eachPort | with_reducible exact State.Quiet.refl _ | with_reducible intro _ _ | split | with_reducible refine State.Quiet.of_fst (by assumption) ?_ | fail_if_no_progress with_reducible refine State.Quiet.other ?_ rfl rfl rfl rfl rfl rfl rfl | dsimp only)
       clear_value y9)
    | clear_value y9
    | skip
  first
    | (have k10 : s0.Quiet y10 := by (dsimp only [y10]; repeat' first | with_reducible assumption | with_reducible apply State.noFibre_quiet | with_reducible apply State.setPortSt_quiet | with_reducible apply State.raise_quiet | with_reducible apply State.publishHold_quiet | with_reducible apply State.publishPower_quiet | with_reducible apply State.publishDelays_quiet | with_reducible apply State.roSet_quiet | with_reducible apply State.pipelineResetAt_quiet | with_reducible apply State.toBus_quiet | with_reducible apply State.setDts_quiet | with_reducible apply State.regridTo_quiet | with_reducible apply State.setFrame_quiet | with_reducible apply State.Quiet.foldl | with_reducible apply State.Quiet.eachPort | with_reducible exact State.Quiet.refl _ | with_reducible intro _ _ | split | with_reducible refine State.Quiet.of_fst (by assumption) ?_ | fail_if_no_progress with_reducible refine State.Quiet.other ?_ rfl rfl rfl rfl rfl rfl rfl | dsimp only)
       clear_value y10)
    | clear_value y10
    | skip
  first
    | (have k11 : s0.Quiet y11 := by (dsimp only [y11]; repeat' first | with_reducible assumption | with_reducible apply State.noFibre_quiet | with_reducible apply State.setPortSt_quiet | with_reducible apply State.raise_quiet | with_reducible apply State.publishHold_quiet | with_reducible apply State.publishPower_quiet | with_reducible apply State.publishDelays_quiet | with_reducible apply State.roSet_quiet | with_reducible apply State.pipelineResetAt_quiet | with_reducible apply State.toBus_quiet | with_reducible apply State.setDts_quiet | with_reducible apply State.regridTo_quiet | with_reducible apply State.setFrame_quiet | with_reducible apply State.Quiet.foldl | with_reducible apply State.Quiet.eachPort | with_reducible exact State.Quiet.refl _ | with_reducible intro _ _ | split | with_reducible refine State.Quiet.of_fst (by assumption) ?_ | fail_if_no_progress with_reducible refine State.Quiet.other ?_ rfl rfl rfl rfl rfl rfl rfl | dsimp only)
       clear_value y11)
    | clear_value y11
    | skip
  first
    | (have k12 : s0.Quiet y12 := by (dsimp only [y12]; repeat' first | with_reducible assumption | with_reducible apply State.noFibre_quiet | with_reducible apply State.setPortSt_quiet | with_reducible apply State.raise_quiet | with_reducible apply State.publishHold_quiet | with_reducible apply State.publishPower_quiet | with_reducible apply State.publishDelays_quiet | with_reducible apply State.roSet_quiet | with_reducible apply State.pipelineResetAt_quiet | with_reducible apply State.toBus_quiet | with_reducible apply State.setDts_quiet | with_reducible apply State.regridTo_quiet | with_reducible apply State.setFrame_quiet | with_reducible apply State.Quiet.foldl | with_reducible apply State.Quiet.eachPort | with_reducible exact State.Quiet.refl _ | with_reducible intro _ _ | split | with_reducible refine State.Quiet.of_fst (by assumption) ?_ | fail_if_no_progress with_reducible refine State.Quiet.other ?_ rfl rfl rfl rfl rfl rfl rfl | dsimp only)
       clear_value y12)
    | clear_value y12
    | skip
  first
    | (have k13 : s0.Quiet y13 := by (dsimp only [y13]; repeat' first | with_reducible assumption | with_reducible apply State.noFibre_quiet | with_reducible apply State.setPortSt_quiet | with_reducible apply State.raise_quiet | with_reducible apply State.publishHold_quiet | with_reducible apply State.publishPower_quiet | with_reducible apply State.publishDelays_quiet | with_reducible apply State.roSet_quiet | with_reducible apply State.pipelineResetAt_quiet | with_reducible apply State.toBus_quiet | with_reducible apply State.setDts_quiet | with_reducible apply State.regridTo_quiet | with_reducible apply State.setFrame_quiet | with_reducible apply State.Quiet.foldl | with_reducible apply State.Quiet.eachPort | with_reducible exact State.Quiet.refl _ | with_reducible intro _ _ | split | with_reducible refine State.Quiet.of_fst (by assumption) ?_ | fail_if_no_progress with_reducible refine State.Quiet.other ?_ rfl rfl rfl rfl rfl rfl rfl | dsimp only)
       clear_value y13)
    | clear_value y13
    | skip
  first
    | (have k14 : s0.Quiet y14 := by (dsimp only [y14]; repeat' first | with_reducible assumption | with_reducible apply State.noFibre_quiet | with_reducible apply State.setPortSt_quiet | with_reducible apply State.raise_quiet | with_reducible apply State.publishHold_quiet | with_reducible apply State.publishPower_quiet | with_reducible apply State.publishDelays_quiet | with_reducible apply State.roSet_quiet | with_reducible apply State.pipelineResetAt_quiet | with_reducible apply State.toBus_quiet | with_reducible apply State.setDts_quiet | with_reducible apply State.regridTo_quiet | with_reducible apply State.setFrame_quiet | with_reducible apply State.Quiet.foldl | with_reducible apply State.Quiet.eachPort | with_reducible exact State.Quiet.refl _ | with_reducible intro _ _ | split | with_reducible refine State.Quiet.of_fst (by assumption) ?_ | fail_if_no_progress with_reducible refine State.Quiet.other ?_ rfl rfl rfl rfl rfl rfl rfl | dsimp only)
       clear_value y14)
    | clear_value y14
    | skip
  first
    | (have k15 : s0.Quiet y15 := by (dsimp only [y15]; repeat' first | with_reducible assumption | with_reducible apply State.noFibre_quiet | with_reducible apply State.setPortSt_quiet | with_reducible apply State.raise_quiet | with_reducible apply State.publishHold_quiet | with_reducible apply State.publishPower_quiet | with_reducible apply State.publishDelays_quiet | with_reducible apply State.roSet_quiet | with_reducible apply State.pipelineResetAt_quiet | with_reducible apply State.toBus_quiet | with_reducible apply State.setDts_quiet | with_reducible apply State.regridTo_quiet | with_reducible apply State.setFrame_quiet | with_reducible apply State.Quiet.foldl | with_reducible apply State.Quiet.eachPort | with_reducible exact State.Quiet.refl _ | with_reducible intro _ _ | split | with_reducible refine State.Quiet.of_fst (by assumption) ?_ | fail_if_no_progress with_reducible refine State.Quiet.other ?_ rfl rfl rfl rfl rfl rfl rfl | dsimp only)
       clear_value y15)
    | clear_value y15
    | skip
  first
    | (have k16 : s0.Quiet y16 := by (dsimp only [y16]; repeat' first | with_reducible assumption | with_reducible apply State.noFibre_quiet | with_reducible apply State.setPortSt_quiet | with_reducible apply State.raise_quiet | with_reducible apply State.publishHold_quiet | with_reducible apply State.publishPower_quiet | with_reducible apply State.publishDelays_quiet | with_reducible apply State.roSet_quiet | with_reducible apply State.pipelineResetAt_quiet | with_reducible apply State.toBus_quiet | with_reducible apply State.setDts_quiet | with_reducible apply State.regridTo_quiet | with_reducible apply State.setFrame_quiet | with_reducible apply State.Quiet.foldl | with_reducible apply State.Quiet.eachPort | with_reducible exact State.Quiet.refl _ | with_reducible intro _ _ | split | with_reducible refine State.Quiet.of_fst (by assumption) ?_ | fail_if_no_progress with_reducible refine State.Quiet.other ?_ rfl rfl rfl rfl rfl rfl rfl | dsimp only)
       clear_value y16)
    | clear_value y16
    | skip
  first
    | (have k17 : s0.Quiet y17 := by (dsimp only [y17]; repeat' first | with_reducible assumption | with_reducible apply State.noFibre_quiet | with_reducible apply State.setPortSt_quiet | with_reducible apply State.raise_quiet | with_reducible apply State.publishHold_quiet | with_reducible apply State.publishPower_quiet | with_reducible apply State.publishDelays_quiet | with_reducible apply State.roSet_quiet | with_reducible apply State.pipelineResetAt_quiet | with_reducible apply State.toBus_quiet | with_reducible apply State.setDts_quiet | with_reducible apply State.regridTo_quiet | with_reducible apply State.setFrame_quiet | with_reducible apply State.Quiet.foldl | with_reducible apply State.Quiet.eachPort | with_reducible exact State.Quiet.refl _ | with_reducible intro _ _ | split | with_reducible refine State.Quiet.of_fst (by assumption) ?_ | fail_if_no_progress with_reducible refine State.Quiet.other ?_ rfl rfl rfl rfl rfl rfl rfl | dsimp only)
       clear_value y17)
    | clear_value y17
    | skip
  first
    | (have k18 : s0.Quiet y18 := by (dsimp only [y18]; repeat' first | with_reducible assumption | with_reducible apply State.noFibre_quiet | with_reducible apply State.setPortSt_quiet | with_reducible apply State.raise_quiet | with_reducible apply State.publishHold_quiet | with_reducible apply State.publishPower_quiet | with_reducible apply State.publishDelays_quiet | with_reducible apply State.roSet_quiet | with_reducible apply State.pipelineResetAt_quiet | with_reducible apply State.toBus_quiet | with_reducible apply State.setDts_quiet | with_reducible apply State.regridTo_quiet | with_reducible apply State.setFrame_quiet | with_reducible apply State.Quiet.foldl | with_reducible apply State.Quiet.eachPort | with_reducible exact State.Quiet.refl _ | with_reducible intro _ _ | split | with_reducible refine State.Quiet.of_fst (by assumption) ?_ | fail_if_no_progress with_reducible refine State.Quiet.other ?_ rfl rfl rfl rfl rfl rfl rfl | dsimp only)
       clear_value y18)
    | clear_value y18
    | skip
  first
    | (have k19 : s0.Quiet y19 := by (dsimp only [y19]; repeat' first | with_reducible assumption | with_reducible apply State.noFibre_quiet | with_reducible apply State.setPortSt_quiet | with_reducible apply State.raise_quiet | with_reducible apply State.publishHold_quiet | with_reducible apply State.publishPower_quiet | with_reducible apply State.publishDelays_quiet | with_reducible apply State.roSet_quiet | with_reducible apply State.pipelineResetAt_quiet | with_reducible apply State.toBus_quiet | with_reducible apply State.setDts_quiet | with_reducible apply State.regridTo_quiet | with_reducible apply State.setFrame_quiet | with_reducible apply State.Quiet.foldl | with_reducible apply State.Quiet.eachPort | with_reducible exact State.Quiet.refl _ | with_reducible intro _ _ | split | with_reducible refine State.Quiet.of_fst (by assumption) ?_ | fail_if_no_progress with_reducible refine State.Quiet.other ?_ rfl rfl rfl rfl rfl rfl rfl | dsimp only)
       clear_value y19)
    | clear_value y19
    | skip
  repeat' first | with_reducible assumption | with_reducible apply State.noFibre_quiet | with_reducible apply State.setPortSt_quiet | with_reducible apply State.raise_quiet | with_reducible apply State.publishHold_quiet | with_reducible apply State.publishPower_quiet | with_reducible apply State.publishDelays_quiet | with_reducible apply State.roSet_quiet | with_reducible apply State.pipelineResetAt_quiet | with_reducible apply State.toBus_quiet | with_reducible apply State.setDts_quiet | with_reducible apply State.regridTo_quiet | with_reducible apply State.setFrame_quiet | with_reducible apply State.Quiet.foldl | with_reducible apply State.Quiet.eachPort | with_reducible exact State.Quiet.refl _ | with_reducible intro _ _ | split | with_reducible refine State.Quiet.of_fst (by assumption) ?_ | fail_if_no_progress with_reducible refine State.Quiet.other ?_ rfl rfl rfl rfl rfl rfl rfl | dsimp only

theorem State.driveClk_quiet {s0 : State} {s : State} (hq : s0.Quiet s) :
    s0.Quiet (State.driveClk s) := by
  unfold State.driveClk
  try extract_lets y1 y2
  repeat' first | with_reducible assumption | with_reducible apply State.withLock_quiet | with_reducible apply State.emit_quiet | with_reducible apply State.Quiet.foldl | with_reducible apply State.Quiet.eachPort | with_reducible exact State.Quiet.refl _ | with_reducible intro _ _ | split | with_reducible refine State.Quiet.of_fst (by assumption) ?_ | fail_if_no_progress with_reducible refine State.Quiet.other ?_ rfl rfl rfl rfl rfl rfl rfl | dsimp only

theorem State.lockAtF_quiet {s0 : State} {s : State} {old : PSet} {wrote : Bool} (hq : s0.Quiet s) :
    s0.Quiet (State.lockAtF s old wrote) := by
  unfold State.lockAtF
  extract_lets y1 y2 y3 y4 y5 y6 y7
  first
    | (have k1 : s0.Quiet y1 := by (dsimp only [y1]; repeat' first | with_reducible assumption | with_reducible apply State.withLock_quiet | with_reducible apply State.setLock_quiet | with_reducible apply State.eachPort_quiet | with_reducible apply State.freeRun_quiet | with_reducible apply State.driveClk_quiet | with_reducible apply State.toBus_quiet | with_reducible apply State.Quiet.foldl | with_reducible apply State.Quiet.eachPort | with_reducible exact State.Quiet.refl _ | with_reducible intro _ _ | split | with_reducible refine State.Quiet.of_fst (by assumption) ?_ | fail_if_no_progress with_reducible refine State.Quiet.other ?_ rfl rfl rfl rfl rfl rfl rfl | dsimp only)
       clear_value y1)
    | clear_value y1
    | skip
  first
    | (have k2 : s0.Quiet y2 := by (dsimp only [y2]; repeat' first | with_reducible assumption | with_reducible apply State.withLock_quiet | with_reducible apply State.setLock_quiet | with_reducible apply State.eachPort_quiet | with_reducible apply State.freeRun_quiet | with_reducible apply State.driveClk_quiet | with_reducible apply State.toBus_quiet | with_reducible apply State.Quiet.foldl | with_reducible apply State.Quiet.eachPort | with_reducible exact State.Quiet.refl _ | with_reducible intro _ _ | split | with_reducible refine State.Quiet.of_fst (by assumption) ?_ | fail_if_no_progress with_reducible refine State.Quiet.other ?_ rfl rfl rfl rfl rfl rfl rfl | dsimp only)
       clear_value y2)
    | clear_value y2
    | skip
  first
    | (have k3 : s0.Quiet y3 := by (dsimp only [y3]; repeat' first | with_reducible assumption | with_reducible apply State.withLock_quiet | with_reducible apply State.setLock_quiet | with_reducible apply State.eachPort_quiet | with_reducible apply State.freeRun_quiet | with_reducible apply State.driveClk_quiet | with_reducible apply State.toBus_quiet | with_reducible apply State.Quiet.foldl | with_reducible apply State.Quiet.eachPort | with_reducible exact State.Quiet.refl _ | with_reducible intro _ _ | split | with_reducible refine State.Quiet.of_fst (by assumption) ?_ | fail_if_no_progress with_reducible refine State.Quiet.other ?_ rfl rfl rfl rfl rfl rfl rfl | dsimp only)
       clear_value y3)
    | clear_value y3
    | skip
  first
    | (have k4 : s0.Quiet y4 := by (dsimp only [y4]; repeat' first | with_reducible assumption | with_reducible apply State.withLock_quiet | with_reducible apply State.setLock_quiet | with_reducible apply State.eachPort_quiet | with_reducible apply State.freeRun_quiet | with_reducible apply State.driveClk_quiet | with_reducible apply State.toBus_quiet | with_reducible apply State.Quiet.foldl | with_reducible apply State.Quiet.eachPort | with_reducible exact State.Quiet.refl _ | with_reducible intro _ _ | split | with_reducible refine State.Quiet.of_fst (by assumption) ?_ | fail_if_no_progress with_reducible refine State.Quiet.other ?_ rfl rfl rfl rfl rfl rfl rfl | dsimp only)
       clear_value y4)
    | clear_value y4
    | skip
  repeat' first | with_reducible assumption | with_reducible apply State.withLock_quiet | with_reducible apply State.setLock_quiet | with_reducible apply State.eachPort_quiet | with_reducible apply State.freeRun_quiet | with_reducible apply State.driveClk_quiet | with_reducible apply State.toBus_quiet | with_reducible apply State.Quiet.foldl | with_reducible apply State.Quiet.eachPort | with_reducible exact State.Quiet.refl _ | with_reducible intro _ _ | split | with_reducible refine State.Quiet.of_fst (by assumption) ?_ | fail_if_no_progress with_reducible refine State.Quiet.other ?_ rfl rfl rfl rfl rfl rfl rfl | dsimp only

end Sys2Proof.Machine
end

