-- ==== Sys2Proof/Laws/KeepsCompress.lean ====
section
/-! SUPPORT. What the operations of Machine/Compress.lean keep. -/

set_option linter.unusedTactic false
set_option linter.unreachableTactic false
set_option linter.unusedVariables false

namespace Sys2Proof.Machine

theorem State.takeAdc_quiet {s0 : State} {s : State} {p : Port} {raw : List Raw} (hq : s0.Quiet s) :
    s0.Quiet (State.takeAdc s p raw) := by
  unfold State.takeAdc
  try extract_lets y1 y2
  repeat' first | with_reducible assumption | with_reducible apply State.setCoh_quiet | with_reducible apply State.Quiet.foldl | with_reducible apply State.Quiet.eachPort | with_reducible exact State.Quiet.refl _ | with_reducible intro _ _ | split | with_reducible refine State.Quiet.of_fst (by assumption) ?_ | fail_if_no_progress with_reducible refine State.Quiet.other ?_ rfl rfl rfl rfl rfl rfl rfl | dsimp only

theorem State.takeMonitor_quiet {s0 : State} {s : State} {os : List (Int × Int)} (hq : s0.Quiet s) :
    s0.Quiet (State.takeMonitor s os) := by
  unfold State.takeMonitor
  repeat' first | with_reducible assumption | with_reducible apply State.Quiet.foldl | with_reducible apply State.Quiet.eachPort | with_reducible exact State.Quiet.refl _ | with_reducible intro _ _ | split | with_reducible refine State.Quiet.of_fst (by assumption) ?_ | fail_if_no_progress with_reducible refine State.Quiet.other ?_ rfl rfl rfl rfl rfl rfl rfl | dsimp only

theorem State.noteGains_quiet {s0 : State} {s : State} {p : Port} {start : Tick} {period : Nat} (hq : s0.Quiet s) :
    s0.Quiet (State.noteGains s p start period) := by
  unfold State.noteGains
  try extract_lets y1 y2
  repeat' first | with_reducible assumption | with_reducible apply State.setCoh_quiet | with_reducible apply State.Quiet.foldl | with_reducible apply State.Quiet.eachPort | with_reducible exact State.Quiet.refl _ | with_reducible intro _ _ | split | with_reducible refine State.Quiet.of_fst (by assumption) ?_ | fail_if_no_progress with_reducible refine State.Quiet.other ?_ rfl rfl rfl rfl rfl rfl rfl | dsimp only

end Sys2Proof.Machine
end

