-- ==== Sys2Proof/Laws/KeepsCoherent.lean ====
section
/-! SUPPORT. What the operations of Machine/Coherent.lean keep. -/

set_option linter.unusedTactic false
set_option linter.unreachableTactic false
set_option linter.unusedVariables false

namespace Sys2Proof.Machine

theorem execGainRunEvaluation_quiet {s0 : State} {t : Tick} {p : Port} {s : State} (hq : s0.Quiet s) :
    s0.QuietOut (execGainRunEvaluation t p s) := by
  unfold execGainRunEvaluation
  try extract_lets y1 y2 y3 y4
  try
    have k1 : s0.Quiet y1 := by
      dsimp only [y1]
      repeat' first | with_reducible assumption | with_reducible apply State.at_quiet | split | with_reducible refine State.Quiet.of_fst (by assumption) ?_
    clear_value y1
  repeat' first | with_reducible assumption | with_reducible apply State.QuietOut.next | with_reducible exact State.QuietOut.fault | with_reducible apply State.setCoh_quiet | split | with_reducible refine State.Quiet.of_fst (by assumption) ?_ | fail_if_no_progress with_reducible refine State.Quiet.other ?_ rfl rfl rfl rfl rfl rfl rfl | dsimp only

theorem State.gainStrobe_quiet {s0 : State} {s : State} {p : Port} (hq : s0.Quiet s) :
    s0.Quiet (State.gainStrobe s p) := by
  unfold State.gainStrobe
  try extract_lets y1 y2 y3 y4 y5 y6 y7
  try
    have k3 : s0.Quiet y3 := by
      dsimp only [y3]
      repeat' first | with_reducible assumption | with_reducible apply State.roSet_quiet | with_reducible apply State.Quiet.foldl | with_reducible exact State.Quiet.refl _ | with_reducible intro _ _ | split | with_reducible refine State.Quiet.of_fst (by assumption) ?_
    clear_value y3
  try
    have k6 : s0.Quiet y6 := by
      dsimp only [y6]
      repeat' first | with_reducible assumption | with_reducible apply State.setFrame_quiet | split | with_reducible refine State.Quiet.of_fst (by assumption) ?_
    clear_value y6
  repeat' first | with_reducible assumption | with_reducible apply State.setCoh_quiet | split | with_reducible refine State.Quiet.of_fst (by assumption) ?_ | fail_if_no_progress with_reducible refine State.Quiet.other ?_ rfl rfl rfl rfl rfl rfl rfl

theorem execIqTermUpdate_quiet {s0 : State} {t : Tick} {p : Port} {x y : IqStats} {s : State} (hq : s0.Quiet s) :
    s0.QuietOut (execIqTermUpdate t p x y s) := by
  unfold execIqTermUpdate
  try extract_lets y1 y2 y3
  try
    have k1 : s0.Quiet y1 := by
      dsimp only [y1]
      repeat' first | with_reducible assumption | with_reducible apply State.QuietOut.next | with_reducible exact State.QuietOut.fault | with_reducible apply State.at_quiet | with_reducible apply State.setCoh_quiet | with_reducible apply State.roSet_quiet | with_reducible apply State.Quiet.foldl | with_reducible apply State.Quiet.eachPort | with_reducible exact State.Quiet.refl _ | with_reducible intro _ _ | split | with_reducible refine State.Quiet.of_fst (by assumption) ?_ | fail_if_no_progress with_reducible refine State.Quiet.other ?_ rfl rfl rfl rfl rfl rfl rfl | dsimp only
    clear_value y1
  repeat' first | with_reducible assumption | with_reducible apply State.QuietOut.next | with_reducible exact State.QuietOut.fault | with_reducible apply State.at_quiet | with_reducible apply State.setCoh_quiet | with_reducible apply State.roSet_quiet | with_reducible apply State.Quiet.foldl | with_reducible apply State.Quiet.eachPort | with_reducible exact State.Quiet.refl _ | with_reducible intro _ _ | split | with_reducible refine State.Quiet.of_fst (by assumption) ?_ | fail_if_no_progress with_reducible refine State.Quiet.other ?_ rfl rfl rfl rfl rfl rfl rfl | dsimp only

theorem State.measureNoise_quiet {s0 : State} {s : State} {p : Port} {l : Launch} (hq : s0.Quiet s) :
    s0.Quiet (State.measureNoise s p l) := by
  unfold State.measureNoise
  try extract_lets y1 y2 y3 y4
  repeat' first | with_reducible assumption | with_reducible apply State.setCoh_quiet | with_reducible apply State.Quiet.foldl | with_reducible apply State.Quiet.eachPort | with_reducible exact State.Quiet.refl _ | with_reducible intro _ _ | split | with_reducible refine State.Quiet.of_fst (by assumption) ?_ | fail_if_no_progress with_reducible refine State.Quiet.other ?_ rfl rfl rfl rfl rfl rfl rfl | dsimp only

theorem State.applyWeights_quiet {s0 : State} {s : State} {p : Port} {ws : List (List Nat)} (hq : s0.Quiet s) :
    s0.Quiet (State.applyWeights s p ws) := by
  unfold State.applyWeights
  try extract_lets y1 y2 y3
  repeat' first | with_reducible assumption | with_reducible apply State.roSet_quiet | with_reducible apply State.setCoh_quiet | with_reducible apply State.Quiet.foldl | with_reducible apply State.Quiet.eachPort | with_reducible exact State.Quiet.refl _ | with_reducible intro _ _ | split | with_reducible refine State.Quiet.of_fst (by assumption) ?_ | fail_if_no_progress with_reducible refine State.Quiet.other ?_ rfl rfl rfl rfl rfl rfl rfl | dsimp only

theorem execCombineWeightRecompute_quiet {s0 : State} {t : Tick} {p : Port} {noiseless : List Nat} {s : State} (hq : s0.Quiet s) :
    s0.QuietOut (execCombineWeightRecompute t p noiseless s) := by
  unfold execCombineWeightRecompute
  try extract_lets y1 y2 y3
  try
    have k1 : s0.Quiet y1 := by
      dsimp only [y1]
      repeat' first | with_reducible assumption | with_reducible apply State.QuietOut.next | with_reducible exact State.QuietOut.fault | with_reducible apply State.at_quiet | with_reducible apply State.setCoh_quiet | with_reducible apply State.Quiet.foldl | with_reducible apply State.Quiet.eachPort | with_reducible exact State.Quiet.refl _ | with_reducible intro _ _ | split | with_reducible refine State.Quiet.of_fst (by assumption) ?_ | fail_if_no_progress with_reducible refine State.Quiet.other ?_ rfl rfl rfl rfl rfl rfl rfl | dsimp only
    clear_value y1
  repeat' first | with_reducible assumption | with_reducible apply State.QuietOut.next | with_reducible exact State.QuietOut.fault | with_reducible apply State.at_quiet | with_reducible apply State.setCoh_quiet | with_reducible apply State.Quiet.foldl | with_reducible apply State.Quiet.eachPort | with_reducible exact State.Quiet.refl _ | with_reducible intro _ _ | split | with_reducible refine State.Quiet.of_fst (by assumption) ?_ | fail_if_no_progress with_reducible refine State.Quiet.other ?_ rfl rfl rfl rfl rfl rfl rfl | dsimp only

theorem State.setSummary_quiet {s0 : State} {s : State} {p : Port} {n : Nat} {x : SegSummary} (hq : s0.Quiet s) :
    s0.Quiet (State.setSummary s p n x) := by
  unfold State.setSummary
  repeat' first | with_reducible assumption | with_reducible apply State.roSet_quiet | with_reducible apply State.roSetInt_quiet | split | with_reducible refine State.Quiet.of_fst (by assumption) ?_

theorem State.qualityBlock_quiet {s0 : State} {s : State} {p : Port} {x : SecondSum} (hq : s0.Quiet s) :
    s0.Quiet (State.qualityBlock s p x) := by
  unfold State.qualityBlock
  repeat' first | with_reducible assumption | with_reducible apply State.loadDue_quiet | with_reducible apply State.enqueue_quiet | with_reducible apply State.Quiet.foldl | with_reducible apply State.Quiet.eachPort | with_reducible exact State.Quiet.refl _ | with_reducible intro _ _ | split | with_reducible refine State.Quiet.of_fst (by assumption) ?_ | fail_if_no_progress with_reducible refine State.Quiet.other ?_ rfl rfl rfl rfl rfl rfl rfl | dsimp only

theorem execQualitySummary_quiet {s0 : State} {t : Tick} {p : Port} {s : State} (hq : s0.Quiet s) :
    s0.QuietOut (execQualitySummary t p s) := by
  unfold execQualitySummary
  try extract_lets y1 y2 y3 y4 y5 y6
  try
    have k1 : s0.Quiet y1 := by
      dsimp only [y1]
      repeat' first | with_reducible assumption | with_reducible apply State.QuietOut.next | with_reducible exact State.QuietOut.fault | with_reducible apply State.at_quiet | with_reducible apply State.setCoh_quiet | with_reducible apply State.setSummary_quiet | with_reducible apply State.qualityBlock_quiet | with_reducible apply State.settleAll_quiet | with_reducible apply State.Quiet.foldl | with_reducible apply State.Quiet.eachPort | with_reducible exact State.Quiet.refl _ | with_reducible intro _ _ | split | with_reducible refine State.Quiet.of_fst (by assumption) ?_ | fail_if_no_progress with_reducible refine State.Quiet.other ?_ rfl rfl rfl rfl rfl rfl rfl | dsimp only
    clear_value y1
  try
    have k5 : s0.Quiet y5 := by
      dsimp only [y5]
      repeat' first | with_reducible assumption | with_reducible apply State.QuietOut.next | with_reducible exact State.QuietOut.fault | with_reducible apply State.at_quiet | with_reducible apply State.setCoh_quiet | with_reducible apply State.setSummary_quiet | with_reducible apply State.qualityBlock_quiet | with_reducible apply State.settleAll_quiet | with_reducible apply State.Quiet.foldl | with_reducible apply State.Quiet.eachPort | with_reducible exact State.Quiet.refl _ | with_reducible intro _ _ | split | with_reducible refine State.Quiet.of_fst (by assumption) ?_ | fail_if_no_progress with_reducible refine State.Quiet.other ?_ rfl rfl rfl rfl rfl rfl rfl | dsimp only
    clear_value y5
  repeat' first | with_reducible assumption | with_reducible apply State.QuietOut.next | with_reducible exact State.QuietOut.fault | with_reducible apply State.at_quiet | with_reducible apply State.setCoh_quiet | with_reducible apply State.setSummary_quiet | with_reducible apply State.qualityBlock_quiet | with_reducible apply State.settleAll_quiet | with_reducible apply State.Quiet.foldl | with_reducible apply State.Quiet.eachPort | with_reducible exact State.Quiet.refl _ | with_reducible intro _ _ | split | with_reducible refine State.Quiet.of_fst (by assumption) ?_ | fail_if_no_progress with_reducible refine State.Quiet.other ?_ rfl rfl rfl rfl rfl rfl rfl | dsimp only

theorem State.judgeWindows_quiet {s0 : State} {s : State} {p : Port} {geo : Geo} {slots : List Nat} {power : List Nat} {newLast : Option Nat} {newLoss : Option (Nat × Nat)} {epoch : Nat} (hq : s0.Quiet s) :
    s0.Quiet (State.judgeWindows s p geo slots power newLast newLoss epoch) := by
  unfold State.judgeWindows
  try extract_lets y1 y2
  repeat' first | with_reducible assumption | with_reducible apply State.setPortSt_quiet | with_reducible apply State.dtsFibreEvent_quiet | with_reducible apply State.raiseFull_quiet | with_reducible apply State.Quiet.foldl | with_reducible apply State.Quiet.eachPort | with_reducible exact State.Quiet.refl _ | with_reducible intro _ _ | split | with_reducible refine State.Quiet.of_fst (by assumption) ?_ | fail_if_no_progress with_reducible refine State.Quiet.other ?_ rfl rfl rfl rfl rfl rfl rfl | dsimp only

end Sys2Proof.Machine
end

