-- ==== Sys2Proof/Laws/KeepsBasaltMem.lean ====
section
/-! SUPPORT. What the operations of Machine/BasaltMem.lean keep. -/

set_option linter.unusedTactic false
set_option linter.unreachableTactic false
set_option linter.unusedVariables false

namespace Sys2Proof.Machine

theorem State.updateAddr_quiet {s0 : State} {s : State} {c an mode : Nat} {inc : Int} {byReg : Option Nat} (hq : s0.Quiet s) :
    s0.Quiet (State.updateAddr s c an mode inc byReg) := by
  unfold State.updateAddr
  try extract_lets y1
  repeat' first | with_reducible assumption | with_reducible apply State.setCore_quiet | with_reducible apply State.drawn_quiet | split | with_reducible refine State.Quiet.of_fst (by assumption) ?_ | dsimp only

theorem State.loadBytes_quiet {s0 s : State} {c a n : Nat} (h : s0.Quiet s) : s0.Quiet (s.loadBytes c a n).2 := by
  unfold State.loadBytes
  dsimp only
  split
  · exact h
  · split
    · exact State.drawn_quiet h
    · exact State.drawn_quiet h

theorem State.loadTo_quiet {s0 : State} {s : State} {c addr size : Nat} {place : Nat → BCore → BCore} (hq : s0.Quiet s) :
    s0.Quiet (State.loadTo s c addr size place) := by
  unfold State.loadTo
  try extract_lets y1
  repeat' first | with_reducible assumption | with_reducible apply State.loadBytes_quiet | with_reducible apply State.setCore_quiet | with_reducible apply State.Quiet.foldl | with_reducible apply State.Quiet.eachPort | with_reducible exact State.Quiet.refl _ | with_reducible intro _ _ | split | with_reducible refine State.Quiet.of_fst (by assumption) ?_ | fail_if_no_progress with_reducible refine State.Quiet.other ?_ rfl rfl rfl rfl rfl rfl rfl | dsimp only

theorem loadM_quiet {s0 : State} {o : OpM} {size : Nat} {place : Nat → BCore → BCore} {s : State} (hq : s0.Quiet s) :
    s0.QuietOut (loadM o size place s) := by
  unfold loadM
  repeat' first | with_reducible assumption | with_reducible apply State.QuietOut.next | with_reducible exact State.QuietOut.fault | with_reducible apply State.issue_quiet | with_reducible exact State.Quiet.refl _ | with_reducible intro _ | dsimp only | with_reducible apply State.coreFault_quiet | with_reducible apply State.loadTo_quiet | with_reducible apply State.updateAddr_quiet | split | with_reducible refine State.Quiet.of_fst (by assumption) ?_ | dsimp only

theorem execVld_quiet {s0 : State} {o : OpM} {s : State} (hq : s0.Quiet s) :
    s0.QuietOut (execVld o s) := by
  unfold execVld
  repeat' first | with_reducible assumption | with_reducible apply State.QuietOut.next | with_reducible exact State.QuietOut.fault | with_reducible apply loadM_quiet | split | with_reducible refine State.Quiet.of_fst (by assumption) ?_

theorem execVldb_quiet {s0 : State} {o : OpM} {s : State} (hq : s0.Quiet s) :
    s0.QuietOut (execVldb o s) := by
  unfold execVldb
  repeat' first | with_reducible assumption | with_reducible apply State.QuietOut.next | with_reducible exact State.QuietOut.fault | with_reducible apply loadM_quiet | split | with_reducible refine State.Quiet.of_fst (by assumption) ?_ | dsimp only

theorem execSld_quiet {s0 : State} {o : OpM} {s : State} (hq : s0.Quiet s) :
    s0.QuietOut (execSld o s) := by
  unfold execSld
  repeat' first | with_reducible assumption | with_reducible apply State.QuietOut.next | with_reducible exact State.QuietOut.fault | with_reducible apply loadM_quiet | split | with_reducible refine State.Quiet.of_fst (by assumption) ?_

theorem State.twoAccesses_quiet {s0 : State} {s : State} {c : Nat} (hq : s0.Quiet s) :
    s0.Quiet (State.twoAccesses s c) := by
  unfold State.twoAccesses
  repeat' first | with_reducible assumption | with_reducible apply State.setCore_quiet | with_reducible apply State.Quiet.foldl | with_reducible apply State.Quiet.eachPort | with_reducible exact State.Quiet.refl _ | with_reducible intro _ _ | split | with_reducible refine State.Quiet.of_fst (by assumption) ?_ | fail_if_no_progress with_reducible refine State.Quiet.other ?_ rfl rfl rfl rfl rfl rfl rfl | dsimp only

theorem execVld2_quiet {s0 : State} {o : OpM2} {s : State} (hq : s0.Quiet s) :
    s0.QuietOut (execVld2 o s) := by
  unfold execVld2
  repeat' first | with_reducible assumption | with_reducible apply State.QuietOut.next | with_reducible exact State.QuietOut.fault | with_reducible apply State.issue_quiet | with_reducible apply State.coreFault_quiet | with_reducible apply State.twoAccesses_quiet | with_reducible apply State.loadTo_quiet | with_reducible apply State.updateAddr_quiet | with_reducible exact State.Quiet.refl _ | with_reducible intro _ | dsimp only | with_reducible apply State.Quiet.foldl | with_reducible apply State.Quiet.eachPort | with_reducible exact State.Quiet.refl _ | with_reducible intro _ _ | split | with_reducible refine State.Quiet.of_fst (by assumption) ?_ | fail_if_no_progress with_reducible refine State.Quiet.other ?_ rfl rfl rfl rfl rfl rfl rfl | dsimp only

theorem execVldst_quiet {s0 : State} {o : OpM2} {s : State} (hq : s0.Quiet s) :
    s0.QuietOut (execVldst o s) := by
  unfold execVldst
  repeat' first | with_reducible assumption | with_reducible apply State.QuietOut.next | with_reducible exact State.QuietOut.fault | with_reducible apply State.issue_quiet | with_reducible apply State.coreFault_quiet | with_reducible apply State.twoAccesses_quiet | with_reducible apply State.loadTo_quiet | with_reducible apply State.setCore_quiet | with_reducible apply State.updateAddr_quiet | with_reducible exact State.Quiet.refl _ | with_reducible intro _ | dsimp only | with_reducible apply State.Quiet.foldl | with_reducible apply State.Quiet.eachPort | with_reducible exact State.Quiet.refl _ | with_reducible intro _ _ | split | with_reducible refine State.Quiet.of_fst (by assumption) ?_ | fail_if_no_progress with_reducible refine State.Quiet.other ?_ rfl rfl rfl rfl rfl rfl rfl | dsimp only

theorem storeM_quiet {s0 : State} {o : OpM} {size : Nat} {inc : Int} {cells : BCore → Nat → List Host.Cell} {s : State} (hq : s0.Quiet s) :
    s0.QuietOut (storeM o size inc cells s) := by
  unfold storeM
  repeat' first | with_reducible assumption | with_reducible apply State.QuietOut.next | with_reducible exact State.QuietOut.fault | with_reducible apply State.issue_quiet | with_reducible exact State.Quiet.refl _ | with_reducible intro _ | dsimp only | with_reducible apply State.coreFault_quiet | with_reducible apply State.setCore_quiet | with_reducible apply State.updateAddr_quiet | split | with_reducible refine State.Quiet.of_fst (by assumption) ?_ | dsimp only

theorem execVst_quiet {s0 : State} {o : OpM} {s : State} (hq : s0.Quiet s) :
    s0.QuietOut (execVst o s) := by
  unfold execVst
  repeat' first | with_reducible assumption | with_reducible apply State.QuietOut.next | with_reducible exact State.QuietOut.fault | with_reducible apply storeM_quiet | split | with_reducible refine State.Quiet.of_fst (by assumption) ?_ | dsimp only

theorem execVstm_quiet {s0 : State} {o : OpM} {s : State} (hq : s0.Quiet s) :
    s0.QuietOut (execVstm o s) := by
  unfold execVstm
  repeat' first | with_reducible assumption | with_reducible apply State.QuietOut.next | with_reducible exact State.QuietOut.fault | with_reducible apply storeM_quiet | split | with_reducible refine State.Quiet.of_fst (by assumption) ?_ | dsimp only

theorem execSst_quiet {s0 : State} {o : OpM} {s : State} (hq : s0.Quiet s) :
    s0.QuietOut (execSst o s) := by
  unfold execSst
  repeat' first | with_reducible assumption | with_reducible apply State.QuietOut.next | with_reducible exact State.QuietOut.fault | with_reducible apply storeM_quiet | split | with_reducible refine State.Quiet.of_fst (by assumption) ?_ | dsimp only

theorem execAaddi_quiet {s0 : State} {o : OpM} {s : State} (hq : s0.Quiet s) :
    s0.QuietOut (execAaddi o s) := by
  unfold execAaddi
  repeat' first | with_reducible assumption | with_reducible apply State.QuietOut.next | with_reducible exact State.QuietOut.fault | with_reducible apply State.issueCore_quiet | split | with_reducible refine State.Quiet.of_fst (by assumption) ?_ | dsimp only

theorem execAmov_quiet {s0 : State} {o : OpS} {an : BitVec 3} {s : State} (hq : s0.Quiet s) :
    s0.QuietOut (execAmov o an s) := by
  unfold execAmov
  repeat' first | with_reducible assumption | with_reducible apply State.QuietOut.next | with_reducible exact State.QuietOut.fault | with_reducible apply State.issueCore_quiet | split | with_reducible refine State.Quiet.of_fst (by assumption) ?_ | dsimp only

theorem execAget_quiet {s0 : State} {o : OpS} {an : BitVec 3} {s : State} (hq : s0.Quiet s) :
    s0.QuietOut (execAget o an s) := by
  unfold execAget
  repeat' first | with_reducible assumption | with_reducible apply State.QuietOut.next | with_reducible exact State.QuietOut.fault | with_reducible apply State.issueCore_quiet | split | with_reducible refine State.Quiet.of_fst (by assumption) ?_ | dsimp only

theorem startDma_quiet {s0 : State} {o : OpS} {want : Nat} {s : State} (hq : s0.Quiet s) :
    s0.QuietOut (startDma o want s) := by
  unfold startDma
  try extract_lets y1
  repeat' first | with_reducible assumption | with_reducible apply State.QuietOut.next | with_reducible exact State.QuietOut.fault | with_reducible apply State.issue_quiet | with_reducible exact State.Quiet.refl _ | with_reducible intro _ | dsimp only | with_reducible apply State.coreFault_quiet | with_reducible apply State.loadBytes_quiet | with_reducible apply State.setCore_quiet | split | with_reducible refine State.Quiet.of_fst (by assumption) ?_ | fail_if_no_progress with_reducible refine State.Quiet.other ?_ rfl rfl rfl rfl rfl rfl rfl | dsimp only

theorem execBrickIn_quiet {s0 : State} {o : OpS} {s : State} (hq : s0.Quiet s) :
    s0.QuietOut (execBrickIn o s) := by
  unfold execBrickIn
  repeat' first | with_reducible assumption | with_reducible apply State.QuietOut.next | with_reducible exact State.QuietOut.fault | with_reducible apply startDma_quiet | split | with_reducible refine State.Quiet.of_fst (by assumption) ?_

theorem execScratchIn_quiet {s0 : State} {o : OpS} {s : State} (hq : s0.Quiet s) :
    s0.QuietOut (execScratchIn o s) := by
  unfold execScratchIn
  repeat' first | with_reducible assumption | with_reducible apply State.QuietOut.next | with_reducible exact State.QuietOut.fault | with_reducible apply startDma_quiet | split | with_reducible refine State.Quiet.of_fst (by assumption) ?_

theorem execScratchOut_quiet {s0 : State} {o : OpS} {s : State} (hq : s0.Quiet s) :
    s0.QuietOut (execScratchOut o s) := by
  unfold execScratchOut
  repeat' first | with_reducible assumption | with_reducible apply State.QuietOut.next | with_reducible exact State.QuietOut.fault | with_reducible apply startDma_quiet | split | with_reducible refine State.Quiet.of_fst (by assumption) ?_

theorem execOutput_quiet {s0 : State} {o : OpS} {s : State} (hq : s0.Quiet s) :
    s0.QuietOut (execOutput o s) := by
  unfold execOutput
  repeat' first | with_reducible assumption | with_reducible apply State.QuietOut.next | with_reducible exact State.QuietOut.fault | with_reducible apply startDma_quiet | split | with_reducible refine State.Quiet.of_fst (by assumption) ?_

theorem execWaitd_quiet {s0 : State} {o : OpS} {s : State} (hq : s0.Quiet s) :
    s0.QuietOut (execWaitd o s) := by
  unfold execWaitd
  repeat' first | with_reducible assumption | with_reducible apply State.QuietOut.next | with_reducible exact State.QuietOut.fault | with_reducible apply State.issueCore_quiet | split | with_reducible refine State.Quiet.of_fst (by assumption) ?_ | fail_if_no_progress with_reducible refine State.Quiet.other ?_ rfl rfl rfl rfl rfl rfl rfl | dsimp only

theorem State.transfer_quiet {s0 : State} {s : State} {c : Nat} {d : BDma} (hq : s0.Quiet s) :
    s0.Quiet (State.transfer s c d) := by
  unfold State.transfer
  try extract_lets y1 y2 y3
  repeat' first | with_reducible assumption | with_reducible apply State.setInst_quiet | with_reducible apply State.setCore_quiet | split | with_reducible refine State.Quiet.of_fst (by assumption) ?_ | fail_if_no_progress with_reducible refine State.Quiet.other ?_ rfl rfl rfl rfl rfl rfl rfl | dsimp only

theorem State.thaw_quiet {s0 : State} {s : State} {c : Nat} (hq : s0.Quiet s) :
    s0.Quiet (State.thaw s c) := by
  unfold State.thaw
  try extract_lets y1 y2
  repeat' first | with_reducible assumption | with_reducible apply State.setCore_quiet | with_reducible apply State.drawn_quiet | split | with_reducible refine State.Quiet.of_fst (by assumption) ?_

theorem execDmaComplete_quiet {s0 : State} {core ch : Nat} {s : State} (hq : s0.Quiet s) :
    s0.QuietOut (execDmaComplete core ch s) := by
  unfold execDmaComplete
  try extract_lets y1
  repeat' first | with_reducible assumption | with_reducible apply State.QuietOut.next | with_reducible exact State.QuietOut.fault | with_reducible apply State.transfer_quiet | with_reducible apply State.setCore_quiet | with_reducible apply State.thaw_quiet | with_reducible apply State.withCore_quiet | with_reducible apply State.finishTend_quiet | split | with_reducible refine State.Quiet.of_fst (by assumption) ?_ | fail_if_no_progress with_reducible refine State.Quiet.other ?_ rfl rfl rfl rfl rfl rfl rfl | dsimp only

end Sys2Proof.Machine
end

