-- ==== Sys2Proof/Laws/KeepsBasaltControl.lean ====
section
/-! SUPPORT. What the operations of Machine/BasaltControl.lean keep. -/

set_option linter.unusedTactic false
set_option linter.unreachableTactic false
set_option linter.unusedVariables false

namespace Sys2Proof.Machine

theorem execNop_quiet {s0 : State} {core : Nat} {close : Bool} {s : State} (hq : s0.Quiet s) :
    s0.QuietOut (execNop core close s) := by
  unfold execNop
  repeat' first | with_reducible assumption | with_reducible apply State.QuietOut.next | with_reducible exact State.QuietOut.fault | with_reducible apply State.issueCore_quiet | split | with_reducible refine State.Quiet.of_fst (by assumption) ?_

theorem execRotDecrement_quiet {s0 : State} {core : Nat} {s : State} (hq : s0.Quiet s) :
    s0.QuietOut (execRotDecrement core s) := by
  unfold execRotDecrement
  repeat' first | with_reducible assumption | with_reducible apply State.QuietOut.next | with_reducible exact State.QuietOut.fault | with_reducible apply State.issueCore_quiet | split | with_reducible refine State.Quiet.of_fst (by assumption) ?_ | fail_if_no_progress with_reducible refine State.Quiet.other ?_ rfl rfl rfl rfl rfl rfl rfl | dsimp only

theorem branchOp_quiet {s0 : State} {o : OpC} {f : BCore → Option Nat} {s : State} (hq : s0.Quiet s) :
    s0.QuietOut (branchOp o f s) := by
  unfold branchOp
  repeat' first | with_reducible assumption | with_reducible apply State.QuietOut.next | with_reducible exact State.QuietOut.fault | with_reducible apply State.issueCore_quiet | split | with_reducible refine State.Quiet.of_fst (by assumption) ?_ | fail_if_no_progress with_reducible refine State.Quiet.other ?_ rfl rfl rfl rfl rfl rfl rfl | dsimp only

theorem execBr_quiet {s0 : State} {o : OpC} {s : State} (hq : s0.Quiet s) :
    s0.QuietOut (execBr o s) := by
  unfold execBr
  repeat' first | with_reducible assumption | with_reducible apply State.QuietOut.next | with_reducible exact State.QuietOut.fault | with_reducible apply branchOp_quiet | split | with_reducible refine State.Quiet.of_fst (by assumption) ?_ | dsimp only

theorem execBrz_quiet {s0 : State} {o : OpC} {s : State} (hq : s0.Quiet s) :
    s0.QuietOut (execBrz o s) := by
  unfold execBrz
  repeat' first | with_reducible assumption | with_reducible apply State.QuietOut.next | with_reducible exact State.QuietOut.fault | with_reducible apply branchOp_quiet | split | with_reducible refine State.Quiet.of_fst (by assumption) ?_ | dsimp only

theorem execBrnz_quiet {s0 : State} {o : OpC} {s : State} (hq : s0.Quiet s) :
    s0.QuietOut (execBrnz o s) := by
  unfold execBrnz
  repeat' first | with_reducible assumption | with_reducible apply State.QuietOut.next | with_reducible exact State.QuietOut.fault | with_reducible apply branchOp_quiet | split | with_reducible refine State.Quiet.of_fst (by assumption) ?_ | dsimp only

theorem execBri_quiet {s0 : State} {o : OpC} {s : State} (hq : s0.Quiet s) :
    s0.QuietOut (execBri o s) := by
  unfold execBri
  repeat' first | with_reducible assumption | with_reducible apply State.QuietOut.next | with_reducible exact State.QuietOut.fault | with_reducible apply branchOp_quiet | split | with_reducible refine State.Quiet.of_fst (by assumption) ?_ | dsimp only

theorem execCall_quiet {s0 : State} {o : OpC} {s : State} (hq : s0.Quiet s) :
    s0.QuietOut (execCall o s) := by
  unfold execCall
  repeat' first | with_reducible assumption | with_reducible apply State.QuietOut.next | with_reducible exact State.QuietOut.fault | with_reducible apply State.issueCore_quiet | split | with_reducible refine State.Quiet.of_fst (by assumption) ?_ | fail_if_no_progress with_reducible refine State.Quiet.other ?_ rfl rfl rfl rfl rfl rfl rfl | dsimp only

theorem execReti_quiet {s0 : State} {o : OpC} {s : State} (hq : s0.Quiet s) :
    s0.QuietOut (execReti o s) := by
  unfold execReti
  repeat' first | with_reducible assumption | with_reducible apply State.QuietOut.next | with_reducible exact State.QuietOut.fault | with_reducible apply State.issueCore_quiet | split | with_reducible refine State.Quiet.of_fst (by assumption) ?_ | fail_if_no_progress with_reducible refine State.Quiet.other ?_ rfl rfl rfl rfl rfl rfl rfl | dsimp only

theorem loopOp_quiet {s0 : State} {o : OpC} {base : Nat} {s : State} (hq : s0.Quiet s) :
    s0.QuietOut (loopOp o base s) := by
  unfold loopOp
  repeat' first | with_reducible assumption | with_reducible apply State.QuietOut.next | with_reducible exact State.QuietOut.fault | with_reducible apply State.issueCore_quiet | split | with_reducible refine State.Quiet.of_fst (by assumption) ?_ | fail_if_no_progress with_reducible refine State.Quiet.other ?_ rfl rfl rfl rfl rfl rfl rfl | dsimp only

theorem execLoopa_quiet {s0 : State} {o : OpC} {s : State} (hq : s0.Quiet s) :
    s0.QuietOut (execLoopa o s) := by
  unfold execLoopa
  repeat' first | with_reducible assumption | with_reducible apply State.QuietOut.next | with_reducible exact State.QuietOut.fault | with_reducible apply loopOp_quiet | split | with_reducible refine State.Quiet.of_fst (by assumption) ?_

theorem execLoopb_quiet {s0 : State} {o : OpC} {s : State} (hq : s0.Quiet s) :
    s0.QuietOut (execLoopb o s) := by
  unfold execLoopb
  repeat' first | with_reducible assumption | with_reducible apply State.QuietOut.next | with_reducible exact State.QuietOut.fault | with_reducible apply loopOp_quiet | split | with_reducible refine State.Quiet.of_fst (by assumption) ?_

theorem execMfc_quiet {s0 : State} {o : OpC} {s : State} (hq : s0.Quiet s) :
    s0.QuietOut (execMfc o s) := by
  unfold execMfc
  repeat' first | with_reducible assumption | with_reducible apply State.QuietOut.next | with_reducible exact State.QuietOut.fault | with_reducible apply State.issueCore_quiet | with_reducible apply State.issueFree_quiet | split | with_reducible refine State.Quiet.of_fst (by assumption) ?_ | dsimp only

theorem execMtc_quiet {s0 : State} {o : OpC} {s : State} (hq : s0.Quiet s) :
    s0.QuietOut (execMtc o s) := by
  unfold execMtc
  try extract_lets y1
  repeat' first | with_reducible assumption | with_reducible apply State.QuietOut.next | with_reducible exact State.QuietOut.fault | with_reducible apply State.issueCore_quiet | split | with_reducible refine State.Quiet.of_fst (by assumption) ?_ | fail_if_no_progress with_reducible refine State.Quiet.other ?_ rfl rfl rfl rfl rfl rfl rfl | dsimp only

theorem execDint_quiet {s0 : State} {o : OpC} {s : State} (hq : s0.Quiet s) :
    s0.QuietOut (execDint o s) := by
  unfold execDint
  repeat' first | with_reducible assumption | with_reducible apply State.QuietOut.next | with_reducible exact State.QuietOut.fault | with_reducible apply State.issueCore_quiet | split | with_reducible refine State.Quiet.of_fst (by assumption) ?_ | dsimp only

theorem execEint_quiet {s0 : State} {o : OpC} {s : State} (hq : s0.Quiet s) :
    s0.QuietOut (execEint o s) := by
  unfold execEint
  repeat' first | with_reducible assumption | with_reducible apply State.QuietOut.next | with_reducible exact State.QuietOut.fault | with_reducible apply State.issueCore_quiet | split | with_reducible refine State.Quiet.of_fst (by assumption) ?_ | dsimp only

theorem execTend_quiet {s0 : State} {o : OpC} {t : Tick} {s : State} (hq : s0.Quiet s) :
    s0.QuietOut (execTend o t s) := by
  unfold execTend
  repeat' first | with_reducible assumption | with_reducible apply State.QuietOut.next | with_reducible exact State.QuietOut.fault | with_reducible apply State.at_quiet | with_reducible apply State.issueCore_quiet | split | with_reducible refine State.Quiet.of_fst (by assumption) ?_ | fail_if_no_progress with_reducible refine State.Quiet.other ?_ rfl rfl rfl rfl rfl rfl rfl | dsimp only

theorem execTrace_quiet {s0 : State} {o : OpC} {s : State} (hq : s0.Quiet s) :
    s0.QuietOut (execTrace o s) := by
  unfold execTrace
  repeat' first | with_reducible assumption | with_reducible apply State.QuietOut.next | with_reducible exact State.QuietOut.fault | with_reducible apply State.issueCore_quiet | split | with_reducible refine State.Quiet.of_fst (by assumption) ?_ | fail_if_no_progress with_reducible refine State.Quiet.other ?_ rfl rfl rfl rfl rfl rfl rfl | dsimp only

theorem execCrcv_quiet {s0 : State} {o : OpC} {s : State} (hq : s0.Quiet s) :
    s0.QuietOut (execCrcv o s) := by
  unfold execCrcv
  repeat' first | with_reducible assumption | with_reducible apply State.QuietOut.next | with_reducible exact State.QuietOut.fault | with_reducible apply State.issueCore_quiet | split | with_reducible refine State.Quiet.of_fst (by assumption) ?_ | dsimp only

theorem execCrcs_quiet {s0 : State} {o : OpC} {s : State} (hq : s0.Quiet s) :
    s0.QuietOut (execCrcs o s) := by
  unfold execCrcs
  repeat' first | with_reducible assumption | with_reducible apply State.QuietOut.next | with_reducible exact State.QuietOut.fault | with_reducible apply State.issueCore_quiet | split | with_reducible refine State.Quiet.of_fst (by assumption) ?_ | dsimp only

theorem execCrcseed_quiet {s0 : State} {o : OpC} {s : State} (hq : s0.Quiet s) :
    s0.QuietOut (execCrcseed o s) := by
  unfold execCrcseed
  repeat' first | with_reducible assumption | with_reducible apply State.QuietOut.next | with_reducible exact State.QuietOut.fault | with_reducible apply State.issueCore_quiet | split | with_reducible refine State.Quiet.of_fst (by assumption) ?_ | dsimp only

theorem execCrcfin_quiet {s0 : State} {o : OpC} {s : State} (hq : s0.Quiet s) :
    s0.QuietOut (execCrcfin o s) := by
  unfold execCrcfin
  repeat' first | with_reducible assumption | with_reducible apply State.QuietOut.next | with_reducible exact State.QuietOut.fault | with_reducible apply State.issueCore_quiet | split | with_reducible refine State.Quiet.of_fst (by assumption) ?_ | dsimp only

end Sys2Proof.Machine
end

