-- ==== Sys2Proof/Laws/KeepsBasaltEngine.lean ====
section
/-! SUPPORT. What the operations of Machine/BasaltEngine.lean keep. -/

set_option linter.unusedTactic false
set_option linter.unreachableTactic false
set_option linter.unusedVariables false

namespace Sys2Proof.Machine

theorem State.allocate_quiet {s0 : State} {s : State} {i : Nat} {set : PSet} (hq : s0.Quiet s) :
    s0.Quiet (State.allocate s i set) := by
  unfold State.allocate
  try extract_lets y1 y2 y3
  repeat' first | with_reducible assumption | with_reducible apply State.setCore_quiet | with_reducible apply State.publishCore_quiet | with_reducible apply State.freeCore_quiet | with_reducible apply State.Quiet.foldl | with_reducible apply State.Quiet.eachPort | with_reducible exact State.Quiet.refl _ | with_reducible intro _ _ | split | with_reducible refine State.Quiet.of_fst (by assumption) ?_ | fail_if_no_progress with_reducible refine State.Quiet.other ?_ rfl rfl rfl rfl rfl rfl rfl | dsimp only

theorem State.enterTile_quiet {s0 : State} {s : State} {i : Nat} {p : Port} {r : BReady} {b : Bank} (hq : s0.Quiet s) :
    s0.Quiet (State.enterTile s i p r b) := by
  unfold State.enterTile
  extract_lets y1 y2 y3 y4 y5 y6 y7 y8 y9 y10 y11 y12 y13 y14 y15 y16 y17 y18 y19 y20 y21 y22 y23
  try clear_value y1
  try clear_value y2
  try clear_value y3
  try clear_value y4
  try clear_value y5
  try clear_value y6
  try clear_value y7
  first
    | (have k8 : s0.Quiet y8 := by (dsimp only [y8]; repeat' first | with_reducible assumption | with_reducible apply State.allocate_quiet | with_reducible apply State.gone_quiet | with_reducible apply State.setInst_quiet | with_reducible apply State.closeTile_quiet | with_reducible apply State.publishInst_quiet | with_reducible apply State.basaltSettle_quiet | with_reducible apply State.bump_quiet | with_reducible apply State.enterCore_quiet | with_reducible apply State.Quiet.foldl | with_reducible apply State.Quiet.eachPort | with_reducible exact State.Quiet.refl _ | with_reducible intro _ _ | split | with_reducible refine State.Quiet.of_fst (by assumption) ?_ | fail_if_no_progress with_reducible refine State.Quiet.other ?_ rfl rfl rfl rfl rfl rfl rfl | dsimp only)
       clear_value y8)
    | (have k8 : s0.Quiet y8.1 := by (dsimp only [y8]; repeat' first | with_reducible assumption | with_reducible apply State.allocate_quiet | with_reducible apply State.gone_quiet | with_reducible apply State.setInst_quiet | with_reducible apply State.closeTile_quiet | with_reducible apply State.publishInst_quiet | with_reducible apply State.basaltSettle_quiet | with_reducible apply State.bump_quiet | with_reducible apply State.enterCore_quiet | with_reducible apply State.Quiet.foldl | with_reducible apply State.Quiet.eachPort | with_reducible exact State.Quiet.refl _ | with_reducible intro _ _ | split | with_reducible refine State.Quiet.of_fst (by assumption) ?_ | fail_if_no_progress with_reducible refine State.Quiet.other ?_ rfl rfl rfl rfl rfl rfl rfl | dsimp only)
       clear_value y8)
    | clear_value y8
    | skip
  first
    | (have k9 : s0.Quiet y9 := by (dsimp only [y9]; repeat' first | with_reducible assumption | with_reducible apply State.allocate_quiet | with_reducible apply State.gone_quiet | with_reducible apply State.setInst_quiet | with_reducible apply State.closeTile_quiet | with_reducible apply State.publishInst_quiet | with_reducible apply State.basaltSettle_quiet | with_reducible apply State.bump_quiet | with_reducible apply State.enterCore_quiet | with_reducible apply State.Quiet.foldl | with_reducible apply State.Quiet.eachPort | with_reducible exact State.Quiet.refl _ | with_reducible intro _ _ | split | with_reducible refine State.Quiet.of_fst (by assumption) ?_ | fail_if_no_progress with_reducible refine State.Quiet.other ?_ rfl rfl rfl rfl rfl rfl rfl | dsimp only)
       clear_value y9)
    | (have k9 : s0.Quiet y9.1 := by (dsimp only [y9]; repeat' first | with_reducible assumption | with_reducible apply State.allocate_quiet | with_reducible apply State.gone_quiet | with_reducible apply State.setInst_quiet | with_reducible apply State.closeTile_quiet | with_reducible apply State.publishInst_quiet | with_reducible apply State.basaltSettle_quiet | with_reducible apply State.bump_quiet | with_reducible apply State.enterCore_quiet | with_reducible apply State.Quiet.foldl | with_reducible apply State.Quiet.eachPort | with_reducible exact State.Quiet.refl _ | with_reducible intro _ _ | split | with_reducible refine State.Quiet.of_fst (by assumption) ?_ | fail_if_no_progress with_reducible refine State.Quiet.other ?_ rfl rfl rfl rfl rfl rfl rfl | dsimp only)
       clear_value y9)
    | clear_value y9
    | skip
  first
    | (have k10 : s0.Quiet y10 := by (dsimp only [y10]; repeat' first | with_reducible assumption | with_reducible apply State.allocate_quiet | with_reducible apply State.gone_quiet | with_reducible apply State.setInst_quiet | with_reducible apply State.closeTile_quiet | with_reducible apply State.publishInst_quiet | with_reducible apply State.basaltSettle_quiet | with_reducible apply State.bump_quiet | with_reducible apply State.enterCore_quiet | with_reducible apply State.Quiet.foldl | with_reducible apply State.Quiet.eachPort | with_reducible exact State.Quiet.refl _ | with_reducible intro _ _ | split | with_reducible refine State.Quiet.of_fst (by assumption) ?_ | fail_if_no_progress with_reducible refine State.Quiet.other ?_ rfl rfl rfl rfl rfl rfl rfl | dsimp only)
       clear_value y10)
    | (have k10 : s0.Quiet y10.1 := by (dsimp only [y10]; repeat' first | with_reducible assumption | with_reducible apply State.allocate_quiet | with_reducible apply State.gone_quiet | with_reducible apply State.setInst_quiet | with_reducible apply State.closeTile_quiet | with_reducible apply State.publishInst_quiet | with_reducible apply State.basaltSettle_quiet | with_reducible apply State.bump_quiet | with_reducible apply State.enterCore_quiet | with_reducible apply State.Quiet.foldl | with_reducible apply State.Quiet.eachPort | with_reducible exact State.Quiet.refl _ | with_reducible intro _ _ | split | with_reducible refine State.Quiet.of_fst (by assumption) ?_ | fail_if_no_progress with_reducible refine State.Quiet.other ?_ rfl rfl rfl rfl rfl rfl rfl | dsimp only)
       clear_value y10)
    | clear_value y10
    | skip
  first
    | (have k11 : s0.Quiet y11 := by (dsimp only [y11]; repeat' first | with_reducible assumption | with_reducible apply State.allocate_quiet | with_reducible apply State.gone_quiet | with_reducible apply State.setInst_quiet | with_reducible apply State.closeTile_quiet | with_reducible apply State.publishInst_quiet | with_reducible apply State.basaltSettle_quiet | with_reducible apply State.bump_quiet | with_reducible apply State.enterCore_quiet | with_reducible apply State.Quiet.foldl | with_reducible apply State.Quiet.eachPort | with_reducible exact State.Quiet.refl _ | with_reducible intro _ _ | split | with_reducible refine State.Quiet.of_fst (by assumption) ?_ | fail_if_no_progress with_reducible refine State.Quiet.other ?_ rfl rfl rfl rfl rfl rfl rfl | dsimp only)
       clear_value y11)
    | (have k11 : s0.Quiet y11.1 := by (dsimp only [y11]; repeat' first | with_reducible assumption | with_reducible apply State.allocate_quiet | with_reducible apply State.gone_quiet | with_reducible apply State.setInst_quiet | with_reducible apply State.closeTile_quiet | with_reducible apply State.publishInst_quiet | with_reducible apply State.basaltSettle_quiet | with_reducible apply State.bump_quiet | with_reducible apply State.enterCore_quiet | with_reducible apply State.Quiet.foldl | with_reducible apply State.Quiet.eachPort | with_reducible exact State.Quiet.refl _ | with_reducible intro _ _ | split | with_reducible refine State.Quiet.of_fst (by assumption) ?_ | fail_if_no_progress with_reducible refine State.Quiet.other ?_ rfl rfl rfl rfl rfl rfl rfl | dsimp only)
       clear_value y11)
    | clear_value y11
    | skip
  first
    | (have k12 : s0.Quiet y12 := by (dsimp only [y12]; repeat' first | with_reducible assumption | with_reducible apply State.allocate_quiet | with_reducible apply State.gone_quiet | with_reducible apply State.setInst_quiet | with_reducible apply State.closeTile_quiet | with_reducible apply State.publishInst_quiet | with_reducible apply State.basaltSettle_quiet | with_reducible apply State.bump_quiet | with_reducible apply State.enterCore_quiet | with_reducible apply State.Quiet.foldl | with_reducible apply State.Quiet.eachPort | with_reducible exact State.Quiet.refl _ | with_reducible intro _ _ | split | with_reducible refine State.Quiet.of_fst (by assumption) ?_ | fail_if_no_progress with_reducible refine State.Quiet.other ?_ rfl rfl rfl rfl rfl rfl rfl | dsimp only)
       clear_value y12)
    | (have k12 : s0.Quiet y12.1 := by (dsimp only [y12]; repeat' first | with_reducible assumption | with_reducible apply State.allocate_quiet | with_reducible apply State.gone_quiet | with_reducible apply State.setInst_quiet | with_reducible apply State.closeTile_quiet | with_reducible apply State.publishInst_quiet | with_reducible apply State.basaltSettle_quiet | with_reducible apply State.bump_quiet | with_reducible apply State.enterCore_quiet | with_reducible apply State.Quiet.foldl | with_reducible apply State.Quiet.eachPort | with_reducible exact State.Quiet.refl _ | with_reducible intro _ _ | split | with_reducible refine State.Quiet.of_fst (by assumption) ?_ | fail_if_no_progress with_reducible refine State.Quiet.other ?_ rfl rfl rfl rfl rfl rfl rfl | dsimp only)
       clear_value y12)
    | clear_value y12
    | skip
  first
    | (have k13 : s0.Quiet y13 := by (dsimp only [y13]; repeat' first | with_reducible assumption | with_reducible apply State.allocate_quiet | with_reducible apply State.gone_quiet | with_reducible apply State.setInst_quiet | with_reducible apply State.closeTile_quiet | with_reducible apply State.publishInst_quiet | with_reducible apply State.basaltSettle_quiet | with_reducible apply State.bump_quiet | with_reducible apply State.enterCore_quiet | with_reducible apply State.Quiet.foldl | with_reducible apply State.Quiet.eachPort | with_reducible exact State.Quiet.refl _ | with_reducible intro _ _ | split | with_reducible refine State.Quiet.of_fst (by assumption) ?_ | fail_if_no_progress with_reducible refine State.Quiet.other ?_ rfl rfl rfl rfl rfl rfl rfl | dsimp only)
       clear_value y13)
    | (have k13 : s0.Quiet y13.1 := by (dsimp only [y13]; repeat' first | with_reducible assumption | with_reducible apply State.allocate_quiet | with_reducible apply State.gone_quiet | with_reducible apply State.setInst_quiet | with_reducible apply State.closeTile_quiet | with_reducible apply State.publishInst_quiet | with_reducible apply State.basaltSettle_quiet | with_reducible apply State.bump_quiet | with_reducible apply State.enterCore_quiet | with_reducible apply State.Quiet.foldl | with_reducible apply State.Quiet.eachPort | with_reducible exact State.Quiet.refl _ | with_reducible intro _ _ | split | with_reducible refine State.Quiet.of_fst (by assumption) ?_ | fail_if_no_progress with_reducible refine State.Quiet.other ?_ rfl rfl rfl rfl rfl rfl rfl | dsimp only)
       clear_value y13)
    | clear_value y13
    | skip
  first
    | (have k14 : s0.Quiet y14 := by (dsimp only [y14]; repeat' first | with_reducible assumption | with_reducible apply State.allocate_quiet | with_reducible apply State.gone_quiet | with_reducible apply State.setInst_quiet | with_reducible apply State.closeTile_quiet | with_reducible apply State.publishInst_quiet | with_reducible apply State.basaltSettle_quiet | with_reducible apply State.bump_quiet | with_reducible apply State.enterCore_quiet | with_reducible apply State.Quiet.foldl | with_reducible apply State.Quiet.eachPort | with_reducible exact State.Quiet.refl _ | with_reducible intro _ _ | split | with_reducible refine State.Quiet.of_fst (by assumption) ?_ | fail_if_no_progress with_reducible refine State.Quiet.other ?_ rfl rfl rfl rfl rfl rfl rfl | dsimp only)
       clear_value y14)
    | (have k14 : s0.Quiet y14.1 := by (dsimp only [y14]; repeat' first | with_reducible assumption | with_reducible apply State.allocate_quiet | with_reducible apply State.gone_quiet | with_reducible apply State.setInst_quiet | with_reducible apply State.closeTile_quiet | with_reducible apply State.publishInst_quiet | with_reducible apply State.basaltSettle_quiet | with_reducible apply State.bump_quiet | with_reducible apply State.enterCore_quiet | with_reducible apply State.Quiet.foldl | with_reducible apply State.Quiet.eachPort | with_reducible exact State.Quiet.refl _ | with_reducible intro _ _ | split | with_reducible refine State.Quiet.of_fst (by assumption) ?_ | fail_if_no_progress with_reducible refine State.Quiet.other ?_ rfl rfl rfl rfl rfl rfl rfl | dsimp only)
       clear_value y14)
    | clear_value y14
    | skip
  first
    | (have k15 : s0.Quiet y15 := by (dsimp only [y15]; repeat' first | with_reducible assumption | with_reducible apply State.allocate_quiet | with_reducible apply State.gone_quiet | with_reducible apply State.setInst_quiet | with_reducible apply State.closeTile_quiet | with_reducible apply State.publishInst_quiet | with_reducible apply State.basaltSettle_quiet | with_reducible apply State.bump_quiet | with_reducible apply State.enterCore_quiet | with_reducible apply State.Quiet.foldl | with_reducible apply State.Quiet.eachPort | with_reducible exact State.Quiet.refl _ | with_reducible intro _ _ | split | with_reducible refine State.Quiet.of_fst (by assumption) ?_ | fail_if_no_progress with_reducible refine State.Quiet.other ?_ rfl rfl rfl rfl rfl rfl rfl | dsimp only)
       clear_value y15)
    | (have k15 : s0.Quiet y15.1 := by (dsimp only [y15]; repeat' first | with_reducible assumption | with_reducible apply State.allocate_quiet | with_reducible apply State.gone_quiet | with_reducible apply State.setInst_quiet | with_reducible apply State.closeTile_quiet | with_reducible apply State.publishInst_quiet | with_reducible apply State.basaltSettle_quiet | with_reducible apply State.bump_quiet | with_reducible apply State.enterCore_quiet | with_reducible apply State.Quiet.foldl | with_reducible apply State.Quiet.eachPort | with_reducible exact State.Quiet.refl _ | with_reducible intro _ _ | split | with_reducible refine State.Quiet.of_fst (by assumption) ?_ | fail_if_no_progress with_reducible refine State.Quiet.other ?_ rfl rfl rfl rfl rfl rfl rfl | dsimp only)
       clear_value y15)
    | clear_value y15
    | skip
  first
    | (have k16 : s0.Quiet y16 := by (dsimp only [y16]; repeat' first | with_reducible assumption | with_reducible apply State.allocate_quiet | with_reducible apply State.gone_quiet | with_reducible apply State.setInst_quiet | with_reducible apply State.closeTile_quiet | with_reducible apply State.publishInst_quiet | with_reducible apply State.basaltSettle_quiet | with_reducible apply State.bump_quiet | with_reducible apply State.enterCore_quiet | with_reducible apply State.Quiet.foldl | with_reducible apply State.Quiet.eachPort | with_reducible exact State.Quiet.refl _ | with_reducible intro _ _ | split | with_reducible refine State.Quiet.of_fst (by assumption) ?_ | fail_if_no_progress with_reducible refine State.Quiet.other ?_ rfl rfl rfl rfl rfl rfl rfl | dsimp only)
       clear_value y16)
    | (have k16 : s0.Quiet y16.1 := by (dsimp only [y16]; repeat' first | with_reducible assumption | with_reducible apply State.allocate_quiet | with_reducible apply State.gone_quiet | with_reducible apply State.setInst_quiet | with_reducible apply State.closeTile_quiet | with_reducible apply State.publishInst_quiet | with_reducible apply State.basaltSettle_quiet | with_reducible apply State.bump_quiet | with_reducible apply State.enterCore_quiet | with_reducible apply State.Quiet.foldl | with_reducible apply State.Quiet.eachPort | with_reducible exact State.Quiet.refl _ | with_reducible intro _ _ | split | with_reducible refine State.Quiet.of_fst (by assumption) ?_ | fail_if_no_progress with_reducible refine State.Quiet.other ?_ rfl rfl rfl rfl rfl rfl rfl | dsimp only)
       clear_value y16)
    | clear_value y16
    | skip
  first
    | (have k17 : s0.Quiet y17 := by (dsimp only [y17]; repeat' first | with_reducible assumption | with_reducible apply State.allocate_quiet | with_reducible apply State.gone_quiet | with_reducible apply State.setInst_quiet | with_reducible apply State.closeTile_quiet | with_reducible apply State.publishInst_quiet | with_reducible apply State.basaltSettle_quiet | with_reducible apply State.bump_quiet | with_reducible apply State.enterCore_quiet | with_reducible apply State.Quiet.foldl | with_reducible apply State.Quiet.eachPort | with_reducible exact State.Quiet.refl _ | with_reducible intro _ _ | split | with_reducible refine State.Quiet.of_fst (by assumption) ?_ | fail_if_no_progress with_reducible refine State.Quiet.other ?_ rfl rfl rfl rfl rfl rfl rfl | dsimp only)
       clear_value y17)
    | (have k17 : s0.Quiet y17.1 := by (dsimp only [y17]; repeat' first | with_reducible assumption | with_reducible apply State.allocate_quiet | with_reducible apply State.gone_quiet | with_reducible apply State.setInst_quiet | with_reducible apply State.closeTile_quiet | with_reducible apply State.publishInst_quiet | with_reducible apply State.basaltSettle_quiet | with_reducible apply State.bump_quiet | with_reducible apply State.enterCore_quiet | with_reducible apply State.Quiet.foldl | with_reducible apply State.Quiet.eachPort | with_reducible exact State.Quiet.refl _ | with_reducible intro _ _ | split | with_reducible refine State.Quiet.of_fst (by assumption) ?_ | fail_if_no_progress with_reducible refine State.Quiet.other ?_ rfl rfl rfl rfl rfl rfl rfl | dsimp only)
       clear_value y17)
    | clear_value y17
    | skip
  first
    | (have k18 : s0.Quiet y18 := by (dsimp only [y18]; repeat' first | with_reducible assumption | with_reducible apply State.allocate_quiet | with_reducible apply State.gone_quiet | with_reducible apply State.setInst_quiet | with_reducible apply State.closeTile_quiet | with_reducible apply State.publishInst_quiet | with_reducible apply State.basaltSettle_quiet | with_reducible apply State.bump_quiet | with_reducible apply State.enterCore_quiet | with_reducible apply State.Quiet.foldl | with_reducible apply State.Quiet.eachPort | with_reducible exact State.Quiet.refl _ | with_reducible intro _ _ | split | with_reducible refine State.Quiet.of_fst (by assumption) ?_ | fail_if_no_progress with_reducible refine State.Quiet.other ?_ rfl rfl rfl rfl rfl rfl rfl | dsimp only)
       clear_value y18)
    | (have k18 : s0.Quiet y18.1 := by (dsimp only [y18]; repeat' first | with_reducible assumption | with_reducible apply State.allocate_quiet | with_reducible apply State.gone_quiet | with_reducible apply State.setInst_quiet | with_reducible apply State.closeTile_quiet | with_reducible apply State.publishInst_quiet | with_reducible apply State.basaltSettle_quiet | with_reducible apply State.bump_quiet | with_reducible apply State.enterCore_quiet | with_reducible apply State.Quiet.foldl | with_reducible apply State.Quiet.eachPort | with_reducible exact State.Quiet.refl _ | with_reducible intro _ _ | split | with_reducible refine State.Quiet.of_fst (by assumption) ?_ | fail_if_no_progress with_reducible refine State.Quiet.other ?_ rfl rfl rfl rfl rfl rfl rfl | dsimp only)
       clear_value y18)
    | clear_value y18
    | skip
  first
    | (have k19 : s0.Quiet y19 := by (dsimp only [y19]; repeat' first | with_reducible assumption | with_reducible apply State.allocate_quiet | with_reducible apply State.gone_quiet | with_reducible apply State.setInst_quiet | with_reducible apply State.closeTile_quiet | with_reducible apply State.publishInst_quiet | with_reducible apply State.basaltSettle_quiet | with_reducible apply State.bump_quiet | with_reducible apply State.enterCore_quiet | with_reducible apply State.Quiet.foldl | with_reducible apply State.Quiet.eachPort | with_reducible exact State.Quiet.refl _ | with_reducible intro _ _ | split | with_reducible refine State.Quiet.of_fst (by assumption) ?_ | fail_if_no_progress with_reducible refine State.Quiet.other ?_ rfl rfl rfl rfl rfl rfl rfl | dsimp only)
       clear_value y19)
    | (have k19 : s0.Quiet y19.1 := by (dsimp only [y19]; repeat' first | with_reducible assumption | with_reducible apply State.allocate_quiet | with_reducible apply State.gone_quiet | with_reducible apply State.setInst_quiet | with_reducible apply State.closeTile_quiet | with_reducible apply State.publishInst_quiet | with_reducible apply State.basaltSettle_quiet | with_reducible apply State.bump_quiet | with_reducible apply State.enterCore_quiet | with_reducible apply State.Quiet.foldl | with_reducible apply State.Quiet.eachPort | with_reducible exact State.Quiet.refl _ | with_reducible intro _ _ | split | with_reducible refine State.Quiet.of_fst (by assumption) ?_ | fail_if_no_progress with_reducible refine State.Quiet.other ?_ rfl rfl rfl rfl rfl rfl rfl | dsimp only)
       clear_value y19)
    | clear_value y19
    | skip
  first
    | (have k20 : s0.Quiet y20 := by (dsimp only [y20]; repeat' first | with_reducible assumption | with_reducible apply State.allocate_quiet | with_reducible apply State.gone_quiet | with_reducible apply State.setInst_quiet | with_reducible apply State.closeTile_quiet | with_reducible apply State.publishInst_quiet | with_reducible apply State.basaltSettle_quiet | with_reducible apply State.bump_quiet | with_reducible apply State.enterCore_quiet | with_reducible apply State.Quiet.foldl | with_reducible apply State.Quiet.eachPort | with_reducible exact State.Quiet.refl _ | with_reducible intro _ _ | split | with_reducible refine State.Quiet.of_fst (by assumption) ?_ | fail_if_no_progress with_reducible refine State.Quiet.other ?_ rfl rfl rfl rfl rfl rfl rfl | dsimp only)
       clear_value y20)
    | (have k20 : s0.Quiet y20.1 := by (dsimp only [y20]; repeat' first | with_reducible assumption | with_reducible apply State.allocate_quiet | with_reducible apply State.gone_quiet | with_reducible apply State.setInst_quiet | with_reducible apply State.closeTile_quiet | with_reducible apply State.publishInst_quiet | with_reducible apply State.basaltSettle_quiet | with_reducible apply State.bump_quiet | with_reducible apply State.enterCore_quiet | with_reducible apply State.Quiet.foldl | with_reducible apply State.Quiet.eachPort | with_reducible exact State.Quiet.refl _ | with_reducible intro _ _ | split | with_reducible refine State.Quiet.of_fst (by assumption) ?_ | fail_if_no_progress with_reducible refine State.Quiet.other ?_ rfl rfl rfl rfl rfl rfl rfl | dsimp only)
       clear_value y20)
    | clear_value y20
    | skip
  repeat' first | with_reducible assumption | with_reducible apply State.allocate_quiet | with_reducible apply State.gone_quiet | with_reducible apply State.setInst_quiet | with_reducible apply State.closeTile_quiet | with_reducible apply State.publishInst_quiet | with_reducible apply State.basaltSettle_quiet | with_reducible apply State.bump_quiet | with_reducible apply State.enterCore_quiet | with_reducible apply State.Quiet.foldl | with_reducible apply State.Quiet.eachPort | with_reducible exact State.Quiet.refl _ | with_reducible intro _ _ | split | with_reducible refine State.Quiet.of_fst (by assumption) ?_ | fail_if_no_progress with_reducible refine State.Quiet.other ?_ rfl rfl rfl rfl rfl rfl rfl | dsimp only

theorem execBasaltTileEntry_quiet {s0 : State} {t : Tick} {inst : Nat} {s : State} (hq : s0.Quiet s) :
    s0.QuietOut (execBasaltTileEntry t inst s) := by
  unfold execBasaltTileEntry
  try extract_lets y1 y2
  try
    have k1 : s0.Quiet y1 := by
      dsimp only [y1]
      repeat' first | with_reducible assumption | with_reducible apply State.at_quiet | split | with_reducible refine State.Quiet.of_fst (by assumption) ?_
    clear_value y1
  repeat' first | with_reducible assumption | with_reducible apply State.QuietOut.next | with_reducible exact State.QuietOut.fault | with_reducible apply State.at_quiet | with_reducible apply State.enterTile_quiet | split | with_reducible refine State.Quiet.of_fst (by assumption) ?_ | dsimp only

theorem execInterruptEntry_quiet {s0 : State} {core : Nat} {s : State} (hq : s0.Quiet s) :
    s0.QuietOut (execInterruptEntry core s) := by
  unfold execInterruptEntry
  try extract_lets y1 y2 y3
  try
    have k3 : s0.Quiet y3 := by
      dsimp only [y3]
      repeat' first | with_reducible assumption | with_reducible apply State.thaw_quiet | split | with_reducible refine State.Quiet.of_fst (by assumption) ?_
    clear_value y3
  repeat' first | with_reducible assumption | with_reducible apply State.QuietOut.next | with_reducible exact State.QuietOut.fault | with_reducible apply State.withCore_quiet | split | with_reducible refine State.Quiet.of_fst (by assumption) ?_ | fail_if_no_progress with_reducible refine State.Quiet.other ?_ rfl rfl rfl rfl rfl rfl rfl

theorem execKeTimerExpiry_quiet {s0 : State} {core : Nat} {s : State} (hq : s0.Quiet s) :
    s0.QuietOut (execKeTimerExpiry core s) := by
  unfold execKeTimerExpiry
  try extract_lets y1
  repeat' first | with_reducible assumption | with_reducible apply State.QuietOut.next | with_reducible exact State.QuietOut.fault | with_reducible apply State.setCore_quiet | split | with_reducible refine State.Quiet.of_fst (by assumption) ?_

theorem execDeadlineWarn_quiet {s0 : State} {core : Nat} {s : State} (hq : s0.Quiet s) :
    s0.QuietOut (execDeadlineWarn core s) := by
  unfold execDeadlineWarn
  try extract_lets y1 y2 y3
  repeat' first | with_reducible assumption | with_reducible apply State.QuietOut.next | with_reducible exact State.QuietOut.fault | with_reducible apply State.setCore_quiet | split | with_reducible refine State.Quiet.of_fst (by assumption) ?_

theorem execKernelDeadline_quiet {s0 : State} {t : Tick} {core : Nat} {s : State} (hq : s0.Quiet s) :
    s0.QuietOut (execKernelDeadline t core s) := by
  unfold execKernelDeadline
  try extract_lets y1 y2 y3
  try
    have k1 : s0.Quiet y1 := by
      dsimp only [y1]
      repeat' first | with_reducible assumption | with_reducible apply State.at_quiet | split | with_reducible refine State.Quiet.of_fst (by assumption) ?_
    clear_value y1
  try
    have k3 : s0.Quiet y3 := by
      dsimp only [y3]
      repeat' first | with_reducible assumption | with_reducible apply State.setCore_quiet | with_reducible apply State.coreFault_quiet | split | with_reducible refine State.Quiet.of_fst (by assumption) ?_
    clear_value y3
  repeat' first | with_reducible assumption | with_reducible apply State.QuietOut.next | with_reducible exact State.QuietOut.fault | with_reducible apply State.at_quiet | with_reducible apply State.setCore_quiet | with_reducible apply State.coreFault_quiet | with_reducible apply State.closeTile_quiet | with_reducible apply State.basaltSettle_quiet | split | with_reducible refine State.Quiet.of_fst (by assumption) ?_ | dsimp only

theorem execCoreHardwareFault_quiet {s0 : State} {t : Tick} {core : Nat} {cause : Nat} {s : State} (hq : s0.Quiet s) :
    s0.QuietOut (execCoreHardwareFault t core cause s) := by
  unfold execCoreHardwareFault
  try extract_lets y1 y2 y3 y4 y5 y6 y7
  try
    have k1 : s0.Quiet y1 := by
      dsimp only [y1]
      repeat' first | with_reducible assumption | with_reducible apply State.at_quiet | split | with_reducible refine State.Quiet.of_fst (by assumption) ?_
    clear_value y1
  try
    have k3 : s0.Quiet y3 := by
      dsimp only [y3]
      repeat' first | with_reducible assumption | with_reducible apply State.coreStop_quiet | split | with_reducible refine State.Quiet.of_fst (by assumption) ?_
    clear_value y3
  try
    have k5 : s0.Quiet y5 := by
      dsimp only [y5]
      repeat' first | with_reducible assumption | with_reducible apply State.setCore_quiet | with_reducible apply State.publishCore_quiet | split | with_reducible refine State.Quiet.of_fst (by assumption) ?_ | fail_if_no_progress with_reducible refine State.Quiet.other ?_ rfl rfl rfl rfl rfl rfl rfl
    clear_value y5
  try
    have k7 : s0.Quiet y7 := by
      dsimp only [y7]
      repeat' first | with_reducible assumption | split | with_reducible refine State.Quiet.of_fst (by assumption) ?_ | fail_if_no_progress with_reducible refine State.Quiet.other ?_ rfl rfl rfl rfl rfl rfl rfl
    clear_value y7
  repeat' first | with_reducible assumption | with_reducible apply State.QuietOut.next | with_reducible exact State.QuietOut.fault | with_reducible apply State.at_quiet | with_reducible apply State.coreStop_quiet | with_reducible apply State.setCore_quiet | with_reducible apply State.publishCore_quiet | with_reducible apply State.setInst_quiet | with_reducible apply State.publishInst_quiet | with_reducible apply State.raise_quiet | split | with_reducible refine State.Quiet.of_fst (by assumption) ?_ | fail_if_no_progress with_reducible refine State.Quiet.other ?_ rfl rfl rfl rfl rfl rfl rfl | dsimp only

theorem execSpareCoreLoaded_quiet {s0 : State} {t : Tick} {core : Nat} {s : State} (hq : s0.Quiet s) :
    s0.QuietOut (execSpareCoreLoaded t core s) := by
  unfold execSpareCoreLoaded
  try extract_lets y1 y2 y3
  try
    have k1 : s0.Quiet y1 := by
      dsimp only [y1]
      repeat' first | with_reducible assumption | with_reducible apply State.QuietOut.next | with_reducible exact State.QuietOut.fault | with_reducible apply State.at_quiet | with_reducible apply State.setCore_quiet | with_reducible apply State.publishCore_quiet | with_reducible apply State.raise_quiet | with_reducible apply State.Quiet.foldl | with_reducible apply State.Quiet.eachPort | with_reducible exact State.Quiet.refl _ | with_reducible intro _ _ | split | with_reducible refine State.Quiet.of_fst (by assumption) ?_ | fail_if_no_progress with_reducible refine State.Quiet.other ?_ rfl rfl rfl rfl rfl rfl rfl | dsimp only
    clear_value y1
  repeat' first | with_reducible assumption | with_reducible apply State.QuietOut.next | with_reducible exact State.QuietOut.fault | with_reducible apply State.at_quiet | with_reducible apply State.setCore_quiet | with_reducible apply State.publishCore_quiet | with_reducible apply State.raise_quiet | with_reducible apply State.Quiet.foldl | with_reducible apply State.Quiet.eachPort | with_reducible exact State.Quiet.refl _ | with_reducible intro _ _ | split | with_reducible refine State.Quiet.of_fst (by assumption) ?_ | fail_if_no_progress with_reducible refine State.Quiet.other ?_ rfl rfl rfl rfl rfl rfl rfl | dsimp only

theorem State.basaltStop_quiet {s0 : State} {s : State} (hq : s0.Quiet s) :
    s0.Quiet (State.basaltStop s) := by
  unfold State.basaltStop
  try extract_lets y1 y2
  try
    have k1 : s0.Quiet y1 := by
      dsimp only [y1]
      repeat' first | with_reducible assumption | with_reducible apply State.setCore_quiet | with_reducible apply State.publishCore_quiet | with_reducible apply State.setInst_quiet | with_reducible apply State.publishInst_quiet | with_reducible apply State.Quiet.foldl | with_reducible apply State.Quiet.eachPort | with_reducible exact State.Quiet.refl _ | with_reducible intro _ _ | split | with_reducible refine State.Quiet.of_fst (by assumption) ?_ | fail_if_no_progress with_reducible refine State.Quiet.other ?_ rfl rfl rfl rfl rfl rfl rfl | dsimp only
    clear_value y1
  repeat' first | with_reducible assumption | with_reducible apply State.setCore_quiet | with_reducible apply State.publishCore_quiet | with_reducible apply State.setInst_quiet | with_reducible apply State.publishInst_quiet | with_reducible apply State.Quiet.foldl | with_reducible apply State.Quiet.eachPort | with_reducible exact State.Quiet.refl _ | with_reducible intro _ _ | split | with_reducible refine State.Quiet.of_fst (by assumption) ?_ | fail_if_no_progress with_reducible refine State.Quiet.other ?_ rfl rfl rfl rfl rfl rfl rfl | dsimp only

theorem State.basaltAtF_quiet {s0 : State} {s : State} (hq : s0.Quiet s) :
    s0.Quiet (State.basaltAtF s) := by
  unfold State.basaltAtF
  repeat' first | with_reducible assumption | with_reducible apply State.roSet_quiet | with_reducible apply State.basaltSettle_quiet | with_reducible apply State.Quiet.foldl | with_reducible exact State.Quiet.refl _ | with_reducible intro _ _ | split | with_reducible refine State.Quiet.of_fst (by assumption) ?_ | dsimp only

end Sys2Proof.Machine
end

