-- ==== Sys2Proof/Laws/KeepsBasaltMac.lean ====
section
/-! SUPPORT. What the operations of Machine/BasaltMac.lean keep. -/

set_option linter.unusedTactic false
set_option linter.unreachableTactic false
set_option linter.unusedVariables false

namespace Sys2Proof.Machine

theorem accOp_quiet {s0 : State} {o : OpX} {f : Int → Int → Int → Int} {s : State} (hq : s0.Quiet s) :
    s0.QuietOut (accOp o f s) := by
  unfold accOp
  repeat' first | with_reducible assumption | with_reducible apply State.QuietOut.next | with_reducible exact State.QuietOut.fault | with_reducible apply State.issueCore_quiet | split | with_reducible refine State.Quiet.of_fst (by assumption) ?_ | dsimp only

theorem execVmac_quiet {s0 : State} {o : OpX} {s : State} (hq : s0.Quiet s) :
    s0.QuietOut (execVmac o s) := by
  unfold execVmac
  repeat' first | with_reducible assumption | with_reducible apply State.QuietOut.next | with_reducible exact State.QuietOut.fault | with_reducible apply accOp_quiet | split | with_reducible refine State.Quiet.of_fst (by assumption) ?_ | dsimp only

theorem execVmsu_quiet {s0 : State} {o : OpX} {s : State} (hq : s0.Quiet s) :
    s0.QuietOut (execVmsu o s) := by
  unfold execVmsu
  repeat' first | with_reducible assumption | with_reducible apply State.QuietOut.next | with_reducible exact State.QuietOut.fault | with_reducible apply accOp_quiet | split | with_reducible refine State.Quiet.of_fst (by assumption) ?_ | dsimp only

theorem execVmul_quiet {s0 : State} {o : OpX} {s : State} (hq : s0.Quiet s) :
    s0.QuietOut (execVmul o s) := by
  unfold execVmul
  repeat' first | with_reducible assumption | with_reducible apply State.QuietOut.next | with_reducible exact State.QuietOut.fault | with_reducible apply accOp_quiet | split | with_reducible refine State.Quiet.of_fst (by assumption) ?_ | dsimp only

theorem execVsqa_quiet {s0 : State} {o : OpX} {s : State} (hq : s0.Quiet s) :
    s0.QuietOut (execVsqa o s) := by
  unfold execVsqa
  repeat' first | with_reducible assumption | with_reducible apply State.QuietOut.next | with_reducible exact State.QuietOut.fault | with_reducible apply accOp_quiet | split | with_reducible refine State.Quiet.of_fst (by assumption) ?_ | dsimp only

theorem execVmacs_quiet {s0 : State} {o : OpX} {s : State} (hq : s0.Quiet s) :
    s0.QuietOut (execVmacs o s) := by
  unfold execVmacs
  repeat' first | with_reducible assumption | with_reducible apply State.QuietOut.next | with_reducible exact State.QuietOut.fault | with_reducible apply State.issueCore_quiet | split | with_reducible refine State.Quiet.of_fst (by assumption) ?_ | dsimp only

theorem execAccclr_quiet {s0 : State} {o : OpX} {s : State} (hq : s0.Quiet s) :
    s0.QuietOut (execAccclr o s) := by
  unfold execAccclr
  repeat' first | with_reducible assumption | with_reducible apply State.QuietOut.next | with_reducible exact State.QuietOut.fault | with_reducible apply State.issueCore_quiet | split | with_reducible refine State.Quiet.of_fst (by assumption) ?_ | dsimp only

theorem execVmulq_quiet {s0 : State} {o : OpX} {vd : BitVec 6} {s : State} (hq : s0.Quiet s) :
    s0.QuietOut (execVmulq o vd s) := by
  unfold execVmulq
  repeat' first | with_reducible assumption | with_reducible apply State.QuietOut.next | with_reducible exact State.QuietOut.fault | with_reducible apply State.issueCore_quiet | split | with_reducible refine State.Quiet.of_fst (by assumption) ?_ | dsimp only

theorem execAccrd16_quiet {s0 : State} {o : OpX} {s : State} (hq : s0.Quiet s) :
    s0.QuietOut (execAccrd16 o s) := by
  unfold execAccrd16
  repeat' first | with_reducible assumption | with_reducible apply State.QuietOut.next | with_reducible exact State.QuietOut.fault | with_reducible apply State.issueCore_quiet | split | with_reducible refine State.Quiet.of_fst (by assumption) ?_ | dsimp only

theorem execAccrd32_quiet {s0 : State} {o : OpX} {s : State} (hq : s0.Quiet s) :
    s0.QuietOut (execAccrd32 o s) := by
  unfold execAccrd32
  repeat' first | with_reducible assumption | with_reducible apply State.QuietOut.next | with_reducible exact State.QuietOut.fault | with_reducible apply State.issueCore_quiet | with_reducible apply State.issueFree_quiet | split | with_reducible refine State.Quiet.of_fst (by assumption) ?_ | dsimp only

theorem execAccsv_quiet {s0 : State} {o : OpX} {s : State} (hq : s0.Quiet s) :
    s0.QuietOut (execAccsv o s) := by
  unfold execAccsv
  repeat' first | with_reducible assumption | with_reducible apply State.QuietOut.next | with_reducible exact State.QuietOut.fault | with_reducible apply State.issueCore_quiet | with_reducible apply State.issueFree_quiet | split | with_reducible refine State.Quiet.of_fst (by assumption) ?_ | dsimp only

theorem execAccld_quiet {s0 : State} {o : OpX} {s : State} (hq : s0.Quiet s) :
    s0.QuietOut (execAccld o s) := by
  unfold execAccld
  repeat' first | with_reducible assumption | with_reducible apply State.QuietOut.next | with_reducible exact State.QuietOut.fault | with_reducible apply State.issueCore_quiet | with_reducible apply State.issueFree_quiet | split | with_reducible refine State.Quiet.of_fst (by assumption) ?_ | dsimp only

end Sys2Proof.Machine
end

