-- ==== Sys2Proof/Laws/KeepsBasaltScalar.lean ====
section
/-! SUPPORT. What the operations of Machine/BasaltScalar.lean keep. -/

set_option linter.unusedTactic false
set_option linter.unreachableTactic false
set_option linter.unusedVariables false

namespace Sys2Proof.Machine

theorem scalarOp_quiet {s0 : State} {o : OpS} {latency : Nat} {f : Word → Word → Nat} {s : State} (hq : s0.Quiet s) :
    s0.QuietOut (scalarOp o latency f s) := by
  unfold scalarOp
  repeat' first | with_reducible assumption | with_reducible apply State.QuietOut.next | with_reducible exact State.QuietOut.fault | with_reducible apply State.issueCore_quiet | split | with_reducible refine State.Quiet.of_fst (by assumption) ?_ | dsimp only

theorem execSadd_quiet {s0 : State} {o : OpS} {s : State} (hq : s0.Quiet s) :
    s0.QuietOut (execSadd o s) := by
  unfold execSadd
  repeat' first | with_reducible assumption | with_reducible apply State.QuietOut.next | with_reducible exact State.QuietOut.fault | with_reducible apply scalarOp_quiet | split | with_reducible refine State.Quiet.of_fst (by assumption) ?_ | dsimp only

theorem execSsub_quiet {s0 : State} {o : OpS} {s : State} (hq : s0.Quiet s) :
    s0.QuietOut (execSsub o s) := by
  unfold execSsub
  repeat' first | with_reducible assumption | with_reducible apply State.QuietOut.next | with_reducible exact State.QuietOut.fault | with_reducible apply scalarOp_quiet | split | with_reducible refine State.Quiet.of_fst (by assumption) ?_ | dsimp only

theorem execSaddi_quiet {s0 : State} {o : OpS} {s : State} (hq : s0.Quiet s) :
    s0.QuietOut (execSaddi o s) := by
  unfold execSaddi
  repeat' first | with_reducible assumption | with_reducible apply State.QuietOut.next | with_reducible exact State.QuietOut.fault | with_reducible apply scalarOp_quiet | split | with_reducible refine State.Quiet.of_fst (by assumption) ?_ | dsimp only

theorem execSand_quiet {s0 : State} {o : OpS} {s : State} (hq : s0.Quiet s) :
    s0.QuietOut (execSand o s) := by
  unfold execSand
  repeat' first | with_reducible assumption | with_reducible apply State.QuietOut.next | with_reducible exact State.QuietOut.fault | with_reducible apply scalarOp_quiet | split | with_reducible refine State.Quiet.of_fst (by assumption) ?_ | dsimp only

theorem execSor_quiet {s0 : State} {o : OpS} {s : State} (hq : s0.Quiet s) :
    s0.QuietOut (execSor o s) := by
  unfold execSor
  repeat' first | with_reducible assumption | with_reducible apply State.QuietOut.next | with_reducible exact State.QuietOut.fault | with_reducible apply scalarOp_quiet | split | with_reducible refine State.Quiet.of_fst (by assumption) ?_ | dsimp only

theorem execSxor_quiet {s0 : State} {o : OpS} {s : State} (hq : s0.Quiet s) :
    s0.QuietOut (execSxor o s) := by
  unfold execSxor
  repeat' first | with_reducible assumption | with_reducible apply State.QuietOut.next | with_reducible exact State.QuietOut.fault | with_reducible apply scalarOp_quiet | split | with_reducible refine State.Quiet.of_fst (by assumption) ?_ | dsimp only

theorem execSshl_quiet {s0 : State} {o : OpS} {s : State} (hq : s0.Quiet s) :
    s0.QuietOut (execSshl o s) := by
  unfold execSshl
  repeat' first | with_reducible assumption | with_reducible apply State.QuietOut.next | with_reducible exact State.QuietOut.fault | with_reducible apply scalarOp_quiet | split | with_reducible refine State.Quiet.of_fst (by assumption) ?_ | dsimp only

theorem execSshr_quiet {s0 : State} {o : OpS} {s : State} (hq : s0.Quiet s) :
    s0.QuietOut (execSshr o s) := by
  unfold execSshr
  repeat' first | with_reducible assumption | with_reducible apply State.QuietOut.next | with_reducible exact State.QuietOut.fault | with_reducible apply scalarOp_quiet | split | with_reducible refine State.Quiet.of_fst (by assumption) ?_ | dsimp only

theorem execSshra_quiet {s0 : State} {o : OpS} {s : State} (hq : s0.Quiet s) :
    s0.QuietOut (execSshra o s) := by
  unfold execSshra
  repeat' first | with_reducible assumption | with_reducible apply State.QuietOut.next | with_reducible exact State.QuietOut.fault | with_reducible apply scalarOp_quiet | split | with_reducible refine State.Quiet.of_fst (by assumption) ?_ | dsimp only

theorem execSmovi_quiet {s0 : State} {o : OpS} {s : State} (hq : s0.Quiet s) :
    s0.QuietOut (execSmovi o s) := by
  unfold execSmovi
  repeat' first | with_reducible assumption | with_reducible apply State.QuietOut.next | with_reducible exact State.QuietOut.fault | with_reducible apply scalarOp_quiet | split | with_reducible refine State.Quiet.of_fst (by assumption) ?_ | dsimp only

theorem execSmovih_quiet {s0 : State} {o : OpS} {s : State} (hq : s0.Quiet s) :
    s0.QuietOut (execSmovih o s) := by
  unfold execSmovih
  repeat' first | with_reducible assumption | with_reducible apply State.QuietOut.next | with_reducible exact State.QuietOut.fault | with_reducible apply State.issueCore_quiet | split | with_reducible refine State.Quiet.of_fst (by assumption) ?_ | dsimp only

theorem execSmul_quiet {s0 : State} {o : OpS} {s : State} (hq : s0.Quiet s) :
    s0.QuietOut (execSmul o s) := by
  unfold execSmul
  repeat' first | with_reducible assumption | with_reducible apply State.QuietOut.next | with_reducible exact State.QuietOut.fault | with_reducible apply scalarOp_quiet | split | with_reducible refine State.Quiet.of_fst (by assumption) ?_ | dsimp only

end Sys2Proof.Machine
end

