-- ==== Sys2Proof/Laws/KeepsBasaltVector.lean ====
section
/-! SUPPORT. What the operations of Machine/BasaltVector.lean keep. -/

set_option linter.unusedTactic false
set_option linter.unreachableTactic false
set_option linter.unusedVariables false

namespace Sys2Proof.Machine

theorem laneOp_quiet {s0 : State} {o : OpV} {f : Nat → Nat → Nat} {s : State} (hq : s0.Quiet s) :
    s0.QuietOut (laneOp o f s) := by
  unfold laneOp
  repeat' first | with_reducible assumption | with_reducible apply State.QuietOut.next | with_reducible exact State.QuietOut.fault | with_reducible apply State.issueCore_quiet | split | with_reducible refine State.Quiet.of_fst (by assumption) ?_ | dsimp only

theorem signedLane_quiet {s0 : State} {o : OpV} {f : Int → Int → Int} {s : State} (hq : s0.Quiet s) :
    s0.QuietOut (signedLane o f s) := by
  unfold signedLane
  repeat' first | with_reducible assumption | with_reducible apply State.QuietOut.next | with_reducible exact State.QuietOut.fault | with_reducible apply laneOp_quiet | split | with_reducible refine State.Quiet.of_fst (by assumption) ?_ | dsimp only

theorem execVadd_quiet {s0 : State} {o : OpV} {s : State} (hq : s0.Quiet s) :
    s0.QuietOut (execVadd o s) := by
  unfold execVadd
  repeat' first | with_reducible assumption | with_reducible apply State.QuietOut.next | with_reducible exact State.QuietOut.fault | with_reducible apply signedLane_quiet | split | with_reducible refine State.Quiet.of_fst (by assumption) ?_ | dsimp only

theorem execVsub_quiet {s0 : State} {o : OpV} {s : State} (hq : s0.Quiet s) :
    s0.QuietOut (execVsub o s) := by
  unfold execVsub
  repeat' first | with_reducible assumption | with_reducible apply State.QuietOut.next | with_reducible exact State.QuietOut.fault | with_reducible apply signedLane_quiet | split | with_reducible refine State.Quiet.of_fst (by assumption) ?_ | dsimp only

theorem saturating_quiet {s0 : State} {o : OpV} {f : Int → Int → Int} {s : State} (hq : s0.Quiet s) :
    s0.QuietOut (saturating o f s) := by
  unfold saturating
  repeat' first | with_reducible assumption | with_reducible apply State.QuietOut.next | with_reducible exact State.QuietOut.fault | with_reducible apply State.issueCore_quiet | split | with_reducible refine State.Quiet.of_fst (by assumption) ?_ | dsimp only

theorem execVadds_quiet {s0 : State} {o : OpV} {s : State} (hq : s0.Quiet s) :
    s0.QuietOut (execVadds o s) := by
  unfold execVadds
  repeat' first | with_reducible assumption | with_reducible apply State.QuietOut.next | with_reducible exact State.QuietOut.fault | with_reducible apply saturating_quiet | split | with_reducible refine State.Quiet.of_fst (by assumption) ?_ | dsimp only

theorem execVsubs_quiet {s0 : State} {o : OpV} {s : State} (hq : s0.Quiet s) :
    s0.QuietOut (execVsubs o s) := by
  unfold execVsubs
  repeat' first | with_reducible assumption | with_reducible apply State.QuietOut.next | with_reducible exact State.QuietOut.fault | with_reducible apply saturating_quiet | split | with_reducible refine State.Quiet.of_fst (by assumption) ?_ | dsimp only

theorem execVabs_quiet {s0 : State} {o : OpV} {s : State} (hq : s0.Quiet s) :
    s0.QuietOut (execVabs o s) := by
  unfold execVabs
  repeat' first | with_reducible assumption | with_reducible apply State.QuietOut.next | with_reducible exact State.QuietOut.fault | with_reducible apply State.issueFree_quiet | split | with_reducible refine State.Quiet.of_fst (by assumption) ?_ | dsimp only

theorem execVmax_quiet {s0 : State} {o : OpV} {s : State} (hq : s0.Quiet s) :
    s0.QuietOut (execVmax o s) := by
  unfold execVmax
  repeat' first | with_reducible assumption | with_reducible apply State.QuietOut.next | with_reducible exact State.QuietOut.fault | with_reducible apply signedLane_quiet | split | with_reducible refine State.Quiet.of_fst (by assumption) ?_ | dsimp only

theorem execVmin_quiet {s0 : State} {o : OpV} {s : State} (hq : s0.Quiet s) :
    s0.QuietOut (execVmin o s) := by
  unfold execVmin
  repeat' first | with_reducible assumption | with_reducible apply State.QuietOut.next | with_reducible exact State.QuietOut.fault | with_reducible apply signedLane_quiet | split | with_reducible refine State.Quiet.of_fst (by assumption) ?_ | dsimp only

theorem execVand_quiet {s0 : State} {o : OpV} {s : State} (hq : s0.Quiet s) :
    s0.QuietOut (execVand o s) := by
  unfold execVand
  repeat' first | with_reducible assumption | with_reducible apply State.QuietOut.next | with_reducible exact State.QuietOut.fault | with_reducible apply laneOp_quiet | split | with_reducible refine State.Quiet.of_fst (by assumption) ?_

theorem execVor_quiet {s0 : State} {o : OpV} {s : State} (hq : s0.Quiet s) :
    s0.QuietOut (execVor o s) := by
  unfold execVor
  repeat' first | with_reducible assumption | with_reducible apply State.QuietOut.next | with_reducible exact State.QuietOut.fault | with_reducible apply laneOp_quiet | split | with_reducible refine State.Quiet.of_fst (by assumption) ?_

theorem execVxor_quiet {s0 : State} {o : OpV} {s : State} (hq : s0.Quiet s) :
    s0.QuietOut (execVxor o s) := by
  unfold execVxor
  repeat' first | with_reducible assumption | with_reducible apply State.QuietOut.next | with_reducible exact State.QuietOut.fault | with_reducible apply laneOp_quiet | split | with_reducible refine State.Quiet.of_fst (by assumption) ?_

theorem execVshl_quiet {s0 : State} {o : OpV} {s : State} (hq : s0.Quiet s) :
    s0.QuietOut (execVshl o s) := by
  unfold execVshl
  repeat' first | with_reducible assumption | with_reducible apply State.QuietOut.next | with_reducible exact State.QuietOut.fault | with_reducible apply laneOp_quiet | split | with_reducible refine State.Quiet.of_fst (by assumption) ?_ | dsimp only

theorem execVshra_quiet {s0 : State} {o : OpV} {s : State} (hq : s0.Quiet s) :
    s0.QuietOut (execVshra o s) := by
  unfold execVshra
  repeat' first | with_reducible assumption | with_reducible apply State.QuietOut.next | with_reducible exact State.QuietOut.fault | with_reducible apply laneOp_quiet | split | with_reducible refine State.Quiet.of_fst (by assumption) ?_ | dsimp only

theorem execVshrl_quiet {s0 : State} {o : OpV} {s : State} (hq : s0.Quiet s) :
    s0.QuietOut (execVshrl o s) := by
  unfold execVshrl
  repeat' first | with_reducible assumption | with_reducible apply State.QuietOut.next | with_reducible exact State.QuietOut.fault | with_reducible apply laneOp_quiet | split | with_reducible refine State.Quiet.of_fst (by assumption) ?_ | dsimp only

theorem execVmov_quiet {s0 : State} {o : OpV} {s : State} (hq : s0.Quiet s) :
    s0.QuietOut (execVmov o s) := by
  unfold execVmov
  repeat' first | with_reducible assumption | with_reducible apply State.QuietOut.next | with_reducible exact State.QuietOut.fault | with_reducible apply laneOp_quiet | split | with_reducible refine State.Quiet.of_fst (by assumption) ?_ | dsimp only

theorem execVbcast_quiet {s0 : State} {o : OpV} {s : State} (hq : s0.Quiet s) :
    s0.QuietOut (execVbcast o s) := by
  unfold execVbcast
  repeat' first | with_reducible assumption | with_reducible apply State.QuietOut.next | with_reducible exact State.QuietOut.fault | with_reducible apply State.issueCore_quiet | split | with_reducible refine State.Quiet.of_fst (by assumption) ?_ | dsimp only

theorem compareOp_quiet {s0 : State} {o : OpV} {f : Int → Int → Bool} {s : State} (hq : s0.Quiet s) :
    s0.QuietOut (compareOp o f s) := by
  unfold compareOp
  repeat' first | with_reducible assumption | with_reducible apply State.QuietOut.next | with_reducible exact State.QuietOut.fault | with_reducible apply State.issueCore_quiet | split | with_reducible refine State.Quiet.of_fst (by assumption) ?_ | dsimp only

theorem execVcmpeq_quiet {s0 : State} {o : OpV} {s : State} (hq : s0.Quiet s) :
    s0.QuietOut (execVcmpeq o s) := by
  unfold execVcmpeq
  repeat' first | with_reducible assumption | with_reducible apply State.QuietOut.next | with_reducible exact State.QuietOut.fault | with_reducible apply compareOp_quiet | split | with_reducible refine State.Quiet.of_fst (by assumption) ?_ | dsimp only

theorem execVcmpgt_quiet {s0 : State} {o : OpV} {s : State} (hq : s0.Quiet s) :
    s0.QuietOut (execVcmpgt o s) := by
  unfold execVcmpgt
  repeat' first | with_reducible assumption | with_reducible apply State.QuietOut.next | with_reducible exact State.QuietOut.fault | with_reducible apply compareOp_quiet | split | with_reducible refine State.Quiet.of_fst (by assumption) ?_ | dsimp only

theorem execVcmpge_quiet {s0 : State} {o : OpV} {s : State} (hq : s0.Quiet s) :
    s0.QuietOut (execVcmpge o s) := by
  unfold execVcmpge
  repeat' first | with_reducible assumption | with_reducible apply State.QuietOut.next | with_reducible exact State.QuietOut.fault | with_reducible apply compareOp_quiet | split | with_reducible refine State.Quiet.of_fst (by assumption) ?_ | dsimp only

theorem execVsel_quiet {s0 : State} {o : OpV} {s : State} (hq : s0.Quiet s) :
    s0.QuietOut (execVsel o s) := by
  unfold execVsel
  repeat' first | with_reducible assumption | with_reducible apply State.QuietOut.next | with_reducible exact State.QuietOut.fault | with_reducible apply State.issueCore_quiet | split | with_reducible refine State.Quiet.of_fst (by assumption) ?_ | dsimp only

theorem execVext_quiet {s0 : State} {o : OpV} {s : State} (hq : s0.Quiet s) :
    s0.QuietOut (execVext o s) := by
  unfold execVext
  repeat' first | with_reducible assumption | with_reducible apply State.QuietOut.next | with_reducible exact State.QuietOut.fault | with_reducible apply State.issueCore_quiet | with_reducible apply State.issueFree_quiet | split | with_reducible refine State.Quiet.of_fst (by assumption) ?_ | dsimp only

theorem execVins_quiet {s0 : State} {o : OpV} {s : State} (hq : s0.Quiet s) :
    s0.QuietOut (execVins o s) := by
  unfold execVins
  repeat' first | with_reducible assumption | with_reducible apply State.QuietOut.next | with_reducible exact State.QuietOut.fault | with_reducible apply State.issueCore_quiet | with_reducible apply State.issueFree_quiet | split | with_reducible refine State.Quiet.of_fst (by assumption) ?_ | dsimp only

theorem execVperm_quiet {s0 : State} {o : OpV} {s : State} (hq : s0.Quiet s) :
    s0.QuietOut (execVperm o s) := by
  unfold execVperm
  repeat' first | with_reducible assumption | with_reducible apply State.QuietOut.next | with_reducible exact State.QuietOut.fault | with_reducible apply State.issueCore_quiet | split | with_reducible refine State.Quiet.of_fst (by assumption) ?_ | dsimp only

theorem execVredadd_quiet {s0 : State} {o : OpV} {s : State} (hq : s0.Quiet s) :
    s0.QuietOut (execVredadd o s) := by
  unfold execVredadd
  repeat' first | with_reducible assumption | with_reducible apply State.QuietOut.next | with_reducible exact State.QuietOut.fault | with_reducible apply State.issueCore_quiet | split | with_reducible refine State.Quiet.of_fst (by assumption) ?_ | dsimp only

theorem execVredmax_quiet {s0 : State} {o : OpV} {s : State} (hq : s0.Quiet s) :
    s0.QuietOut (execVredmax o s) := by
  unfold execVredmax
  repeat' first | with_reducible assumption | with_reducible apply State.QuietOut.next | with_reducible exact State.QuietOut.fault | with_reducible apply State.issueCore_quiet | split | with_reducible refine State.Quiet.of_fst (by assumption) ?_ | dsimp only

end Sys2Proof.Machine
end

