-- ==== Sys2Proof/Laws/KeepsCapture.lean ====
section
/-! SUPPORT. What the operations of Machine/Capture.lean keep. -/

set_option linter.unusedTactic false
set_option linter.unreachableTactic false
set_option linter.unusedVariables false

namespace Sys2Proof.Machine

theorem State.setStrun_quiet {s0 : State} {s : State} {p : Port} {x : StrataRun} (hq : s0.Quiet s) :
    s0.Quiet (State.setStrun s p x) := by
  unfold State.setStrun
  try extract_lets y1
  repeat' first | with_reducible assumption | split | with_reducible refine State.Quiet.of_fst (by assumption) ?_ | fail_if_no_progress with_reducible refine State.Quiet.other ?_ rfl rfl rfl rfl rfl rfl rfl

theorem State.modCapture_quiet {s0 : State} {s : State} {n : Nat} {f : Capture → Capture} (hq : s0.Quiet s) :
    s0.Quiet (State.modCapture s n f) := by
  unfold State.modCapture
  try extract_lets y1
  repeat' first | with_reducible assumption | split | with_reducible refine State.Quiet.of_fst (by assumption) ?_ | fail_if_no_progress with_reducible refine State.Quiet.other ?_ rfl rfl rfl rfl rfl rfl rfl | dsimp only

theorem State.publishStore_quiet {s0 : State} {s : State} (hq : s0.Quiet s) :
    s0.Quiet (State.publishStore s) := by
  unfold State.publishStore
  repeat' first | with_reducible assumption | with_reducible apply State.roSet_quiet | split | with_reducible refine State.Quiet.of_fst (by assumption) ?_

theorem State.strataRetention_quiet {s0 : State} {s : State} (hq : s0.Quiet s) :
    s0.Quiet (State.strataRetention s) := by
  unfold State.strataRetention
  try extract_lets y1 y2
  repeat' first | with_reducible assumption | with_reducible apply State.roSet_quiet | split | with_reducible refine State.Quiet.of_fst (by assumption) ?_

theorem State.loseRecords_quiet {s0 : State} {s : State} {rs : List StrataRec} (hq : s0.Quiet s) :
    s0.Quiet (State.loseRecords s rs) := by
  unfold State.loseRecords
  try extract_lets y1
  repeat' first | with_reducible assumption | with_reducible apply State.Quiet.foldl | with_reducible exact State.Quiet.refl _ | with_reducible intro _ _ | split | with_reducible refine State.Quiet.of_fst (by assumption) ?_ | fail_if_no_progress with_reducible refine State.Quiet.other ?_ rfl rfl rfl rfl rfl rfl rfl | dsimp only

theorem State.freeCapture_quiet {s0 : State} {s : State} {n : Nat} (hq : s0.Quiet s) :
    s0.Quiet (State.freeCapture s n) := by
  unfold State.freeCapture
  try extract_lets y1
  repeat' first | with_reducible assumption | with_reducible apply State.publishStore_quiet | with_reducible apply State.raise_quiet | split | with_reducible refine State.Quiet.of_fst (by assumption) ?_ | fail_if_no_progress with_reducible refine State.Quiet.other ?_ rfl rfl rfl rfl rfl rfl rfl | dsimp only

theorem State.useEnded_quiet {s0 : State} {s : State} {n : Nat} (hq : s0.Quiet s) :
    s0.Quiet (State.useEnded s n) := by
  unfold State.useEnded
  repeat' first | with_reducible assumption | with_reducible apply State.freeCapture_quiet | split | with_reducible refine State.Quiet.of_fst (by assumption) ?_ | dsimp only

theorem State.releaseCapture_quiet {s0 : State} {s : State} {n : Nat} (hq : s0.Quiet s) :
    s0.Quiet (State.releaseCapture s n) := by
  unfold State.releaseCapture
  repeat' first | with_reducible assumption | with_reducible apply State.freeCapture_quiet | with_reducible apply State.modCapture_quiet | split | with_reducible refine State.Quiet.of_fst (by assumption) ?_ | dsimp only

theorem State.sendCapture_quiet {s0 : State} {s : State} {n sid : Nat} (hq : s0.Quiet s) :
    s0.Quiet (State.sendCapture s n sid) := by
  unfold State.sendCapture
  repeat' first | with_reducible assumption | with_reducible apply State.enqueue_quiet | with_reducible apply State.modCapture_quiet | split | with_reducible refine State.Quiet.of_fst (by assumption) ?_ | dsimp only

theorem State.completeCapture_quiet {s0 : State} {s : State} {n : Nat} (hq : s0.Quiet s) :
    s0.Quiet (State.completeCapture s n) := by
  unfold State.completeCapture
  try extract_lets y1
  try
    have k1 : s0.Quiet y1 := by
      dsimp only [y1]
      repeat' first | with_reducible assumption | with_reducible apply State.modCapture_quiet | with_reducible apply State.publishStore_quiet | split | with_reducible refine State.Quiet.of_fst (by assumption) ?_
    clear_value y1
  repeat' first | with_reducible assumption | with_reducible apply State.modCapture_quiet | with_reducible apply State.publishStore_quiet | with_reducible apply State.raise_quiet | with_reducible apply State.sendCapture_quiet | with_reducible apply State.useEnded_quiet | split | with_reducible refine State.Quiet.of_fst (by assumption) ?_ | dsimp only

theorem State.cutCaptures_quiet {s0 : State} {s : State} {hit : Capture → Bool} (hq : s0.Quiet s) :
    s0.Quiet (State.cutCaptures s hit) := by
  unfold State.cutCaptures
  repeat' first | with_reducible assumption | with_reducible apply State.modCapture_quiet | with_reducible apply State.completeCapture_quiet | with_reducible apply State.Quiet.foldl | with_reducible exact State.Quiet.refl _ | with_reducible intro _ _ | split | with_reducible refine State.Quiet.of_fst (by assumption) ?_ | dsimp only

theorem State.ringWrite_quiet {s0 : State} {s : State} {r : StrataRec} (hq : s0.Quiet s) :
    s0.Quiet (State.ringWrite s r) := by
  unfold State.ringWrite
  try extract_lets y1 y2 y3 y4 y5 y6
  try
    have k5 : s0.Quiet y5 := by
      dsimp only [y5]
      repeat' first | with_reducible assumption | with_reducible apply State.loseRecords_quiet | with_reducible apply State.gone_quiet | split | with_reducible refine State.Quiet.of_fst (by assumption) ?_
    clear_value y5
  repeat' first | with_reducible assumption | split | with_reducible refine State.Quiet.of_fst (by assumption) ?_ | fail_if_no_progress with_reducible refine State.Quiet.other ?_ rfl rfl rfl rfl rfl rfl rfl | dsimp only

theorem State.beginRun_quiet {s0 : State} {s : State} {p : Port} {launch : Stamp} {epoch : Nat} (hq : s0.Quiet s) :
    s0.Quiet (State.beginRun s p launch epoch) := by
  unfold State.beginRun
  try extract_lets y1 y2 y3
  try
    have k1 : s0.Quiet y1 := by
      dsimp only [y1]
      repeat' first | with_reducible assumption | with_reducible apply State.cutCaptures_quiet | split | with_reducible refine State.Quiet.of_fst (by assumption) ?_
    clear_value y1
  try
    have k3 : s0.Quiet y3 := by
      dsimp only [y3]
      repeat' first | with_reducible assumption | with_reducible apply State.setStrun_quiet | split | with_reducible refine State.Quiet.of_fst (by assumption) ?_
    clear_value y3
  repeat' first | with_reducible assumption | with_reducible apply State.roSet_quiet | with_reducible apply State.raise_quiet | split | with_reducible refine State.Quiet.of_fst (by assumption) ?_

theorem State.strataTrace_quiet {s0 : State} {s : State} {p : Port} {h : TraceHeader} {fields : List (BitVec 32)} {dropped : Bool} (hq : s0.Quiet s) :
    s0.Quiet (State.strataTrace s p h fields dropped) := by
  unfold State.strataTrace
  extract_lets x s1 s2
  have k1 : s0.Quiet s1 := State.setStrun_quiet hq
  clear_value s1
  have k2 : s0.Quiet s2 := by
    dsimp only [s2]
    repeat' first | with_reducible assumption | with_reducible apply State.beginRun_quiet | split | fail_if_no_progress with_reducible refine State.Quiet.other ?_ rfl rfl rfl rfl rfl rfl rfl | with_reducible refine State.Quiet.of_fst (by assumption) ?_
  clear_value s2
  repeat' first | with_reducible assumption | with_reducible apply State.ringWrite_quiet | split | fail_if_no_progress with_reducible refine State.Quiet.other ?_ rfl rfl rfl rfl rfl rfl rfl | with_reducible refine State.Quiet.of_fst (by assumption) ?_

theorem State.runDue_quiet {s0 : State} {s : State} {p : Port} (hq : s0.Quiet s) :
    s0.Quiet (State.runDue s p) := by
  unfold State.runDue
  try extract_lets y1
  repeat' first | with_reducible assumption | with_reducible apply State.setStrun_quiet | split | with_reducible refine State.Quiet.of_fst (by assumption) ?_

theorem State.emptyRing_quiet {s0 : State} {s : State} (hq : s0.Quiet s) :
    s0.Quiet (State.emptyRing s) := by
  unfold State.emptyRing
  try extract_lets y1 y2
  try
    have k1 : s0.Quiet y1 := by
      dsimp only [y1]
      repeat' first | with_reducible assumption | with_reducible apply State.loseRecords_quiet | split | with_reducible refine State.Quiet.of_fst (by assumption) ?_
    clear_value y1
  repeat' first | with_reducible assumption | split | with_reducible refine State.Quiet.of_fst (by assumption) ?_ | fail_if_no_progress with_reducible refine State.Quiet.other ?_ rfl rfl rfl rfl rfl rfl rfl

theorem State.strataStop_quiet {s0 : State} {s : State} (hq : s0.Quiet s) :
    s0.Quiet (State.strataStop s) := by
  unfold State.strataStop
  try extract_lets y1 y2 y3
  try
    have k1 : s0.Quiet y1 := by
      dsimp only [y1]
      repeat' first | with_reducible assumption | with_reducible apply State.cutCaptures_quiet | split | with_reducible refine State.Quiet.of_fst (by assumption) ?_
    clear_value y1
  repeat' first | with_reducible assumption | with_reducible apply State.setStrun_quiet | split | with_reducible refine State.Quiet.of_fst (by assumption) ?_

theorem State.strataAtF_quiet {s0 : State} {s : State} {old : PSet} (hq : s0.Quiet s) :
    s0.Quiet (State.strataAtF s old) := by
  unfold State.strataAtF
  try extract_lets y1 y2 y3 y4
  try
    have k1 : s0.Quiet y1 := by
      dsimp only [y1]
      repeat' first | with_reducible assumption | with_reducible apply State.emptyRing_quiet | with_reducible apply State.runDue_quiet | with_reducible apply State.setStrun_quiet | with_reducible apply State.strataRetention_quiet | with_reducible apply State.publishStore_quiet | with_reducible apply State.Quiet.foldl | with_reducible apply State.Quiet.eachPort | with_reducible exact State.Quiet.refl _ | with_reducible intro _ _ | split | with_reducible refine State.Quiet.of_fst (by assumption) ?_ | fail_if_no_progress with_reducible refine State.Quiet.other ?_ rfl rfl rfl rfl rfl rfl rfl
    clear_value y1
  try
    have k4 : s0.Quiet y4 := by
      dsimp only [y4]
      repeat' first | with_reducible assumption | with_reducible apply State.emptyRing_quiet | with_reducible apply State.runDue_quiet | with_reducible apply State.setStrun_quiet | with_reducible apply State.strataRetention_quiet | with_reducible apply State.publishStore_quiet | with_reducible apply State.Quiet.foldl | with_reducible apply State.Quiet.eachPort | with_reducible exact State.Quiet.refl _ | with_reducible intro _ _ | split | with_reducible refine State.Quiet.of_fst (by assumption) ?_ | fail_if_no_progress with_reducible refine State.Quiet.other ?_ rfl rfl rfl rfl rfl rfl rfl
    clear_value y4
  repeat' first | with_reducible assumption | with_reducible apply State.emptyRing_quiet | with_reducible apply State.runDue_quiet | with_reducible apply State.setStrun_quiet | with_reducible apply State.strataRetention_quiet | with_reducible apply State.publishStore_quiet | with_reducible apply State.Quiet.foldl | with_reducible apply State.Quiet.eachPort | with_reducible exact State.Quiet.refl _ | with_reducible intro _ _ | split | with_reducible refine State.Quiet.of_fst (by assumption) ?_ | fail_if_no_progress with_reducible refine State.Quiet.other ?_ rfl rfl rfl rfl rfl rfl rfl | dsimp only

theorem makeRoom_quiet {s0 s : State} {f need : Nat} (h : s0.Quiet s) : s0.Quiet (makeRoom f need s) := by
  induction f generalizing s with
  | zero => exact h
  | succ n ih =>
    unfold makeRoom
    repeat' first | with_reducible assumption | with_reducible apply State.freeCapture_quiet | with_reducible apply ih | split

theorem State.countLost_quiet {s0 : State} {s : State} {n : Nat} (hq : s0.Quiet s) :
    s0.Quiet (State.countLost s n) := by
  unfold State.countLost
  repeat' first | with_reducible assumption | with_reducible apply State.gone_quiet | with_reducible apply State.modCapture_quiet | split | with_reducible refine State.Quiet.of_fst (by assumption) ?_ | fail_if_no_progress with_reducible refine State.Quiet.other ?_ rfl rfl rfl rfl rfl rfl rfl | dsimp only

theorem State.openCapture_quiet {s0 : State} {s : State} {prof : Nat} {trig : Stamp} {mask : Nat} {host : Bool} {refPort : Option Port} {refTrace : Stamp} (hq : s0.Quiet s) :
    s0.Quiet (State.openCapture s prof trig mask host refPort refTrace).1 := by
  unfold State.openCapture
  try extract_lets y1 y2 y3 y4 y5 y6 y7 y8 y9
  try
    have k5 : s0.Quiet y5 := by
      dsimp only [y5]
      repeat' first | with_reducible assumption | with_reducible apply makeRoom_quiet | with_reducible apply State.bump_quiet | with_reducible apply State.countLost_quiet | with_reducible apply State.publishStore_quiet | with_reducible apply State.Quiet.foldl | with_reducible apply State.Quiet.eachPort | with_reducible exact State.Quiet.refl _ | with_reducible intro _ _ | split | with_reducible refine State.Quiet.of_fst (by assumption) ?_ | fail_if_no_progress with_reducible refine State.Quiet.other ?_ rfl rfl rfl rfl rfl rfl rfl
    clear_value y5
  try
    have k9 : s0.Quiet y9 := by
      dsimp only [y9]
      repeat' first | with_reducible assumption | with_reducible apply makeRoom_quiet | with_reducible apply State.bump_quiet | with_reducible apply State.countLost_quiet | with_reducible apply State.publishStore_quiet | with_reducible apply State.Quiet.foldl | with_reducible apply State.Quiet.eachPort | with_reducible exact State.Quiet.refl _ | with_reducible intro _ _ | split | with_reducible refine State.Quiet.of_fst (by assumption) ?_ | fail_if_no_progress with_reducible refine State.Quiet.other ?_ rfl rfl rfl rfl rfl rfl rfl
    clear_value y9
  repeat' first | with_reducible assumption | with_reducible apply makeRoom_quiet | with_reducible apply State.bump_quiet | with_reducible apply State.countLost_quiet | with_reducible apply State.publishStore_quiet | with_reducible apply State.Quiet.foldl | with_reducible apply State.Quiet.eachPort | with_reducible exact State.Quiet.refl _ | with_reducible intro _ _ | split | with_reducible refine State.Quiet.of_fst (by assumption) ?_ | fail_if_no_progress with_reducible refine State.Quiet.other ?_ rfl rfl rfl rfl rfl rfl rfl | dsimp only

theorem State.mergeCapture_quiet {s0 : State} {s : State} {n cond prof : Nat} {trig : Stamp} (hq : s0.Quiet s) :
    s0.Quiet (State.mergeCapture s n cond prof trig) := by
  unfold State.mergeCapture
  repeat' first | with_reducible assumption | with_reducible apply State.modCapture_quiet | with_reducible apply State.countLost_quiet | with_reducible apply State.publishStore_quiet | split | with_reducible refine State.Quiet.of_fst (by assumption) ?_ | dsimp only

theorem execCaptureRecordCopy_quiet {s0 : State} {t : Tick} {capture : Nat} {s : State} (hq : s0.Quiet s) :
    s0.QuietOut (execCaptureRecordCopy t capture s) := by
  unfold execCaptureRecordCopy
  try extract_lets y1
  try
    have k1 : s0.Quiet y1 := by
      dsimp only [y1]
      repeat' first | with_reducible assumption | with_reducible apply State.at_quiet | split | with_reducible refine State.Quiet.of_fst (by assumption) ?_
    clear_value y1
  repeat' first | with_reducible assumption | with_reducible apply State.QuietOut.next | with_reducible exact State.QuietOut.fault | with_reducible apply State.at_quiet | with_reducible apply State.modCapture_quiet | split | with_reducible refine State.Quiet.of_fst (by assumption) ?_ | dsimp only

theorem execCaptureComplete_quiet {s0 : State} {t : Tick} {capture : Nat} {s : State} (hq : s0.Quiet s) :
    s0.QuietOut (execCaptureComplete t capture s) := by
  unfold execCaptureComplete
  try extract_lets y1
  try
    have k1 : s0.Quiet y1 := by
      dsimp only [y1]
      repeat' first | with_reducible assumption | with_reducible apply State.at_quiet | split | with_reducible refine State.Quiet.of_fst (by assumption) ?_
    clear_value y1
  repeat' first | with_reducible assumption | with_reducible apply State.QuietOut.next | with_reducible exact State.QuietOut.fault | with_reducible apply State.at_quiet | with_reducible apply State.completeCapture_quiet | split | with_reducible refine State.Quiet.of_fst (by assumption) ?_ | dsimp only

theorem execCaptureRetainExpiry_quiet {s0 : State} {t : Tick} {capture : Nat} {s : State} (hq : s0.Quiet s) :
    s0.QuietOut (execCaptureRetainExpiry t capture s) := by
  unfold execCaptureRetainExpiry
  try extract_lets y1 y2
  try
    have k1 : s0.Quiet y1 := by
      dsimp only [y1]
      repeat' first | with_reducible assumption | with_reducible apply State.at_quiet | split | with_reducible refine State.Quiet.of_fst (by assumption) ?_
    clear_value y1
  repeat' first | with_reducible assumption | with_reducible apply State.QuietOut.next | with_reducible exact State.QuietOut.fault | with_reducible apply State.at_quiet | with_reducible apply State.releaseCapture_quiet | split | with_reducible refine State.Quiet.of_fst (by assumption) ?_ | dsimp only

theorem execCaptureSendComplete_quiet {s0 : State} {t : Tick} {capture : Nat} {s : State} (hq : s0.Quiet s) :
    s0.QuietOut (execCaptureSendComplete t capture s) := by
  unfold execCaptureSendComplete
  try extract_lets y1
  try
    have k1 : s0.Quiet y1 := by
      dsimp only [y1]
      repeat' first | with_reducible assumption | with_reducible apply State.at_quiet | split | with_reducible refine State.Quiet.of_fst (by assumption) ?_
    clear_value y1
  repeat' first | with_reducible assumption | with_reducible apply State.QuietOut.next | with_reducible exact State.QuietOut.fault | with_reducible apply State.at_quiet | with_reducible apply State.modCapture_quiet | with_reducible apply State.useEnded_quiet | split | with_reducible refine State.Quiet.of_fst (by assumption) ?_ | dsimp only

theorem execCaptureDeriveComplete_quiet {s0 : State} {t : Tick} {s : State} (hq : s0.Quiet s) :
    s0.QuietOut (execCaptureDeriveComplete t s) := by
  unfold execCaptureDeriveComplete
  try extract_lets y1
  try
    have k1 : s0.Quiet y1 := by
      dsimp only [y1]
      repeat' first | with_reducible assumption | with_reducible apply State.at_quiet | split | with_reducible refine State.Quiet.of_fst (by assumption) ?_
    clear_value y1
  repeat' first | with_reducible assumption | with_reducible apply State.QuietOut.next | with_reducible exact State.QuietOut.fault | with_reducible apply State.at_quiet | with_reducible apply State.enqueue_quiet | with_reducible apply State.modCapture_quiet | with_reducible apply State.useEnded_quiet | split | with_reducible refine State.Quiet.of_fst (by assumption) ?_ | fail_if_no_progress with_reducible refine State.Quiet.other ?_ rfl rfl rfl rfl rfl rfl rfl | dsimp only

end Sys2Proof.Machine
end

