-- ==== Sys2Proof/Laws/KeepsBasaltImage.lean ====
section
/-! SUPPORT. What the operations of Machine/BasaltImage.lean keep. -/

set_option linter.unusedTactic false
set_option linter.unreachableTactic false
set_option linter.unusedVariables false

namespace Sys2Proof.Machine

theorem State.publishImage_quiet {s0 : State} {s : State} {k : Nat} (hq : s0.Quiet s) :
    s0.Quiet (State.publishImage s k) := by
  unfold State.publishImage
  try extract_lets y1
  repeat' first | with_reducible assumption | with_reducible apply State.roSet_quiet | with_reducible apply State.publishSlot_quiet | split | with_reducible refine State.Quiet.of_fst (by assumption) ?_ | dsimp only

end Sys2Proof.Machine
end

