-- ==== Sys2Proof/Laws/KeepsSchedule.lean ====
section
/-! SUPPORT. What the operations of Machine/Schedule.lean keep. -/

set_option linter.unusedTactic false
set_option linter.unreachableTactic false
set_option linter.unusedVariables false

namespace Sys2Proof.Machine

theorem State.syncSend_quiet {s0 : State} {s : State} {p : Port} (hq : s0.Quiet s) :
    s0.Quiet (State.syncSend s p) := by
  unfold State.syncSend
  repeat' first | with_reducible assumption | with_reducible apply State.emit_quiet | split | with_reducible refine State.Quiet.of_fst (by assumption) ?_

theorem State.dtsFire_quiet {s0 : State} {s : State} {p : Port} (hq : s0.Quiet s) :
    s0.Quiet (State.dtsFire s p) := by
  unfold State.dtsFire
  try extract_lets y1 y2 y3 y4
  try
    have k2 : s0.Quiet y2 := by
      dsimp only [y2]
      repeat' first | with_reducible assumption | with_reducible apply State.emit_quiet | with_reducible apply State.bump_quiet | split | with_reducible refine State.Quiet.of_fst (by assumption) ?_
    clear_value y2
  try
    have k4 : s0.Quiet y4 := by
      dsimp only [y4]
      repeat' first | with_reducible assumption | with_reducible apply State.setDts_quiet | split | with_reducible refine State.Quiet.of_fst (by assumption) ?_
    clear_value y4
  repeat' first | with_reducible assumption | with_reducible apply State.dtsMove_quiet | split | with_reducible refine State.Quiet.of_fst (by assumption) ?_

theorem State.frameBegin_quiet {s0 : State} {s : State} {p : Port} {start : Tick} (hq : s0.Quiet s) :
    s0.Quiet (State.frameBegin s p start) := by
  unfold State.frameBegin
  extract_lets y1 y2 y3 y4 y5 y6 y7 y8 y9 y10 y11 y12 y13 y14 y15 y16 y17 y18 y19
  try clear_value y1
  first
    | (have k2 : s0.Quiet y2 := by (dsimp only [y2]; repeat' first | with_reducible assumption | with_reducible apply State.setFrame_quiet | with_reducible apply State.bump_quiet | with_reducible apply State.roSet_quiet | with_reducible apply State.roSetInt_quiet | with_reducible apply State.setPortSt_quiet | with_reducible apply State.publishHold_quiet | with_reducible apply State.enterPort_quiet | with_reducible apply State.launchGroup_quiet | with_reducible apply State.setDts_quiet | with_reducible apply State.dtsFire_quiet | with_reducible apply State.syncSend_quiet | with_reducible apply State.Quiet.foldl | with_reducible apply State.Quiet.eachPort | with_reducible exact State.Quiet.refl _ | with_reducible intro _ _ | split | with_reducible refine State.Quiet.of_fst (by assumption) ?_ | fail_if_no_progress with_reducible refine State.Quiet.other ?_ rfl rfl rfl rfl rfl rfl rfl | dsimp only)
       clear_value y2)
    | clear_value y2
    | skip
  first
    | (have k3 : s0.Quiet y3 := by (dsimp only [y3]; repeat' first | with_reducible assumption | with_reducible apply State.setFrame_quiet | with_reducible apply State.bump_quiet | with_reducible apply State.roSet_quiet | with_reducible apply State.roSetInt_quiet | with_reducible apply State.setPortSt_quiet | with_reducible apply State.publishHold_quiet | with_reducible apply State.enterPort_quiet | with_reducible apply State.launchGroup_quiet | with_reducible apply State.setDts_quiet | with_reducible apply State.dtsFire_quiet | with_reducible apply State.syncSend_quiet | with_reducible apply State.Quiet.foldl | with_reducible apply State.Quiet.eachPort | with_reducible exact State.Quiet.refl _ | with_reducible intro _ _ | split | with_reducible refine State.Quiet.of_fst (by assumption) ?_ | fail_if_no_progress with_reducible refine State.Quiet.other ?_ rfl rfl rfl rfl rfl rfl rfl | dsimp only)
       clear_value y3)
    | clear_value y3
    | skip
  first
    | (have k4 : s0.Quiet y4 := by (dsimp only [y4]; repeat' first | with_reducible assumption | with_reducible apply State.setFrame_quiet | with_reducible apply State.bump_quiet | with_reducible apply State.roSet_quiet | with_reducible apply State.roSetInt_quiet | with_reducible apply State.setPortSt_quiet | with_reducible apply State.publishHold_quiet | with_reducible apply State.enterPort_quiet | with_reducible apply State.launchGroup_quiet | with_reducible apply State.setDts_quiet | with_reducible apply State.dtsFire_quiet | with_reducible apply State.syncSend_quiet | with_reducible apply State.Quiet.foldl | with_reducible apply State.Quiet.eachPort | with_reducible exact State.Quiet.refl _ | with_reducible intro _ _ | split | with_reducible refine State.Quiet.of_fst (by assumption) ?_ | fail_if_no_progress with_reducible refine State.Quiet.other ?_ rfl rfl rfl rfl rfl rfl rfl | dsimp only)
       clear_value y4)
    | clear_value y4
    | skip
  first
    | (have k5 : s0.Quiet y5 := by (dsimp only [y5]; repeat' first | with_reducible assumption | with_reducible apply State.setFrame_quiet | with_reducible apply State.bump_quiet | with_reducible apply State.roSet_quiet | with_reducible apply State.roSetInt_quiet | with_reducible apply State.setPortSt_quiet | with_reducible apply State.publishHold_quiet | with_reducible apply State.enterPort_quiet | with_reducible apply State.launchGroup_quiet | with_reducible apply State.setDts_quiet | with_reducible apply State.dtsFire_quiet | with_reducible apply State.syncSend_quiet | with_reducible apply State.Quiet.foldl | with_reducible apply State.Quiet.eachPort | with_reducible exact State.Quiet.refl _ | with_reducible intro _ _ | split | with_reducible refine State.Quiet.of_fst (by assumption) ?_ | fail_if_no_progress with_reducible refine State.Quiet.other ?_ rfl rfl rfl rfl rfl rfl rfl | dsimp only)
       clear_value y5)
    | clear_value y5
    | skip
  first
    | (have k6 : s0.Quiet y6 := by (dsimp only [y6]; repeat' first | with_reducible assumption | with_reducible apply State.setFrame_quiet | with_reducible apply State.bump_quiet | with_reducible apply State.roSet_quiet | with_reducible apply State.roSetInt_quiet | with_reducible apply State.setPortSt_quiet | with_reducible apply State.publishHold_quiet | with_reducible apply State.enterPort_quiet | with_reducible apply State.launchGroup_quiet | with_reducible apply State.setDts_quiet | with_reducible apply State.dtsFire_quiet | with_reducible apply State.syncSend_quiet | with_reducible apply State.Quiet.foldl | with_reducible apply State.Quiet.eachPort | with_reducible exact State.Quiet.refl _ | with_reducible intro _ _ | split | with_reducible refine State.Quiet.of_fst (by assumption) ?_ | fail_if_no_progress with_reducible refine State.Quiet.other ?_ rfl rfl rfl rfl rfl rfl rfl | dsimp only)
       clear_value y6)
    | clear_value y6
    | skip
  first
    | (have k7 : s0.Quiet y7 := by (dsimp only [y7]; repeat' first | with_reducible assumption | with_reducible apply State.setFrame_quiet | with_reducible apply State.bump_quiet | with_reducible apply State.roSet_quiet | with_reducible apply State.roSetInt_quiet | with_reducible apply State.setPortSt_quiet | with_reducible apply State.publishHold_quiet | with_reducible apply State.enterPort_quiet | with_reducible apply State.launchGroup_quiet | with_reducible apply State.setDts_quiet | with_reducible apply State.dtsFire_quiet | with_reducible apply State.syncSend_quiet | with_reducible apply State.Quiet.foldl | with_reducible apply State.Quiet.eachPort | with_reducible exact State.Quiet.refl _ | with_reducible intro _ _ | split | with_reducible refine State.Quiet.of_fst (by assumption) ?_ | fail_if_no_progress with_reducible refine State.Quiet.other ?_ rfl rfl rfl rfl rfl rfl rfl | dsimp only)
       clear_value y7)
    | clear_value y7
    | skip
  first
    | (have k8 : s0.Quiet y8 := by (dsimp only [y8]; repeat' first | with_reducible assumption | with_reducible apply State.setFrame_quiet | with_reducible apply State.bump_quiet | with_reducible apply State.roSet_quiet | with_reducible apply State.roSetInt_quiet | with_reducible apply State.setPortSt_quiet | with_reducible apply State.publishHold_quiet | with_reducible apply State.enterPort_quiet | with_reducible apply State.launchGroup_quiet | with_reducible apply State.setDts_quiet | with_reducible apply State.dtsFire_quiet | with_reducible apply State.syncSend_quiet | with_reducible apply State.Quiet.foldl | with_reducible apply State.Quiet.eachPort | with_reducible exact State.Quiet.refl _ | with_reducible intro _ _ | split | with_reducible refine State.Quiet.of_fst (by assumption) ?_ | fail_if_no_progress with_reducible refine State.Quiet.other ?_ rfl rfl rfl rfl rfl rfl rfl | dsimp only)
       clear_value y8)
    | clear_value y8
    | skip
  first
    | (have k9 : s0.Quiet y9 := by (dsimp only [y9]; repeat' first | with_reducible assumption | with_reducible apply State.setFrame_quiet | with_reducible apply State.bump_quiet | with_reducible apply State.roSet_quiet | with_reducible apply State.roSetInt_quiet | with_reducible apply State.setPortSt_quiet | with_reducible apply State.publishHold_quiet | with_reducible apply State.enterPort_quiet | with_reducible apply State.launchGroup_quiet | with_reducible apply State.setDts_quiet | with_reducible apply State.dtsFire_quiet | with_reducible apply State.syncSend_quiet | with_reducible apply State.Quiet.foldl | with_reducible apply State.Quiet.eachPort | with_reducible exact State.Quiet.refl _ | with_reducible intro _ _ | split | with_reducible refine State.Quiet.of_fst (by assumption) ?_ | fail_if_no_progress with_reducible refine State.Quiet.other ?_ rfl rfl rfl rfl rfl rfl rfl | dsimp only)
       clear_value y9)
    | clear_value y9
    | skip
  first
    | (have k10 : s0.Quiet y10 := by (dsimp only [y10]; repeat' first | with_reducible assumption | with_reducible apply State.setFrame_quiet | with_reducible apply State.bump_quiet | with_reducible apply State.roSet_quiet | with_reducible apply State.roSetInt_quiet | with_reducible apply State.setPortSt_quiet | with_reducible apply State.publishHold_quiet | with_reducible apply State.enterPort_quiet | with_reducible apply State.launchGroup_quiet | with_reducible apply State.setDts_quiet | with_reducible apply State.dtsFire_quiet | with_reducible apply State.syncSend_quiet | with_reducible apply State.Quiet.foldl | with_reducible apply State.Quiet.eachPort | with_reducible exact State.Quiet.refl _ | with_reducible intro _ _ | split | with_reducible refine State.Quiet.of_fst (by assumption) ?_ | fail_if_no_progress with_reducible refine State.Quiet.other ?_ rfl rfl rfl rfl rfl rfl rfl | dsimp only)
       clear_value y10)
    | clear_value y10
    | skip
  first
    | (have k11 : s0.Quiet y11 := by (dsimp only [y11]; repeat' first | with_reducible assumption | with_reducible apply State.setFrame_quiet | with_reducible apply State.bump_quiet | with_reducible apply State.roSet_quiet | with_reducible apply State.roSetInt_quiet | with_reducible apply State.setPortSt_quiet | with_reducible apply State.publishHold_quiet | with_reducible apply State.enterPort_quiet | with_reducible apply State.launchGroup_quiet | with_reducible apply State.setDts_quiet | with_reducible apply State.dtsFire_quiet | with_reducible apply State.syncSend_quiet | with_reducible apply State.Quiet.foldl | with_reducible apply State.Quiet.eachPort | with_reducible exact State.Quiet.refl _ | with_reducible intro _ _ | split | with_reducible refine State.Quiet.of_fst (by assumption) ?_ | fail_if_no_progress with_reducible refine State.Quiet.other ?_ rfl rfl rfl rfl rfl rfl rfl | dsimp only)
       clear_value y11)
    | clear_value y11
    | skip
  first
    | (have k12 : s0.Quiet y12 := by (dsimp only [y12]; repeat' first | with_reducible assumption | with_reducible apply State.setFrame_quiet | with_reducible apply State.bump_quiet | with_reducible apply State.roSet_quiet | with_reducible apply State.roSetInt_quiet | with_reducible apply State.setPortSt_quiet | with_reducible apply State.publishHold_quiet | with_reducible apply State.enterPort_quiet | with_reducible apply State.launchGroup_quiet | with_reducible apply State.setDts_quiet | with_reducible apply State.dtsFire_quiet | with_reducible apply State.syncSend_quiet | with_reducible apply State.Quiet.foldl | with_reducible apply State.Quiet.eachPort | with_reducible exact State.Quiet.refl _ | with_reducible intro _ _ | split | with_reducible refine State.Quiet.of_fst (by assumption) ?_ | fail_if_no_progress with_reducible refine State.Quiet.other ?_ rfl rfl rfl rfl rfl rfl rfl | dsimp only)
       clear_value y12)
    | clear_value y12
    | skip
  first
    | (have k13 : s0.Quiet y13 := by (dsimp only [y13]; repeat' first | with_reducible assumption | with_reducible apply State.setFrame_quiet | with_reducible apply State.bump_quiet | with_reducible apply State.roSet_quiet | with_reducible apply State.roSetInt_quiet | with_reducible apply State.setPortSt_quiet | with_reducible apply State.publishHold_quiet | with_reducible apply State.enterPort_quiet | with_reducible apply State.launchGroup_quiet | with_reducible apply State.setDts_quiet | with_reducible apply State.dtsFire_quiet | with_reducible apply State.syncSend_quiet | with_reducible apply State.Quiet.foldl | with_reducible apply State.Quiet.eachPort | with_reducible exact State.Quiet.refl _ | with_reducible intro _ _ | split | with_reducible refine State.Quiet.of_fst (by assumption) ?_ | fail_if_no_progress with_reducible refine State.Quiet.other ?_ rfl rfl rfl rfl rfl rfl rfl | dsimp only)
       clear_value y13)
    | clear_value y13
    | skip
  first
    | (have k14 : s0.Quiet y14 := by (dsimp only [y14]; repeat' first | with_reducible assumption | with_reducible apply State.setFrame_quiet | with_reducible apply State.bump_quiet | with_reducible apply State.roSet_quiet | with_reducible apply State.roSetInt_quiet | with_reducible apply State.setPortSt_quiet | with_reducible apply State.publishHold_quiet | with_reducible apply State.enterPort_quiet | with_reducible apply State.launchGroup_quiet | with_reducible apply State.setDts_quiet | with_reducible apply State.dtsFire_quiet | with_reducible apply State.syncSend_quiet | with_reducible apply State.Quiet.foldl | with_reducible apply State.Quiet.eachPort | with_reducible exact State.Quiet.refl _ | with_reducible intro _ _ | split | with_reducible refine State.Quiet.of_fst (by assumption) ?_ | fail_if_no_progress with_reducible refine State.Quiet.other ?_ rfl rfl rfl rfl rfl rfl rfl | dsimp only)
       clear_value y14)
    | clear_value y14
    | skip
  first
    | (have k15 : s0.Quiet y15 := by (dsimp only [y15]; repeat' first | with_reducible assumption | with_reducible apply State.setFrame_quiet | with_reducible apply State.bump_quiet | with_reducible apply State.roSet_quiet | with_reducible apply State.roSetInt_quiet | with_reducible apply State.setPortSt_quiet | with_reducible apply State.publishHold_quiet | with_reducible apply State.enterPort_quiet | with_reducible apply State.launchGroup_quiet | with_reducible apply State.setDts_quiet | with_reducible apply State.dtsFire_quiet | with_reducible apply State.syncSend_quiet | with_reducible apply State.Quiet.foldl | with_reducible apply State.Quiet.eachPort | with_reducible exact State.Quiet.refl _ | with_reducible intro _ _ | split | with_reducible refine State.Quiet.of_fst (by assumption) ?_ | fail_if_no_progress with_reducible refine State.Quiet.other ?_ rfl rfl rfl rfl rfl rfl rfl | dsimp only)
       clear_value y15)
    | clear_value y15
    | skip
  first
    | (have k16 : s0.Quiet y16 := by (dsimp only [y16]; repeat' first | with_reducible assumption | with_reducible apply State.setFrame_quiet | with_reducible apply State.bump_quiet | with_reducible apply State.roSet_quiet | with_reducible apply State.roSetInt_quiet | with_reducible apply State.setPortSt_quiet | with_reducible apply State.publishHold_quiet | with_reducible apply State.enterPort_quiet | with_reducible apply State.launchGroup_quiet | with_reducible apply State.setDts_quiet | with_reducible apply State.dtsFire_quiet | with_reducible apply State.syncSend_quiet | with_reducible apply State.Quiet.foldl | with_reducible apply State.Quiet.eachPort | with_reducible exact State.Quiet.refl _ | with_reducible intro _ _ | split | with_reducible refine State.Quiet.of_fst (by assumption) ?_ | fail_if_no_progress with_reducible refine State.Quiet.other ?_ rfl rfl rfl rfl rfl rfl rfl | dsimp only)
       clear_value y16)
    | clear_value y16
    | skip
  repeat' first | with_reducible assumption | with_reducible apply State.setFrame_quiet | with_reducible apply State.bump_quiet | with_reducible apply State.roSet_quiet | with_reducible apply State.roSetInt_quiet | with_reducible apply State.setPortSt_quiet | with_reducible apply State.publishHold_quiet | with_reducible apply State.enterPort_quiet | with_reducible apply State.launchGroup_quiet | with_reducible apply State.setDts_quiet | with_reducible apply State.dtsFire_quiet | with_reducible apply State.syncSend_quiet | with_reducible apply State.Quiet.foldl | with_reducible apply State.Quiet.eachPort | with_reducible exact State.Quiet.refl _ | with_reducible intro _ _ | split | with_reducible refine State.Quiet.of_fst (by assumption) ?_ | fail_if_no_progress with_reducible refine State.Quiet.other ?_ rfl rfl rfl rfl rfl rfl rfl | dsimp only

theorem execInternalStrobe_quiet {s0 : State} {t : Tick} {s : State} (hq : s0.Quiet s) :
    s0.QuietOut (execInternalStrobe t s) := by
  unfold execInternalStrobe
  try extract_lets y1 y2 y3
  try
    have k1 : s0.Quiet y1 := by
      dsimp only [y1]
      repeat' first | with_reducible assumption | with_reducible apply State.at_quiet | with_reducible apply State.latchAll_quiet | with_reducible apply State.Quiet.foldl | with_reducible apply State.Quiet.eachPort | with_reducible exact State.Quiet.refl _ | with_reducible intro _ _ | split | with_reducible refine State.Quiet.of_fst (by assumption) ?_ | fail_if_no_progress with_reducible refine State.Quiet.other ?_ rfl rfl rfl rfl rfl rfl rfl
    clear_value y1
  try
    have k3 : s0.Quiet y3 := by
      dsimp only [y3]
      repeat' first | with_reducible assumption | with_reducible apply State.at_quiet | with_reducible apply State.latchAll_quiet | with_reducible apply State.Quiet.foldl | with_reducible apply State.Quiet.eachPort | with_reducible exact State.Quiet.refl _ | with_reducible intro _ _ | split | with_reducible refine State.Quiet.of_fst (by assumption) ?_ | fail_if_no_progress with_reducible refine State.Quiet.other ?_ rfl rfl rfl rfl rfl rfl rfl
    clear_value y3
  repeat' first | with_reducible assumption | with_reducible apply State.QuietOut.next | with_reducible exact State.QuietOut.fault | with_reducible apply State.at_quiet | with_reducible apply State.latchAll_quiet | with_reducible apply State.Quiet.foldl | with_reducible apply State.Quiet.eachPort | with_reducible exact State.Quiet.refl _ | with_reducible intro _ _ | split | with_reducible refine State.Quiet.of_fst (by assumption) ?_ | fail_if_no_progress with_reducible refine State.Quiet.other ?_ rfl rfl rfl rfl rfl rfl rfl | dsimp only

theorem execPatternStep_quiet {s0 : State} {t : Tick} {src : StrobeSource} {step : Nat} {s : State} (hq : s0.Quiet s) :
    s0.QuietOut (execPatternStep t src step s) := by
  unfold execPatternStep
  try extract_lets y1
  try
    have k1 : s0.Quiet y1 := by
      dsimp only [y1]
      repeat' first | with_reducible assumption | with_reducible apply State.at_quiet | split | with_reducible refine State.Quiet.of_fst (by assumption) ?_
    clear_value y1
  repeat' first | with_reducible assumption | with_reducible apply State.QuietOut.next | with_reducible exact State.QuietOut.fault | with_reducible apply State.setChan_quiet | with_reducible apply State.Quiet.foldl | with_reducible exact State.Quiet.refl _ | with_reducible intro _ _ | split | with_reducible refine State.Quiet.of_fst (by assumption) ?_ | dsimp only

theorem State.proof_quiet {s0 : State} {s : State} {opens shorts : List Nat} {c : Nat} (hq : s0.Quiet s) :
    s0.Quiet (State.proof s opens shorts c) := by
  unfold State.proof
  try extract_lets y1 y2 y3
  try
    have k1 : s0.Quiet y1 := by
      dsimp only [y1]
      repeat' first | with_reducible assumption | with_reducible apply State.bump_quiet | split | with_reducible refine State.Quiet.of_fst (by assumption) ?_
    clear_value y1
  try
    have k3 : s0.Quiet y3 := by
      dsimp only [y3]
      repeat' first | with_reducible assumption | with_reducible apply State.setCoh_quiet | split | with_reducible refine State.Quiet.of_fst (by assumption) ?_ | fail_if_no_progress with_reducible refine State.Quiet.other ?_ rfl rfl rfl rfl rfl rfl rfl
    clear_value y3
  repeat' first | with_reducible assumption | with_reducible apply State.declare_quiet | with_reducible apply State.verified_quiet | split | with_reducible refine State.Quiet.of_fst (by assumption) ?_

theorem State.proofs_quiet {s0 : State} {s : State} {cs opens shorts : List Nat} (hq : s0.Quiet s) :
    s0.Quiet (State.proofs s cs opens shorts) := by
  unfold State.proofs
  try extract_lets y1 y2 y3
  try
    have k2 : s0.Quiet y2 := by
      dsimp only [y2]
      repeat' first | with_reducible assumption | with_reducible apply State.proof_quiet | with_reducible apply State.setChStatus_quiet | with_reducible apply State.Quiet.foldl | with_reducible apply State.Quiet.eachPort | with_reducible exact State.Quiet.refl _ | with_reducible intro _ _ | split | with_reducible refine State.Quiet.of_fst (by assumption) ?_ | fail_if_no_progress with_reducible refine State.Quiet.other ?_ rfl rfl rfl rfl rfl rfl rfl | dsimp only
    clear_value y2
  repeat' first | with_reducible assumption | with_reducible apply State.proof_quiet | with_reducible apply State.setChStatus_quiet | with_reducible apply State.Quiet.foldl | with_reducible apply State.Quiet.eachPort | with_reducible exact State.Quiet.refl _ | with_reducible intro _ _ | split | with_reducible refine State.Quiet.of_fst (by assumption) ?_ | fail_if_no_progress with_reducible refine State.Quiet.other ?_ rfl rfl rfl rfl rfl rfl rfl | dsimp only

theorem execProofWindow_quiet {s0 : State} {t : Tick} {p : Option Port} {opens shorts : List Nat} {s : State} (hq : s0.Quiet s) :
    s0.QuietOut (execProofWindow t p opens shorts s) := by
  unfold execProofWindow
  try extract_lets y1 y2
  try
    have k1 : s0.Quiet y1 := by
      dsimp only [y1]
      repeat' first | with_reducible assumption | with_reducible apply State.QuietOut.next | with_reducible exact State.QuietOut.fault | with_reducible apply State.at_quiet | with_reducible apply State.proofs_quiet | with_reducible apply State.Quiet.foldl | with_reducible apply State.Quiet.eachPort | with_reducible exact State.Quiet.refl _ | with_reducible intro _ _ | split | with_reducible refine State.Quiet.of_fst (by assumption) ?_ | fail_if_no_progress with_reducible refine State.Quiet.other ?_ rfl rfl rfl rfl rfl rfl rfl | dsimp only
    clear_value y1
  repeat' first | with_reducible assumption | with_reducible apply State.QuietOut.next | with_reducible exact State.QuietOut.fault | with_reducible apply State.at_quiet | with_reducible apply State.proofs_quiet | with_reducible apply State.Quiet.foldl | with_reducible apply State.Quiet.eachPort | with_reducible exact State.Quiet.refl _ | with_reducible intro _ _ | split | with_reducible refine State.Quiet.of_fst (by assumption) ?_ | fail_if_no_progress with_reducible refine State.Quiet.other ?_ rfl rfl rfl rfl rfl rfl rfl | dsimp only

theorem execDtsSwitchSettled_quiet {s0 : State} {t : Tick} {s : State} (hq : s0.Quiet s) :
    s0.QuietOut (execDtsSwitchSettled t s) := by
  unfold execDtsSwitchSettled
  try extract_lets y1 y2 y3
  try
    have k1 : s0.Quiet y1 := by
      dsimp only [y1]
      repeat' first | with_reducible assumption | with_reducible apply State.at_quiet | split | with_reducible refine State.Quiet.of_fst (by assumption) ?_
    clear_value y1
  repeat' first | with_reducible assumption | with_reducible apply State.QuietOut.next | with_reducible exact State.QuietOut.fault | with_reducible apply State.at_quiet | split | with_reducible refine State.Quiet.of_fst (by assumption) ?_ | fail_if_no_progress with_reducible refine State.Quiet.other ?_ rfl rfl rfl rfl rfl rfl rfl | dsimp only

theorem State.busStart_quiet {s0 : State} {s : State} {n : Tick} (hq : s0.Quiet s) :
    s0.Quiet (State.busStart s n) := by
  unfold State.busStart
  repeat' first | with_reducible assumption | with_reducible apply State.firstAt_quiet | with_reducible apply State.Quiet.foldl | with_reducible apply State.Quiet.eachPort | with_reducible exact State.Quiet.refl _ | with_reducible intro _ _ | split | with_reducible refine State.Quiet.of_fst (by assumption) ?_ | fail_if_no_progress with_reducible refine State.Quiet.other ?_ rfl rfl rfl rfl rfl rfl rfl | dsimp only

theorem State.busShift_quiet {s0 : State} {s : State} {from_ to_ : Tick} (hq : s0.Quiet s) :
    s0.Quiet (State.busShift s from_ to_) := by
  unfold State.busShift
  repeat' first | with_reducible assumption | with_reducible apply State.setFrame_quiet | with_reducible apply State.Quiet.foldl | with_reducible apply State.Quiet.eachPort | with_reducible exact State.Quiet.refl _ | with_reducible intro _ _ | split | with_reducible refine State.Quiet.of_fst (by assumption) ?_ | fail_if_no_progress with_reducible refine State.Quiet.other ?_ rfl rfl rfl rfl rfl rfl rfl | dsimp only

theorem State.syncMatch_quiet {s0 : State} {s : State} {t : Tick} {period : Nat} (hq : s0.Quiet s) :
    s0.Quiet (State.syncMatch s t period) := by
  unfold State.syncMatch
  try extract_lets y1 y2 y3 y4 y5
  try
    have k2 : s0.Quiet y2 := by
      dsimp only [y2]
      repeat' first | with_reducible assumption | with_reducible apply State.withLock_quiet | with_reducible apply State.busStart_quiet | with_reducible apply State.setLock_quiet | with_reducible apply State.busShift_quiet | with_reducible apply State.Quiet.foldl | with_reducible apply State.Quiet.eachPort | with_reducible exact State.Quiet.refl _ | with_reducible intro _ _ | split | with_reducible refine State.Quiet.of_fst (by assumption) ?_ | fail_if_no_progress with_reducible refine State.Quiet.other ?_ rfl rfl rfl rfl rfl rfl rfl | dsimp only
    clear_value y2
  repeat' first | with_reducible assumption | with_reducible apply State.withLock_quiet | with_reducible apply State.busStart_quiet | with_reducible apply State.setLock_quiet | with_reducible apply State.busShift_quiet | with_reducible apply State.Quiet.foldl | with_reducible apply State.Quiet.eachPort | with_reducible exact State.Quiet.refl _ | with_reducible intro _ _ | split | with_reducible refine State.Quiet.of_fst (by assumption) ?_ | fail_if_no_progress with_reducible refine State.Quiet.other ?_ rfl rfl rfl rfl rfl rfl rfl | dsimp only

theorem execSyncWordReceive_quiet {s0 : State} {t : Tick} {word : BitVec 64} {s : State} (hq : s0.Quiet s) :
    s0.QuietOut (execSyncWordReceive t word s) := by
  unfold execSyncWordReceive
  try extract_lets y1 y2 y3
  try
    have k1 : s0.Quiet y1 := by
      dsimp only [y1]
      repeat' first | with_reducible assumption | with_reducible apply State.QuietOut.next | with_reducible exact State.QuietOut.fault | with_reducible apply State.at_quiet | with_reducible apply State.bump_quiet | with_reducible apply State.syncMatch_quiet | with_reducible apply State.withLock_quiet | with_reducible apply State.busStart_quiet | with_reducible apply State.setLock_quiet | with_reducible apply State.Quiet.foldl | with_reducible apply State.Quiet.eachPort | with_reducible exact State.Quiet.refl _ | with_reducible intro _ _ | split | with_reducible refine State.Quiet.of_fst (by assumption) ?_ | fail_if_no_progress with_reducible refine State.Quiet.other ?_ rfl rfl rfl rfl rfl rfl rfl | dsimp only
    clear_value y1
  repeat' first | with_reducible assumption | with_reducible apply State.QuietOut.next | with_reducible exact State.QuietOut.fault | with_reducible apply State.at_quiet | with_reducible apply State.bump_quiet | with_reducible apply State.syncMatch_quiet | with_reducible apply State.withLock_quiet | with_reducible apply State.busStart_quiet | with_reducible apply State.setLock_quiet | with_reducible apply State.Quiet.foldl | with_reducible apply State.Quiet.eachPort | with_reducible exact State.Quiet.refl _ | with_reducible intro _ _ | split | with_reducible refine State.Quiet.of_fst (by assumption) ?_ | fail_if_no_progress with_reducible refine State.Quiet.other ?_ rfl rfl rfl rfl rfl rfl rfl | dsimp only

theorem execLockWordMissing_quiet {s0 : State} {t : Tick} {s : State} (hq : s0.Quiet s) :
    s0.QuietOut (execLockWordMissing t s) := by
  unfold execLockWordMissing
  try extract_lets y1 y2 y3 y4 y5
  try
    have k1 : s0.Quiet y1 := by
      dsimp only [y1]
      repeat' first | with_reducible assumption | with_reducible apply State.at_quiet | split | with_reducible refine State.Quiet.of_fst (by assumption) ?_
    clear_value y1
  try
    have k5 : s0.Quiet y5 := by
      dsimp only [y5]
      repeat' first | with_reducible assumption | with_reducible apply State.withLock_quiet | split | with_reducible refine State.Quiet.of_fst (by assumption) ?_
    clear_value y5
  repeat' first | with_reducible assumption | with_reducible apply State.QuietOut.next | with_reducible exact State.QuietOut.fault | with_reducible apply State.setLock_quiet | split | with_reducible refine State.Quiet.of_fst (by assumption) ?_

theorem execLockAcquireTimeout_quiet {s0 : State} {t : Tick} {p : Port} {s : State} (hq : s0.Quiet s) :
    s0.QuietOut (execLockAcquireTimeout t p s) := by
  unfold execLockAcquireTimeout
  try extract_lets y1 y2
  try
    have k1 : s0.Quiet y1 := by
      dsimp only [y1]
      repeat' first | with_reducible assumption | with_reducible apply State.QuietOut.next | with_reducible exact State.QuietOut.fault | with_reducible apply State.at_quiet | with_reducible apply State.busStart_quiet | with_reducible apply State.withLock_quiet | with_reducible apply State.setLock_quiet | with_reducible apply State.Quiet.foldl | with_reducible apply State.Quiet.eachPort | with_reducible exact State.Quiet.refl _ | with_reducible intro _ _ | split | with_reducible refine State.Quiet.of_fst (by assumption) ?_ | fail_if_no_progress with_reducible refine State.Quiet.other ?_ rfl rfl rfl rfl rfl rfl rfl | dsimp only
    clear_value y1
  repeat' first | with_reducible assumption | with_reducible apply State.QuietOut.next | with_reducible exact State.QuietOut.fault | with_reducible apply State.at_quiet | with_reducible apply State.busStart_quiet | with_reducible apply State.withLock_quiet | with_reducible apply State.setLock_quiet | with_reducible apply State.Quiet.foldl | with_reducible apply State.Quiet.eachPort | with_reducible exact State.Quiet.refl _ | with_reducible intro _ _ | split | with_reducible refine State.Quiet.of_fst (by assumption) ?_ | fail_if_no_progress with_reducible refine State.Quiet.other ?_ rfl rfl rfl rfl rfl rfl rfl | dsimp only

theorem execSyncCollision_quiet {s0 : State} {t : Tick} {s : State} (hq : s0.Quiet s) :
    s0.QuietOut (execSyncCollision t s) := by
  unfold execSyncCollision
  try extract_lets y1 y2
  try
    have k1 : s0.Quiet y1 := by
      dsimp only [y1]
      repeat' first | with_reducible assumption | with_reducible apply State.QuietOut.next | with_reducible exact State.QuietOut.fault | with_reducible apply State.at_quiet | with_reducible apply State.withLock_quiet | with_reducible apply State.driveClk_quiet | with_reducible apply State.setLock_quiet | with_reducible apply State.Quiet.foldl | with_reducible apply State.Quiet.eachPort | with_reducible exact State.Quiet.refl _ | with_reducible intro _ _ | split | with_reducible refine State.Quiet.of_fst (by assumption) ?_ | fail_if_no_progress with_reducible refine State.Quiet.other ?_ rfl rfl rfl rfl rfl rfl rfl | dsimp only
    clear_value y1
  repeat' first | with_reducible assumption | with_reducible apply State.QuietOut.next | with_reducible exact State.QuietOut.fault | with_reducible apply State.at_quiet | with_reducible apply State.withLock_quiet | with_reducible apply State.driveClk_quiet | with_reducible apply State.setLock_quiet | with_reducible apply State.Quiet.foldl | with_reducible apply State.Quiet.eachPort | with_reducible exact State.Quiet.refl _ | with_reducible intro _ _ | split | with_reducible refine State.Quiet.of_fst (by assumption) ?_ | fail_if_no_progress with_reducible refine State.Quiet.other ?_ rfl rfl rfl rfl rfl rfl rfl | dsimp only

theorem execSchedLockRealign_quiet {s0 : State} {t : Tick} {p : Port} {s : State} (hq : s0.Quiet s) :
    s0.QuietOut (execSchedLockRealign t p s) := by
  unfold execSchedLockRealign
  try extract_lets y1 y2 y3
  try
    have k1 : s0.Quiet y1 := by
      dsimp only [y1]
      repeat' first | with_reducible assumption | with_reducible apply State.QuietOut.next | with_reducible exact State.QuietOut.fault | with_reducible apply State.at_quiet | with_reducible apply State.regridTo_quiet | with_reducible apply State.setLock_quiet | with_reducible apply State.Quiet.foldl | with_reducible apply State.Quiet.eachPort | with_reducible exact State.Quiet.refl _ | with_reducible intro _ _ | split | with_reducible refine State.Quiet.of_fst (by assumption) ?_ | fail_if_no_progress with_reducible refine State.Quiet.other ?_ rfl rfl rfl rfl rfl rfl rfl | dsimp only
    clear_value y1
  try
    have k2 : s0.Quiet y2 := by
      dsimp only [y2]
      repeat' first | with_reducible assumption | with_reducible apply State.QuietOut.next | with_reducible exact State.QuietOut.fault | with_reducible apply State.at_quiet | with_reducible apply State.regridTo_quiet | with_reducible apply State.setLock_quiet | with_reducible apply State.Quiet.foldl | with_reducible apply State.Quiet.eachPort | with_reducible exact State.Quiet.refl _ | with_reducible intro _ _ | split | with_reducible refine State.Quiet.of_fst (by assumption) ?_ | fail_if_no_progress with_reducible refine State.Quiet.other ?_ rfl rfl rfl rfl rfl rfl rfl | dsimp only
    clear_value y2
  repeat' first | with_reducible assumption | with_reducible apply State.QuietOut.next | with_reducible exact State.QuietOut.fault | with_reducible apply State.at_quiet | with_reducible apply State.regridTo_quiet | with_reducible apply State.setLock_quiet | with_reducible apply State.Quiet.foldl | with_reducible apply State.Quiet.eachPort | with_reducible exact State.Quiet.refl _ | with_reducible intro _ _ | split | with_reducible refine State.Quiet.of_fst (by assumption) ?_ | fail_if_no_progress with_reducible refine State.Quiet.other ?_ rfl rfl rfl rfl rfl rfl rfl | dsimp only

theorem execTimebaseStep_quiet {s0 : State} {t : Tick} {s : State} (hq : s0.Quiet s) :
    s0.QuietOut (execTimebaseStep t s) := by
  unfold execTimebaseStep
  try extract_lets y1 y2
  try
    have k1 : s0.Quiet y1 := by
      dsimp only [y1]
      repeat' first | with_reducible assumption | with_reducible apply State.QuietOut.next | with_reducible exact State.QuietOut.fault | with_reducible apply State.at_quiet | with_reducible apply State.stepCounter_quiet | with_reducible apply State.roSet_quiet | with_reducible apply State.eachPort_quiet | with_reducible apply State.regridTo_quiet | with_reducible apply State.setFrame_quiet | with_reducible apply State.Quiet.foldl | with_reducible apply State.Quiet.eachPort | with_reducible exact State.Quiet.refl _ | with_reducible intro _ _ | split | with_reducible refine State.Quiet.of_fst (by assumption) ?_ | fail_if_no_progress with_reducible refine State.Quiet.other ?_ rfl rfl rfl rfl rfl rfl rfl | dsimp only
    clear_value y1
  repeat' first | with_reducible assumption | with_reducible apply State.QuietOut.next | with_reducible exact State.QuietOut.fault | with_reducible apply State.at_quiet | with_reducible apply State.stepCounter_quiet | with_reducible apply State.roSet_quiet | with_reducible apply State.eachPort_quiet | with_reducible apply State.regridTo_quiet | with_reducible apply State.setFrame_quiet | with_reducible apply State.Quiet.foldl | with_reducible apply State.Quiet.eachPort | with_reducible exact State.Quiet.refl _ | with_reducible intro _ _ | split | with_reducible refine State.Quiet.of_fst (by assumption) ?_ | fail_if_no_progress with_reducible refine State.Quiet.other ?_ rfl rfl rfl rfl rfl rfl rfl | dsimp only

theorem execPortRediscover_quiet {s0 : State} {t : Tick} {p : Port} {s : State} (hq : s0.Quiet s) :
    s0.QuietOut (execPortRediscover t p s) := by
  unfold execPortRediscover
  try extract_lets y1 y2 y3
  try
    have k1 : s0.Quiet y1 := by
      dsimp only [y1]
      repeat' first | with_reducible assumption | with_reducible apply State.at_quiet | split | with_reducible refine State.Quiet.of_fst (by assumption) ?_
    clear_value y1
  repeat' first | with_reducible assumption | with_reducible apply State.QuietOut.next | with_reducible exact State.QuietOut.fault | with_reducible apply State.discover_quiet | with_reducible apply State.setPortSt_quiet | split | with_reducible refine State.Quiet.of_fst (by assumption) ?_

end Sys2Proof.Machine
end

