-- ==== Sys2Proof/Laws/KeepsDiscovery.lean ====
section
/-! SUPPORT. What the operations of Machine/Discovery.lean keep. -/

set_option linter.unusedTactic false
set_option linter.unreachableTactic false
set_option linter.unusedVariables false

namespace Sys2Proof.Machine

theorem execNoFibreProbe_quiet {s0 : State} {t : Tick} {p : Port} {found : Bool} {s : State} (hq : s0.Quiet s) :
    s0.QuietOut (execNoFibreProbe t p found s) := by
  unfold execNoFibreProbe
  try extract_lets y1 y2
  try
    have k1 : s0.Quiet y1 := by
      dsimp only [y1]
      repeat' first | with_reducible assumption | with_reducible apply State.QuietOut.next | with_reducible exact State.QuietOut.fault | with_reducible apply State.at_quiet | with_reducible apply State.setPortSt_quiet | with_reducible apply State.emit_quiet | with_reducible apply State.discover_quiet | with_reducible apply State.Quiet.foldl | with_reducible apply State.Quiet.eachPort | with_reducible exact State.Quiet.refl _ | with_reducible intro _ _ | split | with_reducible refine State.Quiet.of_fst (by assumption) ?_ | fail_if_no_progress with_reducible refine State.Quiet.other ?_ rfl rfl rfl rfl rfl rfl rfl | dsimp only
    clear_value y1
  repeat' first | with_reducible assumption | with_reducible apply State.QuietOut.next | with_reducible exact State.QuietOut.fault | with_reducible apply State.at_quiet | with_reducible apply State.setPortSt_quiet | with_reducible apply State.emit_quiet | with_reducible apply State.discover_quiet | with_reducible apply State.Quiet.foldl | with_reducible apply State.Quiet.eachPort | with_reducible exact State.Quiet.refl _ | with_reducible intro _ _ | split | with_reducible refine State.Quiet.of_fst (by assumption) ?_ | fail_if_no_progress with_reducible refine State.Quiet.other ?_ rfl rfl rfl rfl rfl rfl rfl | dsimp only

theorem State.toPhase_quiet {s0 : State} {s : State} {p : Port} {ph : Phase} (hq : s0.Quiet s) :
    s0.Quiet (State.toPhase s p ph) := by
  unfold State.toPhase
  try extract_lets y1 y2
  try
    have k1 : s0.Quiet y1 := by
      dsimp only [y1]
      repeat' first | with_reducible assumption | with_reducible apply State.phaseLight_quiet | with_reducible apply State.setPortSt_quiet | with_reducible apply State.Quiet.foldl | with_reducible apply State.Quiet.eachPort | with_reducible exact State.Quiet.refl _ | with_reducible intro _ _ | split | with_reducible refine State.Quiet.of_fst (by assumption) ?_ | fail_if_no_progress with_reducible refine State.Quiet.other ?_ rfl rfl rfl rfl rfl rfl rfl | dsimp only
    clear_value y1
  repeat' first | with_reducible assumption | with_reducible apply State.phaseLight_quiet | with_reducible apply State.setPortSt_quiet | with_reducible apply State.Quiet.foldl | with_reducible apply State.Quiet.eachPort | with_reducible exact State.Quiet.refl _ | with_reducible intro _ _ | split | with_reducible refine State.Quiet.of_fst (by assumption) ?_ | fail_if_no_progress with_reducible refine State.Quiet.other ?_ rfl rfl rfl rfl rfl rfl rfl | dsimp only

theorem execDiscoveryContinuityEnd_quiet {s0 : State} {t : Tick} {p : Port} {found : Bool} {s : State} (hq : s0.Quiet s) :
    s0.QuietOut (execDiscoveryContinuityEnd t p found s) := by
  unfold execDiscoveryContinuityEnd
  try extract_lets y1 y2
  try
    have k1 : s0.Quiet y1 := by
      dsimp only [y1]
      repeat' first | with_reducible assumption | with_reducible apply State.at_quiet | split | with_reducible refine State.Quiet.of_fst (by assumption) ?_
    clear_value y1
  repeat' first | with_reducible assumption | with_reducible apply State.QuietOut.next | with_reducible exact State.QuietOut.fault | with_reducible apply State.toPhase_quiet | with_reducible apply State.setPortSt_quiet | with_reducible apply State.noFibre_quiet | split | with_reducible refine State.Quiet.of_fst (by assumption) ?_

theorem execDiscoveryRampEnd_quiet {s0 : State} {t : Tick} {p : Port} {s : State} (hq : s0.Quiet s) :
    s0.QuietOut (execDiscoveryRampEnd t p s) := by
  unfold execDiscoveryRampEnd
  try extract_lets y1
  try
    have k1 : s0.Quiet y1 := by
      dsimp only [y1]
      repeat' first | with_reducible assumption | with_reducible apply State.at_quiet | split | with_reducible refine State.Quiet.of_fst (by assumption) ?_
    clear_value y1
  repeat' first | with_reducible assumption | with_reducible apply State.QuietOut.next | with_reducible exact State.QuietOut.fault | with_reducible apply State.toPhase_quiet | split | with_reducible refine State.Quiet.of_fst (by assumption) ?_

theorem State.setRecord_quiet {s0 : State} {s : State} {p : Port} {len rt kind : Nat} {refl : Int} (hq : s0.Quiet s) :
    s0.Quiet (State.setRecord s p len rt kind refl) := by
  unfold State.setRecord
  repeat' first | with_reducible assumption | with_reducible apply State.roSet_quiet | with_reducible apply State.roSetInt_quiet | split | with_reducible refine State.Quiet.of_fst (by assumption) ?_

theorem State.setRanged_quiet {s0 : State} {s : State} {p : Port} {r : Ranging} (hq : s0.Quiet s) :
    s0.Quiet (State.setRanged s p r) := by
  unfold State.setRanged
  try extract_lets y1 y2
  repeat' first | with_reducible assumption | with_reducible apply State.setRecord_quiet | with_reducible apply State.Quiet.foldl | with_reducible apply State.Quiet.eachPort | with_reducible exact State.Quiet.refl _ | with_reducible intro _ _ | split | with_reducible refine State.Quiet.of_fst (by assumption) ?_ | fail_if_no_progress with_reducible refine State.Quiet.other ?_ rfl rfl rfl rfl rfl rfl rfl | dsimp only

theorem execDiscoveryRangingEnd_quiet {s0 : State} {t : Tick} {p : Port} {r : Ranging} {s : State} (hq : s0.Quiet s) :
    s0.QuietOut (execDiscoveryRangingEnd t p r s) := by
  unfold execDiscoveryRangingEnd
  try extract_lets y1 y2
  try
    have k1 : s0.Quiet y1 := by
      dsimp only [y1]
      repeat' first | with_reducible assumption | with_reducible apply State.QuietOut.next | with_reducible exact State.QuietOut.fault | with_reducible apply State.at_quiet | with_reducible apply State.setPortSt_quiet | with_reducible apply State.toPhase_quiet | with_reducible apply State.raise_quiet | with_reducible apply State.channelsOff_quiet | with_reducible apply State.publishHold_quiet | with_reducible apply State.Quiet.foldl | with_reducible apply State.Quiet.eachPort | with_reducible exact State.Quiet.refl _ | with_reducible intro _ _ | split | with_reducible refine State.Quiet.of_fst (by assumption) ?_ | fail_if_no_progress with_reducible refine State.Quiet.other ?_ rfl rfl rfl rfl rfl rfl rfl | dsimp only
    clear_value y1
  repeat' first | with_reducible assumption | with_reducible apply State.QuietOut.next | with_reducible exact State.QuietOut.fault | with_reducible apply State.at_quiet | with_reducible apply State.setPortSt_quiet | with_reducible apply State.toPhase_quiet | with_reducible apply State.raise_quiet | with_reducible apply State.channelsOff_quiet | with_reducible apply State.publishHold_quiet | with_reducible apply State.Quiet.foldl | with_reducible apply State.Quiet.eachPort | with_reducible exact State.Quiet.refl _ | with_reducible intro _ _ | split | with_reducible refine State.Quiet.of_fst (by assumption) ?_ | fail_if_no_progress with_reducible refine State.Quiet.other ?_ rfl rfl rfl rfl rfl rfl rfl | dsimp only

theorem State.setEvent_quiet {s0 : State} {s : State} {p : Port} {n : Nat} {e : FibreEvent} (hq : s0.Quiet s) :
    s0.Quiet (State.setEvent s p n e) := by
  unfold State.setEvent
  repeat' first | with_reducible assumption | with_reducible apply State.roSet_quiet | with_reducible apply State.roSetInt_quiet | split | with_reducible refine State.Quiet.of_fst (by assumption) ?_

theorem State.setEvents_quiet {s0 s : State} {p : Port} {es : List FibreEvent} {n : Nat} (h : s0.Quiet s) : s0.Quiet (s.setEvents p es n) := by
  induction es generalizing s n with
  | nil => exact h
  | cons e rest ih => exact ih (State.setEvent_quiet h)

theorem State.publishRecord_quiet {s0 : State} {s : State} {p : Port} {r : Ranging} (hq : s0.Quiet s) :
    s0.Quiet (State.publishRecord s p r).1 := by
  unfold State.publishRecord
  try extract_lets y1 y2 y3 y4 y5 y6
  try
    have k3 : s0.Quiet y3 := by
      dsimp only [y3]
      repeat' first | with_reducible assumption | with_reducible apply State.setRanged_quiet | with_reducible apply State.roSet_quiet | with_reducible apply State.setEvents_quiet | with_reducible apply State.Quiet.foldl | with_reducible apply State.Quiet.eachPort | with_reducible exact State.Quiet.refl _ | with_reducible intro _ _ | split | with_reducible refine State.Quiet.of_fst (by assumption) ?_ | fail_if_no_progress with_reducible refine State.Quiet.other ?_ rfl rfl rfl rfl rfl rfl rfl | dsimp only
    clear_value y3
  repeat' first | with_reducible assumption | with_reducible apply State.setRanged_quiet | with_reducible apply State.roSet_quiet | with_reducible apply State.setEvents_quiet | with_reducible apply State.Quiet.foldl | with_reducible apply State.Quiet.eachPort | with_reducible exact State.Quiet.refl _ | with_reducible intro _ _ | split | with_reducible refine State.Quiet.of_fst (by assumption) ?_ | fail_if_no_progress with_reducible refine State.Quiet.other ?_ rfl rfl rfl rfl rfl rfl rfl | dsimp only

theorem State.discoveryDone_quiet {s0 : State} {s : State} {p : Port} {profile winPeaks : List Nat} (hq : s0.Quiet s) :
    s0.Quiet (State.discoveryDone s p profile winPeaks) := by
  unfold State.discoveryDone
  split
  · exact hq
  · extract_lets first r s1 s2 set x s3 s3' s4 far src5 s5 s6 src7 s7 s8 s9
    have k1 : s0.Quiet s1 := State.raise_quiet (State.publishRecord_quiet hq)
    have k2 : s0.Quiet s2 := by
      dsimp only [s2]; split
      · exact State.raise_quiet k1
      · exact k1
    have k3 : s0.Quiet s3' := by
      dsimp only [s3']; split
      · exact State.setRanged_quiet (State.setPortSt_quiet k2)
      · exact State.setPortSt_quiet k2
    clear_value s3'
    have k5 : s0.Quiet s5 := State.setPortSt_quiet (State.roSet_quiet (State.roSet_quiet k3))
    clear_value s5 far
    have k6 : s0.Quiet s6 := by
      dsimp only [s6]; split
      · exact State.raise_quiet k5
      · exact k5
    clear_value s6
    have k7 : s0.Quiet s7 := by
      dsimp only [s7]; split
      · exact State.publishHold_quiet (State.setPortSt_quiet k6)
      · exact k6
    clear_value s7
    have k8 : s0.Quiet s8 := by
      dsimp only [s8]; split
      · exact State.Quiet.foldl (fun _ _ => State.roSet_quiet (State.Quiet.refl _)) k7
      · exact State.Quiet.foldl (fun _ _ => State.roSet_quiet (State.Quiet.refl _)) k7
    clear_value s8
    exact State.discoveryEnded_quiet (State.publishHold_quiet (State.enterPort_quiet (State.publishPower_quiet k8)))


theorem execLaunchClamp_quiet {s0 : State} {t : Tick} {p : Port} {s : State} (hq : s0.Quiet s) :
    s0.QuietOut (execLaunchClamp t p s) := by
  unfold execLaunchClamp
  try extract_lets y1 y2
  try
    have k1 : s0.Quiet y1 := by
      dsimp only [y1]
      repeat' first | with_reducible assumption | with_reducible apply State.at_quiet | split | with_reducible refine State.Quiet.of_fst (by assumption) ?_
    clear_value y1
  repeat' first | with_reducible assumption | with_reducible apply State.QuietOut.next | with_reducible exact State.QuietOut.fault | with_reducible apply State.setClamp_quiet | with_reducible apply State.enterApr_quiet | split | with_reducible refine State.Quiet.of_fst (by assumption) ?_

theorem execAprHoldExpiry_quiet {s0 : State} {t : Tick} {p : Port} {found : Bool} {s : State} (hq : s0.Quiet s) :
    s0.QuietOut (execAprHoldExpiry t p found s) := by
  unfold execAprHoldExpiry
  try extract_lets y1 y2
  try
    have k1 : s0.Quiet y1 := by
      dsimp only [y1]
      repeat' first | with_reducible assumption | with_reducible apply State.at_quiet | split | with_reducible refine State.Quiet.of_fst (by assumption) ?_
    clear_value y1
  repeat' first | with_reducible assumption | with_reducible apply State.QuietOut.next | with_reducible exact State.QuietOut.fault | with_reducible apply State.leaveApr_quiet | split | with_reducible refine State.Quiet.of_fst (by assumption) ?_

end Sys2Proof.Machine
end

