-- ==== Sys2Proof/Laws/KeepsNcpCore.lean ====
section
/-! SUPPORT. What the operations of Machine/NcpCore.lean keep. -/

set_option linter.unusedTactic false
set_option linter.unreachableTactic false
set_option linter.unusedVariables false

namespace Sys2Proof.Machine

theorem State.hold_quiet {s0 : State} {s : State} {n : Nat} {x : Held} (hq : s0.Quiet s) :
    s0.Quiet (State.hold s n x) := by
  unfold State.hold
  try extract_lets y1
  repeat' first | with_reducible assumption | with_reducible apply State.setPair_quiet | with_reducible apply State.pump_quiet | with_reducible apply State.Quiet.foldl | with_reducible apply State.Quiet.eachPort | with_reducible exact State.Quiet.refl _ | with_reducible intro _ _ | split | with_reducible refine State.Quiet.of_fst (by assumption) ?_ | fail_if_no_progress with_reducible refine State.Quiet.other ?_ rfl rfl rfl rfl rfl rfl rfl | dsimp only

theorem State.refuse_quiet {s0 : State} {s : State} {code : Nat} {h : Hdr} {result : Nat} (hq : s0.Quiet s) :
    s0.Quiet (State.refuse s code h result) := by
  unfold State.refuse
  exact State.hold_quiet hq

theorem dropOldest_length {l : List DupClient} (h : 16 ≤ l.length) (hl : l.length ≤ 16) :
    (match l.foldl (fun (m : Option DupClient) d => match m with
        | none => some d
        | some x => if d.last < x.last then some d else some x) none with
      | some old => l.filter (fun (d : DupClient) => !(d.client == old.client))
      | none => l).length ≤ 15 := by
  have key : ∀ (l : List DupClient) (m : Option DupClient), (∀ x, m = some x → x ∈ l ∨ m = some x) →
      ∀ y, l.foldl (fun (m : Option DupClient) d => match m with
        | none => some d
        | some x => if d.last < x.last then some d else some x) m = some y → y ∈ l ∨ m = some y := by
    intro l
    induction l with
    | nil => intro m _ y hy; exact .inr hy
    | cons a l ih =>
      intro m _ y hy
      rw [List.foldl_cons] at hy
      rcases ih _ (fun x hx => .inr hx) y hy with hm | hm
      · exact .inl (List.mem_cons_of_mem _ hm)
      · cases m with
        | none => exact .inl (by simp at hm; simp [hm])
        | some x =>
          dsimp only at hm
          split at hm
          · exact .inl (by simp at hm; simp [hm])
          · exact .inr hm
  split
  · rename_i old hold
    rcases key l none (fun x hx => nomatch hx) old hold with hm | hm
    · have : (l.filter (fun (d : DupClient) => !(d.client == old.client))).length < l.length := by
        apply List.length_filter_lt_length_iff_exists.2
        exact ⟨old, hm, by simp⟩
      omega
    · exact nomatch hm
  · rename_i hnone
    cases l with
    | nil => simp at h
    | cons a l =>
      exfalso
      have some_of : ∀ (l : List DupClient) (x : DupClient), (l.foldl (fun (m : Option DupClient) d => match m with
        | none => some d
        | some x => if d.last < x.last then some d else some x) (some x)) ≠ none := by
        intro l
        induction l with
        | nil => intro x hx; exact nomatch hx
        | cons b l ih =>
          intro x hx
          rw [List.foldl_cons] at hx
          dsimp only at hx
          split at hx
          · exact ih _ hx
          · exact ih _ hx
      exact some_of l a hnone

theorem State.remember_quiet {s0 s : State} {h : Hdr} {resp : Option Resp} {job : Nat} (hs : s0.Quiet s) : s0.Quiet (s.remember h resp job) := by
  unfold State.remember
  extract_lets e last others mine kept
  apply State.roSet_quiet
  refine hs.trans ⟨⟨rfl, id, id, fun r => ?_⟩, rfl, rfl⟩
  have ho : others.length ≤ s.dup.length := List.length_filter_le _ _
  show kept.length + 1 ≤ 16
  have hr : s.dup.length ≤ 16 := r
  by_cases hc : (s.dupClient h.client).isNone = true ∧ 16 ≤ others.length
  · have : kept.length ≤ 15 := by
      dsimp only [kept]
      rw [if_pos hc]
      exact dropOldest_length hc.2 (ho.trans hr)
    omega
  · have hk : kept = others := by dsimp only [kept]; rw [if_neg hc]
    rw [hk]
    by_cases hn : (s.dupClient h.client).isNone = true
    · have : ¬ 16 ≤ others.length := fun hle => hc ⟨hn, hle⟩
      omega
    · have : others.length < s.dup.length := by
        apply List.length_filter_lt_length_iff_exists.2
        have hd0 : ∃ d, s.dup.find? (fun (d : DupClient) => d.client == h.client) = some d := by
          have : (s.dupClient h.client).isSome = true := by
            cases hx : s.dupClient h.client with
            | none => rw [hx] at hn; exact absurd rfl hn
            | some d => rfl
          exact Option.isSome_iff_exists.1 this
        obtain ⟨d, hd⟩ := hd0
        exact ⟨d, List.mem_of_find?_eq_some hd, by have := List.find?_some hd; simpa using this⟩
      omega

theorem State.touchClient_quiet {s0 s : State} {c : BitVec 64} (h : s0.Quiet s) : s0.Quiet (s.touchClient c) :=
  h.trans ⟨⟨rfl, id, id, fun r => by unfold State.cacheOk State.touchClient at *; simpa using r⟩, rfl, rfl⟩

theorem State.sessionUse_quiet {s0 : State} {s : State} {h : Hdr} (hq : s0.Quiet s) :
    s0.Quiet (State.sessionUse s h) := by
  unfold State.sessionUse
  try extract_lets y1 y2 y3 y4
  try
    have k3 : s0.Quiet y3 := by
      dsimp only [y3]
      repeat' first | with_reducible assumption | with_reducible apply State.setPair_quiet | with_reducible apply State.Quiet.foldl | with_reducible apply State.Quiet.eachPort | with_reducible exact State.Quiet.refl _ | with_reducible intro _ _ | split | with_reducible refine State.Quiet.of_fst (by assumption) ?_ | fail_if_no_progress with_reducible refine State.Quiet.other ?_ rfl rfl rfl rfl rfl rfl rfl
    clear_value y3
  repeat' first | with_reducible assumption | with_reducible apply State.setPair_quiet | with_reducible apply State.Quiet.foldl | with_reducible apply State.Quiet.eachPort | with_reducible exact State.Quiet.refl _ | with_reducible intro _ _ | split | with_reducible refine State.Quiet.of_fst (by assumption) ?_ | fail_if_no_progress with_reducible refine State.Quiet.other ?_ rfl rfl rfl rfl rfl rfl rfl | dsimp only

theorem State.execute_quiet {s0 s : State} {code : Nat} {h : Hdr} {run : State → State × Answer} (hr : ∀ y : State, y.Quiet (run y).1) (hs : s0.Quiet s) :
    s0.Quiet (s.execute code h run) := by
  have k := hs.trans (hr s)
  unfold State.execute
  dsimp only
  repeat' first
    | with_reducible assumption | with_reducible apply State.hold_quiet | with_reducible apply State.remember_quiet | with_reducible apply State.touchClient_quiet | split
    | fail_if_no_progress with_reducible refine State.Quiet.other ?_ rfl rfl rfl rfl rfl rfl rfl

theorem State.serveNcp_quiet {s0 s : State} {code : Nat} {h : Hdr} {body : List Byte} {run : State → State × Answer} (hr : ∀ y : State, y.Quiet (run y).1)
    (hs : s0.Quiet s) : s0.Quiet (s.serveNcp code h body run) := by
  unfold State.serveNcp
  extract_lets a b run1 fresh c
  have hr1 : ∀ y : State, y.Quiet (run1 y).1 := by
    intro y
    dsimp only [run1]
    repeat' first | exact State.Quiet.refl y | exact hr y | split
  have ka : s0.Quiet a := State.at_quiet hs
  clear_value a
  have kb : s0.Quiet b := State.sessionUse_quiet ka
  clear_value b
  have kf : s0.Quiet fresh := by
    dsimp only [fresh]
    split
    · exact State.refuse_quiet kb
    · exact State.execute_quiet hr1 kb
  clear_value fresh
  have kc : s0.Quiet c := State.touchClient_quiet kb
  clear_value c
  repeat' first
    | with_reducible assumption | with_reducible apply State.refuse_quiet | with_reducible apply State.hold_quiet | with_reducible apply State.bump_quiet
    | with_reducible apply State.touchClient_quiet | split

theorem request_quiet {s0 s : State} {code : Nat} {h : Hdr} {body : List Byte} {run : State → State × Answer} (hr : ∀ y : State, y.Quiet (run y).1)
    (hs : s0.Quiet s) : s0.QuietOut (request code h body run s) := State.QuietOut.next (State.serveNcp_quiet hr hs)

theorem State.answerJob_quiet {s0 s : State} {j : Job} {result : Nat} {body : List Byte} (h : s0.Quiet s) : s0.Quiet (s.answerJob j result body) := by
  unfold State.answerJob
  extract_lets r s1
  have k1 : s0.Quiet s1 := h.trans ⟨⟨rfl, id, id, fun r => by unfold State.cacheOk at *; dsimp only [s1]; simpa using r⟩, rfl, rfl⟩
  clear_value s1
  exact State.Quiet.foldl (fun y _ => State.pump_quiet (State.Quiet.refl y)) k1

end Sys2Proof.Machine
end

