-- ==== Sys2Proof/Laws/KeepsEnsCore.lean ====
section
/-! SUPPORT. What the operations of Machine/EnsCore.lean keep. -/

set_option linter.unusedTactic false
set_option linter.unreachableTactic false
set_option linter.unusedVariables false

namespace Sys2Proof.Machine

theorem State.withEns_quiet {s0 : State} {s : State} {e : Ensemble} (hq : s0.Quiet s) :
    s0.Quiet (State.withEns s e) := by
  unfold State.withEns
  repeat' first | with_reducible assumption | split | with_reducible refine State.Quiet.of_fst (by assumption) ?_ | fail_if_no_progress with_reducible refine State.Quiet.other ?_ rfl rfl rfl rfl rfl rfl rfl

theorem State.setMember_quiet {s0 : State} {s : State} {x : Member} (hq : s0.Quiet s) :
    s0.Quiet (State.setMember s x) := by
  unfold State.setMember
  try extract_lets y1
  repeat' first | with_reducible assumption | with_reducible apply State.withEns_quiet | split | with_reducible refine State.Quiet.of_fst (by assumption) ?_ | dsimp only

theorem State.statusChange_quiet {s0 : State} {s : State} {id : BitVec 64} {old new : Nat} (hq : s0.Quiet s) :
    s0.Quiet (State.statusChange s id old new) := by
  unfold State.statusChange
  try extract_lets y1
  try
    have k1 : s0.Quiet y1 := by
      dsimp only [y1]
      repeat' first | with_reducible assumption | with_reducible apply State.raise_quiet | split | with_reducible refine State.Quiet.of_fst (by assumption) ?_
    clear_value y1
  repeat' first | with_reducible assumption | with_reducible apply State.raise_quiet | with_reducible apply State.Quiet.foldl | with_reducible exact State.Quiet.refl _ | with_reducible intro _ _ | split | with_reducible refine State.Quiet.of_fst (by assumption) ?_ | dsimp only

theorem State.ensRefresh_quiet {s0 : State} {s : State} (hq : s0.Quiet s) :
    s0.Quiet (State.ensRefresh s) := by
  unfold State.ensRefresh
  try extract_lets y1 y2 y3 y4 y5 y6 y7 y8 y9
  try
    have k6 : s0.Quiet y6 := by
      dsimp only [y6]
      repeat' first | with_reducible assumption | with_reducible apply State.roSet_quiet | split | with_reducible refine State.Quiet.of_fst (by assumption) ?_
    clear_value y6
  try
    have k8 : s0.Quiet y8 := by
      dsimp only [y8]
      repeat' first | with_reducible assumption | with_reducible apply State.withEns_quiet | split | with_reducible refine State.Quiet.of_fst (by assumption) ?_
    clear_value y8
  repeat' first | with_reducible assumption | with_reducible apply State.statusChange_quiet | with_reducible apply State.Quiet.foldl | with_reducible exact State.Quiet.refl _ | with_reducible intro _ _ | split | with_reducible refine State.Quiet.of_fst (by assumption) ?_ | dsimp only

theorem State.useConn_quiet {s0 : State} {s : State} {id : BitVec 64} (hq : s0.Quiet s) :
    s0.Quiet (State.useConn s id) := by
  unfold State.useConn
  try extract_lets y1
  repeat' first | with_reducible assumption | with_reducible apply State.withEns_quiet | split | with_reducible refine State.Quiet.of_fst (by assumption) ?_ | dsimp only

theorem State.sendPeer_quiet {s0 : State} {s : State} {id : BitVec 64} {code : Nat} {body : List Byte} (hq : s0.Quiet s) :
    s0.Quiet (State.sendPeer s id code body) := by
  unfold State.sendPeer
  repeat' first | with_reducible assumption | with_reducible apply State.emit_quiet | with_reducible apply State.useConn_quiet | split | with_reducible refine State.Quiet.of_fst (by assumption) ?_

theorem State.beat_quiet {s0 : State} {s : State} {ens : Nat} {id : BitVec 64} (hq : s0.Quiet s) :
    s0.Quiet (State.beat s ens id) := by
  unfold State.beat
  repeat' first | with_reducible assumption | with_reducible apply State.emit_quiet | with_reducible apply State.Quiet.foldl | with_reducible exact State.Quiet.refl _ | with_reducible intro _ _ | split | with_reducible refine State.Quiet.of_fst (by assumption) ?_ | dsimp only

theorem State.sendTable_quiet {s0 : State} {s : State} {id : BitVec 64} (hq : s0.Quiet s) :
    s0.Quiet (State.sendTable s id) := by
  unfold State.sendTable
  try extract_lets y1
  repeat' first | with_reducible assumption | with_reducible apply State.sendPeer_quiet | split | with_reducible refine State.Quiet.of_fst (by assumption) ?_ | dsimp only

theorem State.contact_quiet {s0 : State} {s : State} {id : BitVec 64} (hq : s0.Quiet s) :
    s0.Quiet (State.contact s id) := by
  unfold State.contact
  repeat' first | with_reducible assumption | with_reducible apply State.sendTable_quiet | with_reducible apply State.beat_quiet | split | with_reducible refine State.Quiet.of_fst (by assumption) ?_

theorem State.heardFrom_quiet {s0 : State} {s : State} {id : BitVec 64} (hq : s0.Quiet s) :
    s0.Quiet (State.heardFrom s id) := by
  unfold State.heardFrom
  repeat' first | with_reducible assumption | with_reducible apply State.setMember_quiet | with_reducible apply State.ensRefresh_quiet | split | with_reducible refine State.Quiet.of_fst (by assumption) ?_ | fail_if_no_progress with_reducible refine State.Quiet.other ?_ rfl rfl rfl rfl rfl rfl rfl | dsimp only

theorem State.servePeer_quiet {s0 s : State} {code : Nat} {h : Hdr} {body : List Byte} {run : State → State × Answer} (hr : ∀ y : State, y.Quiet (run y).1)
    (hs : s0.Quiet s) : s0.Quiet (s.servePeer code h body run) := by
  unfold State.servePeer
  extract_lets a r
  have ka : s0.Quiet a := State.at_quiet hs
  clear_value a
  have kr : s0.Quiet r.1 := (State.heardFrom_quiet ka).trans (hr _)
  clear_value r
  repeat' first | with_reducible assumption | with_reducible apply State.sendPeer_quiet | split

theorem State.ensAtF_quiet {s0 : State} {s : State} {old : PSet} (hq : s0.Quiet s) :
    s0.Quiet (State.ensAtF s old) := by
  unfold State.ensAtF
  try extract_lets y1 y2 y3 y4 y5 y6 y7 y8 y9
  try
    have k2 : s0.Quiet y2 := by
      dsimp only [y2]
      repeat' first | with_reducible assumption | with_reducible apply State.ensRefresh_quiet | with_reducible apply State.beat_quiet | with_reducible apply State.roSet_quiet | with_reducible apply State.raise_quiet | with_reducible apply State.judgeTime_quiet | with_reducible apply State.Quiet.foldl | with_reducible apply State.Quiet.eachPort | with_reducible exact State.Quiet.refl _ | with_reducible intro _ _ | split | with_reducible refine State.Quiet.of_fst (by assumption) ?_ | fail_if_no_progress with_reducible refine State.Quiet.other ?_ rfl rfl rfl rfl rfl rfl rfl
    clear_value y2
  try
    have k6 : s0.Quiet y6 := by
      dsimp only [y6]
      repeat' first | with_reducible assumption | with_reducible apply State.ensRefresh_quiet | with_reducible apply State.beat_quiet | with_reducible apply State.roSet_quiet | with_reducible apply State.raise_quiet | with_reducible apply State.judgeTime_quiet | with_reducible apply State.Quiet.foldl | with_reducible apply State.Quiet.eachPort | with_reducible exact State.Quiet.refl _ | with_reducible intro _ _ | split | with_reducible refine State.Quiet.of_fst (by assumption) ?_ | fail_if_no_progress with_reducible refine State.Quiet.other ?_ rfl rfl rfl rfl rfl rfl rfl
    clear_value y6
  try
    have k7 : s0.Quiet y7 := by
      dsimp only [y7]
      repeat' first | with_reducible assumption | with_reducible apply State.ensRefresh_quiet | with_reducible apply State.beat_quiet | with_reducible apply State.roSet_quiet | with_reducible apply State.raise_quiet | with_reducible apply State.judgeTime_quiet | with_reducible apply State.Quiet.foldl | with_reducible apply State.Quiet.eachPort | with_reducible exact State.Quiet.refl _ | with_reducible intro _ _ | split | with_reducible refine State.Quiet.of_fst (by assumption) ?_ | fail_if_no_progress with_reducible refine State.Quiet.other ?_ rfl rfl rfl rfl rfl rfl rfl
    clear_value y7
  try
    have k8 : s0.Quiet y8 := by
      dsimp only [y8]
      repeat' first | with_reducible assumption | with_reducible apply State.ensRefresh_quiet | with_reducible apply State.beat_quiet | with_reducible apply State.roSet_quiet | with_reducible apply State.raise_quiet | with_reducible apply State.judgeTime_quiet | with_reducible apply State.Quiet.foldl | with_reducible apply State.Quiet.eachPort | with_reducible exact State.Quiet.refl _ | with_reducible intro _ _ | split | with_reducible refine State.Quiet.of_fst (by assumption) ?_ | fail_if_no_progress with_reducible refine State.Quiet.other ?_ rfl rfl rfl rfl rfl rfl rfl
    clear_value y8
  try
    have k9 : s0.Quiet y9 := by
      dsimp only [y9]
      repeat' first | with_reducible assumption | with_reducible apply State.ensRefresh_quiet | with_reducible apply State.beat_quiet | with_reducible apply State.roSet_quiet | with_reducible apply State.raise_quiet | with_reducible apply State.judgeTime_quiet | with_reducible apply State.Quiet.foldl | with_reducible apply State.Quiet.eachPort | with_reducible exact State.Quiet.refl _ | with_reducible intro _ _ | split | with_reducible refine State.Quiet.of_fst (by assumption) ?_ | fail_if_no_progress with_reducible refine State.Quiet.other ?_ rfl rfl rfl rfl rfl rfl rfl
    clear_value y9
  repeat' first | with_reducible assumption | with_reducible apply State.ensRefresh_quiet | with_reducible apply State.beat_quiet | with_reducible apply State.roSet_quiet | with_reducible apply State.raise_quiet | with_reducible apply State.judgeTime_quiet | with_reducible apply State.Quiet.foldl | with_reducible apply State.Quiet.eachPort | with_reducible exact State.Quiet.refl _ | with_reducible intro _ _ | split | with_reducible refine State.Quiet.of_fst (by assumption) ?_ | fail_if_no_progress with_reducible refine State.Quiet.other ?_ rfl rfl rfl rfl rfl rfl rfl | dsimp only

end Sys2Proof.Machine
end

