-- ==== Sys2Proof/Laws/KeepsMemory.lean ====
section
/-! SUPPORT. What the operations of Machine/Memory.lean keep. -/

set_option linter.unusedTactic false
set_option linter.unreachableTactic false
set_option linter.unusedVariables false

namespace Sys2Proof.Machine

theorem State.withMem_quiet {s0 : State} {s : State} {m : MemSt} (hq : s0.Quiet s) :
    s0.Quiet (State.withMem s m) := by
  unfold State.withMem
  repeat' first | with_reducible assumption | split | with_reducible refine State.Quiet.of_fst (by assumption) ?_ | fail_if_no_progress with_reducible refine State.Quiet.other ?_ rfl rfl rfl rfl rfl rfl rfl

theorem State.setQos_quiet {s0 : State} {s : State} {p : Nat} {x : QosPort} (hq : s0.Quiet s) :
    s0.Quiet (State.setQos s p x) := by
  unfold State.setQos
  try extract_lets y1
  repeat' first | with_reducible assumption | with_reducible apply State.withMem_quiet | split | with_reducible refine State.Quiet.of_fst (by assumption) ?_

theorem State.setRank_quiet {s0 : State} {s : State} {r : Nat} {x : MemRank} (hq : s0.Quiet s) :
    s0.Quiet (State.setRank s r x) := by
  unfold State.setRank
  try extract_lets y1
  repeat' first | with_reducible assumption | with_reducible apply State.withMem_quiet | split | with_reducible refine State.Quiet.of_fst (by assumption) ?_

theorem State.publishRanks_quiet {s0 : State} {s : State} (hq : s0.Quiet s) :
    s0.Quiet (State.publishRanks s) := by
  unfold State.publishRanks
  try extract_lets y1 y2 y3 y4 y5
  try
    have k5 : s0.Quiet y5 := by
      dsimp only [y5]
      repeat' first | with_reducible assumption | with_reducible apply State.roSet_quiet | with_reducible apply State.Quiet.foldl | with_reducible exact State.Quiet.refl _ | with_reducible intro _ _ | split | with_reducible refine State.Quiet.of_fst (by assumption) ?_
    clear_value y5
  repeat' first | with_reducible assumption | with_reducible apply State.roSet_quiet | split | with_reducible refine State.Quiet.of_fst (by assumption) ?_

theorem State.startMigration_quiet {s0 : State} {s : State} {old spare : Nat} (hq : s0.Quiet s) :
    s0.Quiet (State.startMigration s old spare) := by
  unfold State.startMigration
  try extract_lets y1 y2 y3
  repeat' first | with_reducible assumption | with_reducible apply State.withMem_quiet | with_reducible apply State.setRank_quiet | with_reducible apply State.publishRanks_quiet | split | with_reducible refine State.Quiet.of_fst (by assumption) ?_ | fail_if_no_progress with_reducible refine State.Quiet.other ?_ rfl rfl rfl rfl rfl rfl rfl

theorem State.abandonMigration_quiet {s0 : State} {s : State} (hq : s0.Quiet s) :
    s0.Quiet (State.abandonMigration s) := by
  unfold State.abandonMigration
  try extract_lets y1
  repeat' first | with_reducible assumption | with_reducible apply State.withMem_quiet | with_reducible apply State.setRank_quiet | with_reducible apply State.publishRanks_quiet | with_reducible apply State.raise_quiet | split | with_reducible refine State.Quiet.of_fst (by assumption) ?_ | fail_if_no_progress with_reducible refine State.Quiet.other ?_ rfl rfl rfl rfl rfl rfl rfl | dsimp only

theorem State.deviceFaulty_quiet {s0 : State} {s : State} {r d : Nat} (hq : s0.Quiet s) :
    s0.Quiet (State.deviceFaulty s r d) := by
  unfold State.deviceFaulty
  try extract_lets y1 y2 y3
  try
    have k2 : s0.Quiet y2 := by
      dsimp only [y2]
      repeat' first | with_reducible assumption | with_reducible apply State.withMem_quiet | with_reducible apply State.roSet_quiet | with_reducible apply State.raise_quiet | split | with_reducible refine State.Quiet.of_fst (by assumption) ?_
    clear_value y2
  repeat' first | with_reducible assumption | with_reducible apply State.withMem_quiet | with_reducible apply State.roSet_quiet | with_reducible apply State.raise_quiet | with_reducible apply State.abandonMigration_quiet | with_reducible apply State.startMigration_quiet | with_reducible apply State.publishRanks_quiet | split | with_reducible refine State.Quiet.of_fst (by assumption) ?_ | dsimp only

theorem State.attribute_quiet {s0 : State} {s : State} {r d lanes : Nat} {recurs : Bool} (hq : s0.Quiet s) :
    s0.Quiet (State.attribute s r d lanes recurs) := by
  unfold State.attribute
  try extract_lets y1 y2 y3 y4
  try
    have k3 : s0.Quiet y3 := by
      dsimp only [y3]
      repeat' first | with_reducible assumption | with_reducible apply State.withMem_quiet | with_reducible apply State.bump_quiet | split | with_reducible refine State.Quiet.of_fst (by assumption) ?_
    clear_value y3
  repeat' first | with_reducible assumption | with_reducible apply State.deviceFaulty_quiet | with_reducible apply State.roSet_quiet | split | with_reducible refine State.Quiet.of_fst (by assumption) ?_

theorem State.poisonP1_quiet {s0 : State} {s : State} (hq : s0.Quiet s) :
    s0.Quiet (State.poisonP1 s) := by
  unfold State.poisonP1
  try extract_lets y1 y2 y3 y4 y5 y6 y7 y8 y9 y10
  try
    have k2 : s0.Quiet y2 := by
      dsimp only [y2]
      repeat' first | with_reducible assumption | with_reducible apply State.drawn_quiet | with_reducible apply State.setStream_quiet | with_reducible apply State.setCoh_quiet | with_reducible apply State.Quiet.foldl | with_reducible apply State.Quiet.eachPort | with_reducible exact State.Quiet.refl _ | with_reducible intro _ _ | split | with_reducible refine State.Quiet.of_fst (by assumption) ?_ | fail_if_no_progress with_reducible refine State.Quiet.other ?_ rfl rfl rfl rfl rfl rfl rfl | dsimp only
    clear_value y2
  try
    have k5 : s0.Quiet y5 := by
      dsimp only [y5]
      repeat' first | with_reducible assumption | with_reducible apply State.drawn_quiet | with_reducible apply State.setStream_quiet | with_reducible apply State.setCoh_quiet | with_reducible apply State.Quiet.foldl | with_reducible apply State.Quiet.eachPort | with_reducible exact State.Quiet.refl _ | with_reducible intro _ _ | split | with_reducible refine State.Quiet.of_fst (by assumption) ?_ | fail_if_no_progress with_reducible refine State.Quiet.other ?_ rfl rfl rfl rfl rfl rfl rfl | dsimp only
    clear_value y5
  try
    have k7 : s0.Quiet y7 := by
      dsimp only [y7]
      repeat' first | with_reducible assumption | with_reducible apply State.drawn_quiet | with_reducible apply State.setStream_quiet | with_reducible apply State.setCoh_quiet | with_reducible apply State.Quiet.foldl | with_reducible apply State.Quiet.eachPort | with_reducible exact State.Quiet.refl _ | with_reducible intro _ _ | split | with_reducible refine State.Quiet.of_fst (by assumption) ?_ | fail_if_no_progress with_reducible refine State.Quiet.other ?_ rfl rfl rfl rfl rfl rfl rfl | dsimp only
    clear_value y7
  try
    have k9 : s0.Quiet y9 := by
      dsimp only [y9]
      repeat' first | with_reducible assumption | with_reducible apply State.drawn_quiet | with_reducible apply State.setStream_quiet | with_reducible apply State.setCoh_quiet | with_reducible apply State.Quiet.foldl | with_reducible apply State.Quiet.eachPort | with_reducible exact State.Quiet.refl _ | with_reducible intro _ _ | split | with_reducible refine State.Quiet.of_fst (by assumption) ?_ | fail_if_no_progress with_reducible refine State.Quiet.other ?_ rfl rfl rfl rfl rfl rfl rfl | dsimp only
    clear_value y9
  repeat' first | with_reducible assumption | with_reducible apply State.drawn_quiet | with_reducible apply State.setStream_quiet | with_reducible apply State.setCoh_quiet | with_reducible apply State.Quiet.foldl | with_reducible apply State.Quiet.eachPort | with_reducible exact State.Quiet.refl _ | with_reducible intro _ _ | split | with_reducible refine State.Quiet.of_fst (by assumption) ?_ | fail_if_no_progress with_reducible refine State.Quiet.other ?_ rfl rfl rfl rfl rfl rfl rfl | dsimp only

theorem State.poisonP2_quiet {s0 : State} {s : State} (hq : s0.Quiet s) :
    s0.Quiet (State.poisonP2 s) := by
  unfold State.poisonP2
  try extract_lets y1 y2 y3
  try
    have k2 : s0.Quiet y2 := by
      dsimp only [y2]
      repeat' first | with_reducible assumption | with_reducible apply State.drawn_quiet | split | with_reducible refine State.Quiet.of_fst (by assumption) ?_
    clear_value y2
  repeat' first | with_reducible assumption | with_reducible apply State.drawn_quiet | with_reducible apply State.coreFault_quiet | with_reducible apply State.setInst_quiet | split | with_reducible refine State.Quiet.of_fst (by assumption) ?_ | dsimp only

theorem State.poisonP3_quiet {s0 : State} {s : State} {a : Nat} (hq : s0.Quiet s) :
    s0.Quiet (State.poisonP3 s a) := by
  unfold State.poisonP3
  try extract_lets y1 y2 y3 y4
  repeat' first | with_reducible assumption | with_reducible apply State.drawn_quiet | with_reducible apply State.withMem_quiet | split | with_reducible refine State.Quiet.of_fst (by assumption) ?_ | fail_if_no_progress with_reducible refine State.Quiet.other ?_ rfl rfl rfl rfl rfl rfl rfl | dsimp only

theorem State.poisonP4_quiet {s0 : State} {s : State} (hq : s0.Quiet s) :
    s0.Quiet (State.poisonP4 s) := by
  unfold State.poisonP4
  try extract_lets y1 y2
  repeat' first | with_reducible assumption | with_reducible apply State.drawn_quiet | with_reducible apply State.setStream_quiet | with_reducible apply State.gone_quiet | with_reducible apply State.Quiet.foldl | with_reducible apply State.Quiet.eachPort | with_reducible exact State.Quiet.refl _ | with_reducible intro _ _ | split | with_reducible refine State.Quiet.of_fst (by assumption) ?_ | fail_if_no_progress with_reducible refine State.Quiet.other ?_ rfl rfl rfl rfl rfl rfl rfl | dsimp only

theorem State.poisonP5_quiet {s0 : State} {s : State} {a : Nat} (hq : s0.Quiet s) :
    s0.Quiet (State.poisonP5 s a) := by
  unfold State.poisonP5
  try extract_lets y1
  repeat' first | with_reducible assumption | with_reducible apply State.withMem_quiet | split | with_reducible refine State.Quiet.of_fst (by assumption) ?_ | dsimp only

theorem State.deliverPoison_quiet {s0 : State} {s : State} {port a : Nat} (hq : s0.Quiet s) :
    s0.Quiet (State.deliverPoison s port a) := by
  unfold State.deliverPoison
  repeat' first | with_reducible assumption | with_reducible apply State.poisonP1_quiet | with_reducible apply State.poisonP2_quiet | with_reducible apply State.poisonP3_quiet | with_reducible apply State.poisonP4_quiet | with_reducible apply State.poisonP5_quiet | split | with_reducible refine State.Quiet.of_fst (by assumption) ?_ | dsimp only

theorem State.uncorrectable_quiet {s0 : State} {s : State} {port a : Nat} (hq : s0.Quiet s) :
    s0.Quiet (State.uncorrectable s port a) := by
  unfold State.uncorrectable
  try extract_lets y1
  repeat' first | with_reducible assumption | with_reducible apply State.withMem_quiet | with_reducible apply State.bump_quiet | with_reducible apply State.raise_quiet | with_reducible apply State.deliverPoison_quiet | split | with_reducible refine State.Quiet.of_fst (by assumption) ?_

theorem State.readBurst_quiet {s0 : State} {s : State} {port a r : Nat} {ecc : EccObs} (hq : s0.Quiet s) :
    s0.Quiet (State.readBurst s port a r ecc) := by
  unfold State.readBurst
  try extract_lets y1 y2 y3
  try
    have k3 : s0.Quiet y3 := by
      dsimp only [y3]
      repeat' first | with_reducible assumption | with_reducible apply State.withMem_quiet | split | with_reducible refine State.Quiet.of_fst (by assumption) ?_
    clear_value y3
  repeat' first | with_reducible assumption | with_reducible apply State.deliverPoison_quiet | with_reducible apply State.withMem_quiet | with_reducible apply State.uncorrectable_quiet | with_reducible apply State.attribute_quiet | split | with_reducible refine State.Quiet.of_fst (by assumption) ?_ | dsimp only

theorem State.writeBurst_quiet {s0 : State} {s : State} {a : Nat} (hq : s0.Quiet s) :
    s0.Quiet (State.writeBurst s a) := by
  unfold State.writeBurst
  try extract_lets y1
  repeat' first | with_reducible assumption | with_reducible apply State.withMem_quiet | split | with_reducible refine State.Quiet.of_fst (by assumption) ?_ | dsimp only

theorem State.ageRequests_quiet {s0 : State} {s : State} {p clock : Nat} (hq : s0.Quiet s) :
    s0.Quiet (State.ageRequests s p clock) := by
  unfold State.ageRequests
  try extract_lets y1
  repeat' first | with_reducible assumption | with_reducible apply State.setQos_quiet | split | with_reducible refine State.Quiet.of_fst (by assumption) ?_ | dsimp only

theorem State.arrive_quiet {s0 : State} {s : State} {r : DramReq} (hq : s0.Quiet s) :
    s0.Quiet (State.arrive s r) := by
  unfold State.arrive
  try extract_lets y1 y2
  repeat' first | with_reducible assumption | with_reducible apply State.setQos_quiet | split | with_reducible refine State.Quiet.of_fst (by assumption) ?_

theorem State.forceRefresh_quiet {s0 : State} {s : State} {r clock : Nat} (hq : s0.Quiet s) :
    s0.Quiet (State.forceRefresh s r clock) := by
  unfold State.forceRefresh
  try extract_lets y1
  repeat' first | with_reducible assumption | with_reducible apply State.setRank_quiet | with_reducible apply State.bump_quiet | split | with_reducible refine State.Quiet.of_fst (by assumption) ?_ | fail_if_no_progress with_reducible refine State.Quiet.other ?_ rfl rfl rfl rfl rfl rfl rfl

theorem State.easyRefresh_quiet {s0 : State} {s : State} {r clock : Nat} (hq : s0.Quiet s) :
    s0.Quiet (State.easyRefresh s r clock) := by
  unfold State.easyRefresh
  try extract_lets y1
  repeat' first | with_reducible assumption | with_reducible apply State.setRank_quiet | with_reducible apply State.drawn_quiet | split | with_reducible refine State.Quiet.of_fst (by assumption) ?_ | fail_if_no_progress with_reducible refine State.Quiet.other ?_ rfl rfl rfl rfl rfl rfl rfl

theorem State.touchRank_quiet {s0 : State} {s : State} {a clock r : Nat} (hq : s0.Quiet s) :
    s0.Quiet (State.touchRank s a clock r) := by
  unfold State.touchRank
  try extract_lets y1 y2 y3
  repeat' first | with_reducible assumption | with_reducible apply State.setRank_quiet | split | with_reducible refine State.Quiet.of_fst (by assumption) ?_ | fail_if_no_progress with_reducible refine State.Quiet.other ?_ rfl rfl rfl rfl rfl rfl rfl

theorem State.serve_quiet {s0 : State} {s : State} {p clock : Nat} {ecc : EccObs} (hq : s0.Quiet s) :
    s0.Quiet (State.serve s p clock ecc) := by
  unfold State.serve
  try extract_lets y1
  repeat' first | with_reducible assumption | with_reducible apply State.setQos_quiet | with_reducible apply State.bump_quiet | with_reducible apply State.touchRank_quiet | with_reducible apply State.withMem_quiet | with_reducible apply State.writeBurst_quiet | with_reducible apply State.readBurst_quiet | with_reducible apply State.Quiet.foldl | with_reducible exact State.Quiet.refl _ | with_reducible intro _ _ | split | with_reducible refine State.Quiet.of_fst (by assumption) ?_ | dsimp only

theorem State.memSecond_quiet {s0 : State} {s : State} (hq : s0.Quiet s) :
    s0.Quiet (State.memSecond s) := by
  unfold State.memSecond
  try extract_lets y1 y2 y3 y4
  try
    have k2 : s0.Quiet y2 := by
      dsimp only [y2]
      repeat' first | with_reducible assumption | with_reducible apply State.roSet_quiet | with_reducible apply State.setQos_quiet | with_reducible apply State.Quiet.foldl | with_reducible exact State.Quiet.refl _ | with_reducible intro _ _ | split | with_reducible refine State.Quiet.of_fst (by assumption) ?_
    clear_value y2
  try
    have k3 : s0.Quiet y3 := by
      dsimp only [y3]
      repeat' first | with_reducible assumption | with_reducible apply State.roSet_quiet | with_reducible apply State.setRank_quiet | with_reducible apply State.Quiet.foldl | with_reducible exact State.Quiet.refl _ | with_reducible intro _ _ | split | with_reducible refine State.Quiet.of_fst (by assumption) ?_ | fail_if_no_progress with_reducible refine State.Quiet.other ?_ rfl rfl rfl rfl rfl rfl rfl
    clear_value y3
  repeat' first | with_reducible assumption | with_reducible apply State.withMem_quiet | split | with_reducible refine State.Quiet.of_fst (by assumption) ?_

theorem execDramBurstBoundary_quiet {s0 : State} {clock : Nat} {arrivals : List DramReq} {ecc : EccObs} {s : State} (hq : s0.Quiet s) :
    s0.QuietOut (execDramBurstBoundary clock arrivals ecc s) := by
  unfold execDramBurstBoundary
  extract_lets y1 y2 y3 y4 y5 y6 y7 y8 y9 y10 y11 y12
  first
    | (have k1 : s0.Quiet y1 := by (dsimp only [y1]; repeat' first | with_reducible assumption | with_reducible apply State.QuietOut.next | with_reducible exact State.QuietOut.fault | with_reducible apply State.at_quiet | with_reducible apply State.memSecond_quiet | with_reducible apply State.arrive_quiet | with_reducible apply State.ageRequests_quiet | with_reducible apply State.serve_quiet | with_reducible apply State.withMem_quiet | with_reducible apply State.forceRefresh_quiet | with_reducible apply State.easyRefresh_quiet | with_reducible apply State.Quiet.foldl | with_reducible apply State.Quiet.eachPort | with_reducible exact State.Quiet.refl _ | with_reducible intro _ _ | split | with_reducible refine State.Quiet.of_fst (by assumption) ?_ | fail_if_no_progress with_reducible refine State.Quiet.other ?_ rfl rfl rfl rfl rfl rfl rfl | dsimp only)
       clear_value y1)
    | clear_value y1
    | skip
  first
    | (have k2 : s0.Quiet y2 := by (dsimp only [y2]; repeat' first | with_reducible assumption | with_reducible apply State.QuietOut.next | with_reducible exact State.QuietOut.fault | with_reducible apply State.at_quiet | with_reducible apply State.memSecond_quiet | with_reducible apply State.arrive_quiet | with_reducible apply State.ageRequests_quiet | with_reducible apply State.serve_quiet | with_reducible apply State.withMem_quiet | with_reducible apply State.forceRefresh_quiet | with_reducible apply State.easyRefresh_quiet | with_reducible apply State.Quiet.foldl | with_reducible apply State.Quiet.eachPort | with_reducible exact State.Quiet.refl _ | with_reducible intro _ _ | split | with_reducible refine State.Quiet.of_fst (by assumption) ?_ | fail_if_no_progress with_reducible refine State.Quiet.other ?_ rfl rfl rfl rfl rfl rfl rfl | dsimp only)
       clear_value y2)
    | clear_value y2
    | skip
  first
    | (have k3 : s0.Quiet y3 := by (dsimp only [y3]; repeat' first | with_reducible assumption | with_reducible apply State.QuietOut.next | with_reducible exact State.QuietOut.fault | with_reducible apply State.at_quiet | with_reducible apply State.memSecond_quiet | with_reducible apply State.arrive_quiet | with_reducible apply State.ageRequests_quiet | with_reducible apply State.serve_quiet | with_reducible apply State.withMem_quiet | with_reducible apply State.forceRefresh_quiet | with_reducible apply State.easyRefresh_quiet | with_reducible apply State.Quiet.foldl | with_reducible apply State.Quiet.eachPort | with_reducible exact State.Quiet.refl _ | with_reducible intro _ _ | split | with_reducible refine State.Quiet.of_fst (by assumption) ?_ | fail_if_no_progress with_reducible refine State.Quiet.other ?_ rfl rfl rfl rfl rfl rfl rfl | dsimp only)
       clear_value y3)
    | clear_value y3
    | skip
  first
    | (have k4 : s0.Quiet y4 := by (dsimp only [y4]; repeat' first | with_reducible assumption | with_reducible apply State.QuietOut.next | with_reducible exact State.QuietOut.fault | with_reducible apply State.at_quiet | with_reducible apply State.memSecond_quiet | with_reducible apply State.arrive_quiet | with_reducible apply State.ageRequests_quiet | with_reducible apply State.serve_quiet | with_reducible apply State.withMem_quiet | with_reducible apply State.forceRefresh_quiet | with_reducible apply State.easyRefresh_quiet | with_reducible apply State.Quiet.foldl | with_reducible apply State.Quiet.eachPort | with_reducible exact State.Quiet.refl _ | with_reducible intro _ _ | split | with_reducible refine State.Quiet.of_fst (by assumption) ?_ | fail_if_no_progress with_reducible refine State.Quiet.other ?_ rfl rfl rfl rfl rfl rfl rfl | dsimp only)
       clear_value y4)
    | clear_value y4
    | skip
  first
    | (have k5 : s0.Quiet y5 := by (dsimp only [y5]; repeat' first | with_reducible assumption | with_reducible apply State.QuietOut.next | with_reducible exact State.QuietOut.fault | with_reducible apply State.at_quiet | with_reducible apply State.memSecond_quiet | with_reducible apply State.arrive_quiet | with_reducible apply State.ageRequests_quiet | with_reducible apply State.serve_quiet | with_reducible apply State.withMem_quiet | with_reducible apply State.forceRefresh_quiet | with_reducible apply State.easyRefresh_quiet | with_reducible apply State.Quiet.foldl | with_reducible apply State.Quiet.eachPort | with_reducible exact State.Quiet.refl _ | with_reducible intro _ _ | split | with_reducible refine State.Quiet.of_fst (by assumption) ?_ | fail_if_no_progress with_reducible refine State.Quiet.other ?_ rfl rfl rfl rfl rfl rfl rfl | dsimp only)
       clear_value y5)
    | clear_value y5
    | skip
  first
    | (have k6 : s0.Quiet y6 := by (dsimp only [y6]; repeat' first | with_reducible assumption | with_reducible apply State.QuietOut.next | with_reducible exact State.QuietOut.fault | with_reducible apply State.at_quiet | with_reducible apply State.memSecond_quiet | with_reducible apply State.arrive_quiet | with_reducible apply State.ageRequests_quiet | with_reducible apply State.serve_quiet | with_reducible apply State.withMem_quiet | with_reducible apply State.forceRefresh_quiet | with_reducible apply State.easyRefresh_quiet | with_reducible apply State.Quiet.foldl | with_reducible apply State.Quiet.eachPort | with_reducible exact State.Quiet.refl _ | with_reducible intro _ _ | split | with_reducible refine State.Quiet.of_fst (by assumption) ?_ | fail_if_no_progress with_reducible refine State.Quiet.other ?_ rfl rfl rfl rfl rfl rfl rfl | dsimp only)
       clear_value y6)
    | clear_value y6
    | skip
  first
    | (have k7 : s0.Quiet y7 := by (dsimp only [y7]; repeat' first | with_reducible assumption | with_reducible apply State.QuietOut.next | with_reducible exact State.QuietOut.fault | with_reducible apply State.at_quiet | with_reducible apply State.memSecond_quiet | with_reducible apply State.arrive_quiet | with_reducible apply State.ageRequests_quiet | with_reducible apply State.serve_quiet | with_reducible apply State.withMem_quiet | with_reducible apply State.forceRefresh_quiet | with_reducible apply State.easyRefresh_quiet | with_reducible apply State.Quiet.foldl | with_reducible apply State.Quiet.eachPort | with_reducible exact State.Quiet.refl _ | with_reducible intro _ _ | split | with_reducible refine State.Quiet.of_fst (by assumption) ?_ | fail_if_no_progress with_reducible refine State.Quiet.other ?_ rfl rfl rfl rfl rfl rfl rfl | dsimp only)
       clear_value y7)
    | clear_value y7
    | skip
  first
    | (have k8 : s0.Quiet y8 := by (dsimp only [y8]; repeat' first | with_reducible assumption | with_reducible apply State.QuietOut.next | with_reducible exact State.QuietOut.fault | with_reducible apply State.at_quiet | with_reducible apply State.memSecond_quiet | with_reducible apply State.arrive_quiet | with_reducible apply State.ageRequests_quiet | with_reducible apply State.serve_quiet | with_reducible apply State.withMem_quiet | with_reducible apply State.forceRefresh_quiet | with_reducible apply State.easyRefresh_quiet | with_reducible apply State.Quiet.foldl | with_reducible apply State.Quiet.eachPort | with_reducible exact State.Quiet.refl _ | with_reducible intro _ _ | split | with_reducible refine State.Quiet.of_fst (by assumption) ?_ | fail_if_no_progress with_reducible refine State.Quiet.other ?_ rfl rfl rfl rfl rfl rfl rfl | dsimp only)
       clear_value y8)
    | clear_value y8
    | skip
  first
    | (have k9 : s0.Quiet y9 := by (dsimp only [y9]; repeat' first | with_reducible assumption | with_reducible apply State.QuietOut.next | with_reducible exact State.QuietOut.fault | with_reducible apply State.at_quiet | with_reducible apply State.memSecond_quiet | with_reducible apply State.arrive_quiet | with_reducible apply State.ageRequests_quiet | with_reducible apply State.serve_quiet | with_reducible apply State.withMem_quiet | with_reducible apply State.forceRefresh_quiet | with_reducible apply State.easyRefresh_quiet | with_reducible apply State.Quiet.foldl | with_reducible apply State.Quiet.eachPort | with_reducible exact State.Quiet.refl _ | with_reducible intro _ _ | split | with_reducible refine State.Quiet.of_fst (by assumption) ?_ | fail_if_no_progress with_reducible refine State.Quiet.other ?_ rfl rfl rfl rfl rfl rfl rfl | dsimp only)
       clear_value y9)
    | clear_value y9
    | skip
  repeat' first | with_reducible assumption | with_reducible apply State.QuietOut.next | with_reducible exact State.QuietOut.fault | with_reducible apply State.at_quiet | with_reducible apply State.memSecond_quiet | with_reducible apply State.arrive_quiet | with_reducible apply State.ageRequests_quiet | with_reducible apply State.serve_quiet | with_reducible apply State.withMem_quiet | with_reducible apply State.forceRefresh_quiet | with_reducible apply State.easyRefresh_quiet | with_reducible apply State.Quiet.foldl | with_reducible apply State.Quiet.eachPort | with_reducible exact State.Quiet.refl _ | with_reducible intro _ _ | split | with_reducible refine State.Quiet.of_fst (by assumption) ?_ | fail_if_no_progress with_reducible refine State.Quiet.other ?_ rfl rfl rfl rfl rfl rfl rfl | dsimp only

theorem execRefreshInterval_quiet {s0 : State} {clock : Nat} {rank : Nat} {s : State} (hq : s0.Quiet s) :
    s0.QuietOut (execRefreshInterval clock rank s) := by
  unfold execRefreshInterval
  try extract_lets y1 y2
  try
    have k1 : s0.Quiet y1 := by
      dsimp only [y1]
      repeat' first | with_reducible assumption | with_reducible apply State.QuietOut.next | with_reducible exact State.QuietOut.fault | with_reducible apply State.at_quiet | with_reducible apply State.setRank_quiet | with_reducible apply State.roSetInt_quiet | with_reducible apply State.Quiet.foldl | with_reducible apply State.Quiet.eachPort | with_reducible exact State.Quiet.refl _ | with_reducible intro _ _ | split | with_reducible refine State.Quiet.of_fst (by assumption) ?_ | fail_if_no_progress with_reducible refine State.Quiet.other ?_ rfl rfl rfl rfl rfl rfl rfl | dsimp only
    clear_value y1
  repeat' first | with_reducible assumption | with_reducible apply State.QuietOut.next | with_reducible exact State.QuietOut.fault | with_reducible apply State.at_quiet | with_reducible apply State.setRank_quiet | with_reducible apply State.roSetInt_quiet | with_reducible apply State.Quiet.foldl | with_reducible apply State.Quiet.eachPort | with_reducible exact State.Quiet.refl _ | with_reducible intro _ _ | split | with_reducible refine State.Quiet.of_fst (by assumption) ?_ | fail_if_no_progress with_reducible refine State.Quiet.other ?_ rfl rfl rfl rfl rfl rfl rfl | dsimp only

theorem execRefreshRatePoll_quiet {s0 : State} {t : Tick} {rank : Nat} {doubled : Bool} {s : State} (hq : s0.Quiet s) :
    s0.QuietOut (execRefreshRatePoll t rank doubled s) := by
  unfold execRefreshRatePoll
  try extract_lets y1 y2
  try
    have k1 : s0.Quiet y1 := by
      dsimp only [y1]
      repeat' first | with_reducible assumption | with_reducible apply State.QuietOut.next | with_reducible exact State.QuietOut.fault | with_reducible apply State.at_quiet | with_reducible apply State.roSet_quiet | with_reducible apply State.Quiet.foldl | with_reducible apply State.Quiet.eachPort | with_reducible exact State.Quiet.refl _ | with_reducible intro _ _ | split | with_reducible refine State.Quiet.of_fst (by assumption) ?_ | fail_if_no_progress with_reducible refine State.Quiet.other ?_ rfl rfl rfl rfl rfl rfl rfl | dsimp only
    clear_value y1
  repeat' first | with_reducible assumption | with_reducible apply State.QuietOut.next | with_reducible exact State.QuietOut.fault | with_reducible apply State.at_quiet | with_reducible apply State.roSet_quiet | with_reducible apply State.Quiet.foldl | with_reducible apply State.Quiet.eachPort | with_reducible exact State.Quiet.refl _ | with_reducible intro _ _ | split | with_reducible refine State.Quiet.of_fst (by assumption) ?_ | fail_if_no_progress with_reducible refine State.Quiet.other ?_ rfl rfl rfl rfl rfl rfl rfl | dsimp only

theorem execRowIdleClose_quiet {s0 : State} {clock : Nat} {rank : Nat} {bank : Nat} {s : State} (hq : s0.Quiet s) :
    s0.QuietOut (execRowIdleClose clock rank bank s) := by
  unfold execRowIdleClose
  try extract_lets y1 y2 y3 y4 y5
  try
    have k1 : s0.Quiet y1 := by
      dsimp only [y1]
      repeat' first | with_reducible assumption | with_reducible apply State.QuietOut.next | with_reducible exact State.QuietOut.fault | with_reducible apply State.at_quiet | with_reducible apply State.setRank_quiet | with_reducible apply State.Quiet.foldl | with_reducible apply State.Quiet.eachPort | with_reducible exact State.Quiet.refl _ | with_reducible intro _ _ | split | with_reducible refine State.Quiet.of_fst (by assumption) ?_ | fail_if_no_progress with_reducible refine State.Quiet.other ?_ rfl rfl rfl rfl rfl rfl rfl | dsimp only
    clear_value y1
  repeat' first | with_reducible assumption | with_reducible apply State.QuietOut.next | with_reducible exact State.QuietOut.fault | with_reducible apply State.at_quiet | with_reducible apply State.setRank_quiet | with_reducible apply State.Quiet.foldl | with_reducible apply State.Quiet.eachPort | with_reducible exact State.Quiet.refl _ | with_reducible intro _ _ | split | with_reducible refine State.Quiet.of_fst (by assumption) ?_ | fail_if_no_progress with_reducible refine State.Quiet.other ?_ rfl rfl rfl rfl rfl rfl rfl | dsimp only

theorem execQosMeterWindow_quiet {s0 : State} {t : Tick} {s : State} (hq : s0.Quiet s) :
    s0.QuietOut (execQosMeterWindow t s) := by
  unfold execQosMeterWindow
  try extract_lets y1 y2
  try
    have k1 : s0.Quiet y1 := by
      dsimp only [y1]
      repeat' first | with_reducible assumption | with_reducible apply State.QuietOut.next | with_reducible exact State.QuietOut.fault | with_reducible apply State.at_quiet | with_reducible apply State.withMem_quiet | with_reducible apply State.Quiet.foldl | with_reducible apply State.Quiet.eachPort | with_reducible exact State.Quiet.refl _ | with_reducible intro _ _ | split | with_reducible refine State.Quiet.of_fst (by assumption) ?_ | fail_if_no_progress with_reducible refine State.Quiet.other ?_ rfl rfl rfl rfl rfl rfl rfl | dsimp only
    clear_value y1
  repeat' first | with_reducible assumption | with_reducible apply State.QuietOut.next | with_reducible exact State.QuietOut.fault | with_reducible apply State.at_quiet | with_reducible apply State.withMem_quiet | with_reducible apply State.Quiet.foldl | with_reducible apply State.Quiet.eachPort | with_reducible exact State.Quiet.refl _ | with_reducible intro _ _ | split | with_reducible refine State.Quiet.of_fst (by assumption) ?_ | fail_if_no_progress with_reducible refine State.Quiet.other ?_ rfl rfl rfl rfl rfl rfl rfl | dsimp only

theorem execRequestUrgencyAge_quiet {s0 : State} {clock : Nat} {port : Nat} {s : State} (hq : s0.Quiet s) :
    s0.QuietOut (execRequestUrgencyAge clock port s) := by
  unfold execRequestUrgencyAge
  try extract_lets y1 y2
  try
    have k1 : s0.Quiet y1 := by
      dsimp only [y1]
      repeat' first | with_reducible assumption | with_reducible apply State.QuietOut.next | with_reducible exact State.QuietOut.fault | with_reducible apply State.at_quiet | with_reducible apply State.ageRequests_quiet | with_reducible apply State.Quiet.foldl | with_reducible apply State.Quiet.eachPort | with_reducible exact State.Quiet.refl _ | with_reducible intro _ _ | split | with_reducible refine State.Quiet.of_fst (by assumption) ?_ | fail_if_no_progress with_reducible refine State.Quiet.other ?_ rfl rfl rfl rfl rfl rfl rfl | dsimp only
    clear_value y1
  repeat' first | with_reducible assumption | with_reducible apply State.QuietOut.next | with_reducible exact State.QuietOut.fault | with_reducible apply State.at_quiet | with_reducible apply State.ageRequests_quiet | with_reducible apply State.Quiet.foldl | with_reducible apply State.Quiet.eachPort | with_reducible exact State.Quiet.refl _ | with_reducible intro _ _ | split | with_reducible refine State.Quiet.of_fst (by assumption) ?_ | fail_if_no_progress with_reducible refine State.Quiet.other ?_ rfl rfl rfl rfl rfl rfl rfl | dsimp only

theorem State.bgDone_quiet {s0 : State} {s : State} {k : Nat} (hq : s0.Quiet s) :
    s0.Quiet (State.bgDone s k) := by
  unfold State.bgDone
  repeat' first | with_reducible assumption | with_reducible apply State.roSet_quiet | split | with_reducible refine State.Quiet.of_fst (by assumption) ?_

theorem execPatrolScrubRead_quiet {s0 : State} {t : Tick} {ecc : EccObs} {s : State} (hq : s0.Quiet s) :
    s0.QuietOut (execPatrolScrubRead t ecc s) := by
  unfold execPatrolScrubRead
  try extract_lets y1 y2
  try
    have k1 : s0.Quiet y1 := by
      dsimp only [y1]
      repeat' first | with_reducible assumption | with_reducible apply State.QuietOut.next | with_reducible exact State.QuietOut.fault | with_reducible apply State.at_quiet | with_reducible apply State.withMem_quiet | with_reducible apply State.bump_quiet | with_reducible apply State.readBurst_quiet | with_reducible apply State.roSet_quiet | with_reducible apply State.bgDone_quiet | with_reducible apply State.Quiet.foldl | with_reducible apply State.Quiet.eachPort | with_reducible exact State.Quiet.refl _ | with_reducible intro _ _ | split | with_reducible refine State.Quiet.of_fst (by assumption) ?_ | fail_if_no_progress with_reducible refine State.Quiet.other ?_ rfl rfl rfl rfl rfl rfl rfl | dsimp only
    clear_value y1
  repeat' first | with_reducible assumption | with_reducible apply State.QuietOut.next | with_reducible exact State.QuietOut.fault | with_reducible apply State.at_quiet | with_reducible apply State.withMem_quiet | with_reducible apply State.bump_quiet | with_reducible apply State.readBurst_quiet | with_reducible apply State.roSet_quiet | with_reducible apply State.bgDone_quiet | with_reducible apply State.Quiet.foldl | with_reducible apply State.Quiet.eachPort | with_reducible exact State.Quiet.refl _ | with_reducible intro _ _ | split | with_reducible refine State.Quiet.of_fst (by assumption) ?_ | fail_if_no_progress with_reducible refine State.Quiet.other ?_ rfl rfl rfl rfl rfl rfl rfl | dsimp only

theorem execEccWriteBack_quiet {s0 : State} {t : Tick} {address : Nat} {s : State} (hq : s0.Quiet s) :
    s0.QuietOut (execEccWriteBack t address s) := by
  unfold execEccWriteBack
  try extract_lets y1 y2
  try
    have k1 : s0.Quiet y1 := by
      dsimp only [y1]
      repeat' first | with_reducible assumption | with_reducible apply State.QuietOut.next | with_reducible exact State.QuietOut.fault | with_reducible apply State.at_quiet | with_reducible apply State.withMem_quiet | with_reducible apply State.bump_quiet | with_reducible apply State.Quiet.foldl | with_reducible apply State.Quiet.eachPort | with_reducible exact State.Quiet.refl _ | with_reducible intro _ _ | split | with_reducible refine State.Quiet.of_fst (by assumption) ?_ | fail_if_no_progress with_reducible refine State.Quiet.other ?_ rfl rfl rfl rfl rfl rfl rfl | dsimp only
    clear_value y1
  repeat' first | with_reducible assumption | with_reducible apply State.QuietOut.next | with_reducible exact State.QuietOut.fault | with_reducible apply State.at_quiet | with_reducible apply State.withMem_quiet | with_reducible apply State.bump_quiet | with_reducible apply State.Quiet.foldl | with_reducible apply State.Quiet.eachPort | with_reducible exact State.Quiet.refl _ | with_reducible intro _ _ | split | with_reducible refine State.Quiet.of_fst (by assumption) ?_ | fail_if_no_progress with_reducible refine State.Quiet.other ?_ rfl rfl rfl rfl rfl rfl rfl | dsimp only

theorem State.trainRank_quiet {s0 : State} {s : State} {r : Nat} {full ok : Bool} (hq : s0.Quiet s) :
    s0.Quiet (State.trainRank s r full ok) := by
  unfold State.trainRank
  try extract_lets y1 y2 y3 y4
  try
    have k2 : s0.Quiet y2 := by
      dsimp only [y2]
      repeat' first | with_reducible assumption | with_reducible apply State.setRank_quiet | with_reducible apply State.roSet_quiet | split | with_reducible refine State.Quiet.of_fst (by assumption) ?_ | fail_if_no_progress with_reducible refine State.Quiet.other ?_ rfl rfl rfl rfl rfl rfl rfl
    clear_value y2
  try
    have k4 : s0.Quiet y4 := by
      dsimp only [y4]
      repeat' first | with_reducible assumption | with_reducible apply State.withMem_quiet | with_reducible apply State.raise_quiet | split | with_reducible refine State.Quiet.of_fst (by assumption) ?_
    clear_value y4
  repeat' first | with_reducible assumption | with_reducible apply State.drawn_quiet | with_reducible apply State.deviceFaulty_quiet | split | with_reducible refine State.Quiet.of_fst (by assumption) ?_

theorem execMigrationSpareVerified_quiet {s0 : State} {t : Tick} {ok : Bool} {full : Bool} {s : State} (hq : s0.Quiet s) :
    s0.QuietOut (execMigrationSpareVerified t ok full s) := by
  unfold execMigrationSpareVerified
  try extract_lets y1 y2
  try
    have k1 : s0.Quiet y1 := by
      dsimp only [y1]
      repeat' first | with_reducible assumption | with_reducible apply State.QuietOut.next | with_reducible exact State.QuietOut.fault | with_reducible apply State.at_quiet | with_reducible apply State.verified_quiet | with_reducible apply State.trainRank_quiet | with_reducible apply State.withMem_quiet | with_reducible apply State.Quiet.foldl | with_reducible apply State.Quiet.eachPort | with_reducible exact State.Quiet.refl _ | with_reducible intro _ _ | split | with_reducible refine State.Quiet.of_fst (by assumption) ?_ | fail_if_no_progress with_reducible refine State.Quiet.other ?_ rfl rfl rfl rfl rfl rfl rfl | dsimp only
    clear_value y1
  repeat' first | with_reducible assumption | with_reducible apply State.QuietOut.next | with_reducible exact State.QuietOut.fault | with_reducible apply State.at_quiet | with_reducible apply State.verified_quiet | with_reducible apply State.trainRank_quiet | with_reducible apply State.withMem_quiet | with_reducible apply State.Quiet.foldl | with_reducible apply State.Quiet.eachPort | with_reducible exact State.Quiet.refl _ | with_reducible intro _ _ | split | with_reducible refine State.Quiet.of_fst (by assumption) ?_ | fail_if_no_progress with_reducible refine State.Quiet.other ?_ rfl rfl rfl rfl rfl rfl rfl | dsimp only

theorem execMigrationComplete_quiet {s0 : State} {t : Tick} {s : State} (hq : s0.Quiet s) :
    s0.QuietOut (execMigrationComplete t s) := by
  unfold execMigrationComplete
  try extract_lets y1 y2
  try
    have k1 : s0.Quiet y1 := by
      dsimp only [y1]
      repeat' first | with_reducible assumption | with_reducible apply State.QuietOut.next | with_reducible exact State.QuietOut.fault | with_reducible apply State.at_quiet | with_reducible apply State.verified_quiet | with_reducible apply State.withMem_quiet | with_reducible apply State.setRank_quiet | with_reducible apply State.publishRanks_quiet | with_reducible apply State.raise_quiet | with_reducible apply State.Quiet.foldl | with_reducible apply State.Quiet.eachPort | with_reducible exact State.Quiet.refl _ | with_reducible intro _ _ | split | with_reducible refine State.Quiet.of_fst (by assumption) ?_ | fail_if_no_progress with_reducible refine State.Quiet.other ?_ rfl rfl rfl rfl rfl rfl rfl | dsimp only
    clear_value y1
  repeat' first | with_reducible assumption | with_reducible apply State.QuietOut.next | with_reducible exact State.QuietOut.fault | with_reducible apply State.at_quiet | with_reducible apply State.verified_quiet | with_reducible apply State.withMem_quiet | with_reducible apply State.setRank_quiet | with_reducible apply State.publishRanks_quiet | with_reducible apply State.raise_quiet | with_reducible apply State.Quiet.foldl | with_reducible apply State.Quiet.eachPort | with_reducible exact State.Quiet.refl _ | with_reducible intro _ _ | split | with_reducible refine State.Quiet.of_fst (by assumption) ?_ | fail_if_no_progress with_reducible refine State.Quiet.other ?_ rfl rfl rfl rfl rfl rfl rfl | dsimp only

theorem State.pauseMigration_quiet {s0 : State} {s : State} (hq : s0.Quiet s) :
    s0.Quiet (State.pauseMigration s) := by
  unfold State.pauseMigration
  try extract_lets y1
  repeat' first | with_reducible assumption | with_reducible apply State.withMem_quiet | split | with_reducible refine State.Quiet.of_fst (by assumption) ?_ | dsimp only

theorem State.resumeMigration_quiet {s0 : State} {s : State} (hq : s0.Quiet s) :
    s0.Quiet (State.resumeMigration s) := by
  unfold State.resumeMigration
  try extract_lets y1
  repeat' first | with_reducible assumption | with_reducible apply State.verified_quiet | with_reducible apply State.withMem_quiet | split | with_reducible refine State.Quiet.of_fst (by assumption) ?_ | dsimp only

theorem execWckDqTracking_quiet {s0 : State} {t : Tick} {rank : Nat} {moves : List Int} {s : State} (hq : s0.Quiet s) :
    s0.QuietOut (execWckDqTracking t rank moves s) := by
  unfold execWckDqTracking
  try extract_lets y1 y2 y3
  try
    have k1 : s0.Quiet y1 := by
      dsimp only [y1]
      repeat' first | with_reducible assumption | with_reducible apply State.QuietOut.next | with_reducible exact State.QuietOut.fault | with_reducible apply State.at_quiet | with_reducible apply State.setRank_quiet | with_reducible apply State.Quiet.foldl | with_reducible apply State.Quiet.eachPort | with_reducible exact State.Quiet.refl _ | with_reducible intro _ _ | split | with_reducible refine State.Quiet.of_fst (by assumption) ?_ | fail_if_no_progress with_reducible refine State.Quiet.other ?_ rfl rfl rfl rfl rfl rfl rfl | dsimp only
    clear_value y1
  repeat' first | with_reducible assumption | with_reducible apply State.QuietOut.next | with_reducible exact State.QuietOut.fault | with_reducible apply State.at_quiet | with_reducible apply State.setRank_quiet | with_reducible apply State.Quiet.foldl | with_reducible apply State.Quiet.eachPort | with_reducible exact State.Quiet.refl _ | with_reducible intro _ _ | split | with_reducible refine State.Quiet.of_fst (by assumption) ?_ | fail_if_no_progress with_reducible refine State.Quiet.other ?_ rfl rfl rfl rfl rfl rfl rfl | dsimp only

theorem execTrackingStep_quiet {s0 : State} {t : Tick} {rank : Nat} {s : State} (hq : s0.Quiet s) :
    s0.QuietOut (execTrackingStep t rank s) := by
  unfold execTrackingStep
  try extract_lets y1 y2 y3
  try
    have k1 : s0.Quiet y1 := by
      dsimp only [y1]
      repeat' first | with_reducible assumption | with_reducible apply State.QuietOut.next | with_reducible exact State.QuietOut.fault | with_reducible apply State.at_quiet | with_reducible apply State.setRank_quiet | with_reducible apply State.Quiet.foldl | with_reducible apply State.Quiet.eachPort | with_reducible exact State.Quiet.refl _ | with_reducible intro _ _ | split | with_reducible refine State.Quiet.of_fst (by assumption) ?_ | fail_if_no_progress with_reducible refine State.Quiet.other ?_ rfl rfl rfl rfl rfl rfl rfl | dsimp only
    clear_value y1
  repeat' first | with_reducible assumption | with_reducible apply State.QuietOut.next | with_reducible exact State.QuietOut.fault | with_reducible apply State.at_quiet | with_reducible apply State.setRank_quiet | with_reducible apply State.Quiet.foldl | with_reducible apply State.Quiet.eachPort | with_reducible exact State.Quiet.refl _ | with_reducible intro _ _ | split | with_reducible refine State.Quiet.of_fst (by assumption) ?_ | fail_if_no_progress with_reducible refine State.Quiet.other ?_ rfl rfl rfl rfl rfl rfl rfl | dsimp only

theorem execSpareRankTest_quiet {s0 : State} {t : Tick} {s : State} (hq : s0.Quiet s) :
    s0.QuietOut (execSpareRankTest t s) := by
  unfold execSpareRankTest
  try extract_lets y1 y2
  try
    have k1 : s0.Quiet y1 := by
      dsimp only [y1]
      repeat' first | with_reducible assumption | with_reducible apply State.QuietOut.next | with_reducible exact State.QuietOut.fault | with_reducible apply State.at_quiet | with_reducible apply State.withMem_quiet | with_reducible apply State.setRank_quiet | with_reducible apply State.Quiet.foldl | with_reducible apply State.Quiet.eachPort | with_reducible exact State.Quiet.refl _ | with_reducible intro _ _ | split | with_reducible refine State.Quiet.of_fst (by assumption) ?_ | fail_if_no_progress with_reducible refine State.Quiet.other ?_ rfl rfl rfl rfl rfl rfl rfl | dsimp only
    clear_value y1
  repeat' first | with_reducible assumption | with_reducible apply State.QuietOut.next | with_reducible exact State.QuietOut.fault | with_reducible apply State.at_quiet | with_reducible apply State.withMem_quiet | with_reducible apply State.setRank_quiet | with_reducible apply State.Quiet.foldl | with_reducible apply State.Quiet.eachPort | with_reducible exact State.Quiet.refl _ | with_reducible intro _ _ | split | with_reducible refine State.Quiet.of_fst (by assumption) ?_ | fail_if_no_progress with_reducible refine State.Quiet.other ?_ rfl rfl rfl rfl rfl rfl rfl | dsimp only

theorem execSpareRankTestEnd_quiet {s0 : State} {t : Tick} {failing : Option Nat} {s : State} (hq : s0.Quiet s) :
    s0.QuietOut (execSpareRankTestEnd t failing s) := by
  unfold execSpareRankTestEnd
  try extract_lets y1 y2
  try
    have k1 : s0.Quiet y1 := by
      dsimp only [y1]
      repeat' first | with_reducible assumption | with_reducible apply State.QuietOut.next | with_reducible exact State.QuietOut.fault | with_reducible apply State.at_quiet | with_reducible apply State.withMem_quiet | with_reducible apply State.setRank_quiet | with_reducible apply State.bgDone_quiet | with_reducible apply State.deviceFaulty_quiet | with_reducible apply State.Quiet.foldl | with_reducible apply State.Quiet.eachPort | with_reducible exact State.Quiet.refl _ | with_reducible intro _ _ | split | with_reducible refine State.Quiet.of_fst (by assumption) ?_ | fail_if_no_progress with_reducible refine State.Quiet.other ?_ rfl rfl rfl rfl rfl rfl rfl | dsimp only
    clear_value y1
  repeat' first | with_reducible assumption | with_reducible apply State.QuietOut.next | with_reducible exact State.QuietOut.fault | with_reducible apply State.at_quiet | with_reducible apply State.withMem_quiet | with_reducible apply State.setRank_quiet | with_reducible apply State.bgDone_quiet | with_reducible apply State.deviceFaulty_quiet | with_reducible apply State.Quiet.foldl | with_reducible apply State.Quiet.eachPort | with_reducible exact State.Quiet.refl _ | with_reducible intro _ _ | split | with_reducible refine State.Quiet.of_fst (by assumption) ?_ | fail_if_no_progress with_reducible refine State.Quiet.other ?_ rfl rfl rfl rfl rfl rfl rfl | dsimp only

theorem State.memGeode_quiet {s0 : State} {s : State} (hq : s0.Quiet s) :
    s0.Quiet (State.memGeode s) := by
  unfold State.memGeode
  try extract_lets y1 y2 y3
  try
    have k1 : s0.Quiet y1 := by
      dsimp only [y1]
      repeat' first | with_reducible assumption | with_reducible apply State.writeBurst_quiet | with_reducible apply State.bump_quiet | with_reducible apply State.setQos_quiet | with_reducible apply State.Quiet.foldl | with_reducible exact State.Quiet.refl _ | with_reducible intro _ _ | split | with_reducible refine State.Quiet.of_fst (by assumption) ?_
    clear_value y1
  try
    have k2 : s0.Quiet y2 := by
      dsimp only [y2]
      repeat' first | with_reducible assumption | with_reducible apply State.pauseMigration_quiet | split | with_reducible refine State.Quiet.of_fst (by assumption) ?_
    clear_value y2
  repeat' first | with_reducible assumption | with_reducible apply State.withMem_quiet | split | with_reducible refine State.Quiet.of_fst (by assumption) ?_ | fail_if_no_progress with_reducible refine State.Quiet.other ?_ rfl rfl rfl rfl rfl rfl rfl | dsimp only

theorem State.memWake_quiet {s0 : State} {s : State} (hq : s0.Quiet s) :
    s0.Quiet (State.memWake s) := by
  unfold State.memWake
  try extract_lets y1 y2
  try
    have k2 : s0.Quiet y2 := by
      dsimp only [y2]
      repeat' first | with_reducible assumption | with_reducible apply State.drawn_quiet | with_reducible apply State.setRank_quiet | with_reducible apply State.trainRank_quiet | with_reducible apply State.Quiet.foldl | with_reducible exact State.Quiet.refl _ | with_reducible intro _ _ | split | with_reducible refine State.Quiet.of_fst (by assumption) ?_ | fail_if_no_progress with_reducible refine State.Quiet.other ?_ rfl rfl rfl rfl rfl rfl rfl
    clear_value y2
  repeat' first | with_reducible assumption | with_reducible apply State.resumeMigration_quiet | split | with_reducible refine State.Quiet.of_fst (by assumption) ?_

theorem State.memSave_quiet {s0 : State} {s : State} (hq : s0.Quiet s) :
    s0.Quiet (State.memSave s) := by
  unfold State.memSave
  try extract_lets y1 y2
  repeat' first | with_reducible assumption | with_reducible apply State.withMem_quiet | with_reducible apply State.publishRanks_quiet | split | with_reducible refine State.Quiet.of_fst (by assumption) ?_ | fail_if_no_progress with_reducible refine State.Quiet.other ?_ rfl rfl rfl rfl rfl rfl rfl | dsimp only

theorem State.memBoot_quiet {s0 : State} {s : State} {full ok : List Bool} (hq : s0.Quiet s) :
    s0.Quiet (State.memBoot s full ok) := by
  unfold State.memBoot
  try extract_lets y1 y2 y3 y4 y5 y6 y7 y8
  try
    have k7 : s0.Quiet y7 := by
      dsimp only [y7]
      repeat' first | with_reducible assumption | with_reducible apply State.withMem_quiet | split | with_reducible refine State.Quiet.of_fst (by assumption) ?_ | fail_if_no_progress with_reducible refine State.Quiet.other ?_ rfl rfl rfl rfl rfl rfl rfl
    clear_value y7
  try
    have k8 : s0.Quiet y8 := by
      dsimp only [y8]
      repeat' first | with_reducible assumption | with_reducible apply State.roSet_quiet | with_reducible apply State.Quiet.foldl | with_reducible exact State.Quiet.refl _ | with_reducible intro _ _ | split | with_reducible refine State.Quiet.of_fst (by assumption) ?_
    clear_value y8
  repeat' first | with_reducible assumption | with_reducible apply State.trainRank_quiet | with_reducible apply State.publishRanks_quiet | with_reducible apply State.Quiet.foldl | with_reducible exact State.Quiet.refl _ | with_reducible intro _ _ | split | with_reducible refine State.Quiet.of_fst (by assumption) ?_ | dsimp only

end Sys2Proof.Machine
end

