-- ==== Sys2Proof/Laws/KeepsTrigger.lean ====
section
/-! SUPPORT. What the operations of Machine/Trigger.lean keep. -/

set_option linter.unusedTactic false
set_option linter.unreachableTactic false
set_option linter.unusedVariables false

namespace Sys2Proof.Machine

theorem State.setCond_quiet {s0 : State} {s : State} {n : Nat} {x : CondSt} (hq : s0.Quiet s) :
    s0.Quiet (State.setCond s n x) := by
  unfold State.setCond
  try extract_lets y1
  repeat' first | with_reducible assumption | split | with_reducible refine State.Quiet.of_fst (by assumption) ?_ | fail_if_no_progress with_reducible refine State.Quiet.other ?_ rfl rfl rfl rfl rfl rfl rfl

theorem State.armCond_quiet {s0 : State} {s : State} {n : Nat} (hq : s0.Quiet s) :
    s0.Quiet (State.armCond s n) := by
  unfold State.armCond
  try extract_lets y1
  repeat' first | with_reducible assumption | with_reducible apply State.setCond_quiet | with_reducible apply State.roSet_quiet | split | with_reducible refine State.Quiet.of_fst (by assumption) ?_

theorem State.armAll_quiet {s0 : State} {s : State} (hq : s0.Quiet s) :
    s0.Quiet (State.armAll s) := by
  unfold State.armAll
  repeat' first | with_reducible assumption | with_reducible apply State.armCond_quiet | with_reducible apply State.Quiet.foldl | with_reducible exact State.Quiet.refl _ | with_reducible intro _ _ | split | with_reducible refine State.Quiet.of_fst (by assumption) ?_

theorem State.triggerAtF_quiet {s0 : State} {s : State} {old : PSet} (hq : s0.Quiet s) :
    s0.Quiet (State.triggerAtF s old) := by
  unfold State.triggerAtF
  repeat' first | with_reducible assumption | with_reducible apply State.armCond_quiet | with_reducible apply State.Quiet.foldl | with_reducible exact State.Quiet.refl _ | with_reducible intro _ _ | split | with_reducible refine State.Quiet.of_fst (by assumption) ?_ | dsimp only

theorem State.pulseOut_quiet {s0 : State} {s : State} {mask : Nat} (hq : s0.Quiet s) :
    s0.Quiet (State.pulseOut s mask) := by
  unfold State.pulseOut
  repeat' first | with_reducible assumption | with_reducible apply State.emit_quiet | with_reducible apply State.Quiet.foldl | with_reducible exact State.Quiet.refl _ | with_reducible intro _ _ | split | with_reducible refine State.Quiet.of_fst (by assumption) ?_ | fail_if_no_progress with_reducible refine State.Quiet.other ?_ rfl rfl rfl rfl rfl rfl rfl | dsimp only

theorem State.joinGroup_quiet {s0 : State} {s : State} {port : Option Port} {trace : Stamp} {f : Firing} (hq : s0.Quiet s) :
    s0.Quiet (State.joinGroup s port trace f) := by
  unfold State.joinGroup
  try extract_lets y1 y2
  repeat' first | with_reducible assumption | split | with_reducible refine State.Quiet.of_fst (by assumption) ?_ | fail_if_no_progress with_reducible refine State.Quiet.other ?_ rfl rfl rfl rfl rfl rfl rfl | dsimp only

theorem State.firingCapture_quiet {s0 : State} {s : State} {set : PSet} {n : Nat} {trig : Stamp} {port : Option Port} {trace : Stamp} (hq : s0.Quiet s) :
    s0.Quiet (State.firingCapture s set n trig port trace).1 := by
  unfold State.firingCapture
  repeat' first | with_reducible assumption | with_reducible apply State.mergeCapture_quiet | with_reducible apply State.openCapture_quiet | split | with_reducible refine State.Quiet.of_fst (by assumption) ?_ | dsimp only

theorem State.fire_quiet {s0 : State} {s : State} {set : PSet} {n : Nat} {trig : Stamp} (hq : s0.Quiet s) :
    s0.Quiet (State.fire s set n trig) := by
  unfold State.fire
  try extract_lets y1 y2 y3 y4 y5 y6 y7
  try
    have k7 : s0.Quiet y7.1 := by
      dsimp only [y7]
      repeat' first | with_reducible assumption | with_reducible apply State.bump_quiet | with_reducible apply State.roSet_quiet | with_reducible apply State.setCond_quiet | with_reducible apply State.firingCapture_quiet | with_reducible apply State.joinGroup_quiet | with_reducible apply State.pulseOut_quiet | with_reducible apply State.Quiet.foldl | with_reducible apply State.Quiet.eachPort | with_reducible exact State.Quiet.refl _ | with_reducible intro _ _ | split | with_reducible refine State.Quiet.of_fst (by assumption) ?_ | fail_if_no_progress with_reducible refine State.Quiet.other ?_ rfl rfl rfl rfl rfl rfl rfl
    clear_value y7
  repeat' first | with_reducible assumption | with_reducible apply State.bump_quiet | with_reducible apply State.roSet_quiet | with_reducible apply State.setCond_quiet | with_reducible apply State.firingCapture_quiet | with_reducible apply State.joinGroup_quiet | with_reducible apply State.pulseOut_quiet | with_reducible apply State.Quiet.foldl | with_reducible apply State.Quiet.eachPort | with_reducible exact State.Quiet.refl _ | with_reducible intro _ _ | split | with_reducible refine State.Quiet.of_fst (by assumption) ?_ | fail_if_no_progress with_reducible refine State.Quiet.other ?_ rfl rfl rfl rfl rfl rfl rfl | dsimp only

theorem State.evaluate_quiet {s0 : State} {s : State} {set : PSet} {n : Nat} {trig : Stamp} {sets clears : Bool} (hq : s0.Quiet s) :
    s0.Quiet (State.evaluate s set n trig sets clears) := by
  unfold State.evaluate
  try extract_lets y1
  repeat' first | with_reducible assumption | with_reducible apply State.fire_quiet | with_reducible apply State.roSet_quiet | split | with_reducible refine State.Quiet.of_fst (by assumption) ?_ | dsimp only

theorem State.evalStrain_quiet {s0 : State} {s : State} {n which : Nat} (hq : s0.Quiet s) :
    s0.Quiet (State.evalStrain s n which) := by
  unfold State.evalStrain
  try extract_lets y1 y2 y3
  repeat' first | with_reducible assumption | with_reducible apply State.evaluate_quiet | with_reducible apply State.Quiet.foldl | with_reducible apply State.Quiet.eachPort | with_reducible exact State.Quiet.refl _ | with_reducible intro _ _ | split | with_reducible refine State.Quiet.of_fst (by assumption) ?_ | fail_if_no_progress with_reducible refine State.Quiet.other ?_ rfl rfl rfl rfl rfl rfl rfl | dsimp only

theorem State.evalKernel_quiet {s0 : State} {s : State} {n which : Nat} (hq : s0.Quiet s) :
    s0.Quiet (State.evalKernel s n which) := by
  unfold State.evalKernel
  try extract_lets y1 y2
  repeat' first | with_reducible assumption | with_reducible apply State.evaluate_quiet | split | with_reducible refine State.Quiet.of_fst (by assumption) ?_ | dsimp only

theorem State.evalDts_quiet {s0 : State} {s : State} {n : Nat} (hq : s0.Quiet s) :
    s0.Quiet (State.evalDts s n) := by
  unfold State.evalDts
  try extract_lets y1
  repeat' first | with_reducible assumption | with_reducible apply State.evaluate_quiet | split | with_reducible refine State.Quiet.of_fst (by assumption) ?_ | dsimp only

theorem State.evalEvent_quiet {s0 : State} {s : State} {n which : Nat} (hq : s0.Quiet s) :
    s0.Quiet (State.evalEvent s n which) := by
  unfold State.evalEvent
  repeat' first | with_reducible assumption | with_reducible apply State.evaluate_quiet | split | with_reducible refine State.Quiet.of_fst (by assumption) ?_ | dsimp only

theorem execTriggerEvaluation_quiet {s0 : State} {t : Tick} {cond : Nat} {which : Nat} {s : State} (hq : s0.Quiet s) :
    s0.QuietOut (execTriggerEvaluation t cond which s) := by
  unfold execTriggerEvaluation
  try extract_lets y1
  try
    have k1 : s0.Quiet y1 := by
      dsimp only [y1]
      repeat' first | with_reducible assumption | with_reducible apply State.at_quiet | split | with_reducible refine State.Quiet.of_fst (by assumption) ?_
    clear_value y1
  repeat' first | with_reducible assumption | with_reducible apply State.QuietOut.next | with_reducible exact State.QuietOut.fault | with_reducible apply State.at_quiet | with_reducible apply State.evalStrain_quiet | with_reducible apply State.evalKernel_quiet | with_reducible apply State.evalDts_quiet | with_reducible apply State.evalEvent_quiet | split | with_reducible refine State.Quiet.of_fst (by assumption) ?_ | dsimp only

theorem execTimeConditionInstant_quiet {s0 : State} {t : Tick} {cond : Nat} {s : State} (hq : s0.Quiet s) :
    s0.QuietOut (execTimeConditionInstant t cond s) := by
  unfold execTimeConditionInstant
  try extract_lets y1 y2
  try
    have k1 : s0.Quiet y1 := by
      dsimp only [y1]
      repeat' first | with_reducible assumption | with_reducible apply State.at_quiet | split | with_reducible refine State.Quiet.of_fst (by assumption) ?_
    clear_value y1
  repeat' first | with_reducible assumption | with_reducible apply State.QuietOut.next | with_reducible exact State.QuietOut.fault | with_reducible apply State.at_quiet | with_reducible apply State.setCond_quiet | with_reducible apply State.fire_quiet | split | with_reducible refine State.Quiet.of_fst (by assumption) ?_ | dsimp only

theorem execEvtOutPulseEnd_quiet {s0 : State} {t : Tick} {j : Nat} {s : State} (hq : s0.Quiet s) :
    s0.QuietOut (execEvtOutPulseEnd t j s) := by
  unfold execEvtOutPulseEnd
  try extract_lets y1 y2
  try
    have k1 : s0.Quiet y1 := by
      dsimp only [y1]
      repeat' first | with_reducible assumption | with_reducible apply State.at_quiet | split | with_reducible refine State.Quiet.of_fst (by assumption) ?_
    clear_value y1
  repeat' first | with_reducible assumption | with_reducible apply State.QuietOut.next | with_reducible exact State.QuietOut.fault | with_reducible apply State.at_quiet | with_reducible apply State.emit_quiet | split | with_reducible refine State.Quiet.of_fst (by assumption) ?_ | fail_if_no_progress with_reducible refine State.Quiet.other ?_ rfl rfl rfl rfl rfl rfl rfl | dsimp only

theorem State.notifyGroup_quiet {s0 : State} {s : State} {g : Group} (hq : s0.Quiet s) :
    s0.Quiet (State.notifyGroup s g) := by
  unfold State.notifyGroup
  repeat' first | with_reducible assumption | with_reducible apply State.raise_quiet | with_reducible apply State.Quiet.foldl | with_reducible exact State.Quiet.refl _ | with_reducible intro _ _ | split | with_reducible refine State.Quiet.of_fst (by assumption) ?_ | dsimp only

theorem execTriggerGroupNotify_quiet {s0 : State} {t : Tick} {s : State} (hq : s0.Quiet s) :
    s0.QuietOut (execTriggerGroupNotify t s) := by
  unfold execTriggerGroupNotify
  try extract_lets y1 y2 y3 y4
  try
    have k1 : s0.Quiet y1 := by
      dsimp only [y1]
      repeat' first | with_reducible assumption | with_reducible apply State.at_quiet | split | with_reducible refine State.Quiet.of_fst (by assumption) ?_
    clear_value y1
  repeat' first | with_reducible assumption | with_reducible apply State.QuietOut.next | with_reducible exact State.QuietOut.fault | with_reducible apply State.notifyGroup_quiet | with_reducible apply State.Quiet.foldl | with_reducible exact State.Quiet.refl _ | with_reducible intro _ _ | split | with_reducible refine State.Quiet.of_fst (by assumption) ?_ | fail_if_no_progress with_reducible refine State.Quiet.other ?_ rfl rfl rfl rfl rfl rfl rfl | dsimp only

end Sys2Proof.Machine
end

