-- ==== Sys2Proof/Laws/KeepsModes.lean ====
section
/-! SUPPORT. What the operations of Machine/Modes.lean keep. -/

set_option linter.unusedTactic false
set_option linter.unreachableTactic false
set_option linter.unusedVariables false

namespace Sys2Proof.Machine

theorem State.withPower_quiet {s0 : State} {s : State} {x : PowerSt} (hq : s0.Quiet s) :
    s0.Quiet (State.withPower s x) := by
  unfold State.withPower
  repeat' first | with_reducible assumption | split | with_reducible refine State.Quiet.of_fst (by assumption) ?_ | fail_if_no_progress with_reducible refine State.Quiet.other ?_ rfl rfl rfl rfl rfl rfl rfl

theorem State.publishUsable_quiet {s0 : State} {s : State} (hq : s0.Quiet s) :
    s0.Quiet (State.publishUsable s) := by
  unfold State.publishUsable
  try extract_lets y1 y2
  try
    have k1 : s0.Quiet y1 := by
      dsimp only [y1]
      repeat' first | with_reducible assumption | with_reducible apply State.roSet_quiet | split | with_reducible refine State.Quiet.of_fst (by assumption) ?_
    clear_value y1
  repeat' first | with_reducible assumption | with_reducible apply State.roSet_quiet | with_reducible apply State.withPower_quiet | split | with_reducible refine State.Quiet.of_fst (by assumption) ?_ | dsimp only

theorem State.regrantOne_quiet {s0 : State} {s : State} {x : Source} (hq : s0.Quiet s) :
    s0.Quiet (State.regrantOne s x) := by
  unfold State.regrantOne
  try extract_lets y1 y2
  try
    have k2 : s0.Quiet y2 := by
      dsimp only [y2]
      repeat' first | with_reducible assumption | with_reducible apply State.roSet_quiet | with_reducible apply State.publishUsable_quiet | split | with_reducible refine State.Quiet.of_fst (by assumption) ?_
    clear_value y2
  repeat' first | with_reducible assumption | with_reducible apply State.raise_quiet | split | with_reducible refine State.Quiet.of_fst (by assumption) ?_

theorem State.regrant_quiet {s0 : State} {s : State} (hq : s0.Quiet s) :
    s0.Quiet (State.regrant s) := by
  unfold State.regrant
  repeat' first | with_reducible assumption | with_reducible apply State.regrantOne_quiet | with_reducible apply State.Quiet.foldl | with_reducible exact State.Quiet.refl _ | with_reducible intro _ _ | split | with_reducible refine State.Quiet.of_fst (by assumption) ?_

theorem State.closeSession_quiet {s0 : State} {s : State} {n : Nat} (hq : s0.Quiet s) :
    s0.Quiet (State.closeSession s n) := by
  unfold State.closeSession
  try extract_lets y1 y2 y3 y4 y5
  try
    have k2 : s0.Quiet y2 := by
      dsimp only [y2]
      repeat' first | with_reducible assumption | with_reducible apply State.setPair_quiet | split | with_reducible refine State.Quiet.of_fst (by assumption) ?_
    clear_value y2
  try
    have k3 : s0.Quiet y3 := by
      dsimp only [y3]
      repeat' first | with_reducible assumption | with_reducible apply State.roSet_quiet | split | with_reducible refine State.Quiet.of_fst (by assumption) ?_
    clear_value y3
  try
    have k5 : s0.Quiet y5 := by
      dsimp only [y5]
      repeat' first | with_reducible assumption | with_reducible apply State.emit_quiet | split | with_reducible refine State.Quiet.of_fst (by assumption) ?_ | fail_if_no_progress with_reducible refine State.Quiet.other ?_ rfl rfl rfl rfl rfl rfl rfl
    clear_value y5
  repeat' first | with_reducible assumption | with_reducible apply State.raise_quiet | split | with_reducible refine State.Quiet.of_fst (by assumption) ?_

theorem State.closeSessions_quiet {s0 : State} {s : State} (hq : s0.Quiet s) :
    s0.Quiet (State.closeSessions s) := by
  unfold State.closeSessions
  repeat' first | with_reducible assumption | with_reducible apply State.closeSession_quiet | with_reducible apply State.Quiet.foldl | with_reducible exact State.Quiet.refl _ | with_reducible intro _ _ | split | with_reducible refine State.Quiet.of_fst (by assumption) ?_

theorem State.testsKept_quiet {s0 : State} {s : State} (hq : s0.Quiet s) :
    s0.Quiet (State.testsKept s) := by
  unfold State.testsKept
  try extract_lets y1 y2 y3 y4 y5
  try
    have k5 : s0.Quiet y5 := by
      dsimp only [y5]
      repeat' first | with_reducible assumption | with_reducible apply State.roSet_quiet | with_reducible apply State.Quiet.foldl | with_reducible apply State.Quiet.eachPort | with_reducible exact State.Quiet.refl _ | with_reducible intro _ _ | split | with_reducible refine State.Quiet.of_fst (by assumption) ?_ | fail_if_no_progress with_reducible refine State.Quiet.other ?_ rfl rfl rfl rfl rfl rfl rfl
    clear_value y5
  repeat' first | with_reducible assumption | with_reducible apply State.roSet_quiet | with_reducible apply State.Quiet.foldl | with_reducible apply State.Quiet.eachPort | with_reducible exact State.Quiet.refl _ | with_reducible intro _ _ | split | with_reducible refine State.Quiet.of_fst (by assumption) ?_ | fail_if_no_progress with_reducible refine State.Quiet.other ?_ rfl rfl rfl rfl rfl rfl rfl | dsimp only

theorem State.bedrockLeft_quiet {s0 : State} {s : State} {was m : Mode} (hq : s0.Quiet s) :
    s0.Quiet (State.bedrockLeft s was m) := by
  unfold State.bedrockLeft
  repeat' first | with_reducible assumption | with_reducible apply State.raiseSev_quiet | split | with_reducible refine State.Quiet.of_fst (by assumption) ?_

theorem State.setStep_quiet {s0 : State} {s : State} {i : Nat} {on : Bool} (hq : s0.Quiet s) :
    s0.Quiet (State.setStep s i on) := by
  unfold State.setStep
  try extract_lets y1
  repeat' first | with_reducible assumption | with_reducible apply State.roSet_quiet | split | with_reducible refine State.Quiet.of_fst (by assumption) ?_

theorem State.stepApplied_quiet {s0 : State} {s : State} {i : Nat} (hq : s0.Quiet s) :
    s0.Quiet (State.stepApplied s i) := by
  unfold State.stepApplied
  repeat' first | with_reducible assumption | with_reducible apply State.setStep_quiet | with_reducible apply State.raise_quiet | split | with_reducible refine State.Quiet.of_fst (by assumption) ?_

theorem State.stepUndone_quiet {s0 : State} {s : State} {i : Nat} (hq : s0.Quiet s) :
    s0.Quiet (State.stepUndone s i) := by
  unfold State.stepUndone
  try extract_lets y1 y2
  try
    have k1 : s0.Quiet y1 := by
      dsimp only [y1]
      repeat' first | with_reducible assumption | with_reducible apply State.setStep_quiet | with_reducible apply State.raise_quiet | split | with_reducible refine State.Quiet.of_fst (by assumption) ?_
    clear_value y1
  repeat' first | with_reducible assumption | with_reducible apply State.withPower_quiet | split | with_reducible refine State.Quiet.of_fst (by assumption) ?_

theorem State.ramanIdle_quiet {s0 : State} {s : State} (hq : s0.Quiet s) :
    s0.Quiet (State.ramanIdle s) := by
  unfold State.ramanIdle
  repeat' first | with_reducible assumption | with_reducible apply State.dtsCut_quiet | with_reducible apply State.biasOff_quiet | with_reducible apply State.dtsCheck_quiet | with_reducible apply State.channelsOff_quiet | with_reducible apply State.Quiet.foldl | with_reducible apply State.Quiet.eachPort | with_reducible exact State.Quiet.refl _ | with_reducible intro _ _ | split | with_reducible refine State.Quiet.of_fst (by assumption) ?_ | fail_if_no_progress with_reducible refine State.Quiet.other ?_ rfl rfl rfl rfl rfl rfl rfl | dsimp only

theorem State.standbyOff_quiet {s0 : State} {s : State} (hq : s0.Quiet s) :
    s0.Quiet (State.standbyOff s) := by
  unfold State.standbyOff
  try extract_lets y1 y2 y3
  try
    have k2 : s0.Quiet y2 := by
      dsimp only [y2]
      repeat' first | with_reducible assumption | with_reducible apply State.setSeedStatus_quiet | split | with_reducible refine State.Quiet.of_fst (by assumption) ?_
    clear_value y2
  repeat' first | with_reducible assumption | with_reducible apply State.setSeed_quiet | split | with_reducible refine State.Quiet.of_fst (by assumption) ?_

theorem State.shedInst_quiet {s0 : State} {s : State} {i : Nat} (hq : s0.Quiet s) :
    s0.Quiet (State.shedInst s i) := by
  unfold State.shedInst
  try extract_lets y1 y2
  try
    have k1 : s0.Quiet y1 := by
      dsimp only [y1]
      repeat' first | with_reducible assumption | with_reducible apply State.setCore_quiet | with_reducible apply State.Quiet.foldl | with_reducible exact State.Quiet.refl _ | with_reducible intro _ _ | split | with_reducible refine State.Quiet.of_fst (by assumption) ?_
    clear_value y1
  repeat' first | with_reducible assumption | with_reducible apply State.setInst_quiet | with_reducible apply State.closeTile_quiet | with_reducible apply State.publishInst_quiet | split | with_reducible refine State.Quiet.of_fst (by assumption) ?_

theorem State.shedHold_quiet {s0 : State} {s : State} (hq : s0.Quiet s) :
    s0.Quiet (State.shedHold s) := by
  unfold State.shedHold
  try extract_lets y1 y2
  try
    have k2 : s0.Quiet y2 := by
      dsimp only [y2]
      repeat' first | with_reducible assumption | with_reducible apply State.stepApplied_quiet | split | with_reducible refine State.Quiet.of_fst (by assumption) ?_
    clear_value y2
  repeat' first | with_reducible assumption | with_reducible apply State.noFibre_quiet | with_reducible apply State.publishHold_quiet | with_reducible apply State.dtsCheck_quiet | split | with_reducible refine State.Quiet.of_fst (by assumption) ?_

theorem State.shedMore_quiet {s0 s : State} {f : Nat} (h : s0.Quiet s) : s0.Quiet (State.shedMore f s) := by
  induction f generalizing s with
  | zero => exact h
  | succ n ih =>
    unfold State.shedMore
    repeat' first
      | with_reducible assumption | with_reducible apply ih | with_reducible apply State.ramanIdle_quiet | with_reducible apply State.standbyOff_quiet
      | with_reducible apply State.shedInst_quiet | with_reducible apply State.shedHold_quiet | with_reducible apply State.stepApplied_quiet | split

theorem State.cancelUndo_quiet {s0 : State} {s : State} (hq : s0.Quiet s) :
    s0.Quiet (State.cancelUndo s) := by
  unfold State.cancelUndo
  try extract_lets y1 y2
  try
    have k2 : s0.Quiet y2 := by
      dsimp only [y2]
      repeat' first | with_reducible assumption | with_reducible apply State.withPower_quiet | split | with_reducible refine State.Quiet.of_fst (by assumption) ?_
    clear_value y2
  repeat' first | with_reducible assumption | with_reducible apply State.withPower_quiet | with_reducible apply State.ramanIdle_quiet | with_reducible apply State.standbyOff_quiet | split | with_reducible refine State.Quiet.of_fst (by assumption) ?_ | dsimp only

theorem State.watchUndo_quiet {s0 : State} {s : State} (hq : s0.Quiet s) :
    s0.Quiet (State.watchUndo s) := by
  unfold State.watchUndo
  try extract_lets y1 y2 y3
  repeat' first | with_reducible assumption | with_reducible apply State.withPower_quiet | split | with_reducible refine State.Quiet.of_fst (by assumption) ?_ | dsimp only

theorem State.dropSteps_quiet {s0 : State} {s : State} (hq : s0.Quiet s) :
    s0.Quiet (State.dropSteps s) := by
  unfold State.dropSteps
  try extract_lets y1 y2 y3
  try
    have k2 : s0.Quiet y2 := by
      dsimp only [y2]
      repeat' first | with_reducible assumption | with_reducible apply State.roSet_quiet | with_reducible apply State.withPower_quiet | split | with_reducible refine State.Quiet.of_fst (by assumption) ?_
    clear_value y2
  try
    have k3 : s0.Quiet y3 := by
      dsimp only [y3]
      repeat' first | with_reducible assumption | with_reducible apply State.setInst_quiet | with_reducible apply State.Quiet.foldl | with_reducible exact State.Quiet.refl _ | with_reducible intro _ _ | split | with_reducible refine State.Quiet.of_fst (by assumption) ?_
    clear_value y3
  repeat' first | with_reducible assumption | with_reducible apply State.publishHold_quiet | split | with_reducible refine State.Quiet.of_fst (by assumption) ?_

theorem State.undoDone_quiet {s0 : State} {s : State} {i : Nat} (hq : s0.Quiet s) :
    s0.Quiet (State.undoDone s i) := by
  unfold State.undoDone
  try extract_lets y1
  try
    have k1 : s0.Quiet y1 := by
      dsimp only [y1]
      repeat' first | with_reducible assumption | with_reducible apply State.stepUndone_quiet | split | with_reducible refine State.Quiet.of_fst (by assumption) ?_
    clear_value y1
  repeat' first | with_reducible assumption | with_reducible apply State.publishHold_quiet | with_reducible apply State.dtsCheck_quiet | split | with_reducible refine State.Quiet.of_fst (by assumption) ?_

theorem State.noWaiting_quiet {s0 : State} {s : State} (hq : s0.Quiet s) :
    s0.Quiet (State.noWaiting s) := by
  unfold State.noWaiting
  repeat' first | with_reducible assumption | with_reducible apply State.eachPort_quiet | with_reducible apply State.setPortSt_quiet | with_reducible apply State.Quiet.eachPort | with_reducible exact State.Quiet.refl _ | with_reducible intro _ _ | split | with_reducible refine State.Quiet.of_fst (by assumption) ?_ | dsimp only

theorem State.linkDown_quiet {s0 : State} {s : State} {p : Port} (hq : s0.Quiet s) :
    s0.Quiet (State.linkDown s p) := by
  unfold State.linkDown
  try extract_lets y1
  repeat' first | with_reducible assumption | with_reducible apply State.setLink_quiet | with_reducible apply State.moveFrom_quiet | split | with_reducible refine State.Quiet.of_fst (by assumption) ?_

theorem State.relinkStart_quiet {s0 : State} {s : State} (hq : s0.Quiet s) :
    s0.Quiet (State.relinkStart s) := by
  unfold State.relinkStart
  try extract_lets y1
  repeat' first | with_reducible assumption | with_reducible apply State.withPower_quiet | with_reducible apply State.linkDown_quiet | split | with_reducible refine State.Quiet.of_fst (by assumption) ?_

theorem State.reschedule_quiet {s0 : State} {s : State} {p : Port} (hq : s0.Quiet s) :
    s0.Quiet (State.reschedule s p) := by
  unfold State.reschedule
  try extract_lets y1
  repeat' first | with_reducible assumption | with_reducible apply State.setFrame_quiet | split | with_reducible refine State.Quiet.of_fst (by assumption) ?_

theorem State.suspendStreams_quiet {s0 : State} {s : State} (hq : s0.Quiet s) :
    s0.Quiet (State.suspendStreams s) := by
  unfold State.suspendStreams
  repeat' first | with_reducible assumption | with_reducible apply State.setStream_quiet | with_reducible apply State.streamPublish_quiet | with_reducible apply State.Quiet.foldl | with_reducible apply State.Quiet.eachPort | with_reducible exact State.Quiet.refl _ | with_reducible intro _ _ | split | with_reducible refine State.Quiet.of_fst (by assumption) ?_ | fail_if_no_progress with_reducible refine State.Quiet.other ?_ rfl rfl rfl rfl rfl rfl rfl | dsimp only

theorem State.recordWritten_quiet {s0 : State} {s : State} {r : SaveRec} (hq : s0.Quiet s) :
    s0.Quiet (State.recordWritten s r) := by
  unfold State.recordWritten
  try extract_lets y1
  repeat' first | with_reducible assumption | with_reducible apply State.withPower_quiet | split | with_reducible refine State.Quiet.of_fst (by assumption) ?_

end Sys2Proof.Machine
end

