-- ==== Sys2Proof/Laws/KeepsBoot.lean ====
section
/-! SUPPORT. What the operations of Machine/Boot.lean keep. -/

set_option linter.unusedTactic false
set_option linter.unreachableTactic false
set_option linter.unusedVariables false

namespace Sys2Proof.Machine

theorem State.setImage_quiet {s0 : State} {s : State} {p : Port} {x : FwImage} (hq : s0.Quiet s) :
    s0.Quiet (State.setImage s p x) := by
  unfold State.setImage
  try extract_lets y1 y2 y3
  try
    have k2 : s0.Quiet y2 := by
      dsimp only [y2]
      repeat' first | with_reducible assumption | with_reducible apply State.roSet_quiet | with_reducible apply State.Quiet.foldl | with_reducible apply State.Quiet.eachPort | with_reducible exact State.Quiet.refl _ | with_reducible intro _ _ | split | with_reducible refine State.Quiet.of_fst (by assumption) ?_ | fail_if_no_progress with_reducible refine State.Quiet.other ?_ rfl rfl rfl rfl rfl rfl rfl
    clear_value y2
  repeat' first | with_reducible assumption | with_reducible apply State.roSet_quiet | with_reducible apply State.Quiet.foldl | with_reducible apply State.Quiet.eachPort | with_reducible exact State.Quiet.refl _ | with_reducible intro _ _ | split | with_reducible refine State.Quiet.of_fst (by assumption) ?_ | fail_if_no_progress with_reducible refine State.Quiet.other ?_ rfl rfl rfl rfl rfl rfl rfl | dsimp only

theorem State.imageLater_quiet {s0 : State} {s : State} {p : Port} {st : FwState} {bootFailed : Bool} (hq : s0.Quiet s) :
    s0.Quiet (State.imageLater s p st bootFailed) := by
  unfold State.imageLater
  try extract_lets y1 y2 y3
  try
    have k2 : s0.Quiet y2 := by
      dsimp only [y2]
      repeat' first | with_reducible assumption | with_reducible apply State.setImage_quiet | split | with_reducible refine State.Quiet.of_fst (by assumption) ?_
    clear_value y2
  repeat' first | with_reducible assumption | split | with_reducible refine State.Quiet.of_fst (by assumption) ?_ | fail_if_no_progress with_reducible refine State.Quiet.other ?_ rfl rfl rfl rfl rfl rfl rfl

theorem State.fwAtBoot_quiet {s0 s : State} (h : s0.Quiet s) : s0.Quiet s.fwAtBoot := by
  unfold State.fwAtBoot
  extract_lets s1 lose s2
  have k1 : s0.Quiet s1 := by
    dsimp only [s1]
    split
    · exact State.imageLater_quiet h
    · exact h
  clear_value s1
  have kl : ∀ (y : State) p, y.Quiet (lose y p) := by
    intro y p
    dsimp only [lose]
    split
    · exact State.setImage_quiet (State.Quiet.refl y)
    · exact State.Quiet.refl y
  have k2 : s0.Quiet s2 := (k1.trans (kl _ _)).trans (kl _ _)
  clear_value s2
  exact State.Quiet.other k2 rfl rfl rfl rfl rfl rfl rfl

theorem State.restoreCounters_quiet {s0 : State} {s : State} {r : SaveRec} (hq : s0.Quiet s) :
    s0.Quiet (State.restoreCounters s r) := by
  unfold State.restoreCounters
  try extract_lets y1
  try
    have k1 : s0.Quiet y1 := by
      dsimp only [y1]
      repeat' first | with_reducible assumption | with_reducible apply State.roSet_quiet | split | with_reducible refine State.Quiet.of_fst (by assumption) ?_
    clear_value y1
  repeat' first | with_reducible assumption | with_reducible apply State.roSet_quiet | with_reducible apply State.Quiet.foldl | with_reducible exact State.Quiet.refl _ | with_reducible intro _ _ | split | with_reducible refine State.Quiet.of_fst (by assumption) ?_ | dsimp only

theorem State.restoreFlash_quiet {s0 : State} {s : State} (hq : s0.Quiet s) :
    s0.Quiet (State.restoreFlash s) := by
  unfold State.restoreFlash
  try extract_lets y1
  repeat' first | with_reducible assumption | with_reducible apply State.restoreCounters_quiet | split | with_reducible refine State.Quiet.of_fst (by assumption) ?_ | dsimp only

theorem State.publishRegions_quiet {s0 : State} {s : State} (hq : s0.Quiet s) :
    s0.Quiet (State.publishRegions s) := by
  unfold State.publishRegions
  try extract_lets y1 y2
  repeat' first | with_reducible assumption | with_reducible apply State.roSet_quiet | split | with_reducible refine State.Quiet.of_fst (by assumption) ?_

theorem State.applySet_quiet {s0 : State} {s : State} {set : PSet} {epoch : Nat} (hq : s0.Quiet s) :
    s0.Quiet (State.applySet s set epoch) := by
  unfold State.applySet
  try extract_lets y1 y2 y3 y4 y5 y6 y7
  try
    have k3 : s0.Quiet y3 := by
      dsimp only [y3]
      repeat' first | with_reducible assumption | with_reducible apply State.roSet_quiet | with_reducible apply State.eachPort_quiet | with_reducible apply State.portAtF_quiet | with_reducible apply State.lockAtF_quiet | with_reducible apply State.timeFieldsAtF_quiet | with_reducible apply State.streamsApply_quiet | with_reducible apply State.strataAtF_quiet | with_reducible apply State.triggerAtF_quiet | with_reducible apply State.basaltAtF_quiet | with_reducible apply State.publishRegions_quiet | with_reducible apply State.regrant_quiet | with_reducible apply State.ensAtF_quiet | with_reducible apply State.Quiet.foldl | with_reducible apply State.Quiet.eachPort | with_reducible exact State.Quiet.refl _ | with_reducible intro _ _ | split | with_reducible refine State.Quiet.of_fst (by assumption) ?_ | fail_if_no_progress with_reducible refine State.Quiet.other ?_ rfl rfl rfl rfl rfl rfl rfl | dsimp only
    clear_value y3
  try
    have k4 : s0.Quiet y4 := by
      dsimp only [y4]
      repeat' first | with_reducible assumption | with_reducible apply State.roSet_quiet | with_reducible apply State.eachPort_quiet | with_reducible apply State.portAtF_quiet | with_reducible apply State.lockAtF_quiet | with_reducible apply State.timeFieldsAtF_quiet | with_reducible apply State.streamsApply_quiet | with_reducible apply State.strataAtF_quiet | with_reducible apply State.triggerAtF_quiet | with_reducible apply State.basaltAtF_quiet | with_reducible apply State.publishRegions_quiet | with_reducible apply State.regrant_quiet | with_reducible apply State.ensAtF_quiet | with_reducible apply State.Quiet.foldl | with_reducible apply State.Quiet.eachPort | with_reducible exact State.Quiet.refl _ | with_reducible intro _ _ | split | with_reducible refine State.Quiet.of_fst (by assumption) ?_ | fail_if_no_progress with_reducible refine State.Quiet.other ?_ rfl rfl rfl rfl rfl rfl rfl | dsimp only
    clear_value y4
  try
    have k5 : s0.Quiet y5 := by
      dsimp only [y5]
      repeat' first | with_reducible assumption | with_reducible apply State.roSet_quiet | with_reducible apply State.eachPort_quiet | with_reducible apply State.portAtF_quiet | with_reducible apply State.lockAtF_quiet | with_reducible apply State.timeFieldsAtF_quiet | with_reducible apply State.streamsApply_quiet | with_reducible apply State.strataAtF_quiet | with_reducible apply State.triggerAtF_quiet | with_reducible apply State.basaltAtF_quiet | with_reducible apply State.publishRegions_quiet | with_reducible apply State.regrant_quiet | with_reducible apply State.ensAtF_quiet | with_reducible apply State.Quiet.foldl | with_reducible apply State.Quiet.eachPort | with_reducible exact State.Quiet.refl _ | with_reducible intro _ _ | split | with_reducible refine State.Quiet.of_fst (by assumption) ?_ | fail_if_no_progress with_reducible refine State.Quiet.other ?_ rfl rfl rfl rfl rfl rfl rfl | dsimp only
    clear_value y5
  try
    have k6 : s0.Quiet y6 := by
      dsimp only [y6]
      repeat' first | with_reducible assumption | with_reducible apply State.roSet_quiet | with_reducible apply State.eachPort_quiet | with_reducible apply State.portAtF_quiet | with_reducible apply State.lockAtF_quiet | with_reducible apply State.timeFieldsAtF_quiet | with_reducible apply State.streamsApply_quiet | with_reducible apply State.strataAtF_quiet | with_reducible apply State.triggerAtF_quiet | with_reducible apply State.basaltAtF_quiet | with_reducible apply State.publishRegions_quiet | with_reducible apply State.regrant_quiet | with_reducible apply State.ensAtF_quiet | with_reducible apply State.Quiet.foldl | with_reducible apply State.Quiet.eachPort | with_reducible exact State.Quiet.refl _ | with_reducible intro _ _ | split | with_reducible refine State.Quiet.of_fst (by assumption) ?_ | fail_if_no_progress with_reducible refine State.Quiet.other ?_ rfl rfl rfl rfl rfl rfl rfl | dsimp only
    clear_value y6
  repeat' first | with_reducible assumption | with_reducible apply State.roSet_quiet | with_reducible apply State.eachPort_quiet | with_reducible apply State.portAtF_quiet | with_reducible apply State.lockAtF_quiet | with_reducible apply State.timeFieldsAtF_quiet | with_reducible apply State.streamsApply_quiet | with_reducible apply State.strataAtF_quiet | with_reducible apply State.triggerAtF_quiet | with_reducible apply State.basaltAtF_quiet | with_reducible apply State.publishRegions_quiet | with_reducible apply State.regrant_quiet | with_reducible apply State.ensAtF_quiet | with_reducible apply State.Quiet.foldl | with_reducible apply State.Quiet.eachPort | with_reducible exact State.Quiet.refl _ | with_reducible intro _ _ | split | with_reducible refine State.Quiet.of_fst (by assumption) ?_ | fail_if_no_progress with_reducible refine State.Quiet.other ?_ rfl rfl rfl rfl rfl rfl rfl | dsimp only

theorem State.chooseImage_quiet {s0 s : State} {o : BootObs} (h : s0.Quiet s) : s0.Quiet (s.chooseImage o).1 := by
  unfold State.chooseImage
  extract_lets good act other start normal
  have ks : ∀ (y : State) p t, y.Quiet (start y p t) := fun y p t => State.Quiet.other (State.Quiet.refl y) rfl rfl rfl rfl rfl rfl rfl
  have kn : ∀ y : State, y.Quiet (normal y).1 := by
    intro y
    dsimp only [normal]
    split
    · refine State.Quiet.trans ?_ (ks _ _ _)
      split
      · exact State.Quiet.refl y
      · exact State.setImage_quiet (State.Quiet.refl y)
    · split
      · exact State.Quiet.trans (State.Quiet.other (State.roSet_quiet (State.imageLater_quiet (State.imageLater_quiet (State.Quiet.refl y))))
          rfl rfl rfl rfl rfl rfl rfl) (ks _ _ _)
      · exact State.imageLater_quiet (State.Quiet.refl y)
  split
  · exact h.trans (ks _ _ _)
  · split
    · split
      · exact h.trans (ks _ _ _)
      · exact (State.imageLater_quiet h).trans (kn _)
    · exact h.trans (kn _)

theorem State.bootDram_quiet {s0 : State} {s : State} {full ok : List Bool} (hq : s0.Quiet s) :
    s0.Quiet (State.bootDram s full ok).1 := by
  unfold State.bootDram
  try extract_lets y1 y2 y3
  try
    have k1 : s0.Quiet y1 := by
      dsimp only [y1]
      repeat' first | with_reducible assumption | with_reducible apply State.memBoot_quiet | split | with_reducible refine State.Quiet.of_fst (by assumption) ?_
    clear_value y1
  try
    have k3 : s0.Quiet y3 := by
      dsimp only [y3]
      repeat' first | with_reducible assumption | with_reducible apply State.withMem_quiet | with_reducible apply State.setRank_quiet | with_reducible apply State.trainRank_quiet | split | with_reducible refine State.Quiet.of_fst (by assumption) ?_ | fail_if_no_progress with_reducible refine State.Quiet.other ?_ rfl rfl rfl rfl rfl rfl rfl
    clear_value y3
  repeat' first | with_reducible assumption | with_reducible apply State.publishRanks_quiet | split | with_reducible refine State.Quiet.of_fst (by assumption) ?_ | dsimp only

theorem State.bootKernels_quiet {s0 : State} {s : State} {ok : List Bool} (hq : s0.Quiet s) :
    s0.Quiet (State.bootKernels s ok) := by
  unfold State.bootKernels
  repeat' first | with_reducible assumption | with_reducible apply State.setSlot_quiet | with_reducible apply State.publishImage_quiet | with_reducible apply State.raise_quiet | with_reducible apply State.Quiet.foldl | with_reducible exact State.Quiet.refl _ | with_reducible intro _ _ | split | with_reducible refine State.Quiet.of_fst (by assumption) ?_ | dsimp only

theorem State.bootCores_quiet {s0 : State} {s : State} {ok : List Bool} (hq : s0.Quiet s) :
    s0.Quiet (State.bootCores s ok) := by
  unfold State.bootCores
  try extract_lets y1 y2 y3 y4 y5 y6 y7
  try
    have k6 : s0.Quiet y6 := by
      dsimp only [y6]
      repeat' first | with_reducible assumption | with_reducible apply State.publishCore_quiet | with_reducible apply State.raise_quiet | with_reducible apply State.Quiet.foldl | with_reducible apply State.Quiet.eachPort | with_reducible exact State.Quiet.refl _ | with_reducible intro _ _ | split | with_reducible refine State.Quiet.of_fst (by assumption) ?_ | fail_if_no_progress with_reducible refine State.Quiet.other ?_ rfl rfl rfl rfl rfl rfl rfl
    clear_value y6
  try
    have k7 : s0.Quiet y7 := by
      dsimp only [y7]
      repeat' first | with_reducible assumption | with_reducible apply State.publishCore_quiet | with_reducible apply State.raise_quiet | with_reducible apply State.Quiet.foldl | with_reducible apply State.Quiet.eachPort | with_reducible exact State.Quiet.refl _ | with_reducible intro _ _ | split | with_reducible refine State.Quiet.of_fst (by assumption) ?_ | fail_if_no_progress with_reducible refine State.Quiet.other ?_ rfl rfl rfl rfl rfl rfl rfl
    clear_value y7
  repeat' first | with_reducible assumption | with_reducible apply State.publishCore_quiet | with_reducible apply State.raise_quiet | with_reducible apply State.Quiet.foldl | with_reducible apply State.Quiet.eachPort | with_reducible exact State.Quiet.refl _ | with_reducible intro _ _ | split | with_reducible refine State.Quiet.of_fst (by assumption) ?_ | fail_if_no_progress with_reducible refine State.Quiet.other ?_ rfl rfl rfl rfl rfl rfl rfl | dsimp only

theorem State.tellHost_quiet {s0 : State} {s : State} (hq : s0.Quiet s) :
    s0.Quiet (State.tellHost s) := by
  unfold State.tellHost
  try extract_lets y1 y2 y3 y4
  try
    have k2 : s0.Quiet y2 := by
      dsimp only [y2]
      repeat' first | with_reducible assumption | with_reducible apply State.withPower_quiet | with_reducible apply State.raiseSev_quiet | with_reducible apply State.raise_quiet | with_reducible apply State.Quiet.foldl | with_reducible apply State.Quiet.eachPort | with_reducible exact State.Quiet.refl _ | with_reducible intro _ _ | split | with_reducible refine State.Quiet.of_fst (by assumption) ?_ | fail_if_no_progress with_reducible refine State.Quiet.other ?_ rfl rfl rfl rfl rfl rfl rfl
    clear_value y2
  try
    have k4 : s0.Quiet y4 := by
      dsimp only [y4]
      repeat' first | with_reducible assumption | with_reducible apply State.withPower_quiet | with_reducible apply State.raiseSev_quiet | with_reducible apply State.raise_quiet | with_reducible apply State.Quiet.foldl | with_reducible apply State.Quiet.eachPort | with_reducible exact State.Quiet.refl _ | with_reducible intro _ _ | split | with_reducible refine State.Quiet.of_fst (by assumption) ?_ | fail_if_no_progress with_reducible refine State.Quiet.other ?_ rfl rfl rfl rfl rfl rfl rfl
    clear_value y4
  repeat' first | with_reducible assumption | with_reducible apply State.withPower_quiet | with_reducible apply State.raiseSev_quiet | with_reducible apply State.raise_quiet | with_reducible apply State.Quiet.foldl | with_reducible apply State.Quiet.eachPort | with_reducible exact State.Quiet.refl _ | with_reducible intro _ _ | split | with_reducible refine State.Quiet.of_fst (by assumption) ?_ | fail_if_no_progress with_reducible refine State.Quiet.other ?_ rfl rfl rfl rfl rfl rfl rfl | dsimp only

end Sys2Proof.Machine
end

