-- ==== Sys2Proof/Laws/KeepsPower.lean ====
section
/-! SUPPORT. What the operations of Machine/Power.lean keep. -/

set_option linter.unusedTactic false
set_option linter.unreachableTactic false
set_option linter.unusedVariables false

namespace Sys2Proof.Machine

theorem execMpsPulse_quiet {s0 : State} {t : Tick} {s : State} (hq : s0.Quiet s) :
    s0.QuietOut (execMpsPulse t s) := by
  unfold execMpsPulse
  try extract_lets y1 y2 y3 y4
  try
    have k1 : s0.Quiet y1 := by
      dsimp only [y1]
      repeat' first | with_reducible assumption | with_reducible apply State.at_quiet | split | with_reducible refine State.Quiet.of_fst (by assumption) ?_
    clear_value y1
  try
    have k3 : s0.Quiet y3 := by
      dsimp only [y3]
      repeat' first | with_reducible assumption | with_reducible apply State.withPower_quiet | split | with_reducible refine State.Quiet.of_fst (by assumption) ?_
    clear_value y3
  try
    have k4 : s0.Quiet y4 := by
      dsimp only [y4]
      repeat' first | with_reducible assumption | with_reducible apply State.emit_quiet | split | with_reducible refine State.Quiet.of_fst (by assumption) ?_
    clear_value y4
  repeat' first | with_reducible assumption | with_reducible apply State.QuietOut.next | with_reducible exact State.QuietOut.fault | with_reducible apply State.emit_quiet | split | with_reducible refine State.Quiet.of_fst (by assumption) ?_

theorem State.undoStep_quiet {s0 : State} {s : State} {i : Nat} (hq : s0.Quiet s) :
    s0.Quiet (State.undoStep s i) := by
  unfold State.undoStep
  try extract_lets y1 y2 y3 y4
  try
    have k2 : s0.Quiet y2 := by
      dsimp only [y2]
      repeat' first | with_reducible assumption | with_reducible apply State.withPower_quiet | split | with_reducible refine State.Quiet.of_fst (by assumption) ?_
    clear_value y2
  try
    have k3 : s0.Quiet y3 := by
      dsimp only [y3]
      repeat' first | with_reducible assumption | with_reducible apply State.dtsCheck_quiet | split | with_reducible refine State.Quiet.of_fst (by assumption) ?_
    clear_value y3
  try
    have k4 : s0.Quiet y4 := by
      dsimp only [y4]
      repeat' first | with_reducible assumption | with_reducible apply State.seedOn_quiet | split | with_reducible refine State.Quiet.of_fst (by assumption) ?_
    clear_value y4
  repeat' first | with_reducible assumption | with_reducible apply State.withPower_quiet | with_reducible apply State.dtsCheck_quiet | with_reducible apply State.undoDone_quiet | with_reducible apply State.seedOn_quiet | with_reducible apply State.setInst_quiet | with_reducible apply State.publishInst_quiet | with_reducible apply State.Quiet.foldl | with_reducible exact State.Quiet.refl _ | with_reducible intro _ _ | split | with_reducible refine State.Quiet.of_fst (by assumption) ?_ | dsimp only

theorem execShedUndo_quiet {s0 : State} {t : Tick} {s : State} (hq : s0.Quiet s) :
    s0.QuietOut (execShedUndo t s) := by
  unfold execShedUndo
  try extract_lets y1
  try
    have k1 : s0.Quiet y1 := by
      dsimp only [y1]
      repeat' first | with_reducible assumption | with_reducible apply State.at_quiet | split | with_reducible refine State.Quiet.of_fst (by assumption) ?_
    clear_value y1
  repeat' first | with_reducible assumption | with_reducible apply State.QuietOut.next | with_reducible exact State.QuietOut.fault | with_reducible apply State.at_quiet | with_reducible apply State.undoStep_quiet | split | with_reducible refine State.Quiet.of_fst (by assumption) ?_ | dsimp only

theorem execHoldCapacitanceMeasure_quiet {s0 : State} {t : Tick} {microfarad : Nat} {millivolt : Nat} {s : State} (hq : s0.Quiet s) :
    s0.QuietOut (execHoldCapacitanceMeasure t microfarad millivolt s) := by
  unfold execHoldCapacitanceMeasure
  try extract_lets y1 y2
  try
    have k1 : s0.Quiet y1 := by
      dsimp only [y1]
      repeat' first | with_reducible assumption | with_reducible apply State.at_quiet | split | with_reducible refine State.Quiet.of_fst (by assumption) ?_
    clear_value y1
  try
    have k2 : s0.Quiet y2 := by
      dsimp only [y2]
      repeat' first | with_reducible assumption | with_reducible apply State.roSet_quiet | split | with_reducible refine State.Quiet.of_fst (by assumption) ?_
    clear_value y2
  repeat' first | with_reducible assumption | with_reducible apply State.QuietOut.next | with_reducible exact State.QuietOut.fault | with_reducible apply State.raiseSev_quiet | with_reducible apply State.hold_quiet | split | with_reducible refine State.Quiet.of_fst (by assumption) ?_

theorem State.zoneStep_quiet {s0 : State} {s : State} {z : Nat} {start : Stamp} {x : ZoneSum} (hq : s0.Quiet s) :
    s0.Quiet (State.zoneStep s z start x).1 := by
  unfold State.zoneStep
  try extract_lets y1 y2 y3 y4 y5 y6 y7 y8 y9 y10
  try
    have k7 : s0.Quiet y7 := by
      dsimp only [y7]
      repeat' first | with_reducible assumption | with_reducible apply State.withPower_quiet | split | with_reducible refine State.Quiet.of_fst (by assumption) ?_
    clear_value y7
  try
    have k8 : s0.Quiet y8 := by
      dsimp only [y8]
      repeat' first | with_reducible assumption | with_reducible apply State.roSet_quiet | split | with_reducible refine State.Quiet.of_fst (by assumption) ?_
    clear_value y8
  try
    have k9 : s0.Quiet y9 := by
      dsimp only [y9]
      repeat' first | with_reducible assumption | with_reducible apply State.raiseSev_quiet | split | with_reducible refine State.Quiet.of_fst (by assumption) ?_
    clear_value y9
  repeat' first | with_reducible assumption | split | with_reducible refine State.Quiet.of_fst (by assumption) ?_

theorem execAlarmInterval_quiet {s0 : State} {t : Tick} {s : State} (hq : s0.Quiet s) :
    s0.QuietOut (execAlarmInterval t s) := by
  unfold execAlarmInterval
  extract_lets y1 n sums zones r pw y2 wt tile
  have k1 : s0.Quiet y1 := State.at_quiet hq
  clear_value y1
  have kr : s0.Quiet r.1 := State.Quiet.foldlPair (fun y a => State.zoneStep_quiet (State.Quiet.refl y.1)) k1
  clear_value r
  have k2 : s0.Quiet y2 := State.withPower_quiet kr
  clear_value y2
  split
  · exact State.QuietOut.next k1
  · apply State.QuietOut.next
    split
    · exact k2
    · exact State.Quiet.foldl (fun y a => State.enqueue_quiet (State.loadDue_quiet (State.Quiet.refl y))) k2


end Sys2Proof.Machine
end

