-- ==== Sys2Proof/Laws/KeepsObjects.lean ====
section
/-! SUPPORT. What the operations of Machine/Objects.lean keep. -/

set_option linter.unusedTactic false
set_option linter.unreachableTactic false
set_option linter.unusedVariables false

namespace Sys2Proof.Machine

theorem execCfgGet_quiet {s0 : State} {h : Hdr} {cursor : Nat} {paths : List String} {s : State} (hq : s0.Quiet s) :
    s0.QuietOut (execCfgGet h cursor paths s) := by
  unfold execCfgGet
  try extract_lets y1
  repeat' first | with_reducible assumption | with_reducible apply State.QuietOut.next | with_reducible exact State.QuietOut.fault | with_reducible apply request_quiet | with_reducible exact State.Quiet.refl _ | with_reducible intro _ | dsimp only | with_reducible apply State.Quiet.foldl | with_reducible apply State.Quiet.eachPort | with_reducible exact State.Quiet.refl _ | with_reducible intro _ _ | split | with_reducible refine State.Quiet.of_fst (by assumption) ?_ | fail_if_no_progress with_reducible refine State.Quiet.other ?_ rfl rfl rfl rfl rfl rfl rfl | dsimp only

theorem execCfgList_quiet {s0 : State} {h : Hdr} {cursor : Nat} {stem : String} {s : State} (hq : s0.Quiet s) :
    s0.QuietOut (execCfgList h cursor stem s) := by
  unfold execCfgList
  try extract_lets y1
  repeat' first | with_reducible assumption | with_reducible apply State.QuietOut.next | with_reducible exact State.QuietOut.fault | with_reducible apply request_quiet | with_reducible exact State.Quiet.refl _ | with_reducible intro _ | dsimp only | with_reducible apply State.Quiet.foldl | with_reducible apply State.Quiet.eachPort | with_reducible exact State.Quiet.refl _ | with_reducible intro _ _ | split | with_reducible refine State.Quiet.of_fst (by assumption) ?_ | fail_if_no_progress with_reducible refine State.Quiet.other ?_ rfl rfl rfl rfl rfl rfl rfl | dsimp only

theorem execCfgDiff_quiet {s0 : State} {h : Hdr} {cursor : Nat} {s : State} (hq : s0.Quiet s) :
    s0.QuietOut (execCfgDiff h cursor s) := by
  unfold execCfgDiff
  try extract_lets y1
  repeat' first | with_reducible assumption | with_reducible apply State.QuietOut.next | with_reducible exact State.QuietOut.fault | with_reducible apply request_quiet | with_reducible exact State.Quiet.refl _ | with_reducible intro _ | dsimp only | with_reducible apply State.Quiet.foldl | with_reducible apply State.Quiet.eachPort | with_reducible exact State.Quiet.refl _ | with_reducible intro _ _ | split | with_reducible refine State.Quiet.of_fst (by assumption) ?_ | fail_if_no_progress with_reducible refine State.Quiet.other ?_ rfl rfl rfl rfl rfl rfl rfl | dsimp only

theorem State.setDraft_quiet {s0 : State} {s : State} {d : PSet} (hq : s0.Quiet s) :
    s0.Quiet (State.setDraft s d) := by
  unfold State.setDraft
  try extract_lets y1
  repeat' first | with_reducible assumption | split | with_reducible refine State.Quiet.of_fst (by assumption) ?_ | fail_if_no_progress with_reducible refine State.Quiet.other ?_ rfl rfl rfl rfl rfl rfl rfl

theorem State.cfgSet_quiet {s0 : State} {s : State} {entries : List Entry} (hq : s0.Quiet s) :
    s0.Quiet (State.cfgSet s entries).1 := by
  unfold State.cfgSet
  repeat' first | with_reducible assumption | with_reducible apply State.setDraft_quiet | with_reducible apply State.Quiet.foldl | with_reducible apply State.Quiet.eachPort | with_reducible exact State.Quiet.refl _ | with_reducible intro _ _ | split | with_reducible refine State.Quiet.of_fst (by assumption) ?_ | fail_if_no_progress with_reducible refine State.Quiet.other ?_ rfl rfl rfl rfl rfl rfl rfl | dsimp only

theorem execCfgSet_quiet {s0 : State} {h : Hdr} {entries : List Entry} {s : State} (hq : s0.Quiet s) :
    s0.QuietOut (execCfgSet h entries s) := by
  unfold execCfgSet
  try extract_lets y1
  repeat' first | with_reducible assumption | with_reducible apply State.QuietOut.next | with_reducible exact State.QuietOut.fault | with_reducible apply request_quiet | with_reducible exact State.Quiet.refl _ | with_reducible intro _ | dsimp only | with_reducible apply State.cfgSet_quiet | with_reducible apply State.Quiet.foldl | with_reducible apply State.Quiet.eachPort | with_reducible exact State.Quiet.refl _ | with_reducible intro _ _ | split | with_reducible refine State.Quiet.of_fst (by assumption) ?_ | fail_if_no_progress with_reducible refine State.Quiet.other ?_ rfl rfl rfl rfl rfl rfl rfl | dsimp only

theorem State.cfgDiscard_quiet {s0 : State} {s : State} (hq : s0.Quiet s) :
    s0.Quiet (State.cfgDiscard s).1 := by
  unfold State.cfgDiscard
  repeat' first | with_reducible assumption | with_reducible apply State.setDraft_quiet | with_reducible apply State.Quiet.foldl | with_reducible apply State.Quiet.eachPort | with_reducible exact State.Quiet.refl _ | with_reducible intro _ _ | split | with_reducible refine State.Quiet.of_fst (by assumption) ?_ | fail_if_no_progress with_reducible refine State.Quiet.other ?_ rfl rfl rfl rfl rfl rfl rfl | dsimp only

theorem execCfgDiscard_quiet {s0 : State} {h : Hdr} {s : State} (hq : s0.Quiet s) :
    s0.QuietOut (execCfgDiscard h s) := by
  unfold execCfgDiscard
  try extract_lets y1
  repeat' first | with_reducible assumption | with_reducible apply State.QuietOut.next | with_reducible exact State.QuietOut.fault | with_reducible apply request_quiet | with_reducible exact State.Quiet.refl _ | with_reducible intro _ | dsimp only | with_reducible apply State.cfgDiscard_quiet | with_reducible apply State.Quiet.foldl | with_reducible apply State.Quiet.eachPort | with_reducible exact State.Quiet.refl _ | with_reducible intro _ _ | split | with_reducible refine State.Quiet.of_fst (by assumption) ?_ | fail_if_no_progress with_reducible refine State.Quiet.other ?_ rfl rfl rfl rfl rfl rfl rfl | dsimp only

theorem execCfgSave_quiet {s0 : State} {h : Hdr} {s : State} (hq : s0.Quiet s) :
    s0.QuietOut (execCfgSave h s) := by
  unfold execCfgSave
  try extract_lets y1
  repeat' first | with_reducible assumption | with_reducible apply State.QuietOut.next | with_reducible exact State.QuietOut.fault | with_reducible apply request_quiet | with_reducible exact State.Quiet.refl _ | with_reducible intro _ | dsimp only | with_reducible apply State.Quiet.foldl | with_reducible apply State.Quiet.eachPort | with_reducible exact State.Quiet.refl _ | with_reducible intro _ _ | split | with_reducible refine State.Quiet.of_fst (by assumption) ?_ | fail_if_no_progress with_reducible refine State.Quiet.other ?_ rfl rfl rfl rfl rfl rfl rfl | dsimp only

theorem execCfgErase_quiet {s0 : State} {h : Hdr} {s : State} (hq : s0.Quiet s) :
    s0.QuietOut (execCfgErase h s) := by
  unfold execCfgErase
  try extract_lets y1
  repeat' first | with_reducible assumption | with_reducible apply State.QuietOut.next | with_reducible exact State.QuietOut.fault | with_reducible apply request_quiet | with_reducible exact State.Quiet.refl _ | with_reducible intro _ | dsimp only | with_reducible apply State.Quiet.foldl | with_reducible apply State.Quiet.eachPort | with_reducible exact State.Quiet.refl _ | with_reducible intro _ _ | split | with_reducible refine State.Quiet.of_fst (by assumption) ?_ | fail_if_no_progress with_reducible refine State.Quiet.other ?_ rfl rfl rfl rfl rfl rfl rfl | dsimp only

theorem State.timeSet_quiet {s0 : State} {s : State} {seconds : BitVec 64} {utc : BitVec 16} (hq : s0.Quiet s) :
    s0.Quiet (State.timeSet s seconds utc).1 := by
  unfold State.timeSet
  try extract_lets y1 y2
  repeat' first | with_reducible assumption | with_reducible apply State.withTime_quiet | with_reducible apply State.roSet_quiet | split | with_reducible refine State.Quiet.of_fst (by assumption) ?_

theorem execTimeSet_quiet {s0 : State} {h : Hdr} {seconds : BitVec 64} {utc : BitVec 16} {s : State} (hq : s0.Quiet s) :
    s0.QuietOut (execTimeSet h seconds utc s) := by
  unfold execTimeSet
  repeat' first | with_reducible assumption | with_reducible apply State.QuietOut.next | with_reducible exact State.QuietOut.fault | with_reducible apply request_quiet | with_reducible apply State.timeSet_quiet | with_reducible apply request_quiet | with_reducible intro _ | with_reducible apply State.Quiet.foldl | with_reducible apply State.Quiet.eachPort | with_reducible exact State.Quiet.refl _ | with_reducible intro _ _ | split | with_reducible refine State.Quiet.of_fst (by assumption) ?_ | fail_if_no_progress with_reducible refine State.Quiet.other ?_ rfl rfl rfl rfl rfl rfl rfl | dsimp only

theorem execTdcRead_quiet {s0 : State} {h : Hdr} {input start limit : Nat} {s : State} (hq : s0.Quiet s) :
    s0.QuietOut (execTdcRead h input start limit s) := by
  unfold execTdcRead
  repeat' first | with_reducible assumption | with_reducible apply State.QuietOut.next | with_reducible exact State.QuietOut.fault | with_reducible apply request_quiet | with_reducible apply request_quiet | with_reducible intro _ | with_reducible apply State.Quiet.foldl | with_reducible apply State.Quiet.eachPort | with_reducible exact State.Quiet.refl _ | with_reducible intro _ _ | split | with_reducible refine State.Quiet.of_fst (by assumption) ?_ | fail_if_no_progress with_reducible refine State.Quiet.other ?_ rfl rfl rfl rfl rfl rfl rfl | dsimp only

theorem execHello_quiet {s0 : State} {h : Hdr} {protocol : Nat} {s : State} (hq : s0.Quiet s) :
    s0.QuietOut (execHello h protocol s) := by
  unfold execHello
  repeat' first | with_reducible assumption | with_reducible apply State.QuietOut.next | with_reducible exact State.QuietOut.fault | with_reducible apply request_quiet | with_reducible apply request_quiet | with_reducible intro _ | with_reducible apply State.Quiet.foldl | with_reducible apply State.Quiet.eachPort | with_reducible exact State.Quiet.refl _ | with_reducible intro _ _ | split | with_reducible refine State.Quiet.of_fst (by assumption) ?_ | fail_if_no_progress with_reducible refine State.Quiet.other ?_ rfl rfl rfl rfl rfl rfl rfl | dsimp only

theorem execPing_quiet {s0 : State} {h : Hdr} {s : State} (hq : s0.Quiet s) :
    s0.QuietOut (execPing h s) := by
  unfold execPing
  try extract_lets y1
  repeat' first | with_reducible assumption | with_reducible apply State.QuietOut.next | with_reducible exact State.QuietOut.fault | with_reducible apply request_quiet | with_reducible exact State.Quiet.refl _ | with_reducible intro _ | dsimp only | with_reducible apply State.Quiet.foldl | with_reducible apply State.Quiet.eachPort | with_reducible exact State.Quiet.refl _ | with_reducible intro _ _ | split | with_reducible refine State.Quiet.of_fst (by assumption) ?_ | fail_if_no_progress with_reducible refine State.Quiet.other ?_ rfl rfl rfl rfl rfl rfl rfl | dsimp only

theorem execUnknownCommand_quiet {s0 : State} {h : Hdr} {code : BitVec 16} {body : List Byte} {s : State} (hq : s0.Quiet s) :
    s0.QuietOut (execUnknownCommand h code body s) := by
  unfold execUnknownCommand
  try extract_lets y1
  repeat' first | with_reducible assumption | with_reducible apply State.QuietOut.next | with_reducible exact State.QuietOut.fault | with_reducible apply State.at_quiet | with_reducible apply request_quiet | with_reducible exact State.Quiet.refl _ | with_reducible intro _ | dsimp only | with_reducible apply State.Quiet.foldl | with_reducible apply State.Quiet.eachPort | with_reducible exact State.Quiet.refl _ | with_reducible intro _ _ | split | with_reducible refine State.Quiet.of_fst (by assumption) ?_ | fail_if_no_progress with_reducible refine State.Quiet.other ?_ rfl rfl rfl rfl rfl rfl rfl | dsimp only

theorem execEventSubscribe_quiet {s0 : State} {h : Hdr} {mask : BitVec 256} {s : State} (hq : s0.Quiet s) :
    s0.QuietOut (execEventSubscribe h mask s) := by
  unfold execEventSubscribe
  try extract_lets y1
  repeat' first | with_reducible assumption | with_reducible apply State.QuietOut.next | with_reducible exact State.QuietOut.fault | with_reducible apply request_quiet | with_reducible exact State.Quiet.refl _ | with_reducible intro _ | dsimp only | with_reducible apply State.setPair_quiet | with_reducible apply State.Quiet.foldl | with_reducible apply State.Quiet.eachPort | with_reducible exact State.Quiet.refl _ | with_reducible intro _ _ | split | with_reducible refine State.Quiet.of_fst (by assumption) ?_ | fail_if_no_progress with_reducible refine State.Quiet.other ?_ rfl rfl rfl rfl rfl rfl rfl | dsimp only

theorem execEventRead_quiet {s0 : State} {h : Hdr} {start limit : Nat} {s : State} (hq : s0.Quiet s) :
    s0.QuietOut (execEventRead h start limit s) := by
  unfold execEventRead
  try extract_lets y1
  repeat' first | with_reducible assumption | with_reducible apply State.QuietOut.next | with_reducible exact State.QuietOut.fault | with_reducible apply request_quiet | with_reducible exact State.Quiet.refl _ | with_reducible intro _ | dsimp only | with_reducible apply State.Quiet.foldl | with_reducible apply State.Quiet.eachPort | with_reducible exact State.Quiet.refl _ | with_reducible intro _ _ | split | with_reducible refine State.Quiet.of_fst (by assumption) ?_ | fail_if_no_progress with_reducible refine State.Quiet.other ?_ rfl rfl rfl rfl rfl rfl rfl | dsimp only

end Sys2Proof.Machine
end

