-- ==== Sys2Proof/Laws/KeepsCommit.lean ====
section
/-! SUPPORT. What the operations of Machine/Commit.lean keep. -/

set_option linter.unusedTactic false
set_option linter.unreachableTactic false
set_option linter.unusedVariables false

namespace Sys2Proof.Machine

theorem State.validated_quiet {s0 : State} {s : State} (hq : s0.Quiet s) :
    s0.Quiet (State.validated s) := by
  unfold State.validated
  repeat' first | with_reducible assumption | with_reducible apply State.drawn_quiet | split | with_reducible refine State.Quiet.of_fst (by assumption) ?_

theorem State.slotsLeaving_quiet {s0 : State} {s : State} {old new : PSet} (hq : s0.Quiet s) :
    s0.Quiet (State.slotsLeaving s old new) := by
  unfold State.slotsLeaving
  repeat' first | with_reducible assumption | with_reducible apply State.setSlot_quiet | with_reducible apply State.Quiet.foldl | with_reducible exact State.Quiet.refl _ | with_reducible intro _ _ | split | with_reducible refine State.Quiet.of_fst (by assumption) ?_ | dsimp only

theorem State.acceptCommit_quiet {s0 : State} {s : State} {named : Option TS96} {client request : Nat} {ens : Option (BitVec 64 × Nat)} (hq : s0.Quiet s) :
    s0.Quiet (State.acceptCommit s named client request ens).1 := by
  unfold State.acceptCommit
  try extract_lets y1 y2 y3 y4 y5 y6 y7 y8 y9 y10 y11 y12 y13
  try
    have k10 : s0.Quiet y10 := by
      dsimp only [y10]
      repeat' first | with_reducible assumption | with_reducible apply State.roSet_quiet | with_reducible apply State.bump_quiet | with_reducible apply State.slotsLeaving_quiet | with_reducible apply State.basaltSettle_quiet | with_reducible apply State.raise_quiet | with_reducible apply request_quiet | with_reducible apply State.ensRefresh_quiet | with_reducible apply State.Quiet.foldl | with_reducible apply State.Quiet.eachPort | with_reducible exact State.Quiet.refl _ | with_reducible intro _ _ | split | with_reducible refine State.Quiet.of_fst (by assumption) ?_ | fail_if_no_progress with_reducible refine State.Quiet.other ?_ rfl rfl rfl rfl rfl rfl rfl | dsimp only
    clear_value y10
  try
    have k11 : s0.Quiet y11 := by
      dsimp only [y11]
      repeat' first | with_reducible assumption | with_reducible apply State.roSet_quiet | with_reducible apply State.bump_quiet | with_reducible apply State.slotsLeaving_quiet | with_reducible apply State.basaltSettle_quiet | with_reducible apply State.raise_quiet | with_reducible apply request_quiet | with_reducible apply State.ensRefresh_quiet | with_reducible apply State.Quiet.foldl | with_reducible apply State.Quiet.eachPort | with_reducible exact State.Quiet.refl _ | with_reducible intro _ _ | split | with_reducible refine State.Quiet.of_fst (by assumption) ?_ | fail_if_no_progress with_reducible refine State.Quiet.other ?_ rfl rfl rfl rfl rfl rfl rfl | dsimp only
    clear_value y11
  try
    have k12 : s0.Quiet y12 := by
      dsimp only [y12]
      repeat' first | with_reducible assumption | with_reducible apply State.roSet_quiet | with_reducible apply State.bump_quiet | with_reducible apply State.slotsLeaving_quiet | with_reducible apply State.basaltSettle_quiet | with_reducible apply State.raise_quiet | with_reducible apply request_quiet | with_reducible apply State.ensRefresh_quiet | with_reducible apply State.Quiet.foldl | with_reducible apply State.Quiet.eachPort | with_reducible exact State.Quiet.refl _ | with_reducible intro _ _ | split | with_reducible refine State.Quiet.of_fst (by assumption) ?_ | fail_if_no_progress with_reducible refine State.Quiet.other ?_ rfl rfl rfl rfl rfl rfl rfl | dsimp only
    clear_value y12
  repeat' first | with_reducible assumption | with_reducible apply State.roSet_quiet | with_reducible apply State.bump_quiet | with_reducible apply State.slotsLeaving_quiet | with_reducible apply State.basaltSettle_quiet | with_reducible apply State.raise_quiet | with_reducible apply request_quiet | with_reducible apply State.ensRefresh_quiet | with_reducible apply State.Quiet.foldl | with_reducible apply State.Quiet.eachPort | with_reducible exact State.Quiet.refl _ | with_reducible intro _ _ | split | with_reducible refine State.Quiet.of_fst (by assumption) ?_ | fail_if_no_progress with_reducible refine State.Quiet.other ?_ rfl rfl rfl rfl rfl rfl rfl | dsimp only

theorem State.cfgCommit_quiet {s0 : State} {s : State} {h : Hdr} {rev : BitVec 32} {mode : Nat} {named : TS96} (hq : s0.Quiet s) :
    s0.Quiet (State.cfgCommit s h rev mode named).1 := by
  unfold State.cfgCommit
  extract_lets at_ refusal changed r
  have ka : s0.Quiet (State.acceptCommit s.validated at_ h.client.toNat h.request.toNat none).1 := State.acceptCommit_quiet (State.validated_quiet hq)
  change s0.Quiet r.1 at ka
  clear_value r changed refusal
  have kv := State.validated_quiet hq
  repeat' first | with_reducible assumption | with_reducible apply State.bump_quiet | dsimp only | split | fail_if_no_progress with_reducible refine State.Quiet.other ?_ rfl rfl rfl rfl rfl rfl rfl | with_reducible refine State.Quiet.of_fst (by assumption) ?_

theorem execCfgCommit_quiet {s0 : State} {h : Hdr} {rev : BitVec 32} {mode : Nat} {named : TS96} {s : State} (hq : s0.Quiet s) :
    s0.QuietOut (execCfgCommit h rev mode named s) := by
  unfold execCfgCommit
  repeat' first | with_reducible assumption | with_reducible apply State.QuietOut.next | with_reducible exact State.QuietOut.fault | with_reducible apply request_quiet | with_reducible apply State.cfgCommit_quiet | with_reducible apply request_quiet | with_reducible intro _ | with_reducible apply State.Quiet.foldl | with_reducible apply State.Quiet.eachPort | with_reducible exact State.Quiet.refl _ | with_reducible intro _ _ | split | with_reducible refine State.Quiet.of_fst (by assumption) ?_ | fail_if_no_progress with_reducible refine State.Quiet.other ?_ rfl rfl rfl rfl rfl rfl rfl | dsimp only

theorem State.dropPassed_quiet {s0 : State} {s : State} (hq : s0.Quiet s) :
    s0.Quiet (State.dropPassed s) := by
  unfold State.dropPassed
  try extract_lets y1
  repeat' first | with_reducible assumption | split | with_reducible refine State.Quiet.of_fst (by assumption) ?_ | fail_if_no_progress with_reducible refine State.Quiet.other ?_ rfl rfl rfl rfl rfl rfl rfl | dsimp only

theorem State.loadPort_quiet {s0 : State} {s : State} {p : Port} {c : Commit} (hq : s0.Quiet s) :
    s0.Quiet (State.loadPort s p c) := by
  unfold State.loadPort
  extract_lets y1 y2 y3 y4 y5 y6 y7 y8 y9 y10 y11 y12 y13 y14 y15 y16 y17 y18
  first
    | (have k5 : s0.Quiet y5 := by (dsimp only [y5]; repeat' first | with_reducible assumption | with_reducible apply State.roSet_quiet | with_reducible apply State.portAtF_quiet | with_reducible apply State.runDue_quiet | with_reducible apply State.streamsAtF_quiet | with_reducible apply State.strataRetention_quiet | with_reducible apply State.basaltAtF_quiet | with_reducible apply State.Quiet.foldl | with_reducible apply State.Quiet.eachPort | with_reducible exact State.Quiet.refl _ | with_reducible intro _ _ | split | with_reducible refine State.Quiet.of_fst (by assumption) ?_ | fail_if_no_progress with_reducible refine State.Quiet.other ?_ rfl rfl rfl rfl rfl rfl rfl | dsimp only)
       clear_value y5)
    | skip
  first
    | (have k6 : s0.Quiet y6 := by (dsimp only [y6]; repeat' first | with_reducible assumption | with_reducible apply State.roSet_quiet | with_reducible apply State.portAtF_quiet | with_reducible apply State.runDue_quiet | with_reducible apply State.streamsAtF_quiet | with_reducible apply State.strataRetention_quiet | with_reducible apply State.basaltAtF_quiet | with_reducible apply State.Quiet.foldl | with_reducible apply State.Quiet.eachPort | with_reducible exact State.Quiet.refl _ | with_reducible intro _ _ | split | with_reducible refine State.Quiet.of_fst (by assumption) ?_ | fail_if_no_progress with_reducible refine State.Quiet.other ?_ rfl rfl rfl rfl rfl rfl rfl | dsimp only)
       clear_value y6)
    | skip
  first
    | (have k7 : s0.Quiet y7 := by (dsimp only [y7]; repeat' first | with_reducible assumption | with_reducible apply State.roSet_quiet | with_reducible apply State.portAtF_quiet | with_reducible apply State.runDue_quiet | with_reducible apply State.streamsAtF_quiet | with_reducible apply State.strataRetention_quiet | with_reducible apply State.basaltAtF_quiet | with_reducible apply State.Quiet.foldl | with_reducible apply State.Quiet.eachPort | with_reducible exact State.Quiet.refl _ | with_reducible intro _ _ | split | with_reducible refine State.Quiet.of_fst (by assumption) ?_ | fail_if_no_progress with_reducible refine State.Quiet.other ?_ rfl rfl rfl rfl rfl rfl rfl | dsimp only)
       clear_value y7)
    | skip
  first
    | (have k8 : s0.Quiet y8 := by (dsimp only [y8]; repeat' first | with_reducible assumption | with_reducible apply State.roSet_quiet | with_reducible apply State.portAtF_quiet | with_reducible apply State.runDue_quiet | with_reducible apply State.streamsAtF_quiet | with_reducible apply State.strataRetention_quiet | with_reducible apply State.basaltAtF_quiet | with_reducible apply State.Quiet.foldl | with_reducible apply State.Quiet.eachPort | with_reducible exact State.Quiet.refl _ | with_reducible intro _ _ | split | with_reducible refine State.Quiet.of_fst (by assumption) ?_ | fail_if_no_progress with_reducible refine State.Quiet.other ?_ rfl rfl rfl rfl rfl rfl rfl | dsimp only)
       clear_value y8)
    | skip
  first
    | (have k9 : s0.Quiet y9 := by (dsimp only [y9]; repeat' first | with_reducible assumption | with_reducible apply State.roSet_quiet | with_reducible apply State.portAtF_quiet | with_reducible apply State.runDue_quiet | with_reducible apply State.streamsAtF_quiet | with_reducible apply State.strataRetention_quiet | with_reducible apply State.basaltAtF_quiet | with_reducible apply State.Quiet.foldl | with_reducible apply State.Quiet.eachPort | with_reducible exact State.Quiet.refl _ | with_reducible intro _ _ | split | with_reducible refine State.Quiet.of_fst (by assumption) ?_ | fail_if_no_progress with_reducible refine State.Quiet.other ?_ rfl rfl rfl rfl rfl rfl rfl | dsimp only)
       clear_value y9)
    | skip
  first
    | (have k10 : s0.Quiet y10 := by (dsimp only [y10]; repeat' first | with_reducible assumption | with_reducible apply State.roSet_quiet | with_reducible apply State.portAtF_quiet | with_reducible apply State.runDue_quiet | with_reducible apply State.streamsAtF_quiet | with_reducible apply State.strataRetention_quiet | with_reducible apply State.basaltAtF_quiet | with_reducible apply State.Quiet.foldl | with_reducible apply State.Quiet.eachPort | with_reducible exact State.Quiet.refl _ | with_reducible intro _ _ | split | with_reducible refine State.Quiet.of_fst (by assumption) ?_ | fail_if_no_progress with_reducible refine State.Quiet.other ?_ rfl rfl rfl rfl rfl rfl rfl | dsimp only)
       clear_value y10)
    | skip
  first
    | (have k11 : s0.Quiet y11 := by (dsimp only [y11]; repeat' first | with_reducible assumption | with_reducible apply State.roSet_quiet | with_reducible apply State.portAtF_quiet | with_reducible apply State.runDue_quiet | with_reducible apply State.streamsAtF_quiet | with_reducible apply State.strataRetention_quiet | with_reducible apply State.basaltAtF_quiet | with_reducible apply State.Quiet.foldl | with_reducible apply State.Quiet.eachPort | with_reducible exact State.Quiet.refl _ | with_reducible intro _ _ | split | with_reducible refine State.Quiet.of_fst (by assumption) ?_ | fail_if_no_progress with_reducible refine State.Quiet.other ?_ rfl rfl rfl rfl rfl rfl rfl | dsimp only)
       clear_value y11)
    | skip
  first
    | (have k12 : s0.Quiet y12 := by (dsimp only [y12]; repeat' first | with_reducible assumption | with_reducible apply State.roSet_quiet | with_reducible apply State.portAtF_quiet | with_reducible apply State.runDue_quiet | with_reducible apply State.streamsAtF_quiet | with_reducible apply State.strataRetention_quiet | with_reducible apply State.basaltAtF_quiet | with_reducible apply State.Quiet.foldl | with_reducible apply State.Quiet.eachPort | with_reducible exact State.Quiet.refl _ | with_reducible intro _ _ | split | with_reducible refine State.Quiet.of_fst (by assumption) ?_ | fail_if_no_progress with_reducible refine State.Quiet.other ?_ rfl rfl rfl rfl rfl rfl rfl | dsimp only)
       clear_value y12)
    | skip
  first
    | (have k13 : s0.Quiet y13 := by (dsimp only [y13]; repeat' first | with_reducible assumption | with_reducible apply State.roSet_quiet | with_reducible apply State.portAtF_quiet | with_reducible apply State.runDue_quiet | with_reducible apply State.streamsAtF_quiet | with_reducible apply State.strataRetention_quiet | with_reducible apply State.basaltAtF_quiet | with_reducible apply State.Quiet.foldl | with_reducible apply State.Quiet.eachPort | with_reducible exact State.Quiet.refl _ | with_reducible intro _ _ | split | with_reducible refine State.Quiet.of_fst (by assumption) ?_ | fail_if_no_progress with_reducible refine State.Quiet.other ?_ rfl rfl rfl rfl rfl rfl rfl | dsimp only)
       clear_value y13)
    | skip
  first
    | (have k14 : s0.Quiet y14 := by (dsimp only [y14]; repeat' first | with_reducible assumption | with_reducible apply State.roSet_quiet | with_reducible apply State.portAtF_quiet | with_reducible apply State.runDue_quiet | with_reducible apply State.streamsAtF_quiet | with_reducible apply State.strataRetention_quiet | with_reducible apply State.basaltAtF_quiet | with_reducible apply State.Quiet.foldl | with_reducible apply State.Quiet.eachPort | with_reducible exact State.Quiet.refl _ | with_reducible intro _ _ | split | with_reducible refine State.Quiet.of_fst (by assumption) ?_ | fail_if_no_progress with_reducible refine State.Quiet.other ?_ rfl rfl rfl rfl rfl rfl rfl | dsimp only)
       clear_value y14)
    | skip
  first
    | (have k15 : s0.Quiet y15 := by (dsimp only [y15]; repeat' first | with_reducible assumption | with_reducible apply State.roSet_quiet | with_reducible apply State.portAtF_quiet | with_reducible apply State.runDue_quiet | with_reducible apply State.streamsAtF_quiet | with_reducible apply State.strataRetention_quiet | with_reducible apply State.basaltAtF_quiet | with_reducible apply State.Quiet.foldl | with_reducible apply State.Quiet.eachPort | with_reducible exact State.Quiet.refl _ | with_reducible intro _ _ | split | with_reducible refine State.Quiet.of_fst (by assumption) ?_ | fail_if_no_progress with_reducible refine State.Quiet.other ?_ rfl rfl rfl rfl rfl rfl rfl | dsimp only)
       clear_value y15)
    | skip
  repeat' first | with_reducible assumption | with_reducible apply State.roSet_quiet | with_reducible apply State.portAtF_quiet | with_reducible apply State.runDue_quiet | with_reducible apply State.streamsAtF_quiet | with_reducible apply State.strataRetention_quiet | with_reducible apply State.basaltAtF_quiet | with_reducible apply State.Quiet.foldl | with_reducible apply State.Quiet.eachPort | with_reducible exact State.Quiet.refl _ | with_reducible intro _ _ | split | with_reducible refine State.Quiet.of_fst (by assumption) ?_ | fail_if_no_progress with_reducible refine State.Quiet.other ?_ rfl rfl rfl rfl rfl rfl rfl | dsimp only

theorem State.rediscoverAtF_quiet {s0 : State} {s : State} {p : Port} (hq : s0.Quiet s) :
    s0.Quiet (State.rediscoverAtF s p) := by
  unfold State.rediscoverAtF
  try extract_lets y1 y2 y3
  repeat' first | with_reducible assumption | with_reducible apply State.discover_quiet | with_reducible apply State.setPortSt_quiet | with_reducible apply State.Quiet.foldl | with_reducible apply State.Quiet.eachPort | with_reducible exact State.Quiet.refl _ | with_reducible intro _ _ | split | with_reducible refine State.Quiet.of_fst (by assumption) ?_ | fail_if_no_progress with_reducible refine State.Quiet.other ?_ rfl rfl rfl rfl rfl rfl rfl | dsimp only

theorem State.commitPort_quiet {s0 : State} {s : State} {p : Port} (hq : s0.Quiet s) :
    s0.Quiet (State.commitPort s p) := by
  unfold State.commitPort
  try extract_lets y1 y2
  repeat' first | with_reducible assumption | with_reducible apply State.loadPort_quiet | with_reducible apply State.rediscoverAtF_quiet | with_reducible apply State.dropPassed_quiet | with_reducible apply State.Quiet.foldl | with_reducible apply State.Quiet.eachPort | with_reducible exact State.Quiet.refl _ | with_reducible intro _ _ | split | with_reducible refine State.Quiet.of_fst (by assumption) ?_ | fail_if_no_progress with_reducible refine State.Quiet.other ?_ rfl rfl rfl rfl rfl rfl rfl | dsimp only

theorem State.actionDue_quiet {s0 : State} {s : State} {e : Key × Nat} (hq : s0.Quiet s) :
    s0.Quiet (State.actionDue s e) := by
  unfold State.actionDue
  repeat' first | with_reducible assumption | with_reducible apply State.Quiet.foldl | with_reducible apply State.Quiet.eachPort | with_reducible exact State.Quiet.refl _ | with_reducible intro _ _ | split | with_reducible refine State.Quiet.of_fst (by assumption) ?_ | fail_if_no_progress with_reducible refine State.Quiet.other ?_ rfl rfl rfl rfl rfl rfl rfl | dsimp only

theorem State.loadGlobal_quiet {s0 : State} {s : State} {c : Commit} {wrote : Bool} (hq : s0.Quiet s) :
    s0.Quiet (State.loadGlobal s c wrote) := by
  unfold State.loadGlobal
  try extract_lets y1 y2 y3 y4 y5
  try
    have k3 : s0.Quiet y3 := by
      dsimp only [y3]
      repeat' first | with_reducible assumption | with_reducible apply State.lockAtF_quiet | with_reducible apply State.timeFieldsAtF_quiet | with_reducible apply State.streamsAtF_quiet | with_reducible apply State.strataAtF_quiet | with_reducible apply State.triggerAtF_quiet | with_reducible apply State.publishRegions_quiet | with_reducible apply State.regrant_quiet | with_reducible apply State.ensAtF_quiet | with_reducible apply State.Quiet.foldl | with_reducible apply State.Quiet.eachPort | with_reducible exact State.Quiet.refl _ | with_reducible intro _ _ | split | with_reducible refine State.Quiet.of_fst (by assumption) ?_ | fail_if_no_progress with_reducible refine State.Quiet.other ?_ rfl rfl rfl rfl rfl rfl rfl | dsimp only
    clear_value y3
  try
    have k4 : s0.Quiet y4 := by
      dsimp only [y4]
      repeat' first | with_reducible assumption | with_reducible apply State.lockAtF_quiet | with_reducible apply State.timeFieldsAtF_quiet | with_reducible apply State.streamsAtF_quiet | with_reducible apply State.strataAtF_quiet | with_reducible apply State.triggerAtF_quiet | with_reducible apply State.publishRegions_quiet | with_reducible apply State.regrant_quiet | with_reducible apply State.ensAtF_quiet | with_reducible apply State.Quiet.foldl | with_reducible apply State.Quiet.eachPort | with_reducible exact State.Quiet.refl _ | with_reducible intro _ _ | split | with_reducible refine State.Quiet.of_fst (by assumption) ?_ | fail_if_no_progress with_reducible refine State.Quiet.other ?_ rfl rfl rfl rfl rfl rfl rfl | dsimp only
    clear_value y4
  repeat' first | with_reducible assumption | with_reducible apply State.lockAtF_quiet | with_reducible apply State.timeFieldsAtF_quiet | with_reducible apply State.streamsAtF_quiet | with_reducible apply State.strataAtF_quiet | with_reducible apply State.triggerAtF_quiet | with_reducible apply State.publishRegions_quiet | with_reducible apply State.regrant_quiet | with_reducible apply State.ensAtF_quiet | with_reducible apply State.Quiet.foldl | with_reducible apply State.Quiet.eachPort | with_reducible exact State.Quiet.refl _ | with_reducible intro _ _ | split | with_reducible refine State.Quiet.of_fst (by assumption) ?_ | fail_if_no_progress with_reducible refine State.Quiet.other ?_ rfl rfl rfl rfl rfl rfl rfl | dsimp only

theorem State.commitGlobal_quiet {s0 : State} {s : State} (hq : s0.Quiet s) :
    s0.Quiet (State.commitGlobal s) := by
  unfold State.commitGlobal
  try extract_lets y1 y2
  repeat' first | with_reducible assumption | with_reducible apply State.loadGlobal_quiet | with_reducible apply State.lockAtF_quiet | with_reducible apply State.actionDue_quiet | with_reducible apply State.dropPassed_quiet | with_reducible apply State.Quiet.foldl | with_reducible apply State.Quiet.eachPort | with_reducible exact State.Quiet.refl _ | with_reducible intro _ _ | split | with_reducible refine State.Quiet.of_fst (by assumption) ?_ | fail_if_no_progress with_reducible refine State.Quiet.other ?_ rfl rfl rfl rfl rfl rfl rfl | dsimp only

theorem State.commitAtStrobe_quiet {s0 : State} {s : State} {p : Port} (hq : s0.Quiet s) :
    s0.Quiet (State.commitAtStrobe s p) := by
  unfold State.commitAtStrobe
  try extract_lets y1
  try
    have k1 : s0.Quiet y1 := by
      dsimp only [y1]
      repeat' first | with_reducible assumption | with_reducible apply State.commitPort_quiet | with_reducible apply State.commitGlobal_quiet | with_reducible apply State.Quiet.foldl | with_reducible apply State.Quiet.eachPort | with_reducible exact State.Quiet.refl _ | with_reducible intro _ _ | split | with_reducible refine State.Quiet.of_fst (by assumption) ?_ | fail_if_no_progress with_reducible refine State.Quiet.other ?_ rfl rfl rfl rfl rfl rfl rfl
    clear_value y1
  repeat' first | with_reducible assumption | with_reducible apply State.commitPort_quiet | with_reducible apply State.commitGlobal_quiet | with_reducible apply State.Quiet.foldl | with_reducible apply State.Quiet.eachPort | with_reducible exact State.Quiet.refl _ | with_reducible intro _ _ | split | with_reducible refine State.Quiet.of_fst (by assumption) ?_ | fail_if_no_progress with_reducible refine State.Quiet.other ?_ rfl rfl rfl rfl rfl rfl rfl | dsimp only

theorem execCommitFTick_quiet {s0 : State} {t : Tick} {port : Option Port} {s : State} (hq : s0.Quiet s) :
    s0.QuietOut (execCommitFTick t port s) := by
  unfold execCommitFTick
  try extract_lets y1
  try
    have k1 : s0.Quiet y1 := by
      dsimp only [y1]
      repeat' first | with_reducible assumption | with_reducible apply State.at_quiet | with_reducible apply State.commitPort_quiet | with_reducible apply State.commitGlobal_quiet | with_reducible apply State.Quiet.foldl | with_reducible apply State.Quiet.eachPort | with_reducible exact State.Quiet.refl _ | with_reducible intro _ _ | split | with_reducible refine State.Quiet.of_fst (by assumption) ?_ | fail_if_no_progress with_reducible refine State.Quiet.other ?_ rfl rfl rfl rfl rfl rfl rfl
    clear_value y1
  repeat' first | with_reducible assumption | with_reducible apply State.QuietOut.next | with_reducible exact State.QuietOut.fault | with_reducible apply State.at_quiet | with_reducible apply State.commitPort_quiet | with_reducible apply State.commitGlobal_quiet | with_reducible apply State.Quiet.foldl | with_reducible apply State.Quiet.eachPort | with_reducible exact State.Quiet.refl _ | with_reducible intro _ _ | split | with_reducible refine State.Quiet.of_fst (by assumption) ?_ | fail_if_no_progress with_reducible refine State.Quiet.other ?_ rfl rfl rfl rfl rfl rfl rfl | dsimp only

end Sys2Proof.Machine
end

