-- ==== Sys2Proof/Laws/KeepsLoads.lean ====
section
/-! SUPPORT. What the operations of Machine/Loads.lean keep. -/

set_option linter.unusedTactic false
set_option linter.unreachableTactic false
set_option linter.unusedVariables false

namespace Sys2Proof.Machine

theorem State.putImage_quiet {s0 : State} {s : State} {k : Nat} {im : List Byte} {loading : Option (BitVec 64 × Nat × Bool × List Byte)} (hq : s0.Quiet s) :
    s0.Quiet (State.putImage s k im loading) := by
  unfold State.putImage
  try extract_lets y1
  repeat' first | with_reducible assumption | with_reducible apply State.setSlot_quiet | with_reducible apply State.publishImage_quiet | split | with_reducible refine State.Quiet.of_fst (by assumption) ?_

theorem State.loadChunk_quiet {s0 : State} {s : State} {client : BitVec 64} {k flags imageBytes : Nat} {got data : List Byte} (hq : s0.Quiet s) :
    s0.Quiet (State.loadChunk s client k flags imageBytes got data).1 := by
  unfold State.loadChunk
  try extract_lets y1 y2
  repeat' first | with_reducible assumption | with_reducible apply State.putImage_quiet | split | with_reducible refine State.Quiet.of_fst (by assumption) ?_

theorem State.kernelLoad_quiet {s0 : State} {s : State} {client : BitVec 64} {k flags offset imageBytes : Nat} {data : List Byte} (hq : s0.Quiet s) :
    s0.Quiet (State.kernelLoad s client k flags offset imageBytes data).1 := by
  unfold State.kernelLoad
  try extract_lets y1
  repeat' first | with_reducible assumption | with_reducible apply State.loadChunk_quiet | with_reducible apply State.setSlot_quiet | split | with_reducible refine State.Quiet.of_fst (by assumption) ?_ | dsimp only

theorem execKernelLoad_quiet {s0 : State} {h : Hdr} {slot flags offset imageBytes : Nat} {data : List Byte} {s : State} (hq : s0.Quiet s) :
    s0.QuietOut (execKernelLoad h slot flags offset imageBytes data s) := by
  unfold execKernelLoad
  repeat' first | with_reducible assumption | with_reducible apply State.QuietOut.next | with_reducible exact State.QuietOut.fault | with_reducible apply request_quiet | with_reducible apply State.kernelLoad_quiet | with_reducible apply request_quiet | with_reducible intro _ | with_reducible apply State.Quiet.foldl | with_reducible apply State.Quiet.eachPort | with_reducible exact State.Quiet.refl _ | with_reducible intro _ _ | split | with_reducible refine State.Quiet.of_fst (by assumption) ?_ | fail_if_no_progress with_reducible refine State.Quiet.other ?_ rfl rfl rfl rfl rfl rfl rfl | dsimp only

theorem State.kernelUnload_quiet {s0 : State} {s : State} {k : Nat} (hq : s0.Quiet s) :
    s0.Quiet (State.kernelUnload s k).1 := by
  unfold State.kernelUnload
  try extract_lets y1 y2
  try
    have k2 : s0.Quiet y2 := by
      dsimp only [y2]
      repeat' first | with_reducible assumption | with_reducible apply State.putImage_quiet | with_reducible apply State.Quiet.foldl | with_reducible apply State.Quiet.eachPort | with_reducible exact State.Quiet.refl _ | with_reducible intro _ _ | split | with_reducible refine State.Quiet.of_fst (by assumption) ?_ | fail_if_no_progress with_reducible refine State.Quiet.other ?_ rfl rfl rfl rfl rfl rfl rfl
    clear_value y2
  repeat' first | with_reducible assumption | with_reducible apply State.putImage_quiet | with_reducible apply State.Quiet.foldl | with_reducible apply State.Quiet.eachPort | with_reducible exact State.Quiet.refl _ | with_reducible intro _ _ | split | with_reducible refine State.Quiet.of_fst (by assumption) ?_ | fail_if_no_progress with_reducible refine State.Quiet.other ?_ rfl rfl rfl rfl rfl rfl rfl | dsimp only

theorem execKernelUnload_quiet {s0 : State} {h : Hdr} {slot : Nat} {s : State} (hq : s0.Quiet s) :
    s0.QuietOut (execKernelUnload h slot s) := by
  unfold execKernelUnload
  repeat' first | with_reducible assumption | with_reducible apply State.QuietOut.next | with_reducible exact State.QuietOut.fault | with_reducible apply request_quiet | with_reducible apply State.kernelUnload_quiet | with_reducible apply request_quiet | with_reducible intro _ | with_reducible apply State.Quiet.foldl | with_reducible apply State.Quiet.eachPort | with_reducible exact State.Quiet.refl _ | with_reducible intro _ _ | split | with_reducible refine State.Quiet.of_fst (by assumption) ?_ | fail_if_no_progress with_reducible refine State.Quiet.other ?_ rfl rfl rfl rfl rfl rfl rfl | dsimp only

theorem execKernelSnapshot_quiet {s0 : State} {h : Hdr} {core offset length : Nat} {s : State} (hq : s0.Quiet s) :
    s0.QuietOut (execKernelSnapshot h core offset length s) := by
  unfold execKernelSnapshot
  repeat' first | with_reducible assumption | with_reducible apply State.QuietOut.next | with_reducible exact State.QuietOut.fault | with_reducible apply request_quiet | with_reducible apply request_quiet | with_reducible intro _ | with_reducible apply State.Quiet.foldl | with_reducible apply State.Quiet.eachPort | with_reducible exact State.Quiet.refl _ | with_reducible intro _ _ | split | with_reducible refine State.Quiet.of_fst (by assumption) ?_ | fail_if_no_progress with_reducible refine State.Quiet.other ?_ rfl rfl rfl rfl rfl rfl rfl | dsimp only

theorem State.captureFor_quiet {s0 : State} {s : State} {trig : Stamp} {prof : Nat} (hq : s0.Quiet s) :
    s0.Quiet (State.captureFor s trig prof).1 := by
  unfold State.captureFor
  repeat' first | with_reducible assumption | with_reducible apply State.openCapture_quiet | split | fail_if_no_progress with_reducible refine State.Quiet.other ?_ rfl rfl rfl rfl rfl rfl rfl | with_reducible refine State.Quiet.of_fst (by assumption) ?_

theorem State.captureAt_quiet {s0 : State} {s : State} {trigger : TS96} {prof : Nat} (hq : s0.Quiet s) :
    s0.Quiet (State.captureAt s trigger prof).1 := by
  unfold State.captureAt
  repeat' first | with_reducible assumption | with_reducible apply State.captureFor_quiet | split | fail_if_no_progress with_reducible refine State.Quiet.other ?_ rfl rfl rfl rfl rfl rfl rfl | with_reducible refine State.Quiet.of_fst (by assumption) ?_

theorem State.captureAt_runs {f : State → State × Answer} {trigger : TS96} {prof : Nat} (hf : ∀ y, f y = y.captureAt trigger prof) (y : State) : y.Quiet (f y).1 := by
  rw [hf]
  exact State.captureAt_quiet (State.Quiet.refl y)

theorem execCaptureAt_quiet {s0 : State} {h : Hdr} {trigger : TS96} {profile : Nat} {s : State} (hq : s0.Quiet s) :
    s0.QuietOut (execCaptureAt h trigger profile s) := by
  unfold execCaptureAt
  split
  · exact State.QuietOut.next (State.servePeer_quiet (State.captureAt_runs fun _ => rfl) hq)
  · exact request_quiet (State.captureAt_runs fun _ => rfl) hq

theorem State.captureSend_quiet {s0 : State} {s : State} {n sid : Nat} (hq : s0.Quiet s) :
    s0.Quiet (State.captureSend s n sid).1 := by
  unfold State.captureSend
  repeat' first | with_reducible assumption | with_reducible apply State.sendCapture_quiet | split | with_reducible refine State.Quiet.of_fst (by assumption) ?_ | dsimp only

theorem execCaptureSend_quiet {s0 : State} {h : Hdr} {capture stream : Nat} {s : State} (hq : s0.Quiet s) :
    s0.QuietOut (execCaptureSend h capture stream s) := by
  unfold execCaptureSend
  repeat' first | with_reducible assumption | with_reducible apply State.QuietOut.next | with_reducible exact State.QuietOut.fault | with_reducible apply request_quiet | with_reducible apply State.captureSend_quiet | with_reducible apply request_quiet | with_reducible intro _ | with_reducible apply State.Quiet.foldl | with_reducible apply State.Quiet.eachPort | with_reducible exact State.Quiet.refl _ | with_reducible intro _ _ | split | with_reducible refine State.Quiet.of_fst (by assumption) ?_ | fail_if_no_progress with_reducible refine State.Quiet.other ?_ rfl rfl rfl rfl rfl rfl rfl | dsimp only

theorem State.captureDerive_quiet {s0 : State} {s : State} {r : DeriveReq} (hq : s0.Quiet s) :
    s0.Quiet (State.captureDerive s r).1 := by
  unfold State.captureDerive
  try extract_lets y1 y2 y3
  try
    have k3 : s0.Quiet y3 := by
      dsimp only [y3]
      repeat' first | with_reducible assumption | with_reducible apply State.modCapture_quiet | with_reducible apply State.Quiet.foldl | with_reducible apply State.Quiet.eachPort | with_reducible exact State.Quiet.refl _ | with_reducible intro _ _ | split | with_reducible refine State.Quiet.of_fst (by assumption) ?_ | fail_if_no_progress with_reducible refine State.Quiet.other ?_ rfl rfl rfl rfl rfl rfl rfl
    clear_value y3
  repeat' first | with_reducible assumption | with_reducible apply State.modCapture_quiet | with_reducible apply State.Quiet.foldl | with_reducible apply State.Quiet.eachPort | with_reducible exact State.Quiet.refl _ | with_reducible intro _ _ | split | with_reducible refine State.Quiet.of_fst (by assumption) ?_ | fail_if_no_progress with_reducible refine State.Quiet.other ?_ rfl rfl rfl rfl rfl rfl rfl | dsimp only

theorem execCaptureDerive_quiet {s0 : State} {h : Hdr} {req : DeriveReq} {s : State} (hq : s0.Quiet s) :
    s0.QuietOut (execCaptureDerive h req s) := by
  unfold execCaptureDerive
  try extract_lets y1
  repeat' first | with_reducible assumption | with_reducible apply State.QuietOut.next | with_reducible exact State.QuietOut.fault | with_reducible apply request_quiet | with_reducible exact State.Quiet.refl _ | with_reducible intro _ | dsimp only | with_reducible apply State.captureDerive_quiet | with_reducible apply State.Quiet.foldl | with_reducible apply State.Quiet.eachPort | with_reducible exact State.Quiet.refl _ | with_reducible intro _ _ | split | with_reducible refine State.Quiet.of_fst (by assumption) ?_ | fail_if_no_progress with_reducible refine State.Quiet.other ?_ rfl rfl rfl rfl rfl rfl rfl | dsimp only

theorem State.captureRelease_quiet {s0 : State} {s : State} {n : Nat} (hq : s0.Quiet s) :
    s0.Quiet (State.captureRelease s n).1 := by
  unfold State.captureRelease
  repeat' first | with_reducible assumption | with_reducible apply State.releaseCapture_quiet | split | with_reducible refine State.Quiet.of_fst (by assumption) ?_ | dsimp only

theorem execCaptureRelease_quiet {s0 : State} {h : Hdr} {capture : Nat} {s : State} (hq : s0.Quiet s) :
    s0.QuietOut (execCaptureRelease h capture s) := by
  unfold execCaptureRelease
  try extract_lets y1
  repeat' first | with_reducible assumption | with_reducible apply State.QuietOut.next | with_reducible exact State.QuietOut.fault | with_reducible apply request_quiet | with_reducible exact State.Quiet.refl _ | with_reducible intro _ | dsimp only | with_reducible apply State.captureRelease_quiet | with_reducible apply State.Quiet.foldl | with_reducible apply State.Quiet.eachPort | with_reducible exact State.Quiet.refl _ | with_reducible intro _ _ | split | with_reducible refine State.Quiet.of_fst (by assumption) ?_ | fail_if_no_progress with_reducible refine State.Quiet.other ?_ rfl rfl rfl rfl rfl rfl rfl | dsimp only

theorem execCaptureList_quiet {s0 : State} {h : Hdr} {cursor : Nat} {s : State} (hq : s0.Quiet s) :
    s0.QuietOut (execCaptureList h cursor s) := by
  unfold execCaptureList
  try extract_lets y1
  repeat' first | with_reducible assumption | with_reducible apply State.QuietOut.next | with_reducible exact State.QuietOut.fault | with_reducible apply request_quiet | with_reducible exact State.Quiet.refl _ | with_reducible intro _ | dsimp only | with_reducible apply State.Quiet.foldl | with_reducible apply State.Quiet.eachPort | with_reducible exact State.Quiet.refl _ | with_reducible intro _ _ | split | with_reducible refine State.Quiet.of_fst (by assumption) ?_ | fail_if_no_progress with_reducible refine State.Quiet.other ?_ rfl rfl rfl rfl rfl rfl rfl | dsimp only

end Sys2Proof.Machine
end

