-- ==== Sys2Proof/Laws/KeepsEnsemble.lean ====
section
/-! SUPPORT. What the operations of Machine/Ensemble.lean keep. -/

set_option linter.unusedTactic false
set_option linter.unreachableTactic false
set_option linter.unusedVariables false

namespace Sys2Proof.Machine

theorem execDnssdPeerFound_quiet {s0 : State} {t : Tick} {id : BitVec 64} {_addr : BitVec 128} {s : State} (hq : s0.Quiet s) :
    s0.QuietOut (execDnssdPeerFound t id _addr s) := by
  unfold execDnssdPeerFound
  try extract_lets y1
  try
    have k1 : s0.Quiet y1 := by
      dsimp only [y1]
      repeat' first | with_reducible assumption | with_reducible apply State.at_quiet | split | with_reducible refine State.Quiet.of_fst (by assumption) ?_
    clear_value y1
  repeat' first | with_reducible assumption | with_reducible apply State.QuietOut.next | with_reducible exact State.QuietOut.fault | with_reducible apply State.contact_quiet | split | with_reducible refine State.Quiet.of_fst (by assumption) ?_

theorem State.admit_quiet {s0 : State} {s : State} {h : Heartbeat} (hq : s0.Quiet s) :
    s0.Quiet (State.enlist s h) := by
  unfold State.enlist
  try extract_lets y1 y2 y3
  repeat' first | with_reducible assumption | with_reducible apply State.raise_quiet | with_reducible apply State.withEns_quiet | with_reducible apply State.ensRefresh_quiet | with_reducible apply State.Quiet.foldl | with_reducible apply State.Quiet.eachPort | with_reducible exact State.Quiet.refl _ | with_reducible intro _ _ | split | with_reducible refine State.Quiet.of_fst (by assumption) ?_ | fail_if_no_progress with_reducible refine State.Quiet.other ?_ rfl rfl rfl rfl rfl rfl rfl | dsimp only

theorem State.dropMember_quiet {s0 : State} {s : State} {id : BitVec 64} (hq : s0.Quiet s) :
    s0.Quiet (State.dropMember s id) := by
  unfold State.dropMember
  try extract_lets y1
  repeat' first | with_reducible assumption | with_reducible apply State.withEns_quiet | with_reducible apply State.ensRefresh_quiet | split | with_reducible refine State.Quiet.of_fst (by assumption) ?_ | fail_if_no_progress with_reducible refine State.Quiet.other ?_ rfl rfl rfl rfl rfl rfl rfl | dsimp only

theorem execHeartbeat_quiet {s0 : State} {t : Tick} {m : Heartbeat} {s : State} (hq : s0.Quiet s) :
    s0.QuietOut (execHeartbeat t m s) := by
  unfold execHeartbeat
  extract_lets y1 y2
  have k1 : s0.Quiet y1 := State.at_quiet hq
  have k2 : s0.Quiet y2 := by
    dsimp only [y2]
    split
    · exact State.admit_quiet k1
    · exact State.ensRefresh_quiet (State.setMember_quiet k1)
  split
  · exact State.QuietOut.next k1
  · split
    · apply State.QuietOut.next
      split
      · exact State.dropMember_quiet k1
      · exact k1
    · apply State.QuietOut.next
      split
      · exact State.sendTable_quiet k2
      · exact k2

theorem execHeartbeatSend_quiet {s0 : State} {t : Tick} {s : State} (hq : s0.Quiet s) :
    s0.QuietOut (execHeartbeatSend t s) := by
  unfold execHeartbeatSend
  try extract_lets y1 y2
  try
    have k1 : s0.Quiet y1 := by
      dsimp only [y1]
      repeat' first | with_reducible assumption | with_reducible apply State.QuietOut.next | with_reducible exact State.QuietOut.fault | with_reducible apply State.at_quiet | with_reducible apply State.withEns_quiet | with_reducible apply State.beat_quiet | with_reducible apply State.emit_quiet | with_reducible apply State.Quiet.foldl | with_reducible apply State.Quiet.eachPort | with_reducible exact State.Quiet.refl _ | with_reducible intro _ _ | split | with_reducible refine State.Quiet.of_fst (by assumption) ?_ | fail_if_no_progress with_reducible refine State.Quiet.other ?_ rfl rfl rfl rfl rfl rfl rfl | dsimp only
    clear_value y1
  repeat' first | with_reducible assumption | with_reducible apply State.QuietOut.next | with_reducible exact State.QuietOut.fault | with_reducible apply State.at_quiet | with_reducible apply State.withEns_quiet | with_reducible apply State.beat_quiet | with_reducible apply State.emit_quiet | with_reducible apply State.Quiet.foldl | with_reducible apply State.Quiet.eachPort | with_reducible exact State.Quiet.refl _ | with_reducible intro _ _ | split | with_reducible refine State.Quiet.of_fst (by assumption) ?_ | fail_if_no_progress with_reducible refine State.Quiet.other ?_ rfl rfl rfl rfl rfl rfl rfl | dsimp only

theorem execTable_quiet {s0 : State} {t : Tick} {from_ : BitVec 64} {members : List (BitVec 64)} {s : State} (hq : s0.Quiet s) :
    s0.QuietOut (execTable t from_ members s) := by
  unfold execTable
  try extract_lets y1 y2 y3 y4
  try
    have k1 : s0.Quiet y1 := by
      dsimp only [y1]
      repeat' first | with_reducible assumption | with_reducible apply State.at_quiet | split | with_reducible refine State.Quiet.of_fst (by assumption) ?_
    clear_value y1
  try
    have k2 : s0.Quiet y2 := by
      dsimp only [y2]
      repeat' first | with_reducible assumption | with_reducible apply State.heardFrom_quiet | with_reducible apply State.useConn_quiet | split | with_reducible refine State.Quiet.of_fst (by assumption) ?_
    clear_value y2
  try
    have k4 : s0.Quiet y4 := by
      dsimp only [y4]
      repeat' first | with_reducible assumption | with_reducible apply State.contact_quiet | with_reducible apply State.Quiet.foldl | with_reducible exact State.Quiet.refl _ | with_reducible intro _ _ | split | with_reducible refine State.Quiet.of_fst (by assumption) ?_
    clear_value y4
  repeat' first | with_reducible assumption | with_reducible apply State.QuietOut.next | with_reducible exact State.QuietOut.fault | with_reducible apply State.sendTable_quiet | split | with_reducible refine State.Quiet.of_fst (by assumption) ?_ | dsimp only

theorem execPeerConnectionIdle_quiet {s0 : State} {t : Tick} {peer : BitVec 64} {s : State} (hq : s0.Quiet s) :
    s0.QuietOut (execPeerConnectionIdle t peer s) := by
  unfold execPeerConnectionIdle
  try extract_lets y1 y2
  try
    have k1 : s0.Quiet y1 := by
      dsimp only [y1]
      repeat' first | with_reducible assumption | with_reducible apply State.at_quiet | split | with_reducible refine State.Quiet.of_fst (by assumption) ?_
    clear_value y1
  repeat' first | with_reducible assumption | with_reducible apply State.QuietOut.next | with_reducible exact State.QuietOut.fault | with_reducible apply State.withEns_quiet | with_reducible apply State.emit_quiet | split | with_reducible refine State.Quiet.of_fst (by assumption) ?_ | dsimp only

theorem execMemberLost_quiet {s0 : State} {t : Tick} {id : BitVec 64} {s : State} (hq : s0.Quiet s) :
    s0.QuietOut (execMemberLost t id s) := by
  unfold execMemberLost
  try extract_lets y1
  try
    have k1 : s0.Quiet y1 := by
      dsimp only [y1]
      repeat' first | with_reducible assumption | with_reducible apply State.at_quiet | split | with_reducible refine State.Quiet.of_fst (by assumption) ?_
    clear_value y1
  repeat' first | with_reducible assumption | with_reducible apply State.QuietOut.next | with_reducible exact State.QuietOut.fault | with_reducible apply State.at_quiet | with_reducible apply State.setMember_quiet | with_reducible apply State.ensRefresh_quiet | split | with_reducible refine State.Quiet.of_fst (by assumption) ?_ | fail_if_no_progress with_reducible refine State.Quiet.other ?_ rfl rfl rfl rfl rfl rfl rfl | dsimp only

theorem execMemberForget_quiet {s0 : State} {t : Tick} {id : BitVec 64} {s : State} (hq : s0.Quiet s) :
    s0.QuietOut (execMemberForget t id s) := by
  unfold execMemberForget
  try extract_lets y1
  try
    have k1 : s0.Quiet y1 := by
      dsimp only [y1]
      repeat' first | with_reducible assumption | with_reducible apply State.at_quiet | split | with_reducible refine State.Quiet.of_fst (by assumption) ?_
    clear_value y1
  repeat' first | with_reducible assumption | with_reducible apply State.QuietOut.next | with_reducible exact State.QuietOut.fault | with_reducible apply State.at_quiet | with_reducible apply State.dropMember_quiet | split | with_reducible refine State.Quiet.of_fst (by assumption) ?_ | dsimp only

theorem execEnsForget_quiet {s0 : State} {h : Hdr} {member : BitVec 64} {s : State} (hq : s0.Quiet s) :
    s0.QuietOut (execEnsForget h member s) := by
  unfold execEnsForget
  try extract_lets y1
  repeat' first | with_reducible assumption | with_reducible apply State.QuietOut.next | with_reducible exact State.QuietOut.fault | with_reducible apply request_quiet | with_reducible exact State.Quiet.refl _ | with_reducible intro _ | dsimp only | with_reducible apply State.dropMember_quiet | with_reducible apply State.Quiet.foldl | with_reducible apply State.Quiet.eachPort | with_reducible exact State.Quiet.refl _ | with_reducible intro _ _ | split | with_reducible refine State.Quiet.of_fst (by assumption) ?_ | fail_if_no_progress with_reducible refine State.Quiet.other ?_ rfl rfl rfl rfl rfl rfl rfl | dsimp only

theorem execEnsStatus_quiet {s0 : State} {h : Hdr} {s : State} (hq : s0.Quiet s) :
    s0.QuietOut (execEnsStatus h s) := by
  unfold execEnsStatus
  try extract_lets y1
  repeat' first | with_reducible assumption | with_reducible apply State.QuietOut.next | with_reducible exact State.QuietOut.fault | with_reducible apply request_quiet | with_reducible exact State.Quiet.refl _ | with_reducible intro _ | dsimp only | with_reducible apply State.Quiet.foldl | with_reducible apply State.Quiet.eachPort | with_reducible exact State.Quiet.refl _ | with_reducible intro _ _ | split | with_reducible refine State.Quiet.of_fst (by assumption) ?_ | fail_if_no_progress with_reducible refine State.Quiet.other ?_ rfl rfl rfl rfl rfl rfl rfl | dsimp only

theorem execEnsMembers_quiet {s0 : State} {h : Hdr} {cursor : Nat} {s : State} (hq : s0.Quiet s) :
    s0.QuietOut (execEnsMembers h cursor s) := by
  unfold execEnsMembers
  try extract_lets y1
  repeat' first | with_reducible assumption | with_reducible apply State.QuietOut.next | with_reducible exact State.QuietOut.fault | with_reducible apply request_quiet | with_reducible exact State.Quiet.refl _ | with_reducible intro _ | dsimp only | with_reducible apply State.Quiet.foldl | with_reducible apply State.Quiet.eachPort | with_reducible exact State.Quiet.refl _ | with_reducible intro _ _ | split | with_reducible refine State.Quiet.of_fst (by assumption) ?_ | fail_if_no_progress with_reducible refine State.Quiet.other ?_ rfl rfl rfl rfl rfl rfl rfl | dsimp only

theorem State.joinTxn_quiet {s0 : State} {s : State} {coordinator : BitVec 64} {txn : Nat} {named : TS96} {deadline : Stamp} {rev major : Nat} (hq : s0.Quiet s) :
    s0.Quiet (State.joinTxn s coordinator txn named deadline rev major).1 := by
  unfold State.joinTxn
  try extract_lets y1 y2 y3 y4 y5 y6 y7 y8
  try
    have k2 : s0.Quiet y2 := by
      dsimp only [y2]
      repeat' first | with_reducible assumption | with_reducible apply State.validated_quiet | with_reducible apply State.withEns_quiet | with_reducible apply State.roSet_quiet | with_reducible apply State.Quiet.foldl | with_reducible apply State.Quiet.eachPort | with_reducible exact State.Quiet.refl _ | with_reducible intro _ _ | split | with_reducible refine State.Quiet.of_fst (by assumption) ?_ | fail_if_no_progress with_reducible refine State.Quiet.other ?_ rfl rfl rfl rfl rfl rfl rfl
    clear_value y2
  try
    have k5 : s0.Quiet y5 := by
      dsimp only [y5]
      repeat' first | with_reducible assumption | with_reducible apply State.validated_quiet | with_reducible apply State.withEns_quiet | with_reducible apply State.roSet_quiet | with_reducible apply State.Quiet.foldl | with_reducible apply State.Quiet.eachPort | with_reducible exact State.Quiet.refl _ | with_reducible intro _ _ | split | with_reducible refine State.Quiet.of_fst (by assumption) ?_ | fail_if_no_progress with_reducible refine State.Quiet.other ?_ rfl rfl rfl rfl rfl rfl rfl
    clear_value y5
  try
    have k8 : s0.Quiet y8 := by
      dsimp only [y8]
      repeat' first | with_reducible assumption | with_reducible apply State.validated_quiet | with_reducible apply State.withEns_quiet | with_reducible apply State.roSet_quiet | with_reducible apply State.Quiet.foldl | with_reducible apply State.Quiet.eachPort | with_reducible exact State.Quiet.refl _ | with_reducible intro _ _ | split | with_reducible refine State.Quiet.of_fst (by assumption) ?_ | fail_if_no_progress with_reducible refine State.Quiet.other ?_ rfl rfl rfl rfl rfl rfl rfl
    clear_value y8
  repeat' first | with_reducible assumption | with_reducible apply State.validated_quiet | with_reducible apply State.withEns_quiet | with_reducible apply State.roSet_quiet | with_reducible apply State.Quiet.foldl | with_reducible apply State.Quiet.eachPort | with_reducible exact State.Quiet.refl _ | with_reducible intro _ _ | split | with_reducible refine State.Quiet.of_fst (by assumption) ?_ | fail_if_no_progress with_reducible refine State.Quiet.other ?_ rfl rfl rfl rfl rfl rfl rfl | dsimp only

theorem execPrepare_quiet {s0 : State} {t : Tick} {m : Prepare} {s : State} (hq : s0.Quiet s) :
    s0.QuietOut (execPrepare t m s) := by
  unfold execPrepare
  try extract_lets y1 y2 y3
  try
    have k1 : s0.Quiet y1 := by
      dsimp only [y1]
      repeat' first | with_reducible assumption | with_reducible apply State.at_quiet | split | with_reducible refine State.Quiet.of_fst (by assumption) ?_
    clear_value y1
  try
    have k2 : s0.Quiet y2 := by
      dsimp only [y2]
      repeat' first | with_reducible assumption | with_reducible apply State.heardFrom_quiet | split | with_reducible refine State.Quiet.of_fst (by assumption) ?_
    clear_value y2
  try
    have k3 : s0.Quiet y3.1 := by
      dsimp only [y3]
      repeat' first | with_reducible assumption | with_reducible apply State.joinTxn_quiet | split | with_reducible refine State.Quiet.of_fst (by assumption) ?_
    clear_value y3
  repeat' first | with_reducible assumption | with_reducible apply State.QuietOut.next | with_reducible exact State.QuietOut.fault | with_reducible apply State.at_quiet | with_reducible apply State.heardFrom_quiet | with_reducible apply State.sendPeer_quiet | with_reducible apply State.joinTxn_quiet | split | with_reducible refine State.Quiet.of_fst (by assumption) ?_ | dsimp only

theorem State.keepOutcome_quiet {s0 : State} {s : State} {coordinator : BitVec 64} {txn outcome : Nat} (hq : s0.Quiet s) :
    s0.Quiet (State.keepOutcome s coordinator txn outcome) := by
  unfold State.keepOutcome
  try extract_lets y1
  repeat' first | with_reducible assumption | with_reducible apply State.withEns_quiet | split | with_reducible refine State.Quiet.of_fst (by assumption) ?_ | dsimp only

theorem State.unfreeze_quiet {s0 : State} {s : State} {state : Nat} (hq : s0.Quiet s) :
    s0.Quiet (State.unfreeze s state) := by
  unfold State.unfreeze
  try extract_lets y1 y2
  repeat' first | with_reducible assumption | with_reducible apply State.roSet_quiet | split | with_reducible refine State.Quiet.of_fst (by assumption) ?_ | fail_if_no_progress with_reducible refine State.Quiet.other ?_ rfl rfl rfl rfl rfl rfl rfl

theorem State.applyTxn_quiet {s0 : State} {s : State} {p : Prepared} {ensEpoch : Nat} (hq : s0.Quiet s) :
    s0.Quiet (State.applyTxn s p ensEpoch) := by
  unfold State.applyTxn
  try extract_lets y1 y2 y3 y4 y5 y6
  try
    have k1 : s0.Quiet y1 := by
      dsimp only [y1]
      repeat' first | with_reducible assumption | with_reducible apply State.unfreeze_quiet | split | with_reducible refine State.Quiet.of_fst (by assumption) ?_
    clear_value y1
  try
    have k2 : s0.Quiet y2 := by
      dsimp only [y2]
      repeat' first | with_reducible assumption | with_reducible apply State.validated_quiet | split | with_reducible refine State.Quiet.of_fst (by assumption) ?_
    clear_value y2
  try
    have k5 : s0.Quiet y5 := by
      dsimp only [y5]
      repeat' first | with_reducible assumption | with_reducible apply State.withEns_quiet | with_reducible apply State.roSet_quiet | split | with_reducible refine State.Quiet.of_fst (by assumption) ?_
    clear_value y5
  try
    have k6 : s0.Quiet y6.1 := by
      dsimp only [y6]
      repeat' first | with_reducible assumption | with_reducible apply State.acceptCommit_quiet | split | with_reducible refine State.Quiet.of_fst (by assumption) ?_
    clear_value y6
  repeat' first | with_reducible assumption | with_reducible apply State.unfreeze_quiet | with_reducible apply State.ensRefresh_quiet | with_reducible apply State.validated_quiet | with_reducible apply State.withEns_quiet | with_reducible apply State.roSet_quiet | with_reducible apply State.acceptCommit_quiet | with_reducible apply State.raise_quiet | split | with_reducible refine State.Quiet.of_fst (by assumption) ?_ | fail_if_no_progress with_reducible refine State.Quiet.other ?_ rfl rfl rfl rfl rfl rfl rfl | dsimp only

theorem State.closeTxn_quiet {s0 : State} {s : State} {p : Prepared} {commit : Bool} {ensEpoch : Nat} (hq : s0.Quiet s) :
    s0.Quiet (State.closeTxn s p commit ensEpoch) := by
  unfold State.closeTxn
  try extract_lets y1
  try
    have k1 : s0.Quiet y1 := by
      dsimp only [y1]
      repeat' first | with_reducible assumption | with_reducible apply State.keepOutcome_quiet | split | with_reducible refine State.Quiet.of_fst (by assumption) ?_
    clear_value y1
  repeat' first | with_reducible assumption | with_reducible apply State.applyTxn_quiet | with_reducible apply State.unfreeze_quiet | split | with_reducible refine State.Quiet.of_fst (by assumption) ?_

theorem State.decideTxn_quiet {s0 : State} {s : State} {c : Coord} (hq : s0.Quiet s) :
    s0.Quiet (State.decideTxn s c) := by
  unfold State.decideTxn
  try extract_lets y1 y2 y3 y4 y5 y6 y7 y8 y9 y10 y11 y12
  try
    have k6 : s0.Quiet y6 := by
      dsimp only [y6]
      repeat' first | with_reducible assumption | with_reducible apply State.withEns_quiet | with_reducible apply State.keepOutcome_quiet | split | with_reducible refine State.Quiet.of_fst (by assumption) ?_
    clear_value y6
  try
    have k8 : s0.Quiet y8 := by
      dsimp only [y8]
      repeat' first | with_reducible assumption | with_reducible apply State.sendPeer_quiet | with_reducible apply State.Quiet.foldl | with_reducible exact State.Quiet.refl _ | with_reducible intro _ _ | split | with_reducible refine State.Quiet.of_fst (by assumption) ?_
    clear_value y8
  try
    have k10 : s0.Quiet y10 := by
      dsimp only [y10]
      repeat' first | with_reducible assumption | with_reducible apply State.raise_quiet | split | with_reducible refine State.Quiet.of_fst (by assumption) ?_
    clear_value y10
  try
    have k12 : s0.Quiet y12 := by
      dsimp only [y12]
      repeat' first | with_reducible assumption | with_reducible apply State.withEns_quiet | split | with_reducible refine State.Quiet.of_fst (by assumption) ?_
    clear_value y12
  repeat' first | with_reducible assumption | with_reducible apply State.withEns_quiet | with_reducible apply State.keepOutcome_quiet | with_reducible apply State.sendPeer_quiet | with_reducible apply State.raise_quiet | with_reducible apply State.closeTxn_quiet | with_reducible apply State.roSet_quiet | split | with_reducible refine State.Quiet.of_fst (by assumption) ?_ | dsimp only

theorem State.decideIfAll_quiet {s0 : State} {s : State} (hq : s0.Quiet s) :
    s0.Quiet (State.decideIfAll s) := by
  unfold State.decideIfAll
  repeat' first | with_reducible assumption | with_reducible apply State.decideTxn_quiet | split | with_reducible refine State.Quiet.of_fst (by assumption) ?_ | dsimp only

theorem execVote_quiet {s0 : State} {t : Tick} {m : VoteMsg} {s : State} (hq : s0.Quiet s) :
    s0.QuietOut (execVote t m s) := by
  unfold execVote
  try extract_lets y1 y2 y3 y4
  try
    have k1 : s0.Quiet y1 := by
      dsimp only [y1]
      repeat' first | with_reducible assumption | with_reducible apply State.at_quiet | split | with_reducible refine State.Quiet.of_fst (by assumption) ?_
    clear_value y1
  try
    have k2 : s0.Quiet y2 := by
      dsimp only [y2]
      repeat' first | with_reducible assumption | with_reducible apply State.heardFrom_quiet | split | with_reducible refine State.Quiet.of_fst (by assumption) ?_
    clear_value y2
  repeat' first | with_reducible assumption | with_reducible apply State.QuietOut.next | with_reducible exact State.QuietOut.fault | with_reducible apply State.at_quiet | with_reducible apply State.heardFrom_quiet | with_reducible apply State.withEns_quiet | with_reducible apply State.decideIfAll_quiet | split | with_reducible refine State.Quiet.of_fst (by assumption) ?_ | dsimp only

theorem execPrepareDeadline_quiet {s0 : State} {t : Tick} {s : State} (hq : s0.Quiet s) :
    s0.QuietOut (execPrepareDeadline t s) := by
  unfold execPrepareDeadline
  try extract_lets y1
  try
    have k1 : s0.Quiet y1 := by
      dsimp only [y1]
      repeat' first | with_reducible assumption | with_reducible apply State.at_quiet | split | with_reducible refine State.Quiet.of_fst (by assumption) ?_
    clear_value y1
  repeat' first | with_reducible assumption | with_reducible apply State.QuietOut.next | with_reducible exact State.QuietOut.fault | with_reducible apply State.at_quiet | with_reducible apply State.decideTxn_quiet | split | with_reducible refine State.Quiet.of_fst (by assumption) ?_ | dsimp only

theorem execDecide_quiet {s0 : State} {t : Tick} {coordinator : BitVec 64} {txn : Nat} {commit : Bool} {ensEpoch : Nat} {s : State} (hq : s0.Quiet s) :
    s0.QuietOut (execDecide t coordinator txn commit ensEpoch s) := by
  unfold execDecide
  try extract_lets y1 y2
  try
    have k1 : s0.Quiet y1 := by
      dsimp only [y1]
      repeat' first | with_reducible assumption | with_reducible apply State.at_quiet | split | with_reducible refine State.Quiet.of_fst (by assumption) ?_
    clear_value y1
  try
    have k2 : s0.Quiet y2 := by
      dsimp only [y2]
      repeat' first | with_reducible assumption | with_reducible apply State.heardFrom_quiet | split | with_reducible refine State.Quiet.of_fst (by assumption) ?_
    clear_value y2
  repeat' first | with_reducible assumption | with_reducible apply State.QuietOut.next | with_reducible exact State.QuietOut.fault | with_reducible apply State.at_quiet | with_reducible apply State.heardFrom_quiet | with_reducible apply State.closeTxn_quiet | split | with_reducible refine State.Quiet.of_fst (by assumption) ?_ | dsimp only

theorem State.openTxn_quiet {s0 : State} {s : State} {named : TS96} {available : Bool} {parts : List (BitVec 64 × Nat)} {excluded : List (BitVec 64)} (hq : s0.Quiet s) :
    s0.Quiet (State.openTxn s named available parts excluded).1 := by
  unfold State.openTxn
  try extract_lets y1 y2 y3 y4 y5 y6 y7 y8 y9 y10
  try
    have k5 : s0.Quiet y5 := by
      dsimp only [y5]
      repeat' first | with_reducible assumption | with_reducible apply State.withEns_quiet | with_reducible apply State.roSet_quiet | split | with_reducible refine State.Quiet.of_fst (by assumption) ?_
    clear_value y5
  try
    have k6 : s0.Quiet y6 := by
      dsimp only [y6]
      repeat' first | with_reducible assumption | with_reducible apply State.sendPeer_quiet | with_reducible apply State.Quiet.foldl | with_reducible exact State.Quiet.refl _ | with_reducible intro _ _ | split | with_reducible refine State.Quiet.of_fst (by assumption) ?_
    clear_value y6
  try
    have k8 : s0.Quiet y8.1 := by
      dsimp only [y8]
      repeat' first | with_reducible assumption | with_reducible apply State.joinTxn_quiet | split | with_reducible refine State.Quiet.of_fst (by assumption) ?_
    clear_value y8
  repeat' first | with_reducible assumption | with_reducible apply State.withEns_quiet | with_reducible apply State.decideIfAll_quiet | split | with_reducible refine State.Quiet.of_fst (by assumption) ?_

theorem State.ensCommit_quiet {s0 : State} {s : State} {named : TS96} {policy : Nat} {members : List (BitVec 64 × Nat)} (hq : s0.Quiet s) :
    s0.Quiet (State.ensCommit s named policy members).1 := by
  unfold State.ensCommit
  try extract_lets y1 y2 y3 y4 y5 y6 y7 y8
  try
    have k8 : s0.Quiet y8.1 := by
      dsimp only [y8]
      repeat' first | with_reducible assumption | with_reducible apply State.openTxn_quiet | split | with_reducible refine State.Quiet.of_fst (by assumption) ?_
    clear_value y8
  repeat' first | with_reducible assumption | split | with_reducible refine State.Quiet.of_fst (by assumption) ?_ | dsimp only

theorem execEnsCommit_quiet {s0 : State} {h : Hdr} {named : TS96} {policy : Nat} {members : List (BitVec 64 × Nat)} {s : State} (hq : s0.Quiet s) :
    s0.QuietOut (execEnsCommit h named policy members s) := by
  unfold execEnsCommit
  repeat' first | with_reducible assumption | with_reducible apply State.QuietOut.next | with_reducible exact State.QuietOut.fault | with_reducible apply request_quiet | with_reducible apply State.ensCommit_quiet | with_reducible apply request_quiet | with_reducible intro _ | with_reducible apply State.Quiet.foldl | with_reducible apply State.Quiet.eachPort | with_reducible exact State.Quiet.refl _ | with_reducible intro _ _ | split | with_reducible refine State.Quiet.of_fst (by assumption) ?_ | fail_if_no_progress with_reducible refine State.Quiet.other ?_ rfl rfl rfl rfl rfl rfl rfl | dsimp only

theorem execOutcome_quiet {s0 : State} {t : Tick} {coordinator : BitVec 64} {txn : Nat} {from_ : BitVec 64} {answer : Option Nat} {s : State} (hq : s0.Quiet s) :
    s0.QuietOut (execOutcome t coordinator txn from_ answer s) := by
  unfold execOutcome
  extract_lets y1 y2
  have k1 : s0.Quiet y1 := State.at_quiet hq
  clear_value y1
  have k2 : s0.Quiet y2 := State.heardFrom_quiet k1
  clear_value y2
  repeat' first | with_reducible assumption | with_reducible apply State.sendPeer_quiet | with_reducible apply State.closeTxn_quiet | with_reducible apply State.drawn_quiet | with_reducible apply State.QuietOut.next | split | fail_if_no_progress with_reducible refine State.Quiet.other ?_ rfl rfl rfl rfl rfl rfl rfl | with_reducible refine State.Quiet.of_fst (by assumption) ?_

theorem execOutcomeQuery_quiet {s0 : State} {t : Tick} {s : State} (hq : s0.Quiet s) :
    s0.QuietOut (execOutcomeQuery t s) := by
  unfold execOutcomeQuery
  try extract_lets y1 y2
  try
    have k1 : s0.Quiet y1 := by
      dsimp only [y1]
      repeat' first | with_reducible assumption | with_reducible apply State.at_quiet | split | with_reducible refine State.Quiet.of_fst (by assumption) ?_
    clear_value y1
  repeat' first | with_reducible assumption | with_reducible apply State.QuietOut.next | with_reducible exact State.QuietOut.fault | with_reducible apply State.at_quiet | with_reducible apply State.withEns_quiet | with_reducible apply State.sendPeer_quiet | with_reducible apply State.Quiet.foldl | with_reducible exact State.Quiet.refl _ | with_reducible intro _ _ | split | with_reducible refine State.Quiet.of_fst (by assumption) ?_ | dsimp only

theorem execInDoubtTimeout_quiet {s0 : State} {t : Tick} {s : State} (hq : s0.Quiet s) :
    s0.QuietOut (execInDoubtTimeout t s) := by
  unfold execInDoubtTimeout
  try extract_lets y1
  try
    have k1 : s0.Quiet y1 := by
      dsimp only [y1]
      repeat' first | with_reducible assumption | with_reducible apply State.at_quiet | split | with_reducible refine State.Quiet.of_fst (by assumption) ?_
    clear_value y1
  repeat' first | with_reducible assumption | with_reducible apply State.QuietOut.next | with_reducible exact State.QuietOut.fault | with_reducible apply State.at_quiet | with_reducible apply State.unfreeze_quiet | with_reducible apply State.raiseSev_quiet | split | with_reducible refine State.Quiet.of_fst (by assumption) ?_ | dsimp only

theorem execTimecheck_quiet {s0 : State} {t : Tick} {id : BitVec 64} {t1 t2 t3 t4 : Stamp} {s : State} (hq : s0.Quiet s) :
    s0.QuietOut (execTimecheck t id t1 t2 t3 t4 s) := by
  unfold execTimecheck
  try extract_lets y1 y2
  try
    have k1 : s0.Quiet y1 := by
      dsimp only [y1]
      repeat' first | with_reducible assumption | with_reducible apply State.at_quiet | split | with_reducible refine State.Quiet.of_fst (by assumption) ?_
    clear_value y1
  try
    have k2 : s0.Quiet y2 := by
      dsimp only [y2]
      repeat' first | with_reducible assumption | with_reducible apply State.heardFrom_quiet | split | with_reducible refine State.Quiet.of_fst (by assumption) ?_
    clear_value y2
  repeat' first | with_reducible assumption | with_reducible apply State.QuietOut.next | with_reducible exact State.QuietOut.fault | with_reducible apply State.at_quiet | with_reducible apply State.heardFrom_quiet | with_reducible apply State.setMember_quiet | split | with_reducible refine State.Quiet.of_fst (by assumption) ?_ | dsimp only

theorem execTimecheckSend_quiet {s0 : State} {t : Tick} {s : State} (hq : s0.Quiet s) :
    s0.QuietOut (execTimecheckSend t s) := by
  unfold execTimecheckSend
  try extract_lets y1 y2 y3
  try
    have k1 : s0.Quiet y1 := by
      dsimp only [y1]
      repeat' first | with_reducible assumption | with_reducible apply State.at_quiet | split | with_reducible refine State.Quiet.of_fst (by assumption) ?_
    clear_value y1
  try
    have k3 : s0.Quiet y3 := by
      dsimp only [y3]
      repeat' first | with_reducible assumption | with_reducible apply State.withEns_quiet | split | with_reducible refine State.Quiet.of_fst (by assumption) ?_
    clear_value y3
  repeat' first | with_reducible assumption | with_reducible apply State.QuietOut.next | with_reducible exact State.QuietOut.fault | with_reducible apply State.at_quiet | with_reducible apply State.withEns_quiet | with_reducible apply State.emit_quiet | with_reducible apply State.Quiet.foldl | with_reducible exact State.Quiet.refl _ | with_reducible intro _ _ | split | with_reducible refine State.Quiet.of_fst (by assumption) ?_ | dsimp only

theorem State.setTimeState_quiet {s0 : State} {s : State} {v : Nat} {dev : Int} {n : Nat} (hq : s0.Quiet s) :
    s0.Quiet (State.setTimeState s v dev n) := by
  unfold State.setTimeState
  try extract_lets y1 y2 y3
  try
    have k1 : s0.Quiet y1 := by
      dsimp only [y1]
      repeat' first | with_reducible assumption | with_reducible apply State.roSet_quiet | with_reducible apply State.raiseSev_quiet | with_reducible apply State.judgeTime_quiet | with_reducible apply State.Quiet.foldl | with_reducible apply State.Quiet.eachPort | with_reducible exact State.Quiet.refl _ | with_reducible intro _ _ | split | with_reducible refine State.Quiet.of_fst (by assumption) ?_ | fail_if_no_progress with_reducible refine State.Quiet.other ?_ rfl rfl rfl rfl rfl rfl rfl
    clear_value y1
  try
    have k3 : s0.Quiet y3 := by
      dsimp only [y3]
      repeat' first | with_reducible assumption | with_reducible apply State.roSet_quiet | with_reducible apply State.raiseSev_quiet | with_reducible apply State.judgeTime_quiet | with_reducible apply State.Quiet.foldl | with_reducible apply State.Quiet.eachPort | with_reducible exact State.Quiet.refl _ | with_reducible intro _ _ | split | with_reducible refine State.Quiet.of_fst (by assumption) ?_ | fail_if_no_progress with_reducible refine State.Quiet.other ?_ rfl rfl rfl rfl rfl rfl rfl
    clear_value y3
  repeat' first | with_reducible assumption | with_reducible apply State.roSet_quiet | with_reducible apply State.raiseSev_quiet | with_reducible apply State.judgeTime_quiet | with_reducible apply State.Quiet.foldl | with_reducible apply State.Quiet.eachPort | with_reducible exact State.Quiet.refl _ | with_reducible intro _ _ | split | with_reducible refine State.Quiet.of_fst (by assumption) ?_ | fail_if_no_progress with_reducible refine State.Quiet.other ?_ rfl rfl rfl rfl rfl rfl rfl | dsimp only

theorem execEnsTimeEvaluation_quiet {s0 : State} {t : Tick} {s : State} (hq : s0.Quiet s) :
    s0.QuietOut (execEnsTimeEvaluation t s) := by
  unfold execEnsTimeEvaluation
  try extract_lets y1 y2 y3 y4 y5 y6 y7 y8 y9 y10 y11 y12 y13 y14 y15
  try
    have k1 : s0.Quiet y1 := by
      dsimp only [y1]
      repeat' first | with_reducible assumption | with_reducible apply State.at_quiet | split | with_reducible refine State.Quiet.of_fst (by assumption) ?_
    clear_value y1
  try
    have k5 : s0.Quiet y5 := by
      dsimp only [y5]
      repeat' first | with_reducible assumption | with_reducible apply State.withEns_quiet | with_reducible apply State.roSet_quiet | split | with_reducible refine State.Quiet.of_fst (by assumption) ?_
    clear_value y5
  try
    have k13 : s0.Quiet y13 := by
      dsimp only [y13]
      repeat' first | with_reducible assumption | with_reducible apply State.withEns_quiet | with_reducible apply State.roSetInt_quiet | split | with_reducible refine State.Quiet.of_fst (by assumption) ?_
    clear_value y13
  repeat' first | with_reducible assumption | with_reducible apply State.QuietOut.next | with_reducible exact State.QuietOut.fault | with_reducible apply State.withEns_quiet | with_reducible apply State.setTimeState_quiet | split | with_reducible refine State.Quiet.of_fst (by assumption) ?_

theorem State.setCaptureRow_quiet {s0 : State} {s : State} {id : BitVec 64} {result capture : Nat} (hq : s0.Quiet s) :
    s0.Quiet (State.setCaptureRow s id result capture) := by
  unfold State.setCaptureRow
  try extract_lets y1
  repeat' first | with_reducible assumption | with_reducible apply State.withEns_quiet | with_reducible apply State.setMember_quiet | split | with_reducible refine State.Quiet.of_fst (by assumption) ?_ | dsimp only

theorem State.captureReport_quiet {s0 : State} {s : State} {c : EnsCap} (hq : s0.Quiet s) :
    s0.Quiet (State.captureReport s c) := by
  unfold State.captureReport
  try extract_lets y1 y2 y3 y4
  try
    have k2 : s0.Quiet y2 := by
      dsimp only [y2]
      repeat' first | with_reducible assumption | with_reducible apply State.setCaptureRow_quiet | with_reducible apply State.Quiet.foldl | with_reducible exact State.Quiet.refl _ | with_reducible intro _ _ | split | with_reducible refine State.Quiet.of_fst (by assumption) ?_
    clear_value y2
  repeat' first | with_reducible assumption | with_reducible apply State.withEns_quiet | with_reducible apply State.raise_quiet | split | with_reducible refine State.Quiet.of_fst (by assumption) ?_ | dsimp only

theorem State.captureAnswer_quiet {s0 : State} {s : State} {id : BitVec 64} {txn result capture : Nat} (hq : s0.Quiet s) :
    s0.Quiet (State.captureAnswer s id txn result capture) := by
  unfold State.captureAnswer
  try extract_lets y1 y2 y3
  try
    have k2 : s0.Quiet y2 := by
      dsimp only [y2]
      repeat' first | with_reducible assumption | with_reducible apply State.setCaptureRow_quiet | split | with_reducible refine State.Quiet.of_fst (by assumption) ?_
    clear_value y2
  repeat' first | with_reducible assumption | with_reducible apply State.setCaptureRow_quiet | with_reducible apply State.withEns_quiet | with_reducible apply State.captureReport_quiet | split | with_reducible refine State.Quiet.of_fst (by assumption) ?_ | dsimp only

theorem execEnsCaptureAnswer_quiet {s0 : State} {t : Tick} {id : BitVec 64} {txn : Nat} {result : Nat} {capture : Nat} {s : State} (hq : s0.Quiet s) :
    s0.QuietOut (execEnsCaptureAnswer t id txn result capture s) := by
  unfold execEnsCaptureAnswer
  try extract_lets y1
  try
    have k1 : s0.Quiet y1 := by
      dsimp only [y1]
      repeat' first | with_reducible assumption | with_reducible apply State.at_quiet | split | with_reducible refine State.Quiet.of_fst (by assumption) ?_
    clear_value y1
  repeat' first | with_reducible assumption | with_reducible apply State.QuietOut.next | with_reducible exact State.QuietOut.fault | with_reducible apply State.heardFrom_quiet | with_reducible apply State.captureAnswer_quiet | split | with_reducible refine State.Quiet.of_fst (by assumption) ?_

theorem execEnsCaptureTimeout_quiet {s0 : State} {t : Tick} {s : State} (hq : s0.Quiet s) :
    s0.QuietOut (execEnsCaptureTimeout t s) := by
  unfold execEnsCaptureTimeout
  try extract_lets y1
  try
    have k1 : s0.Quiet y1 := by
      dsimp only [y1]
      repeat' first | with_reducible assumption | with_reducible apply State.at_quiet | split | with_reducible refine State.Quiet.of_fst (by assumption) ?_
    clear_value y1
  repeat' first | with_reducible assumption | with_reducible apply State.QuietOut.next | with_reducible exact State.QuietOut.fault | with_reducible apply State.captureReport_quiet | with_reducible apply State.Quiet.foldl | with_reducible exact State.Quiet.refl _ | with_reducible intro _ _ | split | with_reducible refine State.Quiet.of_fst (by assumption) ?_ | dsimp only

theorem State.ensCaptureAt_quiet {s0 : State} {s : State} {trigger : TS96} {prof : Nat} {members : List (BitVec 64)} (hq : s0.Quiet s) :
    s0.Quiet (State.ensCaptureAt s trigger prof members).1 := by
  unfold State.ensCaptureAt
  extract_lets status asked txn en s1 s2 s3
  have k1 : s0.Quiet s1 := State.roSet_quiet (State.withEns_quiet hq)
  clear_value s1
  have k2 : s0.Quiet s2 := State.Quiet.foldl (fun y a => State.sendPeer_quiet (State.Quiet.refl y)) k1
  clear_value s2
  have k3 : s0.Quiet s3 := State.Quiet.foldl (fun y a => State.captureAnswer_quiet (State.Quiet.refl y)) k2
  clear_value s3 en txn asked status
  repeat' first | with_reducible assumption | with_reducible apply State.captureAnswer_quiet | with_reducible apply State.captureFor_quiet | dsimp only | split | fail_if_no_progress with_reducible refine State.Quiet.other ?_ rfl rfl rfl rfl rfl rfl rfl | with_reducible refine State.Quiet.of_fst (by assumption) ?_

theorem State.ensCaptureAt_runs {f : State → State × Answer} {trigger : TS96} {prof : Nat} {members : List (BitVec 64)}
    (hf : ∀ y, f y = y.ensCaptureAt trigger prof members) (y : State) : y.Quiet (f y).1 := by
  rw [hf]
  exact State.ensCaptureAt_quiet (State.Quiet.refl y)

theorem execEnsCaptureAt_quiet {s0 : State} {h : Hdr} {trigger : TS96} {profile : Nat} {members : List (BitVec 64)} {s : State} (hq : s0.Quiet s) :
    s0.QuietOut (execEnsCaptureAt h trigger profile members s) := by
  unfold execEnsCaptureAt
  exact request_quiet (State.ensCaptureAt_runs fun _ => rfl) hq


end Sys2Proof.Machine
end

