-- ==== Sys2Proof/Laws/KeepsFirmware.lean ====
section
/-! SUPPORT. What the operations of Machine/Firmware.lean keep. -/

set_option linter.unusedTactic false
set_option linter.unreachableTactic false
set_option linter.unusedVariables false

namespace Sys2Proof.Machine

theorem State.imageNow_quiet {s0 : State} {s : State} {p : Port} {x : FwImage} (hq : s0.Quiet s) :
    s0.Quiet (State.imageNow s p x) := by
  unfold State.imageNow
  repeat' first | with_reducible assumption | with_reducible apply State.setImage_quiet | with_reducible apply State.raise_quiet | split | with_reducible refine State.Quiet.of_fst (by assumption) ?_

theorem State.fwBegin_quiet {s0 : State} {s : State} {client : BitVec 64} {bytes : Nat} (hq : s0.Quiet s) :
    s0.Quiet (State.fwBegin s client bytes).1 := by
  unfold State.fwBegin
  try extract_lets y1 y2 y3 y4
  try
    have k2 : s0.Quiet y2 := by
      dsimp only [y2]
      repeat' first | with_reducible assumption | with_reducible apply State.imageNow_quiet | with_reducible apply State.Quiet.foldl | with_reducible apply State.Quiet.eachPort | with_reducible exact State.Quiet.refl _ | with_reducible intro _ _ | split | with_reducible refine State.Quiet.of_fst (by assumption) ?_ | fail_if_no_progress with_reducible refine State.Quiet.other ?_ rfl rfl rfl rfl rfl rfl rfl
    clear_value y2
  try
    have k4 : s0.Quiet y4 := by
      dsimp only [y4]
      repeat' first | with_reducible assumption | with_reducible apply State.imageNow_quiet | with_reducible apply State.Quiet.foldl | with_reducible apply State.Quiet.eachPort | with_reducible exact State.Quiet.refl _ | with_reducible intro _ _ | split | with_reducible refine State.Quiet.of_fst (by assumption) ?_ | fail_if_no_progress with_reducible refine State.Quiet.other ?_ rfl rfl rfl rfl rfl rfl rfl
    clear_value y4
  repeat' first | with_reducible assumption | with_reducible apply State.imageNow_quiet | with_reducible apply State.Quiet.foldl | with_reducible apply State.Quiet.eachPort | with_reducible exact State.Quiet.refl _ | with_reducible intro _ _ | split | with_reducible refine State.Quiet.of_fst (by assumption) ?_ | fail_if_no_progress with_reducible refine State.Quiet.other ?_ rfl rfl rfl rfl rfl rfl rfl | dsimp only

theorem execFwBegin_quiet {s0 : State} {h : Hdr} {imageBytes : Nat} {s : State} (hq : s0.Quiet s) :
    s0.QuietOut (execFwBegin h imageBytes s) := by
  unfold execFwBegin
  try extract_lets y1
  repeat' first | with_reducible assumption | with_reducible apply State.QuietOut.next | with_reducible exact State.QuietOut.fault | with_reducible apply request_quiet | with_reducible exact State.Quiet.refl _ | with_reducible intro _ | dsimp only | with_reducible apply State.fwBegin_quiet | with_reducible apply State.Quiet.foldl | with_reducible apply State.Quiet.eachPort | with_reducible exact State.Quiet.refl _ | with_reducible intro _ _ | split | with_reducible refine State.Quiet.of_fst (by assumption) ?_ | fail_if_no_progress with_reducible refine State.Quiet.other ?_ rfl rfl rfl rfl rfl rfl rfl | dsimp only

theorem State.fwWrite_quiet {s0 : State} {s : State} {client : BitVec 64} {offset : Nat} {data : List Byte} (hq : s0.Quiet s) :
    s0.Quiet (State.fwWrite s client offset data).1 := by
  unfold State.fwWrite
  try extract_lets y1 y2
  repeat' first | with_reducible assumption | split | with_reducible refine State.Quiet.of_fst (by assumption) ?_ | fail_if_no_progress with_reducible refine State.Quiet.other ?_ rfl rfl rfl rfl rfl rfl rfl

theorem execFwWrite_quiet {s0 : State} {h : Hdr} {offset : Nat} {data : List Byte} {s : State} (hq : s0.Quiet s) :
    s0.QuietOut (execFwWrite h offset data s) := by
  unfold execFwWrite
  try extract_lets y1
  repeat' first | with_reducible assumption | with_reducible apply State.QuietOut.next | with_reducible exact State.QuietOut.fault | with_reducible apply request_quiet | with_reducible exact State.Quiet.refl _ | with_reducible intro _ | dsimp only | with_reducible apply State.fwWrite_quiet | with_reducible apply State.Quiet.foldl | with_reducible apply State.Quiet.eachPort | with_reducible exact State.Quiet.refl _ | with_reducible intro _ _ | split | with_reducible refine State.Quiet.of_fst (by assumption) ?_ | fail_if_no_progress with_reducible refine State.Quiet.other ?_ rfl rfl rfl rfl rfl rfl rfl | dsimp only

theorem State.fwFinish_quiet {s0 : State} {s : State} {client : BitVec 64} (hq : s0.Quiet s) :
    s0.Quiet (State.fwFinish s client).1 := by
  unfold State.fwFinish
  repeat' first | with_reducible assumption | split | with_reducible refine State.Quiet.of_fst (by assumption) ?_

theorem execFwFinish_quiet {s0 : State} {h : Hdr} {s : State} (hq : s0.Quiet s) :
    s0.QuietOut (execFwFinish h s) := by
  unfold execFwFinish
  try extract_lets y1
  repeat' first | with_reducible assumption | with_reducible apply State.QuietOut.next | with_reducible exact State.QuietOut.fault | with_reducible apply request_quiet | with_reducible exact State.Quiet.refl _ | with_reducible intro _ | dsimp only | with_reducible apply State.fwFinish_quiet | with_reducible apply State.Quiet.foldl | with_reducible apply State.Quiet.eachPort | with_reducible exact State.Quiet.refl _ | with_reducible intro _ _ | split | with_reducible refine State.Quiet.of_fst (by assumption) ?_ | fail_if_no_progress with_reducible refine State.Quiet.other ?_ rfl rfl rfl rfl rfl rfl rfl | dsimp only

theorem State.fwActivate_quiet {s0 : State} {s : State} {client : BitVec 64} {image : Nat} (hq : s0.Quiet s) :
    s0.Quiet (State.fwActivate s client image).1 := by
  unfold State.fwActivate
  try extract_lets y1 y2 y3 y4
  try
    have k3 : s0.Quiet y3 := by
      dsimp only [y3]
      repeat' first | with_reducible assumption | with_reducible apply State.imageNow_quiet | with_reducible apply State.Quiet.foldl | with_reducible apply State.Quiet.eachPort | with_reducible exact State.Quiet.refl _ | with_reducible intro _ _ | split | with_reducible refine State.Quiet.of_fst (by assumption) ?_ | fail_if_no_progress with_reducible refine State.Quiet.other ?_ rfl rfl rfl rfl rfl rfl rfl
    clear_value y3
  repeat' first | with_reducible assumption | with_reducible apply State.imageNow_quiet | with_reducible apply State.Quiet.foldl | with_reducible apply State.Quiet.eachPort | with_reducible exact State.Quiet.refl _ | with_reducible intro _ _ | split | with_reducible refine State.Quiet.of_fst (by assumption) ?_ | fail_if_no_progress with_reducible refine State.Quiet.other ?_ rfl rfl rfl rfl rfl rfl rfl | dsimp only

theorem execFwActivate_quiet {s0 : State} {h : Hdr} {image : Nat} {s : State} (hq : s0.Quiet s) :
    s0.QuietOut (execFwActivate h image s) := by
  unfold execFwActivate
  try extract_lets y1
  repeat' first | with_reducible assumption | with_reducible apply State.QuietOut.next | with_reducible exact State.QuietOut.fault | with_reducible apply request_quiet | with_reducible exact State.Quiet.refl _ | with_reducible intro _ | dsimp only | with_reducible apply State.fwActivate_quiet | with_reducible apply State.Quiet.foldl | with_reducible apply State.Quiet.eachPort | with_reducible exact State.Quiet.refl _ | with_reducible intro _ _ | split | with_reducible refine State.Quiet.of_fst (by assumption) ?_ | fail_if_no_progress with_reducible refine State.Quiet.other ?_ rfl rfl rfl rfl rfl rfl rfl | dsimp only

theorem State.fwConfirm_quiet {s0 : State} {s : State} {client : BitVec 64} (hq : s0.Quiet s) :
    s0.Quiet (State.fwConfirm s client).1 := by
  unfold State.fwConfirm
  try extract_lets y1 y2 y3 y4 y5 y6 y7 y8 y9
  try
    have k6 : s0.Quiet y6 := by
      dsimp only [y6]
      repeat' first | with_reducible assumption | with_reducible apply State.roSet_quiet | with_reducible apply State.imageNow_quiet | with_reducible apply State.Quiet.foldl | with_reducible apply State.Quiet.eachPort | with_reducible exact State.Quiet.refl _ | with_reducible intro _ _ | split | with_reducible refine State.Quiet.of_fst (by assumption) ?_ | fail_if_no_progress with_reducible refine State.Quiet.other ?_ rfl rfl rfl rfl rfl rfl rfl
    clear_value y6
  try
    have k7 : s0.Quiet y7 := by
      dsimp only [y7]
      repeat' first | with_reducible assumption | with_reducible apply State.roSet_quiet | with_reducible apply State.imageNow_quiet | with_reducible apply State.Quiet.foldl | with_reducible apply State.Quiet.eachPort | with_reducible exact State.Quiet.refl _ | with_reducible intro _ _ | split | with_reducible refine State.Quiet.of_fst (by assumption) ?_ | fail_if_no_progress with_reducible refine State.Quiet.other ?_ rfl rfl rfl rfl rfl rfl rfl
    clear_value y7
  try
    have k8 : s0.Quiet y8 := by
      dsimp only [y8]
      repeat' first | with_reducible assumption | with_reducible apply State.roSet_quiet | with_reducible apply State.imageNow_quiet | with_reducible apply State.Quiet.foldl | with_reducible apply State.Quiet.eachPort | with_reducible exact State.Quiet.refl _ | with_reducible intro _ _ | split | with_reducible refine State.Quiet.of_fst (by assumption) ?_ | fail_if_no_progress with_reducible refine State.Quiet.other ?_ rfl rfl rfl rfl rfl rfl rfl
    clear_value y8
  repeat' first | with_reducible assumption | with_reducible apply State.roSet_quiet | with_reducible apply State.imageNow_quiet | with_reducible apply State.Quiet.foldl | with_reducible apply State.Quiet.eachPort | with_reducible exact State.Quiet.refl _ | with_reducible intro _ _ | split | with_reducible refine State.Quiet.of_fst (by assumption) ?_ | fail_if_no_progress with_reducible refine State.Quiet.other ?_ rfl rfl rfl rfl rfl rfl rfl | dsimp only

theorem execFwConfirm_quiet {s0 : State} {h : Hdr} {s : State} (hq : s0.Quiet s) :
    s0.QuietOut (execFwConfirm h s) := by
  unfold execFwConfirm
  try extract_lets y1
  repeat' first | with_reducible assumption | with_reducible apply State.QuietOut.next | with_reducible exact State.QuietOut.fault | with_reducible apply request_quiet | with_reducible exact State.Quiet.refl _ | with_reducible intro _ | dsimp only | with_reducible apply State.fwConfirm_quiet | with_reducible apply State.Quiet.foldl | with_reducible apply State.Quiet.eachPort | with_reducible exact State.Quiet.refl _ | with_reducible intro _ _ | split | with_reducible refine State.Quiet.of_fst (by assumption) ?_ | fail_if_no_progress with_reducible refine State.Quiet.other ?_ rfl rfl rfl rfl rfl rfl rfl | dsimp only

theorem State.fwVerify_quiet {s0 : State} {s : State} {flashOk : Bool} (hq : s0.Quiet s) :
    s0.Quiet (State.fwVerify s flashOk).1 := by
  unfold State.fwVerify
  extract_lets p x verdict fw y1
  have k1 : s0.Quiet y1 := by
    dsimp only [y1]
    repeat' first | with_reducible assumption | split | fail_if_no_progress with_reducible refine State.Quiet.other ?_ rfl rfl rfl rfl rfl rfl rfl | with_reducible refine State.Quiet.of_fst (by assumption) ?_
  clear_value y1 verdict
  repeat' first | with_reducible assumption | with_reducible apply State.imageNow_quiet | dsimp only | split | fail_if_no_progress with_reducible refine State.Quiet.other ?_ rfl rfl rfl rfl rfl rfl rfl | with_reducible refine State.Quiet.of_fst (by assumption) ?_

theorem State.jobDone_quiet {s0 : State} {s : State} {work : JobWork} {flashOk : Bool} (hq : s0.Quiet s) :
    s0.Quiet (State.jobDone s work flashOk).1 := by
  unfold State.jobDone
  repeat' first | with_reducible assumption | dsimp only | with_reducible apply State.setImage_quiet | with_reducible apply State.publishImage_quiet | with_reducible apply State.fwVerify_quiet | split | fail_if_no_progress with_reducible refine State.Quiet.other ?_ rfl rfl rfl rfl rfl rfl rfl | with_reducible refine State.Quiet.of_fst (by assumption) ?_

theorem execBackgroundCommandComplete_quiet {s0 : State} {t : Tick} {flashOk : Bool} {s : State} (hq : s0.Quiet s) :
    s0.QuietOut (execBackgroundCommandComplete t flashOk s) := by
  unfold execBackgroundCommandComplete
  extract_lets y1
  have k1 : s0.Quiet y1 := State.at_quiet hq
  clear_value y1
  repeat' first | with_reducible assumption | with_reducible apply State.QuietOut.next | extract_lets r | with_reducible apply State.answerJob_quiet | with_reducible apply State.jobDone_quiet | dsimp only | split | fail_if_no_progress with_reducible refine State.Quiet.other ?_ rfl rfl rfl rfl rfl rfl rfl | with_reducible refine State.Quiet.of_fst (by assumption) ?_

end Sys2Proof.Machine
end

