-- ==== Sys2Proof/Laws/KeepsTransport.lean ====
section
/-! SUPPORT. What the operations of Machine/Transport.lean keep. -/

set_option linter.unusedTactic false
set_option linter.unreachableTactic false
set_option linter.unusedVariables false

namespace Sys2Proof.Machine

theorem State.openSession_quiet {s0 : State} {s : State} {n : Nat} {link : Port} (hq : s0.Quiet s) :
    s0.Quiet (State.openSession s n link) := by
  unfold State.openSession
  try extract_lets y1 y2
  try
    have k2 : s0.Quiet y2 := by
      dsimp only [y2]
      repeat' first | with_reducible assumption | with_reducible apply State.setPair_quiet | split | with_reducible refine State.Quiet.of_fst (by assumption) ?_
    clear_value y2
  repeat' first | with_reducible assumption | with_reducible apply State.roSet_quiet | with_reducible apply State.raise_quiet | split | with_reducible refine State.Quiet.of_fst (by assumption) ?_ | dsimp only

theorem execTcpConnect_quiet {s0 : State} {t : Tick} {link : Port} {s : State} (hq : s0.Quiet s) :
    s0.QuietOut (execTcpConnect t link s) := by
  unfold execTcpConnect
  try extract_lets y1
  try
    have k1 : s0.Quiet y1 := by
      dsimp only [y1]
      repeat' first | with_reducible assumption | with_reducible apply State.at_quiet | split | with_reducible refine State.Quiet.of_fst (by assumption) ?_
    clear_value y1
  repeat' first | with_reducible assumption | with_reducible apply State.QuietOut.next | with_reducible exact State.QuietOut.fault | with_reducible apply State.at_quiet | with_reducible apply State.openSession_quiet | with_reducible apply State.emit_quiet | split | with_reducible refine State.Quiet.of_fst (by assumption) ?_ | dsimp only

theorem execTcpClose_quiet {s0 : State} {t : Tick} {pair : Nat} {s : State} (hq : s0.Quiet s) :
    s0.QuietOut (execTcpClose t pair s) := by
  unfold execTcpClose
  try extract_lets y1
  try
    have k1 : s0.Quiet y1 := by
      dsimp only [y1]
      repeat' first | with_reducible assumption | with_reducible apply State.at_quiet | split | with_reducible refine State.Quiet.of_fst (by assumption) ?_
    clear_value y1
  repeat' first | with_reducible assumption | with_reducible apply State.QuietOut.next | with_reducible exact State.QuietOut.fault | with_reducible apply State.closeSession_quiet | split | with_reducible refine State.Quiet.of_fst (by assumption) ?_

theorem execSessionIdleTimeout_quiet {s0 : State} {t : Tick} {pair : Nat} {s : State} (hq : s0.Quiet s) :
    s0.QuietOut (execSessionIdleTimeout t pair s) := by
  unfold execSessionIdleTimeout
  try extract_lets y1 y2
  try
    have k1 : s0.Quiet y1 := by
      dsimp only [y1]
      repeat' first | with_reducible assumption | with_reducible apply State.at_quiet | split | with_reducible refine State.Quiet.of_fst (by assumption) ?_
    clear_value y1
  repeat' first | with_reducible assumption | with_reducible apply State.QuietOut.next | with_reducible exact State.QuietOut.fault | with_reducible apply State.closeSession_quiet | split | with_reducible refine State.Quiet.of_fst (by assumption) ?_

theorem execNcpFramingLoss_quiet {s0 : State} {t : Tick} {pair : Nat} {magic : BitVec 16} {bodyLen : Nat} {s : State} (hq : s0.Quiet s) :
    s0.QuietOut (execNcpFramingLoss t pair magic bodyLen s) := by
  unfold execNcpFramingLoss
  try extract_lets y1
  try
    have k1 : s0.Quiet y1 := by
      dsimp only [y1]
      repeat' first | with_reducible assumption | with_reducible apply State.at_quiet | split | with_reducible refine State.Quiet.of_fst (by assumption) ?_
    clear_value y1
  repeat' first | with_reducible assumption | with_reducible apply State.QuietOut.next | with_reducible exact State.QuietOut.fault | with_reducible apply State.closeSession_quiet | split | with_reducible refine State.Quiet.of_fst (by assumption) ?_

theorem State.spiTouch_quiet {s0 : State} {s : State} (hq : s0.Quiet s) :
    s0.Quiet (State.spiTouch s) := by
  unfold State.spiTouch
  try extract_lets y1 y2
  try
    have k1 : s0.Quiet y1 := by
      dsimp only [y1]
      repeat' first | with_reducible assumption | with_reducible apply State.openSession_quiet | split | with_reducible refine State.Quiet.of_fst (by assumption) ?_
    clear_value y1
  repeat' first | with_reducible assumption | with_reducible apply State.setPair_quiet | split | with_reducible refine State.Quiet.of_fst (by assumption) ?_

theorem State.spiTook_quiet {s0 : State} {s : State} (hq : s0.Quiet s) :
    s0.Quiet (State.spiTook s) := by
  unfold State.spiTook
  try extract_lets y1
  repeat' first | with_reducible assumption | with_reducible apply State.setPair_quiet | with_reducible apply State.pump_quiet | split | with_reducible refine State.Quiet.of_fst (by assumption) ?_

theorem execSpiStatus_quiet {s0 : State} {t : Tick} {s : State} (hq : s0.Quiet s) :
    s0.QuietOut (execSpiStatus t s) := by
  unfold execSpiStatus
  try extract_lets y1 y2 y3 y4
  try
    have k1 : s0.Quiet y1 := by
      dsimp only [y1]
      repeat' first | with_reducible assumption | with_reducible apply State.at_quiet | split | with_reducible refine State.Quiet.of_fst (by assumption) ?_
    clear_value y1
  try
    have k2 : s0.Quiet y2 := by
      dsimp only [y2]
      repeat' first | with_reducible assumption | with_reducible apply State.spiTouch_quiet | split | with_reducible refine State.Quiet.of_fst (by assumption) ?_
    clear_value y2
  try
    have k3 : s0.Quiet y3 := by
      dsimp only [y3]
      repeat' first | with_reducible assumption | with_reducible apply State.emit_quiet | split | with_reducible refine State.Quiet.of_fst (by assumption) ?_
    clear_value y3
  repeat' first | with_reducible assumption | with_reducible apply State.QuietOut.next | with_reducible exact State.QuietOut.fault | split | with_reducible refine State.Quiet.of_fst (by assumption) ?_ | fail_if_no_progress with_reducible refine State.Quiet.other ?_ rfl rfl rfl rfl rfl rfl rfl

theorem execSpiWrite_quiet {s0 : State} {t : Tick} {msg : List Byte} {s : State} (hq : s0.Quiet s) :
    s0.QuietOut (execSpiWrite t msg s) := by
  unfold execSpiWrite
  try extract_lets y1 y2 y3
  try
    have k1 : s0.Quiet y1 := by
      dsimp only [y1]
      repeat' first | with_reducible assumption | with_reducible apply State.at_quiet | split | with_reducible refine State.Quiet.of_fst (by assumption) ?_
    clear_value y1
  try
    have k2 : s0.Quiet y2 := by
      dsimp only [y2]
      repeat' first | with_reducible assumption | with_reducible apply State.spiTouch_quiet | split | with_reducible refine State.Quiet.of_fst (by assumption) ?_
    clear_value y2
  repeat' first | with_reducible assumption | with_reducible apply State.QuietOut.next | with_reducible exact State.QuietOut.fault | split | with_reducible refine State.Quiet.of_fst (by assumption) ?_ | fail_if_no_progress with_reducible refine State.Quiet.other ?_ rfl rfl rfl rfl rfl rfl rfl

theorem execSpiRead_quiet {s0 : State} {t : Tick} {length : Nat} {s : State} (hq : s0.Quiet s) :
    s0.QuietOut (execSpiRead t length s) := by
  unfold execSpiRead
  try extract_lets y1 y2 y3 y4
  try
    have k1 : s0.Quiet y1 := by
      dsimp only [y1]
      repeat' first | with_reducible assumption | with_reducible apply State.at_quiet | split | with_reducible refine State.Quiet.of_fst (by assumption) ?_
    clear_value y1
  try
    have k2 : s0.Quiet y2 := by
      dsimp only [y2]
      repeat' first | with_reducible assumption | with_reducible apply State.spiTouch_quiet | split | with_reducible refine State.Quiet.of_fst (by assumption) ?_
    clear_value y2
  try
    have k4 : s0.Quiet y4 := by
      dsimp only [y4]
      repeat' first | with_reducible assumption | with_reducible apply State.emit_quiet | split | with_reducible refine State.Quiet.of_fst (by assumption) ?_
    clear_value y4
  repeat' first | with_reducible assumption | with_reducible apply State.QuietOut.next | with_reducible exact State.QuietOut.fault | with_reducible apply State.spiTook_quiet | split | with_reducible refine State.Quiet.of_fst (by assumption) ?_

theorem execI2cPointerWrite_quiet {s0 : State} {t : Tick} {data : List Byte} {s : State} (hq : s0.Quiet s) :
    s0.QuietOut (execI2cPointerWrite t data s) := by
  unfold execI2cPointerWrite
  try extract_lets y1 y2 y3
  try
    have k1 : s0.Quiet y1 := by
      dsimp only [y1]
      repeat' first | with_reducible assumption | with_reducible apply State.at_quiet | split | with_reducible refine State.Quiet.of_fst (by assumption) ?_
    clear_value y1
  repeat' first | with_reducible assumption | with_reducible apply State.QuietOut.next | with_reducible exact State.QuietOut.fault | with_reducible apply State.at_quiet | with_reducible apply State.withPower_quiet | split | with_reducible refine State.Quiet.of_fst (by assumption) ?_ | dsimp only

theorem execI2cRead_quiet {s0 : State} {t : Tick} {length : Nat} {s : State} (hq : s0.Quiet s) :
    s0.QuietOut (execI2cRead t length s) := by
  unfold execI2cRead
  try extract_lets y1 y2 y3 y4 y5
  try
    have k1 : s0.Quiet y1 := by
      dsimp only [y1]
      repeat' first | with_reducible assumption | with_reducible apply State.at_quiet | split | with_reducible refine State.Quiet.of_fst (by assumption) ?_
    clear_value y1
  try
    have k5 : s0.Quiet y5 := by
      dsimp only [y5]
      repeat' first | with_reducible assumption | with_reducible apply State.withPower_quiet | split | with_reducible refine State.Quiet.of_fst (by assumption) ?_
    clear_value y5
  repeat' first | with_reducible assumption | with_reducible apply State.QuietOut.next | with_reducible exact State.QuietOut.fault | with_reducible apply State.emit_quiet | split | with_reducible refine State.Quiet.of_fst (by assumption) ?_ | dsimp only

theorem State.testedLink_quiet {s0 : State} {s : State} {link : Port} {up : Bool} (hq : s0.Quiet s) :
    s0.Quiet (State.testedLink s link up) := by
  unfold State.testedLink
  try extract_lets y1
  repeat' first | with_reducible assumption | split | with_reducible refine State.Quiet.of_fst (by assumption) ?_ | fail_if_no_progress with_reducible refine State.Quiet.other ?_ rfl rfl rfl rfl rfl rfl rfl | dsimp only

theorem execNetworkLinkLoss_quiet {s0 : State} {t : Tick} {link : Port} {s : State} (hq : s0.Quiet s) :
    s0.QuietOut (execNetworkLinkLoss t link s) := by
  unfold execNetworkLinkLoss
  try extract_lets y1 y2 y3 y4
  try
    have k1 : s0.Quiet y1 := by
      dsimp only [y1]
      repeat' first | with_reducible assumption | with_reducible apply State.at_quiet | split | with_reducible refine State.Quiet.of_fst (by assumption) ?_
    clear_value y1
  try
    have k3 : s0.Quiet y3 := by
      dsimp only [y3]
      repeat' first | with_reducible assumption | with_reducible apply State.setLink_quiet | split | with_reducible refine State.Quiet.of_fst (by assumption) ?_
    clear_value y3
  repeat' first | with_reducible assumption | with_reducible apply State.QuietOut.next | with_reducible exact State.QuietOut.fault | with_reducible apply State.at_quiet | with_reducible apply State.setLink_quiet | with_reducible apply State.withPower_quiet | with_reducible apply State.linkDown_quiet | with_reducible apply State.testedLink_quiet | split | with_reducible refine State.Quiet.of_fst (by assumption) ?_ | dsimp only

theorem State.relinkNext_quiet {s0 : State} {s : State} {link : Port} (hq : s0.Quiet s) :
    s0.Quiet (State.relinkNext s link) := by
  unfold State.relinkNext
  try extract_lets y1
  repeat' first | with_reducible assumption | with_reducible apply State.withPower_quiet | with_reducible apply State.linkDown_quiet | split | with_reducible refine State.Quiet.of_fst (by assumption) ?_ | dsimp only

theorem execNetworkLinkUp_quiet {s0 : State} {t : Tick} {link : Port} {gigabit : Bool} {s : State} (hq : s0.Quiet s) :
    s0.QuietOut (execNetworkLinkUp t link gigabit s) := by
  unfold execNetworkLinkUp
  try extract_lets y1 y2 y3 y4 y5 y6
  try
    have k1 : s0.Quiet y1 := by
      dsimp only [y1]
      repeat' first | with_reducible assumption | with_reducible apply State.at_quiet | split | with_reducible refine State.Quiet.of_fst (by assumption) ?_
    clear_value y1
  try
    have k4 : s0.Quiet y4 := by
      dsimp only [y4]
      repeat' first | with_reducible assumption | split | with_reducible refine State.Quiet.of_fst (by assumption) ?_ | fail_if_no_progress with_reducible refine State.Quiet.other ?_ rfl rfl rfl rfl rfl rfl rfl
    clear_value y4
  try
    have k6 : s0.Quiet y6 := by
      dsimp only [y6]
      repeat' first | with_reducible assumption | with_reducible apply State.moveTo_quiet | split | with_reducible refine State.Quiet.of_fst (by assumption) ?_ | fail_if_no_progress with_reducible refine State.Quiet.other ?_ rfl rfl rfl rfl rfl rfl rfl
    clear_value y6
  repeat' first | with_reducible assumption | with_reducible apply State.QuietOut.next | with_reducible exact State.QuietOut.fault | with_reducible apply State.at_quiet | with_reducible apply State.setLink_quiet | with_reducible apply State.testedLink_quiet | with_reducible apply State.withPower_quiet | with_reducible apply State.moveTo_quiet | with_reducible apply State.relinkNext_quiet | split | with_reducible refine State.Quiet.of_fst (by assumption) ?_ | dsimp only

theorem execArpNeighbourSolicitation_quiet {s0 : State} {t : Tick} {link : Port} {ipv6 : Bool} {addr : BitVec 128} {s : State} (hq : s0.Quiet s) :
    s0.QuietOut (execArpNeighbourSolicitation t link ipv6 addr s) := by
  unfold execArpNeighbourSolicitation
  try extract_lets y1
  try
    have k1 : s0.Quiet y1 := by
      dsimp only [y1]
      repeat' first | with_reducible assumption | with_reducible apply State.at_quiet | split | with_reducible refine State.Quiet.of_fst (by assumption) ?_
    clear_value y1
  repeat' first | with_reducible assumption | with_reducible apply State.QuietOut.next | with_reducible exact State.QuietOut.fault | with_reducible apply State.at_quiet | with_reducible apply State.emit_quiet | split | with_reducible refine State.Quiet.of_fst (by assumption) ?_ | dsimp only

end Sys2Proof.Machine
end

