-- ==== Sys2Proof/Laws/KeepsHealth.lean ====
section
/-! SUPPORT. What the operations of Machine/Health.lean keep. -/

set_option linter.unusedTactic false
set_option linter.unreachableTactic false
set_option linter.unusedVariables false

namespace Sys2Proof.Machine

theorem State.withHealth_quiet {s0 s : State} {x : Health} (h : s0.Quiet s) (hl : x.log = s.health.log) : s0.Quiet (s.withHealth x) :=
  State.Quiet.other h rfl rfl rfl hl rfl rfl rfl

theorem execWavelengthCalibration_quiet {s0 : State} {t : Tick} {errorKhz : Int} {s : State} (hq : s0.Quiet s) :
    s0.QuietOut (execWavelengthCalibration t errorKhz s) := by
  unfold execWavelengthCalibration
  try extract_lets y1 y2 y3
  try
    have k1 : s0.Quiet y1 := by
      dsimp only [y1]
      repeat' first | with_reducible assumption | with_reducible apply State.at_quiet | split | with_reducible refine State.Quiet.of_fst (by assumption) ?_
    clear_value y1
  try
    have k3 : s0.Quiet y3 := by
      dsimp only [y3]
      repeat' first | with_reducible assumption | refine State.withHealth_quiet ?_ rfl | with_reducible apply State.roSetInt_quiet | with_reducible apply State.bgDone_quiet | split | with_reducible refine State.Quiet.of_fst (by assumption) ?_
    clear_value y3
  repeat' first | with_reducible assumption | with_reducible apply State.QuietOut.next | with_reducible exact State.QuietOut.fault | with_reducible apply State.raise_quiet | split | with_reducible refine State.Quiet.of_fst (by assumption) ?_

theorem execFlashBlockErase_quiet {s0 : State} {t : Tick} {block : Nat} {ok : Bool} {s : State} (hq : s0.Quiet s) :
    s0.QuietOut (execFlashBlockErase t block ok s) := by
  unfold execFlashBlockErase
  try extract_lets y1 y2 y3 y4 y5 y6 y7 y8 y9 y10 y11 y12
  try
    have k1 : s0.Quiet y1 := by
      dsimp only [y1]
      repeat' first | with_reducible assumption | with_reducible apply State.at_quiet | split | with_reducible refine State.Quiet.of_fst (by assumption) ?_
    clear_value y1
  try
    have k9 : s0.Quiet y9 := by
      dsimp only [y9]
      repeat' first | with_reducible assumption | refine State.withHealth_quiet ?_ rfl | split | with_reducible refine State.Quiet.of_fst (by assumption) ?_
    clear_value y9
  try
    have k10 : s0.Quiet y10 := by
      dsimp only [y10]
      repeat' first | with_reducible assumption | with_reducible apply State.roMax_quiet | with_reducible apply State.roSet_quiet | with_reducible apply State.bgDone_quiet | split | with_reducible refine State.Quiet.of_fst (by assumption) ?_
    clear_value y10
  try
    have k12 : s0.Quiet y12 := by
      dsimp only [y12]
      repeat' first | with_reducible assumption | with_reducible apply State.withPower_quiet | split | with_reducible refine State.Quiet.of_fst (by assumption) ?_
    clear_value y12
  repeat' first | with_reducible assumption | with_reducible apply State.QuietOut.next | with_reducible exact State.QuietOut.fault | with_reducible apply State.raiseSev_quiet | split | with_reducible refine State.Quiet.of_fst (by assumption) ?_

theorem execTelemetryRecord_quiet {s0 : State} {t : Tick} {s : State} (hq : s0.Quiet s) :
    s0.QuietOut (execTelemetryRecord t s) := by
  unfold execTelemetryRecord
  try extract_lets y1 y2
  try
    have k1 : s0.Quiet y1 := by
      dsimp only [y1]
      repeat' first | with_reducible assumption | with_reducible apply State.at_quiet | split | with_reducible refine State.Quiet.of_fst (by assumption) ?_
    clear_value y1
  repeat' first | with_reducible assumption | with_reducible apply State.QuietOut.next | with_reducible exact State.QuietOut.fault | refine State.withHealth_quiet ?_ rfl | with_reducible apply State.bgDone_quiet | split | with_reducible refine State.Quiet.of_fst (by assumption) ?_

theorem execTelemetryHourly_quiet {s0 : State} {t : Tick} {s : State} (hq : s0.Quiet s) :
    s0.QuietOut (execTelemetryHourly t s) := by
  unfold execTelemetryHourly
  extract_lets y1 xs body hl
  have k1 : s0.Quiet y1 := State.at_quiet hq
  clear_value y1 body
  split
  · exact State.QuietOut.next (State.bgDone_quiet (State.logEntry_quiet (State.withHealth_quiet k1 rfl)))
  · exact State.QuietOut.next k1

theorem execLifeAccount_quiet {s0 : State} {t : Tick} {s : State} (hq : s0.Quiet s) :
    s0.QuietOut (execLifeAccount t s) := by
  unfold execLifeAccount
  try extract_lets y1 y2 y3 y4 y5 y6 y7 y8 y9
  try
    have k1 : s0.Quiet y1 := by
      dsimp only [y1]
      repeat' first | with_reducible assumption | with_reducible apply State.at_quiet | split | with_reducible refine State.Quiet.of_fst (by assumption) ?_
    clear_value y1
  try
    have k5 : s0.Quiet y5 := by
      dsimp only [y5]
      repeat' first | with_reducible assumption | refine State.withHealth_quiet ?_ rfl | split | with_reducible refine State.Quiet.of_fst (by assumption) ?_
    clear_value y5
  try
    have k6 : s0.Quiet y6 := by
      dsimp only [y6]
      repeat' first | with_reducible assumption | with_reducible apply State.bump_quiet | with_reducible apply State.roSet_quiet | split | with_reducible refine State.Quiet.of_fst (by assumption) ?_
    clear_value y6
  repeat' first | with_reducible assumption | with_reducible apply State.QuietOut.next | with_reducible exact State.QuietOut.fault | with_reducible apply State.raiseSev_quiet | with_reducible apply State.roSet_quiet | with_reducible apply State.bgDone_quiet | with_reducible apply State.Quiet.foldl | with_reducible exact State.Quiet.refl _ | with_reducible intro _ _ | split | with_reducible refine State.Quiet.of_fst (by assumption) ?_ | fail_if_no_progress with_reducible refine State.Quiet.other ?_ rfl rfl rfl rfl rfl rfl rfl | dsimp only

theorem execLifeRead_quiet {s0 : State} {h : Hdr} {s : State} (hq : s0.Quiet s) :
    s0.QuietOut (execLifeRead h s) := by
  unfold execLifeRead
  try extract_lets y1
  repeat' first | with_reducible assumption | with_reducible apply State.QuietOut.next | with_reducible exact State.QuietOut.fault | with_reducible apply request_quiet | with_reducible exact State.Quiet.refl _ | with_reducible intro _ | dsimp only | with_reducible apply State.Quiet.foldl | with_reducible apply State.Quiet.eachPort | with_reducible exact State.Quiet.refl _ | with_reducible intro _ _ | split | with_reducible refine State.Quiet.of_fst (by assumption) ?_ | fail_if_no_progress with_reducible refine State.Quiet.other ?_ rfl rfl rfl rfl rfl rfl rfl | dsimp only

theorem execLogRead_quiet {s0 : State} {h : Hdr} {start : Nat} {limit : Nat} {s : State} (hq : s0.Quiet s) :
    s0.QuietOut (execLogRead h start limit s) := by
  unfold execLogRead
  repeat' first | with_reducible assumption | with_reducible apply State.QuietOut.next | with_reducible exact State.QuietOut.fault | with_reducible apply request_quiet | with_reducible apply request_quiet | with_reducible intro _ | with_reducible apply State.Quiet.foldl | with_reducible apply State.Quiet.eachPort | with_reducible exact State.Quiet.refl _ | with_reducible intro _ _ | split | with_reducible refine State.Quiet.of_fst (by assumption) ?_ | fail_if_no_progress with_reducible refine State.Quiet.other ?_ rfl rfl rfl rfl rfl rfl rfl | dsimp only

theorem execTelemetryRead_quiet {s0 : State} {h : Hdr} {start : Nat} {limit : Nat} {s : State} (hq : s0.Quiet s) :
    s0.QuietOut (execTelemetryRead h start limit s) := by
  unfold execTelemetryRead
  try extract_lets y1
  repeat' first | with_reducible assumption | with_reducible apply State.QuietOut.next | with_reducible exact State.QuietOut.fault | with_reducible apply request_quiet | with_reducible exact State.Quiet.refl _ | with_reducible intro _ | dsimp only | with_reducible apply State.Quiet.foldl | with_reducible apply State.Quiet.eachPort | with_reducible exact State.Quiet.refl _ | with_reducible intro _ _ | split | with_reducible refine State.Quiet.of_fst (by assumption) ?_ | fail_if_no_progress with_reducible refine State.Quiet.other ?_ rfl rfl rfl rfl rfl rfl rfl | dsimp only

theorem State.selftestStart_quiet {s0 : State} {s : State} {mask : Nat} (hq : s0.Quiet s) :
    s0.Quiet (State.selftestStart s mask).1 := by
  unfold State.selftestStart
  try extract_lets y1 y2 y3 y4 y5 y6
  try
    have k4 : s0.Quiet y4 := by
      dsimp only [y4]
      repeat' first | with_reducible assumption | refine State.withHealth_quiet ?_ rfl | with_reducible apply State.roSet_quiet | split | with_reducible refine State.Quiet.of_fst (by assumption) ?_
    clear_value y4
  try
    have k6 : s0.Quiet y6 := by
      dsimp only [y6]
      repeat' first | with_reducible assumption | with_reducible apply State.withMem_quiet | with_reducible apply State.setRank_quiet | split | with_reducible refine State.Quiet.of_fst (by assumption) ?_ | fail_if_no_progress with_reducible refine State.Quiet.other ?_ rfl rfl rfl rfl rfl rfl rfl
    clear_value y6
  repeat' first | with_reducible assumption | split | with_reducible refine State.Quiet.of_fst (by assumption) ?_ | dsimp only

theorem execSelftest_quiet {s0 : State} {h : Hdr} {mask : Nat} {s : State} (hq : s0.Quiet s) :
    s0.QuietOut (execSelftest h mask s) := by
  unfold execSelftest
  repeat' first | with_reducible assumption | with_reducible apply State.QuietOut.next | with_reducible exact State.QuietOut.fault | with_reducible apply request_quiet | with_reducible apply State.selftestStart_quiet | with_reducible apply request_quiet | with_reducible intro _ | with_reducible apply State.Quiet.foldl | with_reducible apply State.Quiet.eachPort | with_reducible exact State.Quiet.refl _ | with_reducible intro _ _ | split | with_reducible refine State.Quiet.of_fst (by assumption) ?_ | fail_if_no_progress with_reducible refine State.Quiet.other ?_ rfl rfl rfl rfl rfl rfl rfl | dsimp only

theorem State.coilLaunches_quiet {s0 : State} {s : State} {from_ : Tick} (hq : s0.Quiet s) :
    s0.Quiet (State.coilLaunches s from_) := by
  unfold State.coilLaunches
  repeat' first | with_reducible assumption | with_reducible apply State.emit_quiet | with_reducible apply State.drawn_quiet | with_reducible apply State.Quiet.foldl | with_reducible apply State.Quiet.eachPort | with_reducible exact State.Quiet.refl _ | with_reducible intro _ _ | split | with_reducible refine State.Quiet.of_fst (by assumption) ?_ | fail_if_no_progress with_reducible refine State.Quiet.other ?_ rfl rfl rfl rfl rfl rfl rfl | dsimp only

theorem execSelftestComplete_quiet {s0 : State} {t : Tick} {failed : Nat} {details : List Nat} {s : State} (hq : s0.Quiet s) :
    s0.QuietOut (execSelftestComplete t failed details s) := by
  unfold execSelftestComplete
  extract_lets y1 y2 y3 y4 y5 y6 y7 y8 y9 y10 y11 y12 y13 y14 y15 y16 y17
  first
    | (have k1 : s0.Quiet y1 := by (dsimp only [y1]; repeat' first | with_reducible assumption | with_reducible apply State.QuietOut.next | with_reducible exact State.QuietOut.fault | with_reducible apply State.at_quiet | with_reducible apply State.coilLaunches_quiet | with_reducible apply State.withHealth_quiet | with_reducible apply State.roSet_quiet | with_reducible apply State.bump_quiet | with_reducible apply State.raiseSev_quiet | with_reducible apply State.Quiet.foldl | with_reducible apply State.Quiet.eachPort | with_reducible exact State.Quiet.refl _ | with_reducible intro _ _ | split | with_reducible refine State.Quiet.of_fst (by assumption) ?_ | fail_if_no_progress with_reducible refine State.Quiet.other ?_ rfl rfl rfl rfl rfl rfl rfl | dsimp only)
       clear_value y1)
    | skip
  first
    | (have k2 : s0.Quiet y2 := by (dsimp only [y2]; repeat' first | with_reducible assumption | with_reducible apply State.QuietOut.next | with_reducible exact State.QuietOut.fault | with_reducible apply State.at_quiet | with_reducible apply State.coilLaunches_quiet | with_reducible apply State.withHealth_quiet | with_reducible apply State.roSet_quiet | with_reducible apply State.bump_quiet | with_reducible apply State.raiseSev_quiet | with_reducible apply State.Quiet.foldl | with_reducible apply State.Quiet.eachPort | with_reducible exact State.Quiet.refl _ | with_reducible intro _ _ | split | with_reducible refine State.Quiet.of_fst (by assumption) ?_ | fail_if_no_progress with_reducible refine State.Quiet.other ?_ rfl rfl rfl rfl rfl rfl rfl | dsimp only)
       clear_value y2)
    | skip
  first
    | (have k3 : s0.Quiet y3 := by (dsimp only [y3]; repeat' first | with_reducible assumption | with_reducible apply State.QuietOut.next | with_reducible exact State.QuietOut.fault | with_reducible apply State.at_quiet | with_reducible apply State.coilLaunches_quiet | with_reducible apply State.withHealth_quiet | with_reducible apply State.roSet_quiet | with_reducible apply State.bump_quiet | with_reducible apply State.raiseSev_quiet | with_reducible apply State.Quiet.foldl | with_reducible apply State.Quiet.eachPort | with_reducible exact State.Quiet.refl _ | with_reducible intro _ _ | split | with_reducible refine State.Quiet.of_fst (by assumption) ?_ | fail_if_no_progress with_reducible refine State.Quiet.other ?_ rfl rfl rfl rfl rfl rfl rfl | dsimp only)
       clear_value y3)
    | skip
  first
    | (have k4 : s0.Quiet y4 := by (dsimp only [y4]; repeat' first | with_reducible assumption | with_reducible apply State.QuietOut.next | with_reducible exact State.QuietOut.fault | with_reducible apply State.at_quiet | with_reducible apply State.coilLaunches_quiet | with_reducible apply State.withHealth_quiet | with_reducible apply State.roSet_quiet | with_reducible apply State.bump_quiet | with_reducible apply State.raiseSev_quiet | with_reducible apply State.Quiet.foldl | with_reducible apply State.Quiet.eachPort | with_reducible exact State.Quiet.refl _ | with_reducible intro _ _ | split | with_reducible refine State.Quiet.of_fst (by assumption) ?_ | fail_if_no_progress with_reducible refine State.Quiet.other ?_ rfl rfl rfl rfl rfl rfl rfl | dsimp only)
       clear_value y4)
    | skip
  first
    | (have k5 : s0.Quiet y5 := by (dsimp only [y5]; repeat' first | with_reducible assumption | with_reducible apply State.QuietOut.next | with_reducible exact State.QuietOut.fault | with_reducible apply State.at_quiet | with_reducible apply State.coilLaunches_quiet | with_reducible apply State.withHealth_quiet | with_reducible apply State.roSet_quiet | with_reducible apply State.bump_quiet | with_reducible apply State.raiseSev_quiet | with_reducible apply State.Quiet.foldl | with_reducible apply State.Quiet.eachPort | with_reducible exact State.Quiet.refl _ | with_reducible intro _ _ | split | with_reducible refine State.Quiet.of_fst (by assumption) ?_ | fail_if_no_progress with_reducible refine State.Quiet.other ?_ rfl rfl rfl rfl rfl rfl rfl | dsimp only)
       clear_value y5)
    | skip
  first
    | (have k6 : s0.Quiet y6 := by (dsimp only [y6]; repeat' first | with_reducible assumption | with_reducible apply State.QuietOut.next | with_reducible exact State.QuietOut.fault | with_reducible apply State.at_quiet | with_reducible apply State.coilLaunches_quiet | with_reducible apply State.withHealth_quiet | with_reducible apply State.roSet_quiet | with_reducible apply State.bump_quiet | with_reducible apply State.raiseSev_quiet | with_reducible apply State.Quiet.foldl | with_reducible apply State.Quiet.eachPort | with_reducible exact State.Quiet.refl _ | with_reducible intro _ _ | split | with_reducible refine State.Quiet.of_fst (by assumption) ?_ | fail_if_no_progress with_reducible refine State.Quiet.other ?_ rfl rfl rfl rfl rfl rfl rfl | dsimp only)
       clear_value y6)
    | skip
  first
    | (have k7 : s0.Quiet y7 := by (dsimp only [y7]; repeat' first | with_reducible assumption | with_reducible apply State.QuietOut.next | with_reducible exact State.QuietOut.fault | with_reducible apply State.at_quiet | with_reducible apply State.coilLaunches_quiet | with_reducible apply State.withHealth_quiet | with_reducible apply State.roSet_quiet | with_reducible apply State.bump_quiet | with_reducible apply State.raiseSev_quiet | with_reducible apply State.Quiet.foldl | with_reducible apply State.Quiet.eachPort | with_reducible exact State.Quiet.refl _ | with_reducible intro _ _ | split | with_reducible refine State.Quiet.of_fst (by assumption) ?_ | fail_if_no_progress with_reducible refine State.Quiet.other ?_ rfl rfl rfl rfl rfl rfl rfl | dsimp only)
       clear_value y7)
    | skip
  first
    | (have k8 : s0.Quiet y8 := by (dsimp only [y8]; repeat' first | with_reducible assumption | with_reducible apply State.QuietOut.next | with_reducible exact State.QuietOut.fault | with_reducible apply State.at_quiet | with_reducible apply State.coilLaunches_quiet | with_reducible apply State.withHealth_quiet | with_reducible apply State.roSet_quiet | with_reducible apply State.bump_quiet | with_reducible apply State.raiseSev_quiet | with_reducible apply State.Quiet.foldl | with_reducible apply State.Quiet.eachPort | with_reducible exact State.Quiet.refl _ | with_reducible intro _ _ | split | with_reducible refine State.Quiet.of_fst (by assumption) ?_ | fail_if_no_progress with_reducible refine State.Quiet.other ?_ rfl rfl rfl rfl rfl rfl rfl | dsimp only)
       clear_value y8)
    | skip
  first
    | (have k9 : s0.Quiet y9 := by (dsimp only [y9]; repeat' first | with_reducible assumption | with_reducible apply State.QuietOut.next | with_reducible exact State.QuietOut.fault | with_reducible apply State.at_quiet | with_reducible apply State.coilLaunches_quiet | with_reducible apply State.withHealth_quiet | with_reducible apply State.roSet_quiet | with_reducible apply State.bump_quiet | with_reducible apply State.raiseSev_quiet | with_reducible apply State.Quiet.foldl | with_reducible apply State.Quiet.eachPort | with_reducible exact State.Quiet.refl _ | with_reducible intro _ _ | split | with_reducible refine State.Quiet.of_fst (by assumption) ?_ | fail_if_no_progress with_reducible refine State.Quiet.other ?_ rfl rfl rfl rfl rfl rfl rfl | dsimp only)
       clear_value y9)
    | skip
  first
    | (have k10 : s0.Quiet y10 := by (dsimp only [y10]; repeat' first | with_reducible assumption | with_reducible apply State.QuietOut.next | with_reducible exact State.QuietOut.fault | with_reducible apply State.at_quiet | with_reducible apply State.coilLaunches_quiet | with_reducible apply State.withHealth_quiet | with_reducible apply State.roSet_quiet | with_reducible apply State.bump_quiet | with_reducible apply State.raiseSev_quiet | with_reducible apply State.Quiet.foldl | with_reducible apply State.Quiet.eachPort | with_reducible exact State.Quiet.refl _ | with_reducible intro _ _ | split | with_reducible refine State.Quiet.of_fst (by assumption) ?_ | fail_if_no_progress with_reducible refine State.Quiet.other ?_ rfl rfl rfl rfl rfl rfl rfl | dsimp only)
       clear_value y10)
    | skip
  first
    | (have k11 : s0.Quiet y11 := by (dsimp only [y11]; repeat' first | with_reducible assumption | with_reducible apply State.QuietOut.next | with_reducible exact State.QuietOut.fault | with_reducible apply State.at_quiet | with_reducible apply State.coilLaunches_quiet | with_reducible apply State.withHealth_quiet | with_reducible apply State.roSet_quiet | with_reducible apply State.bump_quiet | with_reducible apply State.raiseSev_quiet | with_reducible apply State.Quiet.foldl | with_reducible apply State.Quiet.eachPort | with_reducible exact State.Quiet.refl _ | with_reducible intro _ _ | split | with_reducible refine State.Quiet.of_fst (by assumption) ?_ | fail_if_no_progress with_reducible refine State.Quiet.other ?_ rfl rfl rfl rfl rfl rfl rfl | dsimp only)
       clear_value y11)
    | skip
  first
    | (have k12 : s0.Quiet y12 := by (dsimp only [y12]; repeat' first | with_reducible assumption | with_reducible apply State.QuietOut.next | with_reducible exact State.QuietOut.fault | with_reducible apply State.at_quiet | with_reducible apply State.coilLaunches_quiet | with_reducible apply State.withHealth_quiet | with_reducible apply State.roSet_quiet | with_reducible apply State.bump_quiet | with_reducible apply State.raiseSev_quiet | with_reducible apply State.Quiet.foldl | with_reducible apply State.Quiet.eachPort | with_reducible exact State.Quiet.refl _ | with_reducible intro _ _ | split | with_reducible refine State.Quiet.of_fst (by assumption) ?_ | fail_if_no_progress with_reducible refine State.Quiet.other ?_ rfl rfl rfl rfl rfl rfl rfl | dsimp only)
       clear_value y12)
    | skip
  first
    | (have k13 : s0.Quiet y13 := by (dsimp only [y13]; repeat' first | with_reducible assumption | with_reducible apply State.QuietOut.next | with_reducible exact State.QuietOut.fault | with_reducible apply State.at_quiet | with_reducible apply State.coilLaunches_quiet | with_reducible apply State.withHealth_quiet | with_reducible apply State.roSet_quiet | with_reducible apply State.bump_quiet | with_reducible apply State.raiseSev_quiet | with_reducible apply State.Quiet.foldl | with_reducible apply State.Quiet.eachPort | with_reducible exact State.Quiet.refl _ | with_reducible intro _ _ | split | with_reducible refine State.Quiet.of_fst (by assumption) ?_ | fail_if_no_progress with_reducible refine State.Quiet.other ?_ rfl rfl rfl rfl rfl rfl rfl | dsimp only)
       clear_value y13)
    | skip
  first
    | (have k14 : s0.Quiet y14 := by (dsimp only [y14]; repeat' first | with_reducible assumption | with_reducible apply State.QuietOut.next | with_reducible exact State.QuietOut.fault | with_reducible apply State.at_quiet | with_reducible apply State.coilLaunches_quiet | with_reducible apply State.withHealth_quiet | with_reducible apply State.roSet_quiet | with_reducible apply State.bump_quiet | with_reducible apply State.raiseSev_quiet | with_reducible apply State.Quiet.foldl | with_reducible apply State.Quiet.eachPort | with_reducible exact State.Quiet.refl _ | with_reducible intro _ _ | split | with_reducible refine State.Quiet.of_fst (by assumption) ?_ | fail_if_no_progress with_reducible refine State.Quiet.other ?_ rfl rfl rfl rfl rfl rfl rfl | dsimp only)
       clear_value y14)
    | skip
  repeat' first | with_reducible assumption | with_reducible apply State.QuietOut.next | with_reducible exact State.QuietOut.fault | with_reducible apply State.at_quiet | with_reducible apply State.coilLaunches_quiet | with_reducible apply State.withHealth_quiet | with_reducible apply State.roSet_quiet | with_reducible apply State.bump_quiet | with_reducible apply State.raiseSev_quiet | with_reducible apply State.Quiet.foldl | with_reducible apply State.Quiet.eachPort | with_reducible exact State.Quiet.refl _ | with_reducible intro _ _ | split | with_reducible refine State.Quiet.of_fst (by assumption) ?_ | fail_if_no_progress with_reducible refine State.Quiet.other ?_ rfl rfl rfl rfl rfl rfl rfl | dsimp only

theorem execSelftestResult_quiet {s0 : State} {h : Hdr} {s : State} (hq : s0.Quiet s) :
    s0.QuietOut (execSelftestResult h s) := by
  unfold execSelftestResult
  try extract_lets y1
  repeat' first | with_reducible assumption | with_reducible apply State.QuietOut.next | with_reducible exact State.QuietOut.fault | with_reducible apply request_quiet | with_reducible exact State.Quiet.refl _ | with_reducible intro _ | dsimp only | with_reducible apply State.Quiet.foldl | with_reducible apply State.Quiet.eachPort | with_reducible exact State.Quiet.refl _ | with_reducible intro _ _ | split | with_reducible refine State.Quiet.of_fst (by assumption) ?_ | fail_if_no_progress with_reducible refine State.Quiet.other ?_ rfl rfl rfl rfl rfl rfl rfl | dsimp only

theorem State.linkTestStart_quiet {s0 : State} {s : State} {l pattern seconds : Nat} {p : Option Port} (hq : s0.Quiet s) :
    s0.Quiet (State.linkTestStart s l pattern seconds p) := by
  unfold State.linkTestStart
  extract_lets x hl y1
  have k1 : s0.Quiet y1 := State.withHealth_quiet hq rfl
  clear_value y1
  repeat' first | with_reducible assumption | with_reducible apply State.linkDown_quiet | split | fail_if_no_progress with_reducible refine State.Quiet.other ?_ rfl rfl rfl rfl rfl rfl rfl | with_reducible refine State.Quiet.of_fst (by assumption) ?_

theorem State.linkTestAsk_quiet {s0 : State} {s : State} {l pattern seconds : Nat} {peer : BitVec 64} (hq : s0.Quiet s) :
    s0.Quiet (State.linkTestAsk s l pattern seconds peer).1 := by
  unfold State.linkTestAsk
  repeat' first | with_reducible assumption | with_reducible apply State.linkTestStart_quiet | with_reducible apply State.drawn_quiet | with_reducible apply State.Quiet.foldl | with_reducible apply State.Quiet.eachPort | with_reducible exact State.Quiet.refl _ | with_reducible intro _ _ | split | with_reducible refine State.Quiet.of_fst (by assumption) ?_ | fail_if_no_progress with_reducible refine State.Quiet.other ?_ rfl rfl rfl rfl rfl rfl rfl | dsimp only

theorem execLinkTest_quiet {s0 : State} {h : Hdr} {link : Nat} {pattern : Nat} {seconds : Nat} {peer : BitVec 64} {s : State} (hq : s0.Quiet s) :
    s0.QuietOut (execLinkTest h link pattern seconds peer s) := by
  unfold execLinkTest
  try extract_lets y1
  repeat' first | with_reducible assumption | with_reducible apply State.QuietOut.next | with_reducible exact State.QuietOut.fault | with_reducible apply request_quiet | with_reducible exact State.Quiet.refl _ | with_reducible intro _ | dsimp only | with_reducible apply State.linkTestAsk_quiet | with_reducible apply State.Quiet.foldl | with_reducible apply State.Quiet.eachPort | with_reducible exact State.Quiet.refl _ | with_reducible intro _ _ | split | with_reducible refine State.Quiet.of_fst (by assumption) ?_ | fail_if_no_progress with_reducible refine State.Quiet.other ?_ rfl rfl rfl rfl rfl rfl rfl | dsimp only

theorem execLinkTestEnd_quiet {s0 : State} {t : Tick} {link : Nat} {bits : Nat} {errors : Nat} {s : State} (hq : s0.Quiet s) :
    s0.QuietOut (execLinkTestEnd t link bits errors s) := by
  unfold execLinkTestEnd
  extract_lets y1
  have k1 : s0.Quiet y1 := State.at_quiet hq
  clear_value y1
  repeat' first | with_reducible assumption | with_reducible apply State.QuietOut.next | extract_lets | with_reducible apply State.moveTo_quiet | with_reducible apply State.setLink_quiet | refine State.withHealth_quiet ?_ rfl | split | fail_if_no_progress with_reducible refine State.Quiet.other ?_ rfl rfl rfl rfl rfl rfl rfl | with_reducible refine State.Quiet.of_fst (by assumption) ?_

theorem execLinkResult_quiet {s0 : State} {h : Hdr} {link : Nat} {s : State} (hq : s0.Quiet s) :
    s0.QuietOut (execLinkResult h link s) := by
  unfold execLinkResult
  try extract_lets y1
  repeat' first | with_reducible assumption | with_reducible apply State.QuietOut.next | with_reducible exact State.QuietOut.fault | with_reducible apply request_quiet | with_reducible exact State.Quiet.refl _ | with_reducible intro _ | dsimp only | with_reducible apply State.drawn_quiet | with_reducible apply State.Quiet.foldl | with_reducible apply State.Quiet.eachPort | with_reducible exact State.Quiet.refl _ | with_reducible intro _ _ | split | with_reducible refine State.Quiet.of_fst (by assumption) ?_ | fail_if_no_progress with_reducible refine State.Quiet.other ?_ rfl rfl rfl rfl rfl rfl rfl | dsimp only

theorem execLinkErrorCheck_quiet {s0 : State} {t : Tick} {link : Nat} {errors : Nat} {s : State} (hq : s0.Quiet s) :
    s0.QuietOut (execLinkErrorCheck t link errors s) := by
  unfold execLinkErrorCheck
  try extract_lets y1 y2 y3
  try
    have k1 : s0.Quiet y1 := by
      dsimp only [y1]
      repeat' first | with_reducible assumption | with_reducible apply State.at_quiet | split | with_reducible refine State.Quiet.of_fst (by assumption) ?_
    clear_value y1
  try
    have k3 : s0.Quiet y3 := by
      dsimp only [y3]
      repeat' first | with_reducible assumption | refine State.withHealth_quiet ?_ rfl | with_reducible apply State.bump_quiet | split | with_reducible refine State.Quiet.of_fst (by assumption) ?_
    clear_value y3
  repeat' first | with_reducible assumption | with_reducible apply State.QuietOut.next | with_reducible exact State.QuietOut.fault | with_reducible apply State.raise_quiet | split | with_reducible refine State.Quiet.of_fst (by assumption) ?_

end Sys2Proof.Machine
end

