-- ==== Sys2Proof/Laws/KeepsStateCmds.lean ====
section
/-! SUPPORT. What the operations of Machine/StateCmds.lean keep. -/

set_option linter.unusedTactic false
set_option linter.unreachableTactic false
set_option linter.unusedVariables false

namespace Sys2Proof.Machine

theorem execStateGet_quiet {s0 : State} {h : Hdr} {s : State} (hq : s0.Quiet s) :
    s0.QuietOut (execStateGet h s) := by
  unfold execStateGet
  try extract_lets y1
  repeat' first | with_reducible assumption | with_reducible apply State.QuietOut.next | with_reducible exact State.QuietOut.fault | with_reducible apply request_quiet | with_reducible exact State.Quiet.refl _ | with_reducible intro _ | dsimp only | with_reducible apply State.Quiet.foldl | with_reducible apply State.Quiet.eachPort | with_reducible exact State.Quiet.refl _ | with_reducible intro _ _ | split | with_reducible refine State.Quiet.of_fst (by assumption) ?_ | fail_if_no_progress with_reducible refine State.Quiet.other ?_ rfl rfl rfl rfl rfl rfl rfl | dsimp only

theorem State.runCmd_quiet {s0 : State} {s : State} (hq : s0.Quiet s) :
    s0.Quiet (State.runCmd s).1 := by
  unfold State.runCmd
  try extract_lets y1
  repeat' first | with_reducible assumption | with_reducible apply State.withPower_quiet | split | with_reducible refine State.Quiet.of_fst (by assumption) ?_

theorem execRun_quiet {s0 : State} {h : Hdr} {s : State} (hq : s0.Quiet s) :
    s0.QuietOut (execRun h s) := by
  unfold execRun
  try extract_lets y1
  repeat' first | with_reducible assumption | with_reducible apply State.QuietOut.next | with_reducible exact State.QuietOut.fault | with_reducible apply request_quiet | with_reducible exact State.Quiet.refl _ | with_reducible intro _ | dsimp only | with_reducible apply State.runCmd_quiet | with_reducible apply State.Quiet.foldl | with_reducible apply State.Quiet.eachPort | with_reducible exact State.Quiet.refl _ | with_reducible intro _ _ | split | with_reducible refine State.Quiet.of_fst (by assumption) ?_ | fail_if_no_progress with_reducible refine State.Quiet.other ?_ rfl rfl rfl rfl rfl rfl rfl | dsimp only

theorem execWake_quiet {s0 : State} {h : Hdr} {s : State} (hq : s0.Quiet s) :
    s0.QuietOut (execWake h s) := by
  unfold execWake
  try extract_lets y1
  repeat' first | with_reducible assumption | with_reducible apply State.QuietOut.next | with_reducible exact State.QuietOut.fault | with_reducible apply request_quiet | with_reducible exact State.Quiet.refl _ | with_reducible intro _ | dsimp only | with_reducible apply State.Quiet.foldl | with_reducible apply State.Quiet.eachPort | with_reducible exact State.Quiet.refl _ | with_reducible intro _ _ | split | with_reducible refine State.Quiet.of_fst (by assumption) ?_ | fail_if_no_progress with_reducible refine State.Quiet.other ?_ rfl rfl rfl rfl rfl rfl rfl | dsimp only

end Sys2Proof.Machine
end

