-- ==== Sys2Proof/Laws/KeepsStrobe.lean ====
section
/-! SUPPORT. What the operations of Machine/Strobe.lean keep. -/

set_option linter.unusedTactic false
set_option linter.unreachableTactic false
set_option linter.unusedVariables false

namespace Sys2Proof.Machine

theorem State.frameEnd_quiet {s0 : State} {s : State} {p : Port} {obs : FrameObs} (hq : s0.Quiet s) :
    s0.Quiet (State.frameEnd s p obs) := by
  unfold State.frameEnd
  repeat' first | with_reducible assumption | with_reducible apply State.dtsFold_quiet | with_reducible apply State.setCoh_quiet | with_reducible apply State.roSetInt_quiet | with_reducible apply State.roSet_quiet | with_reducible apply State.Quiet.foldl | with_reducible apply State.Quiet.eachPort | with_reducible exact State.Quiet.refl _ | with_reducible intro _ _ | split | with_reducible refine State.Quiet.of_fst (by assumption) ?_ | fail_if_no_progress with_reducible refine State.Quiet.other ?_ rfl rfl rfl rfl rfl rfl rfl | dsimp only

theorem State.iqStrobe_quiet {s0 : State} {s : State} {p : Port} (hq : s0.Quiet s) :
    s0.Quiet (State.iqStrobe s p) := by
  unfold State.iqStrobe
  extract_lets y1 y2 y3 y4 y5 y6 y7 y8 y9 y10
  first
    | (have k1 : s0.Quiet y1 := by (dsimp only [y1]; repeat' first | with_reducible assumption | with_reducible apply State.roSetInt_quiet | with_reducible apply State.setCoh_quiet | with_reducible apply State.applyWeights_quiet | with_reducible apply State.Quiet.foldl | with_reducible apply State.Quiet.eachPort | with_reducible exact State.Quiet.refl _ | with_reducible intro _ _ | split | with_reducible refine State.Quiet.of_fst (by assumption) ?_ | fail_if_no_progress with_reducible refine State.Quiet.other ?_ rfl rfl rfl rfl rfl rfl rfl | dsimp only)
       clear_value y1)
    | clear_value y1
    | skip
  first
    | (have k2 : s0.Quiet y2 := by (dsimp only [y2]; repeat' first | with_reducible assumption | with_reducible apply State.roSetInt_quiet | with_reducible apply State.setCoh_quiet | with_reducible apply State.applyWeights_quiet | with_reducible apply State.Quiet.foldl | with_reducible apply State.Quiet.eachPort | with_reducible exact State.Quiet.refl _ | with_reducible intro _ _ | split | with_reducible refine State.Quiet.of_fst (by assumption) ?_ | fail_if_no_progress with_reducible refine State.Quiet.other ?_ rfl rfl rfl rfl rfl rfl rfl | dsimp only)
       clear_value y2)
    | clear_value y2
    | skip
  first
    | (have k3 : s0.Quiet y3 := by (dsimp only [y3]; repeat' first | with_reducible assumption | with_reducible apply State.roSetInt_quiet | with_reducible apply State.setCoh_quiet | with_reducible apply State.applyWeights_quiet | with_reducible apply State.Quiet.foldl | with_reducible apply State.Quiet.eachPort | with_reducible exact State.Quiet.refl _ | with_reducible intro _ _ | split | with_reducible refine State.Quiet.of_fst (by assumption) ?_ | fail_if_no_progress with_reducible refine State.Quiet.other ?_ rfl rfl rfl rfl rfl rfl rfl | dsimp only)
       clear_value y3)
    | clear_value y3
    | skip
  first
    | (have k4 : s0.Quiet y4 := by (dsimp only [y4]; repeat' first | with_reducible assumption | with_reducible apply State.roSetInt_quiet | with_reducible apply State.setCoh_quiet | with_reducible apply State.applyWeights_quiet | with_reducible apply State.Quiet.foldl | with_reducible apply State.Quiet.eachPort | with_reducible exact State.Quiet.refl _ | with_reducible intro _ _ | split | with_reducible refine State.Quiet.of_fst (by assumption) ?_ | fail_if_no_progress with_reducible refine State.Quiet.other ?_ rfl rfl rfl rfl rfl rfl rfl | dsimp only)
       clear_value y4)
    | clear_value y4
    | skip
  first
    | (have k5 : s0.Quiet y5 := by (dsimp only [y5]; repeat' first | with_reducible assumption | with_reducible apply State.roSetInt_quiet | with_reducible apply State.setCoh_quiet | with_reducible apply State.applyWeights_quiet | with_reducible apply State.Quiet.foldl | with_reducible apply State.Quiet.eachPort | with_reducible exact State.Quiet.refl _ | with_reducible intro _ _ | split | with_reducible refine State.Quiet.of_fst (by assumption) ?_ | fail_if_no_progress with_reducible refine State.Quiet.other ?_ rfl rfl rfl rfl rfl rfl rfl | dsimp only)
       clear_value y5)
    | clear_value y5
    | skip
  first
    | (have k6 : s0.Quiet y6 := by (dsimp only [y6]; repeat' first | with_reducible assumption | with_reducible apply State.roSetInt_quiet | with_reducible apply State.setCoh_quiet | with_reducible apply State.applyWeights_quiet | with_reducible apply State.Quiet.foldl | with_reducible apply State.Quiet.eachPort | with_reducible exact State.Quiet.refl _ | with_reducible intro _ _ | split | with_reducible refine State.Quiet.of_fst (by assumption) ?_ | fail_if_no_progress with_reducible refine State.Quiet.other ?_ rfl rfl rfl rfl rfl rfl rfl | dsimp only)
       clear_value y6)
    | clear_value y6
    | skip
  first
    | (have k7 : s0.Quiet y7 := by (dsimp only [y7]; repeat' first | with_reducible assumption | with_reducible apply State.roSetInt_quiet | with_reducible apply State.setCoh_quiet | with_reducible apply State.applyWeights_quiet | with_reducible apply State.Quiet.foldl | with_reducible apply State.Quiet.eachPort | with_reducible exact State.Quiet.refl _ | with_reducible intro _ _ | split | with_reducible refine State.Quiet.of_fst (by assumption) ?_ | fail_if_no_progress with_reducible refine State.Quiet.other ?_ rfl rfl rfl rfl rfl rfl rfl | dsimp only)
       clear_value y7)
    | clear_value y7
    | skip
  repeat' first | with_reducible assumption | with_reducible apply State.roSetInt_quiet | with_reducible apply State.setCoh_quiet | with_reducible apply State.applyWeights_quiet | with_reducible apply State.Quiet.foldl | with_reducible apply State.Quiet.eachPort | with_reducible exact State.Quiet.refl _ | with_reducible intro _ _ | split | with_reducible refine State.Quiet.of_fst (by assumption) ?_ | fail_if_no_progress with_reducible refine State.Quiet.other ?_ rfl rfl rfl rfl rfl rfl rfl | dsimp only

theorem State.ramanStrobe_quiet {s0 : State} {s : State} {p : Port} (hq : s0.Quiet s) :
    s0.Quiet (State.ramanStrobe s p) := by
  unfold State.ramanStrobe
  try extract_lets y1 y2 y3
  try
    have k1 : s0.Quiet y1 := by
      dsimp only [y1]
      repeat' first | with_reducible assumption | with_reducible apply State.dtsStrobe_quiet | with_reducible apply State.dtsCheck_quiet | with_reducible apply State.undoDone_quiet | with_reducible apply State.Quiet.foldl | with_reducible apply State.Quiet.eachPort | with_reducible exact State.Quiet.refl _ | with_reducible intro _ _ | split | with_reducible refine State.Quiet.of_fst (by assumption) ?_ | fail_if_no_progress with_reducible refine State.Quiet.other ?_ rfl rfl rfl rfl rfl rfl rfl | dsimp only
    clear_value y1
  repeat' first | with_reducible assumption | with_reducible apply State.dtsStrobe_quiet | with_reducible apply State.dtsCheck_quiet | with_reducible apply State.undoDone_quiet | with_reducible apply State.Quiet.foldl | with_reducible apply State.Quiet.eachPort | with_reducible exact State.Quiet.refl _ | with_reducible intro _ _ | split | with_reducible refine State.Quiet.of_fst (by assumption) ?_ | fail_if_no_progress with_reducible refine State.Quiet.other ?_ rfl rfl rfl rfl rfl rfl rfl | dsimp only

theorem State.strobe_quiet {s0 : State} {s : State} {p : Port} (hq : s0.Quiet s) :
    s0.Quiet (State.strobe s p) := by
  unfold State.strobe
  extract_lets y1 y2 y3 y4 y5 y6 y7 y8 y9 y10 y11 y12 y13 y14 y15 y16
  first
    | (have k1 : s0.Quiet y1 := by (dsimp only [y1]; repeat' first | with_reducible assumption | with_reducible apply State.switchIfDue_quiet | with_reducible apply State.iqStrobe_quiet | with_reducible apply State.commitAtStrobe_quiet | with_reducible apply State.enterApr_quiet | with_reducible apply State.setClamp_quiet | with_reducible apply State.latchAll_quiet | with_reducible apply State.gainStrobe_quiet | with_reducible apply State.undoDone_quiet | with_reducible apply State.ramanStrobe_quiet | with_reducible apply State.frameBegin_quiet | with_reducible apply State.noteGains_quiet | with_reducible apply State.Quiet.foldl | with_reducible apply State.Quiet.eachPort | with_reducible exact State.Quiet.refl _ | with_reducible intro _ _ | split | with_reducible refine State.Quiet.of_fst (by assumption) ?_ | fail_if_no_progress with_reducible refine State.Quiet.other ?_ rfl rfl rfl rfl rfl rfl rfl | dsimp only)
       clear_value y1)
    | clear_value y1
    | skip
  first
    | (have k2 : s0.Quiet y2 := by (dsimp only [y2]; repeat' first | with_reducible assumption | with_reducible apply State.switchIfDue_quiet | with_reducible apply State.iqStrobe_quiet | with_reducible apply State.commitAtStrobe_quiet | with_reducible apply State.enterApr_quiet | with_reducible apply State.setClamp_quiet | with_reducible apply State.latchAll_quiet | with_reducible apply State.gainStrobe_quiet | with_reducible apply State.undoDone_quiet | with_reducible apply State.ramanStrobe_quiet | with_reducible apply State.frameBegin_quiet | with_reducible apply State.noteGains_quiet | with_reducible apply State.Quiet.foldl | with_reducible apply State.Quiet.eachPort | with_reducible exact State.Quiet.refl _ | with_reducible intro _ _ | split | with_reducible refine State.Quiet.of_fst (by assumption) ?_ | fail_if_no_progress with_reducible refine State.Quiet.other ?_ rfl rfl rfl rfl rfl rfl rfl | dsimp only)
       clear_value y2)
    | clear_value y2
    | skip
  first
    | (have k3 : s0.Quiet y3 := by (dsimp only [y3]; repeat' first | with_reducible assumption | with_reducible apply State.switchIfDue_quiet | with_reducible apply State.iqStrobe_quiet | with_reducible apply State.commitAtStrobe_quiet | with_reducible apply State.enterApr_quiet | with_reducible apply State.setClamp_quiet | with_reducible apply State.latchAll_quiet | with_reducible apply State.gainStrobe_quiet | with_reducible apply State.undoDone_quiet | with_reducible apply State.ramanStrobe_quiet | with_reducible apply State.frameBegin_quiet | with_reducible apply State.noteGains_quiet | with_reducible apply State.Quiet.foldl | with_reducible apply State.Quiet.eachPort | with_reducible exact State.Quiet.refl _ | with_reducible intro _ _ | split | with_reducible refine State.Quiet.of_fst (by assumption) ?_ | fail_if_no_progress with_reducible refine State.Quiet.other ?_ rfl rfl rfl rfl rfl rfl rfl | dsimp only)
       clear_value y3)
    | clear_value y3
    | skip
  first
    | (have k4 : s0.Quiet y4 := by (dsimp only [y4]; repeat' first | with_reducible assumption | with_reducible apply State.switchIfDue_quiet | with_reducible apply State.iqStrobe_quiet | with_reducible apply State.commitAtStrobe_quiet | with_reducible apply State.enterApr_quiet | with_reducible apply State.setClamp_quiet | with_reducible apply State.latchAll_quiet | with_reducible apply State.gainStrobe_quiet | with_reducible apply State.undoDone_quiet | with_reducible apply State.ramanStrobe_quiet | with_reducible apply State.frameBegin_quiet | with_reducible apply State.noteGains_quiet | with_reducible apply State.Quiet.foldl | with_reducible apply State.Quiet.eachPort | with_reducible exact State.Quiet.refl _ | with_reducible intro _ _ | split | with_reducible refine State.Quiet.of_fst (by assumption) ?_ | fail_if_no_progress with_reducible refine State.Quiet.other ?_ rfl rfl rfl rfl rfl rfl rfl | dsimp only)
       clear_value y4)
    | clear_value y4
    | skip
  first
    | (have k5 : s0.Quiet y5 := by (dsimp only [y5]; repeat' first | with_reducible assumption | with_reducible apply State.switchIfDue_quiet | with_reducible apply State.iqStrobe_quiet | with_reducible apply State.commitAtStrobe_quiet | with_reducible apply State.enterApr_quiet | with_reducible apply State.setClamp_quiet | with_reducible apply State.latchAll_quiet | with_reducible apply State.gainStrobe_quiet | with_reducible apply State.undoDone_quiet | with_reducible apply State.ramanStrobe_quiet | with_reducible apply State.frameBegin_quiet | with_reducible apply State.noteGains_quiet | with_reducible apply State.Quiet.foldl | with_reducible apply State.Quiet.eachPort | with_reducible exact State.Quiet.refl _ | with_reducible intro _ _ | split | with_reducible refine State.Quiet.of_fst (by assumption) ?_ | fail_if_no_progress with_reducible refine State.Quiet.other ?_ rfl rfl rfl rfl rfl rfl rfl | dsimp only)
       clear_value y5)
    | clear_value y5
    | skip
  first
    | (have k6 : s0.Quiet y6 := by (dsimp only [y6]; repeat' first | with_reducible assumption | with_reducible apply State.switchIfDue_quiet | with_reducible apply State.iqStrobe_quiet | with_reducible apply State.commitAtStrobe_quiet | with_reducible apply State.enterApr_quiet | with_reducible apply State.setClamp_quiet | with_reducible apply State.latchAll_quiet | with_reducible apply State.gainStrobe_quiet | with_reducible apply State.undoDone_quiet | with_reducible apply State.ramanStrobe_quiet | with_reducible apply State.frameBegin_quiet | with_reducible apply State.noteGains_quiet | with_reducible apply State.Quiet.foldl | with_reducible apply State.Quiet.eachPort | with_reducible exact State.Quiet.refl _ | with_reducible intro _ _ | split | with_reducible refine State.Quiet.of_fst (by assumption) ?_ | fail_if_no_progress with_reducible refine State.Quiet.other ?_ rfl rfl rfl rfl rfl rfl rfl | dsimp only)
       clear_value y6)
    | clear_value y6
    | skip
  first
    | (have k7 : s0.Quiet y7 := by (dsimp only [y7]; repeat' first | with_reducible assumption | with_reducible apply State.switchIfDue_quiet | with_reducible apply State.iqStrobe_quiet | with_reducible apply State.commitAtStrobe_quiet | with_reducible apply State.enterApr_quiet | with_reducible apply State.setClamp_quiet | with_reducible apply State.latchAll_quiet | with_reducible apply State.gainStrobe_quiet | with_reducible apply State.undoDone_quiet | with_reducible apply State.ramanStrobe_quiet | with_reducible apply State.frameBegin_quiet | with_reducible apply State.noteGains_quiet | with_reducible apply State.Quiet.foldl | with_reducible apply State.Quiet.eachPort | with_reducible exact State.Quiet.refl _ | with_reducible intro _ _ | split | with_reducible refine State.Quiet.of_fst (by assumption) ?_ | fail_if_no_progress with_reducible refine State.Quiet.other ?_ rfl rfl rfl rfl rfl rfl rfl | dsimp only)
       clear_value y7)
    | clear_value y7
    | skip
  first
    | (have k8 : s0.Quiet y8 := by (dsimp only [y8]; repeat' first | with_reducible assumption | with_reducible apply State.switchIfDue_quiet | with_reducible apply State.iqStrobe_quiet | with_reducible apply State.commitAtStrobe_quiet | with_reducible apply State.enterApr_quiet | with_reducible apply State.setClamp_quiet | with_reducible apply State.latchAll_quiet | with_reducible apply State.gainStrobe_quiet | with_reducible apply State.undoDone_quiet | with_reducible apply State.ramanStrobe_quiet | with_reducible apply State.frameBegin_quiet | with_reducible apply State.noteGains_quiet | with_reducible apply State.Quiet.foldl | with_reducible apply State.Quiet.eachPort | with_reducible exact State.Quiet.refl _ | with_reducible intro _ _ | split | with_reducible refine State.Quiet.of_fst (by assumption) ?_ | fail_if_no_progress with_reducible refine State.Quiet.other ?_ rfl rfl rfl rfl rfl rfl rfl | dsimp only)
       clear_value y8)
    | clear_value y8
    | skip
  first
    | (have k9 : s0.Quiet y9 := by (dsimp only [y9]; repeat' first | with_reducible assumption | with_reducible apply State.switchIfDue_quiet | with_reducible apply State.iqStrobe_quiet | with_reducible apply State.commitAtStrobe_quiet | with_reducible apply State.enterApr_quiet | with_reducible apply State.setClamp_quiet | with_reducible apply State.latchAll_quiet | with_reducible apply State.gainStrobe_quiet | with_reducible apply State.undoDone_quiet | with_reducible apply State.ramanStrobe_quiet | with_reducible apply State.frameBegin_quiet | with_reducible apply State.noteGains_quiet | with_reducible apply State.Quiet.foldl | with_reducible apply State.Quiet.eachPort | with_reducible exact State.Quiet.refl _ | with_reducible intro _ _ | split | with_reducible refine State.Quiet.of_fst (by assumption) ?_ | fail_if_no_progress with_reducible refine State.Quiet.other ?_ rfl rfl rfl rfl rfl rfl rfl | dsimp only)
       clear_value y9)
    | clear_value y9
    | skip
  first
    | (have k10 : s0.Quiet y10 := by (dsimp only [y10]; repeat' first | with_reducible assumption | with_reducible apply State.switchIfDue_quiet | with_reducible apply State.iqStrobe_quiet | with_reducible apply State.commitAtStrobe_quiet | with_reducible apply State.enterApr_quiet | with_reducible apply State.setClamp_quiet | with_reducible apply State.latchAll_quiet | with_reducible apply State.gainStrobe_quiet | with_reducible apply State.undoDone_quiet | with_reducible apply State.ramanStrobe_quiet | with_reducible apply State.frameBegin_quiet | with_reducible apply State.noteGains_quiet | with_reducible apply State.Quiet.foldl | with_reducible apply State.Quiet.eachPort | with_reducible exact State.Quiet.refl _ | with_reducible intro _ _ | split | with_reducible refine State.Quiet.of_fst (by assumption) ?_ | fail_if_no_progress with_reducible refine State.Quiet.other ?_ rfl rfl rfl rfl rfl rfl rfl | dsimp only)
       clear_value y10)
    | clear_value y10
    | skip
  first
    | (have k11 : s0.Quiet y11 := by (dsimp only [y11]; repeat' first | with_reducible assumption | with_reducible apply State.switchIfDue_quiet | with_reducible apply State.iqStrobe_quiet | with_reducible apply State.commitAtStrobe_quiet | with_reducible apply State.enterApr_quiet | with_reducible apply State.setClamp_quiet | with_reducible apply State.latchAll_quiet | with_reducible apply State.gainStrobe_quiet | with_reducible apply State.undoDone_quiet | with_reducible apply State.ramanStrobe_quiet | with_reducible apply State.frameBegin_quiet | with_reducible apply State.noteGains_quiet | with_reducible apply State.Quiet.foldl | with_reducible apply State.Quiet.eachPort | with_reducible exact State.Quiet.refl _ | with_reducible intro _ _ | split | with_reducible refine State.Quiet.of_fst (by assumption) ?_ | fail_if_no_progress with_reducible refine State.Quiet.other ?_ rfl rfl rfl rfl rfl rfl rfl | dsimp only)
       clear_value y11)
    | clear_value y11
    | skip
  first
    | (have k12 : s0.Quiet y12 := by (dsimp only [y12]; repeat' first | with_reducible assumption | with_reducible apply State.switchIfDue_quiet | with_reducible apply State.iqStrobe_quiet | with_reducible apply State.commitAtStrobe_quiet | with_reducible apply State.enterApr_quiet | with_reducible apply State.setClamp_quiet | with_reducible apply State.latchAll_quiet | with_reducible apply State.gainStrobe_quiet | with_reducible apply State.undoDone_quiet | with_reducible apply State.ramanStrobe_quiet | with_reducible apply State.frameBegin_quiet | with_reducible apply State.noteGains_quiet | with_reducible apply State.Quiet.foldl | with_reducible apply State.Quiet.eachPort | with_reducible exact State.Quiet.refl _ | with_reducible intro _ _ | split | with_reducible refine State.Quiet.of_fst (by assumption) ?_ | fail_if_no_progress with_reducible refine State.Quiet.other ?_ rfl rfl rfl rfl rfl rfl rfl | dsimp only)
       clear_value y12)
    | clear_value y12
    | skip
  first
    | (have k13 : s0.Quiet y13 := by (dsimp only [y13]; repeat' first | with_reducible assumption | with_reducible apply State.switchIfDue_quiet | with_reducible apply State.iqStrobe_quiet | with_reducible apply State.commitAtStrobe_quiet | with_reducible apply State.enterApr_quiet | with_reducible apply State.setClamp_quiet | with_reducible apply State.latchAll_quiet | with_reducible apply State.gainStrobe_quiet | with_reducible apply State.undoDone_quiet | with_reducible apply State.ramanStrobe_quiet | with_reducible apply State.frameBegin_quiet | with_reducible apply State.noteGains_quiet | with_reducible apply State.Quiet.foldl | with_reducible apply State.Quiet.eachPort | with_reducible exact State.Quiet.refl _ | with_reducible intro _ _ | split | with_reducible refine State.Quiet.of_fst (by assumption) ?_ | fail_if_no_progress with_reducible refine State.Quiet.other ?_ rfl rfl rfl rfl rfl rfl rfl | dsimp only)
       clear_value y13)
    | clear_value y13
    | skip
  repeat' first | with_reducible assumption | with_reducible apply State.switchIfDue_quiet | with_reducible apply State.iqStrobe_quiet | with_reducible apply State.commitAtStrobe_quiet | with_reducible apply State.enterApr_quiet | with_reducible apply State.setClamp_quiet | with_reducible apply State.latchAll_quiet | with_reducible apply State.gainStrobe_quiet | with_reducible apply State.undoDone_quiet | with_reducible apply State.ramanStrobe_quiet | with_reducible apply State.frameBegin_quiet | with_reducible apply State.noteGains_quiet | with_reducible apply State.Quiet.foldl | with_reducible apply State.Quiet.eachPort | with_reducible exact State.Quiet.refl _ | with_reducible intro _ _ | split | with_reducible refine State.Quiet.of_fst (by assumption) ?_ | fail_if_no_progress with_reducible refine State.Quiet.other ?_ rfl rfl rfl rfl rfl rfl rfl | dsimp only

theorem execFrameStrobe_quiet {s0 : State} {t : Tick} {p : Port} {obs : FrameObs} {s : State} (hq : s0.Quiet s) :
    s0.QuietOut (execFrameStrobe t p obs s) := by
  unfold execFrameStrobe
  try extract_lets y1 y2
  try
    have k1 : s0.Quiet y1 := by
      dsimp only [y1]
      repeat' first | with_reducible assumption | with_reducible apply State.QuietOut.next | with_reducible exact State.QuietOut.fault | with_reducible apply State.at_quiet | with_reducible apply State.frameEnd_quiet | with_reducible apply State.takeAdc_quiet | with_reducible apply State.strobe_quiet | with_reducible apply State.Quiet.foldl | with_reducible apply State.Quiet.eachPort | with_reducible exact State.Quiet.refl _ | with_reducible intro _ _ | split | with_reducible refine State.Quiet.of_fst (by assumption) ?_ | fail_if_no_progress with_reducible refine State.Quiet.other ?_ rfl rfl rfl rfl rfl rfl rfl | dsimp only
    clear_value y1
  repeat' first | with_reducible assumption | with_reducible apply State.QuietOut.next | with_reducible exact State.QuietOut.fault | with_reducible apply State.at_quiet | with_reducible apply State.frameEnd_quiet | with_reducible apply State.takeAdc_quiet | with_reducible apply State.strobe_quiet | with_reducible apply State.Quiet.foldl | with_reducible apply State.Quiet.eachPort | with_reducible exact State.Quiet.refl _ | with_reducible intro _ _ | split | with_reducible refine State.Quiet.of_fst (by assumption) ?_ | fail_if_no_progress with_reducible refine State.Quiet.other ?_ rfl rfl rfl rfl rfl rfl rfl | dsimp only

end Sys2Proof.Machine
end

