-- ==== Sys2Proof/Laws/KeepsMoves.lean ====
section
/-! SUPPORT. What the operations keep that change the module state or the kept port. -/


namespace Sys2Proof.Machine

/-- An operation that keeps what every operation keeps and, from a state that keeps a port in BEDROCK only, ends in module state `m` with port `k` kept. -/
structure State.Into (s t : State) (m : Mode) (k : Option Port) : Prop where
  keeps : s.Keeps t
  ends_ : s.keptOk → t.mode = m ∧ t.opt.kept = k

theorem State.Into.refl (s : State) : s.Into s s.mode s.opt.kept := ⟨State.Keeps.refl s, fun _ => ⟨rfl, rfl⟩⟩

theorem State.Into.quiet {s x t : State} {m k} (h : s.Into x m k) (q : x.Quiet t) : s.Into t m k :=
  ⟨h.keeps.trans q.keeps, fun r => ⟨q.mode.trans (h.ends_ r).1, q.kept.trans (h.ends_ r).2⟩⟩

theorem State.Quiet.into {s t : State} (q : s.Quiet t) : s.Into t s.mode s.opt.kept := (State.Into.refl s).quiet q

theorem State.Moves.into {s x t : State} {m k} (h : s.Moves x) (i : x.Into t m k) : s.Into t m k :=
  ⟨h.keeps.trans i.keeps, fun r => i.ends_ (h.kept r)⟩

theorem State.Into.moves {s t : State} {m k} (h : s.Into t m k) (e : k.isSome = true ↔ m = .bedrock) : s.Moves t :=
  ⟨h.keeps, fun r => by obtain ⟨a, b⟩ := h.ends_ r; unfold State.keptOk; rw [a, b]; exact e⟩

/-- Where no port can be kept, none is. -/
theorem State.Into.none {s t : State} {m} (h : s.Into t m s.opt.kept) (n : s.mode ≠ .bedrock) : s.Into t m none :=
  ⟨h.keeps, fun r => ⟨(h.ends_ r).1, by
    rw [(h.ends_ r).2]
    cases hk : s.opt.kept with
    | none => rfl
    | some p => exact absurd (r.1 (by rw [hk]; rfl)) n⟩⟩

theorem State.Into.cast {s t : State} {m k m' k'} (h : s.Into t m k) (hm : s.keptOk → m = m') (hk : s.keptOk → k = k') : s.Into t m' k' :=
  ⟨h.keeps, fun r => ⟨(h.ends_ r).1.trans (hm r), (h.ends_ r).2.trans (hk r)⟩⟩

/-- A new module state and kept port beside other fields. -/
theorem State.Into.set {s x : State} {m k} (h : s.Into x m k) {pending fresh out now moduleId mode modeSince ro cfg fw sess spi dup requests jobs nextJob events time health opt sig
    drive raman front basalt trig mem power ens}
    (h1 : (pending, moduleId) = (x.pending, x.moduleId)) (h2 : ro = x.ro) (h3 : events = x.events) (h4 : health.log = x.health.log) (h5 : dup = x.dup) (h6 : x.mode = m → mode = x.mode) :
    s.Into ⟨pending, fresh, out, now, moduleId, mode, modeSince, ro, cfg, fw, sess, spi, dup, requests, jobs, nextJob, events, time, health, opt, sig, drive, raman, front,
      basalt, trig, mem, power, ens⟩ m opt.kept := by
  subst h2 h3 h5
  refine ⟨h.keeps.trans ⟨h1, id, fun r => ⟨r.1, ?_⟩, id⟩, fun r => ⟨?_, rfl⟩⟩
  · show health.log.length ≤ 262144
    rw [h4]; exact r.2
  · exact (h6 (h.ends_ r).1).trans (h.ends_ r).1

theorem State.setMode_into {s x : State} {m0 k} {m : Mode} {cause : Nat} (h : s.Into x m0 k) : s.Into (x.setMode m cause) m k := by
  unfold State.setMode
  extract_lets pw y
  have k0 : s.Into y m k := by
    have h0 : s.Into { x with mode := m, modeSince := x.stamp, power := { x.power with clocks := clocksOf m } } m k :=
      ⟨h.keeps.trans ⟨rfl, id, id, id⟩, fun r => ⟨rfl, (h.ends_ r).2⟩⟩
    exact h0.quiet (State.testsKept_quiet (State.Quiet.refl _))
  clear_value y
  split
  · exact k0
  · exact k0.quiet (State.ensRefresh_quiet (State.bedrockLeft_quiet (State.raiseSev_quiet (State.Quiet.refl _))))

theorem State.stopMeasuring_into {s x : State} {m k} (h : s.Into x m k) : s.Into x.stopMeasuring m none := by
  unfold State.stopMeasuring
  extract_lets a b c
  have ka : x.Quiet a := State.channelsOff_quiet (State.noFibre_quiet (State.noFibre_quiet (State.noWaiting_quiet (State.Quiet.refl x))))
  clear_value a
  have kb : x.Quiet b := State.basaltStop_quiet (State.strataStop_quiet ka)
  clear_value b
  have kc : x.Quiet c := State.roSet_quiet (State.dropSteps_quiet kb)
  clear_value c
  exact (h.quiet kc).set rfl rfl rfl rfl rfl (fun _ => rfl)

theorem Mode.not_bedrock {m : Mode} (h : ¬ m.working = true) : m ≠ .bedrock := by
  rintro rfl
  exact h rfl

theorem State.enterFault_into {s : State} {cause : Nat} : s.Into (s.enterFault cause) .fault none := by
  unfold State.enterFault
  extract_lets a b c d
  have ka : s.Into a .fault s.opt.kept := State.setMode_into (State.Into.refl s)
  clear_value a
  have kb : s.Into b .fault none := by
    dsimp only [b]
    split
    · exact ((State.stopMeasuring_into ka).quiet (State.feStop_quiet (State.Quiet.refl _))).quiet (State.seedsOff_quiet (State.Quiet.refl _))
    · rename_i hw
      exact (ka.none (Mode.not_bedrock hw)).quiet (State.seedsOff_quiet (State.Quiet.refl _))
  clear_value b
  have kc : s.Into c .fault none := kb.quiet (State.channelsOff_quiet (State.Quiet.refl _))
  clear_value c
  exact kc.quiet (State.withPower_quiet (State.Quiet.refl _))

theorem State.enterFault_moves {s : State} {cause : Nat} : s.Moves (s.enterFault cause) := State.enterFault_into.moves (by simp)

theorem State.enterBedrock_moves {s : State} {causes : Nat} : s.Moves (s.enterBedrock causes) := by
  unfold State.enterBedrock
  extract_lets a
  have ka : s.Quiet a := State.dropSteps_quiet (State.Quiet.refl s)
  clear_value a
  split
  · exact ka.moves.trans State.enterFault_moves
  · rename_i k hk
    extract_lets b op pw c d e f g
    have kb : s.Quiet b := State.noWaiting_quiet (State.closePort_quiet ka)
    clear_value b
    have kc : s.Into c s.mode (some k) := kb.into.set rfl rfl rfl rfl rfl (fun _ => rfl)
    clear_value c
    have kd : s.Into d .bedrock (some k) := State.setMode_into (kc.quiet (State.roSet_quiet (State.roSet_quiet (State.Quiet.refl _))))
    clear_value d
    have ke : s.Into e .bedrock (some k) := kd.quiet (State.noFibre_quiet (State.raiseSev_quiet (State.Quiet.refl _)))
    clear_value e
    have kf : s.Into f .bedrock (some k) := ke.quiet (State.strataStop_quiet (State.dtsCheck_quiet (State.biasOff_quiet (State.biasOff_quiet (State.dtsCut_quiet (State.Quiet.refl _))))))
    clear_value f
    have kg : s.Into g .bedrock (some k) := kf.quiet (State.suspendStreams_quiet (State.feStop_quiet (State.basaltStop_quiet (State.Quiet.refl _))))
    clear_value g
    exact (kg.quiet (State.relinkStart_quiet (State.reschedule_quiet (State.standbyOff_quiet (State.Quiet.refl _))))).moves (by simp)

theorem State.enterRunning_moves {s : State} {cause : Nat} : s.Moves (s.enterRunning cause) := by
  unfold State.enterRunning
  extract_lets fb k s1 _ a b c _ s2 s3 s4 _ s5
  have k1 : s.Into s1 .running s.opt.kept := State.setMode_into (State.Into.refl s)
  clear_value s1 k
  have ka : s.Into a .running none := k1.set rfl rfl rfl rfl rfl (fun _ => rfl)
  clear_value a
  have kb : s.Into b .running none := ka.quiet (State.roSet_quiet (State.Quiet.refl _))
  clear_value b
  have kc : s.Into c .running none := kb.quiet (State.relinkStart_quiet (State.seedOn_quiet (State.feStart_quiet (State.Quiet.refl _))))
  clear_value c
  have k2 : s.Into s2 .running none := by
    dsimp only [s2]
    split
    · split
      · exact kc.quiet (State.reschedule_quiet (State.Quiet.refl _))
      · exact kc
    · rename_i hb
      have hn : s.mode ≠ .bedrock := fun e => hb (by dsimp only [fb]; rw [e]; rfl)
      exact (k1.none hn).quiet ((State.Quiet.refl _).other rfl rfl rfl rfl rfl rfl rfl)
  clear_value s2
  have k3 : s.Into s3 .running none := k2.quiet (State.streamsRestart_quiet (State.runDue_quiet (State.runDue_quiet (State.Quiet.refl _))))
  clear_value s3
  have k4 : s.Into s4 .running none := k3.quiet (State.armAll_quiet (State.Quiet.refl _))
  clear_value s4
  have k5 : s.Into s5 .running none := k4.quiet (State.Quiet.eachPort (fun y p => State.setPortSt_quiet (State.Quiet.refl y)) (State.withPower_quiet (State.Quiet.refl _)))
  clear_value s5
  have m5 : s.Moves s5 := k5.moves (by simp)
  split
  · exact m5.trans State.enterBedrock_moves
  · exact m5

theorem State.enterGeode_into {s : State} {deep : Bool} {mask : Nat} {wake : Stamp} {grant : Bool} {cause : Nat} :
    s.Into (s.enterGeode deep mask wake grant cause) .geode none := by
  unfold State.enterGeode
  extract_lets s1 s2 s3 rec_ s4 kept s5 g cf en pw s6
  have k1 : s.Into s1 .geode s.opt.kept := State.setMode_into (State.Into.refl s)
  clear_value s1
  have k2 : s.Into s2 .geode none := by
    dsimp only [s2]
    split
    · exact (State.stopMeasuring_into k1).quiet (State.feStop_quiet (State.Quiet.refl _))
    · rename_i hw
      exact k1.none (Mode.not_bedrock hw)
  clear_value s2
  have k3 : s.Into s3 .geode none := k2.quiet (State.closeSessions_quiet (State.channelsOff_quiet (State.seedsOff_quiet (State.Quiet.refl _))))
  clear_value s3
  have k4 : s.Into s4 .geode none := k3.quiet (State.memGeode_quiet (State.recordWritten_quiet (State.Quiet.refl _)))
  clear_value s4
  have k5 : s.Into s5 .geode none := k4.quiet (State.Quiet.eachPort (fun y p => by
    split
    · exact State.setLink_quiet (State.Quiet.refl y)
    · exact State.linkDown_quiet (State.Quiet.refl y)) (State.Quiet.refl _))
  clear_value s5
  have k6 : s.Into s6 .geode none := k5.quiet ((State.Quiet.refl _).other rfl rfl rfl rfl rfl rfl rfl)
  clear_value s6
  exact k6.quiet (State.selectTime_quiet (State.roSetInt_quiet (State.Quiet.refl _)))

theorem State.enterGeode_moves {s : State} {deep : Bool} {mask : Nat} {wake : Stamp} {grant : Bool} {cause : Nat} :
    s.Moves (s.enterGeode deep mask wake grant cause) := State.enterGeode_into.moves (by simp)

theorem State.powerWait_moves {s : State} : s.Moves s.powerWait := (State.roSet_quiet (State.Quiet.refl s)).moves.trans State.enterGeode_moves

theorem State.levelRunning_moves {s : State} : s.Moves s.levelRunning := by
  unfold State.levelRunning
  extract_lets s1 s2
  have k1 : s.Quiet s1 := State.roSet_quiet (State.Quiet.refl s)
  clear_value s1
  have k2 : s.Quiet s2 := State.shedMore_quiet (State.cancelUndo_quiet k1)
  clear_value s2
  split
  · exact State.enterBedrock_moves
  · split
    · exact (State.watchUndo_quiet (State.roSet_quiet (State.Quiet.refl s))).moves
    · split
      · split
        · exact (State.watchUndo_quiet k1).moves
        · split
          · exact (State.watchUndo_quiet k2).moves
          · exact k2.moves.trans State.enterBedrock_moves
      · split
        · exact State.enterBedrock_moves
        · exact State.powerWait_moves

theorem State.levelReady_moves {s : State} : s.Moves s.levelReady := by
  unfold State.levelReady
  split
  · exact State.powerWait_moves
  · exact (State.roSet_quiet (State.Quiet.refl s)).moves

theorem State.levelBedrock_moves {s : State} (hm : s.mode = .bedrock) : s.Moves s.levelBedrock := by
  unfold State.levelBedrock
  extract_lets c s1 pw s2 level s3
  have k1 : s.Quiet s1 := State.roSet_quiet (State.Quiet.refl s)
  clear_value s1
  have k2 : s.Quiet s2 := State.withPower_quiet k1
  clear_value s2
  have k3 : s.Quiet s3 := State.standbyOff_quiet (State.roSet_quiet k2)
  clear_value s3
  split
  · exact k2.moves.trans State.powerWait_moves
  · split
    · exact k3.moves.trans State.enterFault_moves
    · split
      · rename_i k hk
        split
        · exact k3.moves
        · extract_lets s4 op
          have k4 : s.Quiet s4 := State.noFibre_quiet k3
          clear_value s4
          have k5 : s.Into { s4 with opt := { s4.opt with kept := some k.other } } .bedrock (some k.other) :=
            ((k4.into.cast (fun _ => hm) (fun _ => rfl)).set rfl rfl rfl rfl rfl (fun _ => rfl))
          exact (k5.quiet (State.reschedule_quiet (State.Quiet.refl _))).moves (by simp)
      · exact k3.moves

theorem State.evalLevel_moves {s : State} : s.Moves s.evalLevel := by
  unfold State.evalLevel
  extract_lets pw a
  have ka : s.Quiet a := State.withPower_quiet (State.Quiet.refl s)
  clear_value a
  split
  · exact ka.moves
  · split
    · exact ka.moves.trans State.levelRunning_moves
    · exact ka.moves.trans State.levelReady_moves
    · exact ka.moves.trans (State.levelBedrock_moves (by assumption))
    · exact ka.moves

theorem PSet.filter_wf {p : PSet} (h : p.wf) (f : Key × Nat → Bool) : (PSet.mk (p.entries.filter f)).wf :=
  ⟨h.1.sublist List.filter_sublist, fun e he => h.2 e (List.mem_filter.1 he).1⟩

theorem State.enterBoot_into {s : State} {cause : Nat} {cold : Bool} : s.Into (s.enterBoot cause cold) .boot none := by
  unfold State.enterBoot
  extract_lets f boots z q _ _ _ _ _ _ _ _ _ base b0 b1 b2 b3 b4
  have kf : s.Quiet f := State.fwAtBoot_quiet (State.Quiet.refl s)
  have kb : s.Into base s.mode none :=
    ⟨⟨rfl, fun r => PSet.filter_wf (kf.keeps.registers r) _, fun r => ⟨Nat.zero_le _, r.2⟩, fun _ => Nat.zero_le _⟩, fun _ => ⟨rfl, rfl⟩⟩
  clear_value base
  have k0 : s.Into b0 s.mode none := kb.quiet (State.roSet_quiet (State.Quiet.refl _))
  clear_value b0
  have k1 : s.Into b1 s.mode none := by
    dsimp only [b1]
    split
    · exact k0.quiet (State.roSet_quiet (State.restoreFlash_quiet (State.Quiet.refl _)))
    · exact k0
  clear_value b1
  have k2 : s.Into b2 s.mode none := k1.quiet (State.Quiet.foldl (fun y c => by
    split
    · exact State.setChStatus_quiet (State.Quiet.refl y)
    · exact State.Quiet.refl y) (State.Quiet.refl _))
  clear_value b2
  have k3 : s.Into b3 s.mode none := k2.quiet (State.Quiet.foldl (fun y c => State.emit_quiet (State.Quiet.refl y)) (State.Quiet.refl _))
  clear_value b3
  have k4 : s.Into b4 s.mode none := by
    dsimp only [b4]
    split
    · refine k3.quiet (State.Quiet.foldl (fun y c => ?_) (State.Quiet.refl _))
      apply State.bump_quiet
      exact ⟨⟨rfl, id, fun r => ⟨List.length_take_le _ _, r.2⟩, id⟩, rfl, rfl⟩
    · exact k3
  clear_value b4
  exact State.setMode_into k4

theorem State.enterBoot_moves {s : State} {cause : Nat} {cold : Bool} : s.Moves (s.enterBoot cause cold) := State.enterBoot_into.moves (by simp)

theorem State.powerOn_moves {s : State} : s.Moves s.powerOn := by
  unfold State.powerOn
  extract_lets s1 s2
  have k1 : s.Moves s1 := State.enterBoot_moves
  clear_value s1
  have k2 : s.Moves s2 := k1.quiet (State.Quiet.foldl (fun y c => by
    split
    · exact State.raise_quiet (State.Quiet.refl y)
    · exact State.Quiet.refl y) (State.Quiet.refl _))
  clear_value s2
  exact k2.quiet (State.Quiet.foldl (fun y c => by
    split
    · exact State.raise_quiet (State.Quiet.refl y)
    · exact State.Quiet.refl y) (State.Quiet.refl _))

theorem State.enterReady_moves {s : State} {cause : Nat} {fromBoot : Bool} {shorts : List (Nat × Nat)} (hm : s.mode ≠ .bedrock) :
    s.Moves (s.enterReady cause fromBoot shorts) := by
  unfold State.enterReady
  extract_lets s1 s2 s3 fw s4
  have k1 : s.Into s1 .ready none := (State.setMode_into (State.Into.refl s)).none hm
  clear_value s1
  have k2 : s.Into s2 .ready none := k1.quiet (State.seedsStart_quiet (State.neighbourTest_quiet (State.retest_quiet (State.Quiet.refl _))))
  clear_value s2
  have k3 : s.Into s3 .ready none := k2.quiet (State.feStart_quiet (State.Quiet.refl _))
  clear_value s3
  have k4 : s.Into s4 .ready none := by
    dsimp only [s4]
    split
    · exact k3.quiet ((State.Quiet.refl _).other rfl rfl rfl rfl rfl rfl rfl)
    · exact k3
  clear_value s4
  exact ((k4.quiet (State.tellHost_quiet (State.Quiet.refl _))).moves (by simp)).trans State.evalLevel_moves

theorem State.bootFault_moves {s : State} {code cause : Nat} : s.Moves (s.bootFault code cause) := by
  unfold State.bootFault
  extract_lets s1
  have k1 : s.Moves s1 := State.enterFault_moves
  clear_value s1
  exact k1.quiet (State.tellHost_quiet (State.withPower_quiet (State.Quiet.refl _)))

theorem State.lockstepFailed_moves {s : State} : s.Moves s.lockstepFailed := by
  unfold State.lockstepFailed
  extract_lets ts pw s1
  have k1 : s.Quiet s1 := State.withPower_quiet (State.Quiet.refl s)
  clear_value s1
  split
  · exact k1.moves.trans State.enterBoot_moves
  · exact (State.withPower_quiet k1).moves

theorem State.bootSteps_moves {s : State} {o : BootObs} (hm : s.mode ≠ .bedrock) : s.Moves (s.bootSteps o) := by
  unfold State.bootSteps
  extract_lets im _ d s1 bad set _ _ s2 s3 s4
  have ki : s.Quiet im.1 := State.chooseImage_quiet (State.Quiet.refl s)
  clear_value im
  have kd : s.Quiet d.1 := State.bootDram_quiet ki
  clear_value d
  have k1 : s.Quiet s1 := State.bootCores_quiet (State.bootKernels_quiet kd)
  clear_value s1
  have k2 : s.Quiet s2 := k1.other rfl rfl rfl rfl rfl rfl rfl
  clear_value s2
  have k3 : s.Quiet s3 := State.publishStore_quiet (State.applySet_quiet k2)
  clear_value s3
  have k4 : s.Quiet s4 := State.logEntry_quiet k3
  clear_value s4
  split
  · exact (State.withPower_quiet ki).moves
  · split
    · exact ki.moves.trans State.bootFault_moves
    · split
      · exact kd.moves.trans State.bootFault_moves
      · split
        · exact k4.moves.trans (State.enterReady_moves (by rw [k4.mode]; exact hm))
        · exact k4.moves.trans State.powerWait_moves

theorem State.wakeUp_moves {s : State} {source : Nat} {shorts : List (Nat × Nat)} (hm : s.mode ≠ .bedrock) : s.Moves (s.wakeUp source shorts) := by
  unfold State.wakeUp
  split
  · exact State.Moves.refl s
  · extract_lets s1 epoch pw s2 tb s3 s4
    have k1 : s.Quiet s1 := State.raise_quiet (State.Quiet.refl s)
    clear_value s1
    have k2 : s.Quiet s2 := State.memWake_quiet (State.withPower_quiet k1)
    clear_value s2
    have k3 : s.Quiet s3 := State.withTime_quiet k2
    clear_value s3
    have k4 : s.Quiet s4 := State.applySet_quiet k3
    clear_value s4
    exact (k4.moves.trans (State.enterReady_moves (by rw [k4.mode]; exact hm))).quiet (State.selectTime_quiet (State.Quiet.refl _))

theorem State.shutDown_into {s x : State} {m k} {was : Mode} (h : s.Into x m k) (hw : s.keptOk → was.working = false → k = none) : s.Into (x.shutDown was) m none := by
  unfold State.shutDown
  extract_lets a
  have ka : s.Into a m none := by
    dsimp only [a]
    split
    · exact (State.stopMeasuring_into h).quiet (State.feStop_quiet (State.Quiet.refl _))
    · rename_i hn
      exact h.cast (fun _ => rfl) (fun r => hw r (by simpa using hn))
  clear_value a
  exact ka.quiet (State.memSave_quiet (State.closeSessions_quiet (State.channelsOff_quiet (State.seedsOff_quiet (State.Quiet.refl _)))))

theorem State.activeFault_moves {s : State} {d : Seed} : s.Moves (s.activeFault d) := by
  unfold State.activeFault
  extract_lets _ s1
  have k1 : s.Quiet s1 := State.setSeed_quiet (State.setSeedStatus_quiet (State.Quiet.refl s))
  clear_value s1
  split
  · exact (State.planSwitch_quiet k1).moves
  · exact k1.moves.trans State.enterFault_moves

theorem State.toReady_moves {s : State} : s.Moves s.toReady := by
  unfold State.toReady
  extract_lets s1 s2
  have k1 : s.Into s1 .ready none := State.stopMeasuring_into (State.setMode_into (State.Into.refl s))
  clear_value s1
  have k2 : s.Into s2 .ready none := by
    dsimp only [s2]
    split
    · exact k1.quiet (State.feStart_quiet (State.streamsRestart_quiet (State.relinkStart_quiet (State.seedOn_quiet (State.Quiet.refl _)))))
    · exact k1
  clear_value s2
  exact (k2.moves (by simp)).trans State.evalLevel_moves

theorem State.stopCmd_moves {s : State} : s.Moves s.stopCmd.1 := by
  unfold State.stopCmd
  split
  · extract_lets pw s1
    have k1 : s.Quiet s1 := State.withPower_quiet (State.Quiet.refl s)
    clear_value s1
    dsimp only
    split
    · exact k1.moves.trans State.toReady_moves
    · exact k1.moves
  · exact State.Moves.refl s

theorem State.bedrockForceCmd_moves {s : State} : s.Moves s.bedrockForceCmd.1 := by
  unfold State.bedrockForceCmd
  extract_lets pw s1
  have k1 : s.Quiet s1 := State.withPower_quiet (State.Quiet.refl s)
  clear_value s1
  split
  · dsimp only
    exact k1.moves.trans State.enterBedrock_moves
  · dsimp only
    exact k1.moves.trans State.evalLevel_moves
  · exact State.Moves.refl s

theorem State.bedrockReleaseCmd_moves {s : State} : s.Moves s.bedrockReleaseCmd.1 := by
  unfold State.bedrockReleaseCmd
  extract_lets pw s1
  have k1 : s.Quiet s1 := State.withPower_quiet (State.Quiet.refl s)
  clear_value s1
  split
  · exact k1.moves
  · exact k1.moves.trans State.evalLevel_moves
  · exact State.Moves.refl s

theorem State.execute_moves {s0 s : State} {code : Nat} {h : Hdr} {run : State → State × Answer} (hr : ∀ y : State, y.Moves (run y).1) (hs : s0.Quiet s) :
    s0.Moves (s.execute code h run) := by
  have k := hs.moves.trans (hr s)
  unfold State.execute
  extract_lets r
  change s0.Moves r.1 at k
  clear_value r
  split
  · extract_lets resp
    clear_value resp
    exact k.quiet (State.hold_quiet (State.remember_quiet (State.Quiet.refl _)))
  · extract_lets resp
    clear_value resp
    refine k.quiet (State.hold_quiet ?_)
    split
    · exact State.touchClient_quiet (State.Quiet.refl _)
    · exact State.remember_quiet (State.Quiet.refl _)
  · extract_lets s1
    have k1 : r.1.Quiet s1 := (State.Quiet.refl _).other rfl rfl rfl rfl rfl rfl rfl
    clear_value s1
    exact k.quiet (State.hold_quiet (State.remember_quiet k1))

theorem State.serveNcp_moves {s : State} {code : Nat} {h : Hdr} {body : List Byte} {run : State → State × Answer} (hr : ∀ y : State, y.Moves (run y).1) :
    s.Moves (s.serveNcp code h body run) := by
  unfold State.serveNcp
  extract_lets a b run1 fresh c
  have hr1 : ∀ y : State, y.Moves (run1 y).1 := by
    intro y
    dsimp only [run1]
    repeat' first | exact State.Moves.refl y | exact hr y | split
  have ka : s.Quiet a := State.at_quiet (State.Quiet.refl s)
  clear_value a
  have kb : s.Quiet b := State.sessionUse_quiet ka
  clear_value b
  have kf : s.Moves fresh := by
    dsimp only [fresh]
    split
    · exact (State.refuse_quiet kb).moves
    · exact State.execute_moves hr1 kb
  clear_value fresh
  have kc : s.Quiet c := State.touchClient_quiet kb
  clear_value c
  repeat' first
    | with_reducible assumption | with_reducible exact ka.moves | with_reducible exact (State.refuse_quiet (State.bump_quiet kb)).moves
    | with_reducible exact (State.refuse_quiet kb).moves | with_reducible exact (State.refuse_quiet kc).moves | with_reducible exact (State.hold_quiet kc).moves
    | with_reducible exact (State.refuse_quiet (State.touchClient_quiet kb)).moves | split

theorem request_moves {s : State} {code : Nat} {h : Hdr} {body : List Byte} {run : State → State × Answer} (hr : ∀ y : State, y.Moves (run y).1) :
    s.MovesOut (request code h body run s) := State.MovesOut.next (State.serveNcp_moves hr)


theorem State.at_moves {s : State} {t : Tick} : s.Moves (s.at t) := (State.at_quiet (State.Quiet.refl s)).moves

theorem execSourceLoss_moves {t : Tick} {src : Source} {s : State} : s.MovesOut (execSourceLoss t src s) := by
  unfold execSourceLoss
  extract_lets a b _ c d
  have ka : s.Quiet a := State.at_quiet (State.Quiet.refl s)
  have kb : s.Quiet b := State.roSet_quiet ka
  have kc : s.Quiet c := by
    dsimp only [c]
    split
    · exact State.withPower_quiet (State.roSet_quiet kb)
    · exact State.withPower_quiet (State.roSet_quiet kb)
    · exact kb
  have kd : s.Quiet d := by
    dsimp only [d]
    split
    · exact kc
    · exact State.raise_quiet kc
  split
  · exact .next ka.moves
  · exact .next ((State.regrant_quiet kd).moves.trans State.evalLevel_moves)

theorem execSourcePresent_moves {t : Tick} {src : Source} {s : State} : s.MovesOut (execSourcePresent t src s) := by
  unfold execSourcePresent
  extract_lets a b c
  have ka : s.Quiet a := State.at_quiet (State.Quiet.refl s)
  clear_value a
  have kb : s.Quiet b := State.roSet_quiet ka
  clear_value b
  have kc : s.Quiet c := State.regrant_quiet kb
  clear_value c
  split
  · exact .next ka.moves
  · split
    · apply State.MovesOut.next
      split
      · exact kc.moves
      · exact kc.moves.trans State.powerOn_moves
    · exact .next ((State.regrant_quiet (State.raise_quiet kb)).moves.trans State.evalLevel_moves)

theorem execPoeClassification_moves {t : Tick} {p : Port} {cls : Nat} {s : State} : s.MovesOut (execPoeClassification t p cls s) :=
  .next ((State.regrant_quiet (State.roSet_quiet (State.at_quiet (State.Quiet.refl s)))).moves.trans State.evalLevel_moves)

theorem execLldpPowerAllocation_moves {t : Tick} {p : Port} {alloc : Nat} {s : State} : s.MovesOut (execLldpPowerAllocation t p alloc s) := by
  unfold execLldpPowerAllocation
  extract_lets a
  have ka : s.Quiet a := State.at_quiet (State.Quiet.refl s)
  clear_value a
  split
  · exact .next ka.moves
  · exact .next ((State.regrant_quiet (State.withPower_quiet ka)).moves.trans State.evalLevel_moves)

theorem execLevelEvaluation_moves {t : Tick} {s : State} : s.MovesOut (execLevelEvaluation t s) := by
  unfold execLevelEvaluation
  extract_lets a
  have ka : s.Moves a := State.at_moves
  clear_value a
  apply State.MovesOut.next
  split
  · exact ka.trans State.evalLevel_moves
  · exact ka

theorem execBedrockExit_moves {t : Tick} {s : State} : s.MovesOut (execBedrockExit t s) := by
  unfold execBedrockExit
  extract_lets a
  have ka : s.Moves a := State.at_moves
  clear_value a
  split
  · exact .next ka
  · split
    · exact .next ((ka.trans State.enterRunning_moves).trans State.evalLevel_moves)
    · exact .next ka

theorem execReadyToRunning_moves {t : Tick} {s : State} : s.MovesOut (execReadyToRunning t s) := by
  unfold execReadyToRunning
  extract_lets a
  have ka : s.Moves a := State.at_moves
  clear_value a
  split
  · exact .next ((ka.trans State.enterRunning_moves).trans State.evalLevel_moves)
  · exact .next ka

theorem execBootComplete_moves {t : Tick} {obs : BootObs} {s : State} : s.MovesOut (execBootComplete t obs s) := by
  unfold execBootComplete
  extract_lets a b
  have ka : s.Quiet a := State.at_quiet (State.Quiet.refl s)
  clear_value a
  have kb : a.Quiet b := State.roSet_quiet (State.Quiet.refl a)
  clear_value b
  split
  · exact .next ka.moves
  · rename_i hn
    have hb : b.mode ≠ .bedrock := by
      rw [kb.mode]
      intro e
      exact hn (.inl (by rw [e]; decide))
    apply State.MovesOut.next
    split
    · exact (ka.trans kb).moves.trans (State.bootSteps_moves hb)
    · exact (ka.trans kb).moves.trans State.lockstepFailed_moves

theorem execFaultRetry_moves {t : Tick} {s : State} : s.MovesOut (execFaultRetry t s) := by
  unfold execFaultRetry
  extract_lets a recent wait
  have ka : s.Quiet a := State.at_quiet (State.Quiet.refl s)
  clear_value a
  split
  · exact .next ((State.withPower_quiet ka).moves.trans State.enterBoot_moves)
  · exact .next ka.moves

theorem execResetN_moves {t : Tick} {s : State} : s.MovesOut (execResetN t s) := by
  unfold execResetN
  extract_lets a
  have ka : s.Moves a := State.at_moves
  clear_value a
  apply State.MovesOut.next
  split
  · exact ka
  · exact ka.trans State.enterBoot_moves

theorem execLockstepMismatch_moves {t : Tick} {s : State} : s.MovesOut (execLockstepMismatch t s) := by
  unfold execLockstepMismatch
  extract_lets a
  have ka : s.Moves a := State.at_moves
  clear_value a
  apply State.MovesOut.next
  split
  · exact ka
  · exact ka.trans State.enterBoot_moves

theorem execFwTrialTimeout_moves {t : Tick} {s : State} : s.MovesOut (execFwTrialTimeout t s) := by
  unfold execFwTrialTimeout
  extract_lets a
  have ka : s.Moves a := State.at_moves
  clear_value a
  split
  · exact .next ka
  · apply State.MovesOut.next
    split
    · exact ka.trans State.enterBoot_moves
    · exact ka

theorem execPfailNRelease_moves {t : Tick} {s : State} : s.MovesOut (execPfailNRelease t s) := by
  unfold execPfailNRelease
  extract_lets a pw b
  have ka : s.Quiet a := State.at_quiet (State.Quiet.refl s)
  clear_value a
  have kb : s.Quiet b := State.withPower_quiet ka
  clear_value b
  split
  · exact .next ka.moves
  · apply State.MovesOut.next
    split
    · exact kb.moves.trans State.powerOn_moves
    · exact kb.moves

theorem State.wakes_mode {s : State} {b : Nat} (h : s.wakes b = true) : s.mode ≠ .bedrock := by
  unfold State.wakes at h
  have := (Bool.and_eq_true _ _ ▸ h).1
  intro e
  rw [e] at this
  exact absurd this (by decide)

theorem execWakeInput_moves {t : Tick} {shorts : List (Nat × Nat)} {s : State} : s.MovesOut (execWakeInput t shorts s) := by
  unfold execWakeInput
  extract_lets a
  have ka : s.Moves a := State.at_moves
  clear_value a
  apply State.MovesOut.next
  split
  · exact ka.trans (State.wakeUp_moves (State.wakes_mode (by assumption)))
  · exact ka

theorem execComparatorWake_moves {t : Tick} {x : Port} {mv beyondUs : Nat} {shorts : List (Nat × Nat)} {s : State} :
    s.MovesOut (execComparatorWake t x mv beyondUs shorts s) := by
  unfold execComparatorWake
  extract_lets a limit beyond
  have ka : s.Moves a := State.at_moves
  clear_value a
  apply State.MovesOut.next
  split
  · rename_i h
    exact ka.trans (State.wakeUp_moves (State.wakes_mode h.1))
  · exact ka

theorem execWakeTimer_moves {t : Tick} {shorts : List (Nat × Nat)} {s : State} : s.MovesOut (execWakeTimer t shorts s) := by
  unfold execWakeTimer
  extract_lets a
  have ka : s.Moves a := State.at_moves
  clear_value a
  split
  · exact .next ka
  · apply State.MovesOut.next
    split
    · rename_i h
      exact ka.trans (State.wakeUp_moves (State.wakes_mode h.1))
    · exact ka

theorem execWakeDatagram_moves {t : Tick} {h : Hdr} {udp : Nat} {link : Port} {shorts : List (Nat × Nat)} {s : State} :
    s.MovesOut (execWakeDatagram t h udp link shorts s) := by
  unfold execWakeDatagram
  extract_lets a
  have ka : s.Moves a := State.at_moves
  clear_value a
  split
  · exact .next ka
  · apply State.MovesOut.next
    split
    · rename_i h
      exact ka.trans (State.wakeUp_moves (State.wakes_mode h.1))
    · exact ka

theorem execGrantWake_moves {t : Tick} {shorts : List (Nat × Nat)} {s : State} : s.MovesOut (execGrantWake t shorts s) := by
  unfold execGrantWake
  extract_lets a
  have ka : s.Moves a := State.at_moves
  clear_value a
  split
  · apply State.MovesOut.next
    split
    · rename_i h
      exact ka.trans (State.wakeUp_moves (by rw [h.1]; decide))
    · exact ka
  · exact .next ka

theorem execGeodeLinkTry_moves {t : Tick} {p : Port} {up : Bool} {s : State} : s.MovesOut (execGeodeLinkTry t p up s) := by
  unfold execGeodeLinkTry
  extract_lets a _ x
  have ka : s.Quiet a := State.at_quiet (State.Quiet.refl s)
  clear_value a
  split
  · exact .next ka.moves
  · extract_lets g
    clear_value g
    split
    · exact .next ka.moves
    · split
      · exact .next ka.moves
      · split
        · have kx : s.Quiet x := State.setLink_quiet ka
          clear_value x
          exact .next (State.withPower_quiet kx).moves
        · split
          · exact .next (State.withPower_quiet ka).moves
          · exact .next ka.moves

theorem State.notBedrock {s : State} (r : s.keptOk) (h : s.mode ≠ .bedrock) : s.opt.kept = none := by
  cases hk : s.opt.kept with
  | none => rfl
  | some p => exact absurd (r.1 (by rw [hk]; rfl)) h

theorem execPfail_moves {t : Tick} {external : Bool} {s : State} : s.MovesOut (execPfail t external s) := by
  unfold execPfail
  extract_lets a pa b pb c _ d0 _ _ _ r d1
  have ka : s.Quiet a := State.at_quiet (State.Quiet.refl s)
  clear_value a
  have kb : s.Quiet b := State.withPower_quiet ka
  clear_value b
  have kc : s.Quiet c := State.withPower_quiet kb
  clear_value c
  split
  · exact .next kb.moves
  · split
    · exact .next kb.moves
    · split
      · rename_i g hg
        extract_lets d
        have hm : c.mode ≠ .bedrock := by
          intro e
          rw [e] at hg
          exact nomatch hg
        have kd : c.Quiet d := State.withPower_quiet (State.Quiet.refl c)
        clear_value d
        have hd : d.mode ≠ .bedrock := by rw [kd.mode]; exact hm
        have ke : d.Into (d.setMode .off Cause.pfail) .off none := (State.setMode_into (State.Into.refl d)).none hd
        exact .next ((kc.trans kd).moves.trans (ke.moves (by simp)))
      · have hk : ∀ m : Mode, m ≠ .bedrock → c.Moves ((c.setMode m Cause.pfail).shutDown c.mode) := by
          intro m hm
          have k1 : c.Into (c.setMode m Cause.pfail) m c.opt.kept := State.setMode_into (State.Into.refl c)
          refine (State.shutDown_into k1 ?_).moves (by simp [hm])
          intro r hw
          exact State.notBedrock r (fun e => by rw [e] at hw; exact absurd hw (by decide))
        split
        · have kd : c.Moves d0 := hk _ (by decide)
          clear_value d0
          exact .next ((kc.moves.trans kd).quiet (State.withPower_quiet (State.Quiet.refl _)))
        · have kd : c.Moves d1 := hk _ (by decide)
          clear_value d1
          exact .next ((kc.moves.trans kd).quiet (State.withPower_quiet (State.Quiet.refl _)))

theorem execSaveComplete_moves {t : Tick} {ok : Bool} {s : State} : s.MovesOut (execSaveComplete t ok s) := by
  unfold execSaveComplete
  extract_lets a
  have ka : s.Quiet a := State.at_quiet (State.Quiet.refl s)
  clear_value a
  split
  · rename_i r n hm hr
    extract_lets _ b c
    have kb : a.Quiet b := by
      dsimp only [b]
      split
      · exact State.withPower_quiet (State.recordWritten_quiet (State.Quiet.refl a))
      · exact State.withPower_quiet (State.Quiet.refl a)
    clear_value b
    have kc : a.Quiet c := State.logEntry_quiet kb
    clear_value c
    have hc : c.mode ≠ .bedrock := by rw [kc.mode, hm]; decide
    apply State.MovesOut.next
    split
    · exact (ka.trans kc).moves.trans State.enterBoot_moves
    · exact (ka.trans kc).moves.trans (((State.setMode_into (State.Into.refl c)).none hc).moves (by simp))
  · exact .next ka.moves

theorem execThermalThreshold_moves {t : Tick} {which : Thermal} {s : State} : s.MovesOut (execThermalThreshold t which s) := by
  unfold execThermalThreshold
  extract_lets a _ b b2
  have ka : s.Quiet a := State.at_quiet (State.Quiet.refl s)
  clear_value a
  split
  · exact .next ka.moves
  · split
    · split
      · exact .next ka.moves
      · exact .next (State.raiseSev_quiet (State.withPower_quiet ka)).moves
    · exact .next (State.withPower_quiet ka).moves
    · have kb : s.Quiet b := State.withPower_quiet ka
      clear_value b
      apply State.MovesOut.next
      split
      · exact kb.moves.trans State.enterBedrock_moves
      · split
        · exact kb.moves.trans State.evalLevel_moves
        · exact kb.moves
    · have kb : s.Quiet b2 := State.withPower_quiet ka
      clear_value b2
      apply State.MovesOut.next
      split
      · exact kb.moves.trans State.evalLevel_moves
      · exact kb.moves
    · split
      · exact .next ((State.raiseSev_quiet ka).moves.trans State.enterFault_moves)
      · exact .next ka.moves

theorem State.seedFaulted_moves {s : State} {sd : Seed} : s.Moves (s.seedFaulted sd) := by
  unfold State.seedFaulted
  extract_lets st b
  clear_value st
  split
  · exact State.Moves.refl s
  · split
    · split
      · exact (State.relockFailed_quiet (State.Quiet.refl s)).moves
      · exact State.Moves.refl s
    · split
      · exact State.Moves.refl s
      · split
        · exact State.activeFault_moves
        · have kb : s.Quiet b := State.standbyFault_quiet (State.Quiet.refl s)
          clear_value b
          split
          · exact kb.moves.trans State.enterFault_moves
          · exact (State.undoDone_quiet kb).moves

theorem execSeedFault_moves {t : Tick} {sd : Seed} (why : SeedCriterion) {s : State} : s.MovesOut (execSeedFault t sd why s) :=
  .next ((State.at_quiet (State.Quiet.refl s)).moves.trans State.seedFaulted_moves)

theorem State.drivesFaulted_moves {s before : State} : s.Moves (s.drivesFaulted before) := by
  unfold State.drivesFaulted
  extract_lets bad one
  have k : ∀ (y : State) d, y.Moves (one y d) := by
    intro y d
    dsimp only [one]
    split
    · exact State.seedFaulted_moves
    · exact State.Moves.refl y
  exact (k s _).trans (k _ _)

theorem execDriveMeasurement_moves {t : Tick} {ch current pinMv : Nat} {neighbour : Option (Nat × Nat)} {s : State} :
    s.MovesOut (execDriveMeasurement t ch current pinMv neighbour s) :=
  .next ((State.driveMeasured_quiet (State.at_quiet (State.Quiet.refl s))).moves.trans State.drivesFaulted_moves)

theorem execNeighbourTest_moves {t : Tick} {shorts : List (Nat × Nat)} {s : State} : s.MovesOut (execNeighbourTest t shorts s) := by
  unfold execNeighbourTest
  extract_lets a d s1 s2 again
  have ka : s.Quiet a := State.at_quiet (State.Quiet.refl s)
  have k1 : s.Quiet s1 := State.Quiet.other ka rfl rfl rfl rfl rfl rfl rfl
  have k2 : s.Quiet s2 := State.neighbourTest_quiet k1
  have kg : ∀ (y : State) d, y.Quiet (again y d) := by
    intro y d
    dsimp only [again]
    split
    · exact State.setSeed_quiet (State.setSeedStatus_quiet (State.Quiet.refl y))
    · exact State.Quiet.refl y
  split
  · exact .next (((k2.trans (kg _ _)).trans (kg _ _)).moves.trans State.drivesFaulted_moves)
  · exact .next ka.moves

theorem execReset_moves {h : Hdr} {s : State} : s.MovesOut (execReset h s) := by
  unfold execReset
  extract_lets body a
  have ka : s.Quiet a := State.serveNcp_quiet (fun y => State.Quiet.refl y) (State.Quiet.refl s)
  clear_value a
  apply State.MovesOut.next
  split
  · exact ka.moves.trans State.enterBoot_moves
  · exact ka.moves

theorem execStop_moves {h : Hdr} {s : State} : s.MovesOut (execStop h s) := request_moves (fun _ => State.stopCmd_moves)

theorem execGeodeEnter_moves {h : Hdr} {deep mask : Nat} {wake : TS96} {s : State} : s.MovesOut (execGeodeEnter h deep mask wake s) := by
  unfold execGeodeEnter
  extract_lets body a taken
  have ka : s.Quiet a := State.serveNcp_quiet (fun y => State.Quiet.refl y) (State.Quiet.refl s)
  clear_value a
  apply State.MovesOut.next
  split
  · exact ka.moves.trans State.enterGeode_moves
  · exact ka.moves

theorem execBedrockForce_moves {h : Hdr} {s : State} : s.MovesOut (execBedrockForce h s) := request_moves (fun _ => State.bedrockForceCmd_moves)

theorem execBedrockRelease_moves {h : Hdr} {s : State} : s.MovesOut (execBedrockRelease h s) := request_moves (fun _ => State.bedrockReleaseCmd_moves)

end Sys2Proof.Machine
end

