-- ==== Sys2Proof/Laws/Kernel.lean ====
section
/-! SUPPORT. What issuing an operation of a Basalt core does, once for every operation. -/

namespace Sys2Proof.Machine

@[simp] theorem State.opened_fresh (s : State) (c : Nat) : (s.opened c).fresh = s.fresh := by
  unfold State.opened
  split <;> rfl

/-- An operation that can issue runs on the open bundle, which closes after its last operation. -/
theorem State.issue_can {s : State} {c : Nat} (h : s.canIssue c) (close : Bool) (body : State → State) :
    s.issue c close body = (body (s.opened c)).ended c close := by
  have hp : ¬ (s.coreHeader c).bundles ≤ (s.core c).pc := Nat.not_le.2 h.2
  unfold State.issue
  rw [if_neg (by rw [h.1]; exact fun e => nomatch e), if_neg hp]
  rfl

/-- An operation of a core on itself. -/
theorem State.issueCore_can {s : State} {c : Nat} (h : s.canIssue c) (close : Bool) (f : BCore → BCore) : s.issueCore c close f = s.coreDoes c close f :=
  State.issue_can h close _

/-- The same with a value the spec leaves open. -/
theorem State.issueFree_can {s : State} {c : Nat} (h : s.canIssue c) (close : Bool) (f : Nat → BCore → BCore) : s.issueFree c close f = s.coreDraws c close f := by
  unfold State.issueFree
  rw [State.issue_can h]
  unfold State.coreDraws
  rw [State.opened_fresh]

end Sys2Proof.Machine
end

