-- ==== Sys2Proof/Laws/Memory.lean ====
section
/-! SUPPORT. A core's data memory keeps its canonical form under every operation. -/

namespace Sys2Proof.Machine

theorem memWfFrom_mono {lo hi : Nat} {m : List Host.Cell} (h : memWfFrom hi m = true) (le : lo ≤ hi) : memWfFrom lo m = true := by
  cases m with
  | nil => rfl
  | cons c rest =>
    obtain ⟨k, v⟩ := c
    simp only [memWfFrom, Bool.and_eq_true, decide_eq_true_eq] at h ⊢
    exact ⟨⟨Nat.le_trans le h.1.1, h.1.2⟩, h.2⟩

theorem memInsert_wf {n lo : Nat} {b : Byte} (hb : b ≠ memDefault) (hn : lo ≤ n) (m : List Host.Cell) (h : memWfFrom lo m = true) :
    memWfFrom lo (memInsert n b m) = true := by
  induction m generalizing lo with
  | nil => simp [memInsert, memWfFrom, hb, hn]
  | cons c rest ih =>
    obtain ⟨k, v⟩ := c
    simp only [memWfFrom, Bool.and_eq_true, decide_eq_true_eq] at h
    unfold memInsert
    split
    · rename_i q
      simp [memWfFrom, hb, hn, h.1.2, h.2, Nat.succ_le_of_lt q]
    · split
      · rename_i q
        subst q
        simp [memWfFrom, hb, hn, h.2]
      · have : k + 1 ≤ n := by omega
        simp [memWfFrom, h.1.1, h.1.2, ih this h.2]

theorem memErase_wf {n lo : Nat} (m : List Host.Cell) (h : memWfFrom lo m = true) : memWfFrom lo (memErase n m) = true := by
  induction m generalizing lo with
  | nil => rfl
  | cons c rest ih =>
    obtain ⟨k, v⟩ := c
    simp only [memWfFrom, Bool.and_eq_true, decide_eq_true_eq] at h
    unfold memErase
    split
    · exact memWfFrom_mono h.2 (by omega)
    · split
      · simp [memWfFrom, h]
      · simp [memWfFrom, h.1, ih h.2]

/-- Writing a byte keeps the canonical form. -/
theorem memWrite_wf (m : List Host.Cell) (n : Nat) (b : Byte) (h : Memory.wf m = true) : Memory.wf (memWrite m n b) = true := by
  unfold Memory.wf memWrite
  split
  · exact memErase_wf m h
  · rename_i q
    exact memInsert_wf q (Nat.zero_le n) m h

/-- Writing cells keeps the canonical form. -/
theorem memWrites_wf (cs m : List Host.Cell) (h : Memory.wf m = true) : Memory.wf (memWrites m cs) = true := by
  unfold memWrites
  induction cs generalizing m with
  | nil => exact h
  | cons c rest ih => exact ih _ (memWrite_wf m c.1 c.2 h)

/-- Right after reset every core's data memory and every instance's scratch area is in its canonical form. -/
theorem reset_memory_wf : (State.reset.basalt.cores.all (fun x => Memory.wf x.mem) && State.reset.basalt.insts.all (fun x => Memory.wf x.scratch)) = true := by decide

end Sys2Proof.Machine
end

