-- ==== Sys2Proof/Laws/State.lean ====
section
/-! SUPPORT. Reading a field of the state after a basic update: the field the update writes holds what was written, every other field is as before. -/

namespace Sys2Proof.Machine

/-! ### at -/

@[simp] theorem State.at_pending (s : State) (t : Tick) : (s.at t).pending = s.pending := rfl
@[simp] theorem State.at_fresh (s : State) (t : Tick) : (s.at t).fresh = s.fresh := rfl
@[simp] theorem State.at_out (s : State) (t : Tick) : (s.at t).out = s.out := rfl
@[simp] theorem State.at_now (s : State) (t : Tick) : (s.at t).now = max s.now t := rfl
@[simp] theorem State.at_moduleId (s : State) (t : Tick) : (s.at t).moduleId = s.moduleId := rfl
@[simp] theorem State.at_mode (s : State) (t : Tick) : (s.at t).mode = s.mode := rfl
@[simp] theorem State.at_modeSince (s : State) (t : Tick) : (s.at t).modeSince = s.modeSince := rfl
@[simp] theorem State.at_ro (s : State) (t : Tick) : (s.at t).ro = s.ro := rfl
@[simp] theorem State.at_cfg (s : State) (t : Tick) : (s.at t).cfg = s.cfg := rfl
@[simp] theorem State.at_fw (s : State) (t : Tick) : (s.at t).fw = s.fw := rfl
@[simp] theorem State.at_sess (s : State) (t : Tick) : (s.at t).sess = s.sess := rfl
@[simp] theorem State.at_spi (s : State) (t : Tick) : (s.at t).spi = s.spi := rfl
@[simp] theorem State.at_dup (s : State) (t : Tick) : (s.at t).dup = s.dup := rfl
@[simp] theorem State.at_requests (s : State) (t : Tick) : (s.at t).requests = s.requests := rfl
@[simp] theorem State.at_jobs (s : State) (t : Tick) : (s.at t).jobs = s.jobs := rfl
@[simp] theorem State.at_nextJob (s : State) (t : Tick) : (s.at t).nextJob = s.nextJob := rfl
@[simp] theorem State.at_events (s : State) (t : Tick) : (s.at t).events = s.events := rfl
@[simp] theorem State.at_time (s : State) (t : Tick) : (s.at t).time = s.time := rfl
@[simp] theorem State.at_health (s : State) (t : Tick) : (s.at t).health = s.health := rfl
@[simp] theorem State.at_opt (s : State) (t : Tick) : (s.at t).opt = s.opt := rfl
@[simp] theorem State.at_sig (s : State) (t : Tick) : (s.at t).sig = s.sig := rfl
@[simp] theorem State.at_drive (s : State) (t : Tick) : (s.at t).drive = s.drive := rfl
@[simp] theorem State.at_raman (s : State) (t : Tick) : (s.at t).raman = s.raman := rfl
@[simp] theorem State.at_front (s : State) (t : Tick) : (s.at t).front = s.front := rfl
@[simp] theorem State.at_basalt (s : State) (t : Tick) : (s.at t).basalt = s.basalt := rfl
@[simp] theorem State.at_trig (s : State) (t : Tick) : (s.at t).trig = s.trig := rfl
@[simp] theorem State.at_mem (s : State) (t : Tick) : (s.at t).mem = s.mem := rfl
@[simp] theorem State.at_power (s : State) (t : Tick) : (s.at t).power = s.power := rfl
@[simp] theorem State.at_ens (s : State) (t : Tick) : (s.at t).ens = s.ens := rfl

/-! ### roSet -/

@[simp] theorem State.roSet_pending (s : State) (k : Key) (v : Nat) : (s.roSet k v).pending = s.pending := rfl
@[simp] theorem State.roSet_fresh (s : State) (k : Key) (v : Nat) : (s.roSet k v).fresh = s.fresh := rfl
@[simp] theorem State.roSet_out (s : State) (k : Key) (v : Nat) : (s.roSet k v).out = s.out := rfl
@[simp] theorem State.roSet_now (s : State) (k : Key) (v : Nat) : (s.roSet k v).now = s.now := rfl
@[simp] theorem State.roSet_moduleId (s : State) (k : Key) (v : Nat) : (s.roSet k v).moduleId = s.moduleId := rfl
@[simp] theorem State.roSet_mode (s : State) (k : Key) (v : Nat) : (s.roSet k v).mode = s.mode := rfl
@[simp] theorem State.roSet_modeSince (s : State) (k : Key) (v : Nat) : (s.roSet k v).modeSince = s.modeSince := rfl
@[simp] theorem State.roSet_ro (s : State) (k : Key) (v : Nat) : (s.roSet k v).ro = s.ro.set k (v % 2 ^ (rowAt k.row).width) := rfl
@[simp] theorem State.roSet_cfg (s : State) (k : Key) (v : Nat) : (s.roSet k v).cfg = s.cfg := rfl
@[simp] theorem State.roSet_fw (s : State) (k : Key) (v : Nat) : (s.roSet k v).fw = s.fw := rfl
@[simp] theorem State.roSet_sess (s : State) (k : Key) (v : Nat) : (s.roSet k v).sess = s.sess := rfl
@[simp] theorem State.roSet_spi (s : State) (k : Key) (v : Nat) : (s.roSet k v).spi = s.spi := rfl
@[simp] theorem State.roSet_dup (s : State) (k : Key) (v : Nat) : (s.roSet k v).dup = s.dup := rfl
@[simp] theorem State.roSet_requests (s : State) (k : Key) (v : Nat) : (s.roSet k v).requests = s.requests := rfl
@[simp] theorem State.roSet_jobs (s : State) (k : Key) (v : Nat) : (s.roSet k v).jobs = s.jobs := rfl
@[simp] theorem State.roSet_nextJob (s : State) (k : Key) (v : Nat) : (s.roSet k v).nextJob = s.nextJob := rfl
@[simp] theorem State.roSet_events (s : State) (k : Key) (v : Nat) : (s.roSet k v).events = s.events := rfl
@[simp] theorem State.roSet_time (s : State) (k : Key) (v : Nat) : (s.roSet k v).time = s.time := rfl
@[simp] theorem State.roSet_health (s : State) (k : Key) (v : Nat) : (s.roSet k v).health = s.health := rfl
@[simp] theorem State.roSet_opt (s : State) (k : Key) (v : Nat) : (s.roSet k v).opt = s.opt := rfl
@[simp] theorem State.roSet_sig (s : State) (k : Key) (v : Nat) : (s.roSet k v).sig = s.sig := rfl
@[simp] theorem State.roSet_drive (s : State) (k : Key) (v : Nat) : (s.roSet k v).drive = s.drive := rfl
@[simp] theorem State.roSet_raman (s : State) (k : Key) (v : Nat) : (s.roSet k v).raman = s.raman := rfl
@[simp] theorem State.roSet_front (s : State) (k : Key) (v : Nat) : (s.roSet k v).front = s.front := rfl
@[simp] theorem State.roSet_basalt (s : State) (k : Key) (v : Nat) : (s.roSet k v).basalt = s.basalt := rfl
@[simp] theorem State.roSet_trig (s : State) (k : Key) (v : Nat) : (s.roSet k v).trig = s.trig := rfl
@[simp] theorem State.roSet_mem (s : State) (k : Key) (v : Nat) : (s.roSet k v).mem = s.mem := rfl
@[simp] theorem State.roSet_power (s : State) (k : Key) (v : Nat) : (s.roSet k v).power = s.power := rfl
@[simp] theorem State.roSet_ens (s : State) (k : Key) (v : Nat) : (s.roSet k v).ens = s.ens := rfl

/-! ### roSetInt -/

@[simp] theorem State.roSetInt_pending (s : State) (k : Key) (v : Int) : (s.roSetInt k v).pending = s.pending := rfl
@[simp] theorem State.roSetInt_fresh (s : State) (k : Key) (v : Int) : (s.roSetInt k v).fresh = s.fresh := rfl
@[simp] theorem State.roSetInt_out (s : State) (k : Key) (v : Int) : (s.roSetInt k v).out = s.out := rfl
@[simp] theorem State.roSetInt_now (s : State) (k : Key) (v : Int) : (s.roSetInt k v).now = s.now := rfl
@[simp] theorem State.roSetInt_moduleId (s : State) (k : Key) (v : Int) : (s.roSetInt k v).moduleId = s.moduleId := rfl
@[simp] theorem State.roSetInt_mode (s : State) (k : Key) (v : Int) : (s.roSetInt k v).mode = s.mode := rfl
@[simp] theorem State.roSetInt_modeSince (s : State) (k : Key) (v : Int) : (s.roSetInt k v).modeSince = s.modeSince := rfl
@[simp] theorem State.roSetInt_ro (s : State) (k : Key) (v : Int) : (s.roSetInt k v).ro = s.ro.set k (ofInt (rowAt k.row).width v) := rfl
@[simp] theorem State.roSetInt_cfg (s : State) (k : Key) (v : Int) : (s.roSetInt k v).cfg = s.cfg := rfl
@[simp] theorem State.roSetInt_fw (s : State) (k : Key) (v : Int) : (s.roSetInt k v).fw = s.fw := rfl
@[simp] theorem State.roSetInt_sess (s : State) (k : Key) (v : Int) : (s.roSetInt k v).sess = s.sess := rfl
@[simp] theorem State.roSetInt_spi (s : State) (k : Key) (v : Int) : (s.roSetInt k v).spi = s.spi := rfl
@[simp] theorem State.roSetInt_dup (s : State) (k : Key) (v : Int) : (s.roSetInt k v).dup = s.dup := rfl
@[simp] theorem State.roSetInt_requests (s : State) (k : Key) (v : Int) : (s.roSetInt k v).requests = s.requests := rfl
@[simp] theorem State.roSetInt_jobs (s : State) (k : Key) (v : Int) : (s.roSetInt k v).jobs = s.jobs := rfl
@[simp] theorem State.roSetInt_nextJob (s : State) (k : Key) (v : Int) : (s.roSetInt k v).nextJob = s.nextJob := rfl
@[simp] theorem State.roSetInt_events (s : State) (k : Key) (v : Int) : (s.roSetInt k v).events = s.events := rfl
@[simp] theorem State.roSetInt_time (s : State) (k : Key) (v : Int) : (s.roSetInt k v).time = s.time := rfl
@[simp] theorem State.roSetInt_health (s : State) (k : Key) (v : Int) : (s.roSetInt k v).health = s.health := rfl
@[simp] theorem State.roSetInt_opt (s : State) (k : Key) (v : Int) : (s.roSetInt k v).opt = s.opt := rfl
@[simp] theorem State.roSetInt_sig (s : State) (k : Key) (v : Int) : (s.roSetInt k v).sig = s.sig := rfl
@[simp] theorem State.roSetInt_drive (s : State) (k : Key) (v : Int) : (s.roSetInt k v).drive = s.drive := rfl
@[simp] theorem State.roSetInt_raman (s : State) (k : Key) (v : Int) : (s.roSetInt k v).raman = s.raman := rfl
@[simp] theorem State.roSetInt_front (s : State) (k : Key) (v : Int) : (s.roSetInt k v).front = s.front := rfl
@[simp] theorem State.roSetInt_basalt (s : State) (k : Key) (v : Int) : (s.roSetInt k v).basalt = s.basalt := rfl
@[simp] theorem State.roSetInt_trig (s : State) (k : Key) (v : Int) : (s.roSetInt k v).trig = s.trig := rfl
@[simp] theorem State.roSetInt_mem (s : State) (k : Key) (v : Int) : (s.roSetInt k v).mem = s.mem := rfl
@[simp] theorem State.roSetInt_power (s : State) (k : Key) (v : Int) : (s.roSetInt k v).power = s.power := rfl
@[simp] theorem State.roSetInt_ens (s : State) (k : Key) (v : Int) : (s.roSetInt k v).ens = s.ens := rfl

/-! ### drawn -/

@[simp] theorem State.drawn_pending (s : State) : s.drawn.pending = s.pending := rfl
@[simp] theorem State.drawn_fresh (s : State) : s.drawn.fresh = s.fresh + 1 := rfl
@[simp] theorem State.drawn_out (s : State) : s.drawn.out = s.out := rfl
@[simp] theorem State.drawn_now (s : State) : s.drawn.now = s.now := rfl
@[simp] theorem State.drawn_moduleId (s : State) : s.drawn.moduleId = s.moduleId := rfl
@[simp] theorem State.drawn_mode (s : State) : s.drawn.mode = s.mode := rfl
@[simp] theorem State.drawn_modeSince (s : State) : s.drawn.modeSince = s.modeSince := rfl
@[simp] theorem State.drawn_ro (s : State) : s.drawn.ro = s.ro := rfl
@[simp] theorem State.drawn_cfg (s : State) : s.drawn.cfg = s.cfg := rfl
@[simp] theorem State.drawn_fw (s : State) : s.drawn.fw = s.fw := rfl
@[simp] theorem State.drawn_sess (s : State) : s.drawn.sess = s.sess := rfl
@[simp] theorem State.drawn_spi (s : State) : s.drawn.spi = s.spi := rfl
@[simp] theorem State.drawn_dup (s : State) : s.drawn.dup = s.dup := rfl
@[simp] theorem State.drawn_requests (s : State) : s.drawn.requests = s.requests := rfl
@[simp] theorem State.drawn_jobs (s : State) : s.drawn.jobs = s.jobs := rfl
@[simp] theorem State.drawn_nextJob (s : State) : s.drawn.nextJob = s.nextJob := rfl
@[simp] theorem State.drawn_events (s : State) : s.drawn.events = s.events := rfl
@[simp] theorem State.drawn_time (s : State) : s.drawn.time = s.time := rfl
@[simp] theorem State.drawn_health (s : State) : s.drawn.health = s.health := rfl
@[simp] theorem State.drawn_opt (s : State) : s.drawn.opt = s.opt := rfl
@[simp] theorem State.drawn_sig (s : State) : s.drawn.sig = s.sig := rfl
@[simp] theorem State.drawn_drive (s : State) : s.drawn.drive = s.drive := rfl
@[simp] theorem State.drawn_raman (s : State) : s.drawn.raman = s.raman := rfl
@[simp] theorem State.drawn_front (s : State) : s.drawn.front = s.front := rfl
@[simp] theorem State.drawn_basalt (s : State) : s.drawn.basalt = s.basalt := rfl
@[simp] theorem State.drawn_trig (s : State) : s.drawn.trig = s.trig := rfl
@[simp] theorem State.drawn_mem (s : State) : s.drawn.mem = s.mem := rfl
@[simp] theorem State.drawn_power (s : State) : s.drawn.power = s.power := rfl
@[simp] theorem State.drawn_ens (s : State) : s.drawn.ens = s.ens := rfl

/-! ### emit -/

@[simp] theorem State.emit_pending (s : State) (o : Output) : (s.emit o).pending = s.pending := rfl
@[simp] theorem State.emit_fresh (s : State) (o : Output) : (s.emit o).fresh = s.fresh := rfl
@[simp] theorem State.emit_out (s : State) (o : Output) : (s.emit o).out = o :: s.out := rfl
@[simp] theorem State.emit_now (s : State) (o : Output) : (s.emit o).now = s.now := rfl
@[simp] theorem State.emit_moduleId (s : State) (o : Output) : (s.emit o).moduleId = s.moduleId := rfl
@[simp] theorem State.emit_mode (s : State) (o : Output) : (s.emit o).mode = s.mode := rfl
@[simp] theorem State.emit_modeSince (s : State) (o : Output) : (s.emit o).modeSince = s.modeSince := rfl
@[simp] theorem State.emit_ro (s : State) (o : Output) : (s.emit o).ro = s.ro := rfl
@[simp] theorem State.emit_cfg (s : State) (o : Output) : (s.emit o).cfg = s.cfg := rfl
@[simp] theorem State.emit_fw (s : State) (o : Output) : (s.emit o).fw = s.fw := rfl
@[simp] theorem State.emit_sess (s : State) (o : Output) : (s.emit o).sess = s.sess := rfl
@[simp] theorem State.emit_spi (s : State) (o : Output) : (s.emit o).spi = s.spi := rfl
@[simp] theorem State.emit_dup (s : State) (o : Output) : (s.emit o).dup = s.dup := rfl
@[simp] theorem State.emit_requests (s : State) (o : Output) : (s.emit o).requests = s.requests := rfl
@[simp] theorem State.emit_jobs (s : State) (o : Output) : (s.emit o).jobs = s.jobs := rfl
@[simp] theorem State.emit_nextJob (s : State) (o : Output) : (s.emit o).nextJob = s.nextJob := rfl
@[simp] theorem State.emit_events (s : State) (o : Output) : (s.emit o).events = s.events := rfl
@[simp] theorem State.emit_time (s : State) (o : Output) : (s.emit o).time = s.time := rfl
@[simp] theorem State.emit_health (s : State) (o : Output) : (s.emit o).health = s.health := rfl
@[simp] theorem State.emit_opt (s : State) (o : Output) : (s.emit o).opt = s.opt := rfl
@[simp] theorem State.emit_sig (s : State) (o : Output) : (s.emit o).sig = s.sig := rfl
@[simp] theorem State.emit_drive (s : State) (o : Output) : (s.emit o).drive = s.drive := rfl
@[simp] theorem State.emit_raman (s : State) (o : Output) : (s.emit o).raman = s.raman := rfl
@[simp] theorem State.emit_front (s : State) (o : Output) : (s.emit o).front = s.front := rfl
@[simp] theorem State.emit_basalt (s : State) (o : Output) : (s.emit o).basalt = s.basalt := rfl
@[simp] theorem State.emit_trig (s : State) (o : Output) : (s.emit o).trig = s.trig := rfl
@[simp] theorem State.emit_mem (s : State) (o : Output) : (s.emit o).mem = s.mem := rfl
@[simp] theorem State.emit_power (s : State) (o : Output) : (s.emit o).power = s.power := rfl
@[simp] theorem State.emit_ens (s : State) (o : Output) : (s.emit o).ens = s.ens := rfl

/-! ### withTime -/

@[simp] theorem State.withTime_pending (s : State) (x : TimeBase) : (s.withTime x).pending = s.pending := rfl
@[simp] theorem State.withTime_fresh (s : State) (x : TimeBase) : (s.withTime x).fresh = s.fresh := rfl
@[simp] theorem State.withTime_out (s : State) (x : TimeBase) : (s.withTime x).out = s.out := rfl
@[simp] theorem State.withTime_now (s : State) (x : TimeBase) : (s.withTime x).now = s.now := rfl
@[simp] theorem State.withTime_moduleId (s : State) (x : TimeBase) : (s.withTime x).moduleId = s.moduleId := rfl
@[simp] theorem State.withTime_mode (s : State) (x : TimeBase) : (s.withTime x).mode = s.mode := rfl
@[simp] theorem State.withTime_modeSince (s : State) (x : TimeBase) : (s.withTime x).modeSince = s.modeSince := rfl
@[simp] theorem State.withTime_ro (s : State) (x : TimeBase) : (s.withTime x).ro = s.ro := rfl
@[simp] theorem State.withTime_cfg (s : State) (x : TimeBase) : (s.withTime x).cfg = s.cfg := rfl
@[simp] theorem State.withTime_fw (s : State) (x : TimeBase) : (s.withTime x).fw = s.fw := rfl
@[simp] theorem State.withTime_sess (s : State) (x : TimeBase) : (s.withTime x).sess = s.sess := rfl
@[simp] theorem State.withTime_spi (s : State) (x : TimeBase) : (s.withTime x).spi = s.spi := rfl
@[simp] theorem State.withTime_dup (s : State) (x : TimeBase) : (s.withTime x).dup = s.dup := rfl
@[simp] theorem State.withTime_requests (s : State) (x : TimeBase) : (s.withTime x).requests = s.requests := rfl
@[simp] theorem State.withTime_jobs (s : State) (x : TimeBase) : (s.withTime x).jobs = s.jobs := rfl
@[simp] theorem State.withTime_nextJob (s : State) (x : TimeBase) : (s.withTime x).nextJob = s.nextJob := rfl
@[simp] theorem State.withTime_events (s : State) (x : TimeBase) : (s.withTime x).events = s.events := rfl
@[simp] theorem State.withTime_time (s : State) (x : TimeBase) : (s.withTime x).time = x := rfl
@[simp] theorem State.withTime_health (s : State) (x : TimeBase) : (s.withTime x).health = s.health := rfl
@[simp] theorem State.withTime_opt (s : State) (x : TimeBase) : (s.withTime x).opt = s.opt := rfl
@[simp] theorem State.withTime_sig (s : State) (x : TimeBase) : (s.withTime x).sig = s.sig := rfl
@[simp] theorem State.withTime_drive (s : State) (x : TimeBase) : (s.withTime x).drive = s.drive := rfl
@[simp] theorem State.withTime_raman (s : State) (x : TimeBase) : (s.withTime x).raman = s.raman := rfl
@[simp] theorem State.withTime_front (s : State) (x : TimeBase) : (s.withTime x).front = s.front := rfl
@[simp] theorem State.withTime_basalt (s : State) (x : TimeBase) : (s.withTime x).basalt = s.basalt := rfl
@[simp] theorem State.withTime_trig (s : State) (x : TimeBase) : (s.withTime x).trig = s.trig := rfl
@[simp] theorem State.withTime_mem (s : State) (x : TimeBase) : (s.withTime x).mem = s.mem := rfl
@[simp] theorem State.withTime_power (s : State) (x : TimeBase) : (s.withTime x).power = s.power := rfl
@[simp] theorem State.withTime_ens (s : State) (x : TimeBase) : (s.withTime x).ens = s.ens := rfl

/-! ### withHealth -/

@[simp] theorem State.withHealth_pending (s : State) (x : Health) : (s.withHealth x).pending = s.pending := rfl
@[simp] theorem State.withHealth_fresh (s : State) (x : Health) : (s.withHealth x).fresh = s.fresh := rfl
@[simp] theorem State.withHealth_out (s : State) (x : Health) : (s.withHealth x).out = s.out := rfl
@[simp] theorem State.withHealth_now (s : State) (x : Health) : (s.withHealth x).now = s.now := rfl
@[simp] theorem State.withHealth_moduleId (s : State) (x : Health) : (s.withHealth x).moduleId = s.moduleId := rfl
@[simp] theorem State.withHealth_mode (s : State) (x : Health) : (s.withHealth x).mode = s.mode := rfl
@[simp] theorem State.withHealth_modeSince (s : State) (x : Health) : (s.withHealth x).modeSince = s.modeSince := rfl
@[simp] theorem State.withHealth_ro (s : State) (x : Health) : (s.withHealth x).ro = s.ro := rfl
@[simp] theorem State.withHealth_cfg (s : State) (x : Health) : (s.withHealth x).cfg = s.cfg := rfl
@[simp] theorem State.withHealth_fw (s : State) (x : Health) : (s.withHealth x).fw = s.fw := rfl
@[simp] theorem State.withHealth_sess (s : State) (x : Health) : (s.withHealth x).sess = s.sess := rfl
@[simp] theorem State.withHealth_spi (s : State) (x : Health) : (s.withHealth x).spi = s.spi := rfl
@[simp] theorem State.withHealth_dup (s : State) (x : Health) : (s.withHealth x).dup = s.dup := rfl
@[simp] theorem State.withHealth_requests (s : State) (x : Health) : (s.withHealth x).requests = s.requests := rfl
@[simp] theorem State.withHealth_jobs (s : State) (x : Health) : (s.withHealth x).jobs = s.jobs := rfl
@[simp] theorem State.withHealth_nextJob (s : State) (x : Health) : (s.withHealth x).nextJob = s.nextJob := rfl
@[simp] theorem State.withHealth_events (s : State) (x : Health) : (s.withHealth x).events = s.events := rfl
@[simp] theorem State.withHealth_time (s : State) (x : Health) : (s.withHealth x).time = s.time := rfl
@[simp] theorem State.withHealth_health (s : State) (x : Health) : (s.withHealth x).health = x := rfl
@[simp] theorem State.withHealth_opt (s : State) (x : Health) : (s.withHealth x).opt = s.opt := rfl
@[simp] theorem State.withHealth_sig (s : State) (x : Health) : (s.withHealth x).sig = s.sig := rfl
@[simp] theorem State.withHealth_drive (s : State) (x : Health) : (s.withHealth x).drive = s.drive := rfl
@[simp] theorem State.withHealth_raman (s : State) (x : Health) : (s.withHealth x).raman = s.raman := rfl
@[simp] theorem State.withHealth_front (s : State) (x : Health) : (s.withHealth x).front = s.front := rfl
@[simp] theorem State.withHealth_basalt (s : State) (x : Health) : (s.withHealth x).basalt = s.basalt := rfl
@[simp] theorem State.withHealth_trig (s : State) (x : Health) : (s.withHealth x).trig = s.trig := rfl
@[simp] theorem State.withHealth_mem (s : State) (x : Health) : (s.withHealth x).mem = s.mem := rfl
@[simp] theorem State.withHealth_power (s : State) (x : Health) : (s.withHealth x).power = s.power := rfl
@[simp] theorem State.withHealth_ens (s : State) (x : Health) : (s.withHealth x).ens = s.ens := rfl

/-! ### withFront -/

@[simp] theorem State.withFront_pending (s : State) (x : Front) : (s.withFront x).pending = s.pending := rfl
@[simp] theorem State.withFront_fresh (s : State) (x : Front) : (s.withFront x).fresh = s.fresh := rfl
@[simp] theorem State.withFront_out (s : State) (x : Front) : (s.withFront x).out = s.out := rfl
@[simp] theorem State.withFront_now (s : State) (x : Front) : (s.withFront x).now = s.now := rfl
@[simp] theorem State.withFront_moduleId (s : State) (x : Front) : (s.withFront x).moduleId = s.moduleId := rfl
@[simp] theorem State.withFront_mode (s : State) (x : Front) : (s.withFront x).mode = s.mode := rfl
@[simp] theorem State.withFront_modeSince (s : State) (x : Front) : (s.withFront x).modeSince = s.modeSince := rfl
@[simp] theorem State.withFront_ro (s : State) (x : Front) : (s.withFront x).ro = s.ro := rfl
@[simp] theorem State.withFront_cfg (s : State) (x : Front) : (s.withFront x).cfg = s.cfg := rfl
@[simp] theorem State.withFront_fw (s : State) (x : Front) : (s.withFront x).fw = s.fw := rfl
@[simp] theorem State.withFront_sess (s : State) (x : Front) : (s.withFront x).sess = s.sess := rfl
@[simp] theorem State.withFront_spi (s : State) (x : Front) : (s.withFront x).spi = s.spi := rfl
@[simp] theorem State.withFront_dup (s : State) (x : Front) : (s.withFront x).dup = s.dup := rfl
@[simp] theorem State.withFront_requests (s : State) (x : Front) : (s.withFront x).requests = s.requests := rfl
@[simp] theorem State.withFront_jobs (s : State) (x : Front) : (s.withFront x).jobs = s.jobs := rfl
@[simp] theorem State.withFront_nextJob (s : State) (x : Front) : (s.withFront x).nextJob = s.nextJob := rfl
@[simp] theorem State.withFront_events (s : State) (x : Front) : (s.withFront x).events = s.events := rfl
@[simp] theorem State.withFront_time (s : State) (x : Front) : (s.withFront x).time = s.time := rfl
@[simp] theorem State.withFront_health (s : State) (x : Front) : (s.withFront x).health = s.health := rfl
@[simp] theorem State.withFront_opt (s : State) (x : Front) : (s.withFront x).opt = s.opt := rfl
@[simp] theorem State.withFront_sig (s : State) (x : Front) : (s.withFront x).sig = s.sig := rfl
@[simp] theorem State.withFront_drive (s : State) (x : Front) : (s.withFront x).drive = s.drive := rfl
@[simp] theorem State.withFront_raman (s : State) (x : Front) : (s.withFront x).raman = s.raman := rfl
@[simp] theorem State.withFront_front (s : State) (x : Front) : (s.withFront x).front = x := rfl
@[simp] theorem State.withFront_basalt (s : State) (x : Front) : (s.withFront x).basalt = s.basalt := rfl
@[simp] theorem State.withFront_trig (s : State) (x : Front) : (s.withFront x).trig = s.trig := rfl
@[simp] theorem State.withFront_mem (s : State) (x : Front) : (s.withFront x).mem = s.mem := rfl
@[simp] theorem State.withFront_power (s : State) (x : Front) : (s.withFront x).power = s.power := rfl
@[simp] theorem State.withFront_ens (s : State) (x : Front) : (s.withFront x).ens = s.ens := rfl

/-! ### withMem -/

@[simp] theorem State.withMem_pending (s : State) (x : MemSt) : (s.withMem x).pending = s.pending := rfl
@[simp] theorem State.withMem_fresh (s : State) (x : MemSt) : (s.withMem x).fresh = s.fresh := rfl
@[simp] theorem State.withMem_out (s : State) (x : MemSt) : (s.withMem x).out = s.out := rfl
@[simp] theorem State.withMem_now (s : State) (x : MemSt) : (s.withMem x).now = s.now := rfl
@[simp] theorem State.withMem_moduleId (s : State) (x : MemSt) : (s.withMem x).moduleId = s.moduleId := rfl
@[simp] theorem State.withMem_mode (s : State) (x : MemSt) : (s.withMem x).mode = s.mode := rfl
@[simp] theorem State.withMem_modeSince (s : State) (x : MemSt) : (s.withMem x).modeSince = s.modeSince := rfl
@[simp] theorem State.withMem_ro (s : State) (x : MemSt) : (s.withMem x).ro = s.ro := rfl
@[simp] theorem State.withMem_cfg (s : State) (x : MemSt) : (s.withMem x).cfg = s.cfg := rfl
@[simp] theorem State.withMem_fw (s : State) (x : MemSt) : (s.withMem x).fw = s.fw := rfl
@[simp] theorem State.withMem_sess (s : State) (x : MemSt) : (s.withMem x).sess = s.sess := rfl
@[simp] theorem State.withMem_spi (s : State) (x : MemSt) : (s.withMem x).spi = s.spi := rfl
@[simp] theorem State.withMem_dup (s : State) (x : MemSt) : (s.withMem x).dup = s.dup := rfl
@[simp] theorem State.withMem_requests (s : State) (x : MemSt) : (s.withMem x).requests = s.requests := rfl
@[simp] theorem State.withMem_jobs (s : State) (x : MemSt) : (s.withMem x).jobs = s.jobs := rfl
@[simp] theorem State.withMem_nextJob (s : State) (x : MemSt) : (s.withMem x).nextJob = s.nextJob := rfl
@[simp] theorem State.withMem_events (s : State) (x : MemSt) : (s.withMem x).events = s.events := rfl
@[simp] theorem State.withMem_time (s : State) (x : MemSt) : (s.withMem x).time = s.time := rfl
@[simp] theorem State.withMem_health (s : State) (x : MemSt) : (s.withMem x).health = s.health := rfl
@[simp] theorem State.withMem_opt (s : State) (x : MemSt) : (s.withMem x).opt = s.opt := rfl
@[simp] theorem State.withMem_sig (s : State) (x : MemSt) : (s.withMem x).sig = s.sig := rfl
@[simp] theorem State.withMem_drive (s : State) (x : MemSt) : (s.withMem x).drive = s.drive := rfl
@[simp] theorem State.withMem_raman (s : State) (x : MemSt) : (s.withMem x).raman = s.raman := rfl
@[simp] theorem State.withMem_front (s : State) (x : MemSt) : (s.withMem x).front = s.front := rfl
@[simp] theorem State.withMem_basalt (s : State) (x : MemSt) : (s.withMem x).basalt = s.basalt := rfl
@[simp] theorem State.withMem_trig (s : State) (x : MemSt) : (s.withMem x).trig = s.trig := rfl
@[simp] theorem State.withMem_mem (s : State) (x : MemSt) : (s.withMem x).mem = x := rfl
@[simp] theorem State.withMem_power (s : State) (x : MemSt) : (s.withMem x).power = s.power := rfl
@[simp] theorem State.withMem_ens (s : State) (x : MemSt) : (s.withMem x).ens = s.ens := rfl

/-! ### withPower -/

@[simp] theorem State.withPower_pending (s : State) (x : PowerSt) : (s.withPower x).pending = s.pending := rfl
@[simp] theorem State.withPower_fresh (s : State) (x : PowerSt) : (s.withPower x).fresh = s.fresh := rfl
@[simp] theorem State.withPower_out (s : State) (x : PowerSt) : (s.withPower x).out = s.out := rfl
@[simp] theorem State.withPower_now (s : State) (x : PowerSt) : (s.withPower x).now = s.now := rfl
@[simp] theorem State.withPower_moduleId (s : State) (x : PowerSt) : (s.withPower x).moduleId = s.moduleId := rfl
@[simp] theorem State.withPower_mode (s : State) (x : PowerSt) : (s.withPower x).mode = s.mode := rfl
@[simp] theorem State.withPower_modeSince (s : State) (x : PowerSt) : (s.withPower x).modeSince = s.modeSince := rfl
@[simp] theorem State.withPower_ro (s : State) (x : PowerSt) : (s.withPower x).ro = s.ro := rfl
@[simp] theorem State.withPower_cfg (s : State) (x : PowerSt) : (s.withPower x).cfg = s.cfg := rfl
@[simp] theorem State.withPower_fw (s : State) (x : PowerSt) : (s.withPower x).fw = s.fw := rfl
@[simp] theorem State.withPower_sess (s : State) (x : PowerSt) : (s.withPower x).sess = s.sess := rfl
@[simp] theorem State.withPower_spi (s : State) (x : PowerSt) : (s.withPower x).spi = s.spi := rfl
@[simp] theorem State.withPower_dup (s : State) (x : PowerSt) : (s.withPower x).dup = s.dup := rfl
@[simp] theorem State.withPower_requests (s : State) (x : PowerSt) : (s.withPower x).requests = s.requests := rfl
@[simp] theorem State.withPower_jobs (s : State) (x : PowerSt) : (s.withPower x).jobs = s.jobs := rfl
@[simp] theorem State.withPower_nextJob (s : State) (x : PowerSt) : (s.withPower x).nextJob = s.nextJob := rfl
@[simp] theorem State.withPower_events (s : State) (x : PowerSt) : (s.withPower x).events = s.events := rfl
@[simp] theorem State.withPower_time (s : State) (x : PowerSt) : (s.withPower x).time = s.time := rfl
@[simp] theorem State.withPower_health (s : State) (x : PowerSt) : (s.withPower x).health = s.health := rfl
@[simp] theorem State.withPower_opt (s : State) (x : PowerSt) : (s.withPower x).opt = s.opt := rfl
@[simp] theorem State.withPower_sig (s : State) (x : PowerSt) : (s.withPower x).sig = s.sig := rfl
@[simp] theorem State.withPower_drive (s : State) (x : PowerSt) : (s.withPower x).drive = s.drive := rfl
@[simp] theorem State.withPower_raman (s : State) (x : PowerSt) : (s.withPower x).raman = s.raman := rfl
@[simp] theorem State.withPower_front (s : State) (x : PowerSt) : (s.withPower x).front = s.front := rfl
@[simp] theorem State.withPower_basalt (s : State) (x : PowerSt) : (s.withPower x).basalt = s.basalt := rfl
@[simp] theorem State.withPower_trig (s : State) (x : PowerSt) : (s.withPower x).trig = s.trig := rfl
@[simp] theorem State.withPower_mem (s : State) (x : PowerSt) : (s.withPower x).mem = s.mem := rfl
@[simp] theorem State.withPower_power (s : State) (x : PowerSt) : (s.withPower x).power = x := rfl
@[simp] theorem State.withPower_ens (s : State) (x : PowerSt) : (s.withPower x).ens = s.ens := rfl

/-! ### withEns -/

@[simp] theorem State.withEns_pending (s : State) (x : Ensemble) : (s.withEns x).pending = s.pending := rfl
@[simp] theorem State.withEns_fresh (s : State) (x : Ensemble) : (s.withEns x).fresh = s.fresh := rfl
@[simp] theorem State.withEns_out (s : State) (x : Ensemble) : (s.withEns x).out = s.out := rfl
@[simp] theorem State.withEns_now (s : State) (x : Ensemble) : (s.withEns x).now = s.now := rfl
@[simp] theorem State.withEns_moduleId (s : State) (x : Ensemble) : (s.withEns x).moduleId = s.moduleId := rfl
@[simp] theorem State.withEns_mode (s : State) (x : Ensemble) : (s.withEns x).mode = s.mode := rfl
@[simp] theorem State.withEns_modeSince (s : State) (x : Ensemble) : (s.withEns x).modeSince = s.modeSince := rfl
@[simp] theorem State.withEns_ro (s : State) (x : Ensemble) : (s.withEns x).ro = s.ro := rfl
@[simp] theorem State.withEns_cfg (s : State) (x : Ensemble) : (s.withEns x).cfg = s.cfg := rfl
@[simp] theorem State.withEns_fw (s : State) (x : Ensemble) : (s.withEns x).fw = s.fw := rfl
@[simp] theorem State.withEns_sess (s : State) (x : Ensemble) : (s.withEns x).sess = s.sess := rfl
@[simp] theorem State.withEns_spi (s : State) (x : Ensemble) : (s.withEns x).spi = s.spi := rfl
@[simp] theorem State.withEns_dup (s : State) (x : Ensemble) : (s.withEns x).dup = s.dup := rfl
@[simp] theorem State.withEns_requests (s : State) (x : Ensemble) : (s.withEns x).requests = s.requests := rfl
@[simp] theorem State.withEns_jobs (s : State) (x : Ensemble) : (s.withEns x).jobs = s.jobs := rfl
@[simp] theorem State.withEns_nextJob (s : State) (x : Ensemble) : (s.withEns x).nextJob = s.nextJob := rfl
@[simp] theorem State.withEns_events (s : State) (x : Ensemble) : (s.withEns x).events = s.events := rfl
@[simp] theorem State.withEns_time (s : State) (x : Ensemble) : (s.withEns x).time = s.time := rfl
@[simp] theorem State.withEns_health (s : State) (x : Ensemble) : (s.withEns x).health = s.health := rfl
@[simp] theorem State.withEns_opt (s : State) (x : Ensemble) : (s.withEns x).opt = s.opt := rfl
@[simp] theorem State.withEns_sig (s : State) (x : Ensemble) : (s.withEns x).sig = s.sig := rfl
@[simp] theorem State.withEns_drive (s : State) (x : Ensemble) : (s.withEns x).drive = s.drive := rfl
@[simp] theorem State.withEns_raman (s : State) (x : Ensemble) : (s.withEns x).raman = s.raman := rfl
@[simp] theorem State.withEns_front (s : State) (x : Ensemble) : (s.withEns x).front = s.front := rfl
@[simp] theorem State.withEns_basalt (s : State) (x : Ensemble) : (s.withEns x).basalt = s.basalt := rfl
@[simp] theorem State.withEns_trig (s : State) (x : Ensemble) : (s.withEns x).trig = s.trig := rfl
@[simp] theorem State.withEns_mem (s : State) (x : Ensemble) : (s.withEns x).mem = s.mem := rfl
@[simp] theorem State.withEns_power (s : State) (x : Ensemble) : (s.withEns x).power = s.power := rfl
@[simp] theorem State.withEns_ens (s : State) (x : Ensemble) : (s.withEns x).ens = x := rfl

/-! ### setPair -/

@[simp] theorem State.setPair_pending (s : State) (n : Nat) (x : Session) : (s.setPair n x).pending = s.pending := rfl
@[simp] theorem State.setPair_fresh (s : State) (n : Nat) (x : Session) : (s.setPair n x).fresh = s.fresh := rfl
@[simp] theorem State.setPair_out (s : State) (n : Nat) (x : Session) : (s.setPair n x).out = s.out := rfl
@[simp] theorem State.setPair_now (s : State) (n : Nat) (x : Session) : (s.setPair n x).now = s.now := rfl
@[simp] theorem State.setPair_moduleId (s : State) (n : Nat) (x : Session) : (s.setPair n x).moduleId = s.moduleId := rfl
@[simp] theorem State.setPair_mode (s : State) (n : Nat) (x : Session) : (s.setPair n x).mode = s.mode := rfl
@[simp] theorem State.setPair_modeSince (s : State) (n : Nat) (x : Session) : (s.setPair n x).modeSince = s.modeSince := rfl
@[simp] theorem State.setPair_ro (s : State) (n : Nat) (x : Session) : (s.setPair n x).ro = s.ro := rfl
@[simp] theorem State.setPair_cfg (s : State) (n : Nat) (x : Session) : (s.setPair n x).cfg = s.cfg := rfl
@[simp] theorem State.setPair_fw (s : State) (n : Nat) (x : Session) : (s.setPair n x).fw = s.fw := rfl
@[simp] theorem State.setPair_sess (s : State) (n : Nat) (x : Session) : (s.setPair n x).sess = s.sess.set n x := rfl
@[simp] theorem State.setPair_spi (s : State) (n : Nat) (x : Session) : (s.setPair n x).spi = s.spi := rfl
@[simp] theorem State.setPair_dup (s : State) (n : Nat) (x : Session) : (s.setPair n x).dup = s.dup := rfl
@[simp] theorem State.setPair_requests (s : State) (n : Nat) (x : Session) : (s.setPair n x).requests = s.requests := rfl
@[simp] theorem State.setPair_jobs (s : State) (n : Nat) (x : Session) : (s.setPair n x).jobs = s.jobs := rfl
@[simp] theorem State.setPair_nextJob (s : State) (n : Nat) (x : Session) : (s.setPair n x).nextJob = s.nextJob := rfl
@[simp] theorem State.setPair_events (s : State) (n : Nat) (x : Session) : (s.setPair n x).events = s.events := rfl
@[simp] theorem State.setPair_time (s : State) (n : Nat) (x : Session) : (s.setPair n x).time = s.time := rfl
@[simp] theorem State.setPair_health (s : State) (n : Nat) (x : Session) : (s.setPair n x).health = s.health := rfl
@[simp] theorem State.setPair_opt (s : State) (n : Nat) (x : Session) : (s.setPair n x).opt = s.opt := rfl
@[simp] theorem State.setPair_sig (s : State) (n : Nat) (x : Session) : (s.setPair n x).sig = s.sig := rfl
@[simp] theorem State.setPair_drive (s : State) (n : Nat) (x : Session) : (s.setPair n x).drive = s.drive := rfl
@[simp] theorem State.setPair_raman (s : State) (n : Nat) (x : Session) : (s.setPair n x).raman = s.raman := rfl
@[simp] theorem State.setPair_front (s : State) (n : Nat) (x : Session) : (s.setPair n x).front = s.front := rfl
@[simp] theorem State.setPair_basalt (s : State) (n : Nat) (x : Session) : (s.setPair n x).basalt = s.basalt := rfl
@[simp] theorem State.setPair_trig (s : State) (n : Nat) (x : Session) : (s.setPair n x).trig = s.trig := rfl
@[simp] theorem State.setPair_mem (s : State) (n : Nat) (x : Session) : (s.setPair n x).mem = s.mem := rfl
@[simp] theorem State.setPair_power (s : State) (n : Nat) (x : Session) : (s.setPair n x).power = s.power := rfl
@[simp] theorem State.setPair_ens (s : State) (n : Nat) (x : Session) : (s.setPair n x).ens = s.ens := rfl

/-! ### setDraft -/

@[simp] theorem State.setDraft_pending (s : State) (x : PSet) : (s.setDraft x).pending = s.pending := rfl
@[simp] theorem State.setDraft_fresh (s : State) (x : PSet) : (s.setDraft x).fresh = s.fresh := rfl
@[simp] theorem State.setDraft_out (s : State) (x : PSet) : (s.setDraft x).out = s.out := rfl
@[simp] theorem State.setDraft_now (s : State) (x : PSet) : (s.setDraft x).now = s.now := rfl
@[simp] theorem State.setDraft_moduleId (s : State) (x : PSet) : (s.setDraft x).moduleId = s.moduleId := rfl
@[simp] theorem State.setDraft_mode (s : State) (x : PSet) : (s.setDraft x).mode = s.mode := rfl
@[simp] theorem State.setDraft_modeSince (s : State) (x : PSet) : (s.setDraft x).modeSince = s.modeSince := rfl
@[simp] theorem State.setDraft_ro (s : State) (x : PSet) : (s.setDraft x).ro = s.ro := rfl
@[simp] theorem State.setDraft_fw (s : State) (x : PSet) : (s.setDraft x).fw = s.fw := rfl
@[simp] theorem State.setDraft_sess (s : State) (x : PSet) : (s.setDraft x).sess = s.sess := rfl
@[simp] theorem State.setDraft_spi (s : State) (x : PSet) : (s.setDraft x).spi = s.spi := rfl
@[simp] theorem State.setDraft_dup (s : State) (x : PSet) : (s.setDraft x).dup = s.dup := rfl
@[simp] theorem State.setDraft_requests (s : State) (x : PSet) : (s.setDraft x).requests = s.requests := rfl
@[simp] theorem State.setDraft_jobs (s : State) (x : PSet) : (s.setDraft x).jobs = s.jobs := rfl
@[simp] theorem State.setDraft_nextJob (s : State) (x : PSet) : (s.setDraft x).nextJob = s.nextJob := rfl
@[simp] theorem State.setDraft_events (s : State) (x : PSet) : (s.setDraft x).events = s.events := rfl
@[simp] theorem State.setDraft_time (s : State) (x : PSet) : (s.setDraft x).time = s.time := rfl
@[simp] theorem State.setDraft_health (s : State) (x : PSet) : (s.setDraft x).health = s.health := rfl
@[simp] theorem State.setDraft_opt (s : State) (x : PSet) : (s.setDraft x).opt = s.opt := rfl
@[simp] theorem State.setDraft_sig (s : State) (x : PSet) : (s.setDraft x).sig = s.sig := rfl
@[simp] theorem State.setDraft_drive (s : State) (x : PSet) : (s.setDraft x).drive = s.drive := rfl
@[simp] theorem State.setDraft_raman (s : State) (x : PSet) : (s.setDraft x).raman = s.raman := rfl
@[simp] theorem State.setDraft_front (s : State) (x : PSet) : (s.setDraft x).front = s.front := rfl
@[simp] theorem State.setDraft_basalt (s : State) (x : PSet) : (s.setDraft x).basalt = s.basalt := rfl
@[simp] theorem State.setDraft_trig (s : State) (x : PSet) : (s.setDraft x).trig = s.trig := rfl
@[simp] theorem State.setDraft_mem (s : State) (x : PSet) : (s.setDraft x).mem = s.mem := rfl
@[simp] theorem State.setDraft_power (s : State) (x : PSet) : (s.setDraft x).power = s.power := rfl
@[simp] theorem State.setDraft_ens (s : State) (x : PSet) : (s.setDraft x).ens = s.ens := rfl

/-! ### setCore -/

@[simp] theorem State.setCore_pending (s : State) (n : Nat) (x : BCore) : (s.setCore n x).pending = s.pending := rfl
@[simp] theorem State.setCore_fresh (s : State) (n : Nat) (x : BCore) : (s.setCore n x).fresh = s.fresh := rfl
@[simp] theorem State.setCore_out (s : State) (n : Nat) (x : BCore) : (s.setCore n x).out = s.out := rfl
@[simp] theorem State.setCore_now (s : State) (n : Nat) (x : BCore) : (s.setCore n x).now = s.now := rfl
@[simp] theorem State.setCore_moduleId (s : State) (n : Nat) (x : BCore) : (s.setCore n x).moduleId = s.moduleId := rfl
@[simp] theorem State.setCore_mode (s : State) (n : Nat) (x : BCore) : (s.setCore n x).mode = s.mode := rfl
@[simp] theorem State.setCore_modeSince (s : State) (n : Nat) (x : BCore) : (s.setCore n x).modeSince = s.modeSince := rfl
@[simp] theorem State.setCore_ro (s : State) (n : Nat) (x : BCore) : (s.setCore n x).ro = s.ro := rfl
@[simp] theorem State.setCore_cfg (s : State) (n : Nat) (x : BCore) : (s.setCore n x).cfg = s.cfg := rfl
@[simp] theorem State.setCore_fw (s : State) (n : Nat) (x : BCore) : (s.setCore n x).fw = s.fw := rfl
@[simp] theorem State.setCore_sess (s : State) (n : Nat) (x : BCore) : (s.setCore n x).sess = s.sess := rfl
@[simp] theorem State.setCore_spi (s : State) (n : Nat) (x : BCore) : (s.setCore n x).spi = s.spi := rfl
@[simp] theorem State.setCore_dup (s : State) (n : Nat) (x : BCore) : (s.setCore n x).dup = s.dup := rfl
@[simp] theorem State.setCore_requests (s : State) (n : Nat) (x : BCore) : (s.setCore n x).requests = s.requests := rfl
@[simp] theorem State.setCore_jobs (s : State) (n : Nat) (x : BCore) : (s.setCore n x).jobs = s.jobs := rfl
@[simp] theorem State.setCore_nextJob (s : State) (n : Nat) (x : BCore) : (s.setCore n x).nextJob = s.nextJob := rfl
@[simp] theorem State.setCore_events (s : State) (n : Nat) (x : BCore) : (s.setCore n x).events = s.events := rfl
@[simp] theorem State.setCore_time (s : State) (n : Nat) (x : BCore) : (s.setCore n x).time = s.time := rfl
@[simp] theorem State.setCore_health (s : State) (n : Nat) (x : BCore) : (s.setCore n x).health = s.health := rfl
@[simp] theorem State.setCore_opt (s : State) (n : Nat) (x : BCore) : (s.setCore n x).opt = s.opt := rfl
@[simp] theorem State.setCore_sig (s : State) (n : Nat) (x : BCore) : (s.setCore n x).sig = s.sig := rfl
@[simp] theorem State.setCore_drive (s : State) (n : Nat) (x : BCore) : (s.setCore n x).drive = s.drive := rfl
@[simp] theorem State.setCore_raman (s : State) (n : Nat) (x : BCore) : (s.setCore n x).raman = s.raman := rfl
@[simp] theorem State.setCore_front (s : State) (n : Nat) (x : BCore) : (s.setCore n x).front = s.front := rfl
@[simp] theorem State.setCore_trig (s : State) (n : Nat) (x : BCore) : (s.setCore n x).trig = s.trig := rfl
@[simp] theorem State.setCore_mem (s : State) (n : Nat) (x : BCore) : (s.setCore n x).mem = s.mem := rfl
@[simp] theorem State.setCore_power (s : State) (n : Nat) (x : BCore) : (s.setCore n x).power = s.power := rfl
@[simp] theorem State.setCore_ens (s : State) (n : Nat) (x : BCore) : (s.setCore n x).ens = s.ens := rfl

/-! ### setInst -/

@[simp] theorem State.setInst_pending (s : State) (n : Nat) (x : BInst) : (s.setInst n x).pending = s.pending := rfl
@[simp] theorem State.setInst_fresh (s : State) (n : Nat) (x : BInst) : (s.setInst n x).fresh = s.fresh := rfl
@[simp] theorem State.setInst_out (s : State) (n : Nat) (x : BInst) : (s.setInst n x).out = s.out := rfl
@[simp] theorem State.setInst_now (s : State) (n : Nat) (x : BInst) : (s.setInst n x).now = s.now := rfl
@[simp] theorem State.setInst_moduleId (s : State) (n : Nat) (x : BInst) : (s.setInst n x).moduleId = s.moduleId := rfl
@[simp] theorem State.setInst_mode (s : State) (n : Nat) (x : BInst) : (s.setInst n x).mode = s.mode := rfl
@[simp] theorem State.setInst_modeSince (s : State) (n : Nat) (x : BInst) : (s.setInst n x).modeSince = s.modeSince := rfl
@[simp] theorem State.setInst_ro (s : State) (n : Nat) (x : BInst) : (s.setInst n x).ro = s.ro := rfl
@[simp] theorem State.setInst_cfg (s : State) (n : Nat) (x : BInst) : (s.setInst n x).cfg = s.cfg := rfl
@[simp] theorem State.setInst_fw (s : State) (n : Nat) (x : BInst) : (s.setInst n x).fw = s.fw := rfl
@[simp] theorem State.setInst_sess (s : State) (n : Nat) (x : BInst) : (s.setInst n x).sess = s.sess := rfl
@[simp] theorem State.setInst_spi (s : State) (n : Nat) (x : BInst) : (s.setInst n x).spi = s.spi := rfl
@[simp] theorem State.setInst_dup (s : State) (n : Nat) (x : BInst) : (s.setInst n x).dup = s.dup := rfl
@[simp] theorem State.setInst_requests (s : State) (n : Nat) (x : BInst) : (s.setInst n x).requests = s.requests := rfl
@[simp] theorem State.setInst_jobs (s : State) (n : Nat) (x : BInst) : (s.setInst n x).jobs = s.jobs := rfl
@[simp] theorem State.setInst_nextJob (s : State) (n : Nat) (x : BInst) : (s.setInst n x).nextJob = s.nextJob := rfl
@[simp] theorem State.setInst_events (s : State) (n : Nat) (x : BInst) : (s.setInst n x).events = s.events := rfl
@[simp] theorem State.setInst_time (s : State) (n : Nat) (x : BInst) : (s.setInst n x).time = s.time := rfl
@[simp] theorem State.setInst_health (s : State) (n : Nat) (x : BInst) : (s.setInst n x).health = s.health := rfl
@[simp] theorem State.setInst_opt (s : State) (n : Nat) (x : BInst) : (s.setInst n x).opt = s.opt := rfl
@[simp] theorem State.setInst_sig (s : State) (n : Nat) (x : BInst) : (s.setInst n x).sig = s.sig := rfl
@[simp] theorem State.setInst_drive (s : State) (n : Nat) (x : BInst) : (s.setInst n x).drive = s.drive := rfl
@[simp] theorem State.setInst_raman (s : State) (n : Nat) (x : BInst) : (s.setInst n x).raman = s.raman := rfl
@[simp] theorem State.setInst_front (s : State) (n : Nat) (x : BInst) : (s.setInst n x).front = s.front := rfl
@[simp] theorem State.setInst_trig (s : State) (n : Nat) (x : BInst) : (s.setInst n x).trig = s.trig := rfl
@[simp] theorem State.setInst_mem (s : State) (n : Nat) (x : BInst) : (s.setInst n x).mem = s.mem := rfl
@[simp] theorem State.setInst_power (s : State) (n : Nat) (x : BInst) : (s.setInst n x).power = s.power := rfl
@[simp] theorem State.setInst_ens (s : State) (n : Nat) (x : BInst) : (s.setInst n x).ens = s.ens := rfl

/-! ### setSlot -/

@[simp] theorem State.setSlot_pending (s : State) (n : Nat) (x : BSlot) : (s.setSlot n x).pending = s.pending := rfl
@[simp] theorem State.setSlot_fresh (s : State) (n : Nat) (x : BSlot) : (s.setSlot n x).fresh = s.fresh := rfl
@[simp] theorem State.setSlot_out (s : State) (n : Nat) (x : BSlot) : (s.setSlot n x).out = s.out := rfl
@[simp] theorem State.setSlot_now (s : State) (n : Nat) (x : BSlot) : (s.setSlot n x).now = s.now := rfl
@[simp] theorem State.setSlot_moduleId (s : State) (n : Nat) (x : BSlot) : (s.setSlot n x).moduleId = s.moduleId := rfl
@[simp] theorem State.setSlot_mode (s : State) (n : Nat) (x : BSlot) : (s.setSlot n x).mode = s.mode := rfl
@[simp] theorem State.setSlot_modeSince (s : State) (n : Nat) (x : BSlot) : (s.setSlot n x).modeSince = s.modeSince := rfl
@[simp] theorem State.setSlot_ro (s : State) (n : Nat) (x : BSlot) : (s.setSlot n x).ro = s.ro := rfl
@[simp] theorem State.setSlot_cfg (s : State) (n : Nat) (x : BSlot) : (s.setSlot n x).cfg = s.cfg := rfl
@[simp] theorem State.setSlot_fw (s : State) (n : Nat) (x : BSlot) : (s.setSlot n x).fw = s.fw := rfl
@[simp] theorem State.setSlot_sess (s : State) (n : Nat) (x : BSlot) : (s.setSlot n x).sess = s.sess := rfl
@[simp] theorem State.setSlot_spi (s : State) (n : Nat) (x : BSlot) : (s.setSlot n x).spi = s.spi := rfl
@[simp] theorem State.setSlot_dup (s : State) (n : Nat) (x : BSlot) : (s.setSlot n x).dup = s.dup := rfl
@[simp] theorem State.setSlot_requests (s : State) (n : Nat) (x : BSlot) : (s.setSlot n x).requests = s.requests := rfl
@[simp] theorem State.setSlot_jobs (s : State) (n : Nat) (x : BSlot) : (s.setSlot n x).jobs = s.jobs := rfl
@[simp] theorem State.setSlot_nextJob (s : State) (n : Nat) (x : BSlot) : (s.setSlot n x).nextJob = s.nextJob := rfl
@[simp] theorem State.setSlot_events (s : State) (n : Nat) (x : BSlot) : (s.setSlot n x).events = s.events := rfl
@[simp] theorem State.setSlot_time (s : State) (n : Nat) (x : BSlot) : (s.setSlot n x).time = s.time := rfl
@[simp] theorem State.setSlot_health (s : State) (n : Nat) (x : BSlot) : (s.setSlot n x).health = s.health := rfl
@[simp] theorem State.setSlot_opt (s : State) (n : Nat) (x : BSlot) : (s.setSlot n x).opt = s.opt := rfl
@[simp] theorem State.setSlot_sig (s : State) (n : Nat) (x : BSlot) : (s.setSlot n x).sig = s.sig := rfl
@[simp] theorem State.setSlot_drive (s : State) (n : Nat) (x : BSlot) : (s.setSlot n x).drive = s.drive := rfl
@[simp] theorem State.setSlot_raman (s : State) (n : Nat) (x : BSlot) : (s.setSlot n x).raman = s.raman := rfl
@[simp] theorem State.setSlot_front (s : State) (n : Nat) (x : BSlot) : (s.setSlot n x).front = s.front := rfl
@[simp] theorem State.setSlot_trig (s : State) (n : Nat) (x : BSlot) : (s.setSlot n x).trig = s.trig := rfl
@[simp] theorem State.setSlot_mem (s : State) (n : Nat) (x : BSlot) : (s.setSlot n x).mem = s.mem := rfl
@[simp] theorem State.setSlot_power (s : State) (n : Nat) (x : BSlot) : (s.setSlot n x).power = s.power := rfl
@[simp] theorem State.setSlot_ens (s : State) (n : Nat) (x : BSlot) : (s.setSlot n x).ens = s.ens := rfl

/-! ### setStrun -/

@[simp] theorem State.setStrun_pending (s : State) (p : Port) (x : StrataRun) : (s.setStrun p x).pending = s.pending := rfl
@[simp] theorem State.setStrun_fresh (s : State) (p : Port) (x : StrataRun) : (s.setStrun p x).fresh = s.fresh := rfl
@[simp] theorem State.setStrun_out (s : State) (p : Port) (x : StrataRun) : (s.setStrun p x).out = s.out := rfl
@[simp] theorem State.setStrun_now (s : State) (p : Port) (x : StrataRun) : (s.setStrun p x).now = s.now := rfl
@[simp] theorem State.setStrun_moduleId (s : State) (p : Port) (x : StrataRun) : (s.setStrun p x).moduleId = s.moduleId := rfl
@[simp] theorem State.setStrun_mode (s : State) (p : Port) (x : StrataRun) : (s.setStrun p x).mode = s.mode := rfl
@[simp] theorem State.setStrun_modeSince (s : State) (p : Port) (x : StrataRun) : (s.setStrun p x).modeSince = s.modeSince := rfl
@[simp] theorem State.setStrun_ro (s : State) (p : Port) (x : StrataRun) : (s.setStrun p x).ro = s.ro := rfl
@[simp] theorem State.setStrun_cfg (s : State) (p : Port) (x : StrataRun) : (s.setStrun p x).cfg = s.cfg := rfl
@[simp] theorem State.setStrun_fw (s : State) (p : Port) (x : StrataRun) : (s.setStrun p x).fw = s.fw := rfl
@[simp] theorem State.setStrun_sess (s : State) (p : Port) (x : StrataRun) : (s.setStrun p x).sess = s.sess := rfl
@[simp] theorem State.setStrun_spi (s : State) (p : Port) (x : StrataRun) : (s.setStrun p x).spi = s.spi := rfl
@[simp] theorem State.setStrun_dup (s : State) (p : Port) (x : StrataRun) : (s.setStrun p x).dup = s.dup := rfl
@[simp] theorem State.setStrun_requests (s : State) (p : Port) (x : StrataRun) : (s.setStrun p x).requests = s.requests := rfl
@[simp] theorem State.setStrun_jobs (s : State) (p : Port) (x : StrataRun) : (s.setStrun p x).jobs = s.jobs := rfl
@[simp] theorem State.setStrun_nextJob (s : State) (p : Port) (x : StrataRun) : (s.setStrun p x).nextJob = s.nextJob := rfl
@[simp] theorem State.setStrun_events (s : State) (p : Port) (x : StrataRun) : (s.setStrun p x).events = s.events := rfl
@[simp] theorem State.setStrun_time (s : State) (p : Port) (x : StrataRun) : (s.setStrun p x).time = s.time := rfl
@[simp] theorem State.setStrun_health (s : State) (p : Port) (x : StrataRun) : (s.setStrun p x).health = s.health := rfl
@[simp] theorem State.setStrun_opt (s : State) (p : Port) (x : StrataRun) : (s.setStrun p x).opt = s.opt := rfl
@[simp] theorem State.setStrun_sig (s : State) (p : Port) (x : StrataRun) : (s.setStrun p x).sig = s.sig := rfl
@[simp] theorem State.setStrun_drive (s : State) (p : Port) (x : StrataRun) : (s.setStrun p x).drive = s.drive := rfl
@[simp] theorem State.setStrun_raman (s : State) (p : Port) (x : StrataRun) : (s.setStrun p x).raman = s.raman := rfl
@[simp] theorem State.setStrun_front (s : State) (p : Port) (x : StrataRun) : (s.setStrun p x).front = s.front := rfl
@[simp] theorem State.setStrun_basalt (s : State) (p : Port) (x : StrataRun) : (s.setStrun p x).basalt = s.basalt := rfl
@[simp] theorem State.setStrun_mem (s : State) (p : Port) (x : StrataRun) : (s.setStrun p x).mem = s.mem := rfl
@[simp] theorem State.setStrun_power (s : State) (p : Port) (x : StrataRun) : (s.setStrun p x).power = s.power := rfl
@[simp] theorem State.setStrun_ens (s : State) (p : Port) (x : StrataRun) : (s.setStrun p x).ens = s.ens := rfl

/-! ### setCond -/

@[simp] theorem State.setCond_pending (s : State) (n : Nat) (x : CondSt) : (s.setCond n x).pending = s.pending := rfl
@[simp] theorem State.setCond_fresh (s : State) (n : Nat) (x : CondSt) : (s.setCond n x).fresh = s.fresh := rfl
@[simp] theorem State.setCond_out (s : State) (n : Nat) (x : CondSt) : (s.setCond n x).out = s.out := rfl
@[simp] theorem State.setCond_now (s : State) (n : Nat) (x : CondSt) : (s.setCond n x).now = s.now := rfl
@[simp] theorem State.setCond_moduleId (s : State) (n : Nat) (x : CondSt) : (s.setCond n x).moduleId = s.moduleId := rfl
@[simp] theorem State.setCond_mode (s : State) (n : Nat) (x : CondSt) : (s.setCond n x).mode = s.mode := rfl
@[simp] theorem State.setCond_modeSince (s : State) (n : Nat) (x : CondSt) : (s.setCond n x).modeSince = s.modeSince := rfl
@[simp] theorem State.setCond_ro (s : State) (n : Nat) (x : CondSt) : (s.setCond n x).ro = s.ro := rfl
@[simp] theorem State.setCond_cfg (s : State) (n : Nat) (x : CondSt) : (s.setCond n x).cfg = s.cfg := rfl
@[simp] theorem State.setCond_fw (s : State) (n : Nat) (x : CondSt) : (s.setCond n x).fw = s.fw := rfl
@[simp] theorem State.setCond_sess (s : State) (n : Nat) (x : CondSt) : (s.setCond n x).sess = s.sess := rfl
@[simp] theorem State.setCond_spi (s : State) (n : Nat) (x : CondSt) : (s.setCond n x).spi = s.spi := rfl
@[simp] theorem State.setCond_dup (s : State) (n : Nat) (x : CondSt) : (s.setCond n x).dup = s.dup := rfl
@[simp] theorem State.setCond_requests (s : State) (n : Nat) (x : CondSt) : (s.setCond n x).requests = s.requests := rfl
@[simp] theorem State.setCond_jobs (s : State) (n : Nat) (x : CondSt) : (s.setCond n x).jobs = s.jobs := rfl
@[simp] theorem State.setCond_nextJob (s : State) (n : Nat) (x : CondSt) : (s.setCond n x).nextJob = s.nextJob := rfl
@[simp] theorem State.setCond_events (s : State) (n : Nat) (x : CondSt) : (s.setCond n x).events = s.events := rfl
@[simp] theorem State.setCond_time (s : State) (n : Nat) (x : CondSt) : (s.setCond n x).time = s.time := rfl
@[simp] theorem State.setCond_health (s : State) (n : Nat) (x : CondSt) : (s.setCond n x).health = s.health := rfl
@[simp] theorem State.setCond_opt (s : State) (n : Nat) (x : CondSt) : (s.setCond n x).opt = s.opt := rfl
@[simp] theorem State.setCond_sig (s : State) (n : Nat) (x : CondSt) : (s.setCond n x).sig = s.sig := rfl
@[simp] theorem State.setCond_drive (s : State) (n : Nat) (x : CondSt) : (s.setCond n x).drive = s.drive := rfl
@[simp] theorem State.setCond_raman (s : State) (n : Nat) (x : CondSt) : (s.setCond n x).raman = s.raman := rfl
@[simp] theorem State.setCond_front (s : State) (n : Nat) (x : CondSt) : (s.setCond n x).front = s.front := rfl
@[simp] theorem State.setCond_basalt (s : State) (n : Nat) (x : CondSt) : (s.setCond n x).basalt = s.basalt := rfl
@[simp] theorem State.setCond_mem (s : State) (n : Nat) (x : CondSt) : (s.setCond n x).mem = s.mem := rfl
@[simp] theorem State.setCond_power (s : State) (n : Nat) (x : CondSt) : (s.setCond n x).power = s.power := rfl
@[simp] theorem State.setCond_ens (s : State) (n : Nat) (x : CondSt) : (s.setCond n x).ens = s.ens := rfl

/-! ### setChan -/

@[simp] theorem State.setChan_pending (s : State) (n : Nat) (x : Channel) : (s.setChan n x).pending = s.pending := rfl
@[simp] theorem State.setChan_fresh (s : State) (n : Nat) (x : Channel) : (s.setChan n x).fresh = s.fresh := rfl
@[simp] theorem State.setChan_out (s : State) (n : Nat) (x : Channel) : (s.setChan n x).out = s.out := rfl
@[simp] theorem State.setChan_now (s : State) (n : Nat) (x : Channel) : (s.setChan n x).now = s.now := rfl
@[simp] theorem State.setChan_moduleId (s : State) (n : Nat) (x : Channel) : (s.setChan n x).moduleId = s.moduleId := rfl
@[simp] theorem State.setChan_mode (s : State) (n : Nat) (x : Channel) : (s.setChan n x).mode = s.mode := rfl
@[simp] theorem State.setChan_modeSince (s : State) (n : Nat) (x : Channel) : (s.setChan n x).modeSince = s.modeSince := rfl
@[simp] theorem State.setChan_ro (s : State) (n : Nat) (x : Channel) : (s.setChan n x).ro = s.ro := rfl
@[simp] theorem State.setChan_cfg (s : State) (n : Nat) (x : Channel) : (s.setChan n x).cfg = s.cfg := rfl
@[simp] theorem State.setChan_fw (s : State) (n : Nat) (x : Channel) : (s.setChan n x).fw = s.fw := rfl
@[simp] theorem State.setChan_sess (s : State) (n : Nat) (x : Channel) : (s.setChan n x).sess = s.sess := rfl
@[simp] theorem State.setChan_spi (s : State) (n : Nat) (x : Channel) : (s.setChan n x).spi = s.spi := rfl
@[simp] theorem State.setChan_dup (s : State) (n : Nat) (x : Channel) : (s.setChan n x).dup = s.dup := rfl
@[simp] theorem State.setChan_requests (s : State) (n : Nat) (x : Channel) : (s.setChan n x).requests = s.requests := rfl
@[simp] theorem State.setChan_jobs (s : State) (n : Nat) (x : Channel) : (s.setChan n x).jobs = s.jobs := rfl
@[simp] theorem State.setChan_nextJob (s : State) (n : Nat) (x : Channel) : (s.setChan n x).nextJob = s.nextJob := rfl
@[simp] theorem State.setChan_events (s : State) (n : Nat) (x : Channel) : (s.setChan n x).events = s.events := rfl
@[simp] theorem State.setChan_time (s : State) (n : Nat) (x : Channel) : (s.setChan n x).time = s.time := rfl
@[simp] theorem State.setChan_health (s : State) (n : Nat) (x : Channel) : (s.setChan n x).health = s.health := rfl
@[simp] theorem State.setChan_opt (s : State) (n : Nat) (x : Channel) : (s.setChan n x).opt = s.opt := rfl
@[simp] theorem State.setChan_sig (s : State) (n : Nat) (x : Channel) : (s.setChan n x).sig = s.sig := rfl
@[simp] theorem State.setChan_raman (s : State) (n : Nat) (x : Channel) : (s.setChan n x).raman = s.raman := rfl
@[simp] theorem State.setChan_front (s : State) (n : Nat) (x : Channel) : (s.setChan n x).front = s.front := rfl
@[simp] theorem State.setChan_basalt (s : State) (n : Nat) (x : Channel) : (s.setChan n x).basalt = s.basalt := rfl
@[simp] theorem State.setChan_trig (s : State) (n : Nat) (x : Channel) : (s.setChan n x).trig = s.trig := rfl
@[simp] theorem State.setChan_mem (s : State) (n : Nat) (x : Channel) : (s.setChan n x).mem = s.mem := rfl
@[simp] theorem State.setChan_power (s : State) (n : Nat) (x : Channel) : (s.setChan n x).power = s.power := rfl
@[simp] theorem State.setChan_ens (s : State) (n : Nat) (x : Channel) : (s.setChan n x).ens = s.ens := rfl

/-! ### setStream -/

@[simp] theorem State.setStream_pending (s : State) (n : Nat) (x : StreamSt) : (s.setStream n x).pending = s.pending := rfl
@[simp] theorem State.setStream_fresh (s : State) (n : Nat) (x : StreamSt) : (s.setStream n x).fresh = s.fresh := rfl
@[simp] theorem State.setStream_out (s : State) (n : Nat) (x : StreamSt) : (s.setStream n x).out = s.out := rfl
@[simp] theorem State.setStream_now (s : State) (n : Nat) (x : StreamSt) : (s.setStream n x).now = s.now := rfl
@[simp] theorem State.setStream_moduleId (s : State) (n : Nat) (x : StreamSt) : (s.setStream n x).moduleId = s.moduleId := rfl
@[simp] theorem State.setStream_mode (s : State) (n : Nat) (x : StreamSt) : (s.setStream n x).mode = s.mode := rfl
@[simp] theorem State.setStream_modeSince (s : State) (n : Nat) (x : StreamSt) : (s.setStream n x).modeSince = s.modeSince := rfl
@[simp] theorem State.setStream_ro (s : State) (n : Nat) (x : StreamSt) : (s.setStream n x).ro = s.ro := rfl
@[simp] theorem State.setStream_cfg (s : State) (n : Nat) (x : StreamSt) : (s.setStream n x).cfg = s.cfg := rfl
@[simp] theorem State.setStream_fw (s : State) (n : Nat) (x : StreamSt) : (s.setStream n x).fw = s.fw := rfl
@[simp] theorem State.setStream_sess (s : State) (n : Nat) (x : StreamSt) : (s.setStream n x).sess = s.sess := rfl
@[simp] theorem State.setStream_spi (s : State) (n : Nat) (x : StreamSt) : (s.setStream n x).spi = s.spi := rfl
@[simp] theorem State.setStream_dup (s : State) (n : Nat) (x : StreamSt) : (s.setStream n x).dup = s.dup := rfl
@[simp] theorem State.setStream_requests (s : State) (n : Nat) (x : StreamSt) : (s.setStream n x).requests = s.requests := rfl
@[simp] theorem State.setStream_jobs (s : State) (n : Nat) (x : StreamSt) : (s.setStream n x).jobs = s.jobs := rfl
@[simp] theorem State.setStream_nextJob (s : State) (n : Nat) (x : StreamSt) : (s.setStream n x).nextJob = s.nextJob := rfl
@[simp] theorem State.setStream_events (s : State) (n : Nat) (x : StreamSt) : (s.setStream n x).events = s.events := rfl
@[simp] theorem State.setStream_time (s : State) (n : Nat) (x : StreamSt) : (s.setStream n x).time = s.time := rfl
@[simp] theorem State.setStream_health (s : State) (n : Nat) (x : StreamSt) : (s.setStream n x).health = s.health := rfl
@[simp] theorem State.setStream_opt (s : State) (n : Nat) (x : StreamSt) : (s.setStream n x).opt = s.opt := rfl
@[simp] theorem State.setStream_drive (s : State) (n : Nat) (x : StreamSt) : (s.setStream n x).drive = s.drive := rfl
@[simp] theorem State.setStream_raman (s : State) (n : Nat) (x : StreamSt) : (s.setStream n x).raman = s.raman := rfl
@[simp] theorem State.setStream_front (s : State) (n : Nat) (x : StreamSt) : (s.setStream n x).front = s.front := rfl
@[simp] theorem State.setStream_basalt (s : State) (n : Nat) (x : StreamSt) : (s.setStream n x).basalt = s.basalt := rfl
@[simp] theorem State.setStream_trig (s : State) (n : Nat) (x : StreamSt) : (s.setStream n x).trig = s.trig := rfl
@[simp] theorem State.setStream_mem (s : State) (n : Nat) (x : StreamSt) : (s.setStream n x).mem = s.mem := rfl
@[simp] theorem State.setStream_power (s : State) (n : Nat) (x : StreamSt) : (s.setStream n x).power = s.power := rfl
@[simp] theorem State.setStream_ens (s : State) (n : Nat) (x : StreamSt) : (s.setStream n x).ens = s.ens := rfl

/-! ### setPortSt -/

@[simp] theorem State.setPortSt_pending (s : State) (p : Port) (x : PortSt) : (s.setPortSt p x).pending = s.pending := by cases p <;> rfl
@[simp] theorem State.setPortSt_fresh (s : State) (p : Port) (x : PortSt) : (s.setPortSt p x).fresh = s.fresh := by cases p <;> rfl
@[simp] theorem State.setPortSt_out (s : State) (p : Port) (x : PortSt) : (s.setPortSt p x).out = s.out := by cases p <;> rfl
@[simp] theorem State.setPortSt_now (s : State) (p : Port) (x : PortSt) : (s.setPortSt p x).now = s.now := by cases p <;> rfl
@[simp] theorem State.setPortSt_moduleId (s : State) (p : Port) (x : PortSt) : (s.setPortSt p x).moduleId = s.moduleId := by cases p <;> rfl
@[simp] theorem State.setPortSt_mode (s : State) (p : Port) (x : PortSt) : (s.setPortSt p x).mode = s.mode := by cases p <;> rfl
@[simp] theorem State.setPortSt_modeSince (s : State) (p : Port) (x : PortSt) : (s.setPortSt p x).modeSince = s.modeSince := by cases p <;> rfl
@[simp] theorem State.setPortSt_ro (s : State) (p : Port) (x : PortSt) : (s.setPortSt p x).ro = s.ro := by cases p <;> rfl
@[simp] theorem State.setPortSt_cfg (s : State) (p : Port) (x : PortSt) : (s.setPortSt p x).cfg = s.cfg := by cases p <;> rfl
@[simp] theorem State.setPortSt_fw (s : State) (p : Port) (x : PortSt) : (s.setPortSt p x).fw = s.fw := by cases p <;> rfl
@[simp] theorem State.setPortSt_sess (s : State) (p : Port) (x : PortSt) : (s.setPortSt p x).sess = s.sess := by cases p <;> rfl
@[simp] theorem State.setPortSt_spi (s : State) (p : Port) (x : PortSt) : (s.setPortSt p x).spi = s.spi := by cases p <;> rfl
@[simp] theorem State.setPortSt_dup (s : State) (p : Port) (x : PortSt) : (s.setPortSt p x).dup = s.dup := by cases p <;> rfl
@[simp] theorem State.setPortSt_requests (s : State) (p : Port) (x : PortSt) : (s.setPortSt p x).requests = s.requests := by cases p <;> rfl
@[simp] theorem State.setPortSt_jobs (s : State) (p : Port) (x : PortSt) : (s.setPortSt p x).jobs = s.jobs := by cases p <;> rfl
@[simp] theorem State.setPortSt_nextJob (s : State) (p : Port) (x : PortSt) : (s.setPortSt p x).nextJob = s.nextJob := by cases p <;> rfl
@[simp] theorem State.setPortSt_events (s : State) (p : Port) (x : PortSt) : (s.setPortSt p x).events = s.events := by cases p <;> rfl
@[simp] theorem State.setPortSt_time (s : State) (p : Port) (x : PortSt) : (s.setPortSt p x).time = s.time := by cases p <;> rfl
@[simp] theorem State.setPortSt_health (s : State) (p : Port) (x : PortSt) : (s.setPortSt p x).health = s.health := by cases p <;> rfl
@[simp] theorem State.setPortSt_sig (s : State) (p : Port) (x : PortSt) : (s.setPortSt p x).sig = s.sig := by cases p <;> rfl
@[simp] theorem State.setPortSt_drive (s : State) (p : Port) (x : PortSt) : (s.setPortSt p x).drive = s.drive := by cases p <;> rfl
@[simp] theorem State.setPortSt_raman (s : State) (p : Port) (x : PortSt) : (s.setPortSt p x).raman = s.raman := by cases p <;> rfl
@[simp] theorem State.setPortSt_front (s : State) (p : Port) (x : PortSt) : (s.setPortSt p x).front = s.front := by cases p <;> rfl
@[simp] theorem State.setPortSt_basalt (s : State) (p : Port) (x : PortSt) : (s.setPortSt p x).basalt = s.basalt := by cases p <;> rfl
@[simp] theorem State.setPortSt_trig (s : State) (p : Port) (x : PortSt) : (s.setPortSt p x).trig = s.trig := by cases p <;> rfl
@[simp] theorem State.setPortSt_mem (s : State) (p : Port) (x : PortSt) : (s.setPortSt p x).mem = s.mem := by cases p <;> rfl
@[simp] theorem State.setPortSt_power (s : State) (p : Port) (x : PortSt) : (s.setPortSt p x).power = s.power := by cases p <;> rfl
@[simp] theorem State.setPortSt_ens (s : State) (p : Port) (x : PortSt) : (s.setPortSt p x).ens = s.ens := by cases p <;> rfl

/-! ### setFrame -/

@[simp] theorem State.setFrame_pending (s : State) (p : Port) (x : FrameSt) : (s.setFrame p x).pending = s.pending := by cases p <;> rfl
@[simp] theorem State.setFrame_fresh (s : State) (p : Port) (x : FrameSt) : (s.setFrame p x).fresh = s.fresh := by cases p <;> rfl
@[simp] theorem State.setFrame_out (s : State) (p : Port) (x : FrameSt) : (s.setFrame p x).out = s.out := by cases p <;> rfl
@[simp] theorem State.setFrame_now (s : State) (p : Port) (x : FrameSt) : (s.setFrame p x).now = s.now := by cases p <;> rfl
@[simp] theorem State.setFrame_moduleId (s : State) (p : Port) (x : FrameSt) : (s.setFrame p x).moduleId = s.moduleId := by cases p <;> rfl
@[simp] theorem State.setFrame_mode (s : State) (p : Port) (x : FrameSt) : (s.setFrame p x).mode = s.mode := by cases p <;> rfl
@[simp] theorem State.setFrame_modeSince (s : State) (p : Port) (x : FrameSt) : (s.setFrame p x).modeSince = s.modeSince := by cases p <;> rfl
@[simp] theorem State.setFrame_ro (s : State) (p : Port) (x : FrameSt) : (s.setFrame p x).ro = s.ro := by cases p <;> rfl
@[simp] theorem State.setFrame_cfg (s : State) (p : Port) (x : FrameSt) : (s.setFrame p x).cfg = s.cfg := by cases p <;> rfl
@[simp] theorem State.setFrame_fw (s : State) (p : Port) (x : FrameSt) : (s.setFrame p x).fw = s.fw := by cases p <;> rfl
@[simp] theorem State.setFrame_sess (s : State) (p : Port) (x : FrameSt) : (s.setFrame p x).sess = s.sess := by cases p <;> rfl
@[simp] theorem State.setFrame_spi (s : State) (p : Port) (x : FrameSt) : (s.setFrame p x).spi = s.spi := by cases p <;> rfl
@[simp] theorem State.setFrame_dup (s : State) (p : Port) (x : FrameSt) : (s.setFrame p x).dup = s.dup := by cases p <;> rfl
@[simp] theorem State.setFrame_requests (s : State) (p : Port) (x : FrameSt) : (s.setFrame p x).requests = s.requests := by cases p <;> rfl
@[simp] theorem State.setFrame_jobs (s : State) (p : Port) (x : FrameSt) : (s.setFrame p x).jobs = s.jobs := by cases p <;> rfl
@[simp] theorem State.setFrame_nextJob (s : State) (p : Port) (x : FrameSt) : (s.setFrame p x).nextJob = s.nextJob := by cases p <;> rfl
@[simp] theorem State.setFrame_events (s : State) (p : Port) (x : FrameSt) : (s.setFrame p x).events = s.events := by cases p <;> rfl
@[simp] theorem State.setFrame_time (s : State) (p : Port) (x : FrameSt) : (s.setFrame p x).time = s.time := by cases p <;> rfl
@[simp] theorem State.setFrame_health (s : State) (p : Port) (x : FrameSt) : (s.setFrame p x).health = s.health := by cases p <;> rfl
@[simp] theorem State.setFrame_sig (s : State) (p : Port) (x : FrameSt) : (s.setFrame p x).sig = s.sig := by cases p <;> rfl
@[simp] theorem State.setFrame_drive (s : State) (p : Port) (x : FrameSt) : (s.setFrame p x).drive = s.drive := by cases p <;> rfl
@[simp] theorem State.setFrame_raman (s : State) (p : Port) (x : FrameSt) : (s.setFrame p x).raman = s.raman := by cases p <;> rfl
@[simp] theorem State.setFrame_front (s : State) (p : Port) (x : FrameSt) : (s.setFrame p x).front = s.front := by cases p <;> rfl
@[simp] theorem State.setFrame_basalt (s : State) (p : Port) (x : FrameSt) : (s.setFrame p x).basalt = s.basalt := by cases p <;> rfl
@[simp] theorem State.setFrame_trig (s : State) (p : Port) (x : FrameSt) : (s.setFrame p x).trig = s.trig := by cases p <;> rfl
@[simp] theorem State.setFrame_mem (s : State) (p : Port) (x : FrameSt) : (s.setFrame p x).mem = s.mem := by cases p <;> rfl
@[simp] theorem State.setFrame_power (s : State) (p : Port) (x : FrameSt) : (s.setFrame p x).power = s.power := by cases p <;> rfl
@[simp] theorem State.setFrame_ens (s : State) (p : Port) (x : FrameSt) : (s.setFrame p x).ens = s.ens := by cases p <;> rfl

/-! ### setSeed -/

@[simp] theorem State.setSeed_pending (s : State) (p : Seed) (x : SeedSt) : (s.setSeed p x).pending = s.pending := by cases p <;> rfl
@[simp] theorem State.setSeed_fresh (s : State) (p : Seed) (x : SeedSt) : (s.setSeed p x).fresh = s.fresh := by cases p <;> rfl
@[simp] theorem State.setSeed_out (s : State) (p : Seed) (x : SeedSt) : (s.setSeed p x).out = s.out := by cases p <;> rfl
@[simp] theorem State.setSeed_now (s : State) (p : Seed) (x : SeedSt) : (s.setSeed p x).now = s.now := by cases p <;> rfl
@[simp] theorem State.setSeed_moduleId (s : State) (p : Seed) (x : SeedSt) : (s.setSeed p x).moduleId = s.moduleId := by cases p <;> rfl
@[simp] theorem State.setSeed_mode (s : State) (p : Seed) (x : SeedSt) : (s.setSeed p x).mode = s.mode := by cases p <;> rfl
@[simp] theorem State.setSeed_modeSince (s : State) (p : Seed) (x : SeedSt) : (s.setSeed p x).modeSince = s.modeSince := by cases p <;> rfl
@[simp] theorem State.setSeed_ro (s : State) (p : Seed) (x : SeedSt) : (s.setSeed p x).ro = s.ro := by cases p <;> rfl
@[simp] theorem State.setSeed_cfg (s : State) (p : Seed) (x : SeedSt) : (s.setSeed p x).cfg = s.cfg := by cases p <;> rfl
@[simp] theorem State.setSeed_fw (s : State) (p : Seed) (x : SeedSt) : (s.setSeed p x).fw = s.fw := by cases p <;> rfl
@[simp] theorem State.setSeed_sess (s : State) (p : Seed) (x : SeedSt) : (s.setSeed p x).sess = s.sess := by cases p <;> rfl
@[simp] theorem State.setSeed_spi (s : State) (p : Seed) (x : SeedSt) : (s.setSeed p x).spi = s.spi := by cases p <;> rfl
@[simp] theorem State.setSeed_dup (s : State) (p : Seed) (x : SeedSt) : (s.setSeed p x).dup = s.dup := by cases p <;> rfl
@[simp] theorem State.setSeed_requests (s : State) (p : Seed) (x : SeedSt) : (s.setSeed p x).requests = s.requests := by cases p <;> rfl
@[simp] theorem State.setSeed_jobs (s : State) (p : Seed) (x : SeedSt) : (s.setSeed p x).jobs = s.jobs := by cases p <;> rfl
@[simp] theorem State.setSeed_nextJob (s : State) (p : Seed) (x : SeedSt) : (s.setSeed p x).nextJob = s.nextJob := by cases p <;> rfl
@[simp] theorem State.setSeed_events (s : State) (p : Seed) (x : SeedSt) : (s.setSeed p x).events = s.events := by cases p <;> rfl
@[simp] theorem State.setSeed_time (s : State) (p : Seed) (x : SeedSt) : (s.setSeed p x).time = s.time := by cases p <;> rfl
@[simp] theorem State.setSeed_health (s : State) (p : Seed) (x : SeedSt) : (s.setSeed p x).health = s.health := by cases p <;> rfl
@[simp] theorem State.setSeed_sig (s : State) (p : Seed) (x : SeedSt) : (s.setSeed p x).sig = s.sig := by cases p <;> rfl
@[simp] theorem State.setSeed_drive (s : State) (p : Seed) (x : SeedSt) : (s.setSeed p x).drive = s.drive := by cases p <;> rfl
@[simp] theorem State.setSeed_raman (s : State) (p : Seed) (x : SeedSt) : (s.setSeed p x).raman = s.raman := by cases p <;> rfl
@[simp] theorem State.setSeed_front (s : State) (p : Seed) (x : SeedSt) : (s.setSeed p x).front = s.front := by cases p <;> rfl
@[simp] theorem State.setSeed_basalt (s : State) (p : Seed) (x : SeedSt) : (s.setSeed p x).basalt = s.basalt := by cases p <;> rfl
@[simp] theorem State.setSeed_trig (s : State) (p : Seed) (x : SeedSt) : (s.setSeed p x).trig = s.trig := by cases p <;> rfl
@[simp] theorem State.setSeed_mem (s : State) (p : Seed) (x : SeedSt) : (s.setSeed p x).mem = s.mem := by cases p <;> rfl
@[simp] theorem State.setSeed_power (s : State) (p : Seed) (x : SeedSt) : (s.setSeed p x).power = s.power := by cases p <;> rfl
@[simp] theorem State.setSeed_ens (s : State) (p : Seed) (x : SeedSt) : (s.setSeed p x).ens = s.ens := by cases p <;> rfl

/-! ### setDts -/

@[simp] theorem State.setDts_pending (s : State) (p : Port) (x : DtsPort) : (s.setDts p x).pending = s.pending := by cases p <;> rfl
@[simp] theorem State.setDts_fresh (s : State) (p : Port) (x : DtsPort) : (s.setDts p x).fresh = s.fresh := by cases p <;> rfl
@[simp] theorem State.setDts_out (s : State) (p : Port) (x : DtsPort) : (s.setDts p x).out = s.out := by cases p <;> rfl
@[simp] theorem State.setDts_now (s : State) (p : Port) (x : DtsPort) : (s.setDts p x).now = s.now := by cases p <;> rfl
@[simp] theorem State.setDts_moduleId (s : State) (p : Port) (x : DtsPort) : (s.setDts p x).moduleId = s.moduleId := by cases p <;> rfl
@[simp] theorem State.setDts_mode (s : State) (p : Port) (x : DtsPort) : (s.setDts p x).mode = s.mode := by cases p <;> rfl
@[simp] theorem State.setDts_modeSince (s : State) (p : Port) (x : DtsPort) : (s.setDts p x).modeSince = s.modeSince := by cases p <;> rfl
@[simp] theorem State.setDts_ro (s : State) (p : Port) (x : DtsPort) : (s.setDts p x).ro = s.ro := by cases p <;> rfl
@[simp] theorem State.setDts_cfg (s : State) (p : Port) (x : DtsPort) : (s.setDts p x).cfg = s.cfg := by cases p <;> rfl
@[simp] theorem State.setDts_fw (s : State) (p : Port) (x : DtsPort) : (s.setDts p x).fw = s.fw := by cases p <;> rfl
@[simp] theorem State.setDts_sess (s : State) (p : Port) (x : DtsPort) : (s.setDts p x).sess = s.sess := by cases p <;> rfl
@[simp] theorem State.setDts_spi (s : State) (p : Port) (x : DtsPort) : (s.setDts p x).spi = s.spi := by cases p <;> rfl
@[simp] theorem State.setDts_dup (s : State) (p : Port) (x : DtsPort) : (s.setDts p x).dup = s.dup := by cases p <;> rfl
@[simp] theorem State.setDts_requests (s : State) (p : Port) (x : DtsPort) : (s.setDts p x).requests = s.requests := by cases p <;> rfl
@[simp] theorem State.setDts_jobs (s : State) (p : Port) (x : DtsPort) : (s.setDts p x).jobs = s.jobs := by cases p <;> rfl
@[simp] theorem State.setDts_nextJob (s : State) (p : Port) (x : DtsPort) : (s.setDts p x).nextJob = s.nextJob := by cases p <;> rfl
@[simp] theorem State.setDts_events (s : State) (p : Port) (x : DtsPort) : (s.setDts p x).events = s.events := by cases p <;> rfl
@[simp] theorem State.setDts_time (s : State) (p : Port) (x : DtsPort) : (s.setDts p x).time = s.time := by cases p <;> rfl
@[simp] theorem State.setDts_health (s : State) (p : Port) (x : DtsPort) : (s.setDts p x).health = s.health := by cases p <;> rfl
@[simp] theorem State.setDts_opt (s : State) (p : Port) (x : DtsPort) : (s.setDts p x).opt = s.opt := by cases p <;> rfl
@[simp] theorem State.setDts_sig (s : State) (p : Port) (x : DtsPort) : (s.setDts p x).sig = s.sig := by cases p <;> rfl
@[simp] theorem State.setDts_drive (s : State) (p : Port) (x : DtsPort) : (s.setDts p x).drive = s.drive := by cases p <;> rfl
@[simp] theorem State.setDts_front (s : State) (p : Port) (x : DtsPort) : (s.setDts p x).front = s.front := by cases p <;> rfl
@[simp] theorem State.setDts_basalt (s : State) (p : Port) (x : DtsPort) : (s.setDts p x).basalt = s.basalt := by cases p <;> rfl
@[simp] theorem State.setDts_trig (s : State) (p : Port) (x : DtsPort) : (s.setDts p x).trig = s.trig := by cases p <;> rfl
@[simp] theorem State.setDts_mem (s : State) (p : Port) (x : DtsPort) : (s.setDts p x).mem = s.mem := by cases p <;> rfl
@[simp] theorem State.setDts_power (s : State) (p : Port) (x : DtsPort) : (s.setDts p x).power = s.power := by cases p <;> rfl
@[simp] theorem State.setDts_ens (s : State) (p : Port) (x : DtsPort) : (s.setDts p x).ens = s.ens := by cases p <;> rfl

/-! ### setCoh -/

@[simp] theorem State.setCoh_pending (s : State) (p : Port) (x : CohPort) : (s.setCoh p x).pending = s.pending := by cases p <;> rfl
@[simp] theorem State.setCoh_fresh (s : State) (p : Port) (x : CohPort) : (s.setCoh p x).fresh = s.fresh := by cases p <;> rfl
@[simp] theorem State.setCoh_out (s : State) (p : Port) (x : CohPort) : (s.setCoh p x).out = s.out := by cases p <;> rfl
@[simp] theorem State.setCoh_now (s : State) (p : Port) (x : CohPort) : (s.setCoh p x).now = s.now := by cases p <;> rfl
@[simp] theorem State.setCoh_moduleId (s : State) (p : Port) (x : CohPort) : (s.setCoh p x).moduleId = s.moduleId := by cases p <;> rfl
@[simp] theorem State.setCoh_mode (s : State) (p : Port) (x : CohPort) : (s.setCoh p x).mode = s.mode := by cases p <;> rfl
@[simp] theorem State.setCoh_modeSince (s : State) (p : Port) (x : CohPort) : (s.setCoh p x).modeSince = s.modeSince := by cases p <;> rfl
@[simp] theorem State.setCoh_ro (s : State) (p : Port) (x : CohPort) : (s.setCoh p x).ro = s.ro := by cases p <;> rfl
@[simp] theorem State.setCoh_cfg (s : State) (p : Port) (x : CohPort) : (s.setCoh p x).cfg = s.cfg := by cases p <;> rfl
@[simp] theorem State.setCoh_fw (s : State) (p : Port) (x : CohPort) : (s.setCoh p x).fw = s.fw := by cases p <;> rfl
@[simp] theorem State.setCoh_sess (s : State) (p : Port) (x : CohPort) : (s.setCoh p x).sess = s.sess := by cases p <;> rfl
@[simp] theorem State.setCoh_spi (s : State) (p : Port) (x : CohPort) : (s.setCoh p x).spi = s.spi := by cases p <;> rfl
@[simp] theorem State.setCoh_dup (s : State) (p : Port) (x : CohPort) : (s.setCoh p x).dup = s.dup := by cases p <;> rfl
@[simp] theorem State.setCoh_requests (s : State) (p : Port) (x : CohPort) : (s.setCoh p x).requests = s.requests := by cases p <;> rfl
@[simp] theorem State.setCoh_jobs (s : State) (p : Port) (x : CohPort) : (s.setCoh p x).jobs = s.jobs := by cases p <;> rfl
@[simp] theorem State.setCoh_nextJob (s : State) (p : Port) (x : CohPort) : (s.setCoh p x).nextJob = s.nextJob := by cases p <;> rfl
@[simp] theorem State.setCoh_events (s : State) (p : Port) (x : CohPort) : (s.setCoh p x).events = s.events := by cases p <;> rfl
@[simp] theorem State.setCoh_time (s : State) (p : Port) (x : CohPort) : (s.setCoh p x).time = s.time := by cases p <;> rfl
@[simp] theorem State.setCoh_health (s : State) (p : Port) (x : CohPort) : (s.setCoh p x).health = s.health := by cases p <;> rfl
@[simp] theorem State.setCoh_opt (s : State) (p : Port) (x : CohPort) : (s.setCoh p x).opt = s.opt := by cases p <;> rfl
@[simp] theorem State.setCoh_drive (s : State) (p : Port) (x : CohPort) : (s.setCoh p x).drive = s.drive := by cases p <;> rfl
@[simp] theorem State.setCoh_raman (s : State) (p : Port) (x : CohPort) : (s.setCoh p x).raman = s.raman := by cases p <;> rfl
@[simp] theorem State.setCoh_front (s : State) (p : Port) (x : CohPort) : (s.setCoh p x).front = s.front := by cases p <;> rfl
@[simp] theorem State.setCoh_basalt (s : State) (p : Port) (x : CohPort) : (s.setCoh p x).basalt = s.basalt := by cases p <;> rfl
@[simp] theorem State.setCoh_trig (s : State) (p : Port) (x : CohPort) : (s.setCoh p x).trig = s.trig := by cases p <;> rfl
@[simp] theorem State.setCoh_mem (s : State) (p : Port) (x : CohPort) : (s.setCoh p x).mem = s.mem := by cases p <;> rfl
@[simp] theorem State.setCoh_power (s : State) (p : Port) (x : CohPort) : (s.setCoh p x).power = s.power := by cases p <;> rfl
@[simp] theorem State.setCoh_ens (s : State) (p : Port) (x : CohPort) : (s.setCoh p x).ens = s.ens := by cases p <;> rfl

/-! ### setLink -/

@[simp] theorem State.setLink_pending (s : State) (p : Port) (x : LinkSt) : (s.setLink p x).pending = s.pending := by cases p <;> rfl
@[simp] theorem State.setLink_fresh (s : State) (p : Port) (x : LinkSt) : (s.setLink p x).fresh = s.fresh := by cases p <;> rfl
@[simp] theorem State.setLink_out (s : State) (p : Port) (x : LinkSt) : (s.setLink p x).out = s.out := by cases p <;> rfl
@[simp] theorem State.setLink_now (s : State) (p : Port) (x : LinkSt) : (s.setLink p x).now = s.now := by cases p <;> rfl
@[simp] theorem State.setLink_moduleId (s : State) (p : Port) (x : LinkSt) : (s.setLink p x).moduleId = s.moduleId := by cases p <;> rfl
@[simp] theorem State.setLink_mode (s : State) (p : Port) (x : LinkSt) : (s.setLink p x).mode = s.mode := by cases p <;> rfl
@[simp] theorem State.setLink_modeSince (s : State) (p : Port) (x : LinkSt) : (s.setLink p x).modeSince = s.modeSince := by cases p <;> rfl
@[simp] theorem State.setLink_ro (s : State) (p : Port) (x : LinkSt) : (s.setLink p x).ro = s.ro := by cases p <;> rfl
@[simp] theorem State.setLink_cfg (s : State) (p : Port) (x : LinkSt) : (s.setLink p x).cfg = s.cfg := by cases p <;> rfl
@[simp] theorem State.setLink_fw (s : State) (p : Port) (x : LinkSt) : (s.setLink p x).fw = s.fw := by cases p <;> rfl
@[simp] theorem State.setLink_sess (s : State) (p : Port) (x : LinkSt) : (s.setLink p x).sess = s.sess := by cases p <;> rfl
@[simp] theorem State.setLink_spi (s : State) (p : Port) (x : LinkSt) : (s.setLink p x).spi = s.spi := by cases p <;> rfl
@[simp] theorem State.setLink_dup (s : State) (p : Port) (x : LinkSt) : (s.setLink p x).dup = s.dup := by cases p <;> rfl
@[simp] theorem State.setLink_requests (s : State) (p : Port) (x : LinkSt) : (s.setLink p x).requests = s.requests := by cases p <;> rfl
@[simp] theorem State.setLink_jobs (s : State) (p : Port) (x : LinkSt) : (s.setLink p x).jobs = s.jobs := by cases p <;> rfl
@[simp] theorem State.setLink_nextJob (s : State) (p : Port) (x : LinkSt) : (s.setLink p x).nextJob = s.nextJob := by cases p <;> rfl
@[simp] theorem State.setLink_events (s : State) (p : Port) (x : LinkSt) : (s.setLink p x).events = s.events := by cases p <;> rfl
@[simp] theorem State.setLink_time (s : State) (p : Port) (x : LinkSt) : (s.setLink p x).time = s.time := by cases p <;> rfl
@[simp] theorem State.setLink_health (s : State) (p : Port) (x : LinkSt) : (s.setLink p x).health = s.health := by cases p <;> rfl
@[simp] theorem State.setLink_opt (s : State) (p : Port) (x : LinkSt) : (s.setLink p x).opt = s.opt := by cases p <;> rfl
@[simp] theorem State.setLink_drive (s : State) (p : Port) (x : LinkSt) : (s.setLink p x).drive = s.drive := by cases p <;> rfl
@[simp] theorem State.setLink_raman (s : State) (p : Port) (x : LinkSt) : (s.setLink p x).raman = s.raman := by cases p <;> rfl
@[simp] theorem State.setLink_front (s : State) (p : Port) (x : LinkSt) : (s.setLink p x).front = s.front := by cases p <;> rfl
@[simp] theorem State.setLink_basalt (s : State) (p : Port) (x : LinkSt) : (s.setLink p x).basalt = s.basalt := by cases p <;> rfl
@[simp] theorem State.setLink_trig (s : State) (p : Port) (x : LinkSt) : (s.setLink p x).trig = s.trig := by cases p <;> rfl
@[simp] theorem State.setLink_mem (s : State) (p : Port) (x : LinkSt) : (s.setLink p x).mem = s.mem := by cases p <;> rfl
@[simp] theorem State.setLink_power (s : State) (p : Port) (x : LinkSt) : (s.setLink p x).power = s.power := by cases p <;> rfl
@[simp] theorem State.setLink_ens (s : State) (p : Port) (x : LinkSt) : (s.setLink p x).ens = s.ens := by cases p <;> rfl

/-! ### setPtp -/

@[simp] theorem State.setPtp_pending (s : State) (p : Port) (x : PtpPort) : (s.setPtp p x).pending = s.pending := by cases p <;> rfl
@[simp] theorem State.setPtp_fresh (s : State) (p : Port) (x : PtpPort) : (s.setPtp p x).fresh = s.fresh := by cases p <;> rfl
@[simp] theorem State.setPtp_out (s : State) (p : Port) (x : PtpPort) : (s.setPtp p x).out = s.out := by cases p <;> rfl
@[simp] theorem State.setPtp_now (s : State) (p : Port) (x : PtpPort) : (s.setPtp p x).now = s.now := by cases p <;> rfl
@[simp] theorem State.setPtp_moduleId (s : State) (p : Port) (x : PtpPort) : (s.setPtp p x).moduleId = s.moduleId := by cases p <;> rfl
@[simp] theorem State.setPtp_mode (s : State) (p : Port) (x : PtpPort) : (s.setPtp p x).mode = s.mode := by cases p <;> rfl
@[simp] theorem State.setPtp_modeSince (s : State) (p : Port) (x : PtpPort) : (s.setPtp p x).modeSince = s.modeSince := by cases p <;> rfl
@[simp] theorem State.setPtp_ro (s : State) (p : Port) (x : PtpPort) : (s.setPtp p x).ro = s.ro := by cases p <;> rfl
@[simp] theorem State.setPtp_cfg (s : State) (p : Port) (x : PtpPort) : (s.setPtp p x).cfg = s.cfg := by cases p <;> rfl
@[simp] theorem State.setPtp_fw (s : State) (p : Port) (x : PtpPort) : (s.setPtp p x).fw = s.fw := by cases p <;> rfl
@[simp] theorem State.setPtp_sess (s : State) (p : Port) (x : PtpPort) : (s.setPtp p x).sess = s.sess := by cases p <;> rfl
@[simp] theorem State.setPtp_spi (s : State) (p : Port) (x : PtpPort) : (s.setPtp p x).spi = s.spi := by cases p <;> rfl
@[simp] theorem State.setPtp_dup (s : State) (p : Port) (x : PtpPort) : (s.setPtp p x).dup = s.dup := by cases p <;> rfl
@[simp] theorem State.setPtp_requests (s : State) (p : Port) (x : PtpPort) : (s.setPtp p x).requests = s.requests := by cases p <;> rfl
@[simp] theorem State.setPtp_jobs (s : State) (p : Port) (x : PtpPort) : (s.setPtp p x).jobs = s.jobs := by cases p <;> rfl
@[simp] theorem State.setPtp_nextJob (s : State) (p : Port) (x : PtpPort) : (s.setPtp p x).nextJob = s.nextJob := by cases p <;> rfl
@[simp] theorem State.setPtp_events (s : State) (p : Port) (x : PtpPort) : (s.setPtp p x).events = s.events := by cases p <;> rfl
@[simp] theorem State.setPtp_health (s : State) (p : Port) (x : PtpPort) : (s.setPtp p x).health = s.health := by cases p <;> rfl
@[simp] theorem State.setPtp_opt (s : State) (p : Port) (x : PtpPort) : (s.setPtp p x).opt = s.opt := by cases p <;> rfl
@[simp] theorem State.setPtp_sig (s : State) (p : Port) (x : PtpPort) : (s.setPtp p x).sig = s.sig := by cases p <;> rfl
@[simp] theorem State.setPtp_drive (s : State) (p : Port) (x : PtpPort) : (s.setPtp p x).drive = s.drive := by cases p <;> rfl
@[simp] theorem State.setPtp_raman (s : State) (p : Port) (x : PtpPort) : (s.setPtp p x).raman = s.raman := by cases p <;> rfl
@[simp] theorem State.setPtp_front (s : State) (p : Port) (x : PtpPort) : (s.setPtp p x).front = s.front := by cases p <;> rfl
@[simp] theorem State.setPtp_basalt (s : State) (p : Port) (x : PtpPort) : (s.setPtp p x).basalt = s.basalt := by cases p <;> rfl
@[simp] theorem State.setPtp_trig (s : State) (p : Port) (x : PtpPort) : (s.setPtp p x).trig = s.trig := by cases p <;> rfl
@[simp] theorem State.setPtp_mem (s : State) (p : Port) (x : PtpPort) : (s.setPtp p x).mem = s.mem := by cases p <;> rfl
@[simp] theorem State.setPtp_power (s : State) (p : Port) (x : PtpPort) : (s.setPtp p x).power = s.power := by cases p <;> rfl
@[simp] theorem State.setPtp_ens (s : State) (p : Port) (x : PtpPort) : (s.setPtp p x).ens = s.ens := by cases p <;> rfl

/-! ### Reading back what a part update wrote -/

@[simp] theorem State.setPortSt_portSt (s : State) (p : Port) (x : PortSt) : (s.setPortSt p x).portSt p = x := by cases p <;> rfl
@[simp] theorem State.setPortSt_portSt_other (s : State) (p : Port) (x : PortSt) : (s.setPortSt p x).portSt (p.other) = s.portSt (p.other) := by cases p <;> rfl
@[simp] theorem State.setFrame_frame (s : State) (p : Port) (x : FrameSt) : (s.setFrame p x).frame p = x := by cases p <;> rfl
@[simp] theorem State.setFrame_frame_other (s : State) (p : Port) (x : FrameSt) : (s.setFrame p x).frame (p.other) = s.frame (p.other) := by cases p <;> rfl
@[simp] theorem State.setSeed_seed (s : State) (p : Seed) (x : SeedSt) : (s.setSeed p x).seed p = x := by cases p <;> rfl
@[simp] theorem State.setSeed_seed_other (s : State) (p : Seed) (x : SeedSt) : (s.setSeed p x).seed (otherSeed p) = s.seed (otherSeed p) := by cases p <;> rfl
@[simp] theorem State.setDts_dts (s : State) (p : Port) (x : DtsPort) : (s.setDts p x).dts p = x := by cases p <;> rfl
@[simp] theorem State.setDts_dts_other (s : State) (p : Port) (x : DtsPort) : (s.setDts p x).dts (p.other) = s.dts (p.other) := by cases p <;> rfl
@[simp] theorem State.setCoh_coh (s : State) (p : Port) (x : CohPort) : (s.setCoh p x).coh p = x := by cases p <;> rfl
@[simp] theorem State.setCoh_coh_other (s : State) (p : Port) (x : CohPort) : (s.setCoh p x).coh (p.other) = s.coh (p.other) := by cases p <;> rfl
@[simp] theorem State.setLink_link (s : State) (p : Port) (x : LinkSt) : (s.setLink p x).link p = x := by cases p <;> rfl
@[simp] theorem State.setLink_link_other (s : State) (p : Port) (x : LinkSt) : (s.setLink p x).link (p.other) = s.link (p.other) := by cases p <;> rfl

/-! ### Reading a read-only parameter after an update that writes none -/

@[simp] theorem State.at_roGet (s : State) (t : Tick) (j : Key) : (s.at t).roGet j = s.roGet j := rfl
@[simp] theorem State.drawn_roGet (s : State) (j : Key) : s.drawn.roGet j = s.roGet j := rfl
@[simp] theorem State.emit_roGet (s : State) (o : Output) (j : Key) : (s.emit o).roGet j = s.roGet j := rfl
@[simp] theorem State.withTime_roGet (s : State) (x : TimeBase) (j : Key) : (s.withTime x).roGet j = s.roGet j := rfl
@[simp] theorem State.withHealth_roGet (s : State) (x : Health) (j : Key) : (s.withHealth x).roGet j = s.roGet j := rfl
@[simp] theorem State.withFront_roGet (s : State) (x : Front) (j : Key) : (s.withFront x).roGet j = s.roGet j := rfl
@[simp] theorem State.withMem_roGet (s : State) (x : MemSt) (j : Key) : (s.withMem x).roGet j = s.roGet j := rfl
@[simp] theorem State.withPower_roGet (s : State) (x : PowerSt) (j : Key) : (s.withPower x).roGet j = s.roGet j := rfl
@[simp] theorem State.withEns_roGet (s : State) (x : Ensemble) (j : Key) : (s.withEns x).roGet j = s.roGet j := rfl
@[simp] theorem State.setPair_roGet (s : State) (n : Nat) (x : Session) (j : Key) : (s.setPair n x).roGet j = s.roGet j := rfl
@[simp] theorem State.setDraft_roGet (s : State) (x : PSet) (j : Key) : (s.setDraft x).roGet j = s.roGet j := rfl
@[simp] theorem State.setCore_roGet (s : State) (n : Nat) (x : BCore) (j : Key) : (s.setCore n x).roGet j = s.roGet j := rfl
@[simp] theorem State.setInst_roGet (s : State) (n : Nat) (x : BInst) (j : Key) : (s.setInst n x).roGet j = s.roGet j := rfl
@[simp] theorem State.setSlot_roGet (s : State) (n : Nat) (x : BSlot) (j : Key) : (s.setSlot n x).roGet j = s.roGet j := rfl
@[simp] theorem State.setStrun_roGet (s : State) (p : Port) (x : StrataRun) (j : Key) : (s.setStrun p x).roGet j = s.roGet j := rfl
@[simp] theorem State.setCond_roGet (s : State) (n : Nat) (x : CondSt) (j : Key) : (s.setCond n x).roGet j = s.roGet j := rfl
@[simp] theorem State.setChan_roGet (s : State) (n : Nat) (x : Channel) (j : Key) : (s.setChan n x).roGet j = s.roGet j := rfl
@[simp] theorem State.setStream_roGet (s : State) (n : Nat) (x : StreamSt) (j : Key) : (s.setStream n x).roGet j = s.roGet j := rfl
@[simp] theorem State.setPortSt_roGet (s : State) (p : Port) (x : PortSt) (j : Key) : (s.setPortSt p x).roGet j = s.roGet j := by cases p <;> rfl
@[simp] theorem State.setFrame_roGet (s : State) (p : Port) (x : FrameSt) (j : Key) : (s.setFrame p x).roGet j = s.roGet j := by cases p <;> rfl
@[simp] theorem State.setSeed_roGet (s : State) (p : Seed) (x : SeedSt) (j : Key) : (s.setSeed p x).roGet j = s.roGet j := by cases p <;> rfl
@[simp] theorem State.setDts_roGet (s : State) (p : Port) (x : DtsPort) (j : Key) : (s.setDts p x).roGet j = s.roGet j := by cases p <;> rfl
@[simp] theorem State.setCoh_roGet (s : State) (p : Port) (x : CohPort) (j : Key) : (s.setCoh p x).roGet j = s.roGet j := by cases p <;> rfl
@[simp] theorem State.setLink_roGet (s : State) (p : Port) (x : LinkSt) (j : Key) : (s.setLink p x).roGet j = s.roGet j := by cases p <;> rfl
@[simp] theorem State.setPtp_roGet (s : State) (p : Port) (x : PtpPort) (j : Key) : (s.setPtp p x).roGet j = s.roGet j := by cases p <;> rfl

end Sys2Proof.Machine
end

