-- ==== Sys2Proof/Laws/Registers.lean ====
section
/-! SUPPORT. Reading a parameter back: a set holds what was stored under a key and leaves every other key's value. -/

namespace Sys2Proof.Machine

theorem findKey_insert_self (k : Key) (v : Nat) (l : List (Key × Nat)) : findKey k (insertKey k v l) = some v := by
  induction l with
  | nil => simp [insertKey, findKey]
  | cons x l ih =>
    obtain ⟨k', v'⟩ := x
    unfold insertKey
    split
    · simp [findKey]
    · split
      · simp [findKey]
      · rename_i h
        rw [findKey, if_neg (Ne.symm h)]
        exact ih

theorem findKey_insert_other {k j : Key} (h : j ≠ k) (v : Nat) (l : List (Key × Nat)) : findKey j (insertKey k v l) = findKey j l := by
  induction l with
  | nil => simp [insertKey, findKey, Ne.symm h]
  | cons x l ih =>
    obtain ⟨k', v'⟩ := x
    unfold insertKey
    split
    · rw [findKey, if_neg (Ne.symm h)]
    · split
      · rename_i e
        subst e
        rw [findKey, if_neg (Ne.symm h), findKey, if_neg (Ne.symm h)]
      · rw [findKey, ih, findKey]

theorem findKey_erase_self (k : Key) (l : List (Key × Nat)) : findKey k (eraseKey k l) = none := by
  induction l with
  | nil => rfl
  | cons x l ih =>
    obtain ⟨k', v'⟩ := x
    unfold eraseKey
    split
    · exact ih
    · rename_i h
      rw [findKey, if_neg h]
      exact ih

theorem findKey_erase_other {k j : Key} (h : j ≠ k) (l : List (Key × Nat)) : findKey j (eraseKey k l) = findKey j l := by
  induction l with
  | nil => rfl
  | cons x l ih =>
    obtain ⟨k', v'⟩ := x
    unfold eraseKey
    split
    · rename_i e
      subst e
      rw [ih, findKey, if_neg (Ne.symm h)]
    · rw [findKey, ih, findKey]

/-- A set gives back the value stored under a key. -/
@[simp] theorem PSet.get_set_self (p : PSet) (k : Key) (v : Nat) : (p.set k v).get k = v := by
  unfold PSet.set PSet.get
  split
  · rename_i h
    rw [findKey_erase_self]
    exact h.symm
  · rw [findKey_insert_self]
    rfl

/-- A set keeps the value of every other key. -/
@[simp] theorem PSet.get_set_other (p : PSet) {k j : Key} (h : j ≠ k) (v : Nat) : (p.set k v).get j = p.get j := by
  unfold PSet.set PSet.get
  split
  · rw [findKey_erase_other h]
  · rw [findKey_insert_other h]

/-- A read-only parameter reads as what was written, cut to its width. -/
@[simp] theorem State.roGet_roSet_self (s : State) (k : Key) (v : Nat) : (s.roSet k v).roGet k = v % 2 ^ (rowAt k.row).width :=
  PSet.get_set_self _ _ _

/-- Writing one read-only parameter leaves every other as it was. -/
@[simp] theorem State.roGet_roSet_other (s : State) {k j : Key} (h : j ≠ k) (v : Nat) : (s.roSet k v).roGet j = s.roGet j :=
  PSet.get_set_other _ h _

end Sys2Proof.Machine
end

