-- ==== Sys2Proof/Laws/Requests.lean ====
section
/-! SUPPORT. What serving a request does, once for every command: an admitted request is executed on the state it came into, and answered by what it gave. -/

namespace Sys2Proof.Machine

/-- An admitted request is executed. -/
theorem State.serveNcp_admits {s : State} {code : Nat} {h : Hdr} {body : List Byte} {run : State → State × Answer} (a : s.admits code h body) :
    s.serveNcp code h body run = (s.comeIn h).execute code h run := by
  obtain ⟨h1, h2, h3, h4, h5, h6, h7, h8, h9⟩ := a
  have hv : ¬ (h.version ≠ 1) := fun e => e h6
  have hk : ¬ (h.kind ≠ 0 ∨ h.bodyLen ≠ body.length) := by rintro (e | e) <;> contradiction
  have hm : ¬ ((s.comeIn h).mode = .boot ∧ recoveryServes code = false) := by
    rintro ⟨e, f⟩
    rw [h9 e] at f
    exact nomatch f
  have hw : ¬ 8 ≤ ((s.comeIn h).pair h.pair).waiting := Nat.not_le.2 h5
  unfold State.serveNcp
  extract_lets s0 s1 run1 fresh c
  have es : s1 = s.comeIn h := rfl
  have hr : run1 = run := by
    funext st
    dsimp only [run1]
    rw [if_neg hv, if_neg hk, es, if_neg hm]
  have hf : fresh = (s.comeIn h).execute code h run := by
    dsimp only [fresh]
    rw [es, if_neg hw, hr]
  have r1 : ¬ s0.reaches h code body = false := by rw [show s0 = s.at h.at_ from rfl, h1]; exact fun e => nomatch e
  have r2 : ¬ s1.checkOk h code body = false := by rw [es, h2]; exact fun e => nomatch e
  rw [if_neg r1, if_neg r2, if_neg h3, hf, es]
  unfold State.newNumber at h4
  revert h4
  cases (s.comeIn h).dupClient h.client with
  | none => exact fun _ => rfl
  | some d =>
    dsimp only
    rintro (⟨w, f⟩ | ⟨w, n⟩)
    · rw [w, f]; rfl
    · rw [w, n]; rfl

/-- A command that executes with OK is answered. -/
theorem State.execute_ok {s t : State} {code : Nat} {h : Hdr} {run : State → State × Answer} {body : List Byte} {more : Bool} (e : run s = (t, .ok body more)) :
    s.execute code h run = t.answered code h body more := by
  unfold State.execute
  rw [e]
  rfl

/-- A command that executes with an error other than E_BUSY is answered with it. -/
theorem State.execute_err {s t : State} {code : Nat} {h : Hdr} {run : State → State × Answer} {result index : Nat} {path path2 : String}
    (e : run s = (t, .err result index path path2)) (hb : result ≠ E.busy) : s.execute code h run = t.failed code h result index path path2 := by
  unfold State.execute
  rw [e]
  dsimp only
  rw [if_neg hb]
  rfl

/-- A command that goes on in the background waits in its session's order. -/
theorem State.execute_later {s t : State} {code : Nat} {h : Hdr} {run : State → State × Answer} {work : JobWork} (e : run s = (t, .later work)) :
    s.execute code h run = t.deferred code h work := by
  unfold State.execute
  rw [e]
  rfl

/-- An admitted request that executes with OK. -/
theorem request_ok {s t : State} {code : Nat} {h : Hdr} {body : List Byte} {run : State → State × Answer} {b : List Byte} {more : Bool} (a : s.admits code h body)
    (e : run (s.comeIn h) = (t, .ok b more)) : request code h body run s = .next (t.answered code h b more) := by
  unfold request
  rw [State.serveNcp_admits a, State.execute_ok e]

/-- An admitted request that executes with an error other than E_BUSY. -/
theorem request_err {s t : State} {code : Nat} {h : Hdr} {body : List Byte} {run : State → State × Answer} {result index : Nat} {path path2 : String}
    (a : s.admits code h body) (e : run (s.comeIn h) = (t, .err result index path path2)) (hb : result ≠ E.busy) :
    request code h body run s = .next (t.failed code h result index path path2) := by
  unfold request
  rw [State.serveNcp_admits a, State.execute_err e hb]

/-- An admitted request whose work goes on in the background. -/
theorem request_later {s t : State} {code : Nat} {h : Hdr} {body : List Byte} {run : State → State × Answer} {work : JobWork} (a : s.admits code h body)
    (e : run (s.comeIn h) = (t, .later work)) : request code h body run s = .next (t.deferred code h work) := by
  unfold request
  rw [State.serveNcp_admits a, State.execute_later e]

theorem State.pump_fresh (s : State) (n : Nat) : (s.pump n).fresh = s.fresh := by
  unfold State.pump
  extract_lets
  split
  · rfl
  · split <;> rfl

theorem State.hold_fresh (s : State) (n : Nat) (x : Held) : (s.hold n x).fresh = s.fresh := by
  unfold State.hold
  extract_lets
  split
  · rw [State.pump_fresh]; rfl
  · rfl

theorem State.comeIn_fresh (s : State) (h : Hdr) : (s.comeIn h).fresh = s.fresh := by
  unfold State.comeIn State.sessionUse
  extract_lets
  split <;> rfl

theorem State.answered_fresh (s : State) (code : Nat) (h : Hdr) (body : List Byte) (more : Bool) : (s.answered code h body more).fresh = s.fresh := by
  unfold State.answered
  rw [State.hold_fresh]
  rfl

/-- An admitted request is executed, as RESET and GEODE_ENTER ask. -/
theorem State.executes_admits {s : State} {code : Nat} {h : Hdr} {body : List Byte} (a : s.admits code h body) : s.executes code h body = true := by
  unfold State.executes
  rw [State.serveNcp_admits a, State.execute_ok (t := (s.comeIn h).drawn) (body := []) (more := false) rfl, State.answered_fresh]
  unfold State.drawn
  rw [State.comeIn_fresh]
  simp

end Sys2Proof.Machine
end

