-- ==== Sys2Proof/WellFormed.lean ====
section
/-! DEFINITION. Well-formed commands: every operand lies in the range its field has in the spec. -/

namespace Sys2Proof

/-- A number fits 8 bits. -/
def u8 (n : Nat) : Bool := decide (n < 256)
/-- A number fits 16 bits. -/
def u16 (n : Nat) : Bool := decide (n < 65536)
/-- A number fits 24 bits. -/
def u24 (n : Nat) : Bool := decide (n < 16777216)
/-- A number fits 32 bits. -/
def u32 (n : Nat) : Bool := decide (n < 4294967296)

/-- A request header: pair 0 is SPI and pairs 1 to 6 are TCP (R309); version and type are bytes, the body length 32 bits (R316). -/
def Hdr.wf (h : Hdr) : Bool :=
  decide (h.pair < 7) && decide (h.version < 256) && decide (h.kind < 128) && decide (h.bodyLen < 4294967296) && decide (h.rsv < 8192) && decide (h.rsvHigh < 256)

/-- CAPTURE_AT may come from a peer too, on pair 7 (R343, R357). -/
def Hdr.wfPeer (h : Hdr) : Bool :=
  decide (h.pair < 8) && decide (h.version < 256) && decide (h.kind < 128) && decide (h.bodyLen < 4294967296) && decide (h.rsv < 8192) && decide (h.rsvHigh < 256)

/-- A Raman code has 14 bits (R143). -/
def u14 (n : Nat) : Bool := decide (n < 16384)

/-- Converter codes have 12 bits, two's complement (R95). -/
def Raw.wf (x : Raw) : Bool := [x.xi, x.xq, x.yi, x.yq].all (fun v => decide (-2048 ≤ v) && decide (v ≤ 2047))

/-- A typed value: byte strings carry a 16-bit length (R318). -/
def Val.wf : Val → Bool
  | .bytes v => decide (v.length < 65536)
  | _ => true

/-- One entry of a CFG_SET: a path has at most 255 bytes (R318). -/
def Entry.wf (e : Entry) : Bool := decide (e.path.length ≤ 255) && e.val.wf

/-- The fields of a CAPTURE_DERIVE fit their widths (R335). -/
def DeriveReq.wf (r : DeriveReq) : Bool :=
  decide (r.capture < 4294967296) && decide (r.port < 256) && decide (r.mode < 256) && decide (r.format < 256) && decide (r.gauge < 256)
  && decide (r.first < 4294967296) && decide (r.count < 4294967296) && decide (r.preset < 256) && decide (r.form < 256)
  && decide (r.factor < 65536) && decide (r.stream < 256)

/-- The fields of a NACK fit their widths (R137). -/
def Nack.wf (n : Nack) : Bool :=
  decide (n.fromUdp < 65536) && decide (n.version < 256) && decide (n.kind < 256) && decide (n.streamId < 256) && decide (n.subscriber < 256)
  && decide (n.rangeCount < 65536) && n.ranges.all (fun r => decide (r.1 < 4294967296) && decide (r.2 < 4294967296))

/-- A pair of drive channels that can short (R302). -/
def pairWf (p : Nat × Nat) : Bool := decide (p.1 < 11) && decide (p.2 < 11)

/-- What the error code finds: one of 9 devices, of 18 lanes each (R262, R264). -/
def EccObs.wf : EccObs → Bool
  | .corrected device lanes => decide (device < 9) && decide (lanes ≤ 18)
  | _ => true

/-- The fields of a heartbeat fit their widths (R343). -/
def Heartbeat.wf (m : Heartbeat) : Bool := u8 m.fwMajor && u8 m.fwMinor && u8 m.state && u32 m.epoch && u32 m.ensEpoch && u8 m.busGroup && u8 m.quality

/-- The fields of a PREPARE fit their widths (R343). -/
def Prepare.wf (m : Prepare) : Bool := u32 m.txn && u32 m.draftRev && u8 m.major

/-- The fields of a VOTE fit their widths (R343). -/
def VoteMsg.wf (m : VoteMsg) : Bool := u32 m.txn && u16 m.result && u32 m.ensEpoch && u8 m.busGroup && u8 m.role && u32 m.period

/-- The fields of an Announce fit their widths (R284). -/
def Announce.wf (a : Announce) : Bool := u8 a.priority1 && u8 a.clockClass && u8 a.accuracy && u16 a.variance && u8 a.priority2 && u16 a.stepsRemoved && u8 a.domain

/-- Every operand of a command lies in its range. -/
def Instr.wf (i : Instr) : Bool :=
  match i with
  | .cfgCommit h _ mode _ => h.wf && u8 mode
  | .commitFTick _ _ => true
  | .hello h protocol => h.wf && u8 protocol
  | .ping h => h.wf
  | .cfgGet h cursor paths => h.wf && u32 cursor && u16 paths.length && paths.all (fun p => Decidable.decide (p.length ≤ 255))
  | .cfgSet h entries => h.wf && u16 entries.length && entries.all Entry.wf
  | .cfgDiscard h => h.wf
  | .cfgDiff h cursor => h.wf && u32 cursor
  | .cfgList h cursor stem => h.wf && u32 cursor && Decidable.decide (stem.length ≤ 255)
  | .cfgSave h => h.wf
  | .cfgErase h => h.wf
  | .timeSet h _ _ => h.wf
  | .tdcRead h input start limit => h.wf && u8 input && u32 start && u16 limit
  | .kernelLoad h slot flags offset imageBytes _ => h.wf && u8 slot && u8 flags && u32 offset && u32 imageBytes
  | .kernelUnload h slot => h.wf && u8 slot
  | .kernelSnapshot h core offset length => h.wf && u8 core && u32 offset && u32 length
  | .captureAt h _ profile => h.wfPeer && u8 profile
  | .captureSend h capture stream => h.wf && u32 capture && u8 stream
  | .captureDerive h req => h.wf && req.wf
  | .captureRelease h capture => h.wf && u32 capture
  | .captureList h cursor => h.wf && u32 cursor
  | .eventSubscribe h _ => h.wf
  | .eventRead h start limit => h.wf && u32 start && u16 limit
  | .fwBegin h imageBytes => h.wf && u32 imageBytes
  | .fwWrite h offset _ => h.wf && u32 offset
  | .fwFinish h => h.wf
  | .fwActivate h image => h.wf && u8 image
  | .fwConfirm h => h.wf
  | .reset h => h.wf
  | .stateGet h => h.wf
  | .run h => h.wf
  | .stop h => h.wf
  | .geodeEnter h deep mask _ => h.wf && u8 deep && u8 mask
  | .wake h => h.wf
  | .bedrockForce h => h.wf
  | .bedrockRelease h => h.wf
  | .ensStatus h => h.wf
  | .ensMembers h cursor => h.wf && u32 cursor
  | .ensCommit h _ policy members => h.wf && u8 policy && u8 members.length && members.all (fun e => u32 e.2)
  | .ensCaptureAt h _ profile members => h.wf && u8 profile && u8 members.length
  | .ensForget h _ => h.wf
  | .logRead h start limit => h.wf && u32 start && u16 limit
  | .selftest h mask => h.wf && u8 mask
  | .selftestResult h => h.wf
  | .linkTest h link pattern seconds _ => h.wf && u8 link && u8 pattern && u16 seconds
  | .linkResult h link => h.wf && u8 link
  | .telemetryRead h start limit => h.wf && u32 start && u16 limit
  | .lifeRead h => h.wf
  | .unknownCommand h _ _ => h.wf
  | .backgroundCommandComplete _ _ => true
  | .portRediscover _ _ => true
  | .seedSelect _ => true
  | .schedLockRealign _ _ => true
  | .timebaseStep _ => true
  | .neighbourTest _ shorts => shorts.all pairWf
  | .tcpConnect _ _ => true
  | .tcpClose _ pair => Decidable.decide (pair < 7)
  | .sessionIdleTimeout _ pair => Decidable.decide (pair < 7)
  | .ncpFramingLoss _ pair _ bodyLen => Decidable.decide (pair < 7) && u32 bodyLen
  | .spiStatus _ => true
  | .spiWrite _ _ => true
  | .spiRead _ length => u24 length
  | .i2cPointerWrite _ _ => true
  | .i2cRead _ _ => true
  | .frameStrobe _ _ obs => Decidable.decide (obs.peaks.length = 8) && obs.samples.all Raw.wf && obs.ramanAs.all u14 && obs.ramanS.all u14 && u16 obs.average
  | .groupLaunch _ _ g => Decidable.decide (g < 8)
  | .thinnedLaunch _ _ => true
  | .internalStrobe _ => true
  | .proofWindow _ _ opens shorts => opens.all (fun c => Decidable.decide (c < 11)) && shorts.all (fun c => Decidable.decide (c < 11))
  | .dtsSwitchSettled _ => true
  | .patternStep _ _ step => Decidable.decide (step < 32)
  | .syncWordReceive _ _ => true
  | .lockWordMissing _ => true
  | .lockAcquireTimeout _ _ => true
  | .syncCollision _ => true
  | .seedFault _ _ _ => true
  | .seedSwitchover _ => true
  | .seedLockAcquired _ _ => true
  | .seedLocked _ _ => true
  | .seedRelockAttempt _ _ _ => true
  | .launchClamp _ _ => true
  | .noFibreProbe _ _ _ => true
  | .discoveryContinuityEnd _ _ _ => true
  | .discoveryRampEnd _ _ => true
  | .discoveryRangingEnd _ _ _ => true
  | .discoveryProfileEnd _ _ _ _ => true
  | .aprHoldExpiry _ _ _ => true
  | .traceFieldWords _ _ obs => obs.samples.all Raw.wf
  | .traceStrainWords _ _ _ => true
  | .gainRunEvaluation _ _ => true
  | .iqTermUpdate _ _ _ _ => true
  | .combineWeightRecompute _ _ noiseless => Decidable.decide (noiseless.length = 8)
  | .qualitySummary _ _ => true
  | .decimationTileProcessed _ _ => true
  | .nspTileSend _ stream => Decidable.decide (stream < 16)
  | .retxTileRelease _ stream => Decidable.decide (stream < 16)
  | .nack _ stream n => Decidable.decide (stream < 16) && n.wf
  | .retransmissionSend _ _ => true
  | .idle _ stream sub => Decidable.decide (stream < 16) && Decidable.decide (sub < 4)
  | .suspended _ stream => Decidable.decide (stream < 16)
  | .networkLinkLoss _ _ => true
  | .networkLinkUp _ _ _ => true
  | .darkFrameSecondHalf _ _ _ _ => true
  | .dtsResultPublish _ _ number => u32 number
  | .dtsFeedbackCheck _ _ => true
  | .feScanStart _ => true
  | .feSlotStart _ ch => Decidable.decide (ch < 10)
  | .feWindowEnd _ ch obs => Decidable.decide (ch < 10) && Decidable.decide (0 < obs.den)
  | .feResultPublish _ ch broken => Decidable.decide (ch < 10) && Decidable.decide (broken < 32)
  | .feComplianceTrip _ ch _ => Decidable.decide (ch < 10)
  | .hkBurst _ readings => readings.all (fun r => Decidable.decide (r.channel < 16) && Decidable.decide (r.raw < 4096))
  | .basaltTileEntry _ inst => Decidable.decide (inst < 8)
  | .interruptEntry core => Decidable.decide (core < 34)
  | .keTimerExpiry core => Decidable.decide (core < 34)
  | .deadlineWarn core => Decidable.decide (core < 34)
  | .dmaComplete core ch => Decidable.decide (core < 34) && Decidable.decide (ch < 4)
  | .kernelDeadline _ core => Decidable.decide (core < 34)
  | .coreHardwareFault _ core cause => Decidable.decide (core < 34) && u8 cause
  | .spareCoreLoaded _ core => Decidable.decide (core < 34)
  | .nop core _ => Decidable.decide (core < 34)
  | .rotDecrement core => Decidable.decide (core < 34)
  | .vld o => Decidable.decide (o.core < 34)
  | .vldb o => Decidable.decide (o.core < 34)
  | .vld2 o => Decidable.decide (o.core < 34)
  | .vldst o => Decidable.decide (o.core < 34)
  | .vst o => Decidable.decide (o.core < 34)
  | .vstm o => Decidable.decide (o.core < 34)
  | .sld o => Decidable.decide (o.core < 34)
  | .sst o => Decidable.decide (o.core < 34)
  | .aaddi o => Decidable.decide (o.core < 34)
  | .amov o _ => Decidable.decide (o.core < 34)
  | .aget o _ => Decidable.decide (o.core < 34)
  | .sadd o => Decidable.decide (o.core < 34)
  | .ssub o => Decidable.decide (o.core < 34)
  | .saddi o => Decidable.decide (o.core < 34)
  | .sand o => Decidable.decide (o.core < 34)
  | .sor o => Decidable.decide (o.core < 34)
  | .sxor o => Decidable.decide (o.core < 34)
  | .sshl o => Decidable.decide (o.core < 34)
  | .sshr o => Decidable.decide (o.core < 34)
  | .sshra o => Decidable.decide (o.core < 34)
  | .smovi o => Decidable.decide (o.core < 34)
  | .smovih o => Decidable.decide (o.core < 34)
  | .smul o => Decidable.decide (o.core < 34)
  | .brickIn o => Decidable.decide (o.core < 34)
  | .scratchIn o => Decidable.decide (o.core < 34)
  | .scratchOut o => Decidable.decide (o.core < 34)
  | .output o => Decidable.decide (o.core < 34)
  | .waitd o => Decidable.decide (o.core < 34)
  | .vmac o => Decidable.decide (o.core < 34)
  | .vmsu o => Decidable.decide (o.core < 34)
  | .vmul o => Decidable.decide (o.core < 34)
  | .vmacs o => Decidable.decide (o.core < 34)
  | .vsqa o => Decidable.decide (o.core < 34)
  | .vmulq o _ => Decidable.decide (o.core < 34)
  | .accclr o => Decidable.decide (o.core < 34)
  | .accrd16 o => Decidable.decide (o.core < 34)
  | .accrd32 o => Decidable.decide (o.core < 34)
  | .accsv o => Decidable.decide (o.core < 34)
  | .accld o => Decidable.decide (o.core < 34)
  | .vadd o => Decidable.decide (o.core < 34)
  | .vsub o => Decidable.decide (o.core < 34)
  | .vadds o => Decidable.decide (o.core < 34)
  | .vsubs o => Decidable.decide (o.core < 34)
  | .vabs o => Decidable.decide (o.core < 34)
  | .vmax o => Decidable.decide (o.core < 34)
  | .vmin o => Decidable.decide (o.core < 34)
  | .vand o => Decidable.decide (o.core < 34)
  | .vor o => Decidable.decide (o.core < 34)
  | .vxor o => Decidable.decide (o.core < 34)
  | .vshl o => Decidable.decide (o.core < 34)
  | .vshra o => Decidable.decide (o.core < 34)
  | .vshrl o => Decidable.decide (o.core < 34)
  | .vmov o => Decidable.decide (o.core < 34)
  | .vbcast o => Decidable.decide (o.core < 34)
  | .vcmpeq o => Decidable.decide (o.core < 34)
  | .vcmpgt o => Decidable.decide (o.core < 34)
  | .vcmpge o => Decidable.decide (o.core < 34)
  | .vsel o => Decidable.decide (o.core < 34)
  | .vext o => Decidable.decide (o.core < 34)
  | .vins o => Decidable.decide (o.core < 34)
  | .vperm o => Decidable.decide (o.core < 34)
  | .vredadd o => Decidable.decide (o.core < 34)
  | .vredmax o => Decidable.decide (o.core < 34)
  | .br o => Decidable.decide (o.core < 34)
  | .brz o => Decidable.decide (o.core < 34)
  | .brnz o => Decidable.decide (o.core < 34)
  | .bri o => Decidable.decide (o.core < 34)
  | .call o => Decidable.decide (o.core < 34)
  | .reti o => Decidable.decide (o.core < 34)
  | .loopa o => Decidable.decide (o.core < 34)
  | .loopb o => Decidable.decide (o.core < 34)
  | .mfc o => Decidable.decide (o.core < 34)
  | .mtc o => Decidable.decide (o.core < 34)
  | .dint o => Decidable.decide (o.core < 34)
  | .eint o => Decidable.decide (o.core < 34)
  | .tend o _ => Decidable.decide (o.core < 34)
  | .trace o => Decidable.decide (o.core < 34)
  | .crcv o => Decidable.decide (o.core < 34)
  | .crcs o => Decidable.decide (o.core < 34)
  | .crcseed o => Decidable.decide (o.core < 34)
  | .crcfin o => Decidable.decide (o.core < 34)
  | .triggerEvaluation _ cond _ => Decidable.decide (cond < 16)
  | .evtOutPulseEnd _ j => Decidable.decide (j < 2)
  | .timeConditionInstant _ cond => Decidable.decide (cond < 16)
  | .triggerGroupNotify _ => true
  | .captureRecordCopy _ capture => u32 capture
  | .captureComplete _ capture => u32 capture
  | .captureRetainExpiry _ capture => u32 capture
  | .captureSendComplete _ capture => u32 capture
  | .captureDeriveComplete _ => true
  | .dramBurstBoundary _ arrivals ecc => arrivals.all (fun r => Decidable.decide (r.port < 9) && Decidable.decide (r.address < 268435456)) && ecc.wf
  | .refreshInterval _ rank => Decidable.decide (rank < 5)
  | .refreshRatePoll _ rank _ => Decidable.decide (rank < 5)
  | .rowIdleClose _ rank bank => Decidable.decide (rank < 5) && Decidable.decide (bank < 16)
  | .qosMeterWindow _ => true
  | .requestUrgencyAge _ port => Decidable.decide (port < 9)
  | .patrolScrubRead _ ecc => ecc.wf
  | .eccWriteBack _ _ => true
  | .migrationSpareVerified _ _ _ => true
  | .migrationComplete _ => true
  | .wckDqTracking _ rank _ => Decidable.decide (rank < 5)
  | .trackingStep _ rank => Decidable.decide (rank < 5)
  | .spareRankTest _ => true
  | .spareRankTestEnd _ failing => Decidable.decide (failing.getD 0 < 9)
  | .refInputPresent _ _ => true
  | .refInputLost _ _ => true
  | .freqGateEnd _ _ _ => true
  | .ppsInEdge _ sub _ => Decidable.decide (sub < 5000)
  | .ppsInTimeout _ => true
  | .timeSteerUpdate _ _ => true
  | .ocxoAgeingStep _ => true
  | .ptpAnnounce _ _ a => a.wf
  | .ptpAnnounceTimeout _ _ => true
  | .ptpSync _ _ _ seq _ _ _ => u16 seq
  | .ptpFollowUp _ _ _ seq _ => u16 seq
  | .ptpDelayReqSend _ _ _ => true
  | .ptpDelayResp _ _ _ seq _ => u16 seq
  | .ptpPdelayResp _ _ seq _ _ _ => u16 seq
  | .ptpUnsupportedMessage _ _ _ => true
  | .tdcEdge _ input _ subPs => Decidable.decide (input < 7) && Decidable.decide (subPs < 5000)
  | .tdcStampDrain _ input => Decidable.decide (input < 7)
  | .tdcGateFit _ input => Decidable.decide (input < 7)
  | .ppsOutEdge _ => true
  | .ppsOutFall _ => true
  | .chainLoadComplete _ _ _ _ _ => true
  | .driveMeasurement _ ch _ _ neighbour => Decidable.decide (ch < 11) && (match neighbour with | some n => pairWf n | none => true)
  | .failoverRampComplete _ _ => true
  | .pumpAgeingRecord _ ch _ _ => Decidable.decide (ch < 11)
  | .ledBlink _ _ => true
  | .dnssdPeerFound _ _ _ => true
  | .heartbeat _ m => m.wf
  | .heartbeatSend _ => true
  | .timecheck _ _ _ _ _ _ => true
  | .timecheckSend _ => true
  | .table _ _ members => Decidable.decide (members.length ≤ 128)
  | .prepare _ m => m.wf
  | .vote _ m => m.wf
  | .decide _ _ txn _ ensEpoch => u32 txn && u32 ensEpoch
  | .outcome _ _ txn _ answer => u32 txn && (answer.getD 0 < 4)
  | .prepareDeadline _ => true
  | .outcomeQuery _ => true
  | .inDoubtTimeout _ => true
  | .memberLost _ _ => true
  | .memberForget _ _ => true
  | .ensTimeEvaluation _ => true
  | .ensCaptureTimeout _ => true
  | .sourceLoss _ _ => true
  | .sourcePresent _ _ => true
  | .poeClassification _ _ cls => Decidable.decide (cls ≤ 8)
  | .lldpPowerAllocation _ _ alloc => u16 alloc
  | .mpsPulse _ => true
  | .levelEvaluation _ => true
  | .shedUndo _ => true
  | .bedrockExit _ => true
  | .bootComplete _ obs => obs.neighbourShorts.all pairWf
  | .readyToRunning _ => true
  | .alarmInterval _ => true
  | .wakeInput _ shorts => shorts.all pairWf
  | .comparatorWake _ _ _ _ shorts => shorts.all pairWf
  | .wakeTimer _ shorts => shorts.all pairWf
  | .wakeDatagram _ h udp _ shorts => h.wf && u16 udp && shorts.all pairWf
  | .grantWake _ shorts => shorts.all pairWf
  | .geodeLinkTry _ _ _ => true
  | .pfail _ _ => true
  | .saveComplete _ _ => true
  | .holdCapacitanceMeasure _ _ _ => true
  | .thermalThreshold _ _ => true
  | .faultRetry _ => true
  | .resetN _ => true
  | .lockstepMismatch _ => true
  | .fwTrialTimeout _ => true
  | .wavelengthCalibration _ _ => true
  | .flashBlockErase _ block _ => Decidable.decide (block < 2048)
  | .telemetryRecord _ => true
  | .telemetryHourly _ => true
  | .lifeAccount _ => true
  | .selftestComplete _ failed details => Decidable.decide (failed < 64) && Decidable.decide (details.length = 6) && details.all u32
  | .linkTestEnd _ link _ _ => Decidable.decide (link < 10)
  | .linkErrorCheck _ link _ => Decidable.decide (link < 10)
  | .pfailNRelease _ => true
  | .peerConnectionIdle _ _ => true
  | .ensCaptureAnswer _ _ txn result capture => u32 txn && u16 result && u32 capture
  | .arpNeighbourSolicitation _ _ _ _ => true

end Sys2Proof
end

