-- ==== Sys2Proof/Tests/Slice0.lean ====
section
/-! SUPPORT. Tests: ill-formed commands are refused, the hypotheses of each statement are met by concrete states, and single steps give what the spec says. -/

section
open Sys2Proof Sys2Proof.Machine
namespace Sys2Proof.Tests

/-! ### Operands of the tests -/

def h0 : Hdr := { pair := 1, at_ := 0, version := 1, kind := 0, draft := false, client := 1, request := 1, bodyLen := 0, check := 0 }
def ts0 : TS96 := ⟨0, 0, 0⟩
def hBad : Hdr := { h0 with pair := 9 }
def derive0 : DeriveReq := ⟨1, 0, 0, 0, 10, 0, 1, 1, 0, 16, 0⟩
def m0 : OpM := ⟨0, 1, 0, 0, 0, true⟩
def mm0 : OpM2 := ⟨0, 1, 0, 0, 1, 2, 0, true⟩
def s0 : OpS := ⟨0, false, 1, 2, 3, 0, true⟩
def x0 : OpX := ⟨0, 0, 1, 2, 3, 0, 0, 0, true⟩
def v0 : OpV := ⟨0, 1, 2, 3, false, false, 0, true⟩
def c0 : OpC := ⟨0, 1, 2, 4, 5, 6, 0x05, 0, 3, 0, true⟩
def frame0 : FrameObs := ⟨List.replicate 8 0, 0, 0, [], [], [], true⟩
def trace0 : TraceObs := ⟨0, [], [], none, none, false, true⟩
def iq0 : IqStats := ⟨0, 0, 1, 1, 0, [0, 0]⟩
def ranging0 : Ranging := ⟨100000, false, false, -4000, []⟩
def nack0 : Nack := ⟨.a, 0, 0, 0, 0, 0, 0, 0, 0, 0, [], 0, 0⟩
def fe0 : FeObs := ⟨0, 1, false, 2500000, 2500000, true⟩
def announce0 : Announce := ⟨128, 6, 0x20, 0, 128, 7, 0, true, 37, 0, 0⟩
def heartbeat0 : Heartbeat := ⟨7, 9, 1, 0, 3, 1, 0, 0, 0, 0, 0, true⟩
def prepare0 : Prepare := ⟨7, 1, ts0, ts0, 0, 1, true⟩
def vote0 : VoteMsg := ⟨7, 1, 0, 0, 0, 0, 0, 0, true⟩
def boot0 : BootObs := ⟨true, false, true, true, true, List.replicate 5 false, List.replicate 5 true, List.replicate 8 true, true, List.replicate 34 true, []⟩

/-! ### Well-formed commands: every check refuses an operand past its range -/

theorem test_wf_refuses_1 : ([
    .cfgCommit hBad 0 0 ts0, .cfgCommit h0 0 256 ts0, .hello hBad 0, .hello h0 256, .ping hBad, .cfgGet hBad 0 [], .cfgGet h0 4294967296 [], .cfgSet hBad [],
    .cfgDiscard hBad, .cfgDiff hBad 0, .cfgDiff h0 4294967296, .cfgList hBad 0 "", .cfgList h0 4294967296 "", .cfgSave hBad, .cfgErase hBad, .timeSet hBad 0 0,
    .tdcRead hBad 0 0 0, .tdcRead h0 256 0 0, .tdcRead h0 0 4294967296 0, .tdcRead h0 0 0 65536, .kernelLoad hBad 0 0 0 0 [], .kernelLoad h0 256 0 0 0 [],
    .kernelLoad h0 0 256 0 0 [], .kernelLoad h0 0 0 4294967296 0 [], .kernelLoad h0 0 0 0 4294967296 [], .kernelUnload hBad 0, .kernelUnload h0 256,
    .kernelSnapshot hBad 0 0 0, .kernelSnapshot h0 256 0 0, .kernelSnapshot h0 0 4294967296 0] : List Instr).all (fun c => !c.wf) = true := by decide

theorem test_wf_refuses_2 : ([
    .kernelSnapshot h0 0 0 4294967296, .captureAt hBad ts0 0, .captureAt h0 ts0 256, .captureSend hBad 0 0, .captureSend h0 4294967296 0, .captureSend h0 0 256,
    .captureDerive hBad derive0, .captureRelease hBad 0, .captureRelease h0 4294967296, .captureList hBad 0, .captureList h0 4294967296, .eventSubscribe hBad 0,
    .eventRead hBad 0 0, .eventRead h0 4294967296 0, .eventRead h0 0 65536, .fwBegin hBad 0, .fwBegin h0 4294967296, .fwWrite hBad 0 [], .fwWrite h0 4294967296 [],
    .fwFinish hBad, .fwActivate hBad 0, .fwActivate h0 256, .fwConfirm hBad, .reset hBad, .stateGet hBad, .run hBad, .stop hBad, .geodeEnter hBad 0 0 ts0,
    .geodeEnter h0 256 0 ts0, .geodeEnter h0 0 256 ts0] : List Instr).all (fun c => !c.wf) = true := by decide

theorem test_wf_refuses_3 : ([
    .wake hBad, .bedrockForce hBad, .bedrockRelease hBad, .ensStatus hBad, .ensMembers hBad 0, .ensMembers h0 4294967296, .ensCommit hBad ts0 0 [],
    .ensCommit h0 ts0 256 [], .ensCaptureAt hBad ts0 0 [], .ensCaptureAt h0 ts0 256 [], .ensForget hBad 0, .logRead hBad 0 0, .logRead h0 4294967296 0,
    .logRead h0 0 65536, .selftest hBad 0, .selftest h0 256, .selftestResult hBad, .linkTest hBad 0 0 0 0, .linkTest h0 256 0 0 0, .linkTest h0 0 256 0 0,
    .linkTest h0 0 0 65536 0, .linkResult hBad 0, .linkResult h0 256, .telemetryRead hBad 0 0, .telemetryRead h0 4294967296 0, .telemetryRead h0 0 65536,
    .lifeRead hBad, .unknownCommand hBad 0 [], .tcpClose 0 7, .sessionIdleTimeout 0 7] : List Instr).all (fun c => !c.wf) = true := by decide

theorem test_wf_refuses_4 : ([
    .ncpFramingLoss 0 7 0 0, .ncpFramingLoss 0 0 0 4294967296, .spiRead 0 16777216, .groupLaunch 0 .a 8, .patternStep 0 .portA 32, .nspTileSend 0 16,
    .retxTileRelease 0 16, .nack 0 16 nack0, .idle 0 16 0, .idle 0 0 4, .suspended 0 16, .feSlotStart 0 10, .feWindowEnd 0 10 fe0, .feResultPublish 0 10 0,
    .feResultPublish 0 0 32, .feComplianceTrip 0 10 .excHigh, .basaltTileEntry 0 8, .interruptEntry 34, .keTimerExpiry 34, .deadlineWarn 34, .dmaComplete 34 0,
    .dmaComplete 0 4, .kernelDeadline 0 34, .coreHardwareFault 0 34 0, .coreHardwareFault 0 0 256, .spareCoreLoaded 0 34, .nop 34 false, .rotDecrement 34,
    .vld { m0 with core := 34 }, .vldb { m0 with core := 34 }] : List Instr).all (fun c => !c.wf) = true := by decide

theorem test_wf_refuses_5 : ([
    .vld2 { mm0 with core := 34 }, .vldst { mm0 with core := 34 }, .vst { m0 with core := 34 }, .vstm { m0 with core := 34 }, .sld { m0 with core := 34 },
    .sst { m0 with core := 34 }, .aaddi { m0 with core := 34 }, .amov { s0 with core := 34 } 0, .aget { s0 with core := 34 } 0, .sadd { s0 with core := 34 },
    .ssub { s0 with core := 34 }, .saddi { s0 with core := 34 }, .sand { s0 with core := 34 }, .sor { s0 with core := 34 }, .sxor { s0 with core := 34 },
    .sshl { s0 with core := 34 }, .sshr { s0 with core := 34 }, .sshra { s0 with core := 34 }, .smovi { s0 with core := 34 }, .smovih { s0 with core := 34 },
    .smul { s0 with core := 34 }, .brickIn { s0 with core := 34 }, .scratchIn { s0 with core := 34 }, .scratchOut { s0 with core := 34 },
    .output { s0 with core := 34 }, .waitd { s0 with core := 34 }, .vmac { x0 with core := 34 }, .vmsu { x0 with core := 34 }, .vmul { x0 with core := 34 },
    .vmacs { x0 with core := 34 }] : List Instr).all (fun c => !c.wf) = true := by decide

theorem test_wf_refuses_6 : ([
    .vsqa { x0 with core := 34 }, .vmulq { x0 with core := 34 } 0, .accclr { x0 with core := 34 }, .accrd16 { x0 with core := 34 }, .accrd32 { x0 with core := 34 },
    .accsv { x0 with core := 34 }, .accld { x0 with core := 34 }, .vadd { v0 with core := 34 }, .vsub { v0 with core := 34 }, .vadds { v0 with core := 34 },
    .vsubs { v0 with core := 34 }, .vabs { v0 with core := 34 }, .vmax { v0 with core := 34 }, .vmin { v0 with core := 34 }, .vand { v0 with core := 34 },
    .vor { v0 with core := 34 }, .vxor { v0 with core := 34 }, .vshl { v0 with core := 34 }, .vshra { v0 with core := 34 }, .vshrl { v0 with core := 34 },
    .vmov { v0 with core := 34 }, .vbcast { v0 with core := 34 }, .vcmpeq { v0 with core := 34 }, .vcmpgt { v0 with core := 34 }, .vcmpge { v0 with core := 34 },
    .vsel { v0 with core := 34 }, .vext { v0 with core := 34 }, .vins { v0 with core := 34 }, .vperm { v0 with core := 34 }, .vredadd { v0 with core := 34 }] : List Instr).all (fun c => !c.wf) = true := by decide

theorem test_wf_refuses_7 : ([
    .vredmax { v0 with core := 34 }, .br { c0 with core := 34 }, .brz { c0 with core := 34 }, .brnz { c0 with core := 34 }, .bri { c0 with core := 34 },
    .call { c0 with core := 34 }, .reti { c0 with core := 34 }, .loopa { c0 with core := 34 }, .loopb { c0 with core := 34 }, .mfc { c0 with core := 34 },
    .mtc { c0 with core := 34 }, .dint { c0 with core := 34 }, .eint { c0 with core := 34 }, .tend { c0 with core := 34 } 0, .trace { c0 with core := 34 },
    .crcv { c0 with core := 34 }, .crcs { c0 with core := 34 }, .crcseed { c0 with core := 34 }, .crcfin { c0 with core := 34 }, .triggerEvaluation 0 16 0,
    .evtOutPulseEnd 0 2, .timeConditionInstant 0 16, .captureRecordCopy 0 4294967296, .captureComplete 0 4294967296, .captureRetainExpiry 0 4294967296,
    .captureSendComplete 0 4294967296, .refreshInterval 0 5, .refreshRatePoll 0 5 false, .rowIdleClose 0 5 0, .rowIdleClose 0 0 16] : List Instr).all (fun c => !c.wf) = true := by decide

theorem test_wf_refuses_8 : ([
    .requestUrgencyAge 0 9, .wckDqTracking 0 5 [], .trackingStep 0 5, .ppsInEdge 0 5000 0, .ptpSync 0 .a 0 65536 false 0 0, .ptpFollowUp 0 .a 0 65536 0,
    .ptpDelayResp 0 .a 0 65536 0, .ptpPdelayResp 0 .a 65536 0 0 0, .tdcEdge 0 7 false 0, .tdcEdge 0 0 false 5000, .tdcStampDrain 0 7, .tdcGateFit 0 7,
    .driveMeasurement 0 11 0 0 none, .pumpAgeingRecord 0 11 0 0, .decide 0 0 4294967296 false 0, .decide 0 0 0 false 4294967296, .outcome 0 0 4294967296 0 none,
    .poeClassification 0 .a 9, .lldpPowerAllocation 0 .a 65536, .wakeDatagram 0 hBad 0 .a [], .wakeDatagram 0 h0 65536 .a [], .flashBlockErase 0 2048 false,
    .selftestComplete 0 64 [], .linkTestEnd 0 10 0 0, .linkErrorCheck 0 10 0, .ensCaptureAnswer 0 0 4294967296 0 0, .ensCaptureAnswer 0 0 0 65536 0,
    .ensCaptureAnswer 0 0 0 0 4294967296, .ping { h0 with pair := 8 }, .captureAt { h0 with pair := 8 } ts0 0] : List Instr).all (fun c => !c.wf) = true := by decide

theorem test_wf_refuses_9 : ([
    .ping { h0 with version := 256 }, .captureAt { h0 with version := 256 } ts0 0, .ping { h0 with kind := 128 }, .captureAt { h0 with kind := 128 } ts0 0,
    .ping { h0 with bodyLen := 4294967296 }, .captureAt { h0 with bodyLen := 4294967296 } ts0 0, .captureDerive h0 { derive0 with capture := 4294967296 },
    .captureDerive h0 { derive0 with first := 4294967296 }, .captureDerive h0 { derive0 with count := 4294967296 }, .captureDerive h0 { derive0 with port := 256 },
    .captureDerive h0 { derive0 with mode := 256 }, .captureDerive h0 { derive0 with format := 256 }, .captureDerive h0 { derive0 with gauge := 256 },
    .captureDerive h0 { derive0 with preset := 256 }, .captureDerive h0 { derive0 with form := 256 }, .captureDerive h0 { derive0 with stream := 256 },
    .captureDerive h0 { derive0 with factor := 65536 }, .ensCommit h0 ts0 0 [(0, 4294967296)], .neighbourTest 0 [(11, 0)], .wakeInput 0 [(11, 0)],
    .comparatorWake 0 .a 0 0 [(11, 0)], .wakeTimer 0 [(11, 0)], .wakeDatagram 0 h0 0 .a [(11, 0)], .grantWake 0 [(11, 0)], .neighbourTest 0 [(0, 11)],
    .bootComplete 0 { boot0 with neighbourShorts := [(0, 11)] }, .combineWeightRecompute 0 .a [], .dtsResultPublish 0 .a 4294967296, .frameStrobe 0 .a { frame0 with peaks := [] }, .frameStrobe 0 .a { frame0 with samples := [⟨2048, 0, 0, 0⟩] },
    .frameStrobe 0 .a { frame0 with ramanAs := [16384] }, .frameStrobe 0 .a { frame0 with ramanS := [16384] }, .traceFieldWords 0 .a { trace0 with samples := [⟨0, 0, 0, -2049⟩] }, .frameStrobe 0 .a { frame0 with average := 65536 }] : List Instr).all (fun c => !c.wf) = true := by decide

theorem test_wf_refuses_10 : ([
    .proofWindow 0 none [11] [], .proofWindow 0 none [] [11], .nack 0 0 { nack0 with fromUdp := 65536 }, .nack 0 0 { nack0 with rangeCount := 65536 },
    .nack 0 0 { nack0 with version := 256 }, .nack 0 0 { nack0 with kind := 256 }, .nack 0 0 { nack0 with streamId := 256 },
    .nack 0 0 { nack0 with subscriber := 256 }, .nack 0 0 { nack0 with ranges := [(4294967296, 0)] }, .nack 0 0 { nack0 with ranges := [(0, 4294967296)] },
    .feWindowEnd 0 0 { fe0 with den := 0 }, .hkBurst 0 [⟨16, 0⟩], .hkBurst 0 [⟨0, 4096⟩], .dramBurstBoundary 0 [⟨9, 0, false, 256, 0⟩] .clean,
    .dramBurstBoundary 0 [⟨1, 268435456, false, 256, 0⟩] .clean, .dramBurstBoundary 0 [] (.corrected 9 0), .dramBurstBoundary 0 [] (.corrected 0 19),
    .patrolScrubRead 0 (.corrected 9 0), .patrolScrubRead 0 (.corrected 0 19), .spareRankTestEnd 0 (some 9), .ptpAnnounce 0 .a { announce0 with priority1 := 256 },
    .ptpAnnounce 0 .a { announce0 with clockClass := 256 }, .ptpAnnounce 0 .a { announce0 with accuracy := 256 },
    .ptpAnnounce 0 .a { announce0 with priority2 := 256 }, .ptpAnnounce 0 .a { announce0 with domain := 256 }, .ptpAnnounce 0 .a { announce0 with variance := 65536 },
    .ptpAnnounce 0 .a { announce0 with stepsRemoved := 65536 }, .driveMeasurement 0 0 0 0 (some (11, 0)), .heartbeat 0 { heartbeat0 with fwMajor := 256 },
    .heartbeat 0 { heartbeat0 with fwMinor := 256 }] : List Instr).all (fun c => !c.wf) = true := by decide

theorem test_wf_refuses_11 : ([
    .heartbeat 0 { heartbeat0 with state := 256 }, .heartbeat 0 { heartbeat0 with busGroup := 256 }, .heartbeat 0 { heartbeat0 with quality := 256 },
    .heartbeat 0 { heartbeat0 with epoch := 4294967296 }, .heartbeat 0 { heartbeat0 with ensEpoch := 4294967296 }, .prepare 0 { prepare0 with txn := 4294967296 },
    .prepare 0 { prepare0 with draftRev := 4294967296 }, .prepare 0 { prepare0 with major := 256 }, .vote 0 { vote0 with txn := 4294967296 },
    .vote 0 { vote0 with ensEpoch := 4294967296 }, .vote 0 { vote0 with period := 4294967296 }, .vote 0 { vote0 with busGroup := 256 },
    .vote 0 { vote0 with role := 256 }, .vote 0 { vote0 with result := 65536 }, .outcome 0 0 0 0 (some 4), .selftestComplete 0 0 [],
    .selftestComplete 0 0 [4294967296, 0, 0, 0, 0, 0]] : List Instr).all (fun c => !c.wf) = true := by decide

theorem test_wf_takes_1 : ([
    .cfgCommit h0 0 0 ts0, .commitFTick 0 none, .hello h0 0, .ping h0, .cfgGet h0 0 [], .cfgSet h0 [], .cfgDiscard h0, .cfgDiff h0 0, .cfgList h0 0 "", .cfgSave h0,
    .cfgErase h0, .timeSet h0 0 0, .tdcRead h0 0 0 0, .kernelLoad h0 0 0 0 0 [], .kernelUnload h0 0, .kernelSnapshot h0 0 0 0, .captureAt h0 ts0 0,
    .captureSend h0 0 0, .captureDerive h0 derive0, .captureRelease h0 0, .captureList h0 0, .eventSubscribe h0 0, .eventRead h0 0 0, .fwBegin h0 0, .fwWrite h0 0 [],
    .fwFinish h0, .fwActivate h0 0, .fwConfirm h0, .reset h0, .stateGet h0, .run h0, .stop h0, .geodeEnter h0 0 0 ts0, .wake h0, .bedrockForce h0, .bedrockRelease h0,
    .ensStatus h0, .ensMembers h0 0, .ensCommit h0 ts0 0 [], .ensCaptureAt h0 ts0 0 []] : List Instr).all (fun c => c.wf) = true := by decide

theorem test_wf_takes_2 : ([
    .ensForget h0 0, .logRead h0 0 0, .selftest h0 0, .selftestResult h0, .linkTest h0 0 0 0 0, .linkResult h0 0, .telemetryRead h0 0 0, .lifeRead h0,
    .unknownCommand h0 0 [], .backgroundCommandComplete 0 false, .portRediscover 0 .a, .seedSelect 0, .schedLockRealign 0 .a, .timebaseStep 0, .neighbourTest 0 [],
    .tcpConnect 0 .a, .tcpClose 0 0, .sessionIdleTimeout 0 0, .ncpFramingLoss 0 0 0 0, .spiStatus 0, .spiWrite 0 [], .spiRead 0 0, .i2cPointerWrite 0 [],
    .i2cRead 0 0, .frameStrobe 0 .a frame0, .groupLaunch 0 .a 0, .thinnedLaunch 0 .a, .internalStrobe 0, .proofWindow 0 none [] [], .dtsSwitchSettled 0,
    .patternStep 0 .portA 0, .syncWordReceive 0 0, .lockWordMissing 0, .lockAcquireTimeout 0 .a, .syncCollision 0, .seedFault 0 .s0 .power, .seedSwitchover 0,
    .seedLockAcquired 0 .s0, .seedLocked 0 .s0, .seedRelockAttempt 0 .s0 false] : List Instr).all (fun c => c.wf) = true := by decide

theorem test_wf_takes_3 : ([
    .launchClamp 0 .a, .noFibreProbe 0 .a false, .discoveryContinuityEnd 0 .a false, .discoveryRampEnd 0 .a, .discoveryRangingEnd 0 .a ranging0,
    .discoveryProfileEnd 0 .a [] [], .aprHoldExpiry 0 .a false, .traceFieldWords 0 .a trace0, .traceStrainWords 0 .a false, .gainRunEvaluation 0 .a,
    .iqTermUpdate 0 .a iq0 iq0, .combineWeightRecompute 0 .a (List.replicate 8 0), .qualitySummary 0 .a, .decimationTileProcessed 0 .a, .nspTileSend 0 0, .retxTileRelease 0 0,
    .nack 0 0 nack0, .retransmissionSend 0 .a, .idle 0 0 0, .suspended 0 0, .networkLinkLoss 0 .a, .networkLinkUp 0 .a false, .darkFrameSecondHalf 0 .a [] [],
    .dtsResultPublish 0 .a 0, .dtsFeedbackCheck 0 .a, .feScanStart 0, .feSlotStart 0 0, .feWindowEnd 0 0 fe0, .feResultPublish 0 0 0,
    .feComplianceTrip 0 0 .excHigh, .hkBurst 0 [], .basaltTileEntry 0 0, .interruptEntry 0, .keTimerExpiry 0, .deadlineWarn 0, .dmaComplete 0 0, .kernelDeadline 0 0,
    .coreHardwareFault 0 0 0, .spareCoreLoaded 0 0, .nop 0 false] : List Instr).all (fun c => c.wf) = true := by decide

theorem test_wf_takes_4 : ([
    .rotDecrement 0, .vld m0, .vldb m0, .vld2 mm0, .vldst mm0, .vst m0, .vstm m0, .sld m0, .sst m0, .aaddi m0, .amov s0 0, .aget s0 0, .sadd s0, .ssub s0, .saddi s0,
    .sand s0, .sor s0, .sxor s0, .sshl s0, .sshr s0, .sshra s0, .smovi s0, .smovih s0, .smul s0, .brickIn s0, .scratchIn s0, .scratchOut s0, .output s0, .waitd s0,
    .vmac x0, .vmsu x0, .vmul x0, .vmacs x0, .vsqa x0, .vmulq x0 0, .accclr x0, .accrd16 x0, .accrd32 x0, .accsv x0, .accld x0] : List Instr).all (fun c => c.wf) = true := by decide

theorem test_wf_takes_5 : ([
    .vadd v0, .vsub v0, .vadds v0, .vsubs v0, .vabs v0, .vmax v0, .vmin v0, .vand v0, .vor v0, .vxor v0, .vshl v0, .vshra v0, .vshrl v0, .vmov v0, .vbcast v0,
    .vcmpeq v0, .vcmpgt v0, .vcmpge v0, .vsel v0, .vext v0, .vins v0, .vperm v0, .vredadd v0, .vredmax v0, .br c0, .brz c0, .brnz c0, .bri c0, .call c0, .reti c0,
    .loopa c0, .loopb c0, .mfc c0, .mtc c0, .dint c0, .eint c0, .tend c0 0, .trace c0, .crcv c0, .crcs c0] : List Instr).all (fun c => c.wf) = true := by decide

theorem test_wf_takes_6 : ([
    .crcseed c0, .crcfin c0, .triggerEvaluation 0 0 0, .evtOutPulseEnd 0 0, .timeConditionInstant 0 0, .triggerGroupNotify 0, .captureRecordCopy 0 0,
    .captureComplete 0 0, .captureRetainExpiry 0 0, .captureSendComplete 0 0, .captureDeriveComplete 0, .dramBurstBoundary 0 [] .clean, .refreshInterval 0 0,
    .refreshRatePoll 0 0 false, .rowIdleClose 0 0 0, .qosMeterWindow 0, .requestUrgencyAge 0 0, .patrolScrubRead 0 .clean, .eccWriteBack 0 0,
    .migrationSpareVerified 0 false false, .migrationComplete 0, .wckDqTracking 0 0 [], .trackingStep 0 0, .spareRankTest 0, .spareRankTestEnd 0 none,
    .refInputPresent 0 .ref10m, .refInputLost 0 .ref10m, .freqGateEnd 0 .ref10m 0, .ppsInEdge 0 0 0, .ppsInTimeout 0, .timeSteerUpdate 0 0, .ocxoAgeingStep 0,
    .ptpAnnounce 0 .a announce0, .ptpAnnounceTimeout 0 .a, .ptpSync 0 .a 0 0 false 0 0, .ptpFollowUp 0 .a 0 0 0, .ptpDelayReqSend 0 .a 0, .ptpDelayResp 0 .a 0 0 0,
    .ptpPdelayResp 0 .a 0 0 0 0, .ptpUnsupportedMessage 0 .a .security] : List Instr).all (fun c => c.wf) = true := by decide

theorem test_wf_takes_7 : ([
    .tdcEdge 0 0 false 0, .tdcStampDrain 0 0, .tdcGateFit 0 0, .ppsOutEdge 0, .ppsOutFall 0, .chainLoadComplete 0 [] [] [] [], .driveMeasurement 0 0 0 0 none,
    .failoverRampComplete 0 .a, .pumpAgeingRecord 0 0 0 0, .ledBlink 0 .a, .dnssdPeerFound 0 0 0, .heartbeat 0 heartbeat0, .heartbeatSend 0, .timecheck 0 0 0 0 0 0,
    .timecheckSend 0, .table 0 0 [], .prepare 0 prepare0, .vote 0 vote0, .decide 0 0 0 false 0, .outcome 0 0 0 0 none, .prepareDeadline 0, .outcomeQuery 0,
    .inDoubtTimeout 0, .memberLost 0 0, .memberForget 0 0, .ensTimeEvaluation 0, .ensCaptureTimeout 0, .sourceLoss 0 .vaux, .sourcePresent 0 .vaux,
    .poeClassification 0 .a 0, .lldpPowerAllocation 0 .a 0, .mpsPulse 0, .levelEvaluation 0, .shedUndo 0, .bedrockExit 0, .bootComplete 0 boot0, .readyToRunning 0,
    .alarmInterval 0, .wakeInput 0 [], .comparatorWake 0 .a 0 0 []] : List Instr).all (fun c => c.wf) = true := by decide

theorem test_wf_takes_8 : ([
    .wakeTimer 0 [], .wakeDatagram 0 h0 0 .a [], .grantWake 0 [], .geodeLinkTry 0 .a false, .pfail 0 false, .saveComplete 0 false, .holdCapacitanceMeasure 0 0 0,
    .thermalThreshold 0 .warn, .faultRetry 0, .resetN 0, .lockstepMismatch 0, .fwTrialTimeout 0, .wavelengthCalibration 0 0, .flashBlockErase 0 0 false,
    .telemetryRecord 0, .telemetryHourly 0, .lifeAccount 0, .linkTestEnd 0 0 0 0, .linkErrorCheck 0 0 0, .pfailNRelease 0, .peerConnectionIdle 0 0,
    .ensCaptureAnswer 0 0 0 0 0, .arpNeighbourSolicitation 0 .a false 0, .selftestComplete 0 0 [0, 0, 0, 0, 0, 0]] : List Instr).all (fun c => c.wf) = true := by decide

/-- A path of 256 bytes is too long for its length byte (R318). -/
theorem test_wf_refuses_long_paths (p : String) (h : 255 < p.length) :
    (Instr.cfgGet h0 0 [p]).wf = false ∧ (Instr.cfgList h0 0 p).wf = false ∧ (Instr.cfgSet h0 [⟨p, .u64 0⟩]).wf = false := by
  simp [Instr.wf, Entry.wf, h]

/-- A list of 65 536 entries is too long for its 16-bit count, a byte string of 65 536 bytes for its 16-bit length (R318). -/
theorem test_wf_refuses_long_lists (ps : List String) (es : List Entry) (bs : List Byte) (hp : 65535 < ps.length) (he : 65535 < es.length) (hb : 65535 < bs.length) :
    (Instr.cfgGet h0 0 ps).wf = false ∧ (Instr.cfgSet h0 es).wf = false ∧ (Instr.cfgSet h0 [⟨"", .bytes bs⟩]).wf = false := by
  have h1 : ¬ ps.length < 65536 := by omega
  have h2 : ¬ es.length < 65536 := by omega
  have h3 : ¬ bs.length < 65536 := by omega
  simp [Instr.wf, Entry.wf, Val.wf, u16, h1, h2, h3]

/-- A member list past its 8-bit count, a member table past 128 members (R341, R358). -/
theorem test_wf_refuses_many_members (xs : List (BitVec 64 × Nat)) (ys zs : List (BitVec 64)) (hx : 255 < xs.length) (hy : 255 < ys.length) (hz : 128 < zs.length) :
    (Instr.ensCommit h0 ts0 0 xs).wf = false ∧ (Instr.ensCaptureAt h0 ts0 0 ys).wf = false ∧ (Instr.table 0 0 zs).wf = false := by
  have h1 : ¬ xs.length < 256 := by omega
  have h2 : ¬ ys.length < 256 := by omega
  have h3 : ¬ zs.length ≤ 128 := by omega
  simp [Instr.wf, u8, h1, h2, h3]

/-! ### States of the tests -/

/-- A state right after reset but for its mode with its clocks, a counter that starts at 0, its published values, the values in force of no port and those of port A. -/
def st (m : Mode) (ro g a : List (Key × Nat)) : State :=
  { State.reset with mode := m, power := { State.reset.power with clocks := clocksOf m }, time := TimeBase.reset 0, ro := ⟨ro⟩, cfg := { State.reset.cfg with actG := ⟨1, ⟨g⟩⟩, actA := ⟨1, ⟨a⟩⟩ } }


/-! ### What the hypotheses of the statements ask for is met, clause by clause -/

/-- RUNNING with port A EMITTING, its next frame at tick 400 000 and its next group launch the second. -/
def framed : State :=
  let s := st .running [(K.portState .a, 3), (K.portFramePeriodLive .a, 400000)] [] []
  s.setFrame .a { s.frame .a with next := some 400000, last := 0, groupNext := 1 }

/-- BEDROCK with port A kept, its thinned launches from tick 0. -/
def thin : State :=
  let s := st .bedrock [(K.portState .a, 3)] [] []
  ({ s with opt := { s.opt with kept := some .a } } : State).setFrame .a { s.frame .a with next := some 400000, origin := 0, thinNext := 1 }

theorem test_witness_strobes :
    ((framed.at 400000).frame .a).next = some 400000 ∧ (framed.at 400000).hasFrames .a = true ∧ 400000 ≤ (framed.at 400000).now ∧
    (framed.at 399999).now < 400000 ∧ (State.reset.frame .b).next = none ∧
    ((framed.at 50000).thinned .a = false ∧ groupsOf ((framed.at 50000).pP .a (K.portSlotPlan .a)) = 8 ∧ ((framed.at 50000).frame .a).groupNext = 1 ∧ ((framed.at 50000).frame .a).gap = false ∧
      ((framed.at 50000).frame .a).last + 1 * ((framed.at 50000).period .a / 8) = (framed.at 50000).now) ∧
    ((framed.at 49999).now < (framed.frame .a).last + 1 * (framed.period .a / 8)) ∧
    ((thin.at 200000).hasFrames .a = true ∧ (thin.at 200000).thinned .a = true ∧ ((thin.at 200000).frame .a).next.isSome = true ∧ ((thin.at 200000).frame .a).gap = false ∧
      (thin.frame .a).origin + (thin.frame .a).thinNext * thinStep (thin.period .a) = (thin.at 200000).now) ∧
    (thin.at 199999).now < (thin.frame .a).origin + (thin.frame .a).thinNext * thinStep (thin.period .a) ∧
    (State.reset.hasFrames .a = false ∧ State.reset.hasFrames .b = false ∧ State.reset.opt.internalNext ≤ State.reset.now) ∧
    State.reset.lastStrobe .portA + State.reset.stepStart .portA 31 ≤ State.reset.now := by decide

/-- A proof window is due on a strobe at most 500 ticks ahead; a switch settles at 1000; the neighbour test is due in READY. -/
def proving : State :=
  let s := st .ready [] [] []
  let s1 := s.setFrame .a { s.frame .a with next := some 1500 }
  { s1 with opt := { s1.opt with dts := { s1.opt.dts with moving := some 1000 } }, drive := { s1.drive with testDue := true } }

theorem test_witness_emitter_proofs :
    ((proving.at 1000).frame .a).next = some 1500 ∧ 1500 ≤ (proving.at 1000).now + 500 ∧ (proving.at 999).now + 500 < 1500 ∧
    proving.hasFrames .a = false ∧ proving.hasFrames .b = false ∧ (proving.at 1000).opt.dts.moving = some 1000 ∧ 1000 ≤ (proving.at 1000).now ∧ (proving.at 999).now < 1000 ∧
    proving.drive.testDue = true ∧ proving.mode = .ready ∧ State.reset.drive.testDue = false := by decide

/-- A sync word of period 400 000, its CRC-16 worked out by hand from R89: 0xA5, the period, 0x0468. -/
def word0 : BitVec 64 := BitVec.ofNat 64 11944478597646910568

/-- A frame lock: role, state published, port A on the bus, the lock record, and what is due at its next strobe. -/
def locked (role state period : Nat) (l : Lock) : State :=
  let s := st .running [(K.portState .a, 3), (K.schedLockState, state)] [(K.schedLockRole, role)] [(K.portFrameAlign .a, 2), (K.portFramePeriod .a, period)]
  let s1 := s.setFrame .a { s.frame .a with next := some 900000 }
  { s1 with opt := { s1.opt with lock := l, realignDue := ⟨true, false⟩, stepDue := true, portA := { s1.opt.portA with rediscover := true } } }

def lock0 : Lock := { lastWord := some (500000, 400000), predicted := 900000, missed := 2, acquireSince := none, collision := false, drives := false }

set_option maxRecDepth 20000 in
theorem test_sync_word : syncOk word0.toNat = true ∧ syncOk (word0 + 1).toNat = false := by decide

theorem test_witness_frame_lock :
    let a := locked 2 2 400000 lock0
    let b := locked 2 1 400000 { lock0 with acquireSince := some 0 }
    (a.pG K.schedLockRole = 2 ∧ a.busPorts.all (fun p => a.pP p (K.portFramePeriod p) == syncPeriod word0.toNat) = true) ∧
    ((locked 2 2 300000 lock0).busPorts.all (fun p => (locked 2 2 300000 lock0).pP p (K.portFramePeriod p) == syncPeriod word0.toNat) = false) ∧
    (locked 1 2 400000 lock0).pG K.schedLockRole ≠ 2 ∧
    (a.opt.lock.lastWord = some (500000, 400000) ∧ a.roGet K.schedLockState = 2 ∧ a.opt.lock.predicted + 1280 ≤ (a.at 901280).now ∧ 3 ≤ a.opt.lock.missed + 1) ∧
    (a.at 901279).now < a.opt.lock.predicted + 1280 ∧
    (b.opt.lock.acquireSince = some 0 ∧ b.roGet K.schedLockState = 1 ∧ 0 + secondTicks ≤ (b.at secondTicks).now ∧ b.hasFrames .a = true) ∧
    (b.at 199999999).now < 0 + secondTicks ∧ (locked 1 4 400000 lock0).pG K.schedLockRole = 1 ∧
    (let c := locked 2 4 400000 lock0
     c.opt.realignDue.get .a = true ∧ c.opt.realignDue.get .b = false ∧ c.opt.lock.lastWord = some (500000, 400000) ∧ (c.frame .a).next = some 900000 ∧ c.onBus .a = true ∧ 0 < c.pP .a (K.portFramePeriod .a) ∧
      400000 = c.pP .a (K.portFramePeriod .a) ∧ (c.at 901280).now ≤ 500000 + 400000 + 1280 ∧ 500000 + 400000 + 1280 < (c.at 901281).now) ∧
    a.opt.stepDue = true ∧ State.reset.opt.stepDue = false ∧
    ((a.portSt .a).rediscover = true ∧ a.pState .a = 3 ∧ a.aRestarts = true) ∧ State.reset.aRestarts = false ∧ (State.reset.portSt .a).rediscover = false ∧
    (let d : State := { a with ro := ⟨[(K.portState .a, 4)]⟩ }
     let e : State := { a with ro := ⟨[(K.portState .a, 1)]⟩ }
     d.pState .a = 4 ∧ (d.portSt .a).rediscover = true ∧ e.pState .a = 1 ∧ (e.portSt .a).rediscover = true) := by decide

/-- Seeds in the statuses given, the state of S1, and a selection that has come due. -/
def seeds (m : Mode) (s0 s1 : Nat) (x : SeedSt) (select : Nat) : State :=
  let s := st m [(K.opticalSeedS0Status, s0), (K.opticalSeedS1Status, s1)] [] []
  { s with opt := { s.opt with seed1 := x, select := select } }

theorem test_witness_seeds :
    let faulty : SeedSt := { lockAt := none, ref := some 0, attempts := 0, lastAttempt := 0, trying := false }
    let a := (seeds .running 2 3 faulty 1).at (10 * secondTicks)
    (a.opt.select = seedIdx .s0 + 1 ∧ a.activeSeed = .s0) ∧
    ((seeds .running 2 3 faulty 2).opt.select = seedIdx .s1 + 1 ∧ (seeds .running 2 3 faulty 2).seedStatus .s1 ≠ 2) ∧ (seeds .running 2 2 faulty 2).seedStatus .s1 = 2 ∧
    (seeds .running 2 2 faulty 0).opt.select = 0 ∧
    ((a.seed .s1).ref = some 0 ∧ a.seedStatus .s1 = 3 ∧ a.mayRelock .s1 = true ∧ (a.seed .s1).trying = false ∧ (a.seed .s1).attempts < 3 ∧
      relockDue 0 (a.seed .s1).attempts ≤ a.now ∧ (a.seed .s1).attempts = 0) ∧
    (State.reset.seed .s1).ref = none ∧ (seeds .ready 1 2 faulty 0).seedStatus .s0 = 1 ∧ Mode.ready.working = true ∧ State.reset.mode.working = false ∧
    (let l : SeedSt := { faulty with lockAt := some 1000, trying := true }
     let b := seeds .running 2 1 l 0
     let c := seeds .running 2 3 l 0
     (b.seed .s1).lockAt = some 1000 ∧ 1000 + secondTicks ≤ (b.at 200001000).now ∧ b.seedStatus .s1 = 1 ∧ c.seedStatus .s1 = 3 ∧ (c.seed .s1).trying = true ∧
      (b.at 200000999).now < 1000 + secondTicks ∧ c.activeSeed = .s0 ∧ b.seedStatus b.activeSeed = 2 ∧ Seed.s1 ≠ b.activeSeed) := by decide

/-- RUNNING with seed S0 LOCKED and port A enabled, in a state, with its record. -/
def fibre (portState : Nat) (x : PortSt) : State :=
  let s := st .running [(K.portState .a, portState), (K.opticalSeedS0Status, 2)] [] [(K.portEnable .a, 1)]
  s.setPortSt .a x

theorem test_witness_discovery :
    let idle := PortSt.idle
    let ph := fun x => { idle with phase := some (x, 0), found := some ranging0 }
    let a := fibre 0 { idle with probeAt := some 0 }
    (a.pState .a = 0 ∧ a.mayLaunch .a = true ∧ (a.portSt .a).probeAt = some 0 ∧ 0 + secondTicks ≤ (a.at 200000000).now ∧ (a.at 199999999).now < 0 + secondTicks) ∧
    a.pState Port.a.other ≠ 1 ∧
    (((fibre 1 (ph .continuity)).at 2000000).phaseOver .a .continuity 2000000 = true ∧ ((fibre 1 (ph .continuity)).at 1999999).phaseOver .a .continuity 2000000 = false) ∧
    (((fibre 1 (ph .ramp)).at 32000000).phaseOver .a .ramp 32000000 = true ∧ ((fibre 1 (ph .ramp)).at 31999999).phaseOver .a .ramp 32000000 = false) ∧
    (((fibre 1 (ph .ranging)).at 409600000).phaseOver .a .ranging 409600000 = true ∧ ((fibre 1 (ph .ranging)).at 409599999).phaseOver .a .ranging 409600000 = false) ∧
    (let p := fibre 1 (ph .profile)
     (p.portSt .a).found = some ranging0 ∧ (p.at (p.profileTicks .a ranging0)).phaseOver .a .profile (p.profileTicks .a ranging0) = true ∧
      (p.at (p.profileTicks .a ranging0 - 1)).phaseOver .a .profile (p.profileTicks .a ranging0) = false) ∧
    (fibre 3 idle).pState .a = 3 ∧
    (let b := (fibre 4 { idle with aprSince := 0 }).at 2000000000
     b.pState .a = 4 ∧ (b.portSt .a).aprSince + b.pP .a (K.portAprHoldS .a) * secondTicks = b.now ∧ b.mayLaunch .a = true ∧ b.pP .a (K.portResume .a) = 0 ∧
      ((fibre 4 idle).at 1999999999).now < (b.portSt .a).aprSince + b.pP .a (K.portAprHoldS .a) * secondTicks) := by decide

def launch0 : Launch := ⟨1000, 0, 0, 0, [0], false, false, false, false, false, 1, 1, false, 0, false, 0, 10, 50000, PSet.reset, 0, 0⟩
def header0 : TraceHeader := ⟨0, 1000, 1, 1, 0, 10, .a, 0, 0, 0, false, false, false, false, false, 0, 0, 0, 0, 24, 10, false, false⟩
def strain0 : StrainTrace := ⟨header0, 0, 50000, 0, []⟩
def tile0 : Tile := ⟨0, 0, 0, false, false, false, false, false, false, true, 0, 1, 1, 0, 0, 1, 0, 1, 1, 1, 0, 1, 0, [], 0, [], false⟩
def corner0 : CornerTile := ⟨0, 256, 50000, 0, true, [strain0]⟩

theorem test_witness_traces :
    let d := (fibre 1 { PortSt.idle with phase := some (.ranging, 0) })
    let s := st .running [(K.portState .a, 3)] [] []
    let a := s.setFrame .a { s.frame .a with inflight := [launch0] }
    let b := a.setCoh .a { a.coh .a with strain := [strain0], corner := [corner0] }
    let q := b.setStream 2 { b.stream 2 with queue := [tile0] }
    let due := launch0.tick + lastArrival launch0.first launch0.count (launch0.set.get (K.portPointsPitch .a)) + fieldDelay launch0.set .a
    let strained := header0.launchTick + lastArrival header0.first header0.count header0.pitch + strainDelay (b.traceSet .a header0.epoch) .a
    let half := b.setCoh .a { b.coh .a with corner := [{ corner0 with ready := false }, corner0] }
    ((d.portSt .a).phase = some (.ranging, 0) ∧ d.pState .a = 1 ∧ continuityLost (some 4999) = true) ∧
    ((a.portSt .a).phase = none ∧ (a.frame .a).inflight = [launch0] ∧ a.power.clocks.dsp = true ∧ launch0.tick = ({ trace0 with launch := 1000 } : TraceObs).launch ∧
      due = (a.at due).now ∧ (a.at (due - 1)).now < due) ∧
    ((b.coh .a).strain = [strain0] ∧ strained = (b.at strained).now ∧ (b.at (strained - 1)).now < strained ∧ b.cornerRoom .a strain0 = true) ∧
    half.cornerRoom .a { strain0 with index := 256 } = false ∧
    ((b.coh .a).corner = [corner0] ∧ corner0.ready = true ∧ b.power.clocks.fabric = true) ∧ (State.reset.coh .a).corner = [] ∧
    (q.tileTurn 2 = true ∧ q.mode ≠ .fault ∧ (q.stream 2).suspended = false) ∧ q.tileTurn 3 = false := by decide

theorem test_witness_coherent :
    let s := st .running [(K.portState .a, 3)] [] []
    let a := s.setCoh .a { s.coh .a with frames := 256, iqFrames := 16384, combineFrames := 256 }
    let f := st .running [(K.portState .a, 3)] [] [(K.portRxGainMode .a, 1)]
    (256 ≤ (a.coh .a).frames ∧ a.hasFrames .a = true ∧ a.pP .a (K.portRxGainMode .a) ≠ 1) ∧ f.pP .a (K.portRxGainMode .a) = 1 ∧ (f.coh .a).frames < 256 ∧
    16384 ≤ (a.coh .a).iqFrames ∧ (s.coh .a).iqFrames < 16384 ∧ 256 ≤ (a.coh .a).combineFrames ∧ (s.coh .a).combineFrames < 256 ∧ a.pP .a (K.portCombineMode .a) = 0 ∧
    (st .running [] [] [(K.portCombineMode .a, 1)]).pP .a (K.portCombineMode .a) ≠ 0 := by decide

def dest0 : Dest := ⟨0, 0, 0, 0, false⟩

/-- READY with stream 0 on for subscriber 0 of port A's link, one tile kept since tick 0 for 1000 ticks. -/
def streaming : State :=
  let s := st .ready [] [] []
  let x := { s.stream 0 with bank := ⟨1, ⟨[(K.streamEnable 0, 1), (K.streamSubEnable 0 0, 1)]⟩⟩, held := [⟨0, [], 0, 1000, [0], [(0, .a, 0)]⟩], retx := [⟨dest0, 0, .a, 0⟩],
                             subs := [{ SubSt.idle with lastSent := some 0 }, SubSt.idle, SubSt.idle, SubSt.idle] }
  (s.setStream 0 x).setLink .a { s.link .a with up := true, since := 0 }

def nackBare : Nack := { nack0 with magic := 0x534E, version := 1, kind := 0x0E, rangeCount := 1, ranges := [(0, 1)] }
def nackGood : Nack := { nackBare with check := checkValue Config.moduleId 0 0 (nackBytes nackBare) }

theorem nackBytes_check (n : Nack) (c : BitVec 32) : nackBytes { n with check := c } = nackBytes n := rfl
theorem nackGood_bytes : nackBytes nackGood = nackBytes nackBare := nackBytes_check _ _
theorem nackGood_check : nackGood.check = checkValue Config.moduleId 0 0 (nackBytes nackBare) := rfl

theorem test_witness_nack : streaming.nackOk 0 nackGood = true ∧ streaming.nackOk 0 { nackGood with version := 2 } = false := by
  have h : checkValue streaming.moduleId nackGood.streamId nackGood.nackNumber.toNat (nackBytes nackGood) = nackGood.check := by
    rw [nackGood_bytes, nackGood_check]
    congr 1
  constructor
  · unfold State.nackOk
    rw [decide_eq_true h]
    decide
  · unfold State.nackOk
    simp

theorem test_witness_retransmission :
    let a := streaming
    ((a.link .a).up = true ∧ a.firstWaiting .a = false ∧ a.oldestRetx .a = some (0, ⟨dest0, 0, .a, 0⟩) ∧
      (a.stream 0).held.find? (fun h => h.seq == 0) = some ⟨0, [], 0, 1000, [0], [(0, .a, 0)]⟩ ∧ 100 * (0 + 0) ≤ (a.link .a).rate10ms * (a.stream 0).par K.nspRetxShare) ∧
    (((a.stream 0).dests 0).find? (fun y => y.sub == nackGood.subscriber)).isSome = true ∧ ((State.reset.stream 0).dests 0).find? (fun y => y.sub == nackGood.subscriber) = none ∧
    (let l := { a.link .a with share := 1000000000, shareAt := 0 }
     a.now < l.shareAt + 2000000 ∧ l.rate10ms * (a.stream 0).par K.nspRetxShare < 100 * (l.share + 0)) ∧
    (let b := a.setStream 0 { a.stream 0 with held := [] }
     b.oldestRetx .a = some (0, ⟨dest0, 0, .a, 0⟩) ∧ (b.stream 0).held.find? (fun h => h.seq == 0) = none) ∧
    (State.reset.link .a).up = false ∧ State.reset.oldestRetx .a = none ∧
    ((a.stream 0).par (K.streamEnable 0) = 1 ∧ (a.stream 0).suspended = false ∧ 0 ∈ (a.stream 0).activeSubs 0 ∧
      sentLongAgo ((a.stream 0).subs.getD 0 SubSt.idle) (a.at 20000000).now = true ∧ a.mode.served = true ∧
      sentLongAgo ((a.stream 0).subs.getD 0 SubSt.idle) (a.at 19999999).now = false) ∧
    (let b := a.setStream 0 { a.stream 0 with suspendedAt := some 0, suspendedSent := 0 }
     (b.stream 0).suspended = true ∧ (b.stream 0).suspendedSent + secondTicks ≤ (b.at 200000000).now ∧
      (b.at 199999999).now < (b.stream 0).suspendedSent + secondTicks) := by decide

/-- READY with link A up and pair 1 open since tick 0. -/
def serving : State :=
  let s := (st .ready [] [] []).setPair 1 { Session.closed with open_ := true }
  s.setLink .a { s.link .a with up := true }

theorem test_witness_connections :
    (serving.servedOn 1 = true ∧ (serving.link .a).up = true ∧ serving.freePair = some 2) ∧
    ({ serving with sess := List.replicate 8 { Session.closed with open_ := true } } : State).freePair = none ∧ State.reset.servedOn 1 = false ∧
    (tcpPair 1 = true ∧ (serving.pair 1).open_ = true ∧ serving.pG K.ncpIdleTimeoutS ≠ 0 ∧
      (serving.pair 1).lastAt + serving.pG K.ncpIdleTimeoutS * secondTicks = (serving.at (serving.pG K.ncpIdleTimeoutS * secondTicks)).now) ∧
    (serving.at 0).now < (serving.pair 1).lastAt + serving.pG K.ncpIdleTimeoutS * secondTicks ∧ tcpPair 6 = true ∧ (0x434D : BitVec 16) ≠ 0x434E ∧
    serving.mode ≠ .off ∧ serving.servedOn 0 = true ∧ State.reset.servedOn 0 = false ∧ (st .off [] [] []).mode = .off ∧ serving.mode.answersI2c = true ∧
    (15 : Byte).toNat ≤ 15 ∧ (st .save [] [] []).mode.answersI2c = false := by decide

def saved0 : SaveRec := ⟨0, 0, 0, 0, 0, 0, [], [], [], [], []⟩

/-- Shallow GEODE that keeps link A, with every source in its mask. -/
def geode0 : Geode := { deep := false, mask := 31, wake := 0, grant := true, live := ⟨1, PSet.reset⟩, kept := some .a, trying := some (.b, 0), down := none, save := saved0 }
def asleep (up : Bool) : State :=
  let s := st .geode [] [] []
  ({ s with power := { s.power with geode := some geode0, grantSince := some 0 } } : State).setLink .a { s.link .a with up := up }

set_option maxRecDepth 20000 in
theorem test_witness_links :
    serving.power.geode = none ∧ ((asleep true).power.geode = some geode0 ∧ geode0.kept = some .a ∧ ((asleep true).link .a).up = true) ∧ geode0.kept ≠ some Port.b ∧
    ((serving.link .b).up = false ∧ serving.mode ≠ .off ∧ serving.mode ≠ .save ∧ serving.linkHeld .b = false) ∧
    (let b : State := { serving with health := { serving.health with linkTests := serving.health.linkTests.set 0 (some ⟨0, some 1, some (.b, true), 0, 0⟩) } }
     b.linkHeld .b = true ∧ (b.link .b).up = false) ∧
    (((asleep false).link .a).up = false ∧ (asleep false).mode ≠ .off ∧ (asleep false).linkHeld .a = false ∧ geode0.deep = false) ∧
    (asleep true).mode = .geode ∧ (asleep true).ownAddress .a true 0 = true ∧
    (let g := { geode0 with live := ⟨1, ⟨[(K.netAddrMode .a, 1)]⟩⟩ }
     ({ asleep true with power := { (asleep true).power with geode := some g } } : State).ownAddress .a false 9 = false) := by decide

def band0 : Band := ⟨[], 0, 0, true, 0, 0, false⟩
def mean0 : FeMean := FeMean.none_
def integ0 : Integ := ⟨1, ⟨1, PSet.reset⟩, 0, 0, 0, 0, 60, 0, true, true, 0, 0, 0, band0, band0, false, false, false, false, false, false, 0, 0, false, 0, 0, mean0, mean0, 1000, 0, 60⟩

theorem test_witness_raman :
    let s := st .running [] [] []
    let a := s.setDts .a { s.dts .a with cur := some integ0, done := [{ integ0 with dark := false }] }
    let b := a.setDts .b { s.dts .b with cur := some { integ0 with dark := false }, done := [{ integ0 with endAt := -1 }] }
    ((a.dts .a).cur = some integ0 ∧ integ0.dark = true) ∧ (s.dts .a).cur = none ∧ (b.dts .b).cur = some { integ0 with dark := false } ∧
    ((a.dts .a).done = [{ integ0 with dark := false }] ∧ a.mode.working = true) ∧
    ((b.dts .b).done = [{ integ0 with endAt := -1 }] ∧ (b.dts .a).done = [{ integ0 with dark := false }] ∧ ∀ y ∈ (b.dts .a).done, y.endAt ≠ -1) ∧
    ((b.dts .b).done ≠ [] ∧ integ0.nextCheck = (b.at 1000).now ∧ (b.at 999).now < integ0.nextCheck) ∧
    ((⟨1, 0, 0⟩ : FeMean).mean = none ∧ (⟨2, 1, 25⟩ : FeMean).mean = some 25 ∧ 0 < ({ integ0 with used := 1 } : Integ).used ∧ integ0.used = 0 ∧ integ0.coil.mean = none) ∧
    ((DtsPort.idle).heldTerm = none ∧ (let d : DtsPort := { DtsPort.idle with heldTerm := some 5, heldRuns := 9 }; d.heldTerm.isSome = true ∧ d.heldRuns < 10) ∧
      10 ≤ ({ DtsPort.idle with heldRuns := 10 } : DtsPort).heldRuns) ∧
    State.reset.mode.working = false := by decide +kernel

def conv0 : FeConv := ⟨0, false, false, true, 0, 1000⟩
def slot0 : FeSlot := ⟨0, 0, false, false, none⟩

theorem test_witness_front_end_scan :
    let s := st .ready [] [] []
    let a := s.withFront { s.front with scanning := true, order := [0, 4], slot := none }
    let b := s.withFront { s.front with slot := some slot0 }
    let due := (b.feCh 0).par (K.feChSettle 0) + windowTicks ((b.feCh 0).par (K.feChOsr 0))
    (s.feRuns = true ∧ s.front.scanning = false ∧ s.front.nextScan ≤ s.now) ∧ State.reset.feRuns = false ∧
    (a.feRuns = true ∧ a.front.scanning = true ∧ a.front.order = [0, 4] ∧ a.front.slot = none ∧ a.front.chans.length = 10 ∧ (a.feCh 0).scanned = false) ∧
    b.front.scanning = false ∧
    (b.front.slot = some slot0 ∧ slot0.ch = 0 ∧ slot0.conv = none ∧ slot0.start + (b.feCh 0).par (K.feChSettle 0) + windowTicks ((b.feCh 0).par (K.feChOsr 0)) ≤ (b.at due).now ∧
      (b.at (due - 1)).now < slot0.start + (b.feCh 0).par (K.feChSettle 0) + windowTicks ((b.feCh 0).par (K.feChOsr 0))) ∧
    (let f := s.setFeCh 4 { s.feCh 4 with scanned := true, set := ⟨[(K.feChGain 4, 1)]⟩ }
     ∃ k ∈ filterFields 4, (f.feCh 4).set.get k ≠ f.cfg.actG.set.get k) := by decide

theorem test_witness_front_end_results :
    let s := st .ready [] [] []
    let a := s.withFront { s.front with slot := some { slot0 with conv := some conv0 }, order := [4] }
    let b := s.setFeCh 1 { s.feCh 1 with excited := true, set := ⟨[(K.feChExcitation 1, 1)]⟩ }
    let c := s.setFeCh 1 { s.feCh 1 with excited := true, set := ⟨[(K.feChExcitation 1, 2)]⟩ }
    let d := s.setFeCh 1 { s.feCh 1 with excited := true }
    (a.front.slot = some { slot0 with conv := some conv0 } ∧ conv0.endTick + 10000 = (a.at 11000).now) ∧ s.front.slot = none ∧
    (b.feRuns = true ∧ (b.feCh 1).excited = true ∧ (b.feCh 1).par (K.feChExcitation 1) = 1) ∧ (c.feCh 1).par (K.feChExcitation 1) = 2 ∧
    ((d.feCh 1).excited = true ∧ (d.feCh 1).par (K.feChExcitation 1) = 0) ∧ (s.feCh 3).excited = false ∧
    s.mode ≠ .off ∧ s.mode ≠ .geode ∧ (st .geode [] [] []).mode = .geode := by decide

def capture0 : Capture := ⟨1, false, false, false, false, false, true, 0, 0, 0, 0, 0, 1000, ⟨some (0, 10), none⟩, ⟨0, 0⟩, none, 0, 0, 0, [], [], 0, [2], 0, false, 0⟩
def record0 : StrataRec := ⟨.a, 500, some header0, [], 0, 128⟩

theorem test_witness_triggers :
    let s := st .running [] [(K.trigCondSource 1, 1), (K.trigCondSource 2, 2), (K.trigCondSource 3, 3), (K.trigCondSource 4, 4), (K.trigCondEnable 4, 1)] []
    let c := ({ s with trig := { s.trig with captures := [capture0], ring := [record0] } } : State)
    let d := ({ s with trig := { s.trig with captures := [{ capture0 with complete := true, completedAt := 0 }], pulses := [some 700, none], derives := [derive0] } } : State)
    let e := ({ d with cfg := { d.cfg with actG := ⟨1, ⟨[(K.captureRetainS, 1)]⟩⟩ } } : State)
    (s.mode = .running ∧ s.pG (K.trigCondSource 0) = 0 ∧ s.pG (K.trigCondSource 1) = 1 ∧ s.pG (K.trigCondSource 2) = 2 ∧ s.pG (K.trigCondSource 3) = 3) ∧
    State.reset.mode ≠ .running ∧
    (s.pG (K.trigCondEnable 4) ≠ 0 ∧ s.pG (K.trigCondSource 4) = 4 ∧
      nextInstant (stampOfBits (s.pG (K.trigCondTime 4))) (s.cond 4).since (s.pG (K.trigCondPeriodMs 4)) = some 0 ∧ 0 ≤ s.stamp) ∧ s.pG (K.trigCondEnable 3) = 0 ∧
    (d.trig.pulses.getD 0 none = some 700 ∧ 700 ≤ (d.at 700).now ∧ (d.at 699).now < 700) ∧
    (c.capture 1 = some capture0 ∧ capture0.complete = false ∧ c.nextRecord capture0 = some record0 ∧ c.windowDone capture0 = false) ∧
    (let w : State := { s with trig := { s.trig with captures := [capture0] } }
     (w.at 1).capture 1 = some capture0 ∧ (w.at 1).windowDone capture0 = true) ∧
    (e.capture 1 = some { capture0 with complete := true, completedAt := 0 } ∧ e.pG K.captureRetainS ≠ 0 ∧ 0 + e.pG K.captureRetainS * secondTicks ≤ (e.at 200000000).now ∧
      (e.at 199999999).now < 0 + e.pG K.captureRetainS * secondTicks) ∧
    (capture0.sends.find? (fun x => !((c.stream x).queue.any (fun y => y.kind == 5 && y.format == 0x14 && y.block == 1))) = some 2) ∧ d.trig.derives = [derive0] := by decide

def burst0 : DramReq := ⟨1, 0, false, 256, 0⟩

/-- The memory with a request of P1 at the head of its FIFO, and a run in progress. -/
def memory (run : Option MemRun) (f : MemRank → MemRank) : State :=
  let s := st .ready [] [] []
  s.withMem { s.mem with run := run, ports := s.mem.ports.set 1 ⟨[⟨burst0, 0⟩], 0, 0, 0⟩, ranks := s.mem.ranks.set 0 (f MemRank.reset) }

theorem test_witness_memory_runs :
    let b := memory (some ⟨1, 0⟩) id
    let f := memory none (fun x => { x with forcing := true })
    (b.mem.run = some ⟨1, 0⟩ ∧ b.candidate 0 1 = some ⟨burst0, 0⟩ ∧ 0 + 256 ≤ runCap 1) ∧
    (f.mem.run = none ∧ f.forcedDue 0 = some 0) ∧ ((memory none id).forcedDue 0 = none ∧ (memory none id).choose 0 = some 1) ∧
    ((st .ready [] [] []).forcedDue 0 = none ∧ (st .ready [] [] []).choose 0 = none) ∧ runCap 1 < runCap 1 + 256 := by decide

theorem test_witness_memory_ranks :
    let s := st .ready [] [] []
    let o := s.setRank 0 { s.rank 0 with banks := (s.rank 0).banks.set 3 ⟨some 9, 2, 100, 0⟩ }
    (s.power.clocks.dram = true ∧ (st .geode [] [] []).power.clocks.dram = false) ∧
    (s.refreshed 0 = true ∧ s.refreshed 4 = false) ∧
    (((o.rank 0).bank 3).row.isSome = true ∧ ((o.rank 0).bank 3).lastUse + 64 ≤ 164 ∧ (∀ p ∈ o.mem.ports, p.fifo = []) ∧ 163 < ((o.rank 0).bank 3).lastUse + 64) ∧
    ((s.rank 0).bank 3).row = none ∧ s.mem.meterAt + 2000 ≤ (s.at 2000).now ∧ (s.at 1999).now < s.mem.meterAt + 2000 ∧ (1 : Nat) ≠ 0 := by decide

theorem test_witness_memory_care :
    let s := st .ready [] [] []
    let g : Migration := ⟨0, 4, 0, 0, none, false⟩
    let m := s.withMem { s.mem with migration := some g, writeBacks := [(7, 0)] }
    let n := s.withMem { s.mem with migration := some { g with verified := true, copied := copyTicks } }
    let k := s.setRank 0 { s.rank 0 with steps := [1] }
    let x := s.withMem { s.mem with spareTest := some 0 }
    (s.mode.working = true ∧ s.mem.migration = none ∧ s.mem.patrolAt + 64000 ≤ (s.at 64000).now ∧ (s.at 63999).now < s.mem.patrolAt + 64000) ∧
    (∃ e ∈ m.mem.writeBacks, e.1 = 7) ∧ (∀ e ∈ m.mem.writeBacks, e.1 ≠ 8) ∧ (m.mem.migration = some g ∧ g.verified = false) ∧
    (n.mem.migration = some { g with verified := true, copied := copyTicks } ∧ ({ g with verified := true, copied := copyTicks } : Migration).elapsed n.now = copyTicks ∧
      clockTick (n.rank 0).burstEnd ≤ n.now) ∧
    (s.refreshed 0 = true ∧ (s.rank 0).tracked + 20000000 ≤ (s.at 20000000).now ∧ (s.at 19999999).now < (s.rank 0).tracked + 20000000) ∧
    ((k.rank 0).steps ≠ [] ∧ k.forcedDue (4 * k.now) ≠ some 0 ∧ (k.rank 0).burstEnd ≤ 4 * k.now) ∧ (s.rank 0).steps = [] ∧
    (s.spareRank = some 4 ∧ s.mem.spareTest = none ∧ s.mem.spareLast + 86400 * secondTicks ≤ (s.at 17280000000000).now ∧
      (s.at 17279999999999).now < s.mem.spareLast + 86400 * secondTicks) ∧
    (x.spareRank = some 4 ∧ x.mem.spareTest = some 0 ∧ 0 + spareTestTicks ≤ (x.at spareTestTicks).now ∧ (x.at (spareTestTicks - 1)).now < 0 + spareTestTicks) := by decide

theorem test_witness_training :
    let s := st .ready [] [] []
    let g : Migration := ⟨0, 4, 0, 0, none, false⟩
    let m := s.withMem { s.mem with migration := some g }
    m.mem.migration = some g ∧ (m.trainRank g.new true true).mem.migration = some g ∧ (m.trainRank g.new true false).mem.migration = none := by
  refine ⟨rfl, ?_, ?_⟩ <;> rfl

/-- READY with PPS_IN present, its last edge at 0; PTP on at port A with one master; the time base changed as given. -/
def timed (ro g : List (Key × Nat)) (f : TimeBase → TimeBase) : State := let s := st .ready ro g []; s.withTime (f s.time)

theorem test_witness_time :
    let p := timed [(K.timebasePpsPresent, 1)] [] (fun x => { x with pps := { x.pps with lastEdge := some 0 } })
    let s := timed [] [] id
    (p.roGet K.timebasePpsPresent = 1 ∧ p.time.pps.lastEdge = some 0 ∧ p.power.clocks.tdc = true ∧ (st .geode [] [] []).power.clocks.tdc = false) ∧
    (0 + 999999000000 ≤ 199999800 * 5000 + 0 ∧ 200000200 * 5000 + 0 ≤ 0 + 1000001000000) ∧ 199999799 * 5000 + 4999 < 0 + 999999000000 ∧ 0 + 1000001000000 < 200000200 * 5000 + 1 ∧
    s.roGet K.timebasePpsPresent ≠ 1 ∧ (timed [(freqPresent .ref10m, 1)] [] id).roGet (freqPresent .ref10m) ≠ 0 ∧ s.roGet (freqPresent .ensClk) = 0 ∧
    (0 + 1000001000000 ≤ (p.at 200000200).now * 5000 ∧ (p.at 200000199).now * 5000 < 0 + 1000001000000) ∧
    (let a := (timed [(K.timebaseTimeActive, 4), (K.timebaseOcxoAgeing, 1)] [] id).at 1728000000000000
     a.roGet K.timebaseTimeActive = 4 ∧ 10 * 86400 * secondTicks ≤ (a.roInt K.timebaseOcxoAgeing).natAbs * (a.now - a.time.ageAt)) ∧
    ¬ (s.roGet K.timebaseTimeActive = 4) ∧
    (let o := timed [(K.timebaseQuality, 0)] [(K.timebasePpsOutEnable, 1)] id
     o.pG K.timebasePpsOutEnable = 1 ∧ o.mode ≠ .off ∧ o.mode ≠ .save ∧ o.mode ≠ .geode ∧ o.roGet K.timebaseQuality ≠ 3 ∧ o.atWholeSecond 0 = true ∧ o.time.ppsLast = none ∧
      o.time.ppsOut = false ∧ o.atWholeSecond 1 = false) ∧
    (let h := timed [] [] (fun x => { x with ppsOut := true, ppsStart := 0 })
     h.time.ppsOut = true ∧ h.time.ppsStart + 20000000 ≤ (h.at 20000000).now ∧ (h.at 19999999).now < h.time.ppsStart + 20000000) := by decide

theorem test_witness_ptp :
    let on := [(K.timebasePtpEnable .a, 1), (K.timebasePtpEnable .b, 0)]
    let port := fun f => timed [] on (fun x => { x with ptpA := f { PtpPort.idle with masters := [⟨announce0, 0⟩] } })
    let a := port id
    (a.ptpOn .a = true ∧ announce0.domain = a.pG K.timebasePtpDomain) ∧ a.ptpOn .b = false ∧ (a.fromMaster .a 7 = true ∧ a.fromMaster .a 8 = false) ∧
    a.bestMaster .a = some announce0 ∧ a.bestMaster .b = none ∧
    (let f := port (fun x => { x with syncSeq := some (5, 100) })
     (f.time.ptp .a).syncSeq = some (5, 100) ∧ f.fromMaster .a 7 = true) ∧ (a.time.ptp .a).syncSeq = none ∧
    (let d := port (fun x => { x with reqTx := some 50, t1t2 := some (1, 2) })
     (d.time.ptp .a).reqTx = some 50 ∧ (d.time.ptp .a).t1t2 = some (1, 2) ∧ d.fromMaster .a 7 = true ∧ d.pG K.timebasePtpDelayMech = 0 ∧ (d.time.ptp .a).reqSeq ≠ 1) ∧
    (let e := timed [] ((K.timebasePtpDelayMech, 1) :: on) (fun x => { x with ptpA := { PtpPort.idle with reqTx := some 50 } })
     (e.time.ptp .a).reqTx = some 50 ∧ e.ptpOn .a = true ∧ e.pG K.timebasePtpDelayMech = 1) := by decide

theorem test_witness_tdc :
    let inp := fun k f => timed [] [(K.tdcInEnable 1, 0), (K.tdcInNominal 0, 1000)] (fun x => { x with tdc := x.tdc.set k (f TdcIn.idle) })
    let a := inp 0 id
    let e := inp 0 (fun x => { x with lastEdge := some 1000 })
    (a.tdcTakes 5 true = true ∧ 5 ≤ 5 ∧ (a.tdcIn 5).divider + 1 < 10000) ∧ ((inp 5 (fun x => { x with divider := 9999 })).tdcIn 5).divider + 1 = 10000 ∧
    (a.tdcTakes 0 true = true ∧ (a.tdcIn 0).lastEdge = none) ∧ ((e.tdcIn 0).lastEdge = some 1000 ∧ 0 * 5000 + 4999 / 3 * 3 < 1000 + 4000 ∧ 1000 + 4000 ≤ 1 * 5000 + 2 / 3 * 3) ∧
    a.tdcTakes 1 true = false ∧ (a.tdcNominal 0 ≠ 0 ∧ (a.tdcIn 0).gateStart + a.tdcGate 0 ≤ (a.at (a.tdcGate 0)).now ∧ (a.tdcIn 0).gate.length < 3 ∧
      (a.at (a.tdcGate 0 - 1)).now < (a.tdcIn 0).gateStart + a.tdcGate 0) ∧ a.tdcNominal 1 = 0 := by decide

theorem test_witness_tdc_fit : (tdcFit [0, 65536000000000, 2 * 65536000000000] 1000).2.1 ≠ 0 := by norm_num [tdcFit, roundDiv]

/-- RUNNING, with the words in force of channel 2 (a booster) and channel 9 (LED_A), and an LED string of 8. -/
def driven (f : Emitter → Emitter) : State :=
  let s := st .running [(K.emitEmvVoltage, 5000), (K.emitEmvTarget, 5000)] [(K.ledBlinkMs .a, 2), (K.ledCount .a, 8)] []
  let s1 := s.setChan 2 { s.chan 2 with sum := some 100 }
  { s1 with drive := f s1.drive }

theorem test_witness_drive :
    let a := driven id
    let set := a.chSetting 2
    set = 30000 ∧ a.chBad 2 = false ∧
    a.isShort 2 699 = true ∧ (a.isShort 2 700 = false ∧ 29 * 1000 < set ∧ a.chNeed 2 ≤ a.emvNow) ∧
    (a.isShort 2 700 = false ∧ 9 * set ≤ 270 * 1000 ∧ 330 * 1000 ≤ 11 * set) ∧ (¬ 30 * 1000 < set ∧ 30 * 1000 < 9 * set ∧ 11 * set < 331 * 1000) ∧ a.chSetting 3 = 0 ∧
    (let r := driven (fun d => { d with rampA := true })
     r.drive.rampA = true ∧ r.drive.rampB = false) ∧ isBooster 2 = true ∧ isBooster 8 = false ∧
    (a.pG (K.ledBlinkMs .a) * msTicks / 2 ≠ 0 ∧ a.drive.blinkAtA + a.pG (K.ledBlinkMs .a) * msTicks / 2 ≤ (a.at 200000).now ∧ a.mayDrive (9 + Port.a.idx) = true ∧
      a.pG (K.ledCount .a) ≠ 0 ∧ (a.at 199999).now < a.drive.blinkAtA + a.pG (K.ledBlinkMs .a) * msTicks / 2) := by decide

/-- A state of a mode with port A's source present, the hold-up charged, and the power state changed as given. -/
def powered (m : Mode) (ro : List (Key × Nat)) (f : PowerSt → PowerSt) : State :=
  let s := st m ([(srcKey .a, 1), (K.powerHoldVoltage, 57000), (K.powerHoldCapacitanceUf, 300)] ++ ro) [] []
  { s with power := f s.power }

theorem test_witness_sources :
    let a := powered .ready [] id
    (a.present .a = true ∧ a.present .vaux = false ∧ a.mode ≠ .off) ∧ (powered .off [] id).mode = .off ∧ (st .off [(srcKey .vaux, 1)] [] []).present .vaux = true ∧
    (a.power.mpsAt + 250 * msTicks ≤ (a.at 50000000).now ∧ (a.at 49999999).now < a.power.mpsAt + 250 * msTicks) ∧
    (a.power.levelAt + 10 * msTicks ≤ (a.at 2000000).now ∧ (a.at 1999999).now < a.power.levelAt + 10 * msTicks) ∧
    (let b := powered .running [(K.powerShedSteps, 1)] (fun q => { q with fitSince := some 0 })
     b.power.fitSince = some 0 ∧ b.mode = .running ∧ b.lastStep ≠ 0 ∧ b.power.undoing = none ∧ 0 + 10 * secondTicks ≤ (b.at 2000000000).now) ∧ a.power.fitSince = none := by decide

theorem test_witness_modes :
    let r := powered .ready [(K.opticalSeedS0Status, 2), (K.powerLevel, 1)] (fun q => { q with runAsked := true })
    let b := powered .bedrock [] (fun q => { q with clearSince := some 0, warned := true })
    (r.mode = .ready ∧ r.power.runAsked = true ∧ r.seedStatus .s0 = 2 ∧ r.roGet K.powerLevel ≤ 1 ∧ r.health.selftest.running = false) ∧
    (b.power.clearSince = some 0 ∧ b.mode = .bedrock ∧ 0 + b.pG K.powerBedrockExitS * secondTicks ≤ (b.at (b.pG K.powerBedrockExitS * secondTicks)).now) ∧
    r.power.clearSince = none ∧ (r.mode ≠ .off ∧ r.mode ≠ .geode ∧ r.mode ≠ .save ∧ r.power.warned = false) ∧ b.power.warned = true ∧ (st .geode [] [] []).mode = .geode ∧
    (b.mode.measuring = true ∧ (b.power.alarmNext + 1) * alarmUnits ≤ (b.at 20000000).stamp ∧ (b.at 19999999).stamp < (b.power.alarmNext + 1) * alarmUnits) := by decide

theorem test_witness_bedrock_clear :
    let b := st .bedrock [(K.powerGrantVaux, 420)] [] []
    b.usable = 400 ∧ b.bedrockCauses = 0 := by decide

theorem test_witness_case : (powered .ready [] id).caseCenti = 0 := by
  have h9 : (powered .ready [] id).roGet (K.hkChValue 9) = 0 := by decide
  have h10 : (powered .ready [] id).roGet (K.hkChValue 10) = 0 := by decide
  have hz : f32D 0 = 0 := by norm_num [f32D, f32Val]
  unfold State.caseCenti
  simp only [h9, h10, hz]
  norm_num [roundDiv]

theorem test_witness_boot :
    let b := powered .boot [] id
    let f := powered .fault [] (fun q => { q with faultAt := 0, thermal := false })
    let w := powered .running [] id
    let wait := f.pG K.powerFaultRetryS
    (b.mode = .boot ∧ b.power.stuck = false ∧ b.power.recovery = false) ∧ w.mode ≠ .boot ∧
    (f.mode = .fault ∧ wait ≠ 0 ∧ f.power.faultAt + wait * secondTicks ≤ (f.at (wait * secondTicks)).now ∧
      (f.power.retries.filter (fun r => decide (f.now < r + 86400 * secondTicks))).length < 3 ∧ f.power.thermal = false) ∧ ¬ w.mode = .fault ∧
    (w.mode ≠ .off ∧ w.mode ≠ .save ∧ w.power.stuck = false) ∧ (st .off [] [] []).mode = .off ∧
    (let x : State := { w with fw := { w.fw with trial := true, trialDeadline := some 100 } }
     x.fw.trialDeadline = some 100 ∧ x.fw.trial = true ∧ 100 ≤ (x.at 100).now) ∧ w.fw.trialDeadline = none := by decide

theorem test_witness_pfail :
    let w := powered .running [] id
    let n := st .running [] [] []
    let g := powered .geode [] (fun q => { q with geode := some geode0 })
    w.powered = true ∧ n.powered = false ∧ (g.mode = .geode ∧ (g.withPower { g.power with driven := true }).power.geode = some geode0) ∧
    (w.mode ≠ .off ∧ w.mode ≠ .save ∧ w.mode ≠ .geode ∧ (w.withPower { w.power with driven := true }).armed = true) ∧
    (n.withPower { n.power with driven := true }).armed = false ∧
    (let s := powered .save [] (fun q => { q with record := some (saved0, 1), held := true })
     s.mode = .save ∧ s.power.record = some (saved0, 1) ∧ s.power.held = true) ∧ w.power.held = false ∧ (699 : Nat) < 700 ∧ (1500 : Nat) < 1501 := by decide

theorem test_witness_wakes :
    let a := asleep true
    (a.wakes 0 = true ∧ a.wakes (1 + Port.b.idx) = true ∧ a.geodePar (K.powerCmpPolarity .b) = 0 ∧ a.geodePar (K.powerCmpThresholdMv .b) < a.geodePar (K.powerCmpThresholdMv .b) + 1 ∧
      a.geodePar (K.powerCmpPersistUs .b) ≤ a.geodePar (K.powerCmpPersistUs .b)) ∧ State.reset.wakes 1 = false ∧
    (a.power.geode = some geode0 ∧ a.wakes 3 = true ∧ geode0.wake ≤ a.stamp) ∧ (a.wakes 4 = true ∧ geode0.deep = false ∧ geode0.kept = some .a ∧ (a.link .a).up = true) ∧
    (a.power.grantSince = some 0 ∧ a.mode = .geode ∧ geode0.grant = true ∧ 0 + secondTicks ≤ (a.at 200000000).now ∧ (a.at 199999999).now < 0 + secondTicks) ∧
    (geode0.trying = some (.b, 0) ∧ 0 + 10 * secondTicks ≤ (a.at 2000000000).now ∧ (a.at 1999999999).now < 0 + 10 * secondTicks) ∧ State.reset.power.geode = none := by decide

/-- A request with its check value passes the check, whatever it is. -/
theorem stamped (s : State) (h : Hdr) (code : Nat) (body : List Byte) :
    s.checkOk { h with check := checkValue (if code = 1 then 0 else s.moduleId) 0xFF h.request.toNat (hdrBytes h code ++ body) } code body = true := decide_eq_true rfl

/-- A wake datagram whose check value holds (R317). -/
theorem test_witness_wake_datagram : ∃ c : BitVec 32, let h := { h0 with check := c }
    h.version = 1 ∧ h.kind = 0 ∧ h.bodyLen = 0 ∧ (asleep true).checkOk h 0x0084 [] = true := ⟨_, rfl, rfl, rfl, stamped (asleep true) h0 0x0084 []⟩

/-- A kernel image of 10 bundles, one record of 4 bytes to a brick, one output sample. -/
def image0 : List Byte := (List.replicate 128 (0 : Byte)).set 8 10 |>.set 30 1 |>.set 31 4 |>.set 32 1

def btile0 : BTile := { port := .a, k := 0, tdec := 16, delta := 0, readyAt := 0, deadline := 1000, traces := [⟨{ header0 with count := 64 }, 0, 50000, 0, []⟩], flags := 0, records := [], gap := false, failed := false, unsettled := 0, closed := false }

/-- RUNNING, with core 0 in its TILE entry of instance 0, changed as given. -/
def inTile (f : BCore → BCore) : State :=
  let s := st .running [] [] []
  let c := { s.core 0 with run := .tile, inst := some 0, needInit := false }
  let s1 := s.setSlot 0 { s.slot 0 with image := image0 }
  (s1.setInst 0 { s1.inst 0 with bank := ⟨1, ⟨[(K.basaltInstEnable 0, 1), (K.basaltInstScratchMib 0, 1), (K.basaltInstPointsCount 0, 64)]⟩⟩, on := true, restart := false, tile := some btile0 }).setCore 0 (f c)

theorem test_witness_core_issues :
    (inTile id).canIssue 0 ∧ ¬ (State.reset.canIssue 0) ∧ accessFault 0 64 false = none ∧ accessFault 0x3FEC0 64 true = none ∧ accessFault 0x3FFC0 64 false = none ∧
    accessFault 0x3FF00 64 true = some 2 ∧ accessFault 0x40000 4 false = some 2 ∧ accessFault 2 4 false = some 3 ∧ modeReserved 6 = true ∧ modeReserved 5 = false ∧
    (m0.core = 0 ∧ s0.core = 0 ∧ x0.core = 0 ∧ v0.core = 0 ∧ mm0.core = 0 ∧ c0.core = 0) ∧
    (laneN false = 32 ∧ laneN true = 16) ∧ ((inTile id).core 0).mfcRead 0 0x29 = some 0 ∧ ((inTile id).core 0).mfcRead 0 0x2A = none ∧ ((inTile id).at 5).canIssue 0 := by
  unfold State.canIssue
  decide

/-- Core 0 in its TILE entry with a descriptor of one operation at address 0. -/
def withDescriptor (op : Byte) : State := inTile (fun x => { x with mem := if op = 0 then [] else [(0, op)] })

def isGood (op : Byte) : Bool :=
  let s := withDescriptor op
  let r := (s.opened 0).loadBytes 0 0 32
  (s.core 0).sreg 1 == 0 && decide (((s.opened 0).core 0).dma.getD 0 none = none) && descriptorForm r.1 && (s.opened 0).descriptorFits 0 (descriptorOf r.1) &&
    decide ((descriptorOf r.1).op = op.toNat)

set_option maxRecDepth 20000 in
theorem test_witness_descriptors : isGood 0 = true ∧ isGood 1 = true ∧ isGood 2 = true ∧ isGood 3 = true ∧ isGood 4 = false := by decide

def dma0 : BDma := ⟨0, 0, false, false, 0, 0, 0, 0, 0, 0⟩

set_option maxRecDepth 20000 in
theorem test_witness_core_events :
    let int := inTile (fun x => { x with first := false, ke := (x.ke.set 1 1).set 2 1 |>.set 3 1, needInit := false })
    let ready := (inTile id).setInst 0 { (inTile id).inst 0 with tile := some { btile0 with closed := true } }
    let bank : Bank := ⟨1, ⟨[(K.basaltInstEnable 0, 1)]⟩⟩
    let entry : State := { ready with basalt := { ready.basalt with ready := { ready.basalt.ready with a := some ⟨1, 16, 0, [⟨header0, 0, 50000, 0, []⟩]⟩ } }, cfg := { ready.cfg with histA := [bank] } }
    (entry.mode = .running ∧ (∀ y, (entry.inst 0).tile = some y → y.closed = true) ∧ (entry.tileFor 0 .a).isSome = true) ∧
    (int.coreInside 0 = true ∧ (int.core 0).tending = false ∧ (int.core 0).interruptible = true ∧ (int.core 0).interruptDue = true) ∧
    ((inTile (fun x => { x with ke := x.ke.set 7 1 })).core 0).keAt 7 ≠ 0 ∧
    (((inTile id).setInst 0 { (inTile id).inst 0 with bank := ⟨1, ⟨[(K.basaltInstDeadlineWarn 0, 10)]⟩⟩ }).inst 0).par (K.basaltInstDeadlineWarn 0) ≠ 0 ∧
    ((inTile (fun x => { x with dma := [some dma0, none, none, none] })).core 0).dma.getD 0 none = some dma0 := by decide

/-- The core after its channel 0 is done: frozen or ending, with another channel still busy or not. -/
def afterDma (frozen tending other : Bool) : BCore :=
  let s := inTile (fun x => { x with dma := [some dma0, if other then some dma0 else none, none, none], frozen := frozen, tending := tending, wait := if frozen then some 3 else none })
  let s1 := s.transfer 0 dma0
  { (s1.core 0) with dma := (s.core 0).dma.set 0 none }

set_option maxRecDepth 20000 in
theorem test_witness_transfer_done :
    ((afterDma false false false).frozen = false ∧ (afterDma false false false).tending = false) ∧
    ((afterDma true false true).frozen = true ∧ Nat.land (afterDma true false true).dmaBusy ((afterDma true false true).wait.getD 0) ≠ 0) ∧
    ((afterDma true false false).frozen = true ∧ Nat.land (afterDma true false false).dmaBusy ((afterDma true false false).wait.getD 0) = 0) ∧
    ((afterDma false true false).frozen = false ∧ (afterDma false true false).tending = true ∧ (afterDma false true false).dmaBusy = 0) := by decide

set_option maxRecDepth 20000 in
theorem test_witness_core_faults :
    let a := (inTile id).at 1000
    ((a.core 0).inst = some 0 ∧ (a.inst 0).tile = some btile0 ∧ btile0.closed = false ∧ btile0.deadline ≤ a.now ∧ a.coreInside 0 = true ∧ (a.core 0).tending = false) ∧
    ((a.core 0).role ≠ 2 ∧ (a.core 0).role ≠ 1 ∧ (a.core 32).role = 1 ∧ a.freeSpare = some 32) ∧
    (let b := (a.setCore 32 { a.core 32 with takes := some (0, 0) }).setCore 33 { a.core 33 with takes := some (1, 0) }
     b.freeSpare = none ∧ (b.core 32).takes = some (0, 0) ∧ b.mode = .running) := by decide

/-! ### Bundles: words written out from the slot forms of R185 and R186 -/

/-- A bundle of three slots. -/
def bundle (a b c : Nat) : Nat := a + b * 2 ^ 42 + c * 2 ^ 84

/-- VLD V5, [A2] mode 1 with increment 64; VMAC ACC3, V7, V8; BRZ S4 two bundles back. -/
theorem test_bundle_vld_vmac_brz : bundleOps 3 (bundle 0b000001000101010001000000000000000001000000 0b000001011000111001000000100011110110000000 0b110001000100000000000000000001111111111110) =
    some [.m "VLD" ⟨3, 5, 2, 1, 64, false⟩, .x "VMAC" ⟨3, 3, 7, 8, 2, 15, 1, 2, false⟩ 0, .c "BRZ" ⟨3, 4, 0, 0x1FFE, 0, 0, 0, 0, 0, 0, false⟩] := by decide

/-- VLD2 V2 and V3 from A1 and A4; ACCRD16 V2 from ACC1 with shift 3, half to even; SMUL S1, S2, S3. -/
theorem test_bundle_vld2_accrd16_smul : bundleOps 3 (bundle 0b000011000010001011100000000000000010000000 0b001001001000010000000000000000111000000000 0b011011000001000100001100000000000000000000) =
    some [.m2 "VLD2" ⟨3, 2, 1, 3, 4, 0, 128, false⟩, .x "ACCRD16" ⟨3, 1, 2, 0, 0, 3, 2, 0, false⟩ 0, .s "SMUL" ⟨3, true, 1, 2, 3, 0, false⟩ 0] := by decide

/-- DMA of the descriptor S9 names on channel 2; VADD V3, V4, V5 in 32-bit lanes. -/
theorem test_bundle_dma_vadd : bundleOps 3 (bundle 0b100000000000010010000000000000000000000010 0 0b000001000011000100000101100000000000000111) =
    some [.s "DMA" ⟨3, false, 0, 9, 0, 2, false⟩ 0, .nop 3, .v "VADD" ⟨3, 3, 4, 5, true, false, 7, false⟩] := by decide

/-- CRCSEED of unit 2 with S1 and S6; LOOPA S3 from 5 to 9. -/
theorem test_bundle_crcseed_loopa :
    bundleOps 3 (bundle 0 0 0b111110000001100010000000000110000000000000) = some [.nop 3, .nop 3, .c "CRCSEED" ⟨3, 1, 0, 0, 0, 0, 0, 2, 6, 0, false⟩] ∧
    bundleOps 3 (bundle 0 0 0b110110000011000000000000000101000000001001) = some [.nop 3, .nop 3, .c "LOOPA" ⟨3, 3, 0, 0, 5, 9, 0, 0, 0, 0, false⟩] := by decide

/-- R187: an odd Vd of VLD2, a reserved bit of forms S, X and C, bit 127, and an opcode its slot does not have. -/
theorem test_bundle_refused :
    bundleOps 3 (bundle (0b000011000010001011100000000000000010000000 + 2 ^ 30) 0 0) = none ∧ bundleOps 3 (bundle 0 0 (0b011011000001000100001100000000000000000000 + 2 ^ 16)) = none ∧ bundleOps 3 (bundle 0 (0b000001011000111001000000100011110110000000 + 1) 0) = none ∧
    bundleOps 3 (bundle 0 0 (0b110001000100000000000000000001111111111110 + 2 ^ 13)) = none ∧ bundleOps 3 (2 ^ 127) = none ∧ bundleOps 3 (bundle (0x3F * 2 ^ 36) 0 0) = none := by decide

/-- A well-formed request on pair 1 with its check value. -/
def request0 (s : State) (code : Nat) (body : List Byte) : Hdr :=
  let h := { h0 with bodyLen := body.length }
  { h with check := checkValue (if code = 1 then 0 else s.moduleId) 0xFF 1 (hdrBytes h code ++ body) }

/-- The module once a request of `request0` has come in: it does not depend on the request's code and body. -/
def came (s : State) : State := s.comeIn h0

theorem comeIn_request0 (s : State) (code : Nat) (body : List Byte) : s.comeIn (request0 s code body) = came s := rfl

/-- Pair 1 is open and served, the client is new, and there is room for an answer. -/
def ready1 (s : State) : Bool :=
  (s.at 0).servedOn 1 && ((s.at 0).pair 1).open_ && ((came s).dupClient 1).isNone && decide (((came s).pair 1).waiting < 8) && (came s).mode != Mode.boot

/-- Every command code and body can come in and be executed there. -/
theorem ready1_admits (s : State) (h : ready1 s = true) (code : Nat) (body : List Byte) : s.admits code (request0 s code body) body := by
  simp only [ready1, Bool.and_eq_true, decide_eq_true_eq, bne_iff_ne, ne_eq, Option.isNone_iff_eq_none] at h
  obtain ⟨⟨⟨⟨hs, ho⟩, hd⟩, hw⟩, hb⟩ := h
  refine ⟨?_, ?_, by show (1 : BitVec 64) ≠ 0; decide, ?_, hw, rfl, rfl, rfl, fun h => absurd h hb⟩
  · show ((s.at 0).servedOn 1 && ((s.at 0).pair 1).open_ && decide ((1 : Nat) ≤ 6) && ((1 : Nat) != 0 || _)) = true
    rw [hs, ho]
    rfl
  · unfold State.checkOk
    rw [show (s.comeIn (request0 s code body)).moduleId = s.moduleId from rfl]
    exact decide_eq_true rfl
  · show match (came s).dupClient 1 with | none => True | some _ => _
    rw [hd]
    trivial

theorem test_witness_admits : ready1 serving = true ∧ (∀ (code : Nat) (body : List Byte), serving.admits code (request0 serving code body) body) :=
  ⟨by decide, ready1_admits serving (by decide)⟩

def isOk : Answer → Bool
  | .ok _ _ => true
  | _ => false
def isErr : Answer → Bool
  | .err r _ _ _ => r != E.busy
  | _ => false

set_option maxRecDepth 20000 in
theorem test_witness_reads :
    let a := came serving
    isErr (Answer.fail E.format) = true ∧ isErr (a.cfgGet false 0 ["no.such"]) = true ∧ isOk (a.cfgGet false 0 ["port.a.enable"]) = true ∧
    isOk (page [] 0) = true ∧ isErr (page [] 1) = true ∧ isErr (a.tdcRead 9 0 0) = true ∧ isOk (a.eventRead 0 1) = true ∧ isErr (a.kernelSnapshot 0 0 0) = true ∧
    isOk (a.tdcRead 0 0 1) = true ∧ (a.linkTest 1 = none ∧ (1 : Nat) < 10) ∧
    (let t : State := { serving with health := { serving.health with linkTests := serving.health.linkTests.set 1 (some ⟨0, none, none, 5, 0⟩) } }
     let e : State := { serving with health := { serving.health with linkTests := serving.health.linkTests.set 1 (some ⟨0, none, none, 0, 0⟩) } }
     ready1 t = true ∧ (came t).linkTest 1 = some ⟨0, none, none, 5, 0⟩ ∧ ready1 e = true ∧ (came e).linkTest 1 = some ⟨0, none, none, 0, 0⟩) ∧
    isOk (page [[0]] 0) = true := by decide

/-- Entries of a CFG_SET: one that is stored, one that is not. -/
def goodEntry : Entry := ⟨"port.a.enable", .u64 1⟩
def badEntry : Entry := ⟨"no.such", .u64 1⟩

set_option maxRecDepth 20000 in
theorem test_witness_config_requests :
    let a := came serving
    a.cfg.frozen = false ∧ pathFits goodEntry.path = true ∧ Val.formed goodEntry.val = true ∧
    (setEntries 0 [goodEntry] a.cfg.draft).isRight = true ∧ (match setEntries 0 [badEntry] a.cfg.draft with | .inl (code, i, _) => code != E.busy && i == 0 | .inr _ => false) = true ∧
    (match a.validate 99 none with | some (.err result _ _ _) => result != E.busy | _ => false) = true ∧ a.roGet K.timebasePpsPresent = 0 ∧
    (let b := (st .ready [(K.timebasePpsPresent, 1)] [] []).setPair 1 { Session.closed with open_ := true }
     let c := b.setLink .a { b.link .a with up := true }
     ready1 c = true ∧ (came c).roGet K.timebasePpsPresent ≠ 0) := by decide

/-- `serving` with port A's source and a grant of 71.3 W. -/
def granted : State :=
  let b := (st .ready [(srcKey .a, 3), (grantKey .a, 713)] [] []).setPair 1 { Session.closed with open_ := true }
  b.setLink .a { b.link .a with up := true }

set_option maxRecDepth 100000 in
theorem test_witness_commit_validates : ready1 granted = true ∧ (came granted).validate 0 none = none := by decide +kernel
/-- A small kernel image: one bundle of NOPs (R213); its check value is its CRC-32C, which the module's own CRC gives (test_crc32c pins that CRC). -/
def smallImage : List Byte :=
  le 4 0x544C5342 ++ le 2 1 ++ le 2 0 ++ le 2 1 ++ le 2 0 ++ le 2 0 ++ le 2 0 ++ le 4 0 ++ le 4 0 ++ le 4 0 ++ le 2 1 ++ le 1 1 ++ le 1 4 ++ le 2 1 ++ le 2 0 ++ le 1 0 ++ le 1 1 ++
    le 1 1 ++ le 1 0 ++ le 4 0 ++ le 4 0 ++ List.replicate 16 0 ++ List.replicate 56 0 ++ le 4 144 ++ le 4 1907294253 ++ List.replicate 16 0

theorem test_small_image : imageOk smallImage = true ∧ imageOk (smallImage.set 143 1) = false := by decide +kernel

def captured0 : Capture := { number := 5, truncated := false, cut := false, merged := false, complete := true, limited := false, host := true, lost := 0, profile := 0, condMask := 0, trig := 0, wStart := 0, wEnd := 1000, ranges := ⟨some (0, 100), none⟩, traces := ⟨0, 0⟩, refPort := none, refTrace := 0, openedAt := 0, reserved := 0, records := [], done := [], completedAt := 0, sends := [], derives := 0, releasing := false, auto := 0 }

/-- `granted` with a capture held and stream 3 a CAPTURE stream. -/
def holding : State :=
  let a : State := { granted with trig := { granted.trig with captures := [captured0] } }
  a.setStream 3 { a.stream 3 with bank := ⟨1, ⟨[(K.streamEnable 3, 1), (K.streamKind 3, 5)]⟩⟩ }

/-- `granted` with a load of slot 2 in progress, of client 1, all but its last byte there. -/
def loading : State := granted.setSlot 2 { granted.slot 2 with loading := some (1, 144, false, smallImage.take 143) }

/-- `granted` with the runs of both ports' records begun long ago. -/
def early : State := { granted with trig := { granted.trig with runs := ⟨⟨some (-2000000000000000000), false, []⟩, ⟨some (-2000000000000000000), false, []⟩⟩ } }

def derive1 : DeriveReq := { derive0 with capture := 5, mode := 1, factor := 1, gauge := 10, stream := 3, count := 16 }

theorem test_witness_loads_and_captures :
    (ready1 loading = true ∧ (2 : Nat) < 8 ∧ (came loading).slotTaken 2 = false ∧ (((came loading).slot 2).releasing || (came loading).slotInUse 2) = false ∧ 144 ≤ 1048576 ∧
      (bitOf 0 0 && !((came loading).persistFits 2 144)) = false ∧ bitOf 0 1 = false ∧ bitOf 2 1 = true ∧ bitOf 2 0 = false ∧ (143 : Nat) ≠ 0 ∧
      ((came loading).slot 2).loading = some ((request0 loading 0 []).client, 144, false, smallImage.take 143) ∧ 143 = (smallImage.take 143).length ∧
      (smallImage.take 143 ++ [0]).length = 144 ∧ imageOk (smallImage.take 143 ++ [0]) = true) ∧
    (ready1 early = true ∧ h0.pair ≠ 7 ∧ tsOk (TS96bits ts0) = true ∧ (came early).prefillShort 0 (stampOfBits (TS96bits ts0)) = false ∧
      ((came early).openCapture 0 (stampOfBits (TS96bits ts0)) 0 true none 0).2.isSome = true) ∧
    (ready1 holding = true ∧ (came holding).usable? 5 = .inr captured0 ∧ (came holding).captureStream 3 = true ∧ (came holding).usable? derive1.capture = .inr captured0 ∧
      deriveFits derive1 captured0 = true ∧ (came holding).captureStream derive1.stream = true ∧ (came holding).trig.derives.length < 9 ∧ (came holding).capture 5 = some captured0) := by
  decide +kernel

/-- `granted` with the firmware update as given. -/
def updating (f : Fw → Fw) : State := { granted with fw := f granted.fw }

theorem test_witness_firmware :
    let none_ := updating (fun x => { x with owner := none, trial := false })
    let mine := updating (fun x => { x with owner := some 1, trial := false, expected := 10, received := 2, active := .a, running := .a, b := ⟨.writing, 0, 0, 0, [], false⟩ })
    let full := updating (fun x => { x with owner := some 1, trial := false, expected := 2, received := 2, active := .a, running := .a, b := ⟨.writing, 0, 0, 0, [], false⟩ })
    let valid := updating (fun x => { x with owner := some 1, trial := false, active := .a, b := ⟨.valid, 0, 0, 0, [], false⟩ })
    let trial := updating (fun x => { x with owner := none, trial := true })
    let other := updating (fun x => { x with owner := some 2 })
    (ready1 none_ = true ∧ (came none_).fwForeign 1 = false ∧ (came none_).fw.trial = false ∧ (came none_).finishing = false ∧
      ((came none_).fw.running ≠ (came none_).fw.target ∨ (came none_).power.recovery = true)) ∧
    (ready1 mine = true ∧ (came mine).fwForeign 1 = false ∧ (came mine).fw.owner = some 1 ∧ ((came mine).fw.image (came mine).fw.target).state = .writing ∧
      (came mine).finishing = false ∧ 2 = (came mine).fw.received ∧ 2 + 8 ≤ (came mine).fw.expected) ∧
    (ready1 full = true ∧ ((came full).fw.image (came full).fw.target).state = .writing ∧ (came full).fw.received = (came full).fw.expected) ∧
    (ready1 valid = true ∧ (came valid).fwForeign 1 = false ∧ (came valid).fw.active ≠ Port.ofIdx 1 ∧ ((came valid).fw.image (Port.ofIdx 1)).state = .valid) ∧
    (ready1 trial = true ∧ (came trial).fwForeign 1 = false ∧ (came trial).fw.trial = true) ∧ (ready1 other = true ∧ (came other).fwForeign 1 = true) := by decide +kernel

def job0 (w : JobWork) : Job := ⟨1, 0x0016, 1, 1, w⟩

theorem test_witness_background :
    State.reset.jobs = [] ∧
    (let a : State := { granted with jobs := [job0 .cfgErase], fw := { granted.fw with b := ⟨.writing, 0, 0, 0, [], false⟩, active := .a } }
     a.jobs = job0 .cfgErase :: [] ∧ (job0 .cfgErase).work ≠ .fwFinish ∧ ((a.at 0).fw.image (a.at 0).fw.target).state = .writing) ∧
    (job0 (.cfgSave PSet.reset)).work = .cfgSave PSet.reset ∧ (job0 (.fwWrite 2 [0])).work = .fwWrite 2 [0] ∧ (job0 .fwFinish).work = .fwFinish ∧
    (job0 (.kernelPersist 2 0 (imageCheck []))).work = .kernelPersist 2 0 (imageCheck []) ∧ (granted.slot 2).image.length = 0 ∧ imageCheck (granted.slot 2).image = imageCheck [] := by
  decide +kernel

/-- A state of a mode with pair 1 open and served. -/
def openIn (m : Mode) (f : PowerSt → PowerSt) : State :=
  let b := (st m [] [] []).setPair 1 { Session.closed with open_ := true }
  let c := b.setLink .a { b.link .a with up := true }
  c.withPower (f c.power)

theorem test_witness_state_commands :
    (ready1 granted = true ∧ (came granted).mode.working = true ∧ (came granted).health.selftest.running = false ∧ (came granted).mode.measuring = false) ∧
    (1 ≤ 1 ∧ 8 % 32 ≠ 0 ∧ tsOk (TS96bits ⟨5, 0, 0⟩) = true ∧ (bitOf 8 3 = true ∧ (came (openIn .running id)).stamp < stampOfBits (TS96bits ⟨5, 0, 0⟩))) ∧
    (ready1 (openIn .running id) = true ∧ (came (openIn .running id)).mode = .running) ∧ (ready1 (openIn .bedrock id) = true ∧ (came (openIn .bedrock id)).mode = .bedrock) ∧
    (ready1 (openIn .fault id) = true ∧ (came (openIn .fault id)).mode.working = false) := by decide +kernel

/-- A member of the ensemble with a status. -/
def member0 (status : Nat) (absent : Option Tick) : Member := ⟨7, none, 0, 0, absent, status, [], 0xFFFFFFFF, 0⟩

/-- A member of ensemble 9 in READY, alone with one peer; the module ID is 1 here. -/
def ensembled (f : Ensemble → Ensemble) : State :=
  let g : State := { granted with moduleId := 1, cfg := { granted.cfg with actG := ⟨1, ⟨[(K.ensId, 9)]⟩⟩, live := ⟨[(K.ensId, 9)]⟩ } }
  let h := (g.roSet K.ensMajor g.ownMajor).roSet K.ensStatus 0
  { h with ens := f { h.ens with members := [member0 0 none] } }

theorem test_witness_tests_and_ensembles :
    let a := came granted
    ((8 : Nat) < 64 ∧ a.health.selftest.running = false ∧ (∀ i ∈ testsOf 8, a.testAllowed i = true) ∧ bitOf 8 3 = true ∧ bitOf 1 3 = false ∧ (∀ i ∈ testsOf 1, a.testAllowed i = true)) ∧
    (ready1 (openIn .running id) = true ∧ 0 ∈ testsOf 1 ∧ (came (openIn .running id)).testAllowed 0 = false) ∧
    (a.linkTesting 0 = false ∧ a.mode = .ready ∧ (1 : Nat) ≤ 3600) ∧
    (let b := ensembled (fun e => { e with members := [member0 5 (some 0)] })
     ready1 b = true ∧ (came b).member 7 = some (member0 5 (some 0)) ∧ (member0 5 (some 0)).absent.isSome = true) ∧
    (let b := ensembled id
     let soon : TS96 := ⟨5, 0, 0⟩
     ready1 b = true ∧ (came b).member 7 = some (member0 0 none) ∧ (member0 0 none).absent = none ∧ (came b).ensRefused [] = false ∧ (came b).ens.coord = none ∧
      (came b).tableIds.all (fun id => takesPart (((came b).statusById id).getD 0)) = true ∧ (came b).namedOk soon = true ∧
      tsOk (TS96bits soon) = true ∧ (0 : Nat) ≤ 7) ∧
    (∀ e ∈ bodySizes, e.1 ≠ (0x7777 : BitVec 16).toNat) ∧ ((0x0002, 0, 0) ∈ bodySizes ∧ bodyFits 0x0002 3 = false) := by decide +kernel

/-- The branches of SELFTEST, LINK_TEST, ENS_COMMIT and ENS_CAPTURE_AT are met: with and without a free spare rank, in READY and RUNNING, at both policies, with and
without this module among the members asked, and with the capture opened or refused. -/
theorem test_witness_branches :
    let a := came granted
    (bitOf 8 3 = true ∧ a.spareRank.isSome = true ∧ a.mem.spareTest = none ∧ (bitOf 1 3 = false)) ∧
    ((1 : Nat) < 10 ∧ (1 : Nat) ≠ 0 ∧ (0 : BitVec 64) = 0 ∧ (7 : BitVec 64) ≠ 0 ∧ a.linkTesting 1 = false ∧ a.mode = .ready) ∧
    (let r := openIn .running id
     ready1 r = true ∧ (came r).linkTesting 0 = false ∧ (came r).mode = .running) ∧
    (let b := ensembled id
     (1 : Nat) ≤ 1 ∧ ([] : List (BitVec 64 × Nat)).length ≤ 128 ∧ (came b).tableIds.contains (came b).moduleId = true ∧ ([7] : List (BitVec 64)).contains (came b).moduleId = false ∧
       (came b).ensRefused [7] = false) ∧
    (let own := fun (x : State) => ((came x).withEns { (came x).ens with count := 1, caps := [⟨1, (came x).now, [1], []⟩] }).captureFor (stampOfBits (TS96bits ts0)) 0
     let b := ensembled id
     (own b).2.isLeft = true ∧ (own { b with trig := early.trig }).2.isRight = true) := by decide +kernel

def hb9 : Heartbeat := { heartbeat0 with id := 7, ensId := 9 }
def coord0 : Coord := { txn := 1, named := ts0, deadline := 100, available := false, parts := [(7, 0)], excluded := [], votes := [] }
def prepared0 : Prepared := { coordinator := 7, txn := 1, named := ⟨5, 0, 0⟩, rev := 0, asked := false }

theorem test_witness_members :
    let a := ensembled id
    (a.peersServed = true ∧ (7 : BitVec 64) ≠ a.moduleId) ∧ (State.reset.peersServed = false) ∧
    (hb9.checkOk = true ∧ hb9.id ≠ a.moduleId ∧ hb9.ensId.toNat = a.ensId ∧ (a.member hb9.id).isSome = true ∧ ({ hb9 with ensId := 8 } : Heartbeat).ensId.toNat ≠ a.ensId ∧
      ({ hb9 with checkOk := false } : Heartbeat).checkOk = false ∧ a.member 8 = none) ∧
    (a.ens.hbAt + secondTicks ≤ (a.at 200000000).now ∧ (a.at 199999999).now < a.ens.hbAt + secondTicks) ∧
    (let c := ensembled (fun e => { e with conns := [(7, 0)] })
     ((7 : BitVec 64), (0 : Tick)) ∈ c.ens.conns ∧ 0 + 60 * secondTicks ≤ (c.at 12000000000).now) ∧
    (a.member 7 = some (member0 0 none) ∧ (member0 0 none).absent = none ∧ (member0 0 none).heard + a.pG K.ensLostS * secondTicks = (a.at (a.pG K.ensLostS * secondTicks)).now ∧
      (a.at 0).now < (member0 0 none).heard + a.pG K.ensLostS * secondTicks) ∧
    (let g := ensembled (fun e => { e with members := [member0 5 (some 0)] })
     g.member 7 = some (member0 5 (some 0)) ∧ 0 + g.pG K.ensForgetS * secondTicks = (g.at (g.pG K.ensForgetS * secondTicks)).now ∧ (g.at 0).now < 0 + g.pG K.ensForgetS * secondTicks) := by
  decide +kernel

theorem test_witness_transactions :
    let a := ensembled id
    let b := a.heardFrom 7
    (prepare0.checkOk = true ∧ a.member prepare0.coordinator = some (member0 0 none) ∧ b.ens.voted.find? (fun e => e.1 == prepare0.coordinator && e.2.1 == prepare0.txn) = none) ∧
    (let v := ensembled (fun e => { e with voted := [(7, 1, vote0)] })
     (v.heardFrom 7).ens.voted.find? (fun e => e.1 == prepare0.coordinator && e.2.1 == prepare0.txn) = some (7, 1, vote0)) ∧
    a.member ({ prepare0 with coordinator := 8 } : Prepare).coordinator = none ∧
    (let c := ensembled (fun e => { e with coord := some coord0 })
     vote0.checkOk = true ∧ (c.heardFrom vote0.member).ens.coord = some coord0 ∧ coord0.txn = vote0.txn ∧ vote0.member ∈ coord0.missing ∧
      ((c.heardFrom vote0.member).member vote0.member).isSome = true ∧ (((c.heardFrom vote0.member).member vote0.member).getD (member0 2 none)).status ≠ 2 ∧
      coord0.deadline ≤ ({ c with now := 200000000 } : State).stamp ∧ (c.at 0).stamp < { coord0 with deadline := 1000000000000000000000 }.deadline) ∧
    (a.heardFrom vote0.member).ens.coord = none ∧
    (let p := ensembled (fun e => { e with prepared := some prepared0 })
     let q := ensembled (fun e => { e with prepared := some { prepared0 with asked := true } })
     (p.heardFrom 7).preparedFor 7 1 = some prepared0 ∧ (q.heardFrom 7).preparedFor 7 1 = some { prepared0 with asked := true } ∧ p.ens.prepared = some prepared0 ∧
      prepared0.instant - secondUnits / 4 ≤ (p.at 1000000000).stamp ∧ prepared0.instant - secondUnits / 10 ≤ (p.at 1000000000).stamp ∧
      (p.at 0).stamp < prepared0.instant - secondUnits / 10) := by
  decide +kernel

theorem test_witness_ensemble_time :
    let a := ensembled id
    let up := a.setLink .a { a.link .a with up := true }
    let down := (a.setLink .a { a.link .a with up := false }).setLink .b { a.link .b with up := false }
    (a.peersServed = true ∧ (a.member 7).isSome = true ∧ ((a.heardFrom 7).member 7).isSome = true) ∧
    (up.ens.checkAt + secondTicks ≤ (up.at 200000000).now ∧ up.linksUp = Port.a :: [] ∧ down.linksUp = [] ∧ down.peersServed = true) ∧
    (a.ens.evalAt + secondTicks ≤ (a.at 200000000).now ∧ (a.ens.members.filter a.near).length < 2) ∧ State.reset.peersServed = false := by
  decide +kernel

theorem test_witness_health :
    let a := st .ready [] [] []
    let x := a.health
    (a.mode.working = true ∧ (5 : Nat) < 2048 ∧ (0 : Nat) < 4 ∧ (st .fault [] [] []).mode.working = false) ∧
    (x.telAt + 60 * secondTicks ≤ (a.at 12000000000).now ∧ (a.at 11999999999).now < x.telAt + 60 * secondTicks) ∧
    (x.hourAt + hourTicks ≤ (a.at hourTicks).now ∧ (a.at (hourTicks - 1)).now < x.hourAt + hourTicks) ∧
    (1 = ((a.at hourTicks).now - x.lifeAt) / hourTicks ∧ (a.at (hourTicks - 1)).now < x.lifeAt + hourTicks) ∧
    (x.wavelengthDue ≤ (a.at (24 * hourTicks)).now ∧ (State.reset.at 0).now < { x with wavelengthDue := 1 }.wavelengthDue) := by
  decide +kernel

theorem test_witness_tests_end :
    let t := fun (mask : Nat) => ({ st .ready [] [] [] with health := { State.reset.health with selftest := ⟨mask, 0, 0, true, 0, none, List.replicate 6 0⟩ } } : State)
    let ran := fun (mask : Nat) => (testsOf mask).filter (fun i => !(bitOf 0 i))
    let y := fun (p : Option (Port × Bool)) => (⟨0, some 10, p, 0, 0⟩ : LinkTest)
    let l := fun (p : Option (Port × Bool)) => ({ st .ready [] [] [] with health := { State.reset.health with linkTests := State.reset.health.linkTests.set 0 (some (y p)) } } : State)
    ((t 1).health.selftest.running = true ∧ 0 + sumN ((ran 1).map testTicks) ≤ ((t 1).at 100000000000).now ∧ 2 ∉ ran 1 ∧ 2 ∈ ran 4 ∧
      0 + sumN ((ran 4).map testTicks) ≤ ((t 4).at 100000000000).now ∧ State.reset.health.selftest.running = false) ∧
    ((l none).linkTest 0 = some (y none) ∧ (y none).until_ = some 10 ∧ 10 ≤ ((l none).at 10).now ∧ (y none).port = none ∧ ((l none).at 9).now < 10 ∧
      (l (some (.a, true))).linkTest 0 = some (y (some (.a, true))) ∧ (y (some (.a, true))).port = some (.a, true)) ∧
    (let r := st .running [] [] []
     r.mode = .running ∧ (9 : Nat) < 10 ∧ r.health.linkAt.getD 9 0 + secondTicks ≤ (r.at 200000000).now ∧ State.reset.mode ≠ .running) := by
  decide +kernel

/-- Of any request there is one with a check value that does not hold. -/
theorem wrong_check (id : Nat) (h : Hdr) (code : Nat) (body : List Byte) : ∃ c : BitVec 32, c ≠ crc32c (le 8 id ++ le 1 0xFF ++ le 4 h.request.toNat ++ (hdrBytes { h with check := c } code ++ body)) := by
  generalize q : crc32c (le 8 id ++ le 1 0xFF ++ le 4 h.request.toNat ++ (hdrBytes h code ++ body)) = v
  refine ⟨if v = 0 then 1 else 0, ?_⟩
  show (if v = 0 then (1 : BitVec 32) else 0) ≠ crc32c (le 8 id ++ le 1 0xFF ++ le 4 h.request.toNat ++ (hdrBytes h code ++ body))
  rw [q]
  split
  · rename_i h
    rw [h]
    decide
  · rename_i h
    exact fun e => h e.symm

theorem test_witness_failed_check : ∃ c : BitVec 32, let h := { h0 with check := c }
    asRequest (.ping h) = some (2, h, []) ∧ (serving.at 0).reaches h 2 [] = true ∧
      h.check ≠ crc32c (le 8 (if (2 : Nat) = 1 then 0 else (came serving).moduleId.toNat) ++ le 1 0xFF ++ le 4 h0.request.toNat ++ (hdrBytes h 2 ++ [])) := by
  obtain ⟨c, q⟩ := wrong_check (if (2 : Nat) = 1 then 0 else (came serving).moduleId.toNat) h0 2 []
  refine ⟨c, rfl, ?_, q⟩
  show ((serving.at 0).servedOn 1 && ((serving.at 0).pair 1).open_ && decide ((1 : Nat) ≤ 6) && ((1 : Nat) != 0 || _)) = true
  rw [show (serving.at 0).servedOn 1 = true by decide, show ((serving.at 0).pair 1).open_ = true by decide]
  rfl

/-- `serving` with a cached client 1 of newest number `n` and entries. -/
def cached (n : BitVec 32) (es : List DupEntry) : State := { serving with dup := [⟨1, n, es, 0⟩] }
def pong : Resp := ⟨2, 1, 1, 0, false, 0, []⟩

/-- A request that comes again passes its check and finds its client, whatever the cache holds. -/
theorem cached_finds (n : BitVec 32) (es : List DupEntry) (code : Nat) (body : List Byte) :
    ((cached n es).comeIn (request0 serving code body)).checkOk (request0 serving code body) code body = true ∧
      ((cached n es).comeIn (request0 serving code body)).dupClient (request0 serving code body).client = some ⟨1, n, es, 0⟩ ∧
      ((cached n es).at 0).reaches (request0 serving code body) code body = true := by
  refine ⟨decide_eq_true rfl, rfl, ?_⟩
  show (((cached n es).at 0).servedOn 1 && (((cached n es).at 0).pair 1).open_ && decide ((1 : Nat) ≤ 6) && ((1 : Nat) != 0 || _)) = true
  rw [show ((cached n es).at 0).servedOn 1 = true from show (serving.at 0).servedOn 1 = true by decide,
    show (((cached n es).at 0).pair 1).open_ = true from show ((serving.at 0).pair 1).open_ = true by decide]
  rfl

theorem test_witness_repeats :
    (∀ h : Hdr, asRequest (.ping h) = some (2, h, [])) ∧ h0.client ≠ 0 ∧ inWindow 1 h0.request = true ∧ inWindow 64 h0.request = true ∧
    (inWindow 65 h0.request = false ∧ newerReq h0.request 65 = false) ∧
    (∀ (c : BitVec 32) (r : Option Resp), [(⟨1, c, r, 3⟩ : DupEntry)].find? (fun x => x.request == h0.request) = some ⟨1, c, r, 3⟩) ∧
    (∀ c : BitVec 32, ∃ d, d ≠ c) ∧ (∀ c : BitVec 32, (⟨1, c, some pong, 3⟩ : DupEntry).resp = some pong ∧ (⟨1, c, none, 3⟩ : DupEntry).resp = none) := by
  refine ⟨fun _ => rfl, by decide, by decide, by decide, by decide, fun _ _ => rfl, fun c => ⟨if c = 0 then 1 else 0, ?_⟩, fun _ => ⟨rfl, rfl⟩⟩
  split
  · rename_i h
    rw [h]
    decide
  · rename_i h
    exact fun e => h e.symm

theorem test_witness_block :
    (State.reset.pending = [] ∧ ({ State.reset with pending := [.cfgDiscard h0] } : State).pending = .cfgDiscard h0 :: []) ∧
    step (st .ready [] [] []) = .next (st .ready [] [] []) ∧ reserved (.nop 0 true) = false ∧ reserved (.vld { m0 with mode := 6 }) = true := ⟨⟨rfl, rfl⟩, rfl, rfl, by decide⟩

theorem test_witness_core_results :
    let x := BCore.off
    x.stores = [] ∧ x.writes = [] ∧ (3 : Nat) < x.s.length ∧ (∃ r, BDest.s 3 = .v r ∨ BDest.s 3 = .s r ∨ BDest.s 3 = .a r) ∧
    (let two := [(⟨0, 0, .s 3, 5⟩ : BWrite), ⟨0, 2, .s 3, 6⟩]
     ({ x with writes := two } : BCore).writes = two ∧ (0 : Nat) ≤ x.bundle ∧ x.bundle < 2) ∧
    Memory.wf [] = true ∧ Memory.wf (memWrite [] 5 1) = true ∧ memRead (memWrite [] 5 1) 5 = 1 ∧ memWrite (memWrite [] 5 1) 5 0 = [] ∧ Memory.wf [(5, 0)] = false ∧
    tsOk 0 = true ∧ tsOk (2 ^ 16 * 999999999) = true ∧ tsOk (2 ^ 16 * 1000000000) = false ∧ (2 ^ 96 - 1 : Nat) < 2 ^ 96 := by
  refine ⟨rfl, rfl, by decide, ⟨3, .inr (.inl rfl)⟩, ?_, ?_⟩
  · decide
  · decide

theorem test_witness_f_tick :
    let a := st .running [(K.portState .a, 3)] [] []
    a.hasFrames .a = true ∧ a.hasFrames .b = false ∧ (st .ready [] [] []).hasFrames .a = false ∧ (st .ready [] [] []).hasFrames .b = false := by decide

/-- Two peers near: the evaluation has a median to judge by. -/
theorem test_witness_near :
    let near := fun (id : BitVec 64) => ({ member0 0 none with id := id, hb := some hb9, checks := [(0, 0)] } : Member)
    2 ≤ ((ensembled (fun e => { e with members := [near 7, near 8] })).ens.members.filter (ensembled (fun e => { e with members := [near 7, near 8] })).near).length := by decide +kernel

/-- A state that meets the invariant and steps. -/
theorem test_witness_invariant : (st .ready [] [] []).Inv ∧ step (st .ready [] [] []) = .next (st .ready [] [] []) :=
  ⟨⟨⟨.nil, nofun⟩, by unfold State.ringsOk; decide, by unfold State.cacheOk; decide, by unfold State.keptOk; decide⟩, rfl⟩

/-- SADD of 5 and 7 (R194): 12 is in flight for its register, one bundle later (R195); source registers are 2 and 3, so a swapped or dropped operand shows. -/
theorem test_sadd : (match exec (.sadd { s0 with close := false }) (inTile (fun x => { x with s := (x.s.set 2 5).set 3 7 })) with
    | .next t => (t.core 0).writes
    | _ => []) = [⟨1, 0, .s 1, 12⟩] := by decide +kernel

/-- SSUB takes operand B from operand A (R194). -/
theorem test_ssub : (match exec (.ssub { s0 with close := false }) (inTile (fun x => { x with s := (x.s.set 2 5).set 3 7 })) with
    | .next t => (t.core 0).writes
    | _ => []) = [⟨1, 0, .s 1, 4294967294⟩] := by decide +kernel

/-- CRC-32C of "123456789" is E3069283H, the value the polynomial of R317 is known by. -/
theorem test_crc32c : crc32c (ascii "123456789") = 0xE3069283 := by decide +kernel

end Sys2Proof.Tests
end
end

/-! PROOFS. The whole-machine statements: what reset leaves, the invariant, the queue and the module ID. -/

namespace Sys2Proof.Machine

/-! ### The state after reset -/

/-- The empty set gives every parameter its reset value (R11). -/
@[simp] theorem PSet.get_reset (k : Key) : PSet.reset.get k = k.reset := rfl

theorem PSet.reset_wf : PSet.reset.wf := ⟨.nil, nofun⟩

/-- Every session is closed right after reset. -/
theorem State.reset_sess_closed {x : Session} (h : x ∈ State.reset.sess) : x.open_ = false := by
  have hx : x = Session.closed := List.eq_of_mem_replicate h
  rw [hx]
  rfl

/-- Settles O2: each field is the one reset writes, and the sets of parameters are empty. -/
theorem resetLeavesNothingConfigured : Obligations.ResetLeavesNothingConfigured := by
  have hnext : State.reset.roGet K.ncpEventNext = 0 := by decide
  exact ⟨rfl, rfl, rfl, rfl, rfl, rfl, rfl, hnext, fun _ => State.reset_sess_closed, PSet.get_reset⟩

/-- Settles O3: nothing is stored, both rings and the cache are empty, and no port is kept in BOOT. -/
theorem resetMeetsTheInvariant : Obligations.ResetMeetsTheInvariant where
  registers := PSet.reset_wf
  rings := ⟨Nat.zero_le _, Nat.zero_le _⟩
  cache := Nat.zero_le _
  kept := ⟨nofun, nofun⟩

/-! ### What every command keeps -/

/-- Every command keeps the queue, the module ID, the registers' form and the room of rings and cache, and keeps a port in BEDROCK only: command by command,
from what its meaning keeps. The commands that leave the module state and the kept port as they are do so quietly. -/
theorem exec_moves (c : Instr) (s : State) : s.MovesOut (exec c s) :=
  match c with
  -- Commands that may change the module state (chapters 02, 12, 15).
  | .reset .. => execReset_moves
  | .stop .. => execStop_moves
  | .geodeEnter .. => execGeodeEnter_moves
  | .bedrockForce .. => execBedrockForce_moves
  | .bedrockRelease .. => execBedrockRelease_moves
  | .neighbourTest .. => execNeighbourTest_moves
  | .seedFault _ _ why => execSeedFault_moves why
  | .driveMeasurement .. => execDriveMeasurement_moves
  | .sourceLoss .. => execSourceLoss_moves
  | .sourcePresent .. => execSourcePresent_moves
  | .poeClassification .. => execPoeClassification_moves
  | .lldpPowerAllocation .. => execLldpPowerAllocation_moves
  | .levelEvaluation .. => execLevelEvaluation_moves
  | .bedrockExit .. => execBedrockExit_moves
  | .bootComplete .. => execBootComplete_moves
  | .readyToRunning .. => execReadyToRunning_moves
  | .wakeInput .. => execWakeInput_moves
  | .comparatorWake .. => execComparatorWake_moves
  | .wakeTimer .. => execWakeTimer_moves
  | .wakeDatagram .. => execWakeDatagram_moves
  | .grantWake .. => execGrantWake_moves
  | .geodeLinkTry .. => execGeodeLinkTry_moves
  | .pfail .. => execPfail_moves
  | .saveComplete .. => execSaveComplete_moves
  | .thermalThreshold .. => execThermalThreshold_moves
  | .faultRetry .. => execFaultRetry_moves
  | .resetN .. => execResetN_moves
  | .lockstepMismatch .. => execLockstepMismatch_moves
  | .fwTrialTimeout .. => execFwTrialTimeout_moves
  | .pfailNRelease .. => execPfailNRelease_moves
  -- Configuration, time and events (chapter 13).
  | .hello .. => (execHello_quiet (.refl _)).moves
  | .ping .. => (execPing_quiet (.refl _)).moves
  | .cfgGet .. => (execCfgGet_quiet (.refl _)).moves
  | .cfgSet .. => (execCfgSet_quiet (.refl _)).moves
  | .cfgDiscard .. => (execCfgDiscard_quiet (.refl _)).moves
  | .cfgDiff .. => (execCfgDiff_quiet (.refl _)).moves
  | .cfgList .. => (execCfgList_quiet (.refl _)).moves
  | .cfgSave .. => (execCfgSave_quiet (.refl _)).moves
  | .cfgErase .. => (execCfgErase_quiet (.refl _)).moves
  | .timeSet .. => (execTimeSet_quiet (.refl _)).moves
  | .tdcRead .. => (execTdcRead_quiet (.refl _)).moves
  | .eventSubscribe .. => (execEventSubscribe_quiet (.refl _)).moves
  | .eventRead .. => (execEventRead_quiet (.refl _)).moves
  | .unknownCommand .. => (execUnknownCommand_quiet (.refl _)).moves
  -- Commits.
  | .cfgCommit .. => (execCfgCommit_quiet (.refl _)).moves
  | .commitFTick .. => (execCommitFTick_quiet (.refl _)).moves
  -- Kernel slots and captures.
  | .kernelLoad .. => (execKernelLoad_quiet (.refl _)).moves
  | .kernelUnload .. => (execKernelUnload_quiet (.refl _)).moves
  | .kernelSnapshot .. => (execKernelSnapshot_quiet (.refl _)).moves
  | .captureAt .. => (execCaptureAt_quiet (.refl _)).moves
  | .captureSend .. => (execCaptureSend_quiet (.refl _)).moves
  | .captureDerive .. => (execCaptureDerive_quiet (.refl _)).moves
  | .captureRelease .. => (execCaptureRelease_quiet (.refl _)).moves
  | .captureList .. => (execCaptureList_quiet (.refl _)).moves
  -- Firmware update.
  | .fwBegin .. => (execFwBegin_quiet (.refl _)).moves
  | .fwWrite .. => (execFwWrite_quiet (.refl _)).moves
  | .fwFinish .. => (execFwFinish_quiet (.refl _)).moves
  | .fwActivate .. => (execFwActivate_quiet (.refl _)).moves
  | .fwConfirm .. => (execFwConfirm_quiet (.refl _)).moves
  | .backgroundCommandComplete .. => (execBackgroundCommandComplete_quiet (.refl _)).moves
  -- Links, mailboxes and background work.
  | .tcpConnect .. => (execTcpConnect_quiet (.refl _)).moves
  | .tcpClose .. => (execTcpClose_quiet (.refl _)).moves
  | .sessionIdleTimeout .. => (execSessionIdleTimeout_quiet (.refl _)).moves
  | .ncpFramingLoss .. => (execNcpFramingLoss_quiet (.refl _)).moves
  | .spiStatus .. => (execSpiStatus_quiet (.refl _)).moves
  | .spiWrite .. => (execSpiWrite_quiet (.refl _)).moves
  | .spiRead .. => (execSpiRead_quiet (.refl _)).moves
  | .i2cPointerWrite .. => (execI2cPointerWrite_quiet (.refl _)).moves
  | .i2cRead .. => (execI2cRead_quiet (.refl _)).moves
  | .networkLinkLoss .. => (execNetworkLinkLoss_quiet (.refl _)).moves
  | .networkLinkUp .. => (execNetworkLinkUp_quiet (.refl _)).moves
  | .arpNeighbourSolicitation .. => (execArpNeighbourSolicitation_quiet (.refl _)).moves
  -- Ensembles (chapter 14).
  | .ensStatus .. => (execEnsStatus_quiet (.refl _)).moves
  | .ensMembers .. => (execEnsMembers_quiet (.refl _)).moves
  | .ensCommit .. => (execEnsCommit_quiet (.refl _)).moves
  | .ensCaptureAt .. => (execEnsCaptureAt_quiet (.refl _)).moves
  | .ensForget .. => (execEnsForget_quiet (.refl _)).moves
  | .dnssdPeerFound _ _ addr => (execDnssdPeerFound_quiet (_addr := addr) (.refl _)).moves
  | .heartbeat .. => (execHeartbeat_quiet (.refl _)).moves
  | .heartbeatSend .. => (execHeartbeatSend_quiet (.refl _)).moves
  | .timecheck .. => (execTimecheck_quiet (.refl _)).moves
  | .timecheckSend .. => (execTimecheckSend_quiet (.refl _)).moves
  | .table .. => (execTable_quiet (.refl _)).moves
  | .prepare .. => (execPrepare_quiet (.refl _)).moves
  | .vote .. => (execVote_quiet (.refl _)).moves
  | .decide .. => (execDecide_quiet (.refl _)).moves
  | .outcome .. => (execOutcome_quiet (.refl _)).moves
  | .prepareDeadline .. => (execPrepareDeadline_quiet (.refl _)).moves
  | .outcomeQuery .. => (execOutcomeQuery_quiet (.refl _)).moves
  | .inDoubtTimeout .. => (execInDoubtTimeout_quiet (.refl _)).moves
  | .memberLost .. => (execMemberLost_quiet (.refl _)).moves
  | .memberForget .. => (execMemberForget_quiet (.refl _)).moves
  | .ensTimeEvaluation .. => (execEnsTimeEvaluation_quiet (.refl _)).moves
  | .ensCaptureTimeout .. => (execEnsCaptureTimeout_quiet (.refl _)).moves
  | .peerConnectionIdle .. => (execPeerConnectionIdle_quiet (.refl _)).moves
  | .ensCaptureAnswer .. => (execEnsCaptureAnswer_quiet (.refl _)).moves
  -- Module states and alarms that stay as they are.
  | .stateGet .. => (execStateGet_quiet (.refl _)).moves
  | .run .. => (execRun_quiet (.refl _)).moves
  | .wake .. => (execWake_quiet (.refl _)).moves
  -- Power and alarms (chapters 15, 17).
  | .mpsPulse .. => (execMpsPulse_quiet (.refl _)).moves
  | .shedUndo .. => (execShedUndo_quiet (.refl _)).moves
  | .alarmInterval .. => (execAlarmInterval_quiet (.refl _)).moves
  | .holdCapacitanceMeasure .. => (execHoldCapacitanceMeasure_quiet (.refl _)).moves
  -- Health and tests (chapter 16).
  | .logRead .. => (execLogRead_quiet (.refl _)).moves
  | .selftest .. => (execSelftest_quiet (.refl _)).moves
  | .selftestResult .. => (execSelftestResult_quiet (.refl _)).moves
  | .linkTest .. => (execLinkTest_quiet (.refl _)).moves
  | .linkResult .. => (execLinkResult_quiet (.refl _)).moves
  | .telemetryRead .. => (execTelemetryRead_quiet (.refl _)).moves
  | .lifeRead .. => (execLifeRead_quiet (.refl _)).moves
  | .wavelengthCalibration .. => (execWavelengthCalibration_quiet (.refl _)).moves
  | .flashBlockErase .. => (execFlashBlockErase_quiet (.refl _)).moves
  | .telemetryRecord .. => (execTelemetryRecord_quiet (.refl _)).moves
  | .telemetryHourly .. => (execTelemetryHourly_quiet (.refl _)).moves
  | .lifeAccount .. => (execLifeAccount_quiet (.refl _)).moves
  | .selftestComplete .. => (execSelftestComplete_quiet (.refl _)).moves
  | .linkTestEnd .. => (execLinkTestEnd_quiet (.refl _)).moves
  | .linkErrorCheck .. => (execLinkErrorCheck_quiet (.refl _)).moves
  -- Seeds and launches (chapters 02, 03).
  | .seedSelect .. => (execSeedSelect_quiet (.refl _)).moves
  | .groupLaunch .. => (execGroupLaunch_quiet (.refl _)).moves
  | .thinnedLaunch .. => (execThinnedLaunch_quiet (.refl _)).moves
  | .seedSwitchover .. => (execSeedSwitchover_quiet (.refl _)).moves
  | .seedLockAcquired .. => (execSeedLockAcquired_quiet (.refl _)).moves
  | .seedRelockAttempt .. => (execSeedRelockAttempt_quiet (.refl _)).moves
  | .seedLocked .. => (execSeedLocked_quiet (.refl _)).moves
  | .discoveryProfileEnd .. => (execDiscoveryProfileEnd_quiet (.refl _)).moves
  -- Discovery (chapter 02).
  | .launchClamp .. => (execLaunchClamp_quiet (.refl _)).moves
  | .noFibreProbe .. => (execNoFibreProbe_quiet (.refl _)).moves
  | .discoveryContinuityEnd .. => (execDiscoveryContinuityEnd_quiet (.refl _)).moves
  | .discoveryRampEnd .. => (execDiscoveryRampEnd_quiet (.refl _)).moves
  | .discoveryRangingEnd .. => (execDiscoveryRangingEnd_quiet (.refl _)).moves
  | .aprHoldExpiry .. => (execAprHoldExpiry_quiet (.refl _)).moves
  -- Frames and frame lock (chapter 03).
  | .portRediscover .. => (execPortRediscover_quiet (.refl _)).moves
  | .schedLockRealign .. => (execSchedLockRealign_quiet (.refl _)).moves
  | .timebaseStep .. => (execTimebaseStep_quiet (.refl _)).moves
  | .internalStrobe .. => (execInternalStrobe_quiet (.refl _)).moves
  | .proofWindow .. => (execProofWindow_quiet (.refl _)).moves
  | .dtsSwitchSettled .. => (execDtsSwitchSettled_quiet (.refl _)).moves
  | .patternStep .. => (execPatternStep_quiet (.refl _)).moves
  | .syncWordReceive .. => (execSyncWordReceive_quiet (.refl _)).moves
  | .lockWordMissing .. => (execLockWordMissing_quiet (.refl _)).moves
  | .lockAcquireTimeout .. => (execLockAcquireTimeout_quiet (.refl _)).moves
  | .syncCollision .. => (execSyncCollision_quiet (.refl _)).moves
  | .frameStrobe .. => (execFrameStrobe_quiet (.refl _)).moves
  -- Traces and the coherent pipeline (chapter 04).
  | .traceFieldWords .. => (execTraceFieldWords_quiet (.refl _)).moves
  | .traceStrainWords .. => (execTraceStrainWords_quiet (.refl _)).moves
  | .decimationTileProcessed .. => (execDecimationTileProcessed_quiet (.refl _)).moves
  | .nspTileSend .. => (execNspTileSend_quiet (.refl _)).moves
  | .gainRunEvaluation .. => (execGainRunEvaluation_quiet (.refl _)).moves
  | .iqTermUpdate .. => (execIqTermUpdate_quiet (.refl _)).moves
  | .combineWeightRecompute .. => (execCombineWeightRecompute_quiet (.refl _)).moves
  | .qualitySummary .. => (execQualitySummary_quiet (.refl _)).moves
  -- Output streams (chapter 05).
  | .retxTileRelease .. => (execRetxTileRelease_quiet (.refl _)).moves
  | .nack .. => (execNack_quiet (.refl _)).moves
  | .retransmissionSend .. => (execRetransmissionSend_quiet (.refl _)).moves
  | .idle .. => (execIdle_quiet (.refl _)).moves
  | .suspended .. => (execSuspended_quiet (.refl _)).moves
  -- Raman sensing (chapter 06).
  | .darkFrameSecondHalf .. => (execDarkFrameSecondHalf_quiet (.refl _)).moves
  | .dtsResultPublish .. => (execDtsResultPublish_quiet (.refl _)).moves
  | .dtsFeedbackCheck .. => (execDtsFeedbackCheck_quiet (.refl _)).moves
  -- The front end (chapter 07).
  | .feScanStart .. => (execFeScanStart_quiet (.refl _)).moves
  | .feSlotStart .. => (execFeSlotStart_quiet (.refl _)).moves
  | .feWindowEnd .. => (execFeWindowEnd_quiet (.refl _)).moves
  | .feResultPublish .. => (execFeResultPublish_quiet (.refl _)).moves
  | .feComplianceTrip .. => (execFeComplianceTrip_quiet (.refl _)).moves
  | .hkBurst .. => (execHkBurst_quiet (.refl _)).moves
  -- Basalt: the engine (chapter 08).
  | .basaltTileEntry .. => (execBasaltTileEntry_quiet (.refl _)).moves
  | .interruptEntry .. => (execInterruptEntry_quiet (.refl _)).moves
  | .keTimerExpiry .. => (execKeTimerExpiry_quiet (.refl _)).moves
  | .deadlineWarn .. => (execDeadlineWarn_quiet (.refl _)).moves
  | .kernelDeadline .. => (execKernelDeadline_quiet (.refl _)).moves
  | .coreHardwareFault .. => (execCoreHardwareFault_quiet (.refl _)).moves
  | .spareCoreLoaded .. => (execSpareCoreLoaded_quiet (.refl _)).moves
  -- Basalt: memory operations and transfers.
  | .dmaComplete .. => (execDmaComplete_quiet (.refl _)).moves
  | .vld .. => (execVld_quiet (.refl _)).moves
  | .vldb .. => (execVldb_quiet (.refl _)).moves
  | .vld2 .. => (execVld2_quiet (.refl _)).moves
  | .vldst .. => (execVldst_quiet (.refl _)).moves
  | .vst .. => (execVst_quiet (.refl _)).moves
  | .vstm .. => (execVstm_quiet (.refl _)).moves
  | .sld .. => (execSld_quiet (.refl _)).moves
  | .sst .. => (execSst_quiet (.refl _)).moves
  | .aaddi .. => (execAaddi_quiet (.refl _)).moves
  | .amov .. => (execAmov_quiet (.refl _)).moves
  | .aget .. => (execAget_quiet (.refl _)).moves
  | .brickIn .. => (execBrickIn_quiet (.refl _)).moves
  | .scratchIn .. => (execScratchIn_quiet (.refl _)).moves
  | .scratchOut .. => (execScratchOut_quiet (.refl _)).moves
  | .output .. => (execOutput_quiet (.refl _)).moves
  | .waitd .. => (execWaitd_quiet (.refl _)).moves
  -- Basalt: control operations.
  | .nop .. => (execNop_quiet (.refl _)).moves
  | .rotDecrement .. => (execRotDecrement_quiet (.refl _)).moves
  | .br .. => (execBr_quiet (.refl _)).moves
  | .brz .. => (execBrz_quiet (.refl _)).moves
  | .brnz .. => (execBrnz_quiet (.refl _)).moves
  | .bri .. => (execBri_quiet (.refl _)).moves
  | .call .. => (execCall_quiet (.refl _)).moves
  | .reti .. => (execReti_quiet (.refl _)).moves
  | .loopa .. => (execLoopa_quiet (.refl _)).moves
  | .loopb .. => (execLoopb_quiet (.refl _)).moves
  | .mfc .. => (execMfc_quiet (.refl _)).moves
  | .mtc .. => (execMtc_quiet (.refl _)).moves
  | .dint .. => (execDint_quiet (.refl _)).moves
  | .eint .. => (execEint_quiet (.refl _)).moves
  | .tend .. => (execTend_quiet (.refl _)).moves
  | .trace .. => (execTrace_quiet (.refl _)).moves
  | .crcv .. => (execCrcv_quiet (.refl _)).moves
  | .crcs .. => (execCrcs_quiet (.refl _)).moves
  | .crcseed .. => (execCrcseed_quiet (.refl _)).moves
  | .crcfin .. => (execCrcfin_quiet (.refl _)).moves
  -- Basalt: scalar operations.
  | .sadd .. => (execSadd_quiet (.refl _)).moves
  | .ssub .. => (execSsub_quiet (.refl _)).moves
  | .saddi .. => (execSaddi_quiet (.refl _)).moves
  | .sand .. => (execSand_quiet (.refl _)).moves
  | .sor .. => (execSor_quiet (.refl _)).moves
  | .sxor .. => (execSxor_quiet (.refl _)).moves
  | .sshl .. => (execSshl_quiet (.refl _)).moves
  | .sshr .. => (execSshr_quiet (.refl _)).moves
  | .sshra .. => (execSshra_quiet (.refl _)).moves
  | .smovi .. => (execSmovi_quiet (.refl _)).moves
  | .smovih .. => (execSmovih_quiet (.refl _)).moves
  | .smul .. => (execSmul_quiet (.refl _)).moves
  -- Basalt: multiply-accumulate.
  | .vmac .. => (execVmac_quiet (.refl _)).moves
  | .vmsu .. => (execVmsu_quiet (.refl _)).moves
  | .vmul .. => (execVmul_quiet (.refl _)).moves
  | .vmacs .. => (execVmacs_quiet (.refl _)).moves
  | .vsqa .. => (execVsqa_quiet (.refl _)).moves
  | .vmulq .. => (execVmulq_quiet (.refl _)).moves
  | .accclr .. => (execAccclr_quiet (.refl _)).moves
  | .accrd16 .. => (execAccrd16_quiet (.refl _)).moves
  | .accrd32 .. => (execAccrd32_quiet (.refl _)).moves
  | .accsv .. => (execAccsv_quiet (.refl _)).moves
  | .accld .. => (execAccld_quiet (.refl _)).moves
  -- Basalt: vector operations.
  | .vadd .. => (execVadd_quiet (.refl _)).moves
  | .vsub .. => (execVsub_quiet (.refl _)).moves
  | .vadds .. => (execVadds_quiet (.refl _)).moves
  | .vsubs .. => (execVsubs_quiet (.refl _)).moves
  | .vabs .. => (execVabs_quiet (.refl _)).moves
  | .vmax .. => (execVmax_quiet (.refl _)).moves
  | .vmin .. => (execVmin_quiet (.refl _)).moves
  | .vand .. => (execVand_quiet (.refl _)).moves
  | .vor .. => (execVor_quiet (.refl _)).moves
  | .vxor .. => (execVxor_quiet (.refl _)).moves
  | .vshl .. => (execVshl_quiet (.refl _)).moves
  | .vshra .. => (execVshra_quiet (.refl _)).moves
  | .vshrl .. => (execVshrl_quiet (.refl _)).moves
  | .vmov .. => (execVmov_quiet (.refl _)).moves
  | .vbcast .. => (execVbcast_quiet (.refl _)).moves
  | .vcmpeq .. => (execVcmpeq_quiet (.refl _)).moves
  | .vcmpgt .. => (execVcmpgt_quiet (.refl _)).moves
  | .vcmpge .. => (execVcmpge_quiet (.refl _)).moves
  | .vsel .. => (execVsel_quiet (.refl _)).moves
  | .vext .. => (execVext_quiet (.refl _)).moves
  | .vins .. => (execVins_quiet (.refl _)).moves
  | .vperm .. => (execVperm_quiet (.refl _)).moves
  | .vredadd .. => (execVredadd_quiet (.refl _)).moves
  | .vredmax .. => (execVredmax_quiet (.refl _)).moves
  -- Triggers and captures (chapter 09).
  | .triggerEvaluation .. => (execTriggerEvaluation_quiet (.refl _)).moves
  | .evtOutPulseEnd .. => (execEvtOutPulseEnd_quiet (.refl _)).moves
  | .timeConditionInstant .. => (execTimeConditionInstant_quiet (.refl _)).moves
  | .triggerGroupNotify .. => (execTriggerGroupNotify_quiet (.refl _)).moves
  | .captureRecordCopy .. => (execCaptureRecordCopy_quiet (.refl _)).moves
  | .captureComplete .. => (execCaptureComplete_quiet (.refl _)).moves
  | .captureRetainExpiry .. => (execCaptureRetainExpiry_quiet (.refl _)).moves
  | .captureSendComplete .. => (execCaptureSendComplete_quiet (.refl _)).moves
  | .captureDeriveComplete .. => (execCaptureDeriveComplete_quiet (.refl _)).moves
  -- The memory subsystem (chapter 10).
  | .dramBurstBoundary .. => (execDramBurstBoundary_quiet (.refl _)).moves
  | .refreshInterval .. => (execRefreshInterval_quiet (.refl _)).moves
  | .refreshRatePoll .. => (execRefreshRatePoll_quiet (.refl _)).moves
  | .rowIdleClose .. => (execRowIdleClose_quiet (.refl _)).moves
  | .qosMeterWindow .. => (execQosMeterWindow_quiet (.refl _)).moves
  | .requestUrgencyAge .. => (execRequestUrgencyAge_quiet (.refl _)).moves
  | .patrolScrubRead .. => (execPatrolScrubRead_quiet (.refl _)).moves
  | .eccWriteBack .. => (execEccWriteBack_quiet (.refl _)).moves
  | .migrationSpareVerified .. => (execMigrationSpareVerified_quiet (.refl _)).moves
  | .migrationComplete .. => (execMigrationComplete_quiet (.refl _)).moves
  | .wckDqTracking .. => (execWckDqTracking_quiet (.refl _)).moves
  | .trackingStep .. => (execTrackingStep_quiet (.refl _)).moves
  | .spareRankTest .. => (execSpareRankTest_quiet (.refl _)).moves
  | .spareRankTestEnd .. => (execSpareRankTestEnd_quiet (.refl _)).moves
  -- Lodestone (chapter 11).
  | .refInputPresent .. => (execRefInputPresent_quiet (.refl _)).moves
  | .refInputLost .. => (execRefInputLost_quiet (.refl _)).moves
  | .freqGateEnd .. => (execFreqGateEnd_quiet (.refl _)).moves
  | .ppsInEdge .. => (execPpsInEdge_quiet (.refl _)).moves
  | .ppsInTimeout .. => (execPpsInTimeout_quiet (.refl _)).moves
  | .timeSteerUpdate .. => (execTimeSteerUpdate_quiet (.refl _)).moves
  | .ocxoAgeingStep .. => (execOcxoAgeingStep_quiet (.refl _)).moves
  | .ptpAnnounce .. => (execPtpAnnounce_quiet (.refl _)).moves
  | .ptpAnnounceTimeout .. => (execPtpAnnounceTimeout_quiet (.refl _)).moves
  | .ptpSync .. => (execPtpSync_quiet (.refl _)).moves
  | .ptpFollowUp .. => (execPtpFollowUp_quiet (.refl _)).moves
  | .ptpDelayReqSend .. => (execPtpDelayReqSend_quiet (.refl _)).moves
  | .ptpDelayResp .. => (execPtpDelayResp_quiet (.refl _)).moves
  | .ptpPdelayResp .. => (execPtpPdelayResp_quiet (.refl _)).moves
  | .ptpUnsupportedMessage _ p kind => (execPtpUnsupportedMessage_quiet (_p := p) (_kind := kind) (.refl _)).moves
  | .tdcEdge .. => (execTdcEdge_quiet (.refl _)).moves
  | .tdcStampDrain .. => (execTdcStampDrain_quiet (.refl _)).moves
  | .tdcGateFit .. => (execTdcGateFit_quiet (.refl _)).moves
  | .ppsOutEdge .. => (execPpsOutEdge_quiet (.refl _)).moves
  | .ppsOutFall .. => (execPpsOutFall_quiet (.refl _)).moves
  -- Emitter drive (chapter 12).
  | .chainLoadComplete .. => (execChainLoadComplete_quiet (.refl _)).moves
  | .failoverRampComplete .. => (execFailoverRampComplete_quiet (.refl _)).moves
  | .pumpAgeingRecord .. => (execPumpAgeingRecord_quiet (.refl _)).moves
  | .ledBlink .. => (execLedBlink_quiet (.refl _)).moves
/-- Taking the front command off the queue leaves what the invariant speaks of. -/
theorem State.Inv.withPending {s : State} (h : s.Inv) (rest : List Instr) : ({ s with pending := rest } : State).Inv :=
  ⟨h.registers, h.rings, h.cache, h.kept⟩

/-- What moves from a state that meets the invariant meets it too. -/
theorem State.Moves.inv {s t : State} (m : s.Moves t) (h : s.Inv) : t.Inv :=
  ⟨m.keeps.registers h.registers, m.keeps.rings h.rings, m.keeps.cache h.cache, m.kept h.kept⟩

/-- What a step can do: idle on an empty queue, or take the front command and move from the state with the queue's rest. -/
theorem step_cases {s t : State} (h : step s = .next t) :
    (s.pending = [] ∧ t = s) ∨ ∃ c rest, s.pending = c :: rest ∧ ({ s with pending := rest } : State).Moves t := by
  unfold step at h
  split at h
  · rename_i hp
    exact .inl ⟨hp, (Host.Outcome.next.inj h).symm⟩
  · rename_i c rest hp
    exact .inr ⟨c, rest, hp, exec_moves c _ t h⟩

/-- Settles O4: an idle step changes nothing, and a command moves from the state with the queue's rest, which meets the invariant as well. -/
theorem stepKeepsTheInvariant : Obligations.StepKeepsTheInvariant := by
  intro s t hs h
  obtain ⟨_, rfl⟩ | ⟨_, rest, _, m⟩ := step_cases h
  · exact hs
  · exact m.inv (hs.withPending rest)

/-- The queue after a step is the rest of the queue before it. -/
theorem step_pending {s t : State} (h : step s = .next t) : t.pending = s.pending.drop 1 := by
  obtain ⟨hp, rfl⟩ | ⟨_, _, hp, m⟩ := step_cases h
  · rw [hp]
    rfl
  · rw [hp]
    exact m.keeps.pending

/-- Settles O5: every command keeps the queue it is given and the module ID. -/
theorem stepsKeepTheQueueAndTheModuleId : Obligations.StepsKeepTheQueueAndTheModuleId :=
  ⟨fun _ _ => step_pending, fun c s t h => (exec_moves c s t h).keeps.moduleId⟩

end Sys2Proof.Machine

/-! PROOFS. Strobes, launches and commits without frames: what each of these commands does at its scheduled tick, and that it does nothing otherwise. -/

namespace Sys2Proof.Machine

section
variable {s : State} {t : Tick} {p : Port}

/-! ### Commits without frames (R30, R83) -/

theorem execCommitFTick_port_of_no_frames (h : (s.at t).hasFrames p = false) :
    execCommitFTick t (some p) s = .next ((s.at t).commitPort p) :=
  congrArg _ (if_neg (by rw [h]; nofun))

theorem execCommitFTick_port_of_frames (h : (s.at t).hasFrames p = true) : execCommitFTick t (some p) s = .next (s.at t) :=
  congrArg _ (if_pos h)

theorem execCommitFTick_global_of_no_frames (ha : (s.at t).hasFrames .a = false) (hb : (s.at t).hasFrames .b = false) :
    execCommitFTick t none s = .next (s.at t).commitGlobal :=
  congrArg _ (if_neg (by rw [ha, hb]; nofun))

theorem execCommitFTick_global_of_frames (h : (s.at t).hasFrames .a = true ∨ (s.at t).hasFrames .b = true) :
    execCommitFTick t none s = .next (s.at t) :=
  congrArg _ (if_pos ((Bool.or_eq_true ..).mpr h))

/-! ### Frame strobes (R81) -/

/-- With a frame start scheduled, the strobe acts where the port has frames and the start is reached. -/
theorem execFrameStrobe_of_next {n : Tick} (obs : FrameObs) (h : ((s.at t).frame p).next = some n) :
    execFrameStrobe t p obs s = .next (if (s.at t).hasFrames p = true ∧ n ≤ (s.at t).now
      then (((s.at t).takeAdc p obs.samples).frameEnd p obs).strobe p else s.at t) := by
  simp only [execFrameStrobe, h]

theorem execFrameStrobe_of_no_next (obs : FrameObs) (h : ((s.at t).frame p).next = none) :
    execFrameStrobe t p obs s = .next (s.at t) := by
  simp only [execFrameStrobe, h]

theorem execFrameStrobe_due {n : Tick} (obs : FrameObs) (h : ((s.at t).frame p).next = some n) (hf : (s.at t).hasFrames p = true)
    (hn : n ≤ (s.at t).now) :
    execFrameStrobe t p obs s = .next ((((s.at t).takeAdc p obs.samples).frameEnd p obs).strobe p) := by
  rw [execFrameStrobe_of_next obs h, if_pos ⟨hf, hn⟩]

theorem execFrameStrobe_early {n : Tick} (obs : FrameObs) (h : ((s.at t).frame p).next = some n) (hn : (s.at t).now < n) :
    execFrameStrobe t p obs s = .next (s.at t) := by
  rw [execFrameStrobe_of_next obs h, if_neg fun hd => Nat.not_le.mpr hn hd.2]

theorem execFrameStrobe_of_no_frames (obs : FrameObs) (hf : (s.at t).hasFrames p = false) : execFrameStrobe t p obs s = .next (s.at t) := by
  cases h : ((s.at t).frame p).next with
  | none => exact execFrameStrobe_of_no_next obs h
  | some n => rw [execFrameStrobe_of_next obs h, if_neg fun hd => Bool.false_ne_true (hf.symm.trans hd.1)]

/-! ### Launches of groups (R74) -/

/-- Group g of a port launches now: the port runs slotted frames outside a gap, g is a further group of the plan and the next in turn, and its offset is reached. -/
def State.GroupDue (s : State) (p : Port) (g : Nat) : Prop :=
  s.hasFrames p = true ∧ s.thinned p = false ∧ (s.frame p).gap = false ∧ 0 < g ∧ g < groupsOf (s.pP p (K.portSlotPlan p)) ∧
  (s.frame p).groupNext = g ∧ (s.frame p).last + g * (s.period p / groupsOf (s.pP p (K.portSlotPlan p))) ≤ s.now

theorem State.not_groupDue_iff {a : State} {g : Nat} :
    ¬ a.GroupDue p g ↔
      a.hasFrames p = false ∨ a.thinned p = true ∨ (a.frame p).gap = true ∨ g = 0 ∨ groupsOf (a.pP p (K.portSlotPlan p)) ≤ g ∨
      (a.frame p).groupNext ≠ g ∨ a.now < (a.frame p).last + g * (a.period p / groupsOf (a.pP p (K.portSlotPlan p))) := by
  simp only [State.GroupDue, not_and_or, Bool.not_eq_true, Bool.not_eq_false, Nat.not_lt, Nat.not_le, Nat.le_zero, ne_eq]

/-- The model's test of a group launch is `State.GroupDue`, in the order of the source. -/
theorem execGroupLaunch_eq {g : Nat} [Decidable ((s.at t).GroupDue p g)] :
    execGroupLaunch t p g s = if (s.at t).GroupDue p g then .next ((s.at t).launchNext p g) else .next (s.at t) :=
  ite_congr (by
    simp only [State.GroupDue, Bool.and_eq_true, Bool.not_eq_true', decide_eq_true_eq, eq_iff_iff]
    tauto) (fun _ => rfl) (fun _ => rfl)

theorem execGroupLaunch_due {g : Nat} (h : (s.at t).GroupDue p g) : execGroupLaunch t p g s = .next ((s.at t).launchNext p g) := by
  classical rw [execGroupLaunch_eq, if_pos h]

theorem execGroupLaunch_not_due {g : Nat} (h : ¬ (s.at t).GroupDue p g) : execGroupLaunch t p g s = .next (s.at t) := by
  classical rw [execGroupLaunch_eq, if_neg h]

/-! ### Thinned launches (R87) -/

/-- The tick of the next thinned launch of a port: a multiple of the thinned interval from the frame origin. -/
def State.thinnedAt (s : State) (p : Port) : Tick := (s.frame p).origin + (s.frame p).thinNext * thinStep (s.period p)

/-- What a thinned launch makes of the state: the next slot in turn is launched, and the turn moves on. -/
def State.thinnedLaunched (s : State) (p : Port) : State :=
  let n := (s.frame p).thinNext
  let b := s.launchGroup p (s.thinnedAt p) 0 (n % 8) [n % 8] true
  b.setFrame p { b.frame p with thinNext := n + 1 }

theorem execThinnedLaunch_due (hf : (s.at t).hasFrames p = true) (ht : (s.at t).thinned p = true) (hn : ((s.at t).frame p).next.isSome = true)
    (hg : ((s.at t).frame p).gap = false) (hd : (s.at t).thinnedAt p ≤ (s.at t).now) :
    execThinnedLaunch t p s = .next ((s.at t).thinnedLaunched p) :=
  if_pos (by rw [hf, ht, hn, hg]; exact decide_eq_true hd)

theorem execThinnedLaunch_not_due
    (h : (s.at t).thinned p = false ∨ ((s.at t).frame p).gap = true ∨ (s.at t).now < (s.at t).thinnedAt p) :
    execThinnedLaunch t p s = .next (s.at t) := by
  refine if_neg fun hd => ?_
  simp only [Bool.and_eq_true, Bool.not_eq_true', decide_eq_true_eq] at hd
  obtain ⟨⟨⟨⟨-, ht⟩, -⟩, hg⟩, hle⟩ := hd
  rcases h with h | h | h
  · exact Bool.false_ne_true (h.symm.trans ht)
  · exact Bool.false_ne_true (hg.symm.trans h)
  · exact Nat.not_le.mpr h hle

/-! ### The internal strobe and its pattern steps (R82, R295) -/

theorem execInternalStrobe_due (ha : (s.at t).hasFrames .a = false) (hb : (s.at t).hasFrames .b = false)
    (hn : (s.at t).opt.internalNext ≤ (s.at t).now) :
    execInternalStrobe t s =
      .next (({ s.at t with opt := { (s.at t).opt with internalNext := (s.at t).now + 200000 } } : State).latchAll [0, 1, 9, 10] [] false false) :=
  if_neg (by rw [ha, hb, decide_eq_false (Nat.not_lt.mpr hn)]; nofun)

theorem execInternalStrobe_not_due
    (h : (s.at t).hasFrames .a = true ∨ (s.at t).hasFrames .b = true ∨ (s.at t).now < (s.at t).opt.internalNext) :
    execInternalStrobe t s = .next (s.at t) :=
  if_pos (by simpa only [Bool.or_eq_true, decide_eq_true_eq, or_assoc] using h)

theorem execPatternStep_due {src : StrobeSource} {step : Nat} (hs : step < 32)
    (hd : (s.at t).lastStrobe src + (s.at t).stepStart src step ≤ (s.at t).now) :
    execPatternStep t src step s = .next (((s.at t).sourceChannels src).foldl (fun st c => st.setChan c { st.chan c with step := step }) (s.at t)) :=
  if_pos ⟨hd, hs⟩

theorem execPatternStep_not_due {src : StrobeSource} {step : Nat}
    (h : 32 ≤ step ∨ (s.at t).now < (s.at t).lastStrobe src + (s.at t).stepStart src step) :
    execPatternStep t src step s = .next (s.at t) :=
  if_neg fun hd => h.elim (Nat.not_le.mpr hd.2) fun hlt => Nat.not_le.mpr hlt hd.1

end

/-- Settles O37, clause by clause from what each command does when it is due and when it is not. -/
theorem strobesFollowTheirSchedule : Obligations.StrobesFollowTheirSchedule := by
  refine ⟨fun s t => ⟨?frameDue, ?frameEarly, ?frameNone, ?groupDue, ?groupNot, ?thinDue, ?thinNot, ?internalDue, ?internalNot, ?stepDue, ?stepNot⟩,
    fun s t => ⟨?portFree, ?portFrames, ?globalFree, ?globalFrames⟩⟩
  case frameDue => exact fun _ obs _ => execFrameStrobe_due obs
  case frameEarly => exact fun _ obs _ => execFrameStrobe_early obs
  case frameNone => exact fun _ obs h => h.elim (execFrameStrobe_of_no_next obs) (execFrameStrobe_of_no_frames obs)
  case groupDue =>
    intro p g groups hframes hthin hgap hpos hlt hnext hle
    exact execGroupLaunch_due ⟨hframes, hthin, hgap, hpos, hlt, hnext, hle⟩
  case groupNot => exact fun _ _ h => execGroupLaunch_not_due (State.not_groupDue_iff.mpr h)
  case thinDue => exact fun _ => execThinnedLaunch_due
  case thinNot => exact fun _ => execThinnedLaunch_not_due
  case internalDue => exact execInternalStrobe_due
  case internalNot => exact execInternalStrobe_not_due
  case stepDue => exact fun _ _ => execPatternStep_due
  case stepNot => exact fun _ _ => execPatternStep_not_due
  case portFree => exact fun _ => execCommitFTick_port_of_no_frames
  case portFrames => exact fun _ => execCommitFTick_port_of_frames
  case globalFree => exact execCommitFTick_global_of_no_frames
  case globalFrames => exact execCommitFTick_global_of_frames

end Sys2Proof.Machine

/-! PROOFS. The bus that locks frames, and changes at a strobe: what each of these commands does at its time and for its role, and that it does nothing otherwise. -/

namespace Sys2Proof.Machine

section
variable {s : State} {t : Tick} {p : Port}

/-! ### Sync words (R90, R92) -/

/-- A follower with a port of another period than the word's: the word is taken, ports with no start scheduled get one, and the lock is in MISMATCH. -/
def State.syncMismatch (s : State) (t : Tick) (period : Nat) : State :=
  let b := s.withLock { s.opt.lock with lastWord := some (t, period), predicted := t + period, missed := 0 }
  (b.busStart (b.nextMultiple (b.now + 40000) 20)).setLock 5

theorem execSyncWordReceive_not_follower {word : BitVec 64} (h : (s.at t).pG K.schedLockRole ≠ 2) :
    execSyncWordReceive t word s = .next (s.at t) :=
  if_pos h

theorem execSyncWordReceive_bad_check {word : BitVec 64} (hr : (s.at t).pG K.schedLockRole = 2) (hk : syncOk word.toNat = false) :
    execSyncWordReceive t word s = .next ((s.at t).bump K.schedLockWordErrors 1) :=
  (if_neg (not_not.mpr hr)).trans (if_pos hk)

/-- A follower takes a word whose check holds: by the periods of its ports on the bus it matches the word or is in MISMATCH. -/
theorem execSyncWordReceive_good_check {word : BitVec 64} (hr : (s.at t).pG K.schedLockRole = 2) (hk : syncOk word.toNat = true) :
    execSyncWordReceive t word s =
      if (s.at t).busPorts.all (fun p => (s.at t).pP p (K.portFramePeriod p) == syncPeriod word.toNat) = true
      then .next ((s.at t).syncMatch t (syncPeriod word.toNat)) else .next ((s.at t).syncMismatch t (syncPeriod word.toNat)) :=
  (if_neg (not_not.mpr hr)).trans (if_neg (ne_false_of_eq_true hk))

/-- The word that does not come by its time: the next one is expected a period later, and the third missed in a row takes a LOCKED port to FLYWHEEL. -/
def State.wordMissed (s : State) (period : Nat) : State :=
  let l := s.opt.lock
  let b := s.withLock { l with missed := l.missed + 1, predicted := l.predicted + period }
  if s.roGet K.schedLockState = 2 ∧ 3 ≤ l.missed + 1 then b.setLock 3 else b

theorem execLockWordMissing_due {w : Tick} {period : Nat} (hw : (s.at t).opt.lock.lastWord = some (w, period))
    (hst : (s.at t).roGet K.schedLockState = 2 ∨ (s.at t).roGet K.schedLockState = 3) (hd : (s.at t).opt.lock.predicted + 1280 ≤ (s.at t).now) :
    execLockWordMissing t s = .next ((s.at t).wordMissed period) := by
  refine (if_pos ⟨hst, hd⟩).trans ?_
  simp only [State.wordMissed, hw]

theorem execLockWordMissing_early (h : (s.at t).now < (s.at t).opt.lock.predicted + 1280) : execLockWordMissing t s = .next (s.at t) :=
  if_neg fun hd => Nat.not_le.mpr h hd.2

/-! ### The end of acquisition, and a collision (R90, R93) -/

/-- Acquisition is given up: ports with no start scheduled get one, and the lock is UNLOCKED. -/
def State.acquireEnded (s : State) : State :=
  let b := s.busStart (s.nextMultiple (s.now + 40000) 20)
  (b.withLock { b.opt.lock with acquireSince := none }).setLock 4

theorem execLockAcquireTimeout_due {since : Tick} (ha : (s.at t).opt.lock.acquireSince = some since)
    (hst : (s.at t).roGet K.schedLockState = 1) (hd : since + secondTicks ≤ (s.at t).now) (hf : (s.at t).hasFrames p = true) :
    execLockAcquireTimeout t p s = .next (s.at t).acquireEnded := by
  simp only [execLockAcquireTimeout, ha]
  exact if_pos ⟨hst, hd, hf⟩

theorem execLockAcquireTimeout_early {since : Tick} (ha : (s.at t).opt.lock.acquireSince = some since)
    (h : (s.at t).now < since + secondTicks) : execLockAcquireTimeout t p s = .next (s.at t) := by
  simp only [execLockAcquireTimeout, ha]
  exact if_neg fun hd => Nat.not_le.mpr h hd.2.1

theorem execSyncCollision_source (h : (s.at t).pG K.schedLockRole = 1) :
    execSyncCollision t s = .next ((((s.at t).withLock { (s.at t).opt.lock with collision := true }).driveClk).setLock 6) :=
  if_pos h

theorem execSyncCollision_not_source (h : (s.at t).pG K.schedLockRole ≠ 1) : execSyncCollision t s = .next (s.at t) :=
  if_neg h

/-! ### Re-alignment (R92) -/

/-- The request to re-align a port is taken. -/
def State.realignTaken (s : State) (p : Port) : State := { s with opt := { s.opt with realignDue := s.opt.realignDue.set p false } }

/-- The source's grid is known for a port: it is on the bus, and a word at tick w with the port's own period is not yet overdue. -/
def State.GridKnown (s : State) (p : Port) (w : Tick) (period : Nat) : Prop :=
  s.onBus p = true ∧ period = s.pP p (K.portFramePeriod p) ∧ 0 < s.pP p (K.portFramePeriod p) ∧ s.now ≤ w + period + 1280

/-- The first start at or after n on the source's grid, which a word at tick w places. -/
def State.gridStart (s : State) (p : Port) (w n : Tick) : Tick :=
  let here := s.pP p (K.portFramePeriod p)
  let base := w + s.pG K.schedLockDelay
  if n ≤ base then base else base + ceilDiv (n - base) here * here

theorem execSchedLockRealign_not_asked (h : (s.at t).opt.realignDue.get p = false) : execSchedLockRealign t p s = .next (s.at t) := by
  simp only [execSchedLockRealign, h]

theorem execSchedLockRealign_of_grid {w n : Tick} {period : Nat} (h : (s.at t).opt.realignDue.get p = true)
    (hw : (s.at t).opt.lock.lastWord = some (w, period)) (hn : ((s.at t).frame p).next = some n) (hg : (s.at t).GridKnown p w period) :
    execSchedLockRealign t p s = .next ((((s.at t).realignTaken p).regridTo p ((s.at t).gridStart p w n)).setLock 2) := by
  simp only [execSchedLockRealign, h, hw, hn]
  exact if_pos hg

/-- Without a grid to go by, the request is taken and the port's frames stay as they are. -/
theorem execSchedLockRealign_no_grid (h : (s.at t).opt.realignDue.get p = true)
    (hg : ∀ w period, (s.at t).opt.lock.lastWord = some (w, period) → ¬ (s.at t).GridKnown p w period) :
    execSchedLockRealign t p s = .next ((s.at t).realignTaken p) := by
  cases hw : (s.at t).opt.lock.lastWord with
  | none =>
    simp only [execSchedLockRealign, h, hw]
    rfl
  | some word =>
    cases hn : ((s.at t).frame p).next with
    | none =>
      simp only [execSchedLockRealign, h, hw, hn]
      rfl
    | some n =>
      simp only [execSchedLockRealign, h, hw, hn]
      exact if_neg (hg word.1 word.2 hw)

/-- What leaves a port without a grid: no word heard, off the bus, or a last word of another period or overdue. -/
theorem State.not_gridKnown {a : State}
    (h : a.opt.lock.lastWord = none ∨ a.onBus p = false ∨
      ∃ w period, a.opt.lock.lastWord = some (w, period) ∧ (period ≠ a.pP p (K.portFramePeriod p) ∨ w + period + 1280 < a.now))
    {w : Tick} {period : Nat} (hw : a.opt.lock.lastWord = some (w, period)) : ¬ a.GridKnown p w period := by
  rintro ⟨hbus, hper, -, hle⟩
  rcases h with h | h | ⟨w', period', hw', h⟩
  · exact nomatch hw.symm.trans h
  · exact Bool.false_ne_true (h.symm.trans hbus)
  · obtain ⟨rfl, rfl⟩ := Prod.mk.inj (Option.some.inj (hw.symm.trans hw'))
    exact h.elim (fun hne => hne hper) (Nat.not_lt.mpr hle)

/-! ### The counter step (R280) -/

/-- A port whose frames are aligned to the grid goes to the grid's next start, after a gap. -/
def State.regridAfterStep (s : State) (p : Port) : State :=
  if s.hasFrames p = true ∧ s.pP p (K.portFrameAlign p) = 1 then
    let c := s.regridTo p (s.gridNext p s.now)
    c.setFrame p { c.frame p with gap := true }
  else s

/-- The counter step that is due: the counter steps, nothing is pending any more, and the aligned ports follow the grid. -/
def State.counterStepped (s : State) : State :=
  let b : State := { s with opt := { s.opt with stepDue := false } }
  ((b.stepCounter b.stepSize).roSet K.timebaseStepPending 0).eachPort State.regridAfterStep

theorem execTimebaseStep_due (h : (s.at t).opt.stepDue = true) : execTimebaseStep t s = .next (s.at t).counterStepped :=
  if_neg (ne_false_of_eq_true h)

theorem execTimebaseStep_not_due (h : (s.at t).opt.stepDue = false) : execTimebaseStep t s = .next (s.at t) :=
  if_pos h

/-! ### Rediscovery (R64) -/

theorem execPortRediscover_not_asked (h : ((s.at t).portSt p).rediscover = false) : execPortRediscover t p s = .next (s.at t) :=
  if_pos h

/-- In BOUND and in EMITTING the discovery begins, but port B waits for a port A that restarts. -/
theorem execPortRediscover_bound_or_emitting (h : ((s.at t).portSt p).rediscover = true) (hst : (s.at t).pState p = 2 ∨ (s.at t).pState p = 3) :
    execPortRediscover t p s = .next (if p = .b ∧ (s.at t).aRestarts = true then s.at t else (s.at t).discover p) := by
  have hafter : (p == .b && (s.at t).aRestarts) = true ↔ p = .b ∧ (s.at t).aRestarts = true := by rw [Bool.and_eq_true, beq_iff_eq]
  calc execPortRediscover t p s
      = .next (if (p == .b && (s.at t).aRestarts) = true then s.at t else (s.at t).discover p) :=
        (if_neg (ne_false_of_eq_true h)).trans (if_pos hst)
    _ = _ := congrArg _ (if_congr hafter rfl rfl)

theorem execPortRediscover_apr (h : ((s.at t).portSt p).rediscover = true) (hst : (s.at t).pState p = 4) :
    execPortRediscover t p s = .next (s.at t) :=
  (if_neg (ne_false_of_eq_true h)).trans <| (if_neg (by omega)).trans (if_pos hst)

theorem execPortRediscover_other (h : ((s.at t).portSt p).rediscover = true) (h2 : (s.at t).pState p ≠ 2) (h3 : (s.at t).pState p ≠ 3)
    (h4 : (s.at t).pState p ≠ 4) :
    execPortRediscover t p s = .next ((s.at t).setPortSt p { (s.at t).portSt p with rediscover := false }) :=
  (if_neg (ne_false_of_eq_true h)).trans <| (if_neg (not_or.mpr ⟨h2, h3⟩)).trans (if_neg h4)

end

/-- Settles O39, clause by clause from what each command does at its time and for its role. -/
theorem theBusLocksAndRealigns : Obligations.TheBusLocksAndRealigns := by
  refine fun s t => ⟨?wordMatch, ?wordMismatch, ?wordBad, ?wordNotMine, ?missDue, ?missEarly, ?acquireDue, ?acquireEarly, ?collision, ?notSource,
    ?realign, ?notAsked, ?stepDue, ?stepNot, ?rediscover, ?rediscoverApr, ?rediscoverOther, ?rediscoverNot⟩
  case wordMatch => exact fun _ hr hk hp => (execSyncWordReceive_good_check hr hk).trans (if_pos hp)
  case wordMismatch => exact fun _ hr hk hp => (execSyncWordReceive_good_check hr hk).trans (if_neg (ne_true_of_eq_false hp))
  case wordBad => exact fun _ => execSyncWordReceive_bad_check
  case wordNotMine => exact fun _ => execSyncWordReceive_not_follower
  case missDue => exact fun _ _ => execLockWordMissing_due
  case missEarly => exact execLockWordMissing_early
  case acquireDue => exact fun _ _ => execLockAcquireTimeout_due
  case acquireEarly => exact fun _ _ => execLockAcquireTimeout_early
  case collision => exact execSyncCollision_source
  case notSource => exact execSyncCollision_not_source
  case realign =>
    intro p hasked
    constructor
    · intro w n hw hn hbus hpos hle
      exact execSchedLockRealign_of_grid hasked hw hn ⟨hbus, rfl, hpos, hle⟩
    · exact fun h => execSchedLockRealign_no_grid hasked fun _ _ => State.not_gridKnown h
  case notAsked => exact fun _ => execSchedLockRealign_not_asked
  case stepDue => exact execTimebaseStep_due
  case stepNot => exact execTimebaseStep_not_due
  case rediscover => exact fun _ => execPortRediscover_bound_or_emitting
  case rediscoverApr => exact fun _ => execPortRediscover_apr
  case rediscoverOther => exact fun _ => execPortRediscover_other
  case rediscoverNot => exact fun _ => execPortRediscover_not_asked

end Sys2Proof.Machine

/-! PROOFS. The seeds: selection, locking, faults and relocking, and the switch at its frame boundary. -/

namespace Sys2Proof.Machine

section
variable {s : State} {t : Tick} {d : Seed}

/-! ### Selection (R43) -/

/-- The selection's step has been taken. -/
def State.selectTaken (s : State) : State := { s with opt := { s.opt with select := 0 } }

theorem execSeedSelect_none (h : (s.at t).opt.select = 0) : execSeedSelect t s = .next (s.at t) :=
  if_pos h

/-- The seed asked for: nothing where it is active, a fault told where it is not LOCKED, and else the switch to it. -/
theorem execSeedSelect_asked (h : (s.at t).opt.select = seedIdx d + 1) :
    execSeedSelect t s =
      if d = (s.at t).activeSeed then .next (s.at t).selectTaken
      else if (s.at t).seedStatus d ≠ 2 then .next ((s.at t).selectTaken.raise Ev.seedFault [u (seedIdx d)])
      else .next ((s.at t).selectTaken.switchSeed ⟨(s.at t).opt.selectAt, d, false, none⟩) := by
  have hd : (if (s.at t).opt.select = 2 then Seed.s1 else .s0) = d := by
    rw [h]
    cases d <;> rfl
  have hne : (s.at t).opt.select ≠ 0 := by omega
  unfold execSeedSelect
  simp only [if_neg hne, hd]
  rfl

/-! ### Locking and relocking (R36, R41) -/

/-- An attempt to relock a faulty seed is due: fewer than three were made, the next one's time since the fault has come, and it is 60 s after the last. -/
def State.RelockDue (s : State) (d : Seed) (r : Tick) : Prop :=
  s.seedStatus d = 3 ∧ s.mayRelock d = true ∧ (s.seed d).trying = false ∧ (s.seed d).attempts < 3 ∧ relockDue r (s.seed d).attempts ≤ s.now ∧
  ((s.seed d).attempts = 0 ∨ (s.seed d).lastAttempt + 60 * secondTicks ≤ s.now)

/-- The attempt counts, and the seed is on trial unless the attempt fails at once. -/
def State.relockTried (s : State) (d : Seed) (ok : Bool) : State :=
  let b := s.setSeed d { s.seed d with attempts := (s.seed d).attempts + 1, lastAttempt := s.now, trying := ok, lockAt := none }
  if ok then b else b.relockFailed d

theorem execSeedRelockAttempt_due {r : Tick} {ok : Bool} (hr : ((s.at t).seed d).ref = some r) (hd : (s.at t).RelockDue d r) :
    execSeedRelockAttempt t d ok s = .next ((s.at t).relockTried d ok) := by
  simp only [execSeedRelockAttempt, State.relockTried, hr]
  exact if_pos hd

theorem execSeedRelockAttempt_no_fault {ok : Bool} (hr : ((s.at t).seed d).ref = none) :
    execSeedRelockAttempt t d ok s = .next (s.at t) := by
  simp only [execSeedRelockAttempt, hr]

theorem execSeedLockAcquired_locking (hw : (s.at t).mode.working = true)
    (hst : (s.at t).seedStatus d = 1 ∨ ((s.at t).seedStatus d = 3 ∧ ((s.at t).seed d).trying = true)) :
    execSeedLockAcquired t d s = .next ((s.at t).setSeed d { (s.at t).seed d with lockAt := some (s.at t).now }) :=
  if_pos ⟨hst, hw⟩

theorem execSeedLockAcquired_not_working (hw : (s.at t).mode.working = false) : execSeedLockAcquired t d s = .next (s.at t) :=
  if_neg fun h => Bool.false_ne_true (hw.symm.trans h.2)

/-- A seed turned LOCKED, with nothing pending. -/
def State.seedSettled (s : State) (d : Seed) : State := (s.setSeedStatus d 2).setSeed d SeedSt.idle

theorem execSeedLocked_early {l : Tick} (hl : ((s.at t).seed d).lockAt = some l) (h : (s.at t).now < l + secondTicks) :
    execSeedLocked t d s = .next (s.at t) := by
  simp only [execSeedLocked, hl]
  exact if_pos (.inr h)

/-- A second after its lock a LOCKING seed is LOCKED, and a faulty one that was tried anew is restored. -/
theorem execSeedLocked_settled {l : Tick} (hl : ((s.at t).seed d).lockAt = some l) (hw : (s.at t).mode.working = true)
    (h : l + secondTicks ≤ (s.at t).now) :
    execSeedLocked t d s =
      if (s.at t).seedStatus d = 1 then
        .next (if d = ((s.at t).seedSettled d).activeSeed then (s.at t).seedSettled d else ((s.at t).seedSettled d).undoDone 2)
      else if (s.at t).seedStatus d = 3 ∧ ((s.at t).seed d).trying = true then
        .next (((s.at t).seedSettled d).raise Ev.seedRestored [u (seedIdx d)])
      else .next (s.at t) := by
  have hsettled : ¬ ((s.at t).mode.working = false ∨ (s.at t).now < l + secondTicks) :=
    not_or.mpr ⟨ne_false_of_eq_true hw, Nat.not_lt.mpr h⟩
  simp only [execSeedLocked, hl]
  exact if_neg hsettled

/-! ### Faults (R37, R38, R42) -/

theorem State.seedFaulted_not_working {a : State} (hw : a.mode.working = false) : a.seedFaulted d = a :=
  if_pos hw

theorem State.seedFaulted_faulty {a : State} (hw : a.mode.working = true) (hst : a.seedStatus d = 3) :
    a.seedFaulted d = if (a.seed d).trying = true then a.relockFailed d else a :=
  (if_neg (ne_false_of_eq_true hw)).trans (if_pos hst)

/-- The fault of a LOCKING or LOCKED seed: the active one is switched out or the module is left without light, and the standby's does that
in a switch interval only. -/
theorem State.seedFaulted_locking_or_locked {a : State} (hw : a.mode.working = true) (hst : a.seedStatus d = 1 ∨ a.seedStatus d = 2) :
    a.seedFaulted d = if d = a.activeSeed then a.activeFault d
      else if a.opt.switch.isSome = true then (a.standbyFault d).enterFault Cause.noSeed else (a.standbyFault d).undoDone 2 :=
  (if_neg (ne_false_of_eq_true hw)).trans <| (if_neg (by omega)).trans (if_neg (by omega))

end

/-- Settles O40, clause by clause from what each command makes of a seed's status. -/
theorem seedsLockFailAndSwitch : Obligations.SeedsLockFailAndSwitch := by
  refine fun s t => ⟨?select, ?selectNone, ?switchover, ?relock, ?relockNone, ?acquired, ?acquiredNot, ?locked, ?restored, ?lockedEarly,
    ?activeFaults, ?standbyFaults, ?faultyFaults, ?faultNot⟩
  case select =>
    intro d h
    refine ⟨fun hact => ?_, fun hact hst => ?_, fun hact hst => ?_⟩
    · exact (execSeedSelect_asked h).trans (if_pos hact)
    · exact (execSeedSelect_asked h).trans <| (if_neg hact).trans (if_pos hst)
    · exact (execSeedSelect_asked h).trans <| (if_neg hact).trans (if_neg (not_not.mpr hst))
  case selectNone => exact execSeedSelect_none
  case switchover => rfl
  case relock =>
    intro d r ok hr hst hmay htrying hfew hdue hpause
    exact execSeedRelockAttempt_due hr ⟨hst, hmay, htrying, hfew, hdue, hpause⟩
  case relockNone => exact fun _ _ => execSeedRelockAttempt_no_fault
  case acquired => exact fun _ => execSeedLockAcquired_locking
  case acquiredNot => exact fun _ => execSeedLockAcquired_not_working
  case locked => exact fun _ _ hl hw hd hst => (execSeedLocked_settled hl hw hd).trans (if_pos hst)
  case restored =>
    intro d l hl hw hd hst htrying
    exact (execSeedLocked_settled hl hw hd).trans <| (if_neg (by omega)).trans (if_pos ⟨hst, htrying⟩)
  case lockedEarly => exact fun _ _ => execSeedLocked_early
  case activeFaults => exact fun _ _ hw hst hact => congrArg _ ((State.seedFaulted_locking_or_locked hw hst).trans (if_pos hact))
  case standbyFaults => exact fun _ _ hw hst hact => congrArg _ ((State.seedFaulted_locking_or_locked hw hst).trans (if_neg hact))
  case faultyFaults => exact fun _ _ hw hst => congrArg _ (State.seedFaulted_faulty hw hst)
  case faultNot => exact fun _ _ hw => congrArg _ (State.seedFaulted_not_working hw)

end Sys2Proof.Machine

/-! PROOFS. Finding the fibre, and APR: the probe, the phases of a discovery, the launch clamp and the end of the hold. -/

namespace Sys2Proof.Machine

section
variable {s : State} {t : Tick} {p : Port}

/-! ### The probe (R53) -/

theorem State.probeDue_iff {a : State} :
    a.probeDue p = true ↔
      a.pState p = 0 ∧ a.mayLaunch p = true ∧ ∀ last, (a.portSt p).probeAt = some last → last + secondTicks ≤ a.now := by
  cases h : (a.portSt p).probeAt <;> simp [State.probeDue, h, and_assoc]

theorem State.probeDue_eq_false {a : State}
    (h : a.pState p ≠ 0 ∨ a.mayLaunch p = false ∨ ∃ last, (a.portSt p).probeAt = some last ∧ a.now < last + secondTicks) :
    a.probeDue p = false := by
  refine Bool.eq_false_iff.mpr fun hdue => ?_
  obtain ⟨hst, hmay, hlast⟩ := State.probeDue_iff.mp hdue
  rcases h with h | h | ⟨last, hat, hlt⟩
  · exact h hst
  · exact Bool.false_ne_true (h.symm.trans hmay)
  · exact Nat.not_le.mpr hlt (hlast last hat)

/-- The probe goes out, and its tick is kept. -/
def State.probed (s : State) (p : Port) : State :=
  (s.setPortSt p { s.portSt p with probeAt := some s.now }).emit (.pulse p 3 s.stamp probeLight)

theorem execNoFibreProbe_due {found : Bool} (h : (s.at t).probeDue p = true) :
    execNoFibreProbe t p found s =
      .next (if found = true ∧ ((s.at t).probed p).pState p.other ≠ 1 ∧ ((s.at t).probed p).afterA p = false
        then ((s.at t).probed p).discover p else (s.at t).probed p) :=
  if_pos h

theorem execNoFibreProbe_not_due {found : Bool} (h : (s.at t).probeDue p = false) : execNoFibreProbe t p found s = .next (s.at t) :=
  if_neg (ne_true_of_eq_false h)

/-! ### The phases of a discovery (R54, R55) -/

theorem execDiscoveryContinuityEnd_over {found : Bool} (h : (s.at t).phaseOver p .continuity 2000000 = true) :
    execDiscoveryContinuityEnd t p found s =
      .next (if found = true then (s.at t).toPhase p .ramp
        else ((s.at t).setPortSt p { (s.at t).portSt p with fibreFound := false }).noFibre p) :=
  if_pos h

theorem execDiscoveryContinuityEnd_early {found : Bool} (h : (s.at t).phaseOver p .continuity 2000000 = false) :
    execDiscoveryContinuityEnd t p found s = .next (s.at t) :=
  if_neg (ne_true_of_eq_false h)

theorem execDiscoveryRampEnd_over (h : (s.at t).phaseOver p .ramp 32000000 = true) :
    execDiscoveryRampEnd t p s = .next ((s.at t).toPhase p .ranging) :=
  if_pos h

theorem execDiscoveryRampEnd_early (h : (s.at t).phaseOver p .ramp 32000000 = false) : execDiscoveryRampEnd t p s = .next (s.at t) :=
  if_neg (ne_true_of_eq_false h)

/-- What the ranging found is kept for the profile, which begins. -/
def State.rangingKept (s : State) (p : Port) (r : Ranging) : State :=
  (s.setPortSt p { s.portSt p with found := some (s.rangedOn p r) }).toPhase p .profile

/-- The fibre turns out to come back at the other port: the event tells it, and the other port is looped, dark and held. -/
def State.loopDeclared (s : State) (p : Port) : State :=
  let c := s.raise Ev.fibreLooped [u p.idx, u p.other.idx]
  let d := c.setPortSt p.other { c.portSt p.other with looped := true }
  (d.channelsOff [preOf p.other]).publishHold p.other

/-- A loop seen by a port that is not itself the looped one is declared. -/
theorem execDiscoveryRangingEnd_over {r : Ranging} (h : (s.at t).phaseOver p .ranging 409600000 = true) :
    execDiscoveryRangingEnd t p r s =
      .next (if (r.loopSeen && !((s.at t).portSt p).looped) = true then ((s.at t).rangingKept p r).loopDeclared p else (s.at t).rangingKept p r) :=
  (if_pos h).trans (apply_ite _ _ _ _).symm

theorem execDiscoveryRangingEnd_early {r : Ranging} (h : (s.at t).phaseOver p .ranging 409600000 = false) :
    execDiscoveryRangingEnd t p r s = .next (s.at t) :=
  if_neg (ne_true_of_eq_false h)

/-- With a ranging kept, the profile ends the discovery once its time is over. -/
theorem execDiscoveryProfileEnd_of_found {r : Ranging} {profile winPeaks : List Nat} (hr : ((s.at t).portSt p).found = some r) :
    execDiscoveryProfileEnd t p profile winPeaks s =
      if (s.at t).phaseOver p .profile ((s.at t).profileTicks p r) = true then .next ((s.at t).discoveryDone p profile winPeaks)
      else .next (s.at t) := by
  simp only [execDiscoveryProfileEnd, hr]

/-! ### The clamp and the hold of APR (R47, R64) -/

theorem execLaunchClamp_launching (h : (s.at t).pState p = 1 ∨ (s.at t).pState p = 3) :
    execLaunchClamp t p s = .next (((s.at t).setClamp p true).enterApr p 2) :=
  if_pos h

theorem execLaunchClamp_not_launching (h1 : (s.at t).pState p ≠ 1) (h3 : (s.at t).pState p ≠ 3) : execLaunchClamp t p s = .next (s.at t) :=
  if_neg (not_or.mpr ⟨h1, h3⟩)

/-- APR may be left: its hold is over, and the port may launch. -/
def State.HoldOver (s : State) (p : Port) : Prop :=
  s.pState p = 4 ∧ (s.portSt p).aprSince + s.pP p (K.portAprHoldS p) * secondTicks ≤ s.now ∧ s.mayLaunch p = true

theorem State.not_holdOver_iff {a : State} :
    ¬ a.HoldOver p ↔
      a.pState p ≠ 4 ∨ a.now < (a.portSt p).aprSince + a.pP p (K.portAprHoldS p) * secondTicks ∨ a.mayLaunch p = false := by
  simp only [State.HoldOver, not_and_or, Nat.not_le, Bool.not_eq_true, ne_eq]

theorem execAprHoldExpiry_no_fibre (h : (s.at t).HoldOver p) : execAprHoldExpiry t p false s = .next ((s.at t).leaveApr p false) :=
  (if_pos h).trans (if_pos rfl)

/-- With a fibre found, APR is left where the port resumes by itself or was told to, while no other discovery is in the way. -/
theorem execAprHoldExpiry_fibre (h : (s.at t).HoldOver p) :
    execAprHoldExpiry t p true s =
      .next (if ((s.at t).pP p (K.portResume p) = 0 ∨ ((s.at t).portSt p).rediscover = true) ∧ (s.at t).pState p.other ≠ 1 ∧ (s.at t).afterA p = false
        then (s.at t).leaveApr p true else s.at t) :=
  (if_pos h).trans <| (if_neg nofun).trans (apply_ite _ _ _ _).symm

theorem execAprHoldExpiry_early {found : Bool} (h : ¬ (s.at t).HoldOver p) : execAprHoldExpiry t p found s = .next (s.at t) :=
  if_neg h

end

/-- Settles O41, clause by clause from what each command does once its time has come and before it. -/
theorem discoveryRunsThroughItsPhases : Obligations.DiscoveryRunsThroughItsPhases := by
  refine fun s t p => ⟨?probe, ?probeNot, ?continuity, ?ramp, ?ranging, ?profile, ?continuityEarly, ?rampEarly, ?rangingEarly, ?profileEarly,
    ?clamp, ?clampNot, ?holdOver, ?holdEarly⟩
  case probe => exact fun _ hst hmay hlast => execNoFibreProbe_due (State.probeDue_iff.mpr ⟨hst, hmay, hlast⟩)
  case probeNot => exact fun _ h => execNoFibreProbe_not_due (State.probeDue_eq_false h)
  case continuity => exact fun h => ⟨execDiscoveryContinuityEnd_over h, execDiscoveryContinuityEnd_over h⟩
  case ramp => exact execDiscoveryRampEnd_over
  case ranging => exact fun _ => execDiscoveryRangingEnd_over
  case profile => exact fun _ _ _ hr h => (execDiscoveryProfileEnd_of_found hr).trans (if_pos h)
  case continuityEarly => exact fun h _ => execDiscoveryContinuityEnd_early h
  case rampEarly => exact execDiscoveryRampEnd_early
  case rangingEarly => exact fun h _ => execDiscoveryRangingEnd_early h
  case profileEarly => exact fun _ hr h _ _ => (execDiscoveryProfileEnd_of_found hr).trans (if_neg (ne_true_of_eq_false h))
  case clamp => exact execLaunchClamp_launching
  case clampNot => exact execLaunchClamp_not_launching
  case holdOver =>
    intro hst hd hmay
    exact ⟨execAprHoldExpiry_no_fibre ⟨hst, hd, hmay⟩, execAprHoldExpiry_fibre ⟨hst, hd, hmay⟩⟩
  case holdEarly => exact fun _ h => execAprHoldExpiry_early (State.not_holdOver_iff.mpr h)

end Sys2Proof.Machine

/-! PROOFS. The emitter's proof windows, the DTS switch and the neighbour test: what each of these commands does at its time, and that it does nothing otherwise. -/

namespace Sys2Proof.Machine

section
variable {s : State} {t : Tick} {p : Port} {opens shorts : List Nat}

/-! ### Proof windows (R85) -/

/-- With a frame start scheduled, the port's proof window opens 2.5 µs (500 ticks) before it. -/
theorem execProofWindow_of_next {n : Tick} (h : ((s.at t).frame p).next = some n) :
    execProofWindow t (some p) opens shorts s =
      if n ≤ (s.at t).now + 500 then
        .next ((s.at t).proofs (strobeChannels p ((s.at t).hasFrames .a) (s.at t).opt.dts.turn) opens shorts)
      else .next (s.at t) := by
  simp only [execProofWindow, h]

theorem execProofWindow_internal_due (ha : (s.at t).hasFrames .a = false) (hb : (s.at t).hasFrames .b = false)
    (hn : (s.at t).opt.internalNext ≤ (s.at t).now + 500) :
    execProofWindow t none opens shorts s = .next ((s.at t).proofs (List.range 11) opens shorts) :=
  if_neg (by rw [ha, hb, decide_eq_false (Nat.not_lt.mpr hn)]; nofun)

theorem execProofWindow_internal_not_due
    (h : (s.at t).hasFrames .a = true ∨ (s.at t).hasFrames .b = true ∨ (s.at t).now + 500 < (s.at t).opt.internalNext) :
    execProofWindow t none opens shorts s = .next (s.at t) :=
  if_pos (by simpa only [Bool.or_eq_true, decide_eq_true_eq, or_assoc] using h)

/-! ### The DTS switch (R84) -/

/-- A moving DTS switch is free once the instant its move ends at is reached. -/
theorem execDtsSwitchSettled_of_moving {m : Tick} (h : (s.at t).opt.dts.moving = some m) :
    execDtsSwitchSettled t s =
      if m ≤ (s.at t).now then
        .next { s.at t with opt := { (s.at t).opt with dts := { (s.at t).opt.dts with moving := none, settledAt := m } } }
      else .next (s.at t) := by
  simp only [execDtsSwitchSettled, h]

/-! ### The neighbour test (R302, R303) -/

/-- What the neighbour test leaves of a seed: one that was LOCKING or LOCKED begins to lock anew (R36). -/
def State.lockAnew (s : State) (d : Seed) : State :=
  if s.seedStatus d = 1 ∨ s.seedStatus d = 2 then (s.setSeedStatus d 1).setSeed d SeedSt.idle else s

/-- The neighbour test that was asked for: the request is used up, the seeds lock anew, and those found shorted are faulted (R303). -/
def State.neighbourTested (s : State) (pairs : List (Nat × Nat)) : State :=
  let b : State := { s with drive := { s.drive with testDue := false } }
  (((b.neighbourTest pairs).lockAnew .s0).lockAnew .s1).drivesFaulted b

theorem execNeighbourTest_due {pairs : List (Nat × Nat)} (hd : (s.at t).drive.testDue = true) (hm : (s.at t).mode = .ready) :
    execNeighbourTest t pairs s = .next ((s.at t).neighbourTested pairs) :=
  if_pos ⟨hd, hm⟩

theorem execNeighbourTest_not_due {pairs : List (Nat × Nat)} (h : (s.at t).drive.testDue = false ∨ (s.at t).mode ≠ .ready) :
    execNeighbourTest t pairs s = .next (s.at t) :=
  if_neg fun ⟨hd, hm⟩ => h.elim (ne_false_of_eq_true hd) (· hm)

end

/-- Settles O38, clause by clause from what each command does once its time has come and before it. -/
theorem proofsAndTestsOfTheEmitter : Obligations.ProofsAndTestsOfTheEmitter := by
  refine fun s t => ⟨?window, ?windowEarly, ?internal, ?internalNot, ?settled, ?moving, ?test, ?testNot⟩
  case window => exact fun _ _ _ _ h hle => (execProofWindow_of_next h).trans (if_pos hle)
  case windowEarly => exact fun _ _ _ _ h hlt => (execProofWindow_of_next h).trans (if_neg (Nat.not_le.mpr hlt))
  case internal => exact fun _ _ => execProofWindow_internal_due
  case internalNot => exact fun _ _ => execProofWindow_internal_not_due
  case settled => exact fun _ h hle => (execDtsSwitchSettled_of_moving h).trans (if_pos hle)
  case moving => exact fun _ h hlt => (execDtsSwitchSettled_of_moving h).trans (if_neg (Nat.not_le.mpr hlt))
  case test => exact fun _ => execNeighbourTest_due
  case testNot => exact fun _ => execNeighbourTest_not_due

end Sys2Proof.Machine

/-! PROOFS. From a launch to its tiles: field words, strain words, the corner turn and the streams. What each of these commands does once its time has come, and that it
does nothing otherwise. -/

namespace Sys2Proof.Machine

section
variable {s : State} {t : Tick} {p : Port}

/-! ### Field words (R54, R110, R115) -/

/-- A discovery's own trace only checks continuity: lost in ramp or ranging, it brings APR. -/
theorem execTraceFieldWords_discovery {obs : TraceObs} {ph : Phase} {since : Tick} (h : ((s.at t).portSt p).phase = some (ph, since)) :
    execTraceFieldWords t p obs s =
      .next (if (s.at t).pState p = 1 ∧ (ph = .ramp ∨ ph = .ranging) ∧ continuityLost obs.newLast = true then (s.at t).enterApr p 3
        else s.at t) := by
  simp only [execTraceFieldWords, h]

theorem execTraceFieldWords_no_launch {obs : TraceObs} (hph : ((s.at t).portSt p).phase = none) (hl : ((s.at t).frame p).inflight = []) :
    execTraceFieldWords t p obs s = .next (s.at t) := by
  simp only [execTraceFieldWords, hph, hl]

/-- When a launch's field words are complete: L_field after the last point's return (R96, R110). -/
def Launch.fieldDue (l : Launch) (p : Port) : Tick :=
  l.tick + lastArrival l.first l.count (l.set.get (K.portPointsPitch p)) + fieldDelay l.set p

/-- Outside discovery the field words are those of the oldest launch in flight. -/
theorem execTraceFieldWords_oldest {obs : TraceObs} {l : Launch} {rest : List Launch} (hph : ((s.at t).portSt p).phase = none)
    (hl : ((s.at t).frame p).inflight = l :: rest) :
    execTraceFieldWords t p obs s =
      if (s.at t).power.clocks.dsp = false ∨ l.tick ≠ obs.launch ∨ (s.at t).now < l.fieldDue p then .next (s.at t)
      else .next ((((s.at t).takeAdc p obs.samples).takeMonitor obs.monitor).fieldTrace p l rest obs) := by
  simp only [execTraceFieldWords, hph, hl]
  rfl

/-! ### Strain words (R115, R129, R261) -/

theorem execTraceStrainWords_no_trace {full : Bool} (h : ((s.at t).coh p).strain = []) : execTraceStrainWords t p full s = .next (s.at t) := by
  simp only [execTraceStrainWords, h]

/-- When a trace's strain words are complete: L_strain after the last point's return (R96, R115), under the values of the trace's epoch. -/
def State.strainDue (s : State) (p : Port) (tr : StrainTrace) : Tick :=
  tr.header.launchTick + lastArrival tr.header.first tr.header.count tr.header.pitch + strainDelay (s.traceSet p tr.header.epoch) p

/-- What the oldest trace's strain words come to: lost where P1 is full, else in the corner-turn buffer once it has room (R129, R261). -/
def State.strainTaken (s : State) (p : Port) (tr : StrainTrace) (rest : List StrainTrace) (full : Bool) : State :=
  let b := s.setCoh p { s.coh p with strain := rest }
  if full = true then b.traceDropped K.memP1DroppedTraces p tr.header.launch tr.header.epoch
  else if s.cornerRoom p tr = true then (b.alarmTake p tr).cornerTake p tr else s

theorem execTraceStrainWords_oldest {full : Bool} {tr : StrainTrace} {rest : List StrainTrace} (h : ((s.at t).coh p).strain = tr :: rest) :
    execTraceStrainWords t p full s =
      if (s.at t).power.clocks.dsp = false ∨ (s.at t).now < (s.at t).strainDue p tr then .next (s.at t)
      else .next ((s.at t).strainTaken p tr rest full) := by
  simp only [execTraceStrainWords, h, State.strainDue, State.strainTaken, apply_ite Host.Outcome.next]

/-! ### Decimation (R129, R130) -/

theorem execDecimationTileProcessed_no_tile (h : ((s.at t).coh p).corner = []) : execDecimationTileProcessed t p s = .next (s.at t) := by
  simp only [execDecimationTileProcessed, h]

/-- The oldest tile has gone through the port's chains: closed blocks are a boundary, where the links are judged (R139). -/
def State.tileDecimated (s : State) (p : Port) (y : CornerTile) (rest : List CornerTile) : State :=
  let r := ((s.setCoh p { s.coh p with corner := rest }).dropEvals p).streamTraces p y.traces
  if r.2 = true then r.1.linkBudget else r.1

theorem execDecimationTileProcessed_oldest {y : CornerTile} {rest : List CornerTile} (h : ((s.at t).coh p).corner = y :: rest) :
    execDecimationTileProcessed t p s =
      if y.ready = false ∨ (s.at t).power.clocks.fabric = false then .next (s.at t) else .next ((s.at t).tileDecimated p y rest) := by
  simp only [execDecimationTileProcessed, h, State.tileDecimated]

/-! ### Sending (R130, R371) -/

/-- A stream may send: its tile is the oldest, and neither FAULT nor its own suspension holds it. -/
def State.MaySend (s : State) (n : Nat) : Prop := s.tileTurn n = true ∧ s.mode ≠ .fault ∧ (s.stream n).suspended = false

theorem State.not_maySend_iff {a : State} {n : Nat} :
    ¬ a.MaySend n ↔ a.tileTurn n = false ∨ a.mode = .fault ∨ (a.stream n).suspended = true := by
  simp only [State.MaySend, not_and_or, Bool.not_eq_true, Bool.not_eq_false, ne_eq, not_not]

/-- The state a tile leaves from: at the first tile of a block AUTO subscribers return and the links are judged. -/
def State.blockJudged (s : State) (n : Nat) : State :=
  if ((s.stream n).queue.head?.map (fun x => x.index == 0)).getD false = true then (s.autoReturn n).linkBudget else s

/-- The model's test of a sending is `State.MaySend`; a suspension by the links just judged keeps the tile back. -/
theorem execNspTileSend_eq {n : Nat} [Decidable ((s.at t).MaySend n)] :
    execNspTileSend t n s =
      if (s.at t).MaySend n then
        .next (if (((s.at t).blockJudged n).stream n).suspended = false then ((s.at t).blockJudged n).sendTile n else (s.at t).blockJudged n)
      else .next (s.at t) :=
  ite_congr (by simp only [State.MaySend, Bool.and_eq_true, bne_iff_ne, beq_iff_eq, and_assoc]) (fun _ => rfl) (fun _ => rfl)

theorem execNspTileSend_maySend {n : Nat} (h : (s.at t).MaySend n) :
    execNspTileSend t n s =
      .next (if (((s.at t).blockJudged n).stream n).suspended = false then ((s.at t).blockJudged n).sendTile n else (s.at t).blockJudged n) := by
  classical rw [execNspTileSend_eq, if_pos h]

theorem execNspTileSend_not_maySend {n : Nat} (h : ¬ (s.at t).MaySend n) : execNspTileSend t n s = .next (s.at t) := by
  classical rw [execNspTileSend_eq, if_neg h]

end

/-- Settles O42, clause by clause from what each command does with the oldest launch, trace or tile, and without one. -/
theorem tracesBecomeTiles : Obligations.TracesBecomeTiles := by
  refine fun s t p => ⟨?discovery, ?field, ?fieldNone, ?strain, ?strainNone, ?tile, ?tileNot, ?send, ?sendNot⟩
  case discovery => exact fun _ _ _ => execTraceFieldWords_discovery
  case field =>
    intro obs l rest hph hl
    refine ⟨fun hclock hlaunch hdue => ?_, fun hnot => ?_⟩
    · exact (execTraceFieldWords_oldest hph hl).trans <| if_neg <|
        not_or.mpr ⟨ne_false_of_eq_true hclock, not_or.mpr ⟨not_not.mpr hlaunch, Nat.not_lt.mpr hdue⟩⟩
    · exact (execTraceFieldWords_oldest hph hl).trans (if_pos hnot)
  case fieldNone => exact fun _ => execTraceFieldWords_no_launch
  case strain =>
    intro tr rest htr
    refine ⟨fun hclock hdue => ?_, fun _ hnot => (execTraceStrainWords_oldest htr).trans (if_pos hnot)⟩
    have taken (full : Bool) : execTraceStrainWords t p full s = .next ((s.at t).strainTaken p tr rest full) :=
      (execTraceStrainWords_oldest htr).trans (if_neg (not_or.mpr ⟨ne_false_of_eq_true hclock, Nat.not_lt.mpr hdue⟩))
    exact ⟨taken true, taken false⟩
  case strainNone => exact fun _ => execTraceStrainWords_no_trace
  case tile =>
    intro y rest hy hready hclock
    exact (execDecimationTileProcessed_oldest hy).trans <| if_neg <|
      not_or.mpr ⟨ne_false_of_eq_true hready, ne_false_of_eq_true hclock⟩
  case tileNot =>
    rintro (hnone | ⟨y, rest, hy, hnot⟩)
    · exact execDecimationTileProcessed_no_tile hnone
    · exact (execDecimationTileProcessed_oldest hy).trans (if_pos hnot)
  case send => exact fun _ hturn hmode hrun => execNspTileSend_maySend ⟨hturn, hmode, hrun⟩
  case sendNot => exact fun _ h => execNspTileSend_not_maySend (State.not_maySend_iff.mpr h)

end Sys2Proof.Machine

/-! PROOFS. Gains, I and Q terms, weights and quality of a port: what each of these commands makes of a run of frames that is over, or of a second, and that a run that is
not over stays as it is. -/

namespace Sys2Proof.Machine

section
variable {s : State} {t : Tick} {p : Port}

/-! ### Gains (R98) -/

/-- Every gain window judged by its run: its record for the next run, and its new step. -/
def State.gainsJudged (s : State) (p : Port) : List (GainWin × Nat) :=
  (List.range 64).map (fun w => gainEvaluate ((s.coh p).gains.getD w ⟨0, 0, 0⟩) (s.roGet (K.portRxGain p w)))

/-- The windows whose judged step differs from the one in force, with the new step. -/
def State.gainMoves (s : State) (p : Port) : List (Nat × Nat) :=
  ((List.range 64).filter (fun w => decide (((s.gainsJudged p).getD w (⟨0, 0, 0⟩, 0)).2 ≠ s.roGet (K.portRxGain p w)))).map
    (fun w => (w, ((s.gainsJudged p).getD w (⟨0, 0, 0⟩, 0)).2))

/-- A gain run is over: FIXED mode begins a new one, AUTO mode judges the windows as well. -/
def State.gainRunEnded (s : State) (p : Port) : State :=
  if s.pP p (K.portRxGainMode p) = 1 then s.setCoh p { s.coh p with frames := 0, gains := List.replicate 64 ⟨0, 0, 0⟩ }
  else s.setCoh p { s.coh p with frames := 0, gains := (s.gainsJudged p).map (·.1), gainPending := s.gainMoves p }

theorem State.gainRunEnded_fixed {a : State} (h : a.pP p (K.portRxGainMode p) = 1) :
    a.gainRunEnded p = a.setCoh p { a.coh p with frames := 0, gains := List.replicate 64 ⟨0, 0, 0⟩ } :=
  if_pos h

theorem State.gainRunEnded_auto {a : State} (h : a.pP p (K.portRxGainMode p) ≠ 1) :
    a.gainRunEnded p = a.setCoh p { a.coh p with frames := 0, gains := (a.gainsJudged p).map (·.1), gainPending := a.gainMoves p } :=
  if_neg h

theorem execGainRunEvaluation_over (hrun : 256 ≤ ((s.at t).coh p).frames) (hf : (s.at t).hasFrames p = true) :
    execGainRunEvaluation t p s = .next ((s.at t).gainRunEnded p) :=
  (if_neg (not_or.mpr ⟨Nat.not_lt.mpr hrun, ne_false_of_eq_true hf⟩)).trans (apply_ite Host.Outcome.next _ _ _).symm

theorem execGainRunEvaluation_not_over (h : ((s.at t).coh p).frames < 256 ∨ (s.at t).hasFrames p = false) :
    execGainRunEvaluation t p s = .next (s.at t) :=
  if_pos h

/-! ### I and Q terms (R97) -/

/-- The skews after a run: each of the four moved as its polarisation's statistics say, within ±15. -/
def State.skewsMoved (s : State) (p : Port) (x y : IqStats) : List Int :=
  (List.range 4).map (fun n => clampInt (-15) 15 (s.roInt (K.portIqSkew p n) + (x.skew.take 2 ++ y.skew.take 2).getD n 0))

theorem execIqTermUpdate_over {x y : IqStats} (h : 16384 ≤ ((s.at t).coh p).iqFrames) :
    execIqTermUpdate t p x y s =
      .next (((s.at t).setCoh p { (s.at t).coh p with
        iqFrames := 0,
        iqPending := some (((s.at t).coh p).iqX.update x, ((s.at t).coh p).iqY.update y, (s.at t).skewsMoved p x y) }).roSet
          (K.portIqImageRejection p) (imageRejection x y)) :=
  if_neg (Nat.not_lt.mpr h)

theorem execIqTermUpdate_not_over {x y : IqStats} (h : ((s.at t).coh p).iqFrames < 16384) : execIqTermUpdate t p x y s = .next (s.at t) :=
  if_pos h

/-! ### Weights (R108) -/

theorem CohPort.newWeights_adaptive (c : CohPort) (noiseless : List Nat) :
    c.newWeights true noiseless = c.segs.map (fun x => weightsOf ((List.range 8).map x.slotMean) c.noise noiseless) := by
  simp only [CohPort.newWeights, if_true]

theorem CohPort.newWeights_equal (c : CohPort) (noiseless : List Nat) :
    c.newWeights false noiseless = c.segs.map (fun _ => List.replicate 8 65536) := by
  simp only [CohPort.newWeights, Bool.false_eq_true, if_false]

theorem execCombineWeightRecompute_over {noiseless : List Nat} (h : 256 ≤ ((s.at t).coh p).combineFrames) :
    execCombineWeightRecompute t p noiseless s =
      .next ((s.at t).setCoh p { (s.at t).coh p with
        combineFrames := 0,
        weightsNext := some (((s.at t).coh p).newWeights ((s.at t).pP p (K.portCombineMode p) == 0) noiseless) }) :=
  if_neg (Nat.not_lt.mpr h)

theorem execCombineWeightRecompute_not_over {noiseless : List Nat} (h : ((s.at t).coh p).combineFrames < 256) :
    execCombineWeightRecompute t p noiseless s = .next (s.at t) :=
  if_pos h

/-! ### Quality (R118, R134) -/

/-- The port's second ends: its TAI second is over, and no trace launched in it is still to be formed. -/
def State.secondEnds (s : State) (p : Port) : Bool :=
  decide ((s.coh p).secondStart / secondUnits < s.stamp / secondUnits) &&
    (s.frame p).inflight.all (fun l => decide ((s.coh p).secondStart / secondUnits < l.stamp / secondUnits))

/-- The port's pipeline with its second closed where it ends. -/
def State.secondJudged (s : State) (p : Port) : CohPort := if s.secondEnds p = true then (s.coh p).closeSecond else s.coh p

/-- A closed part's summaries are published, segment by segment, and go to the QUALITY streams. -/
def State.summariesPublished (s : State) (p : Port) (e : SecondSum) : State :=
  ((List.range e.segs.length).foldl (fun st k => st.setSummary p k (e.segs.getD k ⟨0, 0, 0, 0, 0, 0⟩)) s).qualityBlock p e

theorem execQualitySummary_eq :
    execQualitySummary t p s =
      .next (((s.at t).secondJudged p).closed.foldl (fun st e => st.summariesPublished p e)
        ((s.at t).setCoh p { (s.at t).secondJudged p with closed := [] })).settleAll := by
  simp only [execQualitySummary, State.secondJudged, State.secondEnds, State.summariesPublished, Bool.and_eq_true, decide_eq_true_eq]

end

/-- Settles O43, clause by clause from what each command makes of a run of frames or a second that is over. -/
theorem coherentTermsAreUpdated : Obligations.CoherentTermsAreUpdated := by
  refine fun s t p => ⟨?gainFixed, ?gainAuto, ?gainNot, ?iq, ?iqNot, ?adaptive, ?equal, ?weightsNot, ?quality⟩
  case gainFixed => exact fun hrun hf hm => (execGainRunEvaluation_over hrun hf).trans (congrArg _ (State.gainRunEnded_fixed hm))
  case gainAuto => exact fun hrun hf hm => (execGainRunEvaluation_over hrun hf).trans (congrArg _ (State.gainRunEnded_auto hm))
  case gainNot => exact execGainRunEvaluation_not_over
  case iq => exact fun _ _ => execIqTermUpdate_over
  case iqNot => exact fun _ _ => execIqTermUpdate_not_over
  case adaptive =>
    intro noiseless hrun hm
    rw [exec_combineWeightRecompute, execCombineWeightRecompute_over hrun, beq_iff_eq.mpr hm, CohPort.newWeights_adaptive]
  case equal =>
    intro noiseless hrun hm
    rw [exec_combineWeightRecompute, execCombineWeightRecompute_over hrun, beq_eq_false_iff_ne.mpr hm, CohPort.newWeights_equal]
  case weightsNot => exact fun _ => execCombineWeightRecompute_not_over
  case quality => exact execQualitySummary_eq

end Sys2Proof.Machine

/-! PROOFS. Retransmission and the idle streams: what a NACK leaves asked for, what a link makes of the oldest request, what a release leaves, and when IDLE and SUSPENDED
go out. -/

namespace Sys2Proof.Machine

section
variable {s : State} {t : Tick} {sid : Nat}

/-! ### NACK (R137) -/

/-- The numbers a NACK names that its stream has sent. -/
def State.nackSeqs (s : State) (sid : Nat) (n : Nack) : List Nat := (rangeSeqs n.ranges).filter (fun q => !(newer q (s.lastSeq sid)))

/-- A tile of this number is kept. -/
def StreamSt.holds (x : StreamSt) (q : Nat) : Bool := x.held.any (fun h => h.seq == q)

/-- The subscriber a NACK comes from, as the stream sends to it. -/
def StreamSt.nacker (x : StreamSt) (sid : Nat) (n : Nack) : Option Dest := (x.dests sid).find? (fun d => d.sub == n.subscriber)

/-- The requests a NACK makes: one for each number whose tile is kept, if the stream sends to its subscriber. -/
def State.nackReqs (s : State) (sid : Nat) (n : Nack) : List RetxReq :=
  ((s.nackSeqs sid n).filter (s.stream sid).holds).filterMap (fun q => ((s.stream sid).nacker sid n).map (fun d => ⟨d, q, n.link, s.now⟩))

theorem State.nackReqs_of_nacker {a : State} {n : Nack} {d : Dest} (h : (a.stream sid).nacker sid n = some d) :
    a.nackReqs sid n = ((a.nackSeqs sid n).filter (a.stream sid).holds).map (fun q => ⟨d, q, n.link, a.now⟩) := by
  simp only [State.nackReqs, h, Option.map_some, List.filterMap_eq_map']

theorem State.nackReqs_of_no_nacker {a : State} {n : Nack} (h : (a.stream sid).nacker sid n = none) : a.nackReqs sid n = [] := by
  simp only [State.nackReqs, h, Option.map_none, List.filterMap_none]

/-- A NACK's requests join the queue, and the numbers whose tiles are gone are reported. -/
def State.nacked (s : State) (sid : Nat) (n : Nack) (reqs : List RetxReq) : State :=
  (s.setStream sid { s.stream sid with retx := (s.stream sid).retx ++ reqs }).gone sid n.subscriber
    ((s.nackSeqs sid n).filter (fun q => !((s.stream sid).holds q)))

theorem execNack_accepted {n : Nack} (h : (s.at t).nackOk sid n = true) :
    execNack t sid n s = .next ((s.at t).nacked sid n ((s.at t).nackReqs sid n)) :=
  if_neg (ne_false_of_eq_true h)

theorem execNack_rejected {n : Nack} (h : (s.at t).nackOk sid n = false) :
    execNack t sid n s = .next ((s.at t).bump (K.streamNackRejected sid) 1) :=
  if_pos h

/-! ### Retransmission (R137) -/

/-- What a link has retransmitted in the span of 10 ms that holds now, before this tile. -/
def LinkSt.shareUsed (l : LinkSt) (now : Tick) : Nat := if l.shareAt + 2000000 ≤ now then 0 else l.share

/-- When that span began: now, if the one before is over (log entry 65). -/
def LinkSt.shareBegan (l : LinkSt) (now : Tick) : Tick := if l.shareAt + 2000000 ≤ now then now else l.shareAt

/-- A kept tile goes out again on a link: its request is done, the link's share counts its bytes, the tile keeps where it went, and its stream counts it served. -/
def State.tileSentAgain (s : State) (link : Port) (sid : Nat) (r : RetxReq) (h : HeldTile) : State :=
  let l := s.link link
  let b := (s.setStream sid { s.stream sid with retx := (s.stream sid).retx.erase r }).setLink link
    { l with share := l.shareUsed s.now + h.bytes.length, shareAt := l.shareBegan s.now }
  let c := b.setStream sid { b.stream sid with held := (b.stream sid).held.map (fun y => if y.seq = r.seq then y.sentOn r.dest link s.now else y) }
  (c.sendDest sid h.bytes r.dest [link]).bump (K.streamNackServed sid) 1

/-- A request whose tile is no longer kept is done; its subscriber is told, if it is still the present one. -/
def State.requestGone (s : State) (sid : Nat) (r : RetxReq) : State :=
  let b := s.setStream sid { s.stream sid with retx := (s.stream sid).retx.erase r }
  if b.asks sid r = true then b.gone sid r.dest.sub [r.seq] else b

/-- A link may retransmit: it is up, and no first transmission waits on it. -/
def State.MayRetransmit (s : State) (link : Port) : Prop := (s.link link).up = true ∧ s.firstWaiting link = false

theorem State.MayRetransmit.not_held {a : State} {link : Port} (h : a.MayRetransmit link) :
    ¬ ((a.link link).up = false ∨ a.firstWaiting link = true) :=
  not_or.mpr ⟨ne_false_of_eq_true h.1, ne_true_of_eq_false h.2⟩

/-- The oldest request goes out where the share of the link leaves room for its tile. -/
theorem execRetransmissionSend_kept {link : Port} {r : RetxReq} {h : HeldTile} (hmay : (s.at t).MayRetransmit link)
    (hr : (s.at t).oldestRetx link = some (sid, r)) (hh : ((s.at t).stream sid).held.find? (fun y => y.seq == r.seq) = some h) :
    execRetransmissionSend t link s =
      if ((s.at t).link link).rate10ms * ((s.at t).stream sid).par K.nspRetxShare <
          100 * (((s.at t).link link).shareUsed (s.at t).now + h.bytes.length) then .next (s.at t)
      else .next ((s.at t).tileSentAgain link sid r h) := by
  simp only [execRetransmissionSend, if_neg hmay.not_held, hr, hh, decide_eq_true_eq]
  rfl

theorem execRetransmissionSend_gone {link : Port} {r : RetxReq} (hmay : (s.at t).MayRetransmit link)
    (hr : (s.at t).oldestRetx link = some (sid, r)) (hh : ((s.at t).stream sid).held.find? (fun y => y.seq == r.seq) = none) :
    execRetransmissionSend t link s = .next ((s.at t).requestGone sid r) := by
  simp only [execRetransmissionSend, if_neg hmay.not_held, hr, hh]
  rfl

theorem execRetransmissionSend_held {link : Port} (h : ((s.at t).link link).up = false ∨ (s.at t).firstWaiting link = true) :
    execRetransmissionSend t link s = .next (s.at t) :=
  if_pos h

theorem execRetransmissionSend_no_request {link : Port} (h : (s.at t).oldestRetx link = none) :
    execRetransmissionSend t link s = .next (s.at t) := by
  simp only [execRetransmissionSend, h, ite_self]

/-! ### IDLE and SUSPENDED (R138) -/

/-- IDLE is due to a subscriber: its stream runs, serves it, and has sent it nothing for 100 ms. -/
def State.IdleDue (s : State) (sid sub : Nat) : Prop :=
  (s.stream sid).par (K.streamEnable sid) = 1 ∧ (s.stream sid).suspended = false ∧ sub ∈ (s.stream sid).activeSubs sid ∧
    sentLongAgo ((s.stream sid).subs.getD sub SubSt.idle) s.now = true ∧ s.mode.served = true

theorem execIdle_due {sub : Nat} (h : (s.at t).IdleDue sid sub) : execIdle t sid sub s = .next ((s.at t).control sid sub 0 []) :=
  if_pos h

theorem execIdle_not_due {sub : Nat} (h : ¬ (s.at t).IdleDue sid sub) : execIdle t sid sub s = .next (s.at t) :=
  if_neg h

theorem State.not_idleDue {a : State} {sub : Nat}
    (h : sentLongAgo ((a.stream sid).subs.getD sub SubSt.idle) a.now = false ∨ (a.stream sid).par (K.streamEnable sid) ≠ 1 ∨
      (a.stream sid).suspended = true) : ¬ a.IdleDue sid sub := by
  rintro ⟨hon, hrun, -, hlong, -⟩
  rcases h with hshort | hoff | hsusp
  · exact ne_false_of_eq_true hlong hshort
  · exact hoff hon
  · exact ne_true_of_eq_false hrun hsusp

theorem execSuspended_due (hsusp : ((s.at t).stream sid).suspended = true)
    (hdue : ((s.at t).stream sid).suspendedSent + secondTicks ≤ (s.at t).now) :
    execSuspended t sid s =
      .next ((((s.at t).stream sid).activeSubs sid).foldl (fun st m => st.control sid m 2 [])
        ((s.at t).setStream sid { (s.at t).stream sid with suspendedSent := (s.at t).now })) :=
  if_pos ⟨hsusp, hdue⟩

theorem execSuspended_not_due
    (h : ((s.at t).stream sid).suspended = false ∨ (s.at t).now < ((s.at t).stream sid).suspendedSent + secondTicks) :
    execSuspended t sid s = .next (s.at t) :=
  if_neg (not_and_or.mpr (h.imp ne_true_of_eq_false Nat.not_le.mpr))

end

/-- Settles O44, clause by clause from what each command does; a release is defined as its clause says. -/
theorem lostTilesAreSentAgain : Obligations.LostTilesAreSentAgain := by
  refine fun s t sid => ⟨?nack, ?nackNot, ?kept, ?gone, ?nothing, ?release, ?idle, ?idleNot, ?suspended, ?suspendedNot⟩
  case nack =>
    intro n hok
    exact ⟨fun _ hd => (execNack_accepted hok).trans (congrArg _ (congrArg _ (State.nackReqs_of_nacker hd))),
      fun hd => (execNack_accepted hok).trans (congrArg _ (congrArg _ (State.nackReqs_of_no_nacker hd)))⟩
  case nackNot => exact fun _ => execNack_rejected
  case kept =>
    intro link r h hup hfirst hr hh
    exact ⟨fun hroom => (execRetransmissionSend_kept ⟨hup, hfirst⟩ hr hh).trans (if_neg (Nat.not_lt.mpr hroom)),
      fun hfull => (execRetransmissionSend_kept ⟨hup, hfirst⟩ hr hh).trans (if_pos hfull)⟩
  case gone => exact fun _ _ hup hfirst => execRetransmissionSend_gone ⟨hup, hfirst⟩
  case nothing =>
    rintro link (hdown | hfirst | hnone)
    · exact execRetransmissionSend_held (.inl hdown)
    · exact execRetransmissionSend_held (.inr hfirst)
    · exact execRetransmissionSend_no_request hnone
  case release => exact exec_retxTileRelease t sid s
  case idle => exact fun _ hon hrun hsub hlong hmode => execIdle_due ⟨hon, hrun, hsub, hlong, hmode⟩
  case idleNot => exact fun _ h => execIdle_not_due (State.not_idleDue h)
  case suspended => exact execSuspended_due
  case suspendedNot => exact execSuspended_not_due

end Sys2Proof.Machine

/-! PROOFS. The network links: a link lost, a link that comes up, and the kept link of GEODE. -/

namespace Sys2Proof.Machine

section
variable {s : State} {t : Tick} {link : Port}

/-! ### Loss (R139, R380) -/

theorem execNetworkLinkLoss_awake (hg : (s.at t).power.geode = none) :
    execNetworkLinkLoss t link s = .next (((s.at t).linkDown link).testedLink link false) := by
  simp only [execNetworkLinkLoss, hg]

/-- GEODE's kept link is lost, and its loss is kept for the next try. -/
def State.keptLinkLost (s : State) (link : Port) (g : Geode) : State :=
  let b := s.setLink link { s.link link with up := false, since := s.now }
  b.withPower { b.power with geode := some { g with down := some b.now } }

/-- In GEODE only the loss of the kept link, while it is up, does anything. -/
theorem execNetworkLinkLoss_geode {g : Geode} (hg : (s.at t).power.geode = some g) :
    execNetworkLinkLoss t link s =
      if g.kept = some link ∧ ((s.at t).link link).up = true then .next ((s.at t).keptLinkLost link g) else .next (s.at t) := by
  simp only [execNetworkLinkLoss, hg, State.keptLinkLost]

/-! ### A link comes up (R139, R377, R380, R407) -/

/-- A link may come up: it is down, and the module is neither OFF nor in SAVE. -/
def State.MayRise (s : State) (link : Port) : Prop := (s.link link).up = false ∧ s.mode ≠ .off ∧ s.mode ≠ .save

theorem State.MayRise.not_barred {a : State} (h : a.MayRise link) : ¬ ((a.link link).up = true ∨ a.mode = .off ∨ a.mode = .save) := by
  obtain ⟨hdown, hoff, hsave⟩ := h
  exact not_or.mpr ⟨ne_true_of_eq_false hdown, not_or.mpr ⟨hoff, hsave⟩⟩

/-- A link is up from now on, at a rate. -/
def State.linkUpAt (s : State) (link : Port) (gigabit : Bool) : State :=
  s.setLink link { s.link link with up := true, gigabit := gigabit, since := s.now }

/-- GEODE's kept link is up again, at 1000BASE-T, and no loss of it is kept. -/
def State.keptLinkUp (s : State) (link : Port) (g : Geode) : State :=
  let b := s.linkUpAt link true
  b.withPower { b.power with geode := some { g with down := none } }

theorem execNetworkLinkUp_barred {gigabit : Bool} (h : ((s.at t).link link).up = true ∨ (s.at t).mode = .off ∨ (s.at t).mode = .save) :
    execNetworkLinkUp t link gigabit s = .next (s.at t) :=
  if_pos h

/-- A link that a test holds comes up for the test alone. -/
theorem execNetworkLinkUp_held {gigabit : Bool} (hup : (s.at t).MayRise link) (hheld : (s.at t).linkHeld link = true) :
    execNetworkLinkUp t link gigabit s = .next ((s.at t).testedLink link true) :=
  (if_neg hup.not_barred).trans (if_pos hheld)

theorem execNetworkLinkUp_awake {gigabit : Bool} (hup : (s.at t).MayRise link) (hfree : (s.at t).linkHeld link = false)
    (hg : (s.at t).power.geode = none) :
    execNetworkLinkUp t link gigabit s =
      .next ((((s.at t).linkUpAt link (gigabit || (s.at t).mode == .bedrock)).moveTo link).relinkNext link) := by
  simp only [execNetworkLinkUp, if_neg hup.not_barred, if_neg (ne_true_of_eq_false hfree), hg, State.linkUpAt]

theorem execNetworkLinkUp_geode {gigabit : Bool} {g : Geode} (hup : (s.at t).MayRise link) (hfree : (s.at t).linkHeld link = false)
    (hg : (s.at t).power.geode = some g) :
    execNetworkLinkUp t link gigabit s =
      if g.kept = some link ∧ g.deep = false then .next ((s.at t).keptLinkUp link g) else .next (s.at t) := by
  simp only [execNetworkLinkUp, if_neg hup.not_barred, if_neg (ne_true_of_eq_false hfree), hg, State.keptLinkUp, State.linkUpAt]

/-! ### ARP and neighbour solicitation (R380) -/

/-- A link answers for an address: shallow GEODE keeps it, it is up, and the address is the module's own. -/
def State.AnswersFor (s : State) (g : Geode) (link : Port) (ipv6 : Bool) (addr : BitVec 128) : Prop :=
  s.mode = .geode ∧ g.deep = false ∧ g.kept = some link ∧ (s.link link).up = true ∧ s.ownAddress link ipv6 addr = true

theorem execArpNeighbourSolicitation_awake {ipv6 : Bool} {addr : BitVec 128} (hg : (s.at t).power.geode = none) :
    execArpNeighbourSolicitation t link ipv6 addr s = .next (s.at t) := by
  simp only [execArpNeighbourSolicitation, hg]

theorem execArpNeighbourSolicitation_answered {ipv6 : Bool} {addr : BitVec 128} {g : Geode} (hg : (s.at t).power.geode = some g)
    (h : (s.at t).AnswersFor g link ipv6 addr) :
    execArpNeighbourSolicitation t link ipv6 addr s = .next ((s.at t).emit (.linkAnswer link (b2n ipv6))) := by
  simp only [execArpNeighbourSolicitation, hg]
  exact congrArg _ (if_pos h)

theorem execArpNeighbourSolicitation_not_answered {ipv6 : Bool} {addr : BitVec 128} {g : Geode} (hg : (s.at t).power.geode = some g)
    (h : ¬ (s.at t).AnswersFor g link ipv6 addr) : execArpNeighbourSolicitation t link ipv6 addr s = .next (s.at t) := by
  simp only [execArpNeighbourSolicitation, hg]
  exact congrArg _ (if_neg h)

/-- Outside GEODE's mode, or for another's address, nothing is answered, whether or not a GEODE is kept. -/
theorem execArpNeighbourSolicitation_silent {ipv6 : Bool} {addr : BitVec 128}
    (h : (s.at t).mode ≠ .geode ∨ (s.at t).ownAddress link ipv6 addr = false) :
    execArpNeighbourSolicitation t link ipv6 addr s = .next (s.at t) := by
  cases hg : (s.at t).power.geode with
  | none => exact execArpNeighbourSolicitation_awake hg
  | some g =>
    refine execArpNeighbourSolicitation_not_answered hg ?_
    rintro ⟨hmode, -, -, -, hown⟩
    exact h.elim (· hmode) (ne_false_of_eq_true hown)

end

/-- Settles O46, clause by clause from what each command does in GEODE and outside it. -/
theorem networkLinksComeAndGo : Obligations.NetworkLinksComeAndGo := by
  refine fun s t link => ⟨?loss, ?keptLoss, ?otherLoss, ?up, ?upHeld, ?keptUp, ?upBarred, ?answer, ?silent⟩
  case loss => exact execNetworkLinkLoss_awake
  case keptLoss => exact fun _ hg hkept hup => (execNetworkLinkLoss_geode hg).trans (if_pos ⟨hkept, hup⟩)
  case otherLoss => exact fun _ hg h => (execNetworkLinkLoss_geode hg).trans (if_neg (not_and_or.mpr (h.imp_right ne_true_of_eq_false)))
  case up => exact fun _ hdown hoff hsave => execNetworkLinkUp_awake ⟨hdown, hoff, hsave⟩
  case upHeld => exact fun _ hdown hoff hsave => execNetworkLinkUp_held ⟨hdown, hoff, hsave⟩
  case keptUp =>
    intro _ _ hdown hoff hsave hfree hg hkept hdeep
    exact (execNetworkLinkUp_geode ⟨hdown, hoff, hsave⟩ hfree hg).trans (if_pos ⟨hkept, hdeep⟩)
  case upBarred => exact fun _ => execNetworkLinkUp_barred
  case answer =>
    intro _ _ _ hg hmode hdeep hkept hup hown
    exact execArpNeighbourSolicitation_answered hg ⟨hmode, hdeep, hkept, hup, hown⟩
  case silent => exact fun _ _ h => h.elim execArpNeighbourSolicitation_awake execArpNeighbourSolicitation_silent

end Sys2Proof.Machine

/-! PROOFS. Raman sensing: what a dark frame's second half, a feedback check and the publishing of an ended integration make of a port, and the coil term a result takes. -/

namespace Sys2Proof.Machine

section
variable {s : State} {t : Tick} {p : Port}

/-! ### The dark frame (R153, R154) -/

/-- The path check of a dark frame is asked for. -/
def State.pathWanted (s : State) (p : Port) : Bool := s.pI p (K.portDtsPathcheck p) == 1

/-- It is made: it is asked for, and the front end does not hold the test DAC. -/
def State.pathChecked (s : State) (p : Port) : Bool := s.pathWanted p && !s.raman.dacFe

/-- The test DAC as the path check holds it: for the second half of the frame, where it is made. -/
def State.dacTaken (s : State) (p : Port) : State :=
  if s.pathChecked p then { s with raman := { s.raman with dacRaman := max s.raman.dacRaman (s.now + s.roGet (K.portFramePeriodLive p) / 2) } } else s

/-- Both bands' offsets are published and their paths checked; the integration keeps its offsets and its fault. -/
def State.darkHalfEnded (s : State) (p : Port) (x : Integ) (offset mean : List Nat) : State :=
  let check := s.pathChecked p
  let ra := (s.dacTaken p).darkBand p 0 (offset.getD 0 0) (mean.getD 0 0) check x.bank.epoch
  let rs := ra.1.darkBand p 1 (offset.getD 1 0) (mean.getD 1 0) check x.bank.epoch
  rs.1.setDts p { rs.1.dts p with
    faultAs := ra.2, faultS := rs.2,
    cur := some { x with pathSkipped := s.pathWanted p && !check, fault := ra.2 || rs.2, offAs := offset.getD 0 0, offS := offset.getD 1 0 } }

theorem execDarkFrameSecondHalf_dark {x : Integ} {offset mean : List Nat} (hx : ((s.at t).dts p).cur = some x) (hdark : x.dark = true) :
    execDarkFrameSecondHalf t p offset mean s = .next ((s.at t).darkHalfEnded p x offset mean) := by
  simp only [execDarkFrameSecondHalf, hx, if_neg (ne_false_of_eq_true hdark)]
  rfl

theorem execDarkFrameSecondHalf_no_integration {offset mean : List Nat} (h : ((s.at t).dts p).cur = none) :
    execDarkFrameSecondHalf t p offset mean s = .next (s.at t) := by
  simp only [execDarkFrameSecondHalf, h]

theorem execDarkFrameSecondHalf_not_dark {x : Integ} {offset mean : List Nat} (hx : ((s.at t).dts p).cur = some x) (hlight : x.dark = false) :
    execDarkFrameSecondHalf t p offset mean s = .next (s.at t) := by
  simp only [execDarkFrameSecondHalf, hx, if_pos hlight]

/-! ### The check each second (R145) -/

/-- A band of a port is checked now. -/
def State.bandChecked (s : State) (p : Port) (b : Nat) (band : Band) (sched : Option (Bool × Tick)) : Band × Option (Bool × Tick) :=
  bandCheck band (s.roGet (K.portDtsBandOffset p b)) (s.pI p (K.portDtsBandFeedbackMode p b) == 0) sched s.now

/-- Both bands of an integration are checked, and its next check is a second on. -/
def State.feedbackChecked (s : State) (p : Port) (x : Integ) : State :=
  let d := s.dts p
  let ra := s.bandChecked p 0 x.bandAs d.stepAs
  let rs := s.bandChecked p 1 x.bandS d.stepS
  s.setDts p { d with cur := some { x with bandAs := ra.1, bandS := rs.1, nextCheck := x.nextCheck + secondTicks }, stepAs := ra.2, stepS := rs.2 }

theorem execDtsFeedbackCheck_due {x : Integ} (hx : ((s.at t).dts p).cur = some x) (hdue : x.nextCheck ≤ (s.at t).now) :
    execDtsFeedbackCheck t p s = .next ((s.at t).feedbackChecked p x) := by
  simp only [execDtsFeedbackCheck, hx, if_neg (Nat.not_lt.mpr hdue)]
  rfl

theorem execDtsFeedbackCheck_no_integration (h : ((s.at t).dts p).cur = none) : execDtsFeedbackCheck t p s = .next (s.at t) := by
  simp only [execDtsFeedbackCheck, h]

theorem execDtsFeedbackCheck_early {x : Integ} (hx : ((s.at t).dts p).cur = some x) (hearly : (s.at t).now < x.nextCheck) :
    execDtsFeedbackCheck t p s = .next (s.at t) := by
  simp only [execDtsFeedbackCheck, hx, if_pos hearly]

/-! ### A published integration (R159, R160) -/

/-- An ended integration of port B waits while one of port A that ended at the same instant is unpublished. -/
def State.waitsForPortA (s : State) (p : Port) (x : Integ) : Bool :=
  p == .b && (s.dts .a).done.any (fun y => decide (y.endAt = x.endAt))

theorem State.waitsForPortA_eq_false {a : State} {x : Integ} (h : p = .b → ∀ y ∈ (a.dts .a).done, y.endAt ≠ x.endAt) :
    a.waitsForPortA p x = false := by
  simpa only [State.waitsForPortA, Bool.and_eq_false_imp, beq_iff_eq, List.any_eq_false, decide_eq_true_eq] using h

/-- The binary32 °C of a port's live points in a result. -/
def State.liveTemps (s : State) (p : Port) (r : DtsResult) : List Nat :=
  let live := s.roGet (K.portDtsPointsLive p)
  (List.range live).map (fun j => ofLe (pointBytes 2 p r.h r.term r.dalpha live (s.fresh + 2) j))

/-- The port keeps what a result leaves for the next ones. -/
def State.resultKept (s : State) (p : Port) (x : Integ) (rest : List Integ) (r : DtsResult) : State :=
  let d := s.dts p
  s.setDts p { d with
    done := rest, heldTerm := if r.own.isSome = true then r.own else d.heldTerm, heldRuns := r.runs,
    last := some (x.endAt, r.term.isNone, s.liveTemps p r) }

/-- A result is published as its port's flags, coil temperature, Δα and coverage. -/
def State.resultShown (s : State) (p : Port) (x : Integ) (r : DtsResult) : State :=
  (((s.roSet (K.portDtsLastFlags p) r.flags).roSet (K.portDtsLastCoilTemperature p) r.coil).roSet (K.portDtsLastDalpha p) r.dalphaF).roSet
    (K.portDtsLastCoverage p) (if x.frames = 0 then 0 else min 65535 (x.used * 65536 / x.frames))

/-- The oldest ended integration of a port is published and goes to the streams. -/
def State.resultPublished (s : State) (p : Port) (x : Integ) (rest : List Integ) : State :=
  let r := x.result (s.dts p) p s.fresh
  let e := ((s.resultKept p x rest r).resultShown p x r).dtsBlocks p x r
  (({ e with fresh := e.fresh + 131074 } : State).coilCheck p r.own x.bank.epoch).settleAll

/-- The oldest ended integration may not be published under a number yet: it waits, the module does not work, or the number is another's. -/
def State.publishBarred (s : State) (p : Port) (x : Integ) (number : Nat) : Bool :=
  s.waitsForPortA p x || !s.mode.working || x.number != number

theorem execDtsResultPublish_none {number : Nat} (h : ((s.at t).dts p).done = []) : execDtsResultPublish t p number s = .next (s.at t) := by
  simp only [execDtsResultPublish, h]

theorem execDtsResultPublish_oldest {x : Integ} {rest : List Integ} {number : Nat} (h : ((s.at t).dts p).done = x :: rest) :
    execDtsResultPublish t p number s =
      if (s.at t).publishBarred p x number = true then .next (s.at t) else .next ((s.at t).resultPublished p x rest) := by
  simp only [execDtsResultPublish, h]
  rfl

theorem State.publishBarred_eq_false {a : State} {x : Integ} (hmode : a.mode.working = true)
    (hfirst : p = .b → ∀ y ∈ (a.dts .a).done, y.endAt ≠ x.endAt) : a.publishBarred p x x.number = false := by
  simp only [State.publishBarred, State.waitsForPortA_eq_false hfirst, hmode, bne_self_eq_false, Bool.not_true, Bool.or_self]

theorem State.publishBarred_not_working {a : State} {x : Integ} {number : Nat} (h : a.mode.working = false) : a.publishBarred p x number = true := by
  simp only [State.publishBarred, h, Bool.not_false, Bool.or_true, Bool.true_or]

theorem State.publishBarred_other_number {a : State} {x : Integ} {number : Nat} (h : x.number ≠ number) : a.publishBarred p x number = true := by
  simp only [State.publishBarred, bne_iff_ne.mpr h, Bool.or_true]

theorem execDtsResultPublish_published {x : Integ} {rest : List Integ} (h : ((s.at t).dts p).done = x :: rest) (hmode : (s.at t).mode.working = true)
    (hfirst : p = .b → ∀ y ∈ ((s.at t).dts .a).done, y.endAt ≠ x.endAt) :
    execDtsResultPublish t p x.number s = .next ((s.at t).resultPublished p x rest) :=
  (execDtsResultPublish_oldest h).trans (if_neg (ne_true_of_eq_false (State.publishBarred_eq_false hmode hfirst)))

theorem execDtsResultPublish_barred {number : Nat}
    (h : (s.at t).mode.working = false ∨ ∀ x ∈ ((s.at t).dts p).done, x.number ≠ number) :
    execDtsResultPublish t p number s = .next (s.at t) := by
  cases hdone : ((s.at t).dts p).done with
  | nil => exact execDtsResultPublish_none hdone
  | cons x rest =>
    have hbar : (s.at t).publishBarred p x number = true :=
      h.elim State.publishBarred_not_working
        (fun hnone => State.publishBarred_other_number (hnone x (hdone ▸ List.mem_cons_self)))
    exact (execDtsResultPublish_oldest hdone).trans (if_pos hbar)

end

/-! ### The coil term of a result (R157) -/

section
variable {x : Integ} {d : DtsPort} {p : Port} {n : Nat}

theorem DtsPort.term_own (v : Int) : d.term true (some v) = (some v, 0) := rfl

theorem DtsPort.term_held {own : Option Int} (hheld : d.heldTerm.isSome = true) (hruns : d.heldRuns < 10) :
    d.term false own = (d.heldTerm, d.heldRuns + 1) :=
  (if_neg Bool.false_ne_true).trans (if_pos ⟨hheld, hruns⟩)

theorem DtsPort.term_not_held {own : Option Int} (h : d.heldTerm = none ∨ 10 ≤ d.heldRuns) : d.term false own = (none, d.heldRuns) := by
  refine (if_neg Bool.false_ne_true).trans (if_neg ?_)
  rintro ⟨hheld, hruns⟩
  exact h.elim (Option.isSome_iff_ne_none.mp hheld) (Nat.not_le.mpr hruns)

theorem Integ.result_own :
    (x.result d p n).own = if x.used = 0 then none else x.coil.mean.map (fun c => coilTermOf p x.response c n) := rfl

theorem Integ.result_term :
    (x.result d p n).term = if x.used = 0 then none else (d.term x.coil.mean.isSome (x.result d p n).own).1 := rfl

theorem Integ.result_runs : (x.result d p n).runs = (d.term x.coil.mean.isSome (x.result d p n).own).2 := rfl

theorem Integ.result_coil_valid {c : Rat} (h : x.coil.mean = some c) : (x.result d p n).coil = f32Round c := by
  simp only [Integ.result, h]

theorem Integ.result_coil_invalid (h : x.coil.mean = none) : (x.result d p n).coil = 0x7FC00000 := by
  simp only [Integ.result, h]

theorem Integ.result_own_valid {c : Rat} (h : x.coil.mean = some c) (hused : 0 < x.used) :
    (x.result d p n).own = some (coilTermOf p x.response c n) := by
  rw [Integ.result_own, if_neg hused.ne', h, Option.map_some]

theorem Integ.result_own_invalid (h : x.coil.mean = none) : (x.result d p n).own = none := by
  rw [Integ.result_own, h, Option.map_none, ite_self]

theorem Integ.result_own_unused (h : x.used = 0) : (x.result d p n).own = none := if_pos h

theorem Integ.result_term_unused (h : x.used = 0) : (x.result d p n).term = none := if_pos h

/-- With a valid mean of the coil's sensor the result uses its own term, and no term has been held for it. -/
theorem Integ.result_uses_own {c : Rat} (h : x.coil.mean = some c) (hused : 0 < x.used) :
    (x.result d p n).term = (x.result d p n).own ∧ (x.result d p n).runs = 0 := by
  rw [Integ.result_term, Integ.result_runs, if_neg hused.ne', Integ.result_own_valid h hused, h, Option.isSome_some, DtsPort.term_own]
  exact ⟨rfl, rfl⟩

theorem Integ.result_uses_held (h : x.coil.mean = none) (hused : 0 < x.used) (hheld : d.heldTerm.isSome = true) (hruns : d.heldRuns < 10) :
    (x.result d p n).term = d.heldTerm ∧ (x.result d p n).runs = d.heldRuns + 1 := by
  rw [Integ.result_term, Integ.result_runs, if_neg hused.ne', h, Option.isSome_none, DtsPort.term_held hheld hruns]
  exact ⟨rfl, rfl⟩

theorem Integ.result_term_none (h : x.coil.mean = none) (hnone : d.heldTerm = none ∨ 10 ≤ d.heldRuns) : (x.result d p n).term = none := by
  rw [Integ.result_term, h, Option.isSome_none, DtsPort.term_not_held hnone, ite_self]

end

/-- Settles O47: what each command does where it acts and where it does not, and the term of a result by whether the coil sensor's mean is valid. -/
theorem ramanResultsArePublished : Obligations.RamanResultsArePublished := by
  refine ⟨fun s t p => ⟨?dark, ?darkNot, ?check, ?checkNot, ?publish, ?publishNot⟩, fun x d p n => ⟨?valid, ?invalid, ?unused⟩⟩
  case dark => exact fun _ _ _ => execDarkFrameSecondHalf_dark
  case darkNot => exact fun _ _ h => h.elim execDarkFrameSecondHalf_no_integration (fun ⟨_, hx, hlight⟩ => execDarkFrameSecondHalf_not_dark hx hlight)
  case check => exact fun _ => execDtsFeedbackCheck_due
  case checkNot => exact fun h => h.elim execDtsFeedbackCheck_no_integration (fun ⟨_, hx, hearly⟩ => execDtsFeedbackCheck_early hx hearly)
  case publish => exact fun _ _ => execDtsResultPublish_published
  case publishNot => exact fun _ h => h.elim execDtsResultPublish_none execDtsResultPublish_barred
  case valid =>
    exact fun _ hc => ⟨Integ.result_coil_valid hc, fun hused => ⟨Integ.result_own_valid hc hused, Integ.result_uses_own hc hused⟩⟩
  case invalid =>
    exact fun hc => ⟨Integ.result_coil_invalid hc, Integ.result_own_invalid hc, Integ.result_uses_held hc, Integ.result_term_none hc⟩
  case unused => exact fun hused => ⟨Integ.result_own_unused hused, Integ.result_term_unused hused⟩

end Sys2Proof.Machine

/-! PROOFS. The front end's scan: when a scan starts, what a slot takes from the values of F, and what a window's end converts. -/

namespace Sys2Proof.Machine

/-! ### Channels -/

section
variable {a b : State} {ch other : Nat} {x : FeCh}

theorem State.feCh_congr (h : a.front.chans = b.front.chans) (n : Nat) : a.feCh n = b.feCh n := congrArg (·.getD n FeCh.idle) h

theorem State.setFeCh_feCh (h : ch < a.front.chans.length) : (a.setFeCh ch x).feCh ch = x := by
  simp only [State.setFeCh, State.feCh, State.withFront_front, List.getD_eq_getElem?_getD, List.getElem?_set_self h, Option.getD_some]

theorem State.setFeCh_feCh_ne (h : other ≠ ch) : (a.setFeCh ch x).feCh other = a.feCh other := by
  simp only [State.setFeCh, State.feCh, State.withFront_front, List.getD_eq_getElem?_getD, List.getElem?_set_ne h.symm]

end

section
variable {s a : State} {t : Tick} {ch : Nat}

/-! ### The start of a scan (R164, R165) -/

/-- No scan may start: the front end is stopped, a scan is under way, or the next one is not due. -/
def State.scanBarred (s : State) : Bool := !s.feRuns || s.front.scanning || decide (s.now < s.front.nextScan)

theorem State.scanBarred_iff : a.scanBarred = true ↔ a.feRuns = false ∨ a.front.scanning = true ∨ a.now < a.front.nextScan := by
  simp only [State.scanBarred, Bool.or_eq_true, Bool.not_eq_true', decide_eq_true_eq, or_assoc]

/-- The channels as a scan over some of them starts: one that is not visited forgets that it was, and what tripped on it. -/
def State.scanChans (s : State) (on : List Nat) : List FeCh :=
  (List.range 10).map (fun n => if on.contains n then s.feCh n
    else { s.feCh n with scanned := false, excited := false, tripOpen := false, tripShort := false })

/-- A scan of the enabled channels begins, with the period of F; a change of their set closes the REF blocks. -/
def State.scanStarted (s : State) : State :=
  let on := s.feEnabled
  let b := if on ≠ s.front.enabled then s.refCloseAll else s
  let ms := b.pG K.feScanPeriodMs
  let c := b.withFront { b.front with chans := b.scanChans on, order := on, enabled := on, scanning := true, scanStart := b.now, scanStamp := b.stamp,
                                      scan := [], scanUnsettled := false, period := ms }
  c.roSet K.feScanPeriodLive (if ms = 0 then scanTicks c.cfg.actG.set on else ms * msTicks)

theorem execFeScanStart_eq : execFeScanStart t s = if (s.at t).scanBarred = true then .next (s.at t) else .next (s.at t).scanStarted := rfl

theorem execFeScanStart_due (hruns : (s.at t).feRuns = true) (hidle : (s.at t).front.scanning = false) (hdue : (s.at t).front.nextScan ≤ (s.at t).now) :
    execFeScanStart t s = .next (s.at t).scanStarted := by
  refine execFeScanStart_eq.trans (if_neg (mt State.scanBarred_iff.mp ?_))
  rintro (hstop | hscan | hearly)
  · exact ne_true_of_eq_false hstop hruns
  · exact ne_true_of_eq_false hidle hscan
  · exact Nat.not_lt.mpr hdue hearly

theorem execFeScanStart_barred (h : (s.at t).feRuns = false ∨ (s.at t).front.scanning = true ∨ (s.at t).now < (s.at t).front.nextScan) :
    execFeScanStart t s = .next (s.at t) :=
  execFeScanStart_eq.trans (if_pos (State.scanBarred_iff.mpr h))

/-! ### The start of a slot (R164, R165, R171, R177) -/

/-- A channel's slot may not start: no scan runs, another channel is next, or a slot is in progress. -/
def State.slotBarred (s : State) (ch : Nat) : Bool :=
  !s.feRuns || !s.front.scanning || decide (s.front.order.head? ≠ some ch) || s.front.slot.isSome

theorem State.slotBarred_iff :
    a.slotBarred ch = true ↔ a.feRuns = false ∨ a.front.scanning = false ∨ a.front.order.head? ≠ some ch ∨ a.front.slot.isSome = true := by
  simp only [State.slotBarred, Bool.or_eq_true, Bool.not_eq_true', decide_eq_true_eq, or_assoc]

/-- The test wants a channel's slot while the Raman path check holds the DAC. -/
def State.testBusy (s : State) (ch : Nat) : Bool := s.testTarget ch && decide (s.now < s.raman.dacRaman)

/-- The test drives a channel's slot that starts now. -/
def State.slotTests (s : State) (ch : Nat) : Bool := s.testTarget ch && !decide (s.now < s.raman.dacRaman)

/-- A channel's filter begins anew with its slot: the last scan left it out, or a field that the filter stands on has changed. -/
def State.filterRestarts (s : State) (ch : Nat) : Bool :=
  !(s.feCh ch).scanned || (filterFields ch).any (fun k => decide ((s.feCh ch).set.get k ≠ s.cfg.actG.set.get k))

theorem State.filterRestarts_of_changed
    (h : (a.feCh ch).scanned = false ∨ ∃ k ∈ filterFields ch, (a.feCh ch).set.get k ≠ a.cfg.actG.set.get k) : a.filterRestarts ch = true := by
  simpa only [State.filterRestarts, Bool.or_eq_true, Bool.not_eq_true', List.any_eq_true, decide_eq_true_eq] using h

/-- A channel as its slot starts, with the settings and the epoch of F. -/
def State.slotChan (s : State) (ch : Nat) : FeCh :=
  let x := s.feCh ch
  let new := s.cfg.actG.set
  { x with set := new, epoch := s.cfg.actG.epoch, hist := if s.filterRestarts ch then [] else x.hist, outputs := if s.filterRestarts ch then 0 else x.outputs,
           lastRef := some (new.get (K.feChReference ch)), scanned := true, excited := new.get (K.feChExcitation ch) != 0 }

theorem State.slotChan_restarted (h : a.filterRestarts ch = true) : (a.slotChan ch).hist = [] ∧ (a.slotChan ch).outputs = 0 := ⟨if_pos h, if_pos h⟩

/-- The front end as a channel's slot starts; whether the reference still settles, and since when the external one is on, are arguments. -/
def State.slotFront (s : State) (ch : Nat) (settling : Bool) (ext : Option Tick) : Front :=
  let f := (s.setFeCh ch (s.slotChan ch)).front
  { f with slot := some ⟨ch, s.now, s.slotTests ch, settling, none⟩, extSince := ext, order := s.front.order.drop 1 }

/-- A channel's slot starts; a test that drives it takes the DAC, and one that finds the DAC taken is counted as skipped. -/
def State.slotStarted (s : State) (ch : Nat) (settling : Bool) (ext : Option Tick) : State :=
  let b := (s.setFeCh ch (s.slotChan ch)).withFront (s.slotFront ch settling ext)
  let c : State := if s.slotTests ch then { b with raman := { b.raman with dacFe := true } } else b
  if s.testBusy ch then c.bump K.feTestSkipped 1 else c

theorem State.slotStarted_front (settling : Bool) (ext : Option Tick) : (a.slotStarted ch settling ext).front = a.slotFront ch settling ext := by
  unfold State.slotStarted
  cases a.testBusy ch <;> cases a.slotTests ch <;> rfl

theorem State.slotStarted_feCh (settling : Bool) (ext : Option Tick) (n : Nat) :
    (a.slotStarted ch settling ext).feCh n = (a.setFeCh ch (a.slotChan ch)).feCh n := by
  refine State.feCh_congr ?_ n
  rw [State.slotStarted_front, State.slotFront]

theorem execFeSlotStart_started (hruns : (s.at t).feRuns = true) (hscan : (s.at t).front.scanning = true)
    (hnext : (s.at t).front.order.head? = some ch) (hfree : (s.at t).front.slot = none) :
    ∃ settling ext, execFeSlotStart t ch s = .next ((s.at t).slotStarted ch settling ext) := by
  have hbar : ¬ (s.at t).slotBarred ch = true := by
    rw [State.slotBarred_iff, hruns, hscan, hnext, hfree]
    simp only [Bool.true_eq_false, ne_eq, not_true_eq_false, Option.isSome_none, Bool.false_eq_true, or_self, not_false_eq_true]
  exact ⟨_, _, if_neg hbar⟩

theorem execFeSlotStart_barred
    (h : (s.at t).feRuns = false ∨ (s.at t).front.scanning = false ∨ (s.at t).front.order.head? ≠ some ch ∨ (s.at t).front.slot.isSome = true) :
    execFeSlotStart t ch s = .next (s.at t) :=
  if_pos (State.slotBarred_iff.mpr h)

/-! ### The end of a window (R166, R167, R168) -/

/-- The tick at which the window of a channel's slot ends. -/
def State.windowEnd (s : State) (ch : Nat) (sl : FeSlot) : Tick :=
  sl.start + (s.feCh ch).par (K.feChSettle ch) + windowTicks ((s.feCh ch).par (K.feChOsr ch))

/-- What a channel's window gave, with the gain and the reference the channel has. -/
def State.converted (s : State) (ch : Nat) (obs : FeObs) : FeConv :=
  let x := s.feCh ch
  let g := x.par (K.feChGain ch)
  { raw := rawOf obs.num (max 1 obs.den) g, overrange := overRange obs.num (max 1 obs.den) g || obs.fullScale,
    refFault := refOutside (x.par (K.feChReference ch)) obs.refLow obs.refHigh, parityOk := obs.parityOk, end_ := s.stamp, endTick := s.now }

theorem execFeWindowEnd_slot {obs : FeObs} {sl : FeSlot} (hsl : (s.at t).front.slot = some sl) :
    execFeWindowEnd t ch obs s =
      if sl.ch = ch ∧ sl.conv = none ∧ (s.at t).windowEnd ch sl ≤ (s.at t).now then
        .next ((s.at t).withFront { (s.at t).front with slot := some { sl with conv := some ((s.at t).converted ch obs) } })
      else .next (s.at t) := by
  simp only [execFeWindowEnd, hsl]
  rfl

end

/-- Settles O48: a scan and a slot start where nothing bars them, a started slot is read off its front end, and a window is converted once it has ended. -/
theorem theFrontEndScans : Obligations.TheFrontEndScans := by
  refine fun s t => ⟨execFeScanStart_due, execFeScanStart_barred, ?slot, fun _ => execFeSlotStart_barred, ?window, ?windowEarly⟩
  case slot =>
    intro ch rest hch hruns hscan horder hfree hlen
    obtain ⟨settling, ext, hstart⟩ := execFeSlotStart_started hruns hscan (horder ▸ List.head?_cons) hfree
    have hfront := State.slotStarted_front (a := s.at t) (ch := ch) settling ext
    have hchan : ((s.at t).slotStarted ch settling ext).feCh ch = (s.at t).slotChan ch :=
      (State.slotStarted_feCh settling ext ch).trans (State.setFeCh_feCh (hch.trans_eq hlen.symm))
    refine ⟨_, _, hstart, congrArg Front.slot hfront, rfl, rfl, rfl, rfl, ?order, congrArg FeCh.set hchan, congrArg FeCh.epoch hchan, ?others, ?restart⟩
    case order => exact (congrArg Front.order hfront).trans (congrArg (List.drop 1) horder)
    case others => exact fun other _ hne => (State.slotStarted_feCh settling ext other).trans (State.setFeCh_feCh_ne hne)
    case restart => exact fun h => hchan ▸ State.slotChan_restarted (State.filterRestarts_of_changed h)
  case window => exact fun _ _ _ hsl hch hconv hend => (execFeWindowEnd_slot hsl).trans (if_pos ⟨hch, hconv, hend⟩)
  case windowEarly => exact fun _ _ _ hsl hearly => (execFeWindowEnd_slot hsl).trans (if_neg (fun ⟨_, _, hend⟩ => Nat.not_le.mpr hearly hend))

end Sys2Proof.Machine

/-! PROOFS. The front end's results, the trips of its comparators and the housekeeping: what a conversion comes to, and what each command publishes. -/

namespace Sys2Proof.Machine

/-! ### The result of a conversion (R170, R172, R173, R176) -/

section
variable {a : State} {ch broken : Nat} {sl : FeSlot} {cv : FeConv}

/-- The lines that the lead check of an external channel finds broken while its excitation is on. -/
def State.leadLines (s : State) (ch broken : Nat) : Nat :=
  if decide (ch ≤ 3) && (s.feCh ch).par (K.feChLeadCheck ch) == 1 && (s.feCh ch).excited then broken / 2 % 16 * 2 else 0

theorem State.leadLines_eq :
    a.leadLines ch broken = if ch ≤ 3 ∧ (a.feCh ch).par (K.feChLeadCheck ch) = 1 ∧ (a.feCh ch).excited = true then broken / 2 % 16 * 2 else 0 := by
  simp only [State.leadLines, Bool.and_eq_true, decide_eq_true_eq, beq_iff_eq, and_assoc]

/-- The test drives an external channel in this slot. -/
def FeSlot.drives (sl : FeSlot) (ch : Nat) : Bool := sl.testing && decide (ch ≤ 3)

/-- The result of a conversion carries no number: it is open or short, its reference is faulty, or the test drives it. -/
def State.feNoNumber (s : State) (ch : Nat) (sl : FeSlot) (cv : FeConv) (broken : Nat) : Bool :=
  (s.feResult ch sl cv broken).isOpen || (s.feResult ch sl cv broken).short || cv.refFault || sl.drives ch

/-- A conversion counts in its channel's running filter: its result carries a number, and it is within range and of good parity. -/
def State.feCounts (s : State) (ch : Nat) (sl : FeSlot) (cv : FeConv) (broken : Nat) : Bool :=
  !s.feNoNumber ch sl cv broken && !cv.overrange && cv.parityOk

/-- The raw number of a result: none, the conversion itself out of range, or the mean of the filter where one stands in it. -/
def State.feRaw (s : State) (ch : Nat) (sl : FeSlot) (cv : FeConv) (broken : Nat) : Int :=
  let r := s.feResult ch sl cv broken
  if s.feNoNumber ch sl cv broken then -8388608
  else if cv.overrange then cv.raw
  else if r.chan.accepted then filterOut r.chan.hist
  else if (s.feCh ch).hist = [] then cv.raw
  else filterOut (s.feCh ch).hist

theorem State.feResult_lines : (a.feResult ch sl cv broken).lines = a.leadLines ch broken + b2n (a.feCh ch).tripOpen := rfl

theorem State.feResult_isOpen : (a.feResult ch sl cv broken).isOpen = ((a.feCh ch).tripOpen || decide (a.leadLines ch broken ≠ 0)) := rfl

theorem State.feResult_short : (a.feResult ch sl cv broken).short = (a.feCh ch).tripShort := rfl

theorem State.feResult_accepted : (a.feResult ch sl cv broken).chan.accepted = a.feCounts ch sl cv broken := by
  simp only [State.feCounts, State.feNoNumber, State.feResult, FeSlot.drives, Bool.not_or]
  ac_rfl

theorem State.feResult_word :
    (a.feResult ch sl cv broken).word = resultWord (a.feRaw ch sl cv broken) (a.feResult ch sl cv broken).isOpen (a.feResult ch sl cv broken).unsettled
      sl.refSettling cv.overrange cv.refFault (sl.drives ch) a.blockT.2 (a.feResult ch sl cv broken).short := rfl

theorem State.feResult_value :
    (a.feResult ch sl cv broken).value = if a.feNoNumber ch sl cv broken then 0x7FC00000
      else linearise (a.feCh ch).set ch (f32Round (mkRat (a.feRaw ch sl cv broken) (2 ^ (23 + (a.feCh ch).par (K.feChGain ch))))) a.blockT.1 := rfl

/-- A result is open exactly where it names a line, or the trip that stands for one. -/
theorem State.feResult_isOpen_iff : (a.feResult ch sl cv broken).isOpen = true ↔ (a.feResult ch sl cv broken).lines ≠ 0 := by
  rw [State.feResult_isOpen, State.feResult_lines]
  cases (a.feCh ch).tripOpen with
  | true => exact iff_of_true (Bool.true_or _) (Nat.succ_ne_zero _)
  | false => exact decide_eq_true_iff

/-- A conversion that counts right after one that did joins the filter's history, newest first. -/
theorem State.feResult_hist (hcounts : a.feCounts ch sl cv broken = true) (hlast : (a.feCh ch).accepted = true) :
    (a.feResult ch sl cv broken).chan.hist = (cv.raw :: (a.feCh ch).hist).take (filterM ((a.feCh ch).par (K.feChFilter ch))) := by
  refine (if_pos (State.feResult_accepted.trans hcounts)).trans ?_
  rw [hlast, Bool.not_true, Bool.and_false, if_neg Bool.false_ne_true]

theorem State.feNoNumber_eq_false_iff :
    a.feNoNumber ch sl cv broken = false ↔ (a.feResult ch sl cv broken).isOpen = false ∧ (a.feResult ch sl cv broken).short = false ∧
      cv.refFault = false ∧ sl.drives ch = false := by
  simp only [State.feNoNumber, Bool.or_eq_false_iff, and_assoc]

theorem State.feCounts_iff :
    a.feCounts ch sl cv broken = true ↔ a.feNoNumber ch sl cv broken = false ∧ cv.overrange = false ∧ cv.parityOk = true := by
  simp only [State.feCounts, Bool.and_eq_true, Bool.not_eq_true', and_assoc]

theorem State.feRaw_noNumber (h : a.feNoNumber ch sl cv broken = true) : a.feRaw ch sl cv broken = -8388608 := if_pos h

theorem State.feRaw_overrange (h : a.feNoNumber ch sl cv broken = false) (hover : cv.overrange = true) : a.feRaw ch sl cv broken = cv.raw :=
  (if_neg (ne_true_of_eq_false h)).trans (if_pos hover)

theorem State.feRaw_counts (h : a.feCounts ch sl cv broken = true) : a.feRaw ch sl cv broken = filterOut (a.feResult ch sl cv broken).chan.hist := by
  obtain ⟨hnum, hover, -⟩ := State.feCounts_iff.mp h
  rw [State.feRaw, if_neg (ne_true_of_eq_false hnum), if_neg (ne_true_of_eq_false hover), if_pos (State.feResult_accepted.trans h)]

theorem State.feResult_value_noNumber (h : a.feNoNumber ch sl cv broken = true) : (a.feResult ch sl cv broken).value = 0x7FC00000 := if_pos h

theorem State.feResult_value_number (h : a.feNoNumber ch sl cv broken = false) :
    (a.feResult ch sl cv broken).value =
      linearise (a.feCh ch).set ch (f32Round (mkRat (a.feRaw ch sl cv broken) (2 ^ (23 + (a.feCh ch).par (K.feChGain ch))))) a.blockT.1 :=
  if_neg (ne_true_of_eq_false h)

/-- A result that carries a number sets none of the flags that stop one. -/
theorem State.feResult_word_number (h : a.feNoNumber ch sl cv broken = false) :
    (a.feResult ch sl cv broken).word =
      resultWord (a.feRaw ch sl cv broken) false (a.feResult ch sl cv broken).unsettled sl.refSettling cv.overrange false false a.blockT.2 false := by
  obtain ⟨hopen, hshort, href, htest⟩ := State.feNoNumber_eq_false_iff.mp h
  rw [State.feResult_word, hopen, hshort, href, htest]

end

section
variable {s a : State} {t : Tick} {ch broken : Nat}

/-! ### The published result (R164, R172) -/

theorem execFeResultPublish_converted {sl : FeSlot} {cv : FeConv} (hsl : (s.at t).front.slot = some sl) (hcv : sl.conv = some cv) :
    execFeResultPublish t ch broken s =
      if sl.ch ≠ ch ∨ (s.at t).now < cv.endTick + 10000 then .next (s.at t)
      else .next ((s.at t).fePublish ch sl cv ((s.at t).feResult ch sl cv broken)).feScanEnd := by
  simp only [execFeResultPublish, hsl, hcv]

theorem execFeResultPublish_no_slot (h : (s.at t).front.slot = none) : execFeResultPublish t ch broken s = .next (s.at t) := by
  simp only [execFeResultPublish, h]

theorem execFeResultPublish_not_converted {sl : FeSlot} (hsl : (s.at t).front.slot = some sl) (hcv : sl.conv = none) :
    execFeResultPublish t ch broken s = .next (s.at t) := by
  simp only [execFeResultPublish, hsl, hcv]

/-! ### Compliance trips (R176) -/

/-- The comparators of a channel's force lines are watched: the front end runs, and the channel is external with its excitation on. -/
def State.Watched (s : State) (ch : Nat) : Prop := s.feRuns = true ∧ (s.feCh ch).excited = true ∧ ch < 4

theorem State.watched_iff : a.Watched ch ↔ ¬ (a.feRuns = false ∨ (a.feCh ch).excited = false ∨ 4 ≤ ch) := by
  simp only [State.Watched, not_or, Bool.not_eq_false, not_le]

/-- A trip marks its channel where the excitation is of the kind it watches: voltage for HIGH, current for the other two. -/
def State.tripped (s : State) (ch : Nat) (trip : Trip) : State :=
  let x := s.feCh ch
  let mode := x.par (K.feChExcitation ch)
  match trip with
  | .excHigh => if mode = 1 then s.setFeCh ch { x with tripOpen := true } else s
  | .currentLow => if mode = 2 then s.setFeCh ch { x with tripOpen := true } else s
  | .currentLimit => if mode = 2 then s.setFeCh ch { x with tripShort := true } else s

theorem execFeComplianceTrip_watched {trip : Trip} (h : (s.at t).Watched ch) : execFeComplianceTrip t ch trip s = .next ((s.at t).tripped ch trip) := by
  refine (if_neg (State.watched_iff.mp h)).trans ?_
  cases trip <;> rfl

theorem execFeComplianceTrip_not_watched {trip : Trip} (h : (s.at t).feRuns = false ∨ ((s.at t).feCh ch).excited = false ∨ 4 ≤ ch) :
    execFeComplianceTrip t ch trip s = .next (s.at t) :=
  if_pos h

theorem State.tripped_excHigh (h : (a.feCh ch).par (K.feChExcitation ch) = 1) :
    a.tripped ch .excHigh = a.setFeCh ch { a.feCh ch with tripOpen := true } :=
  if_pos h

theorem State.tripped_currentLow (h : (a.feCh ch).par (K.feChExcitation ch) = 2) :
    a.tripped ch .currentLow = a.setFeCh ch { a.feCh ch with tripOpen := true } :=
  if_pos h

theorem State.tripped_currentLimit (h : (a.feCh ch).par (K.feChExcitation ch) = 2) :
    a.tripped ch .currentLimit = a.setFeCh ch { a.feCh ch with tripShort := true } :=
  if_pos h

theorem State.tripped_unexcited (h : (a.feCh ch).par (K.feChExcitation ch) = 0) (trip : Trip) : a.tripped ch trip = a := by
  cases trip with
  | excHigh => exact if_neg (h.trans_ne zero_ne_one)
  | currentLow => exact if_neg (h.trans_ne two_ne_zero.symm)
  | currentLimit => exact if_neg (h.trans_ne two_ne_zero.symm)

/-! ### Housekeeping (R178) -/

/-- The readings that are due are taken, and a reading of a case sensor publishes the case temperature and each coil's flag. -/
def State.hkTaken (s : State) (readings : List HkReading) : State :=
  let b := readings.foldl (fun (st : State) r => if st.hkDue r.channel = true then st.hkRead r else st) s
  if (readings.any (fun r => r.channel == 9 || r.channel == 10)) = true then
    (b.roSet K.powerCaseC (f32Round (mkRat b.caseCenti 100))).coilFlags
  else b

theorem execHkBurst_running {readings : List HkReading} (h : ¬ ((s.at t).mode = .off ∨ (s.at t).mode = .geode)) :
    execHkBurst t readings s = .next ((s.at t).hkTaken readings) :=
  if_neg h

theorem execHkBurst_stopped {readings : List HkReading} (h : (s.at t).mode = .off ∨ (s.at t).mode = .geode) :
    execHkBurst t readings s = .next (s.at t) :=
  if_pos h

end

/-- Settles O49: the result of a conversion by what stops its number and what stops it from counting, and each command by whether it may act. -/
theorem frontEndResultsAndHousekeeping : Obligations.FrontEndResultsAndHousekeeping := by
  refine fun s t => ⟨?publish, ?result, ?publishNot, ?trip, fun _ _ => execFeComplianceTrip_not_watched, ?burst, fun _ => execHkBurst_stopped⟩
  case publish =>
    exact fun ch _ sl cv hsl hcv hch hend =>
      (execFeResultPublish_converted hsl hcv).trans (if_neg (not_or.mpr ⟨not_not_intro hch, Nat.not_lt.mpr hend⟩))
  case result =>
    intro ch broken sl cv
    refine ⟨State.feResult_lines.trans (congrArg (· + _) State.leadLines_eq), State.feResult_isOpen_iff, State.feResult_short, rfl, rfl, rfl,
      State.feResult_accepted, fun hnone => ⟨State.feResult_value_noNumber hnone, ?none⟩, fun hnum hover => ?overrange, fun hcounts hlast => ?counts⟩
    case none => exact State.feRaw_noNumber hnone ▸ State.feResult_word
    case overrange =>
      rw [State.feResult_word_number hnum, State.feRaw_overrange hnum hover, hover]
    case counts =>
      obtain ⟨hnum, hover, -⟩ := State.feCounts_iff.mp hcounts
      have hhist := State.feResult_hist hcounts hlast
      have hraw := (State.feRaw_counts hcounts).trans (congrArg filterOut hhist)
      exact ⟨hhist, by rw [State.feResult_word_number hnum, hraw, hover], by rw [State.feResult_value_number hnum, hraw]⟩
  case publishNot =>
    exact fun _ _ h => h.elim execFeResultPublish_no_slot (fun ⟨_, hsl, hcv⟩ => execFeResultPublish_not_converted hsl hcv)
  case trip =>
    intro ch hch hruns hexc
    have htrip (trip : Trip) : execFeComplianceTrip t ch trip s = .next ((s.at t).tripped ch trip) := execFeComplianceTrip_watched ⟨hruns, hexc, hch⟩
    refine ⟨fun h => ?high, fun h => ⟨?low, ?limit⟩, fun h trip => ?unexcited⟩
    case high => exact (htrip _).trans (congrArg _ (State.tripped_excHigh h))
    case low => exact (htrip _).trans (congrArg _ (State.tripped_currentLow h))
    case limit => exact (htrip _).trans (congrArg _ (State.tripped_currentLimit h))
    case unexcited => exact (htrip _).trans (congrArg _ (State.tripped_unexcited h trip))
  case burst => exact fun _ hoff hgeode => execHkBurst_running (not_or.mpr ⟨hoff, hgeode⟩)

end Sys2Proof.Machine

/-! PROOFS. Every command comes to a next state, but for a Basalt operation with a reserved encoding. -/

namespace Sys2Proof.Machine

/-- A command's meaning comes to a next state: it neither stops nor is refused. -/
def Runs (o : Out) : Prop := ∃ t, o = .next t

theorem Runs.next (s : State) : Runs (.next s) := ⟨s, rfl⟩

theorem Runs.ite {p : Prop} [Decidable p] {a b : Out} (ha : Runs a) (hb : Runs b) : Runs (if p then a else b) := by
  split
  · exact ha
  · exact hb

/-- An operation that stops on a reserved code alone runs on any other. -/
theorem Runs.of_not {p : Prop} [Decidable p] {a b : Out} (hp : ¬ p) (hb : Runs b) : Runs (if p then a else b) := by
  rw [if_neg hp]
  exact hb

/-- A burst boundary goes on with a run, refreshes, serves or idles. -/
theorem execDramBurstBoundary_runs (clock : Nat) (arrivals : List DramReq) (ecc : EccObs) (s : State) : Runs (execDramBurstBoundary clock arrivals ecc s) := by
  unfold execDramBurstBoundary
  refine .ite (.next _) ?_
  extract_lets s0 s1 s2 goesOn _ s3 s4
  clear_value goesOn s3 s4
  cases goesOn with
  | some p => exact .next _
  | none =>
    cases s3.forcedDue clock with
    | some r => exact .next _
    | none =>
      cases s4.choose clock with
      | some p => exact .next _
      | none => exact .next _

/-- Every command whose encoding is not reserved runs. Most come to one next state or to one of two by a single test; the others turn on something that may be missing: a slot,
a member, a transfer, an observation. -/
theorem exec_runs {c : Instr} (s : State) (h : reserved c = false) : Runs (exec c s) := by
  cases c with
  | vld | vldb | sld | vst | vstm | sst | vld2 | vldst => exact .of_not (ne_true_of_eq_false h) (.next _)
  | accrd16 => exact .of_not (of_decide_eq_false h) (.next _)
  | accrd32 => exact .of_not (of_decide_eq_false h) (.ite (.next _) (.next _))
  | dramBurstBoundary => exact execDramBurstBoundary_runs ..
  -- One next state, whatever the command finds.
  | cfgCommit | hello | ping | cfgGet | cfgSet | cfgDiscard | cfgDiff | cfgList | cfgSave | cfgErase | timeSet | tdcRead | kernelLoad | kernelUnload
  | kernelSnapshot | captureSend | captureDerive | captureRelease | captureList | eventSubscribe | eventRead | fwBegin | fwWrite | fwFinish
  | fwActivate | fwConfirm | reset | stateGet | run | stop | geodeEnter | wake | bedrockForce | bedrockRelease | ensStatus | ensMembers | ensCommit
  | ensCaptureAt | ensForget | logRead | selftest | selftestResult | linkTest | linkResult | telemetryRead | lifeRead | tcpClose | sessionIdleTimeout
  | ncpFramingLoss | seedFault | seedSwitchover | qualitySummary | retxTileRelease | nop | rotDecrement | aaddi | amov | aget | sadd | ssub | saddi
  | sand | sor | sxor | sshl | sshr | sshra | smovi | smovih | smul | brickIn | scratchIn | scratchOut | output | waitd | vmac | vmsu | vmul | vmacs
  | vsqa | vmulq | accclr | vadd | vsub | vadds | vsubs | vabs | vmax | vmin | vand | vor | vxor | vshl | vshra | vshrl | vmov | vbcast | vcmpeq
  | vcmpgt | vcmpge | vsel | vperm | vredadd | vredmax | br | brz | brnz | bri | call | reti | loopa | loopb | mtc | dint | eint | tend | trace | crcv
  | crcs | crcseed | crcfin | triggerGroupNotify | refInputPresent | refInputLost | timeSteerUpdate | ptpAnnounceTimeout | ptpUnsupportedMessage
  | tdcStampDrain | chainLoadComplete | driveMeasurement | dnssdPeerFound | ensCaptureTimeout | poeClassification | levelEvaluation | wakeInput
  | comparatorWake | resetN | lockstepMismatch | ensCaptureAnswer =>
    exact .next _
  -- One test.
  | captureAt | unknownCommand | timebaseStep | neighbourTest | spiStatus | spiWrite | spiRead | i2cRead | groupLaunch | thinnedLaunch
  | internalStrobe | patternStep | lockWordMissing | syncCollision | seedLockAcquired | launchClamp | noFibreProbe | discoveryContinuityEnd
  | discoveryRampEnd | iqTermUpdate | combineWeightRecompute | nspTileSend | nack | idle | suspended | feScanStart | feSlotStart | hkBurst
  | interruptEntry | keTimerExpiry | deadlineWarn | accsv | accld | vext | vins | freqGateEnd | ocxoAgeingStep | ptpAnnounce | ptpDelayReqSend
  | ppsOutEdge | ppsOutFall | failoverRampComplete | ledBlink | heartbeatSend | table | sourceLoss | lldpPowerAllocation | mpsPulse | bootComplete
  | readyToRunning | alarmInterval | holdCapacitanceMeasure | faultRetry | wavelengthCalibration | flashBlockErase | telemetryRecord | telemetryHourly
  | lifeAccount | selftestComplete | linkErrorCheck | pfailNRelease | peerConnectionIdle =>
    exact .ite (.next _) (.next _)
  -- Two tests, the second where the first fails.
  | gainRunEvaluation | refreshInterval | refreshRatePoll | rowIdleClose | qosMeterWindow | requestUrgencyAge | patrolScrubRead | eccWriteBack
  | wckDqTracking | trackingStep | pumpAgeingRecord | heartbeat | ensTimeEvaluation | sourcePresent =>
    exact .ite (.next _) (.ite (.next _) (.next _))
  -- Two tests, the second where the first holds.
  | discoveryRangingEnd | ptpSync =>
    exact .ite (.ite (.next _) (.next _)) (.next _)
  -- Three tests.
  | portRediscover | seedSelect | syncWordReceive =>
    exact .ite (.next _) (.ite (.next _) (.ite (.next _) (.next _)))
  -- What may be missing decides: both ends come to a next state.
  | commitFTick | backgroundCommandComplete | schedLockRealign | tcpConnect | i2cPointerWrite | frameStrobe | proofWindow | dtsSwitchSettled
  | lockAcquireTimeout | seedLocked | seedRelockAttempt | discoveryProfileEnd | aprHoldExpiry | traceFieldWords | traceStrainWords
  | decimationTileProcessed | retransmissionSend | networkLinkLoss | networkLinkUp | darkFrameSecondHalf | dtsResultPublish | dtsFeedbackCheck
  | feWindowEnd | feResultPublish | feComplianceTrip | basaltTileEntry | dmaComplete | kernelDeadline | spareCoreLoaded | mfc | triggerEvaluation
  | evtOutPulseEnd | timeConditionInstant | captureRecordCopy | captureComplete | captureRetainExpiry | captureSendComplete | captureDeriveComplete
  | migrationSpareVerified | migrationComplete | spareRankTest | spareRankTestEnd | ppsInEdge | ppsInTimeout | ptpFollowUp | ptpDelayResp
  | ptpPdelayResp | tdcEdge | tdcGateFit | timecheck | timecheckSend | prepare | vote | decide | outcome | prepareDeadline | outcomeQuery
  | inDoubtTimeout | memberLost | memberForget | shedUndo | bedrockExit | wakeTimer | wakeDatagram | grantWake | geodeLinkTry | pfail | saveComplete
  | thermalThreshold | fwTrialTimeout | linkTestEnd | arpNeighbourSolicitation | coreHardwareFault =>
    simp only [exec]
    delta execCommitFTick execBackgroundCommandComplete execSchedLockRealign execTcpConnect execI2cPointerWrite execFrameStrobe execProofWindow
      execDtsSwitchSettled execLockAcquireTimeout execSeedLocked execSeedRelockAttempt execDiscoveryProfileEnd execAprHoldExpiry execTraceFieldWords
      execTraceStrainWords execDecimationTileProcessed execRetransmissionSend execNetworkLinkLoss execNetworkLinkUp execDarkFrameSecondHalf
      execDtsResultPublish execDtsFeedbackCheck execFeWindowEnd execFeResultPublish execFeComplianceTrip execBasaltTileEntry execDmaComplete
      execKernelDeadline execSpareCoreLoaded execMfc execTriggerEvaluation execEvtOutPulseEnd execTimeConditionInstant execCaptureRecordCopy
      execCaptureComplete execCaptureRetainExpiry execCaptureSendComplete execCaptureDeriveComplete execMigrationSpareVerified execMigrationComplete
      execSpareRankTest execSpareRankTestEnd execPpsInEdge execPpsInTimeout execPtpFollowUp execPtpDelayResp execPtpPdelayResp execTdcEdge
      execTdcGateFit execTimecheck execTimecheckSend execPrepare execVote execDecide execOutcome execPrepareDeadline execOutcomeQuery
      execInDoubtTimeout execMemberLost execMemberForget execShedUndo execBedrockExit execWakeTimer execWakeDatagram execGrantWake execGeodeLinkTry
      execPfail execSaveComplete execThermalThreshold execFwTrialTimeout execLinkTestEnd execArpNeighbourSolicitation execCoreHardwareFault
    repeat' first
      | with_reducible exact .next _
      | with_reducible refine .ite ?_ ?_
      | split
      | fail_if_no_progress extract_lets

theorem exec_reserved {c : Instr} (s : State) (h : reserved c = true) : exec c s = .fault .reservedEncoding := by
  cases c with
  | vld | vldb | sld | vst | vstm | sst | vld2 | vldst => exact if_pos h
  | accrd16 | accrd32 => exact if_pos (of_decide_eq_true h)
  | _ => exact absurd h Bool.false_ne_true

/-- Settles O6: a command whose encoding is not reserved runs and, as every command, keeps the queue; a reserved one stops. -/
theorem noCommandIsRefused : Obligations.NoCommandIsRefused := by
  refine fun c s => ⟨fun h => ?runs, exec_reserved s⟩
  obtain ⟨t, ht⟩ := exec_runs s h
  exact ⟨t, ht, (exec_moves c s t ht).keeps.pending⟩

end Sys2Proof.Machine

/-! PROOFS. The data memory of a Basalt core, and results in flight as they land. -/

namespace Sys2Proof.Machine

/-! ### Data memory (R190, R192) -/

section
variable {m m' : List Host.Cell} {lo n k k' : Nat} {b v : Byte}

theorem memWfFrom_cons : memWfFrom lo ((k, v) :: m) = true ↔ lo ≤ k ∧ v ≠ memDefault ∧ memWfFrom (k + 1) m = true := by
  simp only [memWfFrom, Bool.and_eq_true, decide_eq_true_eq, bne_iff_ne, and_assoc]

/-- Below its bound a memory in canonical form reads the default. -/
theorem memRead_below (h : memWfFrom lo m = true) (hn : n < lo) : memRead m n = memDefault := by
  cases m with
  | nil => rfl
  | cons c rest =>
    obtain ⟨hlo, -, -⟩ := memWfFrom_cons.mp h
    have hk : n < c.1 := Nat.lt_of_lt_of_le hn hlo
    exact (if_neg hk.ne').trans (if_pos hk)

/-- A cell in front of a memory whose addresses lie above it is read at its own address and hides no other. -/
theorem memRead_cons (h : memWfFrom (k + 1) m = true) : memRead ((k, v) :: m) n = if n = k then v else memRead m n := by
  rw [memRead]
  rcases lt_trichotomy n k with hlt | rfl | hgt
  · rw [if_neg hlt.ne', if_pos hlt, if_neg hlt.ne, memRead_below h (Nat.lt_succ_of_lt hlt)]
  · rw [if_pos rfl, if_pos rfl]
  · rw [if_neg hgt.ne, if_neg hgt.not_gt, if_neg hgt.ne']

theorem memRead_memInsert (hb : b ≠ memDefault) (h : memWfFrom lo m = true) :
    memRead (memInsert n b m) k = if k = n then b else memRead m k := by
  induction m generalizing lo with
  | nil => exact memRead_cons rfl
  | cons c rest ih =>
    obtain ⟨-, hv, hrest⟩ := memWfFrom_cons.mp h
    rw [memInsert]
    split
    · rename_i hlt
      exact memRead_cons (memWfFrom_cons.mpr ⟨hlt, hv, hrest⟩)
    · split
      · rename_i heq
        rw [← heq, memRead_cons hrest, memRead_cons hrest]
        grind
      · have hlt : c.1 + 1 ≤ n := by omega
        rw [memRead_cons (memInsert_wf hb hlt rest hrest), ih hrest, memRead_cons hrest]
        grind

theorem memRead_memErase (h : memWfFrom lo m = true) : memRead (memErase n m) k = if k = n then memDefault else memRead m k := by
  induction m generalizing lo with
  | nil => exact (ite_self _).symm
  | cons c rest ih =>
    obtain ⟨-, hv, hrest⟩ := memWfFrom_cons.mp h
    rw [memErase]
    split
    · rename_i heq
      rw [← heq, memRead_cons hrest]
      have hbelow : memRead rest c.1 = memDefault := memRead_below hrest c.1.lt_succ_self
      grind
    · split
      · rename_i hlt
        have hbelow : memRead (c :: rest) n = memDefault := memRead_below (memWfFrom_cons.mpr ⟨Nat.le_refl _, hv, hrest⟩) hlt
        grind
      · rw [memRead_cons (memErase_wf rest hrest), ih hrest, memRead_cons hrest]
        grind

/-- A write is seen at its address and nowhere else. -/
theorem memRead_memWrite (h : Memory.wf m = true) : memRead (memWrite m n b) k = if k = n then b else memRead m k := by
  unfold memWrite
  split
  · rename_i hb
    rw [hb]
    exact memRead_memErase h
  · rename_i hb
    exact memRead_memInsert hb h

/-- The first address of a memory that reads like another in canonical form is not below the other's bound. -/
theorem le_of_memRead_eq (h : memWfFrom lo ((k, v) :: m) = true) (h' : memWfFrom k' m' = true) (hr : ∀ n, memRead ((k, v) :: m) n = memRead m' n) : k' ≤ k := by
  obtain ⟨-, hv, hm⟩ := memWfFrom_cons.mp h
  by_contra hlt
  have hread := hr k
  rw [memRead_cons hm, if_pos rfl, memRead_below h' (Nat.not_le.mp hlt)] at hread
  exact hv hread

/-- No memory with a cell reads like the empty one. -/
theorem not_memRead_eq_nil (h : memWfFrom lo ((k, v) :: m) = true) : ¬ ∀ n, memRead ((k, v) :: m) n = memRead [] n :=
  fun hr => absurd (le_of_memRead_eq (k' := k + 1) h rfl hr) (Nat.not_succ_le_self k)

/-- Two memories in canonical form that read the same everywhere are the same: their first cells agree, and so do the rests. -/
theorem eq_of_memRead_eq {lo' : Nat} (h : memWfFrom lo m = true) (h' : memWfFrom lo' m' = true) (hr : ∀ n, memRead m n = memRead m' n) : m = m' := by
  induction m generalizing lo lo' m' with
  | nil =>
    cases m' with
    | nil => rfl
    | cons c' rest' => exact absurd (fun n => (hr n).symm) (not_memRead_eq_nil h')
  | cons c rest ih =>
    cases m' with
    | nil => exact absurd hr (not_memRead_eq_nil h)
    | cons c' rest' =>
      obtain ⟨k, v⟩ := c
      obtain ⟨k', v'⟩ := c'
      obtain ⟨-, hv, hrest⟩ := memWfFrom_cons.mp h
      obtain ⟨-, hv', hrest'⟩ := memWfFrom_cons.mp h'
      have hk : k = k' := Nat.le_antisymm
        (le_of_memRead_eq h' (memWfFrom_cons.mpr ⟨Nat.le_refl k, hv, hrest⟩) fun n => (hr n).symm)
        (le_of_memRead_eq h (memWfFrom_cons.mpr ⟨Nat.le_refl k', hv', hrest'⟩) hr)
      subst hk
      have hr : ∀ n, (if n = k then v else memRead rest n) = if n = k then v' else memRead rest' n := fun n => by
        rw [← memRead_cons hrest, ← memRead_cons hrest']
        exact hr n
      have hv : v = v' := by simpa only [if_pos] using hr k
      rw [hv, ih hrest hrest' fun n => ?_]
      rcases eq_or_ne n k with rfl | hn
      · rw [memRead_below hrest n.lt_succ_self, memRead_below hrest' n.lt_succ_self]
      · simpa only [if_neg hn] using hr n

end

/-- Settles O13: what a write does to every read, and that reads decide a memory in canonical form. -/
theorem dataMemoryReadsBack : Obligations.DataMemoryReadsBack :=
  ⟨fun _ _ _ h => ⟨(memRead_memWrite h).trans (if_pos rfl), fun _ hk => (memRead_memWrite h).trans (if_neg hk)⟩, fun _ _ => eq_of_memRead_eq⟩

/-! ### Results in flight (R195, R196) -/

section
variable {x : BCore} {d : BDest} {a b : BWrite} {f n v : Nat}

/-- A vector, scalar or address register. -/
def BDest.IsReg (d : BDest) : Prop := ∃ r, d = .v r ∨ d = .s r ∨ d = .a r

theorem BDest.IsReg.not_flag (h : d.IsReg) : d.isFlag = false := by
  obtain ⟨r, rfl | rfl | rfl⟩ := h <;> rfl

@[simp] theorem BCore.statusBit_stores (bit : Nat) (on : Bool) : (x.statusBit bit on).stores = x.stores := by
  unfold BCore.statusBit
  extract_lets
  split
  · rfl
  · split <;> rfl

/-- A result that arrives in a register changes that register alone. -/
theorem BDest.IsReg.place_frame (h : d.IsReg) (x : BCore) (v : Nat) :
    x.place d v = { x with v := (x.place d v).v, s := (x.place d v).s, a := (x.place d v).a } := by
  obtain ⟨r, rfl | rfl | rfl⟩ := h <;> rfl

theorem BDest.IsReg.place_stores (h : d.IsReg) (x : BCore) (v : Nat) : (x.place d v).stores = x.stores := by
  rw [h.place_frame]

theorem BCore.landStores_of_no_stores (h : x.stores = []) : x.landStores = x := by
  unfold BCore.landStores
  rw [h]
  cases x
  subst h
  rfl

theorem landCycle_nil : landCycle f [] x n = (x, n) := by cases f <;> rfl

theorem landCycle_single (ha : a.dest.isFlag = false) : landCycle (f + 1) [a] x n = (x.place a.dest a.val, n) := by
  rw [landCycle, if_neg (ne_true_of_eq_false ha)]
  exact landCycle_nil

/-- Of two results for one register the one of the higher slot arrives, and WCOLL is set. -/
theorem landCycle_pair {w : BWrite} (ha : a.dest.isFlag = false) (hreg : b.dest.reg = a.dest.reg)
    (hw : [a, b].filter (fun y => y.slot == max a.slot b.slot) = [w]) :
    landCycle (f + 1) [a, b] x n = ((x.statusBit 2 true).place w.dest w.val, n) := by
  have hsame : [b].filter (fun y => y.dest.reg == a.dest.reg) = [b] := by simp [hreg]
  have hothers : [b].filter (fun y => !(y.dest.reg == a.dest.reg)) = [] := by simp [hreg]
  rw [landCycle, if_neg (ne_true_of_eq_false ha)]
  simp only [hsame, hothers, List.foldl_cons, List.foldl_nil, Nat.zero_max, hw]
  exact (if_neg (List.cons_ne_nil _ _)).trans landCycle_nil

theorem filter_slot_second (h : a.slot < b.slot) : [a, b].filter (fun y => y.slot == max a.slot b.slot) = [b] := by
  simp [Nat.max_eq_right h.le, h.ne]

theorem filter_slot_first (h : b.slot < a.slot) : [a, b].filter (fun y => y.slot == max a.slot b.slot) = [a] := by
  simp [Nat.max_eq_left h.le, h.ne]

/-- The results that are due at the bundle count. -/
def BCore.dueWrites (x : BCore) : List BWrite := x.writes.filter (fun y => decide (y.due ≤ x.bundle))

/-- Those that are not due yet. -/
def BCore.laterWrites (x : BCore) : List BWrite := x.writes.filter (fun y => !decide (y.due ≤ x.bundle))

/-- Where every result due is for a register, they land as one cycle's results, in the order in which they were issued. -/
theorem BCore.land_of_regs (h : ∀ w ∈ x.dueWrites, w.dest.IsReg) :
    (x.land n).1 = (landCycle (x.dueWrites.length + 1) x.dueWrites { x with writes := x.laterWrites } n).1.landStores := by
  have hregs : x.dueWrites.filter (fun y => !y.dest.isFlag) = x.dueWrites := List.filter_eq_self.mpr fun w hw => by rw [(h w hw).not_flag]; rfl
  have hflags : x.dueWrites.filter (fun y => y.dest.isFlag) = [] := List.filter_eq_nil_iff.mpr fun w hw => by rw [(h w hw).not_flag]; nofun
  have hdue : x.dueWrites.filter (fun y => !y.dest.isFlag) ++ x.dueWrites.filter (fun y => y.dest.isFlag) = x.dueWrites := by
    rw [hregs, hflags, List.append_nil]
  exact congrArg (fun due => (landCycle (due.length + 1) due { x with writes := x.laterWrites } n).1.landStores) hdue

theorem BCore.land_none (hs : x.stores = []) (hd : x.dueWrites = []) : (x.land n).1 = { x with writes := x.laterWrites } := by
  rw [BCore.land_of_regs (by rw [hd]; nofun), hd, landCycle_nil]
  exact BCore.landStores_of_no_stores hs

/-- Where nothing is due the registers stay. -/
theorem BCore.land_none_s (hs : x.stores = []) (hd : x.dueWrites = []) : (x.land n).1.s = x.s := by rw [BCore.land_none hs hd]

theorem BCore.land_single (hs : x.stores = []) (ha : a.dest.IsReg) (hd : x.dueWrites = [a]) :
    (x.land n).1 = ({ x with writes := x.laterWrites } : BCore).place a.dest a.val := by
  rw [BCore.land_of_regs (by rw [hd]; exact List.forall_mem_singleton.mpr ha), hd, landCycle_single ha.not_flag]
  exact BCore.landStores_of_no_stores ((ha.place_stores _ _).trans hs)

theorem BCore.land_pair {w : BWrite} (hs : x.stores = []) (ha : a.dest.IsReg) (hb : b.dest = a.dest) (hd : x.dueWrites = [a, b])
    (hw : [a, b].filter (fun y => y.slot == max a.slot b.slot) = [w]) :
    (x.land n).1 = (({ x with writes := x.laterWrites } : BCore).statusBit 2 true).place w.dest w.val := by
  have hmem : w ∈ [a, b] := (List.mem_filter.mp (hw ▸ List.mem_singleton_self w)).1
  have hregs : ∀ y ∈ [a, b], y.dest.IsReg := by simp [ha, hb]
  rw [BCore.land_of_regs (hd ▸ hregs), hd, landCycle_pair ha.not_flag (congrArg _ hb) hw]
  exact BCore.landStores_of_no_stores (((hregs w hmem).place_stores _ _).trans ((BCore.statusBit_stores ..).trans hs))

/-- What is in flight and how far a core has come do not bear on a result's arrival in a register. -/
theorem BDest.IsReg.place_with_writes (h : d.IsReg) (x : BCore) (v : Nat) (ws : List BWrite) :
    { x.place d v with writes := ws } = ({ x with writes := ws } : BCore).place d v := by
  obtain ⟨r, rfl | rfl | rfl⟩ := h <;> rfl

theorem BDest.IsReg.place_with_bundle (h : d.IsReg) (x : BCore) (v bundle : Nat) :
    { x.place d v with bundle := bundle } = ({ x with bundle := bundle } : BCore).place d v := by
  obtain ⟨r, rfl | rfl | rfl⟩ := h <;> rfl

theorem BDest.IsReg.place_writes (h : d.IsReg) (x : BCore) (v : Nat) : (x.place d v).writes = x.writes := by
  rw [h.place_frame]

theorem BDest.IsReg.place_bundle (h : d.IsReg) (x : BCore) (v : Nat) : (x.place d v).bundle = x.bundle := by
  rw [h.place_frame]

end

/-- Settles O11: results due together are one cycle's pair, and a result due later lands alone, after the first. -/
theorem resultsThatLandTogether : Obligations.ResultsThatLandTogether := by
  intro x d lowSlot highSlot v1 v2 due1 due2 n hd hs first second empty
  have hd : d.IsReg := hd
  refine ⟨fun hslot h1 h2 hw => ?together, fun h1 h2 hw => ?apart⟩
  case together =>
    have hlater : x.laterWrites = [] := by rcases hw with hw | hw <;> simp [BCore.laterWrites, hw, first, second, h1, h2]
    have hempty : ({ x with writes := x.laterWrites } : BCore) = empty := by rw [hlater]
    rw [← hempty]
    rcases hw with hw | hw
    · exact BCore.land_pair (a := first) (b := second) (w := second) hs hd rfl (by simp [BCore.dueWrites, hw, first, second, h1, h2]) (filter_slot_second hslot)
    · exact BCore.land_pair (a := second) (b := first) (w := second) hs hd rfl (by simp [BCore.dueWrites, hw, first, second, h1, h2]) (filter_slot_first hslot)
  case apart =>
    have hdue : x.dueWrites = [first] := by rcases hw with hw | hw <;> simp [BCore.dueWrites, hw, first, second, h1, h2]
    have hlater : x.laterWrites = [second] := by rcases hw with hw | hw <;> simp [BCore.laterWrites, hw, first, second, h1, h2]
    have hfirst : (x.land n).1 = ({ x with writes := [second] } : BCore).place d v1 := hlater ▸ BCore.land_single hs hd hdue
    refine ⟨hfirst, ?_⟩
    let z : BCore := { x with writes := [second], bundle := due2 }
    have hz : ({ (x.land n).1 with bundle := due2 } : BCore) = z.place d v1 := by
      rw [hfirst]
      exact hd.place_with_bundle { x with writes := [second] } v1 due2
    have hlast : ((z.place d v1).land n).1 = ({ z.place d v1 with writes := [] } : BCore).place d v2 := by
      have hwrites : (z.place d v1).writes = [second] := hd.place_writes z v1
      have hbundle : (z.place d v1).bundle = due2 := hd.place_bundle z v1
      have hlater : (z.place d v1).laterWrites = [] := by simp [BCore.laterWrites, hwrites, hbundle, second]
      have hdue : (z.place d v1).dueWrites = [second] := by simp [BCore.dueWrites, hwrites, hbundle, second]
      exact hlater ▸ BCore.land_single (a := second) ((hd.place_stores z v1).trans hs) hd hdue
    rw [hz, hlast]
    exact congrArg (fun y : BCore => y.place d v2) (hd.place_with_writes z v1 [])

section
variable {x : BCore} {slot latency r v n k : Nat}

theorem BCore.place_sreg_same (hr : r < x.s.length) : (x.place (.s r) v).sreg r = BitVec.ofNat 32 v := by
  simp [BCore.place, BCore.sreg, hr]

theorem BCore.place_sreg_other {q : Nat} (hq : q ≠ r) : (x.place (.s r) v).sreg q = x.sreg q := by
  simp [BCore.place, BCore.sreg, List.getElem?_set_ne hq.symm]

theorem BCore.write_writes (hw : x.writes = []) (d : BDest) : (x.write slot latency d v).writes = [⟨x.bundle + latency, slot, d, v⟩] := by
  simp [BCore.write, hw]

/-- The core once `k` bundles have issued since a result was put in flight. -/
def BCore.later (x : BCore) (k : Nat) : BCore := { x with bundle := x.bundle + k }

theorem BCore.later_dueWrites_early (hw : x.writes = []) (hk : k < latency) (d : BDest) : ((x.write slot latency d v).later k).dueWrites = [] := by
  simp [BCore.later, BCore.dueWrites, BCore.write, hw, hk]

theorem BCore.later_dueWrites_due (hw : x.writes = []) (d : BDest) :
    ((x.write slot latency d v).later latency).dueWrites = [⟨x.bundle + latency, slot, d, v⟩] := by
  simp [BCore.later, BCore.dueWrites, BCore.write, hw]

end

/-- Settles O12: before its latency has passed no result is due; then the one result is, and it changes its register alone. -/
theorem resultsLandAfterTheirLatency : Obligations.ResultsLandAfterTheirLatency := by
  intro x slot latency r v n hw hs hr y
  have hlands : ((y.later latency).land n).1 = ({ y.later latency with writes := (y.later latency).laterWrites } : BCore).place (.s r) v :=
    BCore.land_single (a := ⟨x.bundle + latency, slot, .s r, v⟩) hs ⟨r, .inr (.inl rfl)⟩ (BCore.later_dueWrites_due hw _)
  refine ⟨fun k hk => ?early, ?same, fun q hq => ?other⟩
  case early => exact BCore.land_none_s (x := y.later k) hs (BCore.later_dueWrites_early hw hk _)
  case same => exact (congrArg (BCore.sreg · r) hlands).trans (BCore.place_sreg_same hr)
  case other => exact (congrArg (BCore.sreg · q) hlands).trans (BCore.place_sreg_other hq)

end Sys2Proof.Machine

/-! PROOFS. The operations of a Basalt core on its registers: scalar, vector and multiply-accumulate operations. -/

namespace Sys2Proof.Machine

/-! ### Operations that can issue (R184, R215) -/

section
variable {s : State} {c : Nat} {close : Bool}

/-- An operation of a core on itself, where the core can issue. -/
theorem next_issueCore_can {f : BCore → BCore} (h : s.canIssue c) : (.next (s.issueCore c close f) : Out) = .next (s.coreDoes c close f) :=
  congrArg _ (State.issueCore_can h close f)

/-- The same with a value the spec leaves open. -/
theorem next_issueFree_can {f : Nat → BCore → BCore} (h : s.canIssue c) : (.next (s.issueFree c close f) : Out) = .next (s.coreDraws c close f) :=
  congrArg _ (State.issueFree_can h close f)

end

/-! ### Scalar operations (R194, R195) -/

/-- Settles O16: every scalar operation is one function of its core. -/
theorem scalarOpsWriteTheirResult : Obligations.ScalarOpsWriteTheirResult := fun _ _ h =>
  ⟨next_issueCore_can h, next_issueCore_can h, next_issueCore_can h, next_issueCore_can h, next_issueCore_can h, next_issueCore_can h, next_issueCore_can h,
    next_issueCore_can h, next_issueCore_can h, next_issueCore_can h, next_issueCore_can h, next_issueCore_can h⟩

/-! ### Vector operations of slot 2 (R194, R195) -/

section
variable {s : State} {o : OpV}

theorem execVext_lane (h : s.canIssue o.core) (hl : o.imm.toNat < laneN o.w) :
    execVext o s = .next (s.coreDoes o.core o.close (fun x =>
      toS 2 1 (low5 o.d) (bitsOf 32 (signed (laneW o.w) ((x.lanes o.w o.a.toNat).getD o.imm.toNat 0))) x)) :=
  (if_pos hl).trans (next_issueCore_can h)

theorem execVext_no_lane (h : s.canIssue o.core) (hl : laneN o.w ≤ o.imm.toNat) :
    execVext o s = .next (s.coreDraws o.core o.close (fun free x => toS 2 1 (low5 o.d) (free % 2 ^ 32) x)) :=
  (if_neg (Nat.not_lt.mpr hl)).trans (next_issueFree_can h)

theorem execVins_lane (h : s.canIssue o.core) (hl : o.imm.toNat < laneN o.w) :
    execVins o s = .next (s.coreDoes o.core o.close (fun x =>
      toV 2 1 o.d.toNat (ofLanes (laneW o.w) ((x.lanes o.w o.d.toNat).set o.imm.toNat ((x.sreg (low5 o.a)).toNat % 2 ^ laneW o.w))) x)) :=
  (if_pos hl).trans (next_issueCore_can h)

theorem execVins_no_lane (h : s.canIssue o.core) (hl : laneN o.w ≤ o.imm.toNat) :
    execVins o s = .next (s.coreDraws o.core o.close (fun free x => toV 2 1 o.d.toNat (free % 2 ^ 512) x)) :=
  (if_neg (Nat.not_lt.mpr hl)).trans (next_issueFree_can h)

end

/-- Settles O17: every operation is one function of its core; VABS draws for its open lane, and VEXT and VINS draw where the lane they name does not exist. -/
theorem vectorOpsWriteTheirLanes : Obligations.VectorOpsWriteTheirLanes := by
  refine ⟨fun s o h => ?lanewise, fun s o h => ?others⟩
  case lanewise =>
    exact ⟨next_issueCore_can h, next_issueCore_can h, next_issueCore_can h, next_issueCore_can h, next_issueCore_can h, next_issueCore_can h,
      next_issueCore_can h, next_issueCore_can h, next_issueCore_can h, next_issueCore_can h, next_issueCore_can h, next_issueCore_can h, next_issueCore_can h⟩
  case others =>
    exact ⟨next_issueCore_can h, next_issueCore_can h, next_issueCore_can h, next_issueCore_can h, next_issueCore_can h, execVext_lane h, execVext_no_lane h,
      execVins_lane h, execVins_no_lane h, next_issueCore_can h, next_issueCore_can h, next_issueCore_can h, next_issueFree_can h⟩

/-! ### Multiply-accumulate operations of slot 1 (R194, R195, R197) -/

section
variable {s : State} {o : OpX}

theorem execAccrd16_rounding (h : s.canIssue o.core) (hr : o.round ≠ 3) :
    execAccrd16 o s = .next (s.coreDoes o.core o.close (fun x =>
      satResult x 16 o.va.toNat ((x.accLanes o.acc.toNat).map (shiftRound o.round.toNat o.shift.toNat)))) :=
  (if_neg hr).trans (next_issueCore_can h)

theorem execAccrd32_part (h : s.canIssue o.core) (hr : o.round ≠ 3) (hp : o.part.toNat < 2) :
    execAccrd32 o s = .next (s.coreDoes o.core o.close (fun x =>
      satResult x 32 o.va.toNat ((((x.accLanes o.acc.toNat).drop (16 * o.part.toNat)).take 16).map (shiftRound o.round.toNat o.shift.toNat)))) :=
  ((if_neg hr).trans (if_pos hp)).trans (next_issueCore_can h)

theorem execAccrd32_no_part (h : s.canIssue o.core) (hr : o.round ≠ 3) (hp : 2 ≤ o.part.toNat) :
    execAccrd32 o s = .next (s.coreDraws o.core o.close (fun free x => toV 1 4 o.va.toNat (free % 2 ^ 512) x)) :=
  ((if_neg hr).trans (if_neg (Nat.not_lt.mpr hp))).trans (next_issueFree_can h)

/-- Part 3 is none of the three 16-bit parts of a 48-bit lane. -/
theorem not_lt_three_of_part {part : BitVec 2} (hp : part = 3) : ¬ part.toNat < 3 := by
  rw [hp]
  decide

theorem execAccsv_part (h : s.canIssue o.core) (hp : o.part.toNat < 3) :
    execAccsv o s = .next (s.coreDoes o.core o.close (fun x =>
      toV 1 4 o.va.toNat (ofLanes 16 ((lanesOf 48 32 (x.accreg o.acc.toNat).toNat).map (fun l => l / 2 ^ (16 * o.part.toNat) % 65536))) x)) :=
  (if_pos hp).trans (next_issueCore_can h)

theorem execAccsv_no_part (h : s.canIssue o.core) (hp : o.part = 3) :
    execAccsv o s = .next (s.coreDraws o.core o.close (fun free x => toV 1 4 o.va.toNat (free % 2 ^ 512) x)) :=
  (if_neg (not_lt_three_of_part hp)).trans (next_issueFree_can h)

theorem execAccld_part (h : s.canIssue o.core) (hp : o.part.toNat < 3) :
    execAccld o s = .next (s.coreDoes o.core o.close (fun x =>
      x.setAcc o.acc.toNat (BitVec.ofNat 1536 (ofLanes 48 (((lanesOf 48 32 (x.accreg o.acc.toNat).toNat).zip (x.lanes false o.va.toNat)).map
        (fun e => putPart o.part.toNat e.1 e.2)))))) :=
  (if_pos hp).trans (next_issueCore_can h)

theorem execAccld_no_part (h : s.canIssue o.core) (hp : o.part = 3) :
    execAccld o s = .next (s.coreDraws o.core o.close (fun free x => x.setAcc o.acc.toNat (BitVec.ofNat 1536 free))) :=
  (if_neg (not_lt_three_of_part hp)).trans (next_issueFree_can h)

end

/-- Settles O18: the operations over vectors are one function of their core; the readouts, ACCSV and ACCLD split on the rounding code and on the part. -/
theorem macOpsUpdateTheirAccumulator : Obligations.MacOpsUpdateTheirAccumulator := by
  intro s o vd h
  refine ⟨next_issueCore_can h, next_issueCore_can h, next_issueCore_can h, next_issueCore_can h, next_issueCore_can h, next_issueCore_can h,
    next_issueCore_can h, ?readouts⟩
  case readouts =>
    exact ⟨execAccrd16_rounding h, execAccrd32_part h, execAccrd32_no_part h, fun hr => ⟨if_pos hr, if_pos hr⟩, execAccsv_part h, execAccsv_no_part h,
      execAccld_part h, execAccld_no_part h⟩

end Sys2Proof.Machine

/-! PROOFS. The control operations of a Basalt core, and its loads and stores. -/

namespace Sys2Proof.Machine

/-! ### Control registers (R205) -/

section
variable {s : State} {o : OpC}

theorem execMfc_read {v : Nat} (h : s.canIssue o.core) (hv : (s.core o.core).mfcRead o.core o.ke.toNat = some v) :
    execMfc o s = .next (s.coreDoes o.core o.close (toS 2 1 o.s.toNat v)) := by
  simp only [execMfc, hv]
  exact next_issueCore_can h

theorem execMfc_no_register (h : s.canIssue o.core) (hv : (s.core o.core).mfcRead o.core o.ke.toNat = none) :
    execMfc o s = .next (s.coreDraws o.core o.close (fun free x => toS 2 1 o.s.toNat (free % 2 ^ 32) x)) := by
  simp only [execMfc, hv]
  exact next_issueFree_can h

/-- What MTC does to its core: the halves of a check unit's running value act in issue order, any other register lands two bundles later. -/
def BCore.mtc (x : BCore) (o : OpC) : BCore :=
  let v := (x.sreg o.s.toNat).toNat
  let k := o.ke.toNat
  let y := { x with noInt := true }
  if 0x44 ≤ k ∧ k ≤ 0x47 then y.setCrc (k - 0x44) (x.crcAt (k - 0x44) / 2 ^ 32 * 2 ^ 32 + v)
  else if 0x48 ≤ k ∧ k ≤ 0x4B then y.setCrc (k - 0x48) (x.crcAt (k - 0x48) % 2 ^ 32 + 2 ^ 32 * v)
  else y.write 2 2 (.mtc k) v

theorem execMtc_can {f : BCore → BCore} (h : s.canIssue o.core) (hf : ∀ x : BCore, x.mtc o = f x) : execMtc o s = .next (s.coreDoes o.core o.close f) :=
  funext hf ▸ next_issueCore_can (f := fun x => x.mtc o) h

theorem BCore.mtc_low_half {x : BCore} (h1 : 0x44 ≤ o.ke.toNat) (h2 : o.ke.toNat ≤ 0x47) :
    x.mtc o = ({ x with noInt := true } : BCore).setCrc (o.ke.toNat - 0x44) (x.crcAt (o.ke.toNat - 0x44) / 2 ^ 32 * 2 ^ 32 + (x.sreg o.s.toNat).toNat) :=
  if_pos ⟨h1, h2⟩

theorem BCore.mtc_high_half {x : BCore} (h1 : 0x48 ≤ o.ke.toNat) (h2 : o.ke.toNat ≤ 0x4B) :
    x.mtc o = ({ x with noInt := true } : BCore).setCrc (o.ke.toNat - 0x48) (x.crcAt (o.ke.toNat - 0x48) % 2 ^ 32 + 2 ^ 32 * (x.sreg o.s.toNat).toNat) :=
  (if_neg fun hlow => by omega).trans (if_pos ⟨h1, h2⟩)

theorem BCore.mtc_other {x : BCore} (h : o.ke.toNat < 0x44 ∨ 0x4B < o.ke.toNat) :
    x.mtc o = ({ x with noInt := true } : BCore).write 2 2 (.mtc o.ke.toNat) (x.sreg o.s.toNat).toNat :=
  (if_neg fun hlow => by omega).trans (if_neg fun hhigh => by omega)

end

/-- Settles O21: every operation is one function of its core; MFC splits on whether its register exists, MTC on the register it names. -/
theorem controlOpsSteerTheirCore : Obligations.ControlOpsSteerTheirCore := by
  refine ⟨⟨fun s c close h => ⟨next_issueCore_can h, next_issueCore_can h⟩, fun s o h => ?steer, fun s o t h => next_issueCore_can h⟩, fun s o h => ?registers⟩
  case steer =>
    exact ⟨next_issueCore_can h, next_issueCore_can h, next_issueCore_can h, next_issueCore_can h, next_issueCore_can h, next_issueCore_can h,
      next_issueCore_can h, next_issueCore_can h, next_issueCore_can h, next_issueCore_can h, next_issueCore_can h⟩
  case registers =>
    exact ⟨fun v => execMfc_read h, execMfc_no_register h, fun hk => execMtc_can h fun _ => BCore.mtc_other hk,
      fun h1 h2 => execMtc_can h fun _ => BCore.mtc_low_half h1 h2, fun h1 h2 => execMtc_can h fun _ => BCore.mtc_high_half h1 h2,
      next_issueCore_can h, next_issueCore_can h, next_issueCore_can h, next_issueCore_can h⟩

/-! ### Loads and stores of one address (R190 to R193) -/

section
variable {s : State} {o : OpM} {size : Nat}

theorem loadM_reserved {place : Nat → BCore → BCore} (hm : modeReserved o.mode = true) : loadM o size place s = .fault .reservedEncoding := if_pos hm

theorem storeM_reserved {inc : Int} {cells : BCore → Nat → List Host.Cell} (hm : modeReserved o.mode = true) :
    storeM o size inc cells s = .fault .reservedEncoding :=
  if_pos hm

theorem loadM_passes {place : Nat → BCore → BCore} (h : s.canIssue o.core) (hm : modeReserved o.mode = false)
    (ha : accessFault (((s.opened o.core).core o.core).addrOf o.an.toNat o.mode.toNat (inc24 o)) size false = none) :
    loadM o size place s = .next ((((s.opened o.core).loadTo o.core (((s.opened o.core).core o.core).addrOf o.an.toNat o.mode.toNat (inc24 o)) size place).updateAddr
      o.core o.an.toNat o.mode.toNat (inc24 o) (some (incReg o))).ended o.core o.close) := by
  rw [loadM, if_neg (ne_true_of_eq_false hm), State.issue_can h]
  simp only [ha]

theorem loadM_fails {place : Nat → BCore → BCore} {k : Nat} (h : s.canIssue o.core) (hm : modeReserved o.mode = false)
    (ha : accessFault (((s.opened o.core).core o.core).addrOf o.an.toNat o.mode.toNat (inc24 o)) size false = some k) :
    loadM o size place s = .next (((s.opened o.core).coreFault o.core k).ended o.core o.close) := by
  rw [loadM, if_neg (ne_true_of_eq_false hm), State.issue_can h]
  simp only [ha]

theorem storeM_passes {inc : Int} {cells : BCore → Nat → List Host.Cell} (h : s.canIssue o.core) (hm : modeReserved o.mode = false)
    (ha : accessFault (((s.opened o.core).core o.core).addrOf o.an.toNat o.mode.toNat inc) size true = none) :
    storeM o size inc cells s = .next ((((s.opened o.core).setCore o.core (((s.opened o.core).core o.core).store
      (cells ((s.opened o.core).core o.core) (((s.opened o.core).core o.core).addrOf o.an.toNat o.mode.toNat inc)))).updateAddr
      o.core o.an.toNat o.mode.toNat inc (some (incReg o))).ended o.core o.close) := by
  rw [storeM, if_neg (ne_true_of_eq_false hm), State.issue_can h]
  simp only [ha]

theorem storeM_fails {inc : Int} {cells : BCore → Nat → List Host.Cell} {k : Nat} (h : s.canIssue o.core) (hm : modeReserved o.mode = false)
    (ha : accessFault (((s.opened o.core).core o.core).addrOf o.an.toNat o.mode.toNat inc) size true = some k) :
    storeM o size inc cells s = .next (((s.opened o.core).coreFault o.core k).ended o.core o.close) := by
  rw [storeM, if_neg (ne_true_of_eq_false hm), State.issue_can h]
  simp only [ha]

end

/-! ### Loads and stores of two addresses (R191, R193) -/

section
variable {s : State} {o : OpM2}

/-- The address an operation of form M2 takes from its first address register. -/
def State.addrN (st : State) (o : OpM2) : Nat := (st.core o.core).addrOf o.an.toNat o.mode.toNat (inc15 o)

/-- The address it takes from its second one. -/
def State.addrM (st : State) (o : OpM2) : Nat := (st.core o.core).addrOf o.am.toNat o.mode.toNat (inc15 o)

/-- Both address registers move, one alone where both addresses name it. -/
def State.moved2 (y : State) (o : OpM2) : State :=
  let z := y.updateAddr o.core o.an.toNat o.mode.toNat (inc15 o) none
  if o.am = o.an then z else z.updateAddr o.core o.am.toNat o.mode.toNat (inc15 o) none

/-- The first of two loads, with its bundle marked as making two accesses. -/
def State.firstLoad (st : State) (o : OpM2) : State := (st.twoAccesses o.core).loadTo o.core (st.addrN o) 64 (toV 0 3 o.vd.toNat)

theorem firstFault_of_first {a b : Option Nat} {k : Nat} (ha : a = some k) : firstFault a b = some k := by
  rw [ha]
  rfl

theorem firstFault_of_second {a b c : Option Nat} (ha : a = none) (hb : b = c) : firstFault a b = c := by
  rw [ha]
  exact hb

theorem execVld2_passes (h : s.canIssue o.core) (hm : modeReserved o.mode = false)
    (ha : firstFault (accessFault ((s.opened o.core).addrN o) 64 false) (accessFault ((s.opened o.core).addrM o) 64 false) = none) :
    execVld2 o s =
      .next (((((s.opened o.core).firstLoad o).loadTo o.core ((s.opened o.core).addrM o) 64 (toV 0 3 ((o.vd.toNat + 1) % 64))).moved2 o).ended o.core o.close) := by
  rw [execVld2, if_neg (ne_true_of_eq_false hm), State.issue_can h]
  simp only [State.addrN, State.addrM] at ha
  simp only [ha]
  rfl

theorem execVld2_fails {k : Nat} (h : s.canIssue o.core) (hm : modeReserved o.mode = false)
    (ha : firstFault (accessFault ((s.opened o.core).addrN o) 64 false) (accessFault ((s.opened o.core).addrM o) 64 false) = some k) :
    execVld2 o s = .next (((s.opened o.core).coreFault o.core k).ended o.core o.close) := by
  rw [execVld2, if_neg (ne_true_of_eq_false hm), State.issue_can h]
  simp only [State.addrN, State.addrM] at ha
  simp only [ha]

theorem execVldst_passes (h : s.canIssue o.core) (hm : modeReserved o.mode = false)
    (ha : firstFault (accessFault ((s.opened o.core).addrN o) 64 false) (accessFault ((s.opened o.core).addrM o) 64 true) = none) :
    execVldst o s = .next (((((s.opened o.core).firstLoad o).setCore o.core ((((s.opened o.core).firstLoad o).core o.core).store
      (cellsFrom ((s.opened o.core).addrM o) (le 64 (((s.opened o.core).core o.core).vreg o.vs.toNat).toNat)))).moved2 o).ended o.core o.close) := by
  rw [execVldst, if_neg (ne_true_of_eq_false hm), State.issue_can h]
  simp only [State.addrN, State.addrM] at ha
  simp only [ha]
  rfl

theorem execVldst_fails {k : Nat} (h : s.canIssue o.core) (hm : modeReserved o.mode = false)
    (ha : firstFault (accessFault ((s.opened o.core).addrN o) 64 false) (accessFault ((s.opened o.core).addrM o) 64 true) = some k) :
    execVldst o s = .next (((s.opened o.core).coreFault o.core k).ended o.core o.close) := by
  rw [execVldst, if_neg (ne_true_of_eq_false hm), State.issue_can h]
  simp only [State.addrN, State.addrM] at ha
  simp only [ha]

end

/-- Settles O19: a load or store splits on its mode and on the access check; of two accesses the first fault counts. -/
theorem loadsAndStoresReachTheirAddress : Obligations.LoadsAndStoresReachTheirAddress := by
  refine ⟨fun s o h => ?one, fun s o h => ?two⟩
  case one =>
    simp only [exec_vld, exec_vldb, exec_sld, exec_vst, exec_vstm, exec_sst]
    exact ⟨⟨loadM_reserved, loadM_passes h, fun _ => loadM_fails h⟩, ⟨loadM_reserved, loadM_passes h, fun _ => loadM_fails h⟩,
      ⟨loadM_reserved, loadM_passes h, fun _ => loadM_fails h⟩, ⟨storeM_reserved, storeM_passes h, fun _ => storeM_fails h⟩,
      ⟨storeM_reserved, storeM_passes h, fun _ => storeM_fails h⟩, ⟨storeM_reserved, storeM_passes h, fun _ => storeM_fails h⟩⟩
  case two =>
    exact ⟨fun hm => ⟨if_pos hm, if_pos hm⟩,
      fun hm ha hb => execVld2_passes h hm (firstFault_of_second ha hb),
      fun hm ha hb => execVldst_passes h hm (firstFault_of_second ha hb),
      fun _ hm ha => ⟨execVld2_fails h hm (firstFault_of_first ha), execVldst_fails h hm (firstFault_of_first ha)⟩,
      fun _ hm ha hb => execVld2_fails h hm (firstFault_of_second ha hb),
      fun _ hm ha hb => execVldst_fails h hm (firstFault_of_second ha hb)⟩

end Sys2Proof.Machine

/-! PROOFS. How a transfer of a Basalt core starts. -/

namespace Sys2Proof.Machine

/-! ### The start of a transfer (R206) -/

section
variable {s : State} {o : OpS} {want : Nat}

/-- The descriptor's bytes as a transfer operation reads them, and the module after the read. -/
def State.dmaRead (st : State) (o : OpS) : List Byte × State := st.loadBytes o.core ((st.core o.core).sreg o.sa.toNat).toNat 32

/-- A transfer operation finds its channel idle and its descriptor well formed and fitting. -/
def State.DmaGood (st : State) (o : OpS) : Prop :=
  (st.core o.core).dma.getD (o.imm.toNat % 4) none = none ∧ descriptorForm (st.dmaRead o).1 = true ∧
    st.descriptorFits o.core (descriptorOf (st.dmaRead o).1) = true

/-- The transfer's channel becomes busy with its descriptor. -/
def State.dmaStarted (st : State) (o : OpS) : State :=
  let r := st.dmaRead o
  r.2.setCore o.core { (r.2.core o.core) with dma := (st.core o.core).dma.set (o.imm.toNat % 4) (some (descriptorOf r.1)) }

theorem State.not_dmaGood_iff {st : State} :
    ¬ st.DmaGood o ↔ ((st.core o.core).dma.getD (o.imm.toNat % 4) none).isSome = true ∨ descriptorForm (st.dmaRead o).1 = false ∨
      st.descriptorFits o.core (descriptorOf (st.dmaRead o).1) = false := by
  simp only [State.DmaGood, not_and_or, Bool.not_eq_true, ← Option.isSome_iff_ne_none, ← ne_eq]

theorem startDma_starts (h : s.canIssue o.core) (ha : accessFault (((s.opened o.core).core o.core).sreg o.sa.toNat).toNat 32 false = none)
    (hgood : (s.opened o.core).DmaGood o) (hop : (descriptorOf ((s.opened o.core).dmaRead o).1).op = want) :
    startDma o want s = .next (((s.opened o.core).dmaStarted o).ended o.core o.close) := by
  rw [startDma, State.issue_can h]
  simp only [ha]
  exact congrArg (fun y : State => (.next (y.ended o.core o.close) : Out)) ((if_neg fun hbad => State.not_dmaGood_iff.mpr hbad hgood).trans (if_neg (not_not_intro hop)))

theorem startDma_faults (h : s.canIssue o.core) (ha : accessFault (((s.opened o.core).core o.core).sreg o.sa.toNat).toNat 32 false = none)
    (hbad : ¬ (s.opened o.core).DmaGood o) :
    startDma o want s = .next ((((s.opened o.core).dmaRead o).2.coreFault o.core 4).ended o.core o.close) := by
  rw [startDma, State.issue_can h]
  simp only [ha]
  exact congrArg (fun y : State => (.next (y.ended o.core o.close) : Out)) (if_pos (State.not_dmaGood_iff.mp hbad))

end

/-- Settles O20: the address operations and WAITD are one function of their core; the four transfers are `startDma` of the kind they want. -/
theorem transfersStartOnAnIdleChannel : Obligations.TransfersStartOnAnIdleChannel := by
  refine ⟨fun _ _ h => next_issueCore_can h, fun _ _ _ h => ⟨next_issueCore_can h, next_issueCore_can h, next_issueCore_can h⟩, fun s o h => ?transfers⟩
  case transfers =>
    simp only [exec_brickIn, exec_scratchIn, exec_scratchOut, exec_output]
    exact fun ha => ⟨startDma_starts h ha, startDma_starts h ha, startDma_starts h ha, startDma_starts h ha,
      fun hbad => ⟨startDma_faults h ha hbad, startDma_faults h ha hbad, startDma_faults h ha hbad, startDma_faults h ha hbad⟩⟩

end Sys2Proof.Machine

/-! PROOFS. The engine of Basalt: tile entry, interrupts, counters, transfers done, and cores that fail and are replaced. -/

namespace Sys2Proof.Machine

section
variable {s : State} {t : Tick} {i c ch : Nat}

/-! ### Tile entry (R184, R210) -/

/-- With its last tile closed a kernel enters port A's tile where there is one, else port B's. -/
theorem execBasaltTileEntry_enters {p : Port} {r : BReady} {b : Bank} (hm : (s.at t).mode = .running)
    (hclosed : ∀ y, ((s.at t).inst i).tile = some y → y.closed = true) (hr : (s.at t).tileFor i p = some (r, b))
    (ha : p = .b → (s.at t).tileFor i .a = none) : execBasaltTileEntry t i s = .next ((s.at t).enterTile i p r b) := by
  unfold execBasaltTileEntry
  extract_lets s0 busy
  have hbusy : busy = false := by
    dsimp only [busy]
    split
    · rename_i y hy
      rw [hclosed y hy, Bool.not_true]
    · rfl
  rw [if_neg (not_or.mpr ⟨not_not_intro hm, ne_true_of_eq_false hbusy⟩)]
  cases p with
  | a => simp only [s0, hr]
  | b => simp only [s0, ha rfl, hr]

/-! ### Interrupts and counters (R201, R205) -/

theorem execInterruptEntry_enters (hin : s.coreInside c = true) (hend : (s.core c).tending = false) (hbound : (s.core c).interruptible = true)
    (hdue : (s.core c).interruptDue = true) :
    execInterruptEntry c s =
      let s1 := if (s.core c).frozen then s.thaw c else s
      .next (s1.withCore c ((s1.core c).enterHandler s1.fresh)) := by
  have htest : (s.coreInside c && !(s.core c).tending && (s.core c).interruptible && (s.core c).interruptDue) = true := by
    rw [hin, hend, hbound, hdue]
    rfl
  exact if_pos htest

/-! ### Transfers done (R206 to R209) -/

/-- A transfer has taken place: its channel is idle, its done bit set and, where asked, its interrupt pending. -/
def State.dmaDone (s : State) (c ch : Nat) (d : BDma) : State :=
  let s1 := s.transfer c d
  let y : BCore := { (s1.core c) with dma := (s.core c).dma.set ch none }
  let y1 := y.keSet 0x29 (Nat.lor (y.keAt 0x29) (2 ^ ch))
  s1.setCore c (if d.irq then y1.keSet 3 (Nat.lor (y1.keAt 3) 1) else y1)

/-- A core frozen for its channels issues the bundle it waited at. -/
def State.unfrozen (s : State) (c : Nat) : State :=
  (s.thaw c).withCore c (({ ((s.thaw c).core c) with frozen := false } : BCore).issued (s.thaw c).fresh)

theorem execDmaComplete_busy {d : BDma} (h : (s.core c).dma.getD ch none = some d) :
    execDmaComplete c ch s =
      let s2 := s.dmaDone c ch d
      let z := s2.core c
      if z.frozen then (if Nat.land z.dmaBusy (z.wait.getD 0) = 0 then .next (s2.unfrozen c) else .next s2)
      else if z.tending ∧ z.dmaBusy = 0 then .next ((s2.thaw c).finishTend c)
      else .next s2 := by
  simp only [execDmaComplete, h]
  rfl

/-! ### A deadline passed (R215, R216) -/

theorem execKernelDeadline_late {y : BTile} (hi : ((s.at t).core c).inst = some i) (hy : ((s.at t).inst i).tile = some y) (hopen : y.closed = false)
    (hlate : y.deadline ≤ (s.at t).now) (hin : (s.at t).coreInside c = true) (hend : ((s.at t).core c).tending = false) :
    execKernelDeadline t c s =
      let s1 := ((s.at t).setCore c (((s.at t).core c).keSet 0x35 0)).coreFault c 5
      .next (if s1.noneRuns i then (s1.closeTile i).basaltSettle else s1) := by
  have htest : ((s.at t).coreInside c && !((s.at t).core c).tending) = true := by
    rw [hin, hend]
    rfl
  simp only [execKernelDeadline, hi, hy]
  rw [if_neg (not_or.mpr ⟨ne_true_of_eq_false hopen, Nat.not_lt.mpr hlate⟩), if_pos htest]
  exact (apply_ite Host.Outcome.next _ _ _).symm

/-! ### Hardware faults and spares (R215, R217) -/

/-- A core stopped by a hardware fault leaves service for good. -/
def State.coreRetired (s : State) (c cause : Nat) : State :=
  let s1 := s.coreStop c cause
  let s2 := (s1.setCore c { (s1.core c) with role := 2 }).publishCore c
  { s2 with basalt := { s2.basalt with retired := c :: s2.basalt.retired, outOf := c :: s2.basalt.outOf } }

/-- A hardware fault of a core in service while RUNNING. -/
def State.FaultActs (s : State) (c cause : Nat) : Prop := s.mode = .running ∧ (s.core c).role ≠ 2 ∧ 8 ≤ cause ∧ cause ≤ 10

theorem State.FaultActs.not_ignored {a : State} {cause : Nat} (h : a.FaultActs c cause) :
    ¬ (a.mode ≠ .running ∨ (a.core c).role = 2 ∨ cause < 8 ∨ 10 < cause) := by
  obtain ⟨hm, hrole, hlow, hhigh⟩ := h
  rintro (h | h | h | h)
  · exact h hm
  · exact hrole h
  · exact Nat.not_lt.mpr hlow h
  · exact Nat.not_lt.mpr hhigh h

section
variable {cause : Nat}

theorem execCoreHardwareFault_spare (h : (s.at t).FaultActs c cause) (hrole : ((s.at t).core c).role = 1) :
    execCoreHardwareFault t c cause s = .next ((s.at t).coreRetired c cause) :=
  (if_neg h.not_ignored).trans (if_pos hrole)

theorem execCoreHardwareFault_replaced {sp : Nat} (h : (s.at t).FaultActs c cause) (hrole : ((s.at t).core c).role ≠ 1)
    (hfree : ((s.at t).coreRetired c cause).freeSpare = some sp) :
    execCoreHardwareFault t c cause s = .next (((s.at t).coreRetired c cause).setCore sp
      { (((s.at t).coreRetired c cause).core sp) with takes := some (((s.at t).core c).logical, ((s.at t).core c).inst.getD 15) }) := by
  refine ((if_neg h.not_ignored).trans (if_neg hrole)).trans ?_
  simp only [State.coreRetired] at hfree ⊢
  simp only [hfree]

theorem execCoreHardwareFault_degraded (h : (s.at t).FaultActs c cause) (hrole : ((s.at t).core c).role ≠ 1)
    (hfree : ((s.at t).coreRetired c cause).freeSpare = none) (hi : ((s.at t).core c).inst = some i) :
    let b := (s.at t).coreRetired c cause
    execCoreHardwareFault t c cause s = .next (((b.setInst i { (b.inst i) with lost := ((s.at t).core c).logical :: (b.inst i).lost }).publishInst i).raise
      Ev.kernelDegraded [u i, u ((s.at t).core c).logical]) := by
  refine ((if_neg h.not_ignored).trans (if_neg hrole)).trans ?_
  simp only [State.coreRetired] at hfree ⊢
  simp only [hfree, hi]

end

/-- A spare as it goes into service: the failed core's logical number and share, with the persist region of the last checkpoint. -/
def State.spareLoaded (s : State) (c l i : Nat) : BCore :=
  let saved := ((s.inst i).checkpoints.find? (fun e => e.1 == l)).map (·.2)
  let mem := match saved with
    | some bytes => memWrites (s.initMem i) (cellsFrom (s.instHeader i).persistAddr bytes)
    | none => s.initMem i
  { s.core c with role := 0, logical := l, inst := if i < 8 then some i else none, run := .gated, mem := mem, takes := none, late := true,
                  needInit := saved.isNone, undef := none }

theorem execSpareCoreLoaded_takes {l : Nat} (hm : (s.at t).mode = .running) (hrole : ((s.at t).core c).role = 1)
    (htakes : ((s.at t).core c).takes = some (l, i)) :
    execSpareCoreLoaded t c s =
      .next ((((s.at t).setCore c ((s.at t).spareLoaded c l i)).publishCore c).raise Ev.coreReplaced [u i, u c, u l]) := by
  simp only [execSpareCoreLoaded, htakes]
  rw [if_neg (not_or.mpr ⟨not_not_intro hm, not_not_intro hrole⟩)]
  rfl

end

/-- Settles O22: each event acts where its core or kernel is ready for it, and a transfer done splits on what its core waits for. -/
theorem coresFollowTheirEvents : Obligations.CoresFollowTheirEvents := by
  refine ⟨fun s t i p r b => execBasaltTileEntry_enters, fun s c => execInterruptEntry_enters, fun s c hin htimer => if_pos ⟨hin, htimer⟩,
    fun s c hin hwarn => if_pos ⟨hin, hwarn⟩, fun s c ch d hd => ?transfer⟩
  case transfer =>
    intro s1 y y1 s2 z
    have hdone := execDmaComplete_busy hd
    refine ⟨fun hfrozen hgoes => ?goes, fun hfrozen hbusy => ?waits, fun hfrozen hidle => ?unfreezes, fun hfrozen htend hidle => ?ends⟩
    case goes =>
      have hends : ¬ (z.tending = true ∧ z.dmaBusy = 0) := fun ⟨htend, hidle⟩ => hgoes.elim (fun h => Bool.false_ne_true (h.symm.trans htend)) (absurd hidle)
      exact hdone.trans ((if_neg (ne_true_of_eq_false hfrozen)).trans (if_neg hends))
    case waits => exact hdone.trans ((if_pos hfrozen).trans (if_neg hbusy))
    case unfreezes => exact hdone.trans ((if_pos hfrozen).trans (if_pos hidle))
    case ends => exact hdone.trans ((if_neg (ne_true_of_eq_false hfrozen)).trans (if_pos ⟨htend, hidle⟩))

/-- Settles O23: a deadline passed stops its core; a hardware fault retires it and looks for a spare; a loaded spare takes its place. -/
theorem coresFailAndAreReplaced : Obligations.CoresFailAndAreReplaced := by
  refine ⟨fun s t c i y => execKernelDeadline_late, fun s t c cause hm hrole hlow hhigh => ?fault, fun s t c l i hm hrole htakes => ?spare⟩
  case fault =>
    have hacts : (s.at t).FaultActs c cause := ⟨hm, hrole, hlow, hhigh⟩
    exact ⟨execCoreHardwareFault_spare hacts, fun _ => execCoreHardwareFault_replaced hacts, fun _ hactive hnone => execCoreHardwareFault_degraded hacts hactive hnone⟩
  case spare => exact ⟨(s.at t).spareLoaded c l i, rfl, rfl, rfl, rfl, rfl, execSpareCoreLoaded_takes hm hrole htakes⟩

end Sys2Proof.Machine

/-! PROOFS. Requests that read, and requests for kernel images and captures: what an admitted one is answered. -/

namespace Sys2Proof.Machine

section
variable {s : State} {h : Hdr} {code : Nat} {body : List Byte} {run : State → State × Answer} {answer : Answer}

/-! ### Requests that change nothing (R310, R311, R335) -/

/-- An admitted request whose execution leaves the module as it came in answers what it reads, or the error it meets. -/
theorem request_reads (hrun : run (s.comeIn h) = (s.comeIn h, answer)) (hadm : s.admits code h body) :
    (∀ b more, answer = .ok b more → request code h body run s = .next ((s.comeIn h).answered code h b more)) ∧
    (∀ r i p q, answer = .err r i p q → r ≠ E.busy → request code h body run s = .next ((s.comeIn h).failed code h r i p q)) :=
  ⟨fun _ _ hok => request_ok hadm (hok ▸ hrun), fun _ _ _ _ herr hbusy => request_err hadm (herr ▸ hrun) hbusy⟩

end

/-- Settles O24: none of these requests changes anything by its execution. -/
theorem readsAnswerAndChangeNothing : Obligations.ReadsAnswerAndChangeNothing := fun _ _ =>
  ⟨fun _ => request_reads rfl, request_reads rfl, request_reads rfl, request_reads rfl, fun _ _ => request_reads rfl, fun _ => request_reads rfl,
    fun _ _ => request_reads rfl, fun _ _ _ => request_reads rfl, fun _ _ => request_reads rfl, fun _ => request_reads rfl⟩

section
variable {s : State} {h : Hdr}

/-! ### Link results (R407) -/

theorem execLinkResult_bound {link : Nat} {x : LinkTest} (hadm : s.admits 0x00A4 h (le 1 link)) (hlink : link < 10) (hx : (s.comeIn h).linkTest link = some x)
    (hended : x.until_ = none) (hbits : x.bits ≠ 0) :
    execLinkResult h link s =
      .next ((s.comeIn h).answered 0x00A4 h (le 8 x.bits ++ le 8 x.errors ++ le 4 (f32Round (mkRat 3 x.bits))) false) := by
  refine request_ok hadm ?_
  simp only [if_neg (Nat.not_le.mpr hlink), hx, hended, Option.isSome_none, Bool.false_eq_true, if_false, if_neg hbits]

theorem execLinkResult_no_bits {link : Nat} {x : LinkTest} (hadm : s.admits 0x00A4 h (le 1 link)) (hlink : link < 10) (hx : (s.comeIn h).linkTest link = some x)
    (hended : x.until_ = none) (hbits : x.bits = 0) :
    execLinkResult h link s =
      .next ((s.comeIn h).drawn.answered 0x00A4 h (le 8 0 ++ le 8 x.errors ++ le 4 ((s.comeIn h).freeVal 32)) false) := by
  refine request_ok hadm ?_
  simp only [if_neg (Nat.not_le.mpr hlink), hx, hended, Option.isSome_none, Bool.false_eq_true, if_false, if_pos hbits]

end

/-- Settles O25: but for ENS_MEMBERS and a LINK_RESULT over no bits, which draw, these requests change nothing by their execution. -/
theorem statusReadsAnswer : Obligations.StatusReadsAnswer := by
  intro s h a reads
  refine ⟨fun _ _ _ => request_reads rfl, request_reads rfl, fun cursor b more hadm hpage => ?members, fun start limit => ?log, request_reads rfl,
    fun link x => execLinkResult_bound, fun link x => execLinkResult_no_bits, fun start limit => ?telemetry, request_reads rfl⟩
  case members => exact request_ok hadm (congrArg (Prod.mk _) hpage)
  case log => exact request_reads (apply_ite (Prod.mk a) _ _ _).symm
  case telemetry => exact request_reads (apply_ite (Prod.mk a) _ _ _).symm

section
variable {a : State} {client : BitVec 64} {k flags offset imageBytes : Nat} {data : List Byte}

/-! ### Kernel images (R213, R214) -/

/-- A kernel slot that is not named by an enabled kernel, not in use and not waiting for release. -/
def State.SlotFree (a : State) (k : Nat) : Prop := k < 8 ∧ a.slotTaken k = false ∧ ((a.slot k).releasing || a.slotInUse k) = false

/-- The first chunk of a free slot's load. -/
theorem State.kernelLoad_first (hfree : a.SlotFree k) (hbytes : imageBytes ≤ 1048576) :
    a.kernelLoad client k flags 0 imageBytes data = a.loadChunk client k flags imageBytes [] data := by
  obtain ⟨hk, htaken, hused⟩ := hfree
  rw [State.kernelLoad, if_neg (Nat.not_le.mpr hk), if_neg (ne_true_of_eq_false htaken), if_neg (ne_true_of_eq_false hused), if_neg (Nat.not_lt.mpr hbytes), if_pos rfl]

/-- A further chunk, of the client and the length of the first and where the bytes so far end. -/
theorem State.kernelLoad_next {persistent : Bool} {got : List Byte} (hfree : a.SlotFree k) (hbytes : imageBytes ≤ 1048576) (hoffset : offset ≠ 0)
    (hload : (a.slot k).loading = some (client, imageBytes, persistent, got)) (hgot : offset = got.length) :
    a.kernelLoad client k flags offset imageBytes data = a.loadChunk client k flags imageBytes got data := by
  obtain ⟨hk, htaken, hused⟩ := hfree
  rw [State.kernelLoad, if_neg (Nat.not_le.mpr hk), if_neg (ne_true_of_eq_false htaken), if_neg (ne_true_of_eq_false hused), if_neg (Nat.not_lt.mpr hbytes),
    if_neg hoffset]
  simp only [hload]
  rw [if_neg (not_not_intro rfl), if_neg (not_not_intro hgot), if_neg (not_not_intro rfl)]

theorem State.loadChunk_more {got : List Byte} (hlen : (got ++ data).length ≤ imageBytes) (hfits : (bitOf flags 0 && !(a.persistFits k imageBytes)) = false)
    (hlast : bitOf flags 1 = false) :
    a.loadChunk client k flags imageBytes got data =
      (a.putImage k [] (some (client, imageBytes, bitOf flags 0, got ++ data)), .ok (le 4 (got ++ data).length) false) := by
  rw [State.loadChunk]
  exact (if_neg (Nat.not_lt.mpr hlen)).trans ((if_neg (ne_true_of_eq_false hfits)).trans (if_pos hlast))

theorem State.loadChunk_last {got : List Byte} (hlen : (got ++ data).length = imageBytes) (hvolatile : bitOf flags 0 = false) (hlast : bitOf flags 1 = true)
    (hok : imageOk (got ++ data) = true) :
    a.loadChunk client k flags imageBytes got data =
      (a.putImage k (got ++ data) none, .ok (le 4 (got ++ data).length ++ le 4 (imageCheck (got ++ data))) false) := by
  simp only [State.loadChunk, hlen, hvolatile, hlast, hok, lt_irrefl, Bool.false_and, Bool.false_eq_true, Bool.true_eq_false, and_self, if_false, if_true]

theorem State.kernelUnload_free (hfree : a.SlotFree k) :
    a.kernelUnload k =
      (({ a with basalt := { a.basalt with stored := a.basalt.stored.filter (fun e => e.1 != k) } } : State).putImage k [] none, Answer.done) := by
  obtain ⟨hk, htaken, hused⟩ := hfree
  rw [State.kernelUnload, if_neg (Nat.not_le.mpr hk), if_neg (ne_true_of_eq_false htaken), if_neg (ne_true_of_eq_false hused)]

/-! ### Captures (R238 to R243) -/

theorem State.captureAt_opened {trigger : TS96} {profile n : Nat} {t : State} (hts : tsOk (TS96bits trigger) = true) (hp : profile ≤ 7)
    (hfill : a.prefillShort profile (stampOfBits (TS96bits trigger)) = false)
    (hopen : a.openCapture profile (stampOfBits (TS96bits trigger)) 0 true none 0 = (t, some n)) :
    a.captureAt trigger profile = (t, .ok (le 4 n) false) := by
  have hfor : a.captureFor (stampOfBits (TS96bits trigger)) profile = (t, .inr n) := by
    rw [State.captureFor, if_neg (ne_true_of_eq_false hfill)]
    simp only [hopen]
  rw [State.captureAt, if_neg (not_or.mpr ⟨by rw [hts]; nofun, Nat.not_lt.mpr hp⟩)]
  simp only [hfor]

theorem State.captureSend_usable {n sid : Nat} {c : Capture} (hc : a.usable? n = .inr c) (hsid : sid ≤ 15) (hstream : a.captureStream sid = true) :
    a.captureSend n sid = (a.sendCapture n sid, Answer.done) := by
  simp only [State.captureSend, hc]
  rw [if_neg (Nat.not_lt.mpr hsid), if_neg (by rw [hstream]; nofun)]

theorem State.captureDerive_usable {r : DeriveReq} {c : Capture} (hc : a.usable? r.capture = .inr c) (hfits : deriveFits r c = true)
    (hstream : a.captureStream r.stream = true) (hroom : a.trig.derives.length < 9) :
    a.captureDerive r =
      (({ a with trig := { a.trig with derives := a.trig.derives ++ [r] } } : State).modCapture r.capture (fun x => { x with derives := x.derives + 1 }),
        .ok (le 1 a.trig.derives.length) false) := by
  simp only [State.captureDerive, hc]
  rw [if_neg (by rw [hfits]; nofun), if_neg (by rw [hstream]; nofun), if_neg (Nat.not_le.mpr hroom)]

theorem State.captureRelease_found {n : Nat} {c : Capture} (hc : a.capture n = some c) :
    a.captureRelease n = (a.releaseCapture n, .ok (le 1 (if c.uses = 0 then 0 else 1)) false) := by
  simp only [State.captureRelease, hc]

end

/-- Settles O27: each admitted request comes to the answer its own operation gives. -/
theorem loadsAndCapturesTakeEffect : Obligations.LoadsAndCapturesTakeEffect := by
  refine fun s h => ⟨?first, ?last, ?unload, ?at_, ?send, ?derive, ?release⟩
  case first =>
    exact fun k flags imageBytes data hadm hfree hbytes hlen hfits hlast =>
      request_ok hadm ((State.kernelLoad_first hfree hbytes).trans (State.loadChunk_more hlen hfits hlast))
  case last =>
    exact fun k flags offset imageBytes persistent got data hadm hfree hbytes hoffset hload hgot hlen hvolatile hlast hok =>
      request_ok hadm ((State.kernelLoad_next hfree hbytes hoffset hload hgot).trans (State.loadChunk_last hlen hvolatile hlast hok))
  case unload => exact fun k hadm hfree => request_ok hadm (State.kernelUnload_free hfree)
  case at_ =>
    exact fun trigger profile t n hpair hadm hts hp hfill hopen => (if_neg hpair).trans (request_ok hadm (State.captureAt_opened hts hp hfill hopen))
  case send => exact fun n sid c hadm hc hsid hstream => request_ok hadm (State.captureSend_usable hc hsid hstream)
  case derive => exact fun r c hadm hc hfits hstream hroom => request_ok hadm (State.captureDerive_usable hc hfits hstream hroom)
  case release => exact fun n c hadm hc => request_ok hadm (State.captureRelease_found hc)

end Sys2Proof.Machine

/-! PROOFS. Triggers and captures: what each of these commands makes of a condition, a pulse, a group of firings or a capture, and that it does nothing otherwise. -/

namespace Sys2Proof.Machine

section
variable {s : State} {t : Tick} {cond which j n : Nat} {c : Capture}

/-! ### Conditions (R224, R227) -/

theorem execTriggerEvaluation_strain (hrun : (s.at t).mode = .running) (hsource : (s.at t).pG (K.trigCondSource cond) = 0) :
    execTriggerEvaluation t cond which s = .next ((s.at t).evalStrain cond which) := by
  simp only [execTriggerEvaluation, hrun, hsource, ne_eq, not_true_eq_false, if_false]

theorem execTriggerEvaluation_kernel (hrun : (s.at t).mode = .running) (hsource : (s.at t).pG (K.trigCondSource cond) = 1) :
    execTriggerEvaluation t cond which s = .next ((s.at t).evalKernel cond which) := by
  simp only [execTriggerEvaluation, hrun, hsource, ne_eq, not_true_eq_false, if_false]

theorem execTriggerEvaluation_dts (hrun : (s.at t).mode = .running) (hsource : (s.at t).pG (K.trigCondSource cond) = 2) :
    execTriggerEvaluation t cond which s = .next ((s.at t).evalDts cond) := by
  simp only [execTriggerEvaluation, hrun, hsource, ne_eq, not_true_eq_false, if_false]

theorem execTriggerEvaluation_event (hrun : (s.at t).mode = .running) (hsource : (s.at t).pG (K.trigCondSource cond) = 3) :
    execTriggerEvaluation t cond which s = .next ((s.at t).evalEvent cond which) := by
  simp only [execTriggerEvaluation, hrun, hsource, ne_eq, not_true_eq_false, if_false]

theorem execTriggerEvaluation_not_running (hmode : (s.at t).mode ≠ .running) : execTriggerEvaluation t cond which s = .next (s.at t) :=
  if_pos hmode

/-- A TIME condition may fire: it is enabled and the module is in RUNNING. -/
def State.TimeCondOn (s : State) (cond : Nat) : Prop :=
  s.mode = .running ∧ s.pG (K.trigCondEnable cond) ≠ 0 ∧ s.pG (K.trigCondSource cond) = 4

theorem State.not_timeCondOn_iff {a : State} :
    ¬ a.TimeCondOn cond ↔ a.mode ≠ .running ∨ a.pG (K.trigCondEnable cond) = 0 ∨ a.pG (K.trigCondSource cond) ≠ 4 := by
  simp only [State.TimeCondOn, not_and_or, ne_eq, not_not]

/-- A TIME condition has fired at its instant; the next one is looked for after it (R227, R229). -/
def State.firedAtInstant (s : State) (cond : Nat) (x : Stamp) : State :=
  (s.setCond cond { s.cond cond with since := x + 1 }).fire (s.condSet none x) cond (x + condOffset (s.condSet none x) cond)

theorem execTimeConditionInstant_due {x : Stamp} (hon : (s.at t).TimeCondOn cond)
    (hx : nextInstant (stampOfBits ((s.at t).pG (K.trigCondTime cond))) ((s.at t).cond cond).since ((s.at t).pG (K.trigCondPeriodMs cond)) = some x)
    (hdue : x ≤ (s.at t).stamp) :
    execTimeConditionInstant t cond s = .next ((s.at t).firedAtInstant cond x) := by
  rw [execTimeConditionInstant, if_neg (State.not_timeCondOn_iff.not.mp (not_not.mpr hon))]
  simp only [hx, if_neg (Int.not_lt.mpr hdue), State.firedAtInstant]

theorem execTimeConditionInstant_off (hoff : ¬ (s.at t).TimeCondOn cond) : execTimeConditionInstant t cond s = .next (s.at t) :=
  if_pos (State.not_timeCondOn_iff.mp hoff)

/-! ### Output pulses (R232) -/

theorem execEvtOutPulseEnd_running {e : Tick} (he : (s.at t).trig.pulses.getD j none = some e) :
    execEvtOutPulseEnd t j s =
      if e ≤ (s.at t).now then
        .next (({ s.at t with trig := { (s.at t).trig with pulses := (s.at t).trig.pulses.set j none } } : State).emit (.evtOut j false))
      else .next (s.at t) := by
  simp only [execEvtOutPulseEnd, he]

/-! ### Filling a capture (R234, R235) -/

theorem execCaptureRecordCopy_open {r : StrataRec} (hc : (s.at t).capture n = some c) (hopen : c.complete = false)
    (hr : (s.at t).nextRecord c = some r) :
    execCaptureRecordCopy t n s = .next ((s.at t).modCapture n (fun x => x.copy r)) := by
  simp only [execCaptureRecordCopy, hc, hopen, hr, Bool.false_eq_true, if_false]

theorem execCaptureRecordCopy_complete (hc : (s.at t).capture n = some c) (hcomplete : c.complete = true) :
    execCaptureRecordCopy t n s = .next (s.at t) := by
  simp only [execCaptureRecordCopy, hc, hcomplete, if_true]

/-- An open capture completes when its window is over, and no other does. -/
theorem execCaptureComplete_found (hc : (s.at t).capture n = some c) :
    execCaptureComplete t n s =
      if c.complete = false ∧ (s.at t).windowDone c = true then .next ((s.at t).completeCapture n) else .next (s.at t) := by
  simp only [execCaptureComplete, hc, Bool.and_eq_true, Bool.not_eq_true']

/-! ### Retention (R238) -/

/-- A complete capture has been kept for capture.retain_s, where that is not 0. -/
def State.RetainedLongEnough (s : State) (c : Capture) : Prop :=
  c.complete = true ∧ s.pG K.captureRetainS ≠ 0 ∧ c.completedAt + s.pG K.captureRetainS * secondTicks ≤ s.now

theorem execCaptureRetainExpiry_over (hc : (s.at t).capture n = some c) (hover : (s.at t).RetainedLongEnough c) :
    execCaptureRetainExpiry t n s = .next ((s.at t).releaseCapture n) := by
  simp only [execCaptureRetainExpiry, hc]
  exact if_pos hover

theorem execCaptureRetainExpiry_not_over (hc : (s.at t).capture n = some c) (hnot : ¬ (s.at t).RetainedLongEnough c) :
    execCaptureRetainExpiry t n s = .next (s.at t) := by
  simp only [execCaptureRetainExpiry, hc]
  exact if_neg hnot

/-! ### Sendings and derivations (R242, R243) -/

theorem execCaptureSendComplete_sent {sid : Nat} (hc : (s.at t).capture n = some c)
    (hsid : c.sends.find? (fun x => !(((s.at t).stream x).queue.any (fun y => y.kind == 5 && y.format == 0x14 && y.block == n))) = some sid) :
    execCaptureSendComplete t n s = .next (((s.at t).modCapture n (fun x => { x with sends := x.sends.erase sid })).useEnded n) := by
  simp only [execCaptureSendComplete, hc, hsid]

/-- The running derivation has ended: its tiles are queued, the next one runs, and its capture has one use less (R241, R242). -/
def State.derivationEnded (s : State) (r : DeriveReq) (rest : List DeriveReq) : State :=
  let b := s.enqueue r.stream 5 (s.deriveTiles r)
  (({ b with trig := { b.trig with derives := rest } } : State).modCapture r.capture (fun x => { x with derives := x.derives - 1 })).useEnded r.capture

theorem execCaptureDeriveComplete_first {r : DeriveReq} {rest : List DeriveReq} (h : (s.at t).trig.derives = r :: rest) :
    execCaptureDeriveComplete t s = .next ((s.at t).derivationEnded r rest) := by
  simp only [execCaptureDeriveComplete, h, State.derivationEnded]

end

/-- Settles O50, clause by clause from what each command does in its mode and at its time; the clauses of one capture split on whether it is complete. -/
theorem triggersFireAndCapturesFill : Obligations.TriggersFireAndCapturesFill := by
  refine fun s t => ⟨?judged, ?notJudged, ?instant, ?noInstant, ?pulseOver, ?pulseOn, ?group, ?filling, ?filled, ?sent, ?derived⟩
  case judged =>
    exact fun _ _ hrun => ⟨execTriggerEvaluation_strain hrun, execTriggerEvaluation_kernel hrun, execTriggerEvaluation_dts hrun, execTriggerEvaluation_event hrun⟩
  case notJudged => exact fun _ _ => execTriggerEvaluation_not_running
  case instant => exact fun _ _ hrun henable hsource => execTimeConditionInstant_due ⟨hrun, henable, hsource⟩
  case noInstant => exact fun _ hoff => execTimeConditionInstant_off (State.not_timeCondOn_iff.mpr hoff)
  case pulseOver => exact fun _ _ he hover => (execEvtOutPulseEnd_running he).trans (if_pos hover)
  case pulseOn => exact fun _ _ he hearly => (execEvtOutPulseEnd_running he).trans (if_neg (Nat.not_le.mpr hearly))
  case group => exact rfl
  case filling =>
    refine fun n c hc hopen => ⟨fun r => execCaptureRecordCopy_open hc hopen, fun hdone => ?_, fun hdone => ?_, ?_⟩
    · exact (execCaptureComplete_found hc).trans (if_pos ⟨hopen, hdone⟩)
    · exact (execCaptureComplete_found hc).trans (if_neg fun h => ne_true_of_eq_false hdone h.2)
    · exact execCaptureRetainExpiry_not_over hc fun h => ne_true_of_eq_false hopen h.1
  case filled =>
    refine fun n c hc hcomplete => ⟨execCaptureRecordCopy_complete hc hcomplete, ?_, fun hretain hover => ?_, fun hnot => ?_⟩
    · exact (execCaptureComplete_found hc).trans (if_neg fun h => ne_true_of_eq_false h.1 hcomplete)
    · exact execCaptureRetainExpiry_over hc ⟨hcomplete, hretain, hover⟩
    · exact execCaptureRetainExpiry_not_over hc fun ⟨_, hretain, hover⟩ => hnot.elim hretain (Nat.not_lt.mpr hover)
  case sent => exact fun _ _ _ => execCaptureSendComplete_sent
  case derived => exact fun _ _ => execCaptureDeriveComplete_first

end Sys2Proof.Machine

/-! PROOFS. The memory subsystem: what the scheduler does at a burst boundary, and what refresh, row closing, meters, scrub, migration, tracking and the spare test do when due. -/

namespace Sys2Proof.Machine

section
variable {s : State} {t : Tick} {clock : Nat}

/-! ### The domain of the DRAM (R24) -/

/-- While the DRAM domain runs, a command of the controller acts. -/
theorem State.acts_of_dram {x y : Out} (hon : s.power.clocks.dram = true) : (if s.power.clocks.dram = false then x else y) = y :=
  if_neg (ne_false_of_eq_true hon)

/-! ### Burst boundaries (R255, R258, R259) -/

/-- The memory at a burst boundary: the arrivals are queued and every request has aged (R253). -/
def State.atBoundary (s : State) (clock : Nat) (arrivals : List DramReq) : State :=
  (List.range 7).foldl (fun st p => st.ageRequests p clock) (arrivals.foldl State.arrive (s.at (clockTick clock)).memSecond)

/-- No run is in progress any more. -/
def State.runEnded (s : State) : State := s.withMem { s.mem with run := none }

/-- Each rank in turn may take a refresh whose bank nobody wants. -/
def State.easyRefreshes (s : State) (clock : Nat) : State := (List.range 5).foldl (fun st r => st.easyRefresh r clock) s

/-- The port whose run goes on at a boundary: its next request can go, and fits in its cap (R252, R255). -/
def State.runGoesOn (s : State) (clock : Nat) : Option Nat :=
  match s.mem.run with
  | some r => (match s.candidate clock r.port with
    | some q => if r.bytes + q.req.bytes ≤ runCap r.port then some r.port else none
    | none => none)
  | none => none

theorem State.runGoesOn_within_cap {r : MemRun} {q : MemReq} (hrun : s.mem.run = some r) (hq : s.candidate clock r.port = some q)
    (hcap : r.bytes + q.req.bytes ≤ runCap r.port) : s.runGoesOn clock = some r.port := by
  simp only [State.runGoesOn, hrun, hq, if_pos hcap]

theorem State.runGoesOn_no_run (hrun : s.mem.run = none) : s.runGoesOn clock = none := by
  simp only [State.runGoesOn, hrun]

theorem State.runGoesOn_beyond_cap {r : MemRun} (hrun : s.mem.run = some r)
    (hover : ∀ q, s.candidate clock r.port = some q → runCap r.port < r.bytes + q.req.bytes) : s.runGoesOn clock = none := by
  simp only [State.runGoesOn, hrun]
  cases hq : s.candidate clock r.port with
  | none => rfl
  | some q => exact if_neg (Nat.not_le.mpr (hover q hq))

section
variable {arrivals : List DramReq} {ecc : EccObs} {p k : Nat}

theorem execDramBurstBoundary_run_goes_on (hon : s.power.clocks.dram = true) (hgoes : (s.atBoundary clock arrivals).runGoesOn clock = some p) :
    execDramBurstBoundary clock arrivals ecc s = .next ((s.atBoundary clock arrivals).serve p clock ecc) := by
  refine (State.acts_of_dram hon).trans ?_
  extract_lets s0 s1 s2 goesOn
  have hgoesOn : goesOn = some p := hgoes
  simp only [hgoesOn]
  rfl

/-- A boundary at which no run goes on: a refresh that must not wait goes first; else easy refreshes are issued and the request chosen next is served. -/
def State.busFree (s : State) (clock : Nat) (ecc : EccObs) : State :=
  match s.forcedDue clock with
  | some k => s.forceRefresh k clock
  | none =>
    match (s.easyRefreshes clock).choose clock with
    | some p => (s.easyRefreshes clock).serve p clock ecc
    | none => s.easyRefreshes clock

theorem State.busFree_forced (hforced : s.forcedDue clock = some k) : s.busFree clock ecc = s.forceRefresh k clock := by
  simp only [State.busFree, hforced]

theorem State.busFree_serves (hforced : s.forcedDue clock = none) (hchoose : (s.easyRefreshes clock).choose clock = some p) :
    s.busFree clock ecc = (s.easyRefreshes clock).serve p clock ecc := by
  simp only [State.busFree, hforced, hchoose]

theorem State.busFree_idles (hforced : s.forcedDue clock = none) (hchoose : (s.easyRefreshes clock).choose clock = none) :
    s.busFree clock ecc = s.easyRefreshes clock := by
  simp only [State.busFree, hforced, hchoose]

theorem execDramBurstBoundary_bus_free (hon : s.power.clocks.dram = true) (hstops : (s.atBoundary clock arrivals).runGoesOn clock = none) :
    execDramBurstBoundary clock arrivals ecc s = .next ((s.atBoundary clock arrivals).runEnded.busFree clock ecc) := by
  refine (State.acts_of_dram hon).trans ?_
  extract_lets s0 s1 s2 goesOn _ s3 s4
  have hgoesOn : goesOn = none := hstops
  change _ = Host.Outcome.next (s3.busFree clock ecc)
  simp only [hgoesOn]
  cases hforced : s3.forcedDue clock with
  | some k => rw [State.busFree_forced hforced]
  | none =>
    cases hchoose : s4.choose clock with
    | some p => rw [State.busFree_serves hforced hchoose]; rfl
    | none => rw [State.busFree_idles hforced hchoose]; rfl

end

/-! ### Rows (R256) -/

/-- A queued request goes to the open row of a bank. -/
def State.rowWanted (s : State) (rank bank : Nat) : Bool :=
  s.mem.ports.any (fun p => p.fifo.any (fun q => (placeOf q.req.address).bank == bank &&
    ((s.rank rank).bank bank).row == some (placeOf q.req.address).row && (s.servers q.req.address q.req.write).contains rank))

theorem State.rowWanted_iff {rank bank : Nat} : s.rowWanted rank bank = true ↔ ∃ p ∈ s.mem.ports, ∃ q ∈ p.fifo,
    (placeOf q.req.address).bank = bank ∧ ((s.rank rank).bank bank).row = some (placeOf q.req.address).row ∧ rank ∈ s.servers q.req.address q.req.write := by
  simp only [State.rowWanted, List.any_eq_true, Bool.and_eq_true, beq_iff_eq, List.contains_iff_mem, and_assoc]

/-! ### Migration (R266, R267) -/

section
variable {g h : Migration}

/-- The spare is verified and the copy has begun. -/
def State.copyBegun (s : State) (g : Migration) : State := s.withMem { s.mem with migration := some { g with verified := true, since := some s.now } }

theorem execMigrationSpareVerified_copies {ok full : Bool} (hon : s.power.clocks.dram = true) (hg : (s.at t).mem.migration = some g)
    (hnew : g.verified = false) (hh : ((s.at t).trainRank g.new full ok).mem.migration = some h) :
    execMigrationSpareVerified t ok full s = .next (((s.at t).trainRank g.new full ok).copyBegun h) := by
  refine (State.acts_of_dram hon).trans ?_
  simp only [hg, hnew, hh, Bool.false_eq_true, if_false]
  rfl

/-- Training has abandoned the migration (R271). -/
theorem execMigrationSpareVerified_abandoned {ok full : Bool} (hon : s.power.clocks.dram = true) (hg : (s.at t).mem.migration = some g)
    (hnew : g.verified = false) (hnone : ((s.at t).trainRank g.new full ok).mem.migration = none) :
    execMigrationSpareVerified t ok full s = .next ((s.at t).trainRank g.new full ok) := by
  refine (State.acts_of_dram hon).trans ?_
  simp only [hg, hnew, hnone, Bool.false_eq_true, if_false]

/-- The table names the new rank, and the old one is retired. -/
def State.migrated (s : State) (g : Migration) : State :=
  let b := s.withMem { s.mem with table := s.mem.table.set g.logical g.new, migration := none, retired := g.old :: s.mem.retired }
  ((b.setRank g.old { b.rank g.old with selfRefresh := true }).publishRanks).raise Ev.memMigrationDone [u g.old, u g.new, u g.logical]

theorem execMigrationComplete_of_migration (hon : s.power.clocks.dram = true) (hg : (s.at t).mem.migration = some g) :
    execMigrationComplete t s =
      if g.verified = true ∧ g.elapsed (s.at t).now = copyTicks ∧ clockTick ((s.at t).rank g.old).burstEnd ≤ (s.at t).now then .next ((s.at t).migrated g)
      else .next (s.at t) := by
  refine (State.acts_of_dram hon).trans ?_
  simp only [hg]
  rfl

end

/-! ### The spare's test (R263) -/

section
variable {r : Nat}

theorem execSpareRankTest_of_spare (hon : s.power.clocks.dram = true) (hr : (s.at t).spareRank = some r) :
    execSpareRankTest t s =
      let a := s.at t
      if a.mode.working = true ∧ a.mem.spareTest = none ∧ a.mem.spareLast + 86400 * secondTicks ≤ a.now then
        .next ((a.withMem { a.mem with spareTest := some a.now, spareLast := a.now }).setRank r { a.rank r with selfRefresh := false })
      else .next a := by
  refine (State.acts_of_dram hon).trans ?_
  simp only [hr]

/-- The spare has been tested and is back in self-refresh. -/
def State.spareTested (s : State) (r : Nat) : State :=
  ((s.withMem { s.mem with spareTest := none }).setRank r { s.rank r with selfRefresh := true }).bgDone 1

variable {since : Tick} (hon : s.power.clocks.dram = true) (hr : (s.at t).spareRank = some r) (htest : (s.at t).mem.spareTest = some since)
include hon hr htest

theorem execSpareRankTestEnd_sound (hover : since + spareTestTicks ≤ (s.at t).now) :
    execSpareRankTestEnd t none s = .next ((s.at t).spareTested r) := by
  refine (State.acts_of_dram hon).trans ?_
  simp only [hr, htest]
  exact if_pos hover

theorem execSpareRankTestEnd_faulty {d : Nat} (hover : since + spareTestTicks ≤ (s.at t).now) :
    execSpareRankTestEnd t (some d) s = .next (((s.at t).spareTested r).deviceFaulty r d) := by
  refine (State.acts_of_dram hon).trans ?_
  simp only [hr, htest]
  exact if_pos hover

theorem execSpareRankTestEnd_early {failing : Option Nat} (hearly : (s.at t).now < since + spareTestTicks) :
    execSpareRankTestEnd t failing s = .next (s.at t) := by
  refine (State.acts_of_dram hon).trans ?_
  simp only [hr, htest]
  exact if_neg (Nat.not_le.mpr hearly)

end

end

/-- Settles O51, command by command; a burst boundary splits on whether the run goes on, then on the forced refresh, then on the choice. -/
theorem theMemoryServesItsPorts : Obligations.TheMemoryServesItsPorts := by
  refine fun s clock => ⟨fun hon => ⟨?boundary, ?interval, ?noInterval, ?rate, ?row, ?window, ?noWindow, ?age, ?noAge⟩, fun hoff => ?stopped⟩
  case boundary =>
    refine fun arrivals ecc => ⟨fun r q hrun hq hcap => ?goesOn, fun hends => ?ends⟩
    case goesOn => exact execDramBurstBoundary_run_goes_on hon (State.runGoesOn_within_cap hrun hq hcap)
    case ends =>
      have hstops : (s.atBoundary clock arrivals).runGoesOn clock = none := by
        obtain hrun | ⟨r, hrun, hover⟩ := hends
        · exact State.runGoesOn_no_run hrun
        · exact State.runGoesOn_beyond_cap hrun hover
      have hfree := execDramBurstBoundary_bus_free (ecc := ecc) hon hstops
      refine ⟨fun k hforced => ?forced, fun p hforced hchoose => ?serves, fun hforced hchoose => ?idles⟩
      case forced => exact hfree.trans (congrArg _ (State.busFree_forced hforced))
      case serves => exact hfree.trans (congrArg _ (State.busFree_serves hforced hchoose))
      case idles => exact hfree.trans (congrArg _ (State.busFree_idles hforced hchoose))
  case interval => exact fun rank hrank => (State.acts_of_dram hon).trans (if_pos hrank)
  case noInterval => exact fun rank hrank => (State.acts_of_dram hon).trans (if_neg (ne_true_of_eq_false hrank))
  case rate => exact fun rank t doubled => (State.acts_of_dram hon).trans (apply_ite Host.Outcome.next _ _ _).symm
  case row =>
    refine fun rank bank => ⟨fun hopen hidle hfree => ?closes, fun hstays => ?stays⟩
    case closes =>
      have hunwanted : (s.at (clockTick clock)).rowWanted rank bank = false :=
        Bool.eq_false_iff.mpr (mt State.rowWanted_iff.mp fun ⟨p, hp, q, hq, hwanted⟩ => hfree p hp q hq hwanted)
      exact (State.acts_of_dram hon).trans (if_pos ⟨hopen, hunwanted, hidle⟩)
    case stays =>
      refine (State.acts_of_dram hon).trans (if_neg fun ⟨hopen, hunwanted, hidle⟩ => ?_)
      obtain hclosed | hearly | hwanted := hstays
      · exact Option.isSome_iff_ne_none.mp hopen hclosed
      · exact Nat.not_le.mpr hearly hidle
      · exact ne_true_of_eq_false hunwanted (State.rowWanted_iff.mpr hwanted)
  case window => exact fun t hover => (State.acts_of_dram hon).trans (if_pos hover)
  case noWindow => exact fun t hearly => (State.acts_of_dram hon).trans (if_neg (Nat.not_le.mpr hearly))
  case age => exact fun port hport => (State.acts_of_dram hon).trans (if_neg hport)
  case noAge => exact (State.acts_of_dram hon).trans (if_pos rfl)
  case stopped =>
    exact ⟨fun _ _ => if_pos hoff, fun _ => if_pos hoff, fun _ _ _ => if_pos hoff, fun _ _ => if_pos hoff, fun _ => if_pos hoff, fun _ => if_pos hoff⟩

/-- Settles O52, command by command: each acts where its condition holds, and changes nothing but the time otherwise. -/
theorem theMemoryCaresForItself : Obligations.TheMemoryCaresForItself := by
  refine fun s t => ⟨fun (hon : s.power.clocks.dram = true) => ⟨?patrol, ?noPatrol, ?writeBack, ?noWriteBack, ?verified, ?complete, ?noComplete, ?tracking, ?noTracking, ?moves, ?noMoves,
    ?test, ?noTest, ?tested, ?testing⟩, fun hoff => ?stopped⟩
  case patrol => exact fun ecc hmode hnone hdue => (State.acts_of_dram hon).trans (if_pos ⟨hmode, hnone, hdue⟩)
  case noPatrol =>
    refine fun ecc hnot => (State.acts_of_dram hon).trans (if_neg fun ⟨hmode, hnone, hdue⟩ => ?_)
    obtain hstill | hmigrates | hearly := hnot
    · exact ne_true_of_eq_false hstill hmode
    · exact Option.isSome_iff_ne_none.mp hmigrates hnone
    · exact Nat.not_le.mpr hearly hdue
  case writeBack =>
    intro address ⟨e, he, haddress⟩
    have hany : (s.at t).mem.writeBacks.any (fun e => e.1 == address) = true := List.any_eq_true.mpr ⟨e, he, beq_iff_eq.mpr haddress⟩
    exact (State.acts_of_dram hon).trans (if_pos hany)
  case noWriteBack =>
    refine fun address hnone => (State.acts_of_dram hon).trans (if_neg fun hany => ?_)
    obtain ⟨e, he, haddress⟩ := List.any_eq_true.mp hany
    exact hnone e he (beq_iff_eq.mp haddress)
  case verified =>
    exact fun ok full g hg hnew => ⟨fun h => execMigrationSpareVerified_copies hon hg hnew, execMigrationSpareVerified_abandoned hon hg hnew⟩
  case complete => exact fun g hg hverified hend hidle => (execMigrationComplete_of_migration hon hg).trans (if_pos ⟨hverified, hend, hidle⟩)
  case noComplete =>
    refine fun g hg hnot => (execMigrationComplete_of_migration hon hg).trans (if_neg fun ⟨hverified, hend, _⟩ => ?_)
    exact hnot.elim (fun hnew => ne_true_of_eq_false hnew hverified) (absurd hend)
  case tracking => exact fun rank moves hrank hdue => (State.acts_of_dram hon).trans (if_pos ⟨hrank, hdue⟩)
  case noTracking =>
    refine fun rank moves hnot => (State.acts_of_dram hon).trans (if_neg fun ⟨hrank, hdue⟩ => ?_)
    exact hnot.elim (fun hoff => ne_true_of_eq_false hoff hrank) (fun hearly => Nat.not_le.mpr hearly hdue)
  case moves =>
    intro rank x moved hsteps hforced hidle
    exact (State.acts_of_dram hon).trans (if_neg (not_or.mpr ⟨hsteps, not_or.mpr ⟨hforced, Nat.not_lt.mpr hidle⟩⟩))
  case noMoves => exact fun rank hnot => (State.acts_of_dram hon).trans (if_pos (hnot.imp_right .inr))
  case test => exact fun r hr hmode hnone hdue => (execSpareRankTest_of_spare hon hr).trans (if_pos ⟨hmode, hnone, hdue⟩)
  case noTest =>
    refine fun r hr hnot => (execSpareRankTest_of_spare hon hr).trans (if_neg fun ⟨_, hnone, hdue⟩ => ?_)
    exact hnot.elim (fun htest => Option.isSome_iff_ne_none.mp htest hnone) (fun hearly => Nat.not_le.mpr hearly hdue)
  case tested =>
    exact fun r since hr htest hover => ⟨execSpareRankTestEnd_sound hon hr htest hover, fun d => execSpareRankTestEnd_faulty hon hr htest hover⟩
  case testing => exact fun r since failing hr htest hearly => execSpareRankTestEnd_early hon hr htest hearly
  case stopped =>
    exact ⟨fun _ => if_pos hoff, fun _ => if_pos hoff, fun _ _ => if_pos hoff, if_pos hoff, fun _ _ => if_pos hoff, fun _ => if_pos hoff, if_pos hoff,
      fun _ => if_pos hoff⟩

end Sys2Proof.Machine

/-! PROOFS. The front command of a step, times in their 96 bits, and requests that are answered without being executed. -/

namespace Sys2Proof.Machine

/-- Settles O1: a step is a match on the queue. -/
theorem stepTakesTheFront : Obligations.StepTakesTheFront := by
  refine ⟨fun s c rest hfront => ?_, fun s hempty => ?_⟩
  · rw [step, hfront]
  · rw [step, hempty]

/-! ### TS96 (R272) -/

/-- A nanoseconds field of at most 999 999 999 leaves the fraction of a second below one second. -/
theorem subsecond_lt_of_tsOk {v : Nat} (hok : tsOk v = true) : v % 2 ^ 48 < 65536000000000 := by
  have hns : v / 2 ^ 16 % 2 ^ 32 ≤ 999999999 := of_decide_eq_true hok
  omega

/-- The instant that well-formed bits name has the seconds and the fraction of a second that they spell. -/
theorem stampOfBits_ediv_emod {v : Nat} (hok : tsOk v = true) :
    stampOfBits v / secondUnits = (v / 2 ^ 48 : Nat) ∧ stampOfBits v % secondUnits = (v % 2 ^ 48 : Nat) :=
  (Int.ediv_emod_unique (by decide)).mpr ⟨by rw [stampOfBits]; ring, Int.natCast_nonneg _, Int.ofNat_lt.mpr (subsecond_lt_of_tsOk hok)⟩

/-- Settles O15: the instant splits into its seconds and its fraction again, and both fit their 48 bits. -/
theorem ts96TimesRoundTrip : Obligations.Ts96TimesRoundTrip := by
  intro v hv hok
  obtain ⟨hseconds, hfraction⟩ := stampOfBits_ediv_emod hok
  rw [tsBits, hseconds, hfraction, Int.toNat_natCast, Int.toNat_natCast]
  omega

section
variable {c : Instr} {s t : State} {code : Nat} {h : Hdr} {body : List Byte} {d : DupClient} {e : DupEntry} {run : State → State × Answer}

/-! ### What the commands of the service protocol have in common (R310, R335) -/

/-- A command of the service protocol serves its request; RESET and GEODE_ENTER do more once it is executed. -/
theorem exec_asRequest (hc : asRequest c = some (code, h, body)) :
    (∃ run, exec c s = request code h body run s) ∨
    ∃ (run : State → State × Answer) (taken : Bool) (enter : State → State), exec c s =
      .next (if (s.executes code h body && taken) = true then enter (s.serveNcp code h body run) else s.serveNcp code h body run) := by
  unfold asRequest at hc
  split at hc
  case h_16 => -- CAPTURE_AT, of no peer
    split at hc
    · cases hc
    next hpair =>
      cases hc
      exact .inl ⟨_, if_neg hpair⟩
  case h_46 => -- a body that spells no command
    split at hc
    · cases hc
    next hfits =>
      cases hc
      exact .inl ⟨_, if_neg hfits⟩
  case h_47 => -- RESET
    cases hc
    exact .inr ⟨fun st => (st, Answer.done), true, (State.enterBoot · Cause.reset false), by rw [Bool.and_true]; rfl⟩
  case h_48 h deep mask wake => -- GEODE_ENTER
    cases hc
    exact .inr ⟨fun st => (st, st.geodeAnswer deep mask wake), decide ((s.at h.at_).geodeAnswer deep mask wake = Answer.done),
      (State.enterGeode · (deep == 1) mask (stampOfBits (TS96bits wake)) false Cause.geodeEnter), rfl⟩
  all_goals cases hc
  all_goals exact .inl ⟨_, rfl⟩

/-- A request that comes to the same whatever it asks for, and draws nothing, is not executed. -/
theorem exec_of_not_executed (hc : asRequest c = some (code, h, body)) (hserve : ∀ run, s.serveNcp code h body run = t) (hfresh : t.fresh = s.fresh) :
    exec c s = .next t := by
  have hnot : s.executes code h body = false := by rw [State.executes, hserve, hfresh, bne_self_eq_false]
  obtain ⟨run, hexec⟩ | ⟨run, taken, enter, hexec⟩ := exec_asRequest (s := s) hc
  · rw [hexec, request, hserve]
  · rw [hexec, hnot, Bool.false_and, if_neg Bool.false_ne_true, hserve]

/-! ### Requests that are not executed (R317, R320, R322) -/

theorem State.serveNcp_check_fails (hreach : (s.at h.at_).reaches h code body = true) (hcheck : (s.comeIn h).checkOk h code body = false) :
    s.serveNcp code h body run = ((s.comeIn h).bump K.ncpCheckErrors 1).refuse code h E.check := by
  unfold State.serveNcp
  extract_lets s0 s1
  have hs1 : s1 = s.comeIn h := rfl
  rw [if_neg (ne_false_of_eq_true hreach), hs1, if_pos hcheck]

/-- What a request comes to whose number is in the cache: refused where its check value differs, else answered with the response kept, or waiting for it. -/
def State.answerAgain (s : State) (code : Nat) (h : Hdr) (e : DupEntry) : State :=
  if e.check ≠ h.check then s.refuse code h E.reused
  else match e.resp with
    | some r => s.hold h.pair (.ready r true)
    | none => s.hold h.pair (.job e.job true)

theorem State.answerAgain_reused (hdiffers : e.check ≠ h.check) : s.answerAgain code h e = s.refuse code h E.reused := if_pos hdiffers

theorem State.answerAgain_kept {r : Resp} (hsame : e.check = h.check) (hresp : e.resp = some r) :
    s.answerAgain code h e = s.hold h.pair (.ready r true) := by
  rw [State.answerAgain, if_neg (not_not_intro hsame), hresp]

theorem State.answerAgain_waits (hsame : e.check = h.check) (hresp : e.resp = none) : s.answerAgain code h e = s.hold h.pair (.job e.job true) := by
  rw [State.answerAgain, if_neg (not_not_intro hsame), hresp]

theorem State.serveNcp_cached (hreach : (s.at h.at_).reaches h code body = true) (hcheck : (s.comeIn h).checkOk h code body = true) (hclient : h.client ≠ 0)
    (hd : (s.comeIn h).dupClient h.client = some d) (hin : inWindow d.newest h.request = true)
    (he : d.entries.find? (fun x => x.request == h.request) = some e) :
    s.serveNcp code h body run = ((s.comeIn h).touchClient h.client).answerAgain code h e := by
  unfold State.serveNcp
  extract_lets s0 s1 run1 fresh again
  have hs1 : s1 = s.comeIn h := rfl
  rw [if_neg (ne_false_of_eq_true hreach), hs1, if_neg (ne_false_of_eq_true hcheck), if_neg hclient]
  simp only [hd, hin, he, if_true]
  rfl

theorem State.serveNcp_stale (hreach : (s.at h.at_).reaches h code body = true) (hcheck : (s.comeIn h).checkOk h code body = true) (hclient : h.client ≠ 0)
    (hd : (s.comeIn h).dupClient h.client = some d) (hout : inWindow d.newest h.request = false) (hold : newerReq h.request d.newest = false) :
    s.serveNcp code h body run = ((s.comeIn h).touchClient h.client).refuse code h E.stale := by
  unfold State.serveNcp
  extract_lets s0 s1 run1 fresh
  have hs1 : s1 = s.comeIn h := rfl
  rw [if_neg (ne_false_of_eq_true hreach), hs1, if_neg (ne_false_of_eq_true hcheck), if_neg hclient]
  simp only [hd, hout, hold, if_false, Bool.false_eq_true]

/-! ### What an answer touches (R311, R320, R321) -/

theorem getD_set_other {α : Type} {l : List α} {m n : Nat} {x y : α} (hm : m ≠ n) : (l.set n x).getD m y = l.getD m y := by
  rw [List.getD_eq_getElem?_getD, List.getElem?_set_ne hm.symm, List.getD_eq_getElem?_getD]

/-- Letting a session's messages go out touches that session and what leaves. -/
theorem State.pump_only (s : State) (n : Nat) :
    ∃ sess out, s.pump n = { s with sess := sess, out := out } ∧ ∀ m, m ≠ n → sess.getD m Session.closed = s.pair m := by
  unfold State.pump
  extract_lets x r s1
  split
  · exact ⟨s.sess, s.out, rfl, fun _ _ => rfl⟩
  · split
    next hn => exact ⟨_, s.out, rfl, fun m hm => getD_set_other (hn ▸ hm)⟩
    · exact ⟨_, _, rfl, fun m hm => getD_set_other hm⟩

/-- So does putting something in a session's order. -/
theorem State.hold_only (s : State) (n : Nat) (x : Held) :
    ∃ sess out, s.hold n x = { s with sess := sess, out := out } ∧ ∀ m, m ≠ n → sess.getD m Session.closed = s.pair m := by
  unfold State.hold
  extract_lets y
  split
  · obtain ⟨sess, out, hpump, hsess⟩ := (s.setPair n { y with held := y.held ++ [x] }).pump_only n
    exact ⟨sess, out, hpump, fun m hm => (hsess m hm).trans (getD_set_other hm)⟩
  · exact ⟨s.sess, s.out, rfl, fun _ _ => rfl⟩

/-- What refusing a request leaves: the sessions and what leaves may change, nothing else. -/
theorem State.refuse_only (s : State) (code : Nat) (h : Hdr) (result : Nat) : ∃ sess out, s.refuse code h result = { s with sess := sess, out := out } := by
  obtain ⟨sess, out, hhold, -⟩ := s.hold_only h.pair (.ready (s.respond code h result false (errorBody 0xFFFF "" "")) false)
  exact ⟨sess, out, hhold⟩

/-! ### Check values (R317) -/

theorem checkOk_eq_false {a : State}
    (hcheck : h.check ≠ crc32c (le 8 (if code = 1 then 0 else a.moduleId.toNat) ++ le 1 0xFF ++ le 4 h.request.toNat ++ (hdrBytes h code ++ body))) :
    a.checkOk h code body = false := by
  have hid : (if code = 1 then 0 else a.moduleId : BitVec 64).toNat = if code = 1 then 0 else a.moduleId.toNat := apply_ite BitVec.toNat ..
  rw [State.checkOk, checkValue, hid]
  exact decide_eq_false hcheck.symm

/-- A request comes in with its time and its session; nothing is cached, configured or begun. -/
theorem State.comeIn_keeps (s : State) (h : Hdr) : (s.comeIn h).dup = s.dup ∧ (s.comeIn h).cfg = s.cfg ∧ (s.comeIn h).jobs = s.jobs := by
  unfold State.comeIn State.sessionUse
  extract_lets
  split
  · exact ⟨rfl, rfl, rfl⟩
  · exact ⟨rfl, rfl, rfl⟩

/-- Every message ends with its check value. -/
theorem OutMsg.bytes_eq (id : BitVec 64) (pair : Nat) (m : OutMsg) :
    let number := match m with
      | .resp r _ => r.request.toNat
      | .note e => e.seq
      | .lost _ _ first _ => first
    ∃ bytes, m.bytes id pair = bytes ++ le 4 (checkValue id 0xFF number bytes).toNat := by
  cases m with
  | resp r dup => exact ⟨_, rfl⟩
  | note e => exact ⟨_, rfl⟩
  | lost time epoch first count => exact ⟨_, rfl⟩

end

/-- Settles O7: whatever the request asks for, it is refused where its check value is wrong, and the module's messages are formed with theirs. -/
theorem failedChecksExecuteNothing : Obligations.FailedChecksExecuteNothing := by
  refine ⟨fun c s code h body hc hreach hcheck => ?refused, fun id pair m => OutMsg.bytes_eq id pair m⟩
  obtain ⟨sess, out, hrefuse⟩ := ((s.comeIn h).bump K.ncpCheckErrors 1).refuse_only code h E.check
  obtain ⟨hdup, hcfg, hjobs⟩ := s.comeIn_keeps h
  refine ⟨exec_of_not_executed hc (fun run => State.serveNcp_check_fails hreach (checkOk_eq_false hcheck)) ?_, ?_, ?_, ?_⟩
  · rw [hrefuse]
    exact s.comeIn_fresh h
  · rw [hrefuse]
    exact hdup
  · rw [hrefuse]
    exact hcfg
  · rw [hrefuse]
    exact hjobs

/-- Settles O8: the cache decides what a repeated or an old request comes to, and nothing is drawn. -/
theorem repeatedRequestsAreNotExecuted : Obligations.RepeatedRequestsAreNotExecuted := by
  intro c s code h body d hc hreach a b hcheck hclient hd
  have hheld : ∀ x, (b.hold h.pair x).fresh = s.fresh := fun x => (State.hold_fresh b h.pair x).trans (s.comeIn_fresh h)
  refine ⟨fun e r hin he hsame hresp => ?kept, fun e hin he hsame hresp => ?waits, fun e hin he hdiffers => ?reused, fun hout hold => ?stale⟩
  case kept =>
    exact exec_of_not_executed hc (fun _ => (State.serveNcp_cached hreach hcheck hclient hd hin he).trans (State.answerAgain_kept hsame hresp)) (hheld _)
  case waits =>
    exact exec_of_not_executed hc (fun _ => (State.serveNcp_cached hreach hcheck hclient hd hin he).trans (State.answerAgain_waits hsame hresp)) (hheld _)
  case reused =>
    exact exec_of_not_executed hc (fun _ => (State.serveNcp_cached hreach hcheck hclient hd hin he).trans (State.answerAgain_reused hdiffers)) (hheld _)
  case stale => exact exec_of_not_executed hc (fun _ => State.serveNcp_stale hreach hcheck hclient hd hout hold) (hheld _)

/-- Settles O9: the cache and its count are written, then the answer's session and what leaves. -/
theorem answersTouchOnlyTheirSession : Obligations.AnswersTouchOnlyTheirSession := by
  intro s code h body more
  obtain ⟨sess, out, hhold, hsess⟩ :=
    (s.remember h (some (s.respond code h E.ok more body)) 0).hold_only h.pair (.ready (s.respond code h E.ok more body) false)
  have hanswered : s.answered code h body more = { s.remember h (some (s.respond code h E.ok more body)) 0 with sess := sess, out := out } := hhold
  have hkeys : ∀ k : Key, k ≠ K.ncpClients → (s.answered code h body more).roGet k = s.roGet k := by
    rw [hanswered]
    exact fun k hk => State.roGet_roSet_other _ hk _
  have hpairs : ∀ n, n ≠ h.pair → (s.answered code h body more).pair n = s.pair n := by
    rw [hanswered]
    exact hsess
  rw [hanswered] at hkeys hpairs ⊢
  exact ⟨rfl, rfl, rfl, rfl, rfl, rfl, rfl, rfl, rfl, rfl, rfl, rfl, rfl, rfl, rfl, rfl, rfl, rfl, rfl, rfl, rfl, hkeys, hpairs⟩

end Sys2Proof.Machine

/-! PROOFS. Lodestone: frequency inputs, the seconds of PPS_IN and PPS_OUT, PTP and the time inputs. What each command does when it may act, and that it does nothing otherwise. -/

namespace Sys2Proof.Machine

section
variable {s : State} {t : Tick} {inp : FreqInput} {dev : Int} {sub residual last : Nat}

/-! ### Frequency inputs (R275, R276) -/

/-- The number an event gives a frequency input. -/
def freqCode : FreqInput → Nat
  | .ref10m => 1
  | .ensClk => 2

theorem execFreqGateEnd_present {r : FreqIn × Bool} (hpresent : (s.at t).roGet (freqPresent inp) ≠ 0)
    (hr : gateEnd ((s.at t).freqIn inp) (decide (dev.natAbs ≤ 100000000)) = r) :
    execFreqGateEnd t inp dev s =
      .next (if r.2 = true then ((s.at t).setFreqIn inp r.1).raise Ev.refOutOfTol [u (freqCode inp), sv dev] else (s.at t).setFreqIn inp r.1).selectFreq := by
  simp only [execFreqGateEnd, if_neg hpresent, hr]
  cases inp with
  | ref10m => simp only [freqCode]
  | ensClk => simp only [freqCode]

/-! ### PPS_IN (R275, R278) -/

/-- An edge comes 1 s ± 1 µs after the one before. -/
def State.ppsInWindow (s : State) (edge : Nat) : Bool :=
  match s.time.pps.lastEdge with
  | none => false
  | some last => decide (last + 999999000000 ≤ edge) && decide (edge ≤ last + 1000001000000)

theorem State.ppsInWindow_some {a : State} {edge : Nat} (hlast : a.time.pps.lastEdge = some last) :
    a.ppsInWindow edge = true ↔ last + 999999000000 ≤ edge ∧ edge ≤ last + 1000001000000 := by
  rw [State.ppsInWindow, hlast, Bool.and_eq_true, decide_eq_true_eq, decide_eq_true_eq]

theorem State.ppsInWindow_none {a : State} {edge : Nat} (hlast : a.time.pps.lastEdge = none) : a.ppsInWindow edge = false := by
  rw [State.ppsInWindow, hlast]

/-- The counter time of an edge `sub` ps after a tick. -/
def State.edgeCounter (s : State) (t : Tick) (sub : Nat) : Stamp := s.counter t * tickUnits + ((sub * 65536 / 1000 : Nat) : Int)

theorem execPpsInEdge_present (hruns : (s.at t).power.clocks.tdc = true) (hpresent : (s.at t).roGet K.timebasePpsPresent = 1) :
    execPpsInEdge t sub residual s =
      if (s.at t).ppsInWindow (t * 5000 + sub) = true then
        .next (((s.at t).withTime { (s.at t).time with pps := { (s.at t).time.pps with lastEdge := some (t * 5000 + sub) } }).ppsMeasure
          ((s.at t).edgeCounter t sub) residual)
      else .next (s.at t) :=
  (if_neg (ne_false_of_eq_true hruns)).trans (if_pos hpresent)

/-- The edge counts as the `n`-th in a row. -/
def State.ppsCounted (s : State) (edge n : Nat) : State :=
  s.withTime { s.time with pps := { s.time.pps with lastEdge := some edge, accepted := n } }

theorem execPpsInEdge_absent {n : Nat} (hruns : (s.at t).power.clocks.tdc = true) (habsent : (s.at t).roGet K.timebasePpsPresent ≠ 1)
    (hn : (if (s.at t).ppsInWindow (t * 5000 + sub) = true then (s.at t).time.pps.accepted + 1 else 1) = n) :
    execPpsInEdge t sub residual s =
      .next (if 3 ≤ n then (((s.at t).ppsCounted (t * 5000 + sub) n).roSet K.timebasePpsPresent 1).ppsMeasure ((s.at t).edgeCounter t sub) residual
        else (s.at t).ppsCounted (t * 5000 + sub) n) := by
  subst hn
  exact (if_neg (ne_false_of_eq_true hruns)).trans ((if_neg habsent).trans (apply_ite Host.Outcome.next _ _ _).symm)

theorem execPpsInTimeout_of_last (hlast : (s.at t).time.pps.lastEdge = some last) :
    execPpsInTimeout t s =
      if (s.at t).roGet K.timebasePpsPresent = 1 ∧ last + 1000001000000 ≤ (s.at t).now * 5000 then
        .next ((((s.at t).roSet K.timebasePpsPresent 0).withTime
          { (s.at t).time with pps := { (s.at t).time.pps with accepted := 0, lastEdge := none, label := none, source := .unknown } }).selectTime)
      else .next (s.at t) := by
  simp only [execPpsInTimeout, hlast]

/-! ### PPS_OUT (R288) -/

/-- The edge before came less than half a second ago. -/
def State.ppsSoon (s : State) (t : Tick) : Bool :=
  match s.time.ppsLast with
  | some last => decide (s.stampAt t < last + 32768000000000)
  | none => false

theorem State.ppsSoon_eq_false {a : State} (h : ∀ last, a.time.ppsLast = some last → last + 32768000000000 ≤ a.stampAt t) : a.ppsSoon t = false := by
  unfold State.ppsSoon
  split
  next last hlast => exact decide_eq_false (Int.not_lt.mpr (h last hlast))
  · rfl

/-- PPS_OUT may rise: it is enabled, the module runs outside GEODE with a time it can vouch for, and a whole second has come with the output low. -/
def State.PpsOutRises (s : State) (t : Tick) : Prop :=
  s.pG K.timebasePpsOutEnable = 1 ∧ s.mode ≠ .off ∧ s.mode ≠ .save ∧ s.mode ≠ .geode ∧ s.roGet K.timebaseQuality ≠ 3 ∧ s.atWholeSecond t = true ∧
  s.ppsSoon t = false ∧ s.time.ppsOut = false

theorem execPpsOutEdge_rises (h : (s.at t).PpsOutRises t) :
    execPpsOutEdge t s =
      .next (((s.at t).withTime { (s.at t).time with ppsOut := true, ppsStart := t, ppsLast := some ((s.at t).stampAt t) }).emit (.ppsEdge true)) :=
  if_pos h

theorem execPpsOutEdge_stays (h : ¬ (s.at t).PpsOutRises t) : execPpsOutEdge t s = .next (s.at t) := if_neg h

end

/-- Settles O53, command by command; a PPS edge splits on whether the input is present, then on its window. -/
theorem frequencyAndSecondsAreTracked : Obligations.FrequencyAndSecondsAreTracked := by
  refine fun s t => ⟨fun _ => rfl, fun _ => rfl, ?gate, fun inp dev habsent => if_pos habsent, fun sub residual hstopped => if_pos hstopped,
    ?edge, ?firstEdges, ?late, ?onTime, fun _ => rfl, ⟨fun hdue => if_pos hdue, fun hnot => if_neg hnot⟩, ?rises, ?stays, fun hout hover => if_pos ⟨hout, hover⟩, ?holds⟩
  case gate =>
    intro inp dev hpresent r code b
    refine (execFreqGateEnd_present hpresent rfl).trans ?_
    cases inp with
    | ref10m => rfl
    | ensClk => rfl
  case edge =>
    intro sub residual last hruns hpresent hlast edge b
    refine ⟨fun hfrom hto => ?_, fun hout => ?_⟩
    · exact (execPpsInEdge_present hruns hpresent).trans (if_pos ((State.ppsInWindow_some hlast).mpr ⟨hfrom, hto⟩))
    · refine (execPpsInEdge_present hruns hpresent).trans (if_neg fun hin => ?_)
      obtain ⟨hfrom, hto⟩ := (State.ppsInWindow_some hlast).mp hin
      exact hout.elim (Nat.not_lt.mpr hfrom) (Nat.not_lt.mpr hto)
  case firstEdges =>
    intro sub residual hruns habsent edge n b
    refine execPpsInEdge_absent hruns habsent ?_
    cases hlast : (s.at t).time.pps.lastEdge with
    | none => simp only [n, hlast, State.ppsInWindow_none hlast, Bool.false_eq_true, if_false]
    | some last => simp only [n, hlast, State.ppsInWindow_some hlast, edge]
  case late => exact fun last hlast hpresent hlate => (execPpsInTimeout_of_last hlast).trans (if_pos ⟨hpresent, hlate⟩)
  case onTime => exact fun last hlast hearly => (execPpsInTimeout_of_last hlast).trans (if_neg fun h => Nat.not_le.mpr hearly h.2)
  case rises =>
    exact fun henable hoff hsave hgeode hquality hsecond hsoon hlow =>
      execPpsOutEdge_rises ⟨henable, hoff, hsave, hgeode, hquality, hsecond, State.ppsSoon_eq_false hsoon, hlow⟩
  case stays =>
    rintro hnot
    refine execPpsOutEdge_stays fun ⟨henable, _, _, hgeode, hquality, hsecond, _⟩ => ?_
    rcases hnot with h | h | h | h
    · exact h henable
    · exact hquality h
    · exact ne_true_of_eq_false h hsecond
    · exact hgeode h
  case holds => exact fun hnot => if_neg fun ⟨hout, hover⟩ => hnot.elim (fun hlow => ne_true_of_eq_false hlow hout) (Nat.not_lt.mpr hover)

section
variable {s : State} {t : Tick} {p : Port} {master : BitVec 64} {seq : Nat} {rx t1 t2 t3 t4 : Stamp}

/-! ### PTP (R283, R284) -/

theorem execPtpFollowUp_waiting {q : Nat} (hsync : ((s.at t).time.ptp p).syncSeq = some (q, rx)) :
    execPtpFollowUp t p master seq t1 s =
      if ((s.at t).fromMaster p master && q == seq) = true then
        .next (((s.at t).setPtp p { (s.at t).time.ptp p with syncSeq := none, t1t2 := some (t1, rx) }).ptpMeasure p)
      else .next (s.at t) := by
  simp only [execPtpFollowUp, hsync]

theorem execPtpFollowUp_not_waiting (hsync : ((s.at t).time.ptp p).syncSeq = none) : execPtpFollowUp t p master seq t1 s = .next (s.at t) := by
  simp only [execPtpFollowUp, hsync]

/-- A delay response of the port's best master answers the request last sent. -/
def State.delayAnswered (s : State) (p : Port) (master : BitVec 64) (seq : Nat) : Bool :=
  s.fromMaster p master && (s.time.ptp p).reqSeq == seq && s.pG K.timebasePtpDelayMech == 0

theorem State.delayAnswered_iff {a : State} :
    a.delayAnswered p master seq = true ↔ a.fromMaster p master = true ∧ (a.time.ptp p).reqSeq = seq ∧ a.pG K.timebasePtpDelayMech = 0 := by
  rw [State.delayAnswered, Bool.and_eq_true, Bool.and_eq_true, beq_iff_eq, beq_iff_eq, and_assoc]

theorem execPtpDelayResp_of_pair (hreq : ((s.at t).time.ptp p).reqTx = some t3) (hpair : ((s.at t).time.ptp p).t1t2 = some (t1, t2)) :
    execPtpDelayResp t p master seq t4 s =
      if (s.at t).delayAnswered p master seq = true then
        .next (((s.at t).setPtp p { (s.at t).time.ptp p with reqTx := none, pathDelay := some (((t2 - t3) + (t4 - t1)) / 2) }).ptpMeasure p)
      else .next (s.at t) := by
  simp only [execPtpDelayResp, hreq, hpair]
  rfl

theorem execPtpDelayResp_other (hother : (s.at t).delayAnswered p master seq = false) : execPtpDelayResp t p master seq t4 s = .next (s.at t) := by
  unfold State.delayAnswered at hother
  unfold execPtpDelayResp
  extract_lets a x
  split
  · exact if_neg (ne_true_of_eq_false hother)
  · rfl

/-- A peer delay response answers the request last sent. -/
def State.peerDelayAnswered (s : State) (p : Port) (seq : Nat) : Bool :=
  s.ptpOn p && (s.time.ptp p).reqSeq == seq && s.pG K.timebasePtpDelayMech == 1

theorem State.peerDelayAnswered_iff {a : State} :
    a.peerDelayAnswered p seq = true ↔ a.ptpOn p = true ∧ (a.time.ptp p).reqSeq = seq ∧ a.pG K.timebasePtpDelayMech = 1 := by
  rw [State.peerDelayAnswered, Bool.and_eq_true, Bool.and_eq_true, beq_iff_eq, beq_iff_eq, and_assoc]

theorem execPtpPdelayResp_of_request (hreq : ((s.at t).time.ptp p).reqTx = some t1) :
    execPtpPdelayResp t p seq t2 t3 t4 s =
      if (s.at t).peerDelayAnswered p seq = true then
        .next (((s.at t).setPtp p { (s.at t).time.ptp p with reqTx := none, pathDelay := some (((t4 - t1) - (t3 - t2)) / 2) }).ptpMeasure p)
      else .next (s.at t) := by
  simp only [execPtpPdelayResp, hreq]
  rfl

theorem execPtpPdelayResp_other (hother : (s.at t).peerDelayAnswered p seq = false) : execPtpPdelayResp t p seq t2 t3 t4 s = .next (s.at t) := by
  unfold State.peerDelayAnswered at hother
  unfold execPtpPdelayResp
  extract_lets a x
  split
  · exact if_neg (ne_true_of_eq_false hother)
  · rfl

end

/-- Settles O54, message by message: each acts where it comes from the best master and fits what the port waits for. -/
theorem ptpMeasuresItsMaster : Obligations.PtpMeasuresItsMaster := by
  refine fun s t p => ⟨?announce, ?announceOther, rfl, ?sync, ?syncOther, ?followUp, ?followUpOther, ?request, ?requestNone, ?response, ?responseOther, ?peer, ?peerOther,
    fun _ => rfl⟩
  case announce => exact fun m hon hdomain => if_pos (by rw [hon, Bool.true_and]; exact decide_eq_true hdomain)
  case announceOther =>
    refine fun m hnot => if_neg fun h => ?_
    rw [Bool.and_eq_true, decide_eq_true_eq] at h
    exact hnot.elim (fun hoff => ne_true_of_eq_false hoff h.1) fun hother => hother h.2
  case sync => exact fun master seq t1 rx hmaster => ⟨if_pos hmaster, if_pos hmaster⟩
  case syncOther => exact fun master seq twoStep t1 rx hother => if_neg (ne_true_of_eq_false hother)
  case followUp =>
    exact fun master seq rx t1 hsync hmaster => (execPtpFollowUp_waiting hsync).trans (if_pos (by rw [hmaster, Bool.true_and, beq_self_eq_true]))
  case followUpOther =>
    intro master seq t1 hnot
    cases hsync : ((s.at t).time.ptp p).syncSeq with
    | none => exact execPtpFollowUp_not_waiting hsync
    | some q =>
      have hother : (s.at t).fromMaster p master = false := hnot.resolve_left (hsync ▸ Option.some_ne_none q)
      exact (execPtpFollowUp_waiting hsync).trans (if_neg (by rw [hother, Bool.false_and]; exact Bool.false_ne_true))
  case request => exact fun tx m hon hbest => if_pos (by rw [hon, hbest]; rfl)
  case requestNone =>
    refine fun tx hnot => if_neg fun h => ?_
    rw [Bool.and_eq_true, bne_iff_ne] at h
    exact hnot.elim (fun hoff => ne_true_of_eq_false hoff h.1) h.2
  case response =>
    exact fun master t1 t2 t3 t4 hreq hpair hmaster hmech =>
      (execPtpDelayResp_of_pair hreq hpair).trans (if_pos (State.delayAnswered_iff.mpr ⟨hmaster, rfl, hmech⟩))
  case responseOther =>
    refine fun master seq t4 hnot => execPtpDelayResp_other (Bool.eq_false_iff.mpr fun h => ?_)
    obtain ⟨hmaster, hseq, hmech⟩ := State.delayAnswered_iff.mp h
    exact hnot.elim (· hseq) fun hnot => hnot.elim (fun hother => ne_true_of_eq_false hother hmaster) (· hmech)
  case peer =>
    exact fun t1 t2 t3 t4 hreq hon hmech => (execPtpPdelayResp_of_request hreq).trans (if_pos (State.peerDelayAnswered_iff.mpr ⟨hon, rfl, hmech⟩))
  case peerOther =>
    refine fun seq t2 t3 t4 hnot => execPtpPdelayResp_other (Bool.eq_false_iff.mpr fun h => ?_)
    obtain ⟨hon, hseq, hmech⟩ := State.peerDelayAnswered_iff.mp h
    exact hnot.elim (· hseq) fun hnot => hnot.elim (fun hoff => ne_true_of_eq_false hoff hon) (· hmech)

section
variable {s : State} {t : Tick} {input sub : Nat} {rising : Bool}

/-! ### The time inputs (R285, R287) -/

/-- The edge comes within 4 ns of the last one stamped. -/
def State.tdcClose (s : State) (input edge : Nat) : Bool :=
  match (s.tdcIn input).lastEdge with
  | some last => decide (edge < last + 4000)
  | none => false

theorem State.tdcClose_iff {a : State} {edge : Nat} : a.tdcClose input edge = true ↔ ∃ last, (a.tdcIn input).lastEdge = some last ∧ edge < last + 4000 := by
  unfold State.tdcClose
  split
  next last hlast => simp only [hlast, decide_eq_true_eq, Option.some.injEq, exists_eq_left']
  next hnone => simp only [hnone, reduceCtorEq, false_and, exists_false]

/-- An edge the input takes and its divider passes is stamped, or missed where it is close to the one before. -/
theorem execTdcEdge_passed (htakes : (s.at t).tdcTakes input rising = true) (hpass : input < 5 ∨ 10000 ≤ ((s.at t).tdcIn input).divider + 1) :
    let edge := t * 5000 + sub / 3 * 3
    let b := (s.at t).setTdc input { (s.at t).tdcIn input with divider := 0 }
    execTdcEdge t input rising sub s =
      if (s.at t).tdcClose input edge = true then .next (b.bump (K.tdcInMissed input) 1)
      else .next (b.tdcStamp input rising edge (b.stampAt t + ((sub / 3 * 3 * 65536 / 1000 : Nat) : Int))) :=
  (if_pos htakes).trans (if_neg fun h => hpass.elim (Nat.not_lt.mpr h.1) (Nat.not_le.mpr h.2))

/-- An input's gate is over: the input is used and its time has come. -/
def State.TdcGateOver (s : State) (input : Nat) : Prop :=
  input ≤ 6 ∧ s.tdcNominal input ≠ 0 ∧ (s.tdcIn input).gateStart + s.tdcGate input ≤ s.now

/-- The input with its gate begun anew and the number of its stamps published. -/
def State.tdcGateBegun (s : State) (input : Nat) : State :=
  (s.setTdc input { s.tdcIn input with gate := [], gateStart := s.now }).roSet (K.tdcInStamps input) (s.tdcIn input).gate.length

theorem execTdcGateFit_no_frequency (hover : (s.at t).TdcGateOver input)
    (hnone : ((s.at t).tdcIn input).gate.length < 3 ∨ (tdcFit ((s.at t).tdcIn input).gate ((s.at t).tdcNominal input)).2.1 = 0) :
    execTdcGateFit t input s = .next (((s.at t).tdcGateBegun input).roSet (K.tdcInFreq input) 0x80000000) := by
  refine (if_pos hover).trans ?_
  split
  · rfl
  next hthree =>
    extract_lets
    exact if_pos (hnone.resolve_left hthree)

theorem execTdcGateFit_early (hnot : ¬ (s.at t).TdcGateOver input) : execTdcGateFit t input s = .next (s.at t) := if_neg hnot

end

/-- Settles O55: an edge splits on the divider and on its distance from the last, a gate's end on how many stamps its fit has. -/
theorem edgesAreStampedAndFitted : Obligations.EdgesAreStampedAndFitted := by
  refine fun s t input => ⟨?divided, ?passed, fun rising sub hoff => if_neg (ne_true_of_eq_false hoff), rfl, ?noFrequency, ?fitted, ?early⟩
  case divided => exact fun rising sub htakes hout hdivider => (if_pos htakes).trans (if_pos ⟨hout, hdivider⟩)
  case passed =>
    refine fun rising sub htakes hpass => ⟨fun hclose => ?_, fun hfar => ?_⟩
    · exact (execTdcEdge_passed htakes hpass).trans (if_pos (State.tdcClose_iff.mpr hclose))
    · refine (execTdcEdge_passed htakes hpass).trans (if_neg fun h => ?_)
      obtain ⟨last, hlast, hlt⟩ := State.tdcClose_iff.mp h
      exact Nat.not_le.mpr hlt (hfar last hlast)
  case noFrequency => exact fun hinput hnom hover => execTdcGateFit_no_frequency ⟨hinput, hnom, hover⟩
  case fitted =>
    exact fun hinput hnom hover hthree hperiod => (if_pos ⟨hinput, hnom, hover⟩).trans ((if_neg (Nat.not_lt.mpr hthree)).trans (if_neg hperiod))
  case early =>
    refine fun hnot => execTdcGateFit_early fun ⟨hinput, hnom, hover⟩ => ?_
    rcases hnot with h | h | h
    · exact Nat.not_le.mpr h hinput
    · exact hnom h
    · exact Nat.not_le.mpr h hover

end Sys2Proof.Machine

/-! PROOFS. Power: sources, grants, levels and shed steps. What each command does at its time and in its state, and that it does nothing otherwise. -/

namespace Sys2Proof.Machine

section
variable {s : State} {t : Tick} {src : Source} {since : Tick}

/-! ### Sources (R361 to R363) -/

theorem execSourcePresent_off (habsent : (s.at t).present src = false) (hoff : (s.at t).mode = .off) :
    let b := ((s.at t).roSet (srcKey src) 1).regrant
    execSourcePresent t src s = .next (if b.power.held = true then b else b.powerOn) :=
  (if_neg (ne_true_of_eq_false habsent)).trans (if_pos hoff)

theorem execSourcePresent_on (habsent : (s.at t).present src = false) (hon : (s.at t).mode ≠ .off) :
    execSourcePresent t src s = .next ((((s.at t).roSet (srcKey src) 1).raise Ev.source [u (srcCode src), u 1]).regrant).evalLevel :=
  (if_neg (ne_true_of_eq_false habsent)).trans (if_neg hon)

/-! ### Shed steps (R368) -/

theorem execShedUndo_fits (hfit : (s.at t).power.fitSince = some since) :
    execShedUndo t s =
      if (s.at t).mode = .running ∧ (s.at t).lastStep ≠ 0 ∧ (s.at t).power.undoing = none ∧ since + 10 * secondTicks ≤ (s.at t).now then
        .next ((s.at t).undoStep (s.at t).lastStep)
      else .next (s.at t) := by
  simp only [execShedUndo, hfit]

theorem execShedUndo_no_fit (hfit : (s.at t).power.fitSince = none) : execShedUndo t s = .next (s.at t) := by
  simp only [execShedUndo, hfit]

end

/-- Settles O57, command by command: the sources by whether they are present, the timed ones by whether their time has come. -/
theorem sourcesGrantsAndLevels : Obligations.SourcesGrantsAndLevels := by
  refine fun s t => ⟨?lostPort, fun hpresent => if_neg (ne_false_of_eq_true hpresent), fun src habsent => if_pos habsent,
    fun src => execSourcePresent_on, fun src => execSourcePresent_off, fun src hpresent => if_pos hpresent, fun p cls => rfl, fun p alloc hon => if_neg hon,
    fun p alloc hoff => if_pos hoff, ?pulse, fun hnot => if_pos hnot, fun hdue => congrArg _ (if_pos hdue), fun hearly => congrArg _ (if_neg (Nat.not_le.mpr hearly)),
    ?undo, ?noUndo⟩
  case lostPort =>
    intro p src hpresent
    cases p with
    | a => exact if_neg (ne_false_of_eq_true hpresent)
    | b => exact if_neg (ne_false_of_eq_true hpresent)
  case pulse => exact fun hon hdue => if_neg fun h => h.elim hon (Nat.not_lt.mpr hdue)
  case undo => exact fun since hfit hrun hstep hundoing hdue => (execShedUndo_fits hfit).trans (if_pos ⟨hrun, hstep, hundoing, hdue⟩)
  case noUndo =>
    intro hnot
    cases hfit : (s.at t).power.fitSince with
    | none => exact execShedUndo_no_fit hfit
    | some since =>
      refine (execShedUndo_fits hfit).trans (if_neg fun ⟨hrun, hstep, _⟩ => ?_)
      rcases hnot with h | h | h
      · exact Option.some_ne_none since (hfit.symm.trans h)
      · exact h hrun
      · exact hstep h

section
variable {s : State} {t : Tick} {since : Tick}

/-! ### BEDROCK and its end (R376, R388) -/

theorem execBedrockExit_clear (hclear : (s.at t).power.clearSince = some since) :
    execBedrockExit t s =
      if (s.at t).mode = .bedrock ∧ (s.at t).bedrockCauses = 0 ∧ since + (s.at t).pG K.powerBedrockExitS * secondTicks ≤ (s.at t).now then
        .next ((s.at t).enterRunning Cause.bedrockExit).evalLevel
      else .next (s.at t) := by
  simp only [execBedrockExit, hclear]

theorem execBedrockExit_not_clear (hclear : (s.at t).power.clearSince = none) : execBedrockExit t s = .next (s.at t) := by
  simp only [execBedrockExit, hclear]

/-- The case's temperature is watched in every state but OFF, GEODE and SAVE. -/
theorem execThermalThreshold_watched {which : Thermal} (hoff : (s.at t).mode ≠ .off) (hgeode : (s.at t).mode ≠ .geode) (hsave : (s.at t).mode ≠ .save) :
    let a := s.at t
    execThermalThreshold t which s = match which with
      | .warn => if a.power.warned = true then .next a else .next ((a.withPower { a.power with warned := true }).raiseSev Ev.thermal 2 [u 0])
      | .warnClear => .next (a.withPower { a.power with warned := false })
      | .bedrock =>
        let hot := a.withPower { a.power with hot := true }
        .next (if a.mode = .running then hot.enterBedrock hot.causesNow else if a.mode = .bedrock then hot.evalLevel else hot)
      | .bedrockClear =>
        let cool := a.withPower { a.power with hot := false }
        .next (if a.mode = .bedrock then cool.evalLevel else cool)
      | .fault => if a.mode.working = true then .next ((a.raiseSev Ev.thermal 3 [u 1]).enterFault Cause.thermal) else .next a := by
  intro a
  refine (if_neg fun h => h.elim hoff fun h => h.elim hgeode hsave).trans ?_
  cases which with
  | warn => rfl
  | warnClear => rfl
  | bedrock => rfl
  | bedrockClear => rfl
  | fault => rfl

end

/-- Settles O58, command by command; a threshold's command splits on which one it is. -/
theorem runningBedrockAndTheAlarms : Obligations.RunningBedrockAndTheAlarms := by
  refine fun s t => ⟨fun hready => if_pos hready, fun hnot => if_neg hnot, ?leave, ?stay, ?watched, fun which hnot => if_pos hnot, ?alarm, ?noAlarm⟩
  case leave => exact fun since hclear hbedrock hcauses hdue => (execBedrockExit_clear hclear).trans (if_pos ⟨hbedrock, hcauses, hdue⟩)
  case stay =>
    intro hnot
    cases hclear : (s.at t).power.clearSince with
    | none => exact execBedrockExit_not_clear hclear
    | some since =>
      refine (execBedrockExit_clear hclear).trans (if_neg fun ⟨hbedrock, hcauses, _⟩ => ?_)
      rcases hnot with h | h | h
      · exact Option.some_ne_none since (hclear.symm.trans h)
      · exact h hbedrock
      · exact h hcauses
  case watched =>
    intro hoff hgeode hsave hot cool
    have hwatched := fun which => execThermalThreshold_watched (which := which) hoff hgeode hsave
    exact ⟨fun hnew => (hwatched .warn).trans (if_neg (ne_true_of_eq_false hnew)), fun hold => (hwatched .warn).trans (if_pos hold), hwatched .warnClear,
      hwatched .bedrock, hwatched .bedrockClear, (hwatched .fault).trans (apply_ite Host.Outcome.next _ _ _).symm⟩
  case alarm =>
    exact fun hmeasuring hended => if_neg fun h => h.elim (fun hidle => ne_true_of_eq_false hidle hmeasuring) (Int.not_lt.mpr hended)
  case noAlarm => exact fun hnot => if_pos hnot

end Sys2Proof.Machine

/-! PROOFS. BOOT, faults, the save and the wakes from GEODE: what each command does in its state and at its time, and that it does nothing otherwise. -/

namespace Sys2Proof.Machine

section
variable {s : State} {t : Tick} {d : Tick} {external ok : Bool} {r : SaveRec} {n : Nat} {g : Geode}

/-! ### A trial image (R339) -/

theorem execFwTrialTimeout_of_deadline (hd : (s.at t).fw.trialDeadline = some d) :
    execFwTrialTimeout t s =
      .next (if (s.at t).fw.trial = true ∧ d ≤ (s.at t).now ∧ (s.at t).mode ≠ .off ∧ (s.at t).mode ≠ .save then (s.at t).enterBoot Cause.trial false
        else s.at t) := by
  simp only [execFwTrialTimeout, hd]

theorem execFwTrialTimeout_no_deadline (hd : (s.at t).fw.trialDeadline = none) : execFwTrialTimeout t s = .next (s.at t) := by
  simp only [execFwTrialTimeout, hd]

/-! ### Power failing (R385, R387, R426) -/

/-- The module with PFAIL_N held from outside where it is. -/
def State.pfailSeen (s : State) (external : Bool) : State := s.withPower { s.power with held := s.power.held || external }

/-- The module drives PFAIL_N. -/
def State.pfailDriven (s : State) : State := s.withPower { s.power with driven := true }

/-- Power fails: the module is neither off nor saving, and PFAIL_N is held from outside or no source is present. -/
def State.PowerFails (s : State) (external : Bool) : Prop := s.mode ≠ .off ∧ s.mode ≠ .save ∧ (external = true ∨ s.powered = false)

theorem State.PowerFails.not_held {b : State} (h : b.PowerFails external) : ¬ (b.mode = .off ∨ b.mode = .save) ∧ ¬ (external = false ∧ b.powered = true) := by
  obtain ⟨hoff, hsave, hpower⟩ := h
  refine ⟨not_or.mpr ⟨hoff, hsave⟩, fun ⟨hinside, hpowered⟩ => ?_⟩
  exact hpower.elim (ne_true_of_eq_false hinside) (ne_false_of_eq_true hpowered)

theorem execPfail_holds {b : State} (hb : (s.at t).pfailSeen external = b) (hnot : b.mode = .off ∨ b.mode = .save ∨ (external = false ∧ b.powered = true)) :
    execPfail t external s = .next b := by
  subst hb
  by_cases hout : ((s.at t).pfailSeen external).mode = .off ∨ ((s.at t).pfailSeen external).mode = .save
  · exact if_pos hout
  · exact (if_neg hout).trans (if_pos ((or_assoc.mpr hnot).resolve_left hout))

/-- What failing power comes to: GEODE's own record stands; else SAVE follows where the save is armed, and OFF where it is not. -/
def State.powerDown (c : State) : Out :=
  match if c.mode = .geode then c.power.geode else none with
  | some g => .next ((c.withPower { c.power with record := some (g.save, 0), geode := none }).setMode .off Cause.pfail)
  | none =>
    if c.armed then
      let d := (c.setMode .save Cause.pfail).shutDown c.mode
      .next (d.withPower { d.power with record := some ({ d.saveRec with time := c.stamp }, 1) })
    else
      let d := (c.setMode .off Cause.pfail).shutDown c.mode
      .next (d.withPower { d.power with record := some ({ c.saveRec with events := [] }, 1), stuck := false, recovery := false })

theorem State.powerDown_geode {c : State} (hmode : c.mode = .geode) (hg : c.power.geode = some g) :
    c.powerDown = .next ((c.withPower { c.power with record := some (g.save, 0), geode := none }).setMode .off Cause.pfail) := by
  rw [State.powerDown, if_pos hmode, hg]

theorem State.powerDown_armed {c d : State} (hmode : c.mode ≠ .geode) (harmed : c.armed = true) (hd : (c.setMode .save Cause.pfail).shutDown c.mode = d) :
    c.powerDown = .next (d.withPower { d.power with record := some ({ d.saveRec with time := c.stamp }, 1) }) := by
  subst hd
  rw [State.powerDown, if_neg hmode]
  exact if_pos harmed

theorem State.powerDown_not_armed {c d : State} (hmode : c.mode ≠ .geode) (harmed : c.armed = false) (hd : (c.setMode .off Cause.pfail).shutDown c.mode = d) :
    c.powerDown = .next (d.withPower { d.power with record := some ({ c.saveRec with events := [] }, 1), stuck := false, recovery := false }) := by
  subst hd
  rw [State.powerDown, if_neg hmode]
  exact if_neg (ne_true_of_eq_false harmed)

theorem execPfail_fails {b : State} (hb : (s.at t).pfailSeen external = b) (hfails : b.PowerFails external) :
    execPfail t external s = b.pfailDriven.powerDown := by
  subst hb
  obtain ⟨hrunning, hpower⟩ := hfails.not_held
  refine (if_neg hrunning).trans ((if_neg hpower).trans ?_)
  generalize hc : State.pfailDriven _ = c
  exact congrArg State.powerDown hc

/-! ### The save's end (R386, R387) -/

/-- After SAVE: BOOT where power has returned, else OFF. -/
def State.afterSave (s : State) : State := if s.powered = true ∧ s.power.held = false then s.enterBoot Cause.saveDone true else s.setMode .off Cause.saveDone

theorem execSaveComplete_record (hsave : (s.at t).mode = .save) (hr : (s.at t).power.record = some (r, n)) :
    let a := s.at t
    let good := (a.recordWritten r).withPower { (a.recordWritten r).power with record := some (r, 0) }
    let bad := a.withPower { a.power with record := some ({ r with events := [] }, 2), dirty := a.power.dirty.set (Port.ofIdx a.power.slot) (slotBlocks a.power.slot) }
    execSaveComplete t ok s = .next (((if ok = true then good else bad).logEntry 2 0 1 r.time []).afterSave) := by
  simp only [execSaveComplete, hsave, hr]
  rfl

theorem execSaveComplete_not_saving (hmode : (s.at t).mode ≠ .save) : execSaveComplete t ok s = .next (s.at t) := by
  unfold execSaveComplete
  extract_lets a
  split
  next hsave _ => exact absurd hsave hmode
  · rfl

end

/-- Settles O59, command by command; failing power splits on the state and on whether the save is armed, a save's end on whether the record was written. -/
theorem bootFaultAndSave : Obligations.BootFaultAndSave := by
  refine fun s t => ⟨?boot, fun obs hnot => if_pos hnot, ⟨fun hdue => if_pos hdue, fun hnot => if_neg hnot⟩, fun hoff hsave => congrArg _ (if_neg (not_or.mpr ⟨hoff, hsave⟩)),
    fun hnot => congrArg _ (if_pos hnot), ?lockstep, fun hnot => congrArg _ (if_pos hnot), ?trial, ?noTrial, ?pfail, ?saved, fun ok => execSaveComplete_not_saving,
    fun hheld => if_neg (ne_false_of_eq_true hheld), fun hfree => if_pos hfree, fun uf mv hon => if_neg hon, fun uf mv hoff => if_pos hoff⟩
  case boot =>
    exact fun obs hboot hstuck hrecovery =>
      if_neg (not_or.mpr ⟨not_not_intro hboot, not_or.mpr ⟨ne_true_of_eq_false hstuck, ne_true_of_eq_false hrecovery⟩⟩)
  case lockstep =>
    exact fun hoff hsave hstuck => congrArg _ (if_neg (not_or.mpr ⟨hoff, not_or.mpr ⟨hsave, ne_true_of_eq_false hstuck⟩⟩))
  case trial =>
    exact fun d hd htrial hdue hoff hsave => (execFwTrialTimeout_of_deadline hd).trans (congrArg _ (if_pos ⟨htrial, hdue, hoff, hsave⟩))
  case noTrial =>
    intro hnot
    cases hd : (s.at t).fw.trialDeadline with
    | none => exact execFwTrialTimeout_no_deadline hd
    | some d =>
      have htrial : (s.at t).fw.trial = false := hnot.resolve_left (hd ▸ Option.some_ne_none d)
      exact (execFwTrialTimeout_of_deadline hd).trans (congrArg _ (if_neg fun h => ne_true_of_eq_false htrial h.1))
  case pfail =>
    intro external b c
    refine ⟨execPfail_holds rfl, fun g hgeode hpower hg => ?_, fun hoff hsave hgeode hpower harmed => ?_, fun hoff hsave hgeode hpower harmed => ?_⟩
    · exact (execPfail_fails rfl ⟨hgeode ▸ nofun, hgeode ▸ nofun, hpower⟩).trans (State.powerDown_geode hgeode hg)
    · intro d
      exact (execPfail_fails rfl ⟨hoff, hsave, hpower⟩).trans (State.powerDown_armed hgeode harmed rfl)
    · intro d
      exact (execPfail_fails rfl ⟨hoff, hsave, hpower⟩).trans (State.powerDown_not_armed hgeode harmed rfl)
  case saved => exact fun r n hsave hr => ⟨execSaveComplete_record hsave hr, execSaveComplete_record hsave hr⟩

section
variable {s : State} {t : Tick} {shorts : List (Nat × Nat)} {g : Geode} {h : Hdr} {udp : Nat} {link p : Port} {since : Tick} {up : Bool}

/-! ### Waking (R380, R382) -/

/-- A comparator's input stands beyond its threshold, in the direction of its polarity. -/
theorem comparator_beyond_iff {polarity limit mv : Nat} :
    (if polarity = 0 then decide (limit < mv) else decide (mv < limit)) = true ↔ if polarity = 0 then limit < mv else mv < limit := by
  split
  · exact decide_eq_true_iff
  · exact decide_eq_true_iff

theorem execWakeTimer_geode (hg : (s.at t).power.geode = some g) :
    execWakeTimer t shorts s = .next (if (s.at t).wakes 3 = true ∧ g.wake ≤ (s.at t).stamp then (s.at t).wakeUp 3 shorts else s.at t) := by
  simp only [execWakeTimer, hg]

theorem execWakeDatagram_geode (hg : (s.at t).power.geode = some g) :
    execWakeDatagram t h udp link shorts s =
      .next (if (s.at t).wakes 4 = true ∧ g.deep = false ∧ g.kept = some link ∧ ((s.at t).link link).up = true ∧ udp = (s.at t).geodePar K.ncpTcpPort ∧
          h.version = 1 ∧ h.kind = 0 ∧ h.bodyLen = 0 ∧ (s.at t).checkOk h 0x0084 [] = true
        then (s.at t).wakeUp 4 shorts else s.at t) := by
  simp only [execWakeDatagram, hg]

theorem execGrantWake_geode (hg : (s.at t).power.geode = some g) (hsince : (s.at t).power.grantSince = some since) :
    execGrantWake t shorts s =
      .next (if (s.at t).mode = .geode ∧ g.grant = true ∧ since + secondTicks ≤ (s.at t).now then (s.at t).wakeUp 5 shorts else s.at t) := by
  simp only [execGrantWake, hg, hsince]

theorem execWakeTimer_no_geode (hg : (s.at t).power.geode = none) : execWakeTimer t shorts s = .next (s.at t) := by
  simp only [execWakeTimer, hg]

theorem execWakeDatagram_no_geode (hg : (s.at t).power.geode = none) : execWakeDatagram t h udp link shorts s = .next (s.at t) := by
  simp only [execWakeDatagram, hg]

theorem execGrantWake_no_geode (hg : (s.at t).power.geode = none) : execGrantWake t shorts s = .next (s.at t) := by
  simp only [execGrantWake, hg]

theorem execGeodeLinkTry_no_geode (hg : (s.at t).power.geode = none) : execGeodeLinkTry t p up s = .next (s.at t) := by
  simp only [execGeodeLinkTry, hg]

/-- The port being tried comes up, or its time is over and the other is tried. -/
theorem execGeodeLinkTry_trying (hg : (s.at t).power.geode = some g) (htrying : g.trying = some (p, since)) (hmode : (s.at t).mode = .geode) :
    execGeodeLinkTry t p up s =
      if up = true then
        let b := (s.at t).setLink p { (s.at t).link p with up := true, gigabit := true, since := (s.at t).now }
        .next (b.withPower { b.power with geode := some { g with kept := some p, trying := none, down := none } })
      else if since + 10 * secondTicks ≤ (s.at t).now then
        .next ((s.at t).withPower { (s.at t).power with geode := some { g with trying := some (p.other, (s.at t).now) } })
      else .next (s.at t) := by
  simp only [execGeodeLinkTry, hg, htrying, hmode, ne_eq, not_true_eq_false, or_self, if_false]

end

/-- Settles O60, source by source: each wakes the module where its bit is set and its condition holds. -/
theorem geodeWakesOnItsSources : Obligations.GeodeWakesOnItsSources := by
  refine fun s t shorts => ⟨rfl, fun x mv us => ⟨?beyond, ?within⟩, fun g hg => ⟨?timer, ?noTimer, ?datagram, ?noDatagram, ?grant, ?noGrant, ?tried⟩, fun hg => ?awake⟩
  case beyond => exact fun hwakes hbeyond hlong => congrArg _ (if_pos ⟨hwakes, comparator_beyond_iff.mpr hbeyond, hlong⟩)
  case within =>
    refine fun hnot => congrArg _ (if_neg fun ⟨hwakes, hbeyond, hlong⟩ => ?_)
    rcases hnot with h | h | h
    · exact ne_true_of_eq_false h hwakes
    · exact h (comparator_beyond_iff.mp hbeyond)
    · exact Nat.not_le.mpr h hlong
  case timer => exact fun hwakes hdue => (execWakeTimer_geode hg).trans (congrArg _ (if_pos ⟨hwakes, hdue⟩))
  case noTimer =>
    exact fun hnot => (execWakeTimer_geode hg).trans (congrArg _ (if_neg fun h => hnot.elim (fun hoff => ne_true_of_eq_false hoff h.1) (Int.not_lt.mpr h.2)))
  case datagram =>
    exact fun h udp link hwakes hdeep hkept hup hport hversion hkind hlen hcheck =>
      (execWakeDatagram_geode hg).trans (congrArg _ (if_pos ⟨hwakes, hdeep, hkept, hup, hport, hversion, hkind, hlen, hcheck⟩))
  case noDatagram =>
    refine fun h udp link hnot => (execWakeDatagram_geode hg).trans (congrArg _ (if_neg fun ⟨hwakes, _, hkept, _, hport, _, _, _, hcheck⟩ => ?_))
    rcases hnot with h | h | h | h
    · exact ne_true_of_eq_false h hwakes
    · exact h hkept
    · exact h hport
    · exact ne_true_of_eq_false h hcheck
  case grant => exact fun since hsince hmode hgrant hdue => (execGrantWake_geode hg hsince).trans (congrArg _ (if_pos ⟨hmode, hgrant, hdue⟩))
  case noGrant =>
    refine fun since hsince hnot => (execGrantWake_geode hg hsince).trans (congrArg _ (if_neg fun ⟨_, hgrant, hdue⟩ => ?_))
    exact hnot.elim (fun hno => ne_true_of_eq_false hno hgrant) (Nat.not_lt.mpr hdue)
  case tried =>
    refine fun p since htrying hmode => ⟨?_, fun hover => ?_, fun hearly => ?_⟩
    · exact (execGeodeLinkTry_trying hg htrying hmode).trans (if_pos rfl)
    · exact (execGeodeLinkTry_trying hg htrying hmode).trans ((if_neg Bool.false_ne_true).trans (if_pos hover))
    · exact (execGeodeLinkTry_trying hg htrying hmode).trans ((if_neg Bool.false_ne_true).trans (if_neg (Nat.not_le.mpr hearly)))
  case awake =>
    exact ⟨execWakeTimer_no_geode hg, execGrantWake_no_geode hg, fun _ _ _ => execWakeDatagram_no_geode hg, fun _ _ => execGeodeLinkTry_no_geode hg⟩

end Sys2Proof.Machine

/-! PROOFS. Ensembles: members that come and go, transactions, and the agreement on time. What each command does where it may act, and that it does nothing otherwise. -/

namespace Sys2Proof.Machine

section
variable {s : State} {t : Tick} {id : BitVec 64} {m : Heartbeat} {x : Member} {members : List (BitVec 64)}

/-! ### Members (R341 to R344) -/

/-- What a heartbeat of the ensemble makes of its sender: a member refreshed, or a module admitted. -/
def State.beaten (s : State) (m : Heartbeat) : State :=
  match s.member m.id with
  | none => s.enlist m
  | some x => (s.setMember { x with hb := some m, heard := s.now, heardAt := s.stamp, absent := none }).ensRefresh

theorem State.heartbeat_judged {a : State} (hserved : a.peersServed = true) (hcheck : m.checkOk = true) (hid : m.id ≠ a.moduleId) :
    ¬ (a.peersServed = false ∨ m.checkOk = false ∨ m.id = a.moduleId) :=
  not_or.mpr ⟨ne_false_of_eq_true hserved, not_or.mpr ⟨ne_false_of_eq_true hcheck, hid⟩⟩

theorem execHeartbeat_own {b : State} (hjudged : ¬ ((s.at t).peersServed = false ∨ m.checkOk = false ∨ m.id = (s.at t).moduleId))
    (hens : m.ensId.toNat = (s.at t).ensId) (hb : (s.at t).beaten m = b) :
    execHeartbeat t m s =
      .next (if (b.member m.id).isSome = true ∧ m.tableDigest ≠ Config.tableDigest b.tableIds then b.sendTable m.id else b) := by
  subst hb
  exact (if_neg hjudged).trans (if_neg (not_not_intro hens))

theorem execHeartbeat_other (hjudged : ¬ ((s.at t).peersServed = false ∨ m.checkOk = false ∨ m.id = (s.at t).moduleId))
    (hens : m.ensId.toNat ≠ (s.at t).ensId) :
    execHeartbeat t m s = .next (if ((s.at t).member m.id).isSome = true then (s.at t).dropMember m.id else s.at t) :=
  (if_neg hjudged).trans (if_pos hens)

theorem any_not_contains_iff {ids : List (BitVec 64)} : ids.any (fun id => !(members.contains id)) = true ↔ ∃ x ∈ ids, x ∉ members := by
  simp only [List.any_eq_true, Bool.not_eq_true', List.contains_eq_mem, decide_eq_false_iff_not]

/-- A table brings contact with the modules it lists that are unknown. -/
def State.tableSeen (s : State) (id : BitVec 64) (members : List (BitVec 64)) : State :=
  let b := (s.heardFrom id).useConn id
  (members.filter (fun x => decide (x ≠ b.moduleId) && (b.member x).isNone)).foldl State.contact b

theorem execTable_served (hserved : (s.at t).peersServed = true) (hid : id ≠ (s.at t).moduleId) :
    let c := (s.at t).tableSeen id members
    execTable t id members s = .next (if ∃ x ∈ c.tableIds, x ∉ members then c.sendTable id else c) :=
  (if_neg (not_or.mpr ⟨ne_false_of_eq_true hserved, hid⟩)).trans (congrArg _ (if_congr any_not_contains_iff rfl rfl))

theorem execPeerConnectionIdle_unused {peer : BitVec 64} {used : Tick} (hconn : (peer, used) ∈ (s.at t).ens.conns) (hlong : used + 60 * secondTicks ≤ (s.at t).now) :
    execPeerConnectionIdle t peer s =
      .next (((s.at t).withEns { (s.at t).ens with conns := (s.at t).ens.conns.filter (fun e => !(e.1 == peer)) }).emit (.closed 7)) := by
  refine if_pos (List.any_eq_true.mpr ⟨(peer, used), hconn, ?_⟩)
  rw [beq_self_eq_true, Bool.true_and]
  exact decide_eq_true hlong

theorem execMemberLost_member (hx : (s.at t).member id = some x) :
    execMemberLost t id s =
      .next (if (s.at t).peersServed = true ∧ x.absent = none ∧ x.heard + (s.at t).pG K.ensLostS * secondTicks ≤ (s.at t).now then
        ((s.at t).setMember { x with absent := some (s.at t).now }).ensRefresh else s.at t) := by
  simp only [execMemberLost, hx]

theorem execMemberForget_absent {gone : Tick} (hx : (s.at t).member id = some x) (hgone : x.absent = some gone) :
    execMemberForget t id s =
      .next (if gone + (s.at t).pG K.ensForgetS * secondTicks ≤ (s.at t).now then (s.at t).dropMember id else s.at t) := by
  simp only [execMemberForget, hx, hgone, Option.bind_some]

end

/-- Settles O32, command by command; a heartbeat splits on the ensemble it names, the others on whether their time has come. -/
theorem membersComeAndGo : Obligations.MembersComeAndGo := by
  refine fun s t => ⟨fun id addr hserved hid => congrArg _ (if_pos ⟨hserved, hid⟩), ?notFound, ?heartbeat, ?left, fun m hcheck => if_pos (.inr (.inl hcheck)), ?send, ?sendEarly,
    ?table, fun peer used => execPeerConnectionIdle_unused, ?lost, ?heard, ?forget, ?keep⟩
  case notFound =>
    exact fun id addr hnot => congrArg _ (if_neg fun h => hnot.elim (fun hoff => ne_true_of_eq_false hoff h.1) h.2)
  case heartbeat => exact fun m hserved hcheck hid hens => execHeartbeat_own (State.heartbeat_judged hserved hcheck hid) hens rfl
  case left => exact fun m hserved hcheck hid hens => execHeartbeat_other (State.heartbeat_judged hserved hcheck hid) hens
  case send => exact fun hserved hdue => if_neg (not_or.mpr ⟨ne_false_of_eq_true hserved, Nat.not_lt.mpr hdue⟩)
  case sendEarly => exact fun hearly => if_pos (.inr hearly)
  case table => exact fun id members => execTable_served
  case lost => exact fun id m hserved hm hhere hlong => (execMemberLost_member hm).trans (congrArg _ (if_pos ⟨hserved, hhere, hlong⟩))
  case heard => exact fun id m hm hearly => (execMemberLost_member hm).trans (congrArg _ (if_neg fun h => Nat.not_le.mpr hearly h.2.2))
  case forget => exact fun id m gone hm hgone hlong => (execMemberForget_absent hm hgone).trans (congrArg _ (if_pos hlong))
  case keep => exact fun id m gone hm hgone hearly => (execMemberForget_absent hm hgone).trans (congrArg _ (if_neg (Nat.not_le.mpr hearly)))

section
variable {s : State} {t : Tick} {id coordinator : BitVec 64} {txn epoch : Nat} {m : Prepare} {v : VoteMsg} {c : Coord} {x : Member} {p : Prepared} {commit : Bool}

/-! ### Transactions (R349 to R352) -/

theorem State.prepare_judged {a : State} (hserved : a.peersServed = true) (hcheck : m.checkOk = true) (hx : a.member m.coordinator = some x) :
    ¬ (a.peersServed = false ∨ m.checkOk = false ∨ (a.member m.coordinator).isNone = true) :=
  not_or.mpr ⟨ne_false_of_eq_true hserved, not_or.mpr ⟨ne_false_of_eq_true hcheck, by rw [hx]; exact Bool.false_ne_true⟩⟩

/-- The vote this module has given on a transaction. -/
def State.votedOn (s : State) (coordinator : BitVec 64) (txn : Nat) : Option (BitVec 64 × Nat × VoteMsg) :=
  s.ens.voted.find? (fun e => e.1 == coordinator && e.2.1 == txn)

theorem execPrepare_new {b : State} (hjudged : ¬ ((s.at t).peersServed = false ∨ m.checkOk = false ∨ ((s.at t).member m.coordinator).isNone = true))
    (hb : (s.at t).heardFrom m.coordinator = b) (hnew : b.votedOn m.coordinator m.txn = none) :
    let r := b.joinTxn m.coordinator m.txn m.named (stampOfBits (TS96bits m.deadline)) m.draftRev m.major
    execPrepare t m s = .next (r.1.sendPeer m.coordinator 0xF4 (voteBody r.2.1 r.2.2)) := by
  subst hb
  unfold State.votedOn at hnew
  simp only [execPrepare, if_neg hjudged, hnew]

theorem execPrepare_again {b : State} {e : BitVec 64 × Nat × VoteMsg}
    (hjudged : ¬ ((s.at t).peersServed = false ∨ m.checkOk = false ∨ ((s.at t).member m.coordinator).isNone = true))
    (hb : (s.at t).heardFrom m.coordinator = b) (hagain : b.votedOn m.coordinator m.txn = some e) :
    execPrepare t m s = .next (b.sendPeer m.coordinator 0xF4 (voteBody e.2.2 (if e.2.2.result = 0 then [] else errorBody 0xFFFF "" ""))) := by
  subst hb
  unfold State.votedOn at hagain
  simp only [execPrepare, if_neg hjudged, hagain]

theorem execVote_counted {b : State} (hjudged : ¬ ((s.at t).peersServed = false ∨ v.checkOk = false)) (hb : (s.at t).heardFrom v.member = b)
    (hc : b.ens.coord = some c) (htxn : c.txn = v.txn) (hmissing : v.member ∈ c.missing) (hx : b.member v.member = some x) (hstatus : x.status ≠ 2) :
    execVote t v s = .next (b.withEns { b.ens with coord := some { c with votes := c.votes ++ [v] } }).decideIfAll := by
  subst hb
  have hcontains : c.missing.contains v.member = true := List.contains_iff_mem.mpr hmissing
  have hobserver : (x.status == 2) = false := beq_eq_false_iff_ne.mpr hstatus
  simp only [execVote, if_neg hjudged, hc, hx, Option.map_some, Option.getD_some, hobserver, hcontains, htxn, and_self, if_true]

theorem execVote_no_transaction {b : State} (hjudged : ¬ ((s.at t).peersServed = false ∨ v.checkOk = false)) (hb : (s.at t).heardFrom v.member = b)
    (hc : b.ens.coord = none) : execVote t v s = .next b := by
  subst hb
  simp only [execVote, if_neg hjudged, hc]

theorem execPrepareDeadline_coord (hc : (s.at t).ens.coord = some c) :
    execPrepareDeadline t s = .next (if c.deadline ≤ (s.at t).stamp then (s.at t).decideTxn c else s.at t) := by
  simp only [execPrepareDeadline, hc]

theorem execDecide_prepared {b : State} (hserved : (s.at t).peersServed = true) (hb : (s.at t).heardFrom id = b) (hp : b.preparedFor id txn = some p) :
    execDecide t id txn commit epoch s = .next (b.closeTxn p commit epoch) := by
  subst hb
  simp only [execDecide, if_neg (ne_false_of_eq_true hserved), hp]

theorem execOutcome_query (hserved : (s.at t).peersServed = true) :
    let b := (s.at t).heardFrom id
    execOutcome t coordinator txn id none s = .next (b.sendPeer id 0xF6 (le 4 txn ++ le 1 (b.outcomeOf coordinator txn))) :=
  if_neg (ne_false_of_eq_true hserved)

theorem execOutcome_commit {b : State} (hserved : (s.at t).peersServed = true) (hb : (s.at t).heardFrom id = b) (hp : b.preparedFor coordinator txn = some p)
    (hasked : p.asked = true) : execOutcome t coordinator txn id (some 0) s = .next (b.drawn.closeTxn p true (b.freeVal 32)) := by
  subst hb
  simp only [execOutcome, if_neg (ne_false_of_eq_true hserved), hp, hasked]
  rfl

theorem execOutcome_abort {b : State} (hserved : (s.at t).peersServed = true) (hb : (s.at t).heardFrom id = b) (hp : b.preparedFor coordinator txn = some p)
    (hasked : p.asked = true) : execOutcome t coordinator txn id (some 1) s = .next (b.closeTxn p false 0) := by
  subst hb
  simp only [execOutcome, if_neg (ne_false_of_eq_true hserved), hp, hasked]
  rfl

theorem execOutcomeQuery_due (hp : (s.at t).ens.prepared = some p) (hasked : p.asked = false) (hdue : p.instant - secondUnits / 4 ≤ (s.at t).stamp) :
    execOutcomeQuery t s = .next ((p.coordinator :: ((s.at t).ens.members.map (·.id)).filter (fun id => !(id == p.coordinator))).foldl
      (fun b id => b.sendPeer id 0xF6 (le 4 p.txn)) ((s.at t).withEns { (s.at t).ens with prepared := some { p with asked := true } })) := by
  simp only [execOutcomeQuery, hp]
  exact if_pos ⟨hasked, hdue⟩

theorem execInDoubtTimeout_prepared (hp : (s.at t).ens.prepared = some p) :
    execInDoubtTimeout t s =
      if p.instant - secondUnits / 10 ≤ (s.at t).stamp then .next (((s.at t).unfreeze 4).raiseSev Ev.ensInDoubt 2 [.u64 p.coordinator, u p.txn])
      else .next (s.at t) := by
  simp only [execInDoubtTimeout, hp]

end

/-- Settles O33, message by message and deadline by deadline. -/
theorem transactionsRunTheirCourse : Obligations.TransactionsRunTheirCourse := by
  refine fun s t => ⟨?prepare, ?prepareAgain, ?stranger, ?vote, ?noVote, ?decided, ?undecided, ?closes, fun coordinator txn id => execOutcome_query, ?outcome, ?query, ?doubt,
    ?noDoubt⟩
  case prepare => exact fun m x hserved hcheck hx hnew => execPrepare_new (State.prepare_judged hserved hcheck hx) rfl hnew
  case prepareAgain => exact fun m x e hserved hcheck hx hagain => execPrepare_again (State.prepare_judged hserved hcheck hx) rfl hagain
  case stranger => exact fun m hserved hnone => if_pos (.inr (.inr (Option.isNone_iff_eq_none.mpr hnone)))
  case vote =>
    exact fun m c x hserved hcheck hc htxn hmissing hx hstatus =>
      execVote_counted (not_or.mpr ⟨ne_false_of_eq_true hserved, ne_false_of_eq_true hcheck⟩) rfl hc htxn hmissing hx hstatus
  case noVote =>
    exact fun m hserved hcheck hc => execVote_no_transaction (not_or.mpr ⟨ne_false_of_eq_true hserved, ne_false_of_eq_true hcheck⟩) rfl hc
  case decided => exact fun c hc hdue => (execPrepareDeadline_coord hc).trans (congrArg _ (if_pos hdue))
  case undecided => exact fun c hc hearly => (execPrepareDeadline_coord hc).trans (congrArg _ (if_neg (Int.not_le.mpr hearly)))
  case closes => exact fun id txn commit epoch p hserved hp => execDecide_prepared hserved rfl hp
  case outcome =>
    exact fun coordinator txn id p hserved hp hasked => ⟨execOutcome_commit hserved rfl hp hasked, execOutcome_abort hserved rfl hp hasked⟩
  case query => exact fun p hp hasked hdue => execOutcomeQuery_due hp hasked hdue
  case doubt => exact fun p hp hdue => (execInDoubtTimeout_prepared hp).trans (if_pos hdue)
  case noDoubt => exact fun p hp hearly => (execInDoubtTimeout_prepared hp).trans (if_neg (Int.not_le.mpr hearly))

section
variable {s : State} {t : Tick} {id : BitVec 64} {t1 t2 t3 t4 : Stamp} {x m : Member} {p : Port} {ps : List Port}

/-! ### Time (R355, R356) -/

theorem execTimecheck_member {b : State} (hserved : (s.at t).peersServed = true) (hx : (s.at t).member id = some x) (hb : (s.at t).heardFrom id = b)
    (hm : b.member id = some m) :
    execTimecheck t id t1 t2 t3 t4 s =
      .next (b.setMember { m with checks := ((((t2 - t1) - (t4 - t3)) / 2, (t4 - t1) - (t3 - t2)) :: m.checks).take 8 }) := by
  subst hb
  simp only [execTimecheck, hx, if_neg (ne_false_of_eq_true hserved), hm]

/-- What is done every second to peers is due. -/
theorem State.second_over {a : State} {since : Tick} (hserved : a.peersServed = true) (hdue : since + secondTicks ≤ a.now) :
    ¬ (a.peersServed = false ∨ a.now < since + secondTicks) :=
  not_or.mpr ⟨ne_false_of_eq_true hserved, Nat.not_lt.mpr hdue⟩

theorem execTimecheckSend_up (hserved : (s.at t).peersServed = true) (hdue : (s.at t).ens.checkAt + secondTicks ≤ (s.at t).now) (hlinks : (s.at t).linksUp = p :: ps) :
    execTimecheckSend t s = .next ((s.at t).ens.members.foldl (fun b m => b.emit (.peer (some p) m.id 0xF1 (b.peerMessage b.ensId 0xF1 (tsBytes b.stamp))))
      ((s.at t).withEns { (s.at t).ens with checkAt := (s.at t).now })) := by
  have hup : ((s.at t).withEns { (s.at t).ens with checkAt := (s.at t).now }).linksUp = p :: ps := hlinks
  simp only [execTimecheckSend, if_neg (State.second_over hserved hdue), hup]
  rfl

theorem execTimecheckSend_down (hserved : (s.at t).peersServed = true) (hdue : (s.at t).ens.checkAt + secondTicks ≤ (s.at t).now) (hlinks : (s.at t).linksUp = []) :
    execTimecheckSend t s = .next ((s.at t).withEns { (s.at t).ens with checkAt := (s.at t).now }) := by
  have hdown : ((s.at t).withEns { (s.at t).ens with checkAt := (s.at t).now }).linksUp = [] := hlinks
  simp only [execTimecheckSend, if_neg (State.second_over hserved hdue), hdown]

end

/-- Settles O34, command by command; the evaluation of each second splits on how many peers are near. -/
theorem ensembleTimeAndCaptures : Obligations.EnsembleTimeAndCaptures := by
  refine fun s t => ⟨fun id t1 t2 t3 t4 x m hserved hx hm => execTimecheck_member hserved hx rfl hm, fun p ps => execTimecheckSend_up, execTimecheckSend_down, ?evaluation,
    fun id txn result capture hserved => congrArg _ (if_pos hserved), rfl, ?unserved⟩
  case evaluation =>
    intro hserved hdue peers n b dev ps above within c state
    have hjudged := State.second_over hserved hdue
    refine ⟨fun hfew => (if_neg hjudged).trans (if_pos hfew), fun htwo => ?_⟩
    refine ((if_neg hjudged).trans (if_neg (Nat.not_lt.mpr htwo))).trans ?_
    simp only [decide_eq_true_eq]
    rfl
  case unserved =>
    exact fun hoff => ⟨if_pos (.inl hoff), if_pos (.inl hoff), fun _ _ _ _ => congrArg _ (if_neg (ne_true_of_eq_false hoff))⟩

end Sys2Proof.Machine

/-! PROOFS. Health and tests: the life account, telemetry, flash and wavelength, and how tests of the module and of its links end. What each command does at its time, and that it does
nothing before it. -/

namespace Sys2Proof.Machine

section
variable {s : State} {t : Tick} {link bits errors : Nat} {y : LinkTest} {e : Tick}

/-! ### The life account (R409) -/

theorem not_whole_hour {since now : Nat} (hearly : now < since + hourTicks) : ¬ 1 ≤ (now - since) / hourTicks := by
  have hpos : 0 < hourTicks := by decide
  rw [Nat.one_le_div_iff hpos]
  omega

/-! ### Link tests (R407) -/

/-- A link's test has ended with these counts. -/
def State.linkCounted (s : State) (link bits errors : Nat) (y : LinkTest) : State :=
  s.withHealth { s.health with linkTests := s.health.linkTests.set link (some { y with until_ := none, bits := bits, errors := errors }) }

theorem execLinkTestEnd_over (htest : (s.at t).linkTest link = some y) (huntil : y.until_ = some e) (hover : e ≤ (s.at t).now) :
    execLinkTestEnd t link bits errors s =
      let b := (s.at t).linkCounted link bits errors y
      match y.port with
      | some (p, true) => .next ((b.setLink p { b.link p with up := true, since := b.now }).moveTo p)
      | _ => .next b := by
  simp only [execLinkTestEnd, htest, huntil, if_pos hover]
  rfl

theorem execLinkTestEnd_running (htest : (s.at t).linkTest link = some y) (huntil : y.until_ = some e) (hnot : (s.at t).now < e) :
    execLinkTestEnd t link bits errors s = .next (s.at t) := by
  simp only [execLinkTestEnd, htest, huntil, if_neg (Nat.not_le.mpr hnot)]

theorem execLinkTestEnd_no_port_up (htest : (s.at t).linkTest link = some y) (huntil : y.until_ = some e) (hover : e ≤ (s.at t).now)
    (hport : ∀ p, y.port ≠ some (p, true)) :
    execLinkTestEnd t link bits errors s = .next ((s.at t).linkCounted link bits errors y) := by
  rw [execLinkTestEnd_over htest huntil hover]
  match hp : y.port with
  | none => rfl
  | some (p, false) => rfl
  | some (p, true) => exact absurd hp (hport p)

theorem execLinkTestEnd_port_up {p : Port} (htest : (s.at t).linkTest link = some y) (huntil : y.until_ = some e) (hover : e ≤ (s.at t).now)
    (hport : y.port = some (p, true)) :
    execLinkTestEnd t link bits errors s =
      let b := (s.at t).linkCounted link bits errors y
      .next ((b.setLink p { b.link p with up := true, since := b.now }).moveTo p) := by
  rw [execLinkTestEnd_over htest huntil hover, hport]

end

/-- Settles O35: each record's guard, read at the step's tick. -/
theorem healthRecordsAreKept : Obligations.HealthRecordsAreKept := by
  refine fun s t => ⟨?erase, ?noErase, ?record, ?noRecord, ?hourly, ?noHourly, ?life, ?noLife, ?wavelength, ?noWavelength⟩
  case erase =>
    exact fun block ok hworking hblock hused =>
      if_neg (not_or.mpr ⟨ne_false_of_eq_true hworking, not_or.mpr ⟨Nat.not_le.mpr hblock, Nat.not_le.mpr hused⟩⟩)
  case noErase => exact fun block ok h => if_pos h
  case record => exact fun hworking hdue => if_pos ⟨hworking, hdue⟩
  case noRecord => exact fun hearly => if_neg fun h => Nat.not_lt.mpr h.2 hearly
  case hourly => exact fun hworking hdue => if_pos ⟨hworking, hdue⟩
  case noHourly => exact fun hearly => if_neg fun h => Nat.not_lt.mpr h.2 hearly
  case life =>
    rintro n hworking rfl hhour
    exact if_pos ⟨hworking, hhour⟩
  case noLife => exact fun hearly => if_neg fun h => not_whole_hour hearly h.2
  case wavelength => exact fun khz hworking hdue => if_pos ⟨hworking, hdue⟩
  case noWavelength => exact fun khz hearly => if_neg fun h => Nat.not_lt.mpr h.2 hearly

/-- Settles O36: the guard of each test's end, and for a link's end whether its port was up before. -/
theorem testsEndWithTheirResults : Obligations.TestsEndWithTheirResults := by
  refine fun s t => ⟨?selftest, ?noSelftest, ?linkEnd, ?linkEndUp, ?linkRuns, ?linkErrors, ?noLinkErrors⟩
  case selftest => exact fun failed details hrunning hover => if_pos ⟨hrunning, hover⟩
  case noSelftest =>
    exact fun failed details h => if_neg fun hends =>
      h.elim (ne_false_of_eq_true hends.1) (Nat.not_lt.mpr hends.2)
  case linkEnd => exact fun link bits errors y e htest huntil hover hport => execLinkTestEnd_no_port_up htest huntil hover hport
  case linkEndUp => exact fun link bits errors y e p htest huntil hover hport => execLinkTestEnd_port_up htest huntil hover hport
  case linkRuns => exact fun link bits errors y e htest huntil hnot => execLinkTestEnd_running htest huntil hnot
  case linkErrors => exact fun link errors hmode hlink hdue => if_pos ⟨hmode, hlink, hdue⟩
  case noLinkErrors =>
    exact fun link errors h => if_neg fun ⟨hmode, hlink, hdue⟩ =>
      h.elim (absurd hmode) fun h' => h'.elim (Nat.not_le.mpr hlink) (Nat.not_lt.mpr hdue)

end Sys2Proof.Machine

/-! PROOFS. Requests that change the configuration and the module's state. Each command's body, where the request is admitted and the command may act; what is sent then follows from
`request_ok`, `request_err` and `request_later`. -/

namespace Sys2Proof.Machine

section
variable {s : State} {h : Hdr} {entries : List Entry} {rev : BitVec 32} {mode : Nat} {named : TS96}

theorem state_ne_busy : E.state ≠ E.busy := by decide

/-! ### Configuration (R278, R324 to R327) -/

/-- CFG_SET finds a draft that may change and a list it can read. -/
theorem State.cfgSet_reads (hfree : s.cfg.frozen = false) (hsome : entries ≠ []) (hfew : entries.length ≤ 256)
    (hformed : entries.all (fun e => pathFits e.path && Val.formed e.val) = true) :
    s.cfgSet entries = match setEntries 0 entries s.cfg.draft with
      | .inl bad => (s, .err bad.1 bad.2.1 bad.2.2 "")
      | .inr d =>
        let s1 := s.setDraft d
        let s2 : State := { s1 with cfg := { s1.cfg with wroteRole := s1.cfg.wroteRole || entries.any (fun e => keyOfPath e.path == some K.schedLockRole) } }
        (s2, .ok (le 4 s2.cfg.draftRev) false) :=
  (if_neg (ne_true_of_eq_false hfree)).trans
    ((if_neg (not_or.mpr ⟨hsome, not_or.mpr ⟨Nat.not_lt.mpr hfew, ne_false_of_eq_true hformed⟩⟩)).trans rfl)

/-- The draft takes a set, and remembers whether it has been given sched.lock.role. -/
def State.draftTakes (s : State) (role : Bool) (d : PSet) : State :=
  { s.setDraft d with cfg := { (s.setDraft d).cfg with wroteRole := role } }

theorem State.cfgSet_all {d : PSet} (hfree : s.cfg.frozen = false) (hsome : entries ≠ []) (hfew : entries.length ≤ 256)
    (hformed : entries.all (fun e => pathFits e.path && Val.formed e.val) = true) (hset : setEntries 0 entries s.cfg.draft = .inr d) :
    s.cfgSet entries = (s.draftTakes (s.cfg.wroteRole || entries.any (fun e => keyOfPath e.path == some K.schedLockRole)) d,
      .ok (le 4 ((s.cfg.draftRev + 1) % 4294967296)) false) := by
  rw [State.cfgSet_reads hfree hsome hfew hformed, hset]
  rfl

theorem State.cfgSet_none {code i : Nat} {path : String} (hfree : s.cfg.frozen = false) (hsome : entries ≠ []) (hfew : entries.length ≤ 256)
    (hformed : entries.all (fun e => pathFits e.path && Val.formed e.val) = true) (hset : setEntries 0 entries s.cfg.draft = .inl (code, i, path)) :
    s.cfgSet entries = (s, .err code i path "") := by
  rw [State.cfgSet_reads hfree hsome hfew hformed, hset]

theorem State.cfgDiscard_free (hfree : s.cfg.frozen = false) :
    s.cfgDiscard = (s.draftTakes false s.cfg.live, .ok (le 4 ((s.cfg.draftRev + 1) % 4294967296)) false) :=
  if_neg (ne_true_of_eq_false hfree)

/-- A commit of a draft that may change is judged by `State.validate` alone. -/
theorem State.cfgCommit_judged (hmode : mode ≤ 1) (hfree : s.cfg.frozen = false) :
    s.cfgCommit h rev mode named =
      match s.validate rev (if mode = 1 then some named else none) with
      | some a => (s.validated.bump K.ncpCommitsRefused 1, a)
      | none =>
        let r := s.validated.acceptCommit (if mode = 1 then some named else none) h.client.toNat h.request.toNat none
        (r.1, .ok (r.1.commitBody r.2 (s.cfg.draft.diff s.cfg.live)) false) := by
  unfold State.cfgCommit
  rw [if_neg (Nat.not_lt.mpr hmode), hfree]
  rfl

theorem State.cfgCommit_accepted (hmode : mode ≤ 1) (hfree : s.cfg.frozen = false) (hvalid : s.validate rev (if mode = 1 then some named else none) = none) :
    s.cfgCommit h rev mode named =
      let r := s.validated.acceptCommit (if mode = 1 then some named else none) h.client.toNat h.request.toNat none
      (r.1, .ok (r.1.commitBody r.2 (s.cfg.draft.diff s.cfg.live)) false) := by
  rw [State.cfgCommit_judged hmode hfree, hvalid]

theorem State.cfgCommit_refused {a : Answer} (hmode : mode ≤ 1) (hfree : s.cfg.frozen = false)
    (hvalid : s.validate rev (if mode = 1 then some named else none) = some a) :
    s.cfgCommit h rev mode named = (s.validated.bump K.ncpCommitsRefused 1, a) := by
  rw [State.cfgCommit_judged hmode hfree, hvalid]

/-! ### State commands (R335, R375, R376, R380) -/

theorem State.runCmd_working (hworking : s.mode.working = true) (htest : s.health.selftest.running = false) :
    s.runCmd = (s.withPower { s.power with runAsked := true }, Answer.done) :=
  if_pos ⟨hworking, htest⟩

theorem State.runCmd_not_working (hworking : s.mode.working = false) : s.runCmd = (s, Answer.fail E.state) :=
  if_neg fun hruns => ne_true_of_eq_false hworking hruns.1

theorem State.stopCmd_working (hworking : s.mode.working = true) :
    s.stopCmd = (if s.mode.measuring then (s.withPower { s.power with runAsked := false }).toReady else s.withPower { s.power with runAsked := false }, Answer.done) :=
  if_pos hworking

theorem State.stopCmd_not_working (hworking : s.mode.working = false) : s.stopCmd = (s, Answer.fail E.state) :=
  if_neg (ne_true_of_eq_false hworking)

theorem State.bedrockForceCmd_running (hmode : s.mode = .running) :
    s.bedrockForceCmd =
      ((s.withPower { s.power with forced := true }).enterBedrock (s.withPower { s.power with forced := true }).causesNow, Answer.done) := by
  simp only [State.bedrockForceCmd, hmode]

theorem State.bedrockForceCmd_bedrock (hmode : s.mode = .bedrock) :
    s.bedrockForceCmd = ((s.withPower { s.power with forced := true }).evalLevel, Answer.done) := by
  simp only [State.bedrockForceCmd, hmode]

theorem State.bedrockReleaseCmd_running (hmode : s.mode = .running) :
    s.bedrockReleaseCmd = (s.withPower { s.power with forced := false }, Answer.done) := by
  simp only [State.bedrockReleaseCmd, hmode]

theorem State.bedrockReleaseCmd_bedrock (hmode : s.mode = .bedrock) :
    s.bedrockReleaseCmd = ((s.withPower { s.power with forced := false }).evalLevel, Answer.done) := by
  simp only [State.bedrockReleaseCmd, hmode]

theorem Mode.not_measuring_iff {m : Mode} : m.measuring = false ↔ m ≠ .running ∧ m ≠ .bedrock := by
  cases m <;> decide

theorem State.bedrockForceCmd_not_measuring (hmode : s.mode.measuring = false) : s.bedrockForceCmd = (s, Answer.fail E.state) := by
  obtain ⟨hrunning, hbedrock⟩ := Mode.not_measuring_iff.mp hmode
  simp only [State.bedrockForceCmd]

theorem State.bedrockReleaseCmd_not_measuring (hmode : s.mode.measuring = false) : s.bedrockReleaseCmd = (s, Answer.fail E.state) := by
  obtain ⟨hrunning, hbedrock⟩ := Mode.not_measuring_iff.mp hmode
  simp only [State.bedrockReleaseCmd]

/-- What GEODE_ENTER answers does not depend on the session its request came in on. -/
theorem State.comeIn_geodeAnswer (deep mask : Nat) (wake : TS96) : (s.comeIn h).geodeAnswer deep mask wake = (s.at h.at_).geodeAnswer deep mask wake := by
  unfold State.comeIn State.sessionUse
  split <;> rfl

theorem State.geodeAnswer_done {deep mask : Nat} {wake : TS96} (hworking : s.mode.working = true) (htest : s.health.selftest.running = false) (hdeep : deep ≤ 1)
    (hmask : mask % 32 ≠ 0) (hts : tsOk (TS96bits wake) = true) (hlater : bitOf mask 3 = true → s.stamp < stampOfBits (TS96bits wake)) :
    s.geodeAnswer deep mask wake = Answer.done :=
  (if_neg (not_or.mpr ⟨ne_false_of_eq_true hworking, ne_true_of_eq_false htest⟩)).trans
    ((if_neg (not_or.mpr ⟨Nat.not_lt.mpr hdeep, not_or.mpr ⟨hmask, ne_false_of_eq_true hts⟩⟩)).trans
      (if_neg fun htimer => Int.not_le.mpr (hlater htimer.1) htimer.2))

theorem execReset_admitted (hadm : s.admits 0x0070 h (le 1 0 ++ le 3 h.pad)) :
    execReset h s = .next (((s.comeIn h).answered 0x0070 h [] false).enterBoot Cause.reset false) := by
  simp only [execReset]
  rw [if_pos (State.executes_admits hadm), State.serveNcp_admits hadm, State.execute_ok rfl]

theorem execGeodeEnter_admitted {deep mask : Nat} {wake : TS96} (hadm : s.admits 0x0083 h (geodeBody deep mask wake h.pad))
    (hdone : (s.comeIn h).geodeAnswer deep mask wake = Answer.done) :
    execGeodeEnter h deep mask wake s =
      .next (((s.comeIn h).answered 0x0083 h [] false).enterGeode (deep == 1) mask (stampOfBits (TS96bits wake)) false Cause.geodeEnter) := by
  have htaken : (s.executes 0x0083 h (geodeBody deep mask wake h.pad) && decide ((s.at h.at_).geodeAnswer deep mask wake = Answer.done)) = true := by
    rw [State.executes_admits hadm, Bool.true_and, ← State.comeIn_geodeAnswer, decide_eq_true hdone]
  have hrun : (s.comeIn h, (s.comeIn h).geodeAnswer deep mask wake) = (s.comeIn h, .ok [] false) := by rw [hdone]; rfl
  simp only [execGeodeEnter]
  rw [if_pos htaken, State.serveNcp_admits hadm, State.execute_ok hrun]

end

/-- Settles O26: what each request makes of the configuration, in the order its checks are made. -/
theorem configurationRequestsActOnTheDraft : Obligations.ConfigurationRequestsActOnTheDraft := by
  refine fun s h => ⟨?set, ?setRefused, ?discard, ?commit, ?commitRefused, ?save, ?erase, ?time, ?timeRefused, ?subscribe⟩
  case set => exact fun entries d hadm hfree hsome hfew hformed hset => request_ok hadm (State.cfgSet_all hfree hsome hfew hformed hset)
  case setRefused =>
    exact fun entries i code path hadm hfree hsome hfew hformed hset hbusy => request_err hadm (State.cfgSet_none hfree hsome hfew hformed hset) hbusy
  case discard => exact fun hadm hfree => request_ok hadm (State.cfgDiscard_free hfree)
  case commit => exact fun rev mode named hadm hmode hfree hvalid => request_ok hadm (State.cfgCommit_accepted hmode hfree hvalid)
  case commitRefused =>
    exact fun rev mode named result i p q hadm hmode hfree hvalid hbusy => request_err hadm (State.cfgCommit_refused hmode hfree hvalid) hbusy
  case save => exact fun hadm => request_later hadm rfl
  case erase => exact fun hadm => request_later hadm rfl
  case time => exact fun seconds utc hadm hpresent => request_ok hadm (if_neg hpresent)
  case timeRefused => exact fun seconds utc hadm habsent => request_err hadm (if_pos habsent) state_ne_busy
  case subscribe => exact fun mask hadm => request_ok hadm rfl

/-- Settles O30: each command by the modes it acts in; RESET and GEODE_ENTER answer before they leave. -/
theorem stateCommandsMoveTheModule : Obligations.StateCommandsMoveTheModule := by
  refine fun s h => ⟨?reset, ?run, ?stop, ?geode, ?force, ?forceBedrock, ?release, ?releaseBedrock, ?noRun, ?noStop, ?noForce, ?noRelease⟩
  case reset => exact fun hadm => execReset_admitted hadm
  case run => exact fun hadm hworking htest => request_ok hadm (State.runCmd_working hworking htest)
  case stop => exact fun hadm hworking => request_ok hadm (State.stopCmd_working hworking)
  case geode =>
    exact fun deep mask wake hadm hworking htest hdeep hmask hts hlater =>
      execGeodeEnter_admitted hadm (State.geodeAnswer_done hworking htest hdeep hmask hts hlater)
  case force => exact fun hadm hmode => request_ok hadm (State.bedrockForceCmd_running hmode)
  case forceBedrock => exact fun hadm hmode => request_ok hadm (State.bedrockForceCmd_bedrock hmode)
  case release => exact fun hadm hmode => request_ok hadm (State.bedrockReleaseCmd_running hmode)
  case releaseBedrock => exact fun hadm hmode => request_ok hadm (State.bedrockReleaseCmd_bedrock hmode)
  case noRun => exact fun hadm hworking => request_err hadm (State.runCmd_not_working hworking) state_ne_busy
  case noStop => exact fun hadm hworking => request_err hadm (State.stopCmd_not_working hworking) state_ne_busy
  case noForce => exact fun hadm hmode => request_err hadm (State.bedrockForceCmd_not_measuring hmode) state_ne_busy
  case noRelease => exact fun hadm hmode => request_err hadm (State.bedrockReleaseCmd_not_measuring hmode) state_ne_busy

end Sys2Proof.Machine

/-! PROOFS. The firmware update and the work that completes in the background. Raising an event leaves the images and what is known of them; each command's body then follows from
its checks in their order. -/

namespace Sys2Proof.Machine

section
variable {s : State} {client : BitVec 64}

/-! ### Events leave the images (R333) -/

theorem State.pump_fw (n : Nat) : (s.pump n).fw = s.fw := by
  obtain ⟨_, _, hpump, -⟩ := s.pump_only n
  rw [hpump]

theorem State.notify_fw (e : Event) (n : Nat) : (s.notify e n).fw = s.fw := by
  unfold State.notify
  extract_lets x lost s1 s2
  have hs2 : s2.fw = s.fw := by
    dsimp only [s2]
    split <;> rfl
  split
  · exact (State.pump_fw n).trans hs2
  · rfl

theorem State.notifyAll_fw (e : Event) (ns : List Nat) (s : State) : (ns.foldl (fun st n => st.notify e n) s).fw = s.fw := by
  induction ns generalizing s with
  | nil => rfl
  | cons n ns ih => exact (ih (s.notify e n)).trans (State.notify_fw e n)

theorem State.logEntry_fw (kind code severity : Nat) (time : Stamp) (args : List Val) : (s.logEntry kind code severity time args).fw = s.fw := by
  unfold State.logEntry
  extract_lets sec x s0 x0 s1 x1
  have hs1 : s1.fw = s.fw := by
    dsimp only [s1]
    split
    · rfl
    · split <;> rfl
  split
  · exact hs1
  · exact hs1

theorem State.raise_fw (code : Nat) (args : List Val) : (s.raise code args).fw = s.fw := by
  unfold State.raise State.raiseSev State.raiseFull
  extract_lets e s1 s2
  have hs2 : s2.fw = s.fw := by
    dsimp only [s2]
    split
    · exact State.logEntry_fw ..
    · rfl
  exact (State.notifyAll_fw e _ s2).trans hs2

/-! ### Images (R337 to R339) -/

theorem State.imageNow_fw (p : Port) (x : FwImage) : (s.imageNow p x).fw = (s.setImage p x).fw := State.raise_fw ..

theorem State.imageNow_image (p : Port) (x : FwImage) : (s.imageNow p x).fw.image p = x := by
  rw [State.imageNow_fw]
  cases p <;> rfl

theorem State.imageNow_image_other (p : Port) (x : FwImage) : (s.imageNow p.other x).fw.image p = s.fw.image p := by
  rw [State.imageNow_fw]
  cases p <;> rfl

/-- What is known beside the images: whether one is on trial, which is active, and what an update must be. -/
def Fw.rules (x : Fw) : Bool × Port × Nat × Nat := (x.trial, x.active, x.minSecurity, x.revoked)

theorem State.imageNow_rules (p : Port) (x : FwImage) : (s.imageNow p x).fw.rules = s.fw.rules := by
  rw [State.imageNow_fw]
  cases p <;> rfl

/-! ### The update's commands (R337, R339) -/

theorem in_use_ne_busy : E.inUse ≠ E.busy := by decide

theorem State.fwWrite_next {offset : Nat} {data : List Byte} (hmine : s.fwForeign client = false) (howner : s.fw.owner = some client)
    (hwriting : (s.fw.image s.fw.target).state = .writing) (hfinish : s.finishing = false) (hoffset : offset = s.fw.received)
    (hroom : offset + data.length ≤ s.fw.expected) :
    s.fwWrite client offset data = ({ s with fw := { s.fw with received := offset + data.length } }, .later (.fwWrite (offset + data.length) data)) := by
  have howned : s.fw.owner ≠ none := howner ▸ Option.some_ne_none client
  exact (if_neg (ne_true_of_eq_false hmine)).trans
    ((if_neg (not_or.mpr ⟨howned, not_or.mpr ⟨not_not_intro hwriting, ne_true_of_eq_false hfinish⟩⟩)).trans
      (if_neg (not_or.mpr ⟨not_not_intro hoffset, Nat.not_lt.mpr hroom⟩)))

theorem State.fwFinish_whole (hmine : s.fwForeign client = false) (howner : s.fw.owner = some client)
    (hwriting : (s.fw.image s.fw.target).state = .writing) (hfinish : s.finishing = false) (hall : s.fw.received = s.fw.expected) :
    s.fwFinish client = (s, .later .fwFinish) := by
  have howned : s.fw.owner ≠ none := howner ▸ Option.some_ne_none client
  exact (if_neg (ne_true_of_eq_false hmine)).trans
    (if_neg (not_or.mpr ⟨howned, not_or.mpr ⟨not_not_intro hwriting, not_or.mpr ⟨ne_true_of_eq_false hfinish, not_not_intro hall⟩⟩⟩))

/-- The trial image is kept: it is the active one, and what it demands of later images holds. -/
def State.trialKept (s : State) : State :=
  let x := s.fw.image s.fw.running
  let level := max s.fw.minSecurity x.security
  let revoked := Nat.lor s.fw.revoked x.revoke
  let s1 : State := { s with fw := { s.fw with trial := false, trialDeadline := none, minSecurity := level, revoked := revoked, active := s.fw.running } }
  ((s1.roSet K.fwActive s.fw.running.idx).roSet K.fwMinSecurity level).roSet K.fwKeysRevoked revoked

/-- The trial image kept is told ACTIVE. -/
def State.trialActive (s : State) : State := s.trialKept.imageNow s.fw.running { s.fw.image s.fw.running with state := .active }

/-- The trial image is confirmed: the other image is VALID beside it. -/
def State.confirmed (s : State) : State :=
  s.trialActive.imageNow s.fw.running.other { s.trialActive.fw.image s.fw.running.other with state := .valid }

theorem State.fwConfirm_trial (hmine : s.fwForeign client = false) (htrial : s.fw.trial = true) : s.fwConfirm client = (s.confirmed, Answer.done) :=
  (if_neg (ne_true_of_eq_false hmine)).trans (if_neg (ne_false_of_eq_true htrial))

theorem State.confirmed_images :
    (s.confirmed.fw.image s.fw.running).state = .active ∧ (s.confirmed.fw.image s.fw.running.other).state = .valid := by
  unfold State.confirmed
  constructor
  · rw [State.imageNow_image_other, State.trialActive, State.imageNow_image]
  · rw [State.imageNow_image]

theorem State.confirmed_rules :
    s.confirmed.fw.rules = (false, s.fw.running, max s.fw.minSecurity (s.fw.image s.fw.running).security,
      Nat.lor s.fw.revoked (s.fw.image s.fw.running).revoke) :=
  calc s.confirmed.fw.rules = s.trialActive.fw.rules := State.imageNow_rules ..
    _ = s.trialKept.fw.rules := State.imageNow_rules ..
    _ = _ := rfl

/-! ### Work that ends (R311, R338) -/

variable {t : Tick} {flashOk : Bool} {j : Job} {js : List Job}

theorem execBackgroundCommandComplete_job {b : State} {result : Nat} {body : List Byte} (hjobs : s.jobs = j :: js)
    (hdone : (s.at t).jobDone j.work flashOk = (b, result, body)) :
    execBackgroundCommandComplete t flashOk s = .next (b.answerJob j result body) := by
  have hat : (s.at t).jobs = j :: js := hjobs
  simp only [execBackgroundCommandComplete, hat, hdone]

/-- An image that is refused is INVALID, and the update has no owner. -/
def State.imageRefused (s : State) : State :=
  ({ s with fw := { s.fw with owner := none } } : State).imageNow s.fw.target { s.fw.image s.fw.target with state := .invalid }

theorem State.fwVerify_refused {code : Nat} (hverdict : s.fwVerdict (s.fw.image s.fw.target).content = some code) :
    s.fwVerify true = (s.imageRefused, code, errorBody 0xFFFF "" "") := by
  simp only [State.fwVerify, Bool.true_eq_false, if_false, hverdict]
  rfl

/-- An image that is accepted is VALID, with what its header says of it. -/
def State.imageAccepted (s : State) : State :=
  let x := s.fw.image s.fw.target
  s.imageNow s.fw.target { x with state := .valid, version := fieldLe x.content 8 4, security := fieldLe x.content 12 4, revoke := fieldLe x.content 21 1 }

theorem State.fwVerify_accepted (hverdict : s.fwVerdict (s.fw.image s.fw.target).content = none) :
    s.fwVerify true =
      (s.imageAccepted, E.ok, slice (s.fw.image s.fw.target).content 8 4 ++ slice (s.fw.image s.fw.target).content 12 4) := by
  simp only [State.fwVerify, Bool.true_eq_false, if_false, hverdict]
  rfl

theorem State.jobDone_persisted {k n : Nat} {check : Nat} (hlen : (s.slot k).image.length = n) (hcheck : imageCheck (s.slot k).image = check) :
    s.jobDone (.kernelPersist k n check) true =
      (({ s with basalt := { s.basalt with stored := s.basalt.stored.filter (fun e => e.1 != k) ++ [(k, (s.slot k).image)] } } : State).publishImage k,
        E.ok, le 4 n ++ le 4 check) := by
  simp only [State.jobDone, if_true, if_pos (And.intro hlen hcheck)]

theorem State.jobDone_written {n : Nat} {data : List Byte} (hwriting : (s.fw.image s.fw.target).state = .writing) :
    s.jobDone (.fwWrite n data) true =
      (s.setImage s.fw.target { s.fw.image s.fw.target with content := (s.fw.image s.fw.target).content ++ data }, E.ok, le 4 n) := by
  simp only [State.jobDone, if_true, if_pos hwriting]

/-- Flash work that failed, of any job but the check of an image. -/
theorem State.jobDone_failed {work : JobWork} (hwork : work ≠ .fwFinish) : s.jobDone work false = (s, E.fwFlash, errorBody 0xFFFF "" "") := by
  cases work with
  | fwFinish => exact absurd rfl hwork
  | cfgSave | cfgErase | fwWrite | kernelPersist => rfl

/-- The check of an image ends as its verdict says. -/
theorem execBackgroundCommandComplete_finish (hjobs : s.jobs = j :: js) (hwork : j.work = .fwFinish) :
    let a := s.at t
    let x := a.fw.image a.fw.target
    execBackgroundCommandComplete t true s = .next
      (if a.fwGenuine x.content = false then a.imageRefused.answerJob j E.fwSignature (errorBody 0xFFFF "" "")
       else if fieldLe x.content 12 4 < a.fw.minSecurity then a.imageRefused.answerJob j E.fwRollback (errorBody 0xFFFF "" "")
       else a.imageAccepted.answerJob j E.ok (slice x.content 8 4 ++ slice x.content 12 4)) := by
  intro a x
  have hdone : a.jobDone j.work true = a.fwVerify true := by rw [hwork]; rfl
  by_cases hgenuine : a.fwGenuine x.content = false
  · rw [if_pos hgenuine]
    exact execBackgroundCommandComplete_job hjobs (hdone.trans (State.fwVerify_refused (if_pos hgenuine)))
  · rw [if_neg hgenuine]
    by_cases hold : fieldLe x.content 12 4 < a.fw.minSecurity
    · rw [if_pos hold]
      exact execBackgroundCommandComplete_job hjobs (hdone.trans (State.fwVerify_refused ((if_neg hgenuine).trans (if_pos hold))))
    · rw [if_neg hold]
      exact execBackgroundCommandComplete_job hjobs (hdone.trans (State.fwVerify_accepted ((if_neg hgenuine).trans (if_neg hold))))

end

/-- Settles O28: each command's checks in their order; another client's update is the first of them. -/
theorem firmwareUpdatesActOnTheInactiveImage : Obligations.FirmwareUpdatesActOnTheInactiveImage := by
  refine fun s h => ⟨?begins, ?writes, ?finishes, ?activates, ?confirms, ?noBegin, ?noWrite, ?noFinish, ?noActivate, ?noConfirm⟩
  case begins =>
    exact fun bytes hadm hmine hfits htrial hfinish hidle => request_ok hadm
      ((if_neg (ne_true_of_eq_false hmine)).trans ((if_neg (Nat.not_lt.mpr hfits)).trans
        ((if_neg (not_or.mpr ⟨ne_true_of_eq_false htrial, ne_true_of_eq_false hfinish⟩)).trans
          (if_neg fun hruns => hidle.elim (absurd hruns.1) (ne_true_of_eq_false hruns.2)))))
  case writes =>
    exact fun offset data hadm hmine howner hwriting hfinish hoffset hroom =>
      request_later hadm (State.fwWrite_next hmine howner hwriting hfinish hoffset hroom)
  case finishes => exact fun hadm hmine howner hwriting hfinish hall => request_later hadm (State.fwFinish_whole hmine howner hwriting hfinish hall)
  case activates =>
    exact fun image hadm hmine himage hinactive hvalid => request_ok hadm
      ((if_neg (ne_true_of_eq_false hmine)).trans ((if_neg (Nat.not_lt.mpr himage)).trans
        ((if_neg hinactive).trans (if_neg (not_not_intro hvalid)))))
  case confirms =>
    intro hadm hmine htrial
    have hrules := (s.comeIn h).confirmed_rules
    simp only [Fw.rules, Prod.mk.injEq] at hrules
    obtain ⟨hkept, hactive, hlevel, hrevoked⟩ := hrules
    obtain ⟨himage, hother⟩ := (s.comeIn h).confirmed_images
    exact ⟨_, request_ok hadm (State.fwConfirm_trial hmine htrial), hkept, hactive, hlevel, hrevoked, himage, hother⟩
  case noBegin => exact fun bytes hadm hforeign => request_err hadm (if_pos hforeign) in_use_ne_busy
  case noWrite => exact fun offset data hadm hforeign => request_err hadm (if_pos hforeign) in_use_ne_busy
  case noFinish => exact fun hadm hforeign => request_err hadm (if_pos hforeign) in_use_ne_busy
  case noActivate => exact fun image hadm hforeign => request_err hadm (if_pos hforeign) in_use_ne_busy
  case noConfirm => exact fun hadm hforeign => request_err hadm (if_pos hforeign) in_use_ne_busy

/-- Settles O29: the job at the front of the list by its kind of work, and by how the flash work went. -/
theorem backgroundWorkEndsWithItsAnswer : Obligations.BackgroundWorkEndsWithItsAnswer := by
  refine fun s t flashOk => ⟨?idle, fun j js hjobs => ⟨?save, ?erase, ?write, ?finish, ?persist, ?failed⟩⟩
  case idle =>
    intro hnone
    have hat : (s.at t).jobs = [] := hnone
    simp only [exec_backgroundCommandComplete, execBackgroundCommandComplete, hat]
  case save =>
    rintro set hwork rfl
    exact execBackgroundCommandComplete_job hjobs (hwork ▸ rfl)
  case erase =>
    rintro hwork rfl
    exact execBackgroundCommandComplete_job hjobs (hwork ▸ rfl)
  case write =>
    rintro n data hwork rfl hwriting
    exact execBackgroundCommandComplete_job hjobs (hwork ▸ State.jobDone_written hwriting)
  case finish =>
    rintro hwork rfl
    exact execBackgroundCommandComplete_finish hjobs hwork
  case persist =>
    rintro k n check hwork rfl hlen hcheck
    exact execBackgroundCommandComplete_job hjobs (hwork ▸ State.jobDone_persisted hlen hcheck)
  case failed =>
    rintro hwork rfl
    exact execBackgroundCommandComplete_job hjobs (State.jobDone_failed hwork)

end Sys2Proof.Machine

/-! PROOFS. Tests on request, ensemble requests, and codes and bodies that name no command: each command's body, where its request is admitted. -/

namespace Sys2Proof.Machine

section
variable {s : State} {h : Hdr} {mask : Nat}

/-! ### Tests on request (R403, R404, R407) -/

theorem any_not_allowed_eq_false (hallowed : ∀ i ∈ testsOf mask, s.testAllowed i = true) : (testsOf mask).any (fun i => !(s.testAllowed i)) = false := by
  rw [List.any_eq_false]
  intro i hi
  rw [hallowed i hi]
  decide

/-- The tests of a mask run. -/
def State.testsRun (s : State) (mask : Nat) : State :=
  (s.withHealth { s.health with selftest := ⟨mask, 0, sumN (((testsOf mask).filter s.testSkipped).map (2 ^ ·)), true, s.now, none, List.replicate 6 0⟩ }).roSet
    K.healthSelftestState 1

/-- The test of the spare rank begins with them, where it is asked, there is one, and it is not running. -/
theorem State.selftestStart_allowed (hmask : mask < 64) (hidle : s.health.selftest.running = false) (hallowed : ∀ i ∈ testsOf mask, s.testAllowed i = true) :
    s.selftestStart mask =
      let b := s.testsRun mask
      (match bitOf mask 3, b.spareRank with
        | true, some r =>
          if b.mem.spareTest = none then
            (b.withMem { b.mem with spareTest := some b.now, spareLast := b.now }).setRank r { b.rank r with selfRefresh := false }
          else b
        | _, _ => b, Answer.done) :=
  (if_neg (Nat.not_le.mpr hmask)).trans
    ((if_neg (not_or.mpr ⟨ne_true_of_eq_false hidle, ne_true_of_eq_false (any_not_allowed_eq_false hallowed)⟩)).trans rfl)

theorem State.selftestStart_no_spare (hmask : mask < 64) (hidle : s.health.selftest.running = false) (hallowed : ∀ i ∈ testsOf mask, s.testAllowed i = true)
    (hspare : bitOf mask 3 = false ∨ (s.testsRun mask).spareRank = none ∨ (s.testsRun mask).mem.spareTest.isSome = true) :
    s.selftestStart mask = (s.testsRun mask, Answer.done) := by
  rw [State.selftestStart_allowed hmask hidle hallowed]
  simp only
  split
  next r hbit hrank =>
    rw [hbit, hrank] at hspare
    obtain hspare | hspare | hspare := hspare
    · exact nomatch hspare
    · exact nomatch hspare
    · rw [if_neg (Option.isSome_iff_ne_none.mp hspare)]
  next => rfl

theorem State.selftestStart_spare {r : Nat} (hmask : mask < 64) (hidle : s.health.selftest.running = false) (hallowed : ∀ i ∈ testsOf mask, s.testAllowed i = true)
    (hbit : bitOf mask 3 = true) (hrank : (s.testsRun mask).spareRank = some r) (hnone : (s.testsRun mask).mem.spareTest = none) :
    let b := s.testsRun mask
    s.selftestStart mask =
      ((b.withMem { b.mem with spareTest := some b.now, spareLast := b.now }).setRank r { b.rank r with selfRefresh := false }, Answer.done) := by
  rw [State.selftestStart_allowed hmask hidle hallowed]
  simp only [hbit, hrank, if_pos hnone]

theorem State.selftestStart_not_allowed {i : Nat} (hmask : mask < 64) (hi : i ∈ testsOf mask) (hnot : s.testAllowed i = false) :
    s.selftestStart mask = (s, Answer.fail E.state) := by
  have hany : (testsOf mask).any (fun i => !(s.testAllowed i)) = true := List.any_eq_true.mpr ⟨i, hi, by rw [hnot]; rfl⟩
  exact (if_neg (Nat.not_le.mpr hmask)).trans (if_pos (.inr hany))

variable {link pattern seconds : Nat} {peer : BitVec 64}

/-- LINK_TEST with arguments in their ranges, of a link that is not under test. -/
theorem State.linkTestAsk_free (hlink : link < 10) (hpattern : pattern < 4) (hleast : 1 ≤ seconds) (hmost : seconds ≤ 3600) (hfree : s.linkTesting link = false) :
    s.linkTestAsk link pattern seconds peer =
      if s.mode = .ready then
        if link = 0 ∧ peer ≠ 0 then (s.drawn.linkTestStart link pattern seconds s.partnerPort, Answer.done) else (s.linkTestStart link pattern seconds none, Answer.done)
      else if s.mode = .running ∧ link = 0 ∧ peer ≠ 0 then
        match s.partnerPort with
        | some p => (s.drawn.linkTestStart link pattern seconds (some p), Answer.done)
        | none => (s.drawn, Answer.fail E.state)
      else (s, Answer.fail E.state) :=
  (if_neg (by omega)).trans ((if_neg (ne_true_of_eq_false hfree)).trans rfl)

theorem State.linkTestAsk_partner (hlink : link < 10) (hpattern : pattern < 4) (hleast : 1 ≤ seconds) (hmost : seconds ≤ 3600) (hfree : s.linkTesting link = false)
    (hmode : s.mode = .running) (hzero : link = 0) (hpeer : peer ≠ 0) :
    s.linkTestAsk link pattern seconds peer = match s.partnerPort with
      | some p => (s.drawn.linkTestStart link pattern seconds (some p), Answer.done)
      | none => (s.drawn, Answer.fail E.state) := by
  have hready : s.mode ≠ .ready := by rw [hmode]; decide
  exact (State.linkTestAsk_free hlink hpattern hleast hmost hfree).trans ((if_neg hready).trans ((if_pos ⟨hmode, hzero, hpeer⟩).trans rfl))

/-- LINK_TEST in RUNNING is answered as the partner's port is found or not. -/
theorem execLinkTest_partner (hadm : s.admits 0x00A3 h (le 1 link ++ le 1 pattern ++ le 2 seconds ++ le 8 peer.toNat)) {a : State} (ha : s.comeIn h = a)
    (hasked : a.linkTestAsk link pattern seconds peer = match a.partnerPort with
      | some p => (a.drawn.linkTestStart link pattern seconds (some p), Answer.done)
      | none => (a.drawn, Answer.fail E.state)) :
    execLinkTest h link pattern seconds peer s = .next (match a.partnerPort with
      | some p => (a.drawn.linkTestStart link pattern seconds (some p)).answered 0x00A3 h [] false
      | none => a.drawn.failed 0x00A3 h E.state 0xFFFF "" "") := by
  subst ha
  cases hport : (s.comeIn h).partnerPort with
  | some p =>
    rw [hport] at hasked
    exact request_ok hadm hasked
  | none =>
    rw [hport] at hasked
    exact request_err hadm hasked state_ne_busy

/-! ### Ensemble requests (R344, R348, R357) -/

theorem execEnsForget_absent {id : BitVec 64} {m : Member} (hadm : s.admits 0x0094 h (le 8 id.toNat)) (hm : (s.comeIn h).member id = some m)
    (habsent : m.absent.isSome = true) : execEnsForget h id s = .next (((s.comeIn h).dropMember id).answered 0x0094 h [] false) :=
  request_ok hadm (by simp only [hm, if_pos habsent, Answer.done])

theorem execEnsForget_present {id : BitVec 64} {m : Member} (hadm : s.admits 0x0094 h (le 8 id.toNat)) (hm : (s.comeIn h).member id = some m)
    (hpresent : m.absent = none) : execEnsForget h id s = .next ((s.comeIn h).failed 0x0094 h E.state 0xFFFF "" "") :=
  request_err hadm (by simp only [hm, hpresent, Option.isSome_none, Bool.false_eq_true, if_false, Answer.fail]) state_ne_busy

variable {named : TS96} {policy : Nat} {members : List (BitVec 64 × Nat)}

/-- A strict policy is content where every module listed takes part or is excluded by its own state. -/
theorem strict_policy_content
    (hpolicy : policy = 1 ∨ ∀ id ∈ s.tableIds, (s.statusById id).getD 0 = 2 ∨ takesPart ((s.statusById id).getD 0) = true) :
    (policy == 0 && s.tableIds.any (fun id => let v := (s.statusById id).getD 0; v != 2 && !takesPart v)) = false := by
  obtain rfl | hall := hpolicy
  · rfl
  · have hnone : s.tableIds.any (fun id => let v := (s.statusById id).getD 0; v != 2 && !takesPart v) = false := by
      rw [List.any_eq_false]
      intro id hid
      obtain htwo | htakes := hall id hid
      · simp only [htwo, bne_self_eq_false, Bool.false_and, Bool.false_eq_true, not_false_iff]
      · simp only [htakes, Bool.not_true, Bool.and_false, Bool.false_eq_true, not_false_iff]
    rw [hnone, Bool.and_false]

/-- The modules a commit is for: those asked, this one among them. -/
def State.commitAsked (s : State) (members : List (BitVec 64 × Nat)) : List (BitVec 64) :=
  let asked := if members = [] then s.tableIds else members.map (·.1)
  (if asked.contains s.moduleId then asked else s.moduleId :: asked).eraseDups

/-- A module that a commit includes. -/
def State.commitTakes (s : State) (id : BitVec 64) : Bool := decide (id = s.moduleId) || takesPart ((s.statusById id).getD 5)

/-- The transaction a commit opens. -/
def State.commitOpened (s : State) (named : TS96) (policy : Nat) (members : List (BitVec 64 × Nat)) : State × Nat :=
  s.openTxn named (policy == 1)
    (((s.commitAsked members).filter s.commitTakes).map (fun id => (id, ((members.find? (fun e => e.1 == id)).map (·.2)).getD 0)))
    ((s.commitAsked members).filter (fun id => !(s.commitTakes id)))

theorem State.ensCommit_accepted (hpolicy : policy ≤ 1) (hlen : members.length ≤ 128) (hens : s.ensRefused (members.map (·.1)) = false) (hfree : s.ens.coord = none)
    (hstrict : policy = 1 ∨ ∀ id ∈ s.tableIds, (s.statusById id).getD 0 = 2 ∨ takesPart ((s.statusById id).getD 0) = true) (hnamed : s.namedOk named = true) :
    s.ensCommit named policy members =
      ((s.commitOpened named policy members).1, .ok (le 4 (s.commitOpened named policy members).2) false) := by
  have hwilling : (s.ensRefused (members.map (·.1)) || s.ens.coord.isSome ||
      (policy == 0 && s.tableIds.any (fun id => let v := (s.statusById id).getD 0; v != 2 && !takesPart v))) = false := by
    rw [strict_policy_content hstrict, hens, hfree]
    rfl
  unfold State.ensCommit State.commitOpened State.commitAsked
  simp only [← List.map_eq_nil_iff (l := members) (f := (·.1))]
  exact (if_neg (not_or.mpr ⟨Nat.not_lt.mpr hpolicy, Nat.not_lt.mpr hlen⟩)).trans
    ((if_neg (ne_true_of_eq_false hwilling)).trans ((if_neg (ne_false_of_eq_true hnamed)).trans rfl))

variable {trigger : TS96} {profile : Nat} {ids : List (BitVec 64)}

/-- The modules an ensemble capture is asked of: those named, or the members that are neither OBSERVER nor ABSENT. -/
def State.capturesOf (s : State) (ids : List (BitVec 64)) : List (BitVec 64) :=
  if ids = [] then s.tableIds.filter (fun id => (s.statusById id).getD 5 != 2 && (s.statusById id).getD 5 != 5) else ids.eraseDups

/-- The number of the next ensemble transaction. -/
def State.nextTxn (s : State) : Nat := (s.ens.count + 1) % 4294967296

/-- An ensemble capture is asked of the other modules, and an OBSERVER among them is noted. -/
def State.captureNoted (s : State) (trigger : TS96) (profile : Nat) (ids : List (BitVec 64)) : State :=
  let asked := s.capturesOf ids
  let b := (s.withEns { s.ens with count := s.nextTxn, caps := s.ens.caps ++ [⟨s.nextTxn, s.now, asked, []⟩] }).roSet K.ensTxnLast s.nextTxn
  let sent := (asked.filter (fun id => decide (id ≠ s.moduleId) && (s.statusById id).getD 5 != 2)).foldl
    (fun (y : State) id => y.sendPeer id 0x40 (ts96Bytes trigger ++ le 1 profile ++ le 3 0)) b
  (asked.filter (fun id => decide (id ≠ s.moduleId) && (s.statusById id).getD 5 == 2)).foldl (fun (y : State) id => y.captureAnswer id s.nextTxn E.ensemble 0) sent

theorem State.ensCaptureAt_formed (hts : tsOk (TS96bits trigger) = true) (hprofile : profile ≤ 7) (hlen : ids.length ≤ 128) (hens : s.ensRefused ids = false) :
    s.ensCaptureAt trigger profile ids =
      if (s.capturesOf ids).contains s.moduleId then
        match (s.captureNoted trigger profile ids).captureFor (stampOfBits (TS96bits trigger)) profile with
        | (b, .inl code) => (b.captureAnswer s.moduleId s.nextTxn code 0, .ok (le 4 s.nextTxn) false)
        | (b, .inr n) => (b.captureAnswer s.moduleId s.nextTxn 0 n, .ok (le 4 s.nextTxn) false)
      else (s.captureNoted trigger profile ids, .ok (le 4 s.nextTxn) false) :=
  (if_neg (not_or.mpr ⟨ne_false_of_eq_true hts, not_or.mpr ⟨Nat.not_lt.mpr hprofile, Nat.not_lt.mpr hlen⟩⟩)).trans
    ((if_neg (ne_true_of_eq_false hens)).trans rfl)

theorem State.ensCaptureAt_own {own : State × (Nat ⊕ Nat)} {answer : Nat × Nat} (hts : tsOk (TS96bits trigger) = true) (hprofile : profile ≤ 7) (hlen : ids.length ≤ 128)
    (hens : s.ensRefused ids = false) (hin : (s.capturesOf ids).contains s.moduleId = true)
    (hown : (s.captureNoted trigger profile ids).captureFor (stampOfBits (TS96bits trigger)) profile = own)
    (hanswer : own.2 = .inl answer.1 ∧ answer.2 = 0 ∨ own.2 = .inr answer.2 ∧ answer.1 = 0) :
    s.ensCaptureAt trigger profile ids = (own.1.captureAnswer s.moduleId s.nextTxn answer.1 answer.2, .ok (le 4 s.nextTxn) false) := by
  rw [State.ensCaptureAt_formed hts hprofile hlen hens, if_pos hin, hown]
  obtain ⟨b, r⟩ := own
  obtain ⟨code, n⟩ := answer
  obtain ⟨rfl, rfl⟩ | ⟨rfl, rfl⟩ := hanswer
  · rfl
  · rfl

/-! ### Codes and bodies of no command (R336) -/

variable {code : BitVec 16} {body : List Byte}

theorem no_row_of_code {n : Nat} (hnone : ∀ e ∈ bodySizes, e.1 ≠ n) : bodySizes.any (fun e => e.1 == n) = false := by
  rw [List.any_eq_false]
  exact fun e he => by simpa only [beq_iff_eq] using hnone e he

theorem bodyFits_of_no_row {n length : Nat} (hnone : ∀ e ∈ bodySizes, e.1 ≠ n) : bodyFits n length = false := by
  unfold bodyFits
  rw [List.any_eq_false]
  intro e he
  rw [beq_eq_false_iff_ne.mpr (hnone e he), Bool.false_and, Bool.false_and]
  exact Bool.false_ne_true

theorem execUnknownCommand_unfit (hunfit : bodyFits code.toNat body.length = false) :
    execUnknownCommand h code body s = request code.toNat h body (fun st => (st, unknownAnswer code.toNat)) s :=
  if_neg (ne_true_of_eq_false hunfit)

theorem unknownAnswer_command {n : Nat} (hnone : ∀ e ∈ bodySizes, e.1 ≠ n) : unknownAnswer n = Answer.fail E.command :=
  congrArg Answer.fail (if_neg (ne_true_of_eq_false (no_row_of_code hnone)))

theorem unknownAnswer_format {n : Nat} {e : Nat × Nat × Nat} (he : e ∈ bodySizes) (hcode : e.1 = n) : unknownAnswer n = Answer.fail E.format := by
  have hrow : bodySizes.any (fun e => e.1 == n) = true := List.any_eq_true.mpr ⟨e, he, beq_iff_eq.mpr hcode⟩
  exact congrArg Answer.fail (if_pos hrow)

theorem command_ne_busy : E.command ≠ E.busy := by decide

theorem format_ne_busy : E.format ≠ E.busy := by decide

end

/-- Settles O31: each request's checks in their order, and what it does once they hold. -/
theorem testsAndEnsembleRequests : Obligations.TestsAndEnsembleRequests := by
  refine fun s h => ⟨?tests, ?noTests, ?linkTest, ?forget, ?noForget, ?commit, ?capture, ?unknown, ?unfit⟩
  case tests =>
    exact fun mask hadm hmask hidle hallowed =>
      ⟨fun hspare => request_ok hadm (State.selftestStart_no_spare hmask hidle hallowed hspare),
        fun r hbit hrank hnone => request_ok hadm (State.selftestStart_spare hmask hidle hallowed hbit hrank hnone)⟩
  case noTests => exact fun mask i hadm hmask hi hnot => request_err hadm (State.selftestStart_not_allowed hmask hi hnot) state_ne_busy
  case linkTest =>
    intro link pattern seconds peer hadm hlink hpattern hleast hmost hfree runs
    have hasked := State.linkTestAsk_free (peer := peer) hlink hpattern hleast hmost hfree
    refine ⟨?alone, ?ready, ?running⟩
    case alone =>
      exact fun hmode halone => request_ok hadm (hasked.trans ((if_pos hmode).trans (if_neg fun h' => halone.elim (absurd h'.1) h'.2)))
    case ready => exact fun hmode hzero hpeer => request_ok hadm (hasked.trans ((if_pos hmode).trans (if_pos ⟨hzero, hpeer⟩)))
    case running =>
      exact fun hmode hzero hpeer => execLinkTest_partner hadm rfl (State.linkTestAsk_partner hlink hpattern hleast hmost hfree hmode hzero hpeer)
  case forget => exact fun id m hadm hm habsent => execEnsForget_absent hadm hm habsent
  case noForget => exact fun id m hadm hm hpresent => execEnsForget_present hadm hm hpresent
  case commit =>
    exact fun named policy members hadm hpolicy hlen hens hcoord hstrict hnamed =>
      request_ok hadm (State.ensCommit_accepted hpolicy hlen hens hcoord hstrict hnamed)
  case capture =>
    exact fun trigger profile members hadm hts hprofile hlen hens =>
      ⟨fun hout => request_ok hadm ((State.ensCaptureAt_formed hts hprofile hlen hens).trans (if_neg (ne_true_of_eq_false hout))),
        fun code hin hown => request_ok hadm (State.ensCaptureAt_own (answer := (code, 0)) hts hprofile hlen hens hin rfl (.inl ⟨hown, rfl⟩)),
        fun n hin hown => request_ok hadm (State.ensCaptureAt_own (answer := (0, n)) hts hprofile hlen hens hin rfl (.inr ⟨hown, rfl⟩))⟩
  case unknown =>
    intro code body hadm hnone
    refine (execUnknownCommand_unfit (bodyFits_of_no_row hnone)).trans (request_err hadm ?_ command_ne_busy)
    exact congrArg (Prod.mk _) (unknownAnswer_command hnone)
  case unfit =>
    intro code body e hadm he hcode hunfit
    refine (execUnknownCommand_unfit hunfit).trans (request_err hadm ?_ format_ne_busy)
    exact congrArg (Prod.mk _) (unknownAnswer_format he hcode)

end Sys2Proof.Machine
